-- ==== Sys2Proof/Word.lean ====
section
/-! DEFINITION. The word types of the AQ7102 model and their plainest arithmetic: bytes, 32-bit and 64-bit words,
fields of a number given by their bits (R5), and the two byte orders (R6). -/

namespace Sys2Proof

abbrev Byte := BitVec 8
abbrev Word := BitVec 32
abbrev DWord := BitVec 64

/-- Field [hi:lo] of a number (R5). -/
def bits (v hi lo : Nat) : Nat := v / 2 ^ lo % 2 ^ (hi + 1 - lo)

/-- Bit n of a number (R5). -/
def bit (v n : Nat) : Bool := v.testBit n

def b2n (b : Bool) : Nat := if b then 1 else 0

/-- `v` with field [hi:lo] replaced by the low bits of `x` (R5). -/
def setBits (v hi lo x : Nat) : Nat :=
  v - bits v hi lo * 2 ^ lo + x % 2 ^ (hi + 1 - lo) * 2 ^ lo

/-- A number read as signed in `w` bits. -/
def signed (w v : Nat) : Int := if v % 2 ^ w < 2 ^ (w - 1) then (v % 2 ^ w : Nat) else (v % 2 ^ w : Nat) - (2 ^ w : Nat)

/-- The residue of an integer in `w` bits. -/
def unsigned (w : Nat) (i : Int) : Nat := (i % (2 ^ w : Nat)).toNat

/-- `n` bytes of a number, least significant first (R6, host structures). -/
def bytesLE : Nat → Nat → List Byte
  | 0, _ => []
  | n + 1, v => BitVec.ofNat 8 v :: bytesLE n (v / 256)

/-- `n` bytes of a number, most significant first (R6, network headers). -/
def bytesBE (n v : Nat) : List Byte := (bytesLE n v).reverse

/-- The number that bytes spell, least significant first. -/
def leNat : List Byte → Nat
  | [] => 0
  | b :: t => b.toNat + 256 * leNat t

/-- The number that bytes spell, most significant first. -/
def beNat (l : List Byte) : Nat := leNat l.reverse

/-- `n` bytes from place `i` of a byte list; a place past the end holds 0. -/
def sliceB (l : List Byte) (i n : Nat) : List Byte := (List.range n).map fun k => l.getD (i + k) 0

/-- The little-endian field of `n` bytes at byte `i`. -/
def fieldLE (l : List Byte) (i n : Nat) : Nat := leNat (sliceB l i n)

/-- The big-endian field of `n` bytes at byte `i`. -/
def fieldBE (l : List Byte) (i n : Nat) : Nat := beNat (sliceB l i n)

/-- A byte list with `new` written from place `i`; places outside the list are not written. -/
def patchB (l : List Byte) (i : Nat) (new : List Byte) : List Byte :=
  l.zipIdx.map fun (b, k) => if i ≤ k ∧ k < i + new.length then new.getD (k - i) 0 else b

/-- A byte list cut or filled with zeros to length `n`. -/
def fitB (n : Nat) (l : List Byte) : List Byte := sliceB l 0 n

/-- Division rounded up. -/
def ceilDiv (a b : Nat) : Nat := (a + b - 1) / b

/-- `v` limited to `lo` and `hi`. -/
def clampN (lo hi v : Nat) : Nat := max lo (min hi v)

def clampI (lo hi v : Int) : Int := max lo (min hi v)

/-- A 32-bit count that saturates. -/
def sat32 (v : Nat) : Nat := min v (2 ^ 32 - 1)

end Sys2Proof
end

