-- ==== Sys2Proof/Formats.lean ====
section
/-! DEFINITION. The operand forms of the commands: a host command entry as a seat writes it (R413), who executes a Dravea
instruction, its predication (R49), and the operand formats of R52, field by field. -/

namespace Sys2Proof

/-- A host command in the ring of a seat (R413): the seat (0 A, 1 B) and the ring it stands at the head of, FLAGS, TAG, LEN,
ADDR, the 48 PARAM bytes (entry bytes 16 to 63), the bytes the device reads from the buffer in host memory, and whether
host memory answers the device's reads and writes of the buffer. OP is the command's own row. -/
structure CmdEntry where
  seat : Fin 2
  ring : Fin 8
  flags : BitVec 8
  tag : BitVec 16
  len : BitVec 32
  addr : BitVec 64
  param : List Byte
  buf : List Byte
  dmaOk : Bool
deriving DecidableEq, Repr

/-- The straps as a start samples them (R484). -/
structure Straps where
  swatch : BitVec 2
  bootsrc : Bool
  wakeaddr : BitVec 3
  testmode : Bool
deriving DecidableEq, Repr

/-- The 16 bytes of a recovery request (R427), without its OP. -/
structure RecReq where
  magic : BitVec 16
  rsv : BitVec 8
  addr : BitVec 32
  len : BitVec 32
  crc : BitVec 32
deriving DecidableEq, Repr

/-- Which of the two copies of a coat's image in the render store answer with poison (R85, R147, R195). -/
structure ImagePoison where
  first : Bool
  second : Bool
deriving DecidableEq, Repr

/-- A member of a spread group, with its uncorrectable codewords of one millisecond (R276). -/
structure MemberErrors where
  member : Fin 64
  uncorr : Nat
deriving DecidableEq, Repr

/-- A bank of a channel whose refresh is due, and whether its stack is above 85 °C (R206). -/
structure BankRefresh where
  bank : Nat
  hot : Bool
deriving DecidableEq, Repr

/-- Who executes a Dravea instruction: the ingress context of a frame, the egress context of a copy, or a thread of a
scaffold engine (R32). -/
inductive Who where
  | ing (frame : Nat)
  | egr (copy : Nat)
  | thr (engine : Fin 32) (thread : Fin 8)
deriving DecidableEq, Repr

/-- The predication fields PI and PS of an instruction word (R48, R49). -/
structure Pred where
  pi : BitVec 3
  ps : Bool
deriving DecidableEq, Repr

/-- Format A (R52). -/
structure FmtA where
  rd : BitVec 6
  ra : BitVec 6
  rb : BitVec 6
  i : Bool
  x : Bool
  imm : BitVec 32
deriving DecidableEq, Repr

/-- Format P (R52). -/
structure FmtP where
  cond : BitVec 3
  pd : BitVec 3
  ra : BitVec 6
  rb : BitVec 6
  i : Bool
  imm : BitVec 32
deriving DecidableEq, Repr

/-- Format H (R52). -/
structure FmtH where
  rd : BitVec 6
  off : BitVec 6
  len : BitVec 6
  fn : BitVec 2
  imm : BitVec 32
deriving DecidableEq, Repr

/-- Format X (R52); `len1` is LEN−1. -/
structure FmtX where
  rd : BitVec 6
  bit : BitVec 9
  len1 : BitVec 5
  srcK : Bool
  reg : Bool
  ra : BitVec 6
deriving DecidableEq, Repr

/-- Format XM (R52). -/
structure FmtXM where
  rd : BitVec 6
  ks : BitVec 3
  bit : BitVec 7
  len1 : BitVec 5
deriving DecidableEq, Repr

/-- Format XI (R52). -/
structure FmtXI where
  rd : BitVec 6
  ra : BitVec 6
  pos : BitVec 6
  len1 : BitVec 6
deriving DecidableEq, Repr

/-- Format KB (R52). -/
structure FmtKB where
  koff : BitVec 6
  len : BitVec 5
  srcReg : Bool
  woff : BitVec 6
deriving DecidableEq, Repr

/-- Format AV (R52). -/
structure FmtAV where
  bytes : BitVec 8
  reg : Bool
  ra : BitVec 6
deriving DecidableEq, Repr

/-- Format L (R52); of LKF, `tbl` holds the flow space in its low 4 bits. -/
structure FmtL where
  tbl : BitVec 8
  kd : BitVec 3
  hp : BitVec 3
  ko : BitVec 6
  kl : BitVec 6
  ra : BitVec 6
  imm : BitVec 20
deriving DecidableEq, Repr

/-- Format FS (R52). -/
structure FmtFS where
  rd : BitVec 6
  foff : BitVec 7
  sz : BitVec 2
  rb : BitVec 6
  pd : BitVec 3
  tb : BitVec 3
  i : Bool
  imm : BitVec 24
deriving DecidableEq, Repr

/-- Format FL (R52). -/
structure FmtFL where
  space : BitVec 4
  ko : BitVec 6
  kl : BitVec 6
  ra : BitVec 6
deriving DecidableEq, Repr

/-- Format E (R52). -/
structure FmtE where
  woff : BitVec 6
  len : BitVec 5
  reg : Bool
  ra : BitVec 6
  imm : BitVec 34
deriving DecidableEq, Repr

/-- Format N (R52). -/
structure FmtN where
  kind : BitVec 2
  p : Bool
  l3 : BitVec 6
  l4 : BitVec 6
  aoff : BitVec 6
  poff : BitVec 6
  u : Bool
deriving DecidableEq, Repr

/-- Format T (R52). -/
structure FmtT where
  foff : BitVec 6
  mode : BitVec 2
  tb : BitVec 3
  c : Bool
  coff : BitVec 6
deriving DecidableEq, Repr

/-- Format G (R52). -/
structure FmtG where
  gen : BitVec 12
deriving DecidableEq, Repr

/-- Format W (R52). -/
structure FmtW where
  val : BitVec 20
  reg : Bool
  ra : BitVec 6
  aux : BitVec 2
deriving DecidableEq, Repr

/-- Format TM (R52): `rd` holds RD of TNOW and TSTAMP, and PD in its low 3 bits for TCMP and TGATE. -/
structure FmtTM where
  rd : BitVec 6
  tb : BitVec 3
  part : BitVec 2
  ra : BitVec 6
  i : Bool
  imm : BitVec 34
deriving DecidableEq, Repr

/-- Format C of NEXT (R52). -/
structure FmtC where
  sa : BitVec 3
  sb : BitVec 3
  b2 : Bool
deriving DecidableEq, Repr

/-- Format J (R52). -/
structure FmtJ where
  ra : BitVec 6
  reg : Bool
  imm : BitVec 32
deriving DecidableEq, Repr

/-- Format M (R52). -/
structure FmtM where
  rd : BitVec 6
  ra : BitVec 6
  sz : BitVec 2
  off : BitVec 37
deriving DecidableEq, Repr

/-- Format Q (R52). -/
structure FmtQ where
  rd : BitVec 6
  ra : BitVec 6
  rb : BitVec 6
  kind : BitVec 4
  imm : BitVec 30
deriving DecidableEq, Repr

/-- The little-endian PARAM field of `n` bytes at entry byte `i` (16 to 63). -/
def CmdEntry.p (c : CmdEntry) (i n : Nat) : Nat := fieldLE c.param (i - 16) n

/-! ### The operand bits [51:0] of each format (R52) -/

/-- A field placed with its lowest bit at bit `lo`. -/
def place (lo v : Nat) : Nat := v * 2 ^ lo

def FmtA.enc (f : FmtA) : Nat :=
  place 46 f.rd.toNat + place 40 f.ra.toNat + place 34 f.rb.toNat + place 33 (b2n f.i) + place 32 (b2n f.x) + f.imm.toNat
def FmtP.enc (f : FmtP) : Nat :=
  place 49 f.cond.toNat + place 46 f.pd.toNat + place 40 f.ra.toNat + place 34 f.rb.toNat + place 33 (b2n f.i) + f.imm.toNat
def FmtH.enc (f : FmtH) : Nat :=
  place 46 f.rd.toNat + place 40 f.off.toNat + place 34 f.len.toNat + place 32 f.fn.toNat + f.imm.toNat
def FmtX.enc (f : FmtX) : Nat :=
  place 46 f.rd.toNat + place 37 f.bit.toNat + place 32 f.len1.toNat + place 31 (b2n f.srcK) + place 30 (b2n f.reg) +
    place 24 f.ra.toNat
def FmtXM.enc (f : FmtXM) : Nat := place 46 f.rd.toNat + place 43 f.ks.toNat + place 36 f.bit.toNat + place 31 f.len1.toNat
def FmtXI.enc (f : FmtXI) : Nat := place 46 f.rd.toNat + place 40 f.ra.toNat + place 34 f.pos.toNat + place 28 f.len1.toNat
def FmtKB.enc (f : FmtKB) : Nat :=
  place 46 f.koff.toNat + place 41 f.len.toNat + place 40 (b2n f.srcReg) + place 34 f.woff.toNat
def FmtAV.enc (f : FmtAV) : Nat := place 44 f.bytes.toNat + place 43 (b2n f.reg) + place 37 f.ra.toNat
def FmtL.enc (f : FmtL) : Nat :=
  place 44 f.tbl.toNat + place 41 f.kd.toNat + place 38 f.hp.toNat + place 32 f.ko.toNat + place 26 f.kl.toNat +
    place 20 f.ra.toNat + f.imm.toNat
def FmtFS.enc (f : FmtFS) : Nat :=
  place 46 f.rd.toNat + place 39 f.foff.toNat + place 37 f.sz.toNat + place 31 f.rb.toNat + place 28 f.pd.toNat +
    place 25 f.tb.toNat + place 24 (b2n f.i) + f.imm.toNat
def FmtFL.enc (f : FmtFL) : Nat := place 48 f.space.toNat + place 42 f.ko.toNat + place 36 f.kl.toNat + place 30 f.ra.toNat
def FmtE.enc (f : FmtE) : Nat :=
  place 46 f.woff.toNat + place 41 f.len.toNat + place 40 (b2n f.reg) + place 34 f.ra.toNat + f.imm.toNat
def FmtN.enc (f : FmtN) : Nat :=
  place 50 f.kind.toNat + place 49 (b2n f.p) + place 43 f.l3.toNat + place 37 f.l4.toNat + place 31 f.aoff.toNat +
    place 25 f.poff.toNat + place 24 (b2n f.u)
def FmtT.enc (f : FmtT) : Nat :=
  place 46 f.foff.toNat + place 44 f.mode.toNat + place 41 f.tb.toNat + place 40 (b2n f.c) + place 34 f.coff.toNat
def FmtG.enc (f : FmtG) : Nat := place 40 f.gen.toNat
def FmtW.enc (f : FmtW) : Nat := place 32 f.val.toNat + place 31 (b2n f.reg) + place 25 f.ra.toNat + place 23 f.aux.toNat
def FmtTM.encRd (f : FmtTM) : Nat :=
  place 46 f.rd.toNat + place 43 f.tb.toNat + place 41 f.part.toNat + place 35 f.ra.toNat + place 34 (b2n f.i) + f.imm.toNat
def FmtJ.enc (f : FmtJ) : Nat := place 46 f.ra.toNat + place 45 (b2n f.reg) + f.imm.toNat
def FmtM.enc (f : FmtM) : Nat := place 46 f.rd.toNat + place 40 f.ra.toNat + place 38 f.sz.toNat + f.off.toNat
def FmtQ.enc (f : FmtQ) : Nat :=
  place 46 f.rd.toNat + place 40 f.ra.toNat + place 34 f.rb.toNat + place 30 f.kind.toNat + f.imm.toNat
def FmtC.enc (f : FmtC) : Nat := place 49 f.sa.toNat + place 46 f.sb.toNat + place 45 (b2n f.b2)

/-- The instruction word of an opcode, its predication and its operand bits (R48). -/
def instWord (q : Pred) (op enc : Nat) : Nat := place 56 op + place 55 (b2n q.ps) + place 52 q.pi.toNat + enc

/-- The predication of an instruction word (R48). -/
def wordPred (w : Nat) : Pred := ⟨BitVec.ofNat 3 (bits w 54 52), bit w 55⟩

/-- The bytes of an access. -/
def FmtFS.size (f : FmtFS) : Nat := 2 ^ f.sz.toNat

/-- The predicate a time instruction names. -/
def FmtTM.pd (f : FmtTM) : BitVec 3 := f.rd.truncate 3

/-- A damaged table word (R147): a tag cell, a directory page, an entry of a hash table or a row of a ternary one, or a
prefix, of the table of a number in an instance. -/
inductive DamagedWord where
  | cell (index version : Nat) | page (slot page : Nat) | entry (key mask : List Byte)
  | prefix_ (key : List Byte) (plen : Nat) (coats : List Nat) | node (key : List Byte) (plen : Nat) (coats : List Nat)
deriving DecidableEq, Repr

/-- Where the (144,128) code found an error (R85, R147, R188, R197 to R199, R239, R395, R451). Uncorrectable: a cell of a frame; the
skim copy at a place (bucket × 4 + way); the render record of a handle, its key readable or not; a word of a table in an instance;
the step word that a context reads; a lodge entry of an identity; a write-back queue word of a handle; a scaffold memory address
that a thread reads; a 16-byte codeword of the store by its number; the policer of a quote. Corrected: a cell read of a frame, a skim
word, a table word, the step word that a context reads. -/
inductive UeWhere where
  | cell (frame cell : Nat) | skim (place : Nat) | render (handle : Nat) (keyLost : Bool)
  | table (num inst : Nat) (word : DamagedWord) | stepWord (who : Who) | lodge (space : Nat) (key : List Byte)
  | writeBack (handle : Nat) | scaffold (engine : Fin 32) (thread : Fin 8) (addr : Nat) | codeword (n : Nat) | policer (qid : Nat)
  | cellCorrected (frame : Nat) | skimCorrected | tableCorrected | stepCorrected (who : Who)
deriving DecidableEq, Repr

end Sys2Proof
end

