-- ==== Sys2Proof/Syntax.lean ====
section
/-! DEFINITION. The commands of the AQ7102: one constructor for each row of spec/opcode_table.json, in the table's order, with what
the row's command carries. A seat is 0 for Seat A, 1 for Seat B and 2 for Seat L; frames and copies are named by the numbers the
device gives them; a Dravea instruction names who executes it and its operand fields. -/

namespace Sys2Proof

inductive Instr where
  /-- REGISTER_WRITE (R8). A seat writes a register field that has no row of its own. The write is handled by the field's
  access type, change class, privilege and reserved-encoding rules. -/
  | registerWrite (seat : Fin 3) (off : BitVec 26) (v : BitVec 32)
  /-- RC_READ (R8). A read of an RC field returns its value and clears the field, keeping any event counted in the same
  cycle. -/
  | rcRead (seat : Fin 3) (off : BitVec 26)
  /-- PAIR_LO_READ (R10). A read of NAME_LO returns the low half and captures NAME_HI into the seat's shadow. -/
  | pairLoRead (seat : Fin 3) (off : BitVec 26)
  /-- PAIR_LO_WRITE (R10). A write of NAME_LO is held until the matching NAME_HI write. -/
  | pairLoWrite (seat : Fin 3) (off : BitVec 26) (v : BitVec 32)
  /-- PAIR_HI_WRITE (R10). A write of NAME_HI applies both halves of a 64-bit pair at once. -/
  | pairHiWrite (seat : Fin 3) (off : BitVec 26) (v : BitVec 32)
  /-- TB_SEC_LO_READ (R341). A read of PLUMB_TBn_SEC_LO captures SEC_HI, NS and FRAC of the same tick into the seat's
  shadow. -/
  | tbSecLoRead (seat : Fin 3) (base : Fin 8)
  /-- TIO_CAP_LO_READ (R357). A read of TIO_CAP_LO removes the oldest capture and shadows its high half and edge sense. -/
  | tioCapLoRead (seat : Fin 3) (pin : Fin 16)
  /-- LOG_WORD0_READ (R441). A read of word 0 of a log entry captures the whole entry into the seat's shadow. -/
  | logWord0Read (seat : Fin 3) (entry : Fin 256)
  /-- MAC_EN_WRITE (R289). A write of PORT_CFG.MAC_EN is checked against the mode table and lane use. If accepted it
  enables the port and starts bring-up; otherwise it sets CFG_ERR. -/
  | macEnWrite (seat : Fin 3) (port : Fin 512) (v : BitVec 32)
  /-- TAP_WRITE (R290). A write of LANE_TX_TAP is accepted within the FIR limits or refused with TAP_REJ. -/
  | tapWrite (seat : Fin 3) (lane : Fin 512) (v : BitVec 32)
  /-- POOL_WRITE (R219). A write to a pool size, headroom value or MAC enable that would leave the shared pool below
  65,536 cells is refused. -/
  | poolWrite (seat : Fin 3) (off : BitVec 26) (v : BitVec 32)
  /-- SPAN_ENABLE (R314). A write of LATH_CTL.EN = 1 checks the span's lanes and enables the span, or is refused with
  CFG_ERR. -/
  | spanEnable (seat : Fin 3) (span : Fin 32) (v : BitVec 32)
  /-- CHANNEL_ENABLE (R328). A write of LATH_CHAN_CFG.EN = 1 makes Darby compute D_c for the channel, or is refused. -/
  | channelEnable (seat : Fin 3) (span : Fin 32) (chan : Fin 63) (v : BitVec 32)
  /-- MAP_WRITE (R329). A write to a lath slot map entry takes effect at the next span container only while both channels
  concerned are disabled. -/
  | mapWrite (seat : Fin 3) (span : Fin 32) (n : Fin 40) (v : BitVec 32)
  /-- GROUP_ENABLE (R274). A write of SPREAD_GRP_CTL.EN = 1 enables the group and resets its seam streams, or is refused
  for a spray group whose member rates differ. -/
  | groupEnable (seat : Fin 3) (group : Fin 256) (v : BitVec 32)
  /-- EXPORT_ENABLE (R510). A write of TELEM_CTL.EN = 1 starts the export and sends the template set, or is refused with
  CFG_ERR. -/
  | exportEnable (seat : Fin 3) (v : BitVec 32)
  /-- SHED_THR_WRITE (R496). A write of PWR_SHED_THR is refused unless its thresholds strictly ascend from S1 to S5. -/
  | shedThrWrite (seat : Fin 3) (v : BitVec 32)
  /-- TCLK_SRC_WRITE (R336). A write of PLUMB_CTL.TCLK_SRC selects the source of the time-clock PLL. -/
  | tclkSrcWrite (seat : Fin 3) (v : BitVec 32)
  /-- OWNER_HANDOVER (R406). The device owner hands the device owner role to the other seat by writing SEAT_OWNER. -/
  | ownerHandover (seat : Fin 3) (v : BitVec 32)
  /-- CLAIM (R406). A write of SEAT_CLAIM claims the device owner role. It is accepted when there is no owner or the owner
  has been absent for CLAIM_DELAY. -/
  | claim (seat : Fin 2) (v : BitVec 32)
  /-- KEEPALIVE (R400). A write to SEAT_KEEPALIVE renews the seat's presence. -/
  | keepalive (seat : Fin 2) (v : BitVec 32)
  /-- COMMAND_DOORBELL (R408). A write to a command ring's tail doorbell moves its tail, or is refused with DOORBELL_ERR. -/
  | commandDoorbell (seat : Fin 2) (ring : Fin 8) (v : BitVec 32)
  /-- NOTICE_DOORBELL (R408). A write to a notice ring's head doorbell returns consumed entries, or is refused with
  DOORBELL_ERR. -/
  | noticeDoorbell (seat : Fin 2) (ring : Fin 8) (v : BitVec 32)
  /-- IND_DATA_WRITE (R523). A write to IND_DATA broadcasts the value to COUNT instances of a replicated register, and
  BUSY is set until the last write. -/
  | indDataWrite (seat : Fin 3) (v : BitVec 32)
  /-- SCAF_CODE_DATA_HI_WRITE (R371). A write of SCAF_CODE_DATA_HI stores one word into the inactive code bank and
  advances the index. -/
  | scafCodeDataHiWrite (seat : Fin 3) (v : BitVec 32)
  /-- SWITCH (R372). A write of 1 to SCAF_CODE_CTL.SWITCH checks the inactive bank and makes it active for new tasks. -/
  | switch (seat : Fin 3)
  /-- SIGNAL (R386). A write to SCAF_SIGNAL raises a signal. The signal wakes the tasks that wait on it, or sets its
  pending bit. -/
  | signal (seat : Fin 3) (v : BitVec 32)
  /-- COMMIT (R265). A write of 1 to SCHED_GATE_CTL.COMMIT makes the admin gate list pending and sets its change time. -/
  | commit (seat : Fin 3) (port : Fin 512)
  /-- FREEZE (R503). A write of PERF_CTL.FREEZE stops or resumes every counter from the next tick. -/
  | freeze (seat : Fin 3) (on : Bool)
  /-- SNAP (R504). A write of PERF_CTL.SNAP takes a register snapshot of all counters at the next tick. -/
  | snap (seat : Fin 3)
  /-- HAWK_RAISE (R435). A write of HAWK_RAISE raises a software event on source 512 + SRC. -/
  | hawkRaise (seat : Fin 3) (v : BitVec 32)
  /-- LOG_CLEAR (R440). A write of HAWK_LOG_CTL.CLEAR empties the event log. -/
  | logClear (seat : Fin 3)
  /-- PWR_REQ_L_WRITE (R460). Seat L requests a power transition by writing PWR_REQ_L. -/
  | pwrReqLWrite (seat : Fin 3) (v : BitVec 32)
  /-- TB_SET (R340). The TB CMD SET sets a time base's SEC and NS at one tick. It is a step, and it recomputes gate lists
  and TIO schedules. -/
  | tbSet (seat : Fin 3) (base : Fin 8)
  /-- TB_ADD (R340). The TB CMD ADD adds the signed delta to a time base's count at one tick. It is a step. -/
  | tbAdd (seat : Fin 3) (base : Fin 8)
  /-- TB_SLEW (R340). The TB CMD SLEW starts adding the delta gradually at ADJ plus or minus SLEW_PPB. -/
  | tbSlew (seat : Fin 3) (base : Fin 8)
  /-- SLEW_END (R340). A running slew has added its whole delta, and SLEWING clears. -/
  | slewEnd (base : Fin 8)
  /-- FLASH_ERASE (R494). The DARBY_FLASH OP ERASE erases 4 KiB of flash, unless it touches the active swatch. -/
  | flashErase (seat : Fin 3)
  /-- FLASH_PROGRAM (R494). The DARBY_FLASH OP PROGRAM programs 256 bytes from the buffer with read-back. -/
  | flashProgram (seat : Fin 3)
  /-- FLASH_READ (R496). The DARBY_FLASH OP READ reads 256 bytes of flash into the buffer. -/
  | flashRead (seat : Fin 3)
  /-- FLOW_INSERT (R165). A command that inserts a flow record into the render store, optionally resident or pinned, whole
  or not at all. -/
  | flowInsert (c : CmdEntry)
  /-- FLOW_UPDATE (R165). A command that writes the masked state bytes of a record, optionally clearing STALE or releasing
  a lock. -/
  | flowUpdate (c : CmdEntry)
  /-- FLOW_REMOVE (R165). A command that removes a record from both tiers, ending its quote first. -/
  | flowRemove (c : CmdEntry)
  /-- FLOW_READ (R165). A command that returns the authoritative copy of a record, optionally taking or releasing its lock
  or enumerating a digest block. -/
  | flowRead (c : CmdEntry)
  /-- FLOW_PIN (R179). A command that sets or clears PINNED and NOAGE on a record, installing a resident copy when
  pinning. -/
  | flowPin (c : CmdEntry)
  /-- SHADOW_REWRITE (R165). A command that inserts a record, or rewrites its static bytes, leaving counters and dynamic
  bytes unchanged. -/
  | shadowRewrite (c : CmdEntry)
  /-- TABLE_WRITE (R142). A command that stages one table record or replication record into the staging coat. -/
  | tableWrite (c : CmdEntry)
  /-- TABLE_READ (R145). A command that returns one table entry, replication entry or step word as visible in a named
  view. -/
  | tableRead (c : CmdEntry)
  /-- COAT_STAGE (R106). A command that delivers one piece of a Zwiteov image and, at the piece with LAST, stages the
  image after format, space and privilege checks. -/
  | coatStage (c : CmdEntry)
  /-- COAT_COMMIT (R107). A command that verifies the staged coat, checks active quotes and makes the coat pending for its
  commit time. -/
  | coatCommit (c : CmdEntry)
  /-- COAT_ABANDON (R106). A command that discards the issuing seat's staged content. -/
  | coatAbandon (c : CmdEntry)
  /-- QUOTE_REQUEST (R247). A command that admits a latency quote: it checks the path, fits the calendar, claims cells,
  pins the record and activates the policer. -/
  | quoteRequest (c : CmdEntry)
  /-- QUOTE_RELEASE (R249). A command that removes a quote's policer and starts the wait of D before its resources are
  freed. -/
  | quoteRelease (c : CmdEntry)
  /-- QUOTE_QUERY (R414). A command that returns a quote's parameters, placements, counts and measurements. -/
  | quoteQuery (c : CmdEntry)
  /-- PERF_SNAPSHOT (R504). A command that asks for a snapshot of every counter into a buffer at a TB0 time. -/
  | perfSnapshot (c : CmdEntry)
  /-- SWATCH_SELECT (R492). A command that checks a swatch and schedules a run-time switch to it. -/
  | swatchSelect (c : CmdEntry)
  /-- POWER_REQUEST (R460). A command that requests a transition to a power state. -/
  | powerRequest (c : CmdEntry)
  /-- FRAME_SEND (R421). A command that sends a host frame directly to a VOQ or into an ingress pipeline at pass 0. -/
  | frameSend (c : CmdEntry)
  /-- LEASE_QUERY (R450). A command that returns lease records filtered by kind and holder. -/
  | leaseQuery (c : CmdEntry)
  /-- BARRIER (R417). A command that holds its ring until every command already taken from the named rings has completed. -/
  | barrier (c : CmdEntry)
  /-- WAKE_PORT_ADDR (R475). The wake-port ADDR command sets the BAR0 offset for DATA. -/
  | wakePortAddr (addr : BitVec 32)
  /-- WAKE_PORT_DATA (R475). The wake-port DATA command reads or writes the register at ADDR and advances ADDR by 4. -/
  | wakePortData (write : Option (BitVec 32))
  /-- WAKE_PORT_POWER (R475). The wake-port POWER command requests a power state for Seat L. -/
  | wakePortPower (state : BitVec 8)
  /-- WAKE_PORT_STATUS (R475). The wake-port STATUS command returns the power state and transition flags. -/
  | wakePortStatus
  /-- RECOVERY_ERASE (R427). A recovery loader ERASE request erases flash. -/
  | recoveryErase (q : RecReq) (err : Bool)
  /-- RECOVERY_WRITE (R427). A recovery loader WRITE request checks the CRC, programs flash and reads the data back. -/
  | recoveryWrite (q : RecReq) (data : List Byte) (err : Bool)
  /-- RECOVERY_READ (R427). A recovery loader READ request returns flash data with its CRC. -/
  | recoveryRead (q : RecReq) (err : Bool)
  /-- RECOVERY_IDENT (R427). A recovery loader IDENT request returns the device identity and the flash JEDEC identifier. -/
  | recoveryIdent (q : RecReq)
  /-- RECOVERY_RESET (R427). A recovery loader RESET request restarts the device and samples the straps again. -/
  | recoveryReset (q : RecReq)
  /-- FRAME_RECEIVE (R217). A frame's first bytes arrive at an ingress MAC. Tags are removed, the arrival class is given,
  and admission charges the frame's provision. -/
  | frameReceive (port : Fin 512) (bytes : List Byte) (pre : Bool)
  /-- HEADER_WINDOW (R95). A frame's 64-byte header window has been received, and the frame joins the pipeline's entry
  queue. -/
  | headerWindow (frame : Nat) (more : List Byte)
  /-- FRAME_END (R129). A frame's last byte arrives. The FCS is checked, the byte count is added, the length hint becomes
  final, unused cells return, and the end check is made. -/
  | frameEnd (frame : Nat) (rest : List Byte) (fragErr : Bool)
  /-- SLOT_GRANT (R93). A group of four contexts enters station 0 from the priority queue and the entry queue. m6 is
  captured, the coat is taken, and the parser runs. -/
  | slotGrant (pipe : Fin 32)
  /-- ADD (R57). An instruction that adds RA and src modulo the width. -/
  | add (who : Who) (q : Pred) (f : FmtA)
  /-- SUB (R57). An instruction that subtracts src from RA modulo the width. -/
  | sub (who : Who) (q : Pred) (f : FmtA)
  /-- AND (R57). An instruction that forms the bitwise AND of RA and src. -/
  | and (who : Who) (q : Pred) (f : FmtA)
  /-- OR (R57). An instruction that forms the bitwise OR of RA and src. -/
  | or (who : Who) (q : Pred) (f : FmtA)
  /-- XOR (R57). An instruction that forms the bitwise exclusive-or of RA and src. -/
  | xor (who : Who) (q : Pred) (f : FmtA)
  /-- SHL (R57). An instruction that shifts RA left. -/
  | shl (who : Who) (q : Pred) (f : FmtA)
  /-- SHR (R57). An instruction that shifts RA right, logically or arithmetically. -/
  | shr (who : Who) (q : Pred) (f : FmtA)
  /-- ROT (R57). An instruction that rotates RA right. -/
  | rot (who : Who) (q : Pred) (f : FmtA)
  /-- MIN (R57). An instruction that takes the smaller of RA and src, signed or unsigned. -/
  | min (who : Who) (q : Pred) (f : FmtA)
  /-- MAX (R57). An instruction that takes the larger of RA and src, signed or unsigned. -/
  | max (who : Who) (q : Pred) (f : FmtA)
  /-- CMP (R57). An instruction that sets a predicate from a comparison of RA and src. -/
  | cmp (who : Who) (q : Pred) (f : FmtP)
  /-- TST (R57). An instruction that sets a predicate when RA AND src is non-zero. -/
  | tst (who : Who) (q : Pred) (f : FmtP)
  /-- MOV (R57). An instruction that moves a register, or in full form a special register. -/
  | mov (who : Who) (q : Pred) (f : FmtA)
  /-- MOVI (R57). An instruction that loads an immediate into a register. -/
  | movi (who : Who) (q : Pred) (f : FmtA)
  /-- SEL (R57). An instruction that selects RA or RB by a predicate. -/
  | sel (who : Who) (q : Pred) (f : FmtA)
  /-- HASH (R57). An instruction that hashes key-buffer bytes with a store hash, CRC-32C or the spread hash. -/
  | hash (who : Who) (q : Pred) (f : FmtH)
  /-- CSUM (R57). An instruction that computes a ones' complement sum or CRC over window bytes, or over a memory region in
  full form. -/
  | csum (who : Who) (q : Pred) (f : FmtH) (units : Nat)
  /-- POPC (R57). An instruction that counts the 1 bits of src. -/
  | popc (who : Who) (q : Pred) (f : FmtA)
  /-- EXT (R58). An instruction that extracts a bit field from W or K. -/
  | ext (who : Who) (q : Pred) (f : FmtX)
  /-- EXTM (R58). An instruction that extracts bits of a lookup result slot. -/
  | extm (who : Who) (q : Pred) (f : FmtXM)
  /-- INS (R58). An instruction that inserts a field into a register. -/
  | ins (who : Who) (q : Pred) (f : FmtXI)
  /-- KEYB (R58). An instruction that writes window or register bytes into the key buffer. -/
  | keyb (who : Who) (q : Pred) (f : FmtKB)
  /-- ADV (R58). An instruction that advances the window base for the next pass, or at once in full form. -/
  | adv (who : Who) (q : Pred) (f : FmtAV)
  /-- LKT (R59). An instruction that looks up a tag table by index. -/
  | lkt (who : Who) (q : Pred) (f : FmtL)
  /-- LKH (R59). An instruction that looks up a hash exact-match table. -/
  | lkh (who : Who) (q : Pred) (f : FmtL)
  /-- LKX (R135). An instruction that looks up a ternary table. -/
  | lkx (who : Who) (q : Pred) (f : FmtL)
  /-- LKP (R136). An instruction that looks up a longest-prefix table. -/
  | lkp (who : Who) (q : Pred) (f : FmtL)
  /-- LKF (R160). An instruction that looks up a flow record in the skim store, the lodge and the absent cache. It hits,
  misses or parks, and applies hit updates. -/
  | lkf (who : Who) (q : Pred) (f : FmtL) (beyond : Bool)
  /-- FLD (R62). An instruction that loads a field of the flow record view. -/
  | fld (who : Who) (q : Pred) (f : FmtFS)
  /-- FST (R62). An instruction that stores a register into a program-defined record field. -/
  | fst (who : Who) (q : Pred) (f : FmtFS)
  /-- FADD (R62). An instruction that adds to a record field in the update order. -/
  | fadd (who : Who) (q : Pred) (f : FmtFS)
  /-- FCAS (R62). An instruction that compares and swaps a record field at the frame's turn in the update order. -/
  | fcas (who : Who) (q : Pred) (f : FmtFS)
  /-- FSTAMP (R62). An instruction that stores a time base value into a record field. -/
  | fstamp (who : Who) (q : Pred) (f : FmtFS)
  /-- FLEARN (R184). An instruction that requests a LEARN notice of kind NEW. The request is coalesced, granted or refused
  by the learn limit. -/
  | flearn (who : Who) (q : Pred) (f : FmtFL)
  /-- PUSH (R64). An instruction that inserts bytes, staged at ingress or applied at once at egress. -/
  | push (who : Who) (q : Pred) (f : FmtE)
  /-- POP (R64). An instruction that removes bytes, staged at ingress or applied at once at egress. -/
  | pop (who : Who) (q : Pred) (f : FmtE)
  /-- SETF (R64). An instruction that overwrites bytes, staged at ingress or applied at once at egress. -/
  | setf (who : Who) (q : Pred) (f : FmtE)
  /-- NATA (R66). An instruction that rewrites an IP address and port from the flow record and updates the checksums
  incrementally. -/
  | nata (who : Who) (q : Pred) (f : FmtN)
  /-- TSI (R347). An instruction that marks a one-step timestamp field for the egress MAC to fill. -/
  | tsi (who : Who) (q : Pred) (f : FmtT)
  /-- SEAM (R274). An instruction that marks the frame for a seam tag if its final target is a spray group. -/
  | seam (who : Who) (q : Pred) (f : FmtG)
  /-- TWIN (R283). An instruction that inserts an R-TAG numbered from a sequence generator. -/
  | twin (who : Who) (q : Pred) (f : FmtG)
  /-- FWD (R67). An instruction that sets the disposition to an egress port. -/
  | fwd (who : Who) (q : Pred) (f : FmtW)
  /-- FWDG (R270). An instruction that sets the disposition to a spread group and writes the spread selector. -/
  | fwdg (who : Who) (q : Pred) (f : FmtW)
  /-- MCAST (R67). An instruction that sets the disposition to a multicast group. -/
  | mcast (who : Who) (q : Pred) (f : FmtW)
  /-- CLASS (R67). An instruction that sets class, colour and drop precedence in m2. -/
  | class_ (who : Who) (q : Pred) (f : FmtW)
  /-- QUOTE (R67). An instruction that names a quote id for policing, in pass 0 only. -/
  | quote (who : Who) (q : Pred) (f : FmtW)
  /-- MIRROR (R227). An instruction that requests one mirror copy to a port or EXPORT. -/
  | mirror (who : Who) (q : Pred) (f : FmtW)
  /-- TOSEAT (R67). An instruction that locks the disposition to a seat port with a reason. -/
  | toseat (who : Who) (q : Pred) (f : FmtW)
  /-- TOSCAF (R67). An instruction that locks the disposition to the scaffold with a reason. -/
  | toscaf (who : Who) (q : Pred) (f : FmtW)
  /-- DROP (R67). An instruction that locks the disposition to discard with a reason. -/
  | drop (who : Who) (q : Pred) (f : FmtW)
  /-- RECIRC (R99). An instruction that requests another pass at an entry point, or punts with NEST_DEEP in pass 3. -/
  | recirc (who : Who) (q : Pred) (f : FmtW)
  /-- NEXT (R86). An instruction that chooses the next step word among up to four successors from predicates. -/
  | next (who : Who) (q : Pred) (f : FmtC)
  /-- END (R70). An instruction that ends the pass, the egress program or the scaffold task, sending a task's frame by its
  disposition. -/
  | end_ (who : Who) (q : Pred)
  /-- TNOW (R71). An instruction that reads a time base. -/
  | tnow (who : Who) (q : Pred) (f : FmtTM)
  /-- TCMP (R71). An instruction that sets a predicate from a time comparison. -/
  | tcmp (who : Who) (q : Pred) (f : FmtTM)
  /-- TSTAMP (R71). An instruction that reads the frame's arrival time in a time base. -/
  | tstamp (who : Who) (q : Pred) (f : FmtTM)
  /-- TGATE (R71). An instruction that sets a predicate when a class gate of an egress port is open. -/
  | tgate (who : Who) (q : Pred) (f : FmtTM)
  /-- JMP (R73). A full-form instruction that jumps to a target. -/
  | jmp (engine : Fin 32) (thread : Fin 8) (q : Pred) (f : FmtJ)
  /-- BR (R73). A full-form instruction that branches by a signed offset. -/
  | br (engine : Fin 32) (thread : Fin 8) (q : Pred) (f : FmtJ)
  /-- CALL (R73). A full-form instruction that pushes the return index and jumps. -/
  | call (engine : Fin 32) (thread : Fin 8) (q : Pred) (f : FmtJ)
  /-- RET (R73). A full-form instruction that pops the return index. -/
  | ret (engine : Fin 32) (thread : Fin 8) (q : Pred) (f : FmtQ)
  /-- LOOP (R73). A full-form instruction that decrements a counter and branches while it is non-zero. -/
  | loop (engine : Fin 32) (thread : Fin 8) (q : Pred) (f : FmtJ)
  /-- LD (R73). A full-form instruction that loads from scaffold SRAM. -/
  | ld (engine : Fin 32) (thread : Fin 8) (q : Pred) (f : FmtM)
  /-- ST (R73). A full-form instruction that stores to scaffold SRAM. -/
  | st (engine : Fin 32) (thread : Fin 8) (q : Pred) (f : FmtM)
  /-- LDD (R73). A full-form instruction that loads 8 bytes from the render store heap. -/
  | ldd (engine : Fin 32) (thread : Fin 8) (q : Pred) (f : FmtM)
  /-- STD (R199). A full-form instruction that stores 8 bytes to the heap by an atomic read-modify-write. -/
  | std (engine : Fin 32) (thread : Fin 8) (q : Pred) (f : FmtM)
  /-- WAIT (R385). A full-form instruction that blocks the thread on the delay list, on a signal, or until its accesses
  complete. -/
  | wait (engine : Fin 32) (thread : Fin 8) (q : Pred) (f : FmtQ)
  /-- YIELD (R73). A full-form instruction that returns the task to the tail of its ready list. -/
  | yield_ (engine : Fin 32) (thread : Fin 8) (q : Pred) (f : FmtQ)
  /-- BLKMV (R78). A full-form long instruction that copies a block in 64-byte units and is resumable. -/
  | blkmv (engine : Fin 32) (thread : Fin 8) (q : Pred) (f : FmtQ) (units : Nat)
  /-- SCAN (R73). A full-form long instruction that searches memory for a masked word and is resumable. -/
  | scan (engine : Fin 32) (thread : Fin 8) (q : Pred) (f : FmtQ) (units : Nat)
  /-- FENCE (R389). A full-form instruction that orders memory accesses, submits a flow command or raises a signal, by
  KIND. -/
  | fence (engine : Fin 32) (thread : Fin 8) (q : Pred) (f : FmtQ)
  /-- PASS_EXIT (R93). A frame leaves ingress station 23. It is enqueued, recirculated, parked, punted or discarded by its
  disposition. -/
  | passExit (frame : Nat)
  /-- RECIRC_ELIGIBLE (R99). A recirculating frame becomes eligible in the priority queue once its recirculation path time
  is over and its bytes have arrived. -/
  | recircEligible (frame : Nat)
  /-- REPLICATOR_EXPAND (R235). The replicator reads a multicast list and makes copy descriptors, waiting for free
  descriptors. -/
  | replicatorExpand (pipe : Fin 32)
  /-- FETCH_RETURN (R170). A lodge fetch returns. The entry is lodged, with the record installed in the skim store,
  closed, or absent, and its parked frames are passed on. -/
  | fetchReturn (space : Fin 16) (key : List Byte)
  /-- RE_ENTRY (R96). The lodge passes a parked frame to its pipeline's priority queue once the reserve count allows. -/
  | reEntry (frame : Nat)
  /-- PARK_LIMIT (R172). A lodge entry reaches its park limit. Its parked frames are punted with 0x23 and the entry
  closes. -/
  | parkLimit (space : Fin 16) (key : List Byte)
  /-- TRANSMIT_OPPORTUNITY (R242). An egress port's MAC can take a frame. The scheduler selects by calendar grant, class
  6, then weighted fair queueing, checking deadlines. -/
  | transmitOpportunity (port : Fin 512) (stream : Nat)
  /-- EGRESS_PASS_START (R64). A dequeued frame enters egress station 0. Its staged edits are applied and its deadline is
  checked. -/
  | egressPassStart (copy : Nat)
  /-- MAC_PRESENT (R347). The first byte is presented to the egress MAC, which computes and fills any TSI field. -/
  | macPresent (copy : Nat)
  /-- TRANSMIT_COMPLETE (R222). The egress MAC finishes a frame and frees its cells when it is the last reader. Pauses may
  be released. -/
  | transmitComplete (port : Fin 512) (stream : Nat)
  /-- CALENDAR_SLOT (R255). A calendar slot begins, and the grants of the quotes reserved in it are refreshed. -/
  | calendarSlot (port : Fin 512)
  /-- POLICER_REFILL (R257). Each transit-count microsecond, quote policers gain tokens up to B. -/
  | policerRefill
  /-- BUCKET_REFILL (R262). Every 125 ns, class token buckets gain RATE/64 bytes. -/
  | bucketRefill (port : Fin 512)
  /-- GATE_ENTRY_END (R264). A gate list entry's interval ends and the next entry's gate states apply. -/
  | gateEntryEnd (port : Fin 512)
  /-- GATE_CHANGE (R265). At the change time the pending admin gate list replaces the oper list. -/
  | gateChange (port : Fin 512)
  /-- PFC_RECEIVE (R309). A PFC or PAUSE frame is received. It pauses enabled classes, or it is ignored and counted. -/
  | pfcReceive (port : Fin 512) (bytes : List Byte)
  /-- PAUSE_EXPIRY (R309). The pause time received for a class runs out. -/
  | pauseExpiry (port : Fin 512) (cls : Fin 8)
  /-- PFC_REFRESH (R309). Half the pause time has passed while a class is asserted, so the PFC frame is repeated. -/
  | pfcRefresh (port : Fin 512)
  /-- WATCHDOG_TRIP (R238). A class has been paused by the partner for BUF_WD.LIMIT with frames waiting, so its frames are
  discarded at dequeue. -/
  | watchdogTrip (port : Fin 512) (cls : Fin 8)
  /-- WATCHDOG_DISARM (R238). The partner has left the class unpaused for 1 ms, so the watchdog disarms. -/
  | watchdogDisarm (port : Fin 512) (cls : Fin 8)
  /-- FLUSH_COMPLETE (R236). The flush of a port that went down completes. -/
  | flushComplete (port : Fin 512)
  /-- BRING_UP_ATTEMPT (R293). A bring-up attempt loads taps and adapts the receivers, then falls back to training. -/
  | bringUpAttempt (port : Fin 512) (fallback : Bool)
  /-- ATTEMPT_END (R293). A bring-up attempt ends with the port up, or failed with the port held down. -/
  | attemptEnd (port : Fin 512) (good : Bool) (lanes : List Nat)
  /-- RETRY (R295). The backoff timer of a held port expires and starts a new attempt. -/
  | retry (port : Fin 512)
  /-- LOSS_OF_SIGNAL (R296). A lane's amplitude has stayed below threshold for SET, so loss of signal is declared. -/
  | lossOfSignal (lane : Fin 512)
  /-- LOSS_OF_LOCK (R296). A lane's clock recovery has stayed out of lock for 1 µs. -/
  | lossOfLock (lane : Fin 512)
  /-- SIGNAL_RETURN (R296). A lane's signal has been present for CLEAR, so loss of signal clears. -/
  | signalReturn (lane : Fin 512)
  /-- FAULT_ORDERED_SET (R297). A remote-fault or local-fault ordered set is received, or PCS or FEC alignment is lost. -/
  | faultOrderedSet (port : Fin 512) (fault : Bool) (aligned : Bool)
  /-- HELLO_SEND (R301). Once per second an up port sends a HELLO sleep frame. -/
  | helloSend (port : Fin 512)
  /-- HELLO (R301). A partner's HELLO is received and made current. -/
  | hello (port : Fin 512) (bytes : List Byte)
  /-- HELLO_EXPIRY (R301). The partner's HELLO has not been renewed for 3 s, so a sleeping transmit direction wakes. -/
  | helloExpiry (port : Fin 512)
  /-- SLEEP_ENTRY (R302). The sleep conditions have held for IDLE, so the transmit direction sends three SLEEP frames and
  goes to electrical idle. -/
  | sleepEntry (port : Fin 512)
  /-- SLEEP (R305). A SLEEP frame is received and arms the receive direction. -/
  | sleep_ (port : Fin 512) (bytes : List Byte)
  /-- TX_WAKE (R303). A sleeping transmit direction wakes and sends idle for 2.0 µs. -/
  | txWake (port : Fin 512)
  /-- TX_AWAKE (R303). 2.0 µs after wake start the transmit direction is awake and may send frames. -/
  | txAwake (port : Fin 512)
  /-- LANE_REFRESH (R304). Every R ms of sleep the transmit direction wakes, sends idle and may sleep again. -/
  | laneRefresh (port : Fin 512)
  /-- RX_NO_RETURN (R305). The signal has not returned within 2 × R of sleep, so loss of signal is declared. -/
  | rxNoReturn (port : Fin 512)
  /-- VERIFY_SEND (R310). A preemption verify frame is sent, up to 3 times 10 ms apart. -/
  | verifySend (port : Fin 512)
  /-- VERIFY_FAIL (R310). No verify frame is answered, so preemption stays inactive. -/
  | verifyFail (port : Fin 512)
  /-- MEMBER_EXCLUDED (R276). A spread member's port counts more than EXCL_LIMIT uncorrectable codewords in one
  millisecond, so the member is excluded. -/
  | memberExcluded (group : Fin 256) (n : MemberErrors)
  /-- MEMBER_READMITTED (R276). An excluded member's port has been clean for READMIT ms, so the member is readmitted. -/
  | memberReadmitted (group : Fin 256) (n : Fin 64)
  /-- GAP_TIMER (R281). A float context's gap timer expires, skips missing numbers and releases held frames. -/
  | gapTimer (ctx : Nat)
  /-- TWIN_RESET (R285). No frame has been accepted for the reset timeout, so the twin context returns to take-any. -/
  | twinReset (ctx : Nat)
  /-- LATH_FRAME_RECEIVE (R318). A lath frame is received on a span lane. Alignment, pointer, overhead, APS and BIP are
  processed. -/
  | lathFrameReceive (span : Fin 32) (lane : Nat) (phase : Nat) (words : List DWord) (uncorr : Nat)
  /-- CONTAINER_ASSEMBLE (R322). All lane containers of one CSEQ have arrived, and the span container's streams are
  delivered. -/
  | containerAssemble (span : Fin 32)
  /-- CONTAINER_SEND (R321). Every 1,638.4 ns the sender produces a span container, filling its channel and general slots. -/
  | containerSend (span : Fin 32) (stuffs : List Nat)
  /-- SF_PERIOD (R330). A millisecond of uncorrectable-codeword counting ends, setting or clearing SF. -/
  | sfPeriod (span : Fin 32)
  /-- SD_PERIOD (R330). A 100 ms BIP-32 count period ends, setting or clearing SD. -/
  | sdPeriod (span : Fin 32)
  /-- LOF (R330). OOF has held for LOF_SET, so the span declares LOF. -/
  | lof (span : Fin 32) (lane : Nat)
  /-- WTR (R334). The wait-to-restore timer expires and the revertive group returns to NR. -/
  | wtr (span : Fin 32)
  /-- TICK (R339). Each time-clock tick adds INC to every time base and 1 to the transit count. -/
  | tick
  /-- COAT_CURRENT (R108). At its commit time, or when a slot frees, a pending coat becomes current in all pipelines. -/
  | coatCurrent
  /-- COAT_RETIRED (R109). A draining coat retires once no frame carries its slot, and settling of the oldest coat begins. -/
  | coatRetired (slot : Fin 4)
  /-- VERIFY_COMPLETE (R107). Verification of a committed coat finishes and sets its commit time, or refuses the commit. -/
  | verifyComplete
  /-- SETTLED (R141). Settling of a coat's log finishes and frees versions no longer visible. -/
  | settled
  /-- EGEN_WAIT_EXPIRY (R113). COAT_EGEN_WAIT passes, so Darby voids the oldest unused egress slot. -/
  | egenWaitExpiry
  /-- STEP_WORD_RELOAD (R85). Darby finishes reloading a step word after a parity fault. -/
  | stepWordReload (inst : Fin 64) (station : Nat) (addr : Nat) (poison : ImagePoison)
  /-- TABLE_WORD_REWRITE (R147). Darby finishes rewriting a damaged table word from the coat image. -/
  | tableWordRewrite (num : Nat) (inst : Nat) (word : DamagedWord) (poison : ImagePoison)
  /-- QUOTE_ACTIVE (R247). An admitted quote becomes active at the next transit-count microsecond. -/
  | quoteActive (qid : Nat)
  /-- RELEASE_WAIT (R249). D has passed since a quote's policer was removed, so its calendar, claim and pin are freed. -/
  | releaseWait (qid : Nat)
  /-- TIME_TRIGGER (R359). A snapshot, swatch switch or other action whose TB0 time has come fires. -/
  | timeTrigger
  /-- TIO_EDGE (R354). A scheduled output edge of a TIO pin is produced. -/
  | tioEdge (pin : Fin 16)
  /-- TIO_CAPTURE (R357). An edge on a capturing TIO pin is captured into its FIFO, or lost on overflow. -/
  | tioCapture (pin : Fin 16) (rising : Bool)
  /-- PPS_OUT (R358). At each whole second of its base, PPS_OUT gives a pulse. -/
  | ppsOut
  /-- PPS_IN (R358). A rising edge on PPS_IN is captured for the servo. -/
  | ppsIn
  /-- ALARM (R359). The TB0 alarm time is reached. The alarm fires once and may wake the device. -/
  | alarm
  /-- TREF_LOST (R336). No TREF_IN edge has arrived for 1 µs, so the time clock moves to REFCLK. -/
  | trefLost
  /-- SERVO_OFFSET (R351). The servo takes an offset from PTP messages or a PPS capture, and steps or adjusts its base. -/
  | servoOffset (value : Int)
  /-- PDELAY_REQ_SEND (R351). Once per second the servo sends its Pdelay_Req. -/
  | pdelayReqSend
  /-- HOLDOVER (R352). LOSS intervals pass with no offset, so the servo enters holdover. -/
  | holdover
  /-- AON_MEASURE (R361). Each second Plumb measures the always-on oscillator against TB0. -/
  | aonMeasure (count : BitVec 32)
  /-- PUNT_ARRIVAL (R376). A punted frame reaches the head of its port-513 queue and moves into a work list, or is
  discarded. -/
  | puntArrival (pipe : Fin 32)
  /-- DISPATCH (R379). A free thread takes the head of the highest ready list. It creates the task page and copies the
  frame, or restores a saved task. -/
  | dispatch (engine : Fin 32) (thread : Fin 8)
  /-- FRAME_COPY_DONE (R379). The frame copy into the task page completes, the frame's cells are freed and the task
  starts. -/
  | frameCopyDone (engine : Fin 32) (thread : Fin 8)
  /-- PUSH_READY (R383). A push task becomes ready and takes a free thread, or pre-empts a pull task. -/
  | pushReady
  /-- PREEMPTION (R384). A victim thread reaches an instruction boundary with its interrupt set, saves its task and takes
  the push task. -/
  | preemption (engine : Fin 32) (thread : Fin 8)
  /-- CONTEXT_SAVE_DONE (R369). A released task's context save completes. -/
  | contextSaveDone (engine : Fin 32) (thread : Fin 8)
  /-- TIMER_DUE (R385). At a 1 µs boundary the due delay-list timers put their tasks on their ready lists. -/
  | timerDue
  /-- TICK_TASK (R387). Every PERIOD µs a tick task is created, or counted as an overrun. -/
  | tickTask (n : Fin 16)
  /-- PULL_AGE (R377). A pull item has waited SCAF_PULL_AGE, so it moves one level up. -/
  | pullAge (level : Fin 16)
  /-- BUDGET (R388). A task's run budget is spent, so it takes exception BUDGET at its next boundary. -/
  | budget (engine : Fin 32) (thread : Fin 8)
  /-- SANDER_VISIT (R181). The sander visits a record, scrubbing, ageing, halving HEAT and demoting idle copies. -/
  | sanderVisit (handle : Nat)
  /-- WALK_END (R186). A render walk ends and issues DIGEST notices per digest block. -/
  | walkEnd
  /-- WRITE_BACK_PERIOD (R155). WB_PERIOD elapses, so dirty skim copies are written back. -/
  | writeBackPeriod
  /-- WRITE_BACK_COMPLETE (R177). A queued write-back reaches its home slot and leaves the queue. -/
  | writeBackComplete (handle : Nat)
  /-- TUNE_INTERVAL (R178). Each tuning interval adjusts the promotion threshold T from load and evictions. -/
  | tuneInterval
  /-- ABSENT_EXPIRY (R161). An absent-cache identity reaches FLOW_LEARN_WIN and leaves the cache. -/
  | absentExpiry (space : Fin 16) (key : List Byte)
  /-- LEARN_WINDOW_EXPIRY (R184). An identity in the learn filter passes its window and stops coalescing. -/
  | learnWindowExpiry (space : Fin 16) (key : List Byte)
  /-- COMMAND_OPPORTUNITY (R203). A render pseudo-channel can take a command and picks a request by age, class and row
  hit. -/
  | commandOpportunity (channel : Fin 32) (pc : Fin 2) (busy : List Nat)
  /-- REQUEST_COMPLETE (R198). A render request completes, correcting or poisoning its data. -/
  | requestComplete (channel : Fin 32) (id : Nat) (corrected : Nat) (poisoned : List Nat)
  /-- DRAM_REFRESH (R206). A bank's refresh interval comes and the bank is refreshed or postponed. -/
  | dramRefresh (channel : Fin 32) (bank : BankRefresh)
  /-- CHANNEL_FAILED (R212). A render channel counts more than RSTORE_UE_LIMIT uncorrectable codewords in one second, so
  it fails. -/
  | channelFailed (channel : Fin 32)
  /-- SEAT_ABSENT (R401). A seat becomes absent by link loss, bus master disable or keepalive timeout; its rings are
  disabled and its locks reclaimed. -/
  | seatAbsent (seat : Fin 2)
  /-- SEAT_PRESENT (R400). A seat becomes present again. -/
  | seatPresent (seat : Fin 2) (link : Fin 4)
  /-- COALESCE_TIMER (R411). NR_COALESCE.TIME passes with unconsumed notices, so an MSI-X message is sent. -/
  | coalesceTimer (seat : Fin 2) (ring : Fin 8)
  /-- FRAME_IN (R420). A complete TOSEAT frame is written to the seat's frame area, and a FRAME_IN notice is written. -/
  | frameIn (seat : Fin 2) (pipe : Fin 32)
  /-- ISLAND (R422). No owning seat has been present for TIMEOUT, so the device enters the island and applies swatch 3. -/
  | island
  /-- HOLDOFF_EXPIRY (R434). HOLDOFF ends and a merged event is stamped. -/
  | holdoffExpiry (src : Nat) (code : Nat)
  /-- UE_DATA (R451). An uncorrectable data fault is found and handled in place by its filler. -/
  | ueData (at_ : UeWhere)
  /-- DOMAIN_FAULT (R447). A domain fault is detected. The domain is contained, declared FAULTED and its leases are
  reclaimed. -/
  | domainFault (kind : Nat) (inst : Nat) (arg : Nat) (transit : Bool) (frames : List Nat)
  /-- DOMAIN_RESTARTED (R447). A domain's restart completes and it returns to RUNNING. -/
  | domainRestarted (kind : Nat) (inst : Nat)
  /-- SAFE_STOP (R456). A safe stop squelches, halts Darby, logs and sets FN_LATCH. -/
  | safeStop
  /-- STOP_HOLD_EXPIRY (R456). STOP_HOLD passes after a safe stop, so the internal reset and start-up follow, or the
  device is held. -/
  | stopHoldExpiry
  /-- TRANSITION_COMPLETE (R461). A running power transition reaches its state, and the held request starts. -/
  | transitionComplete
  /-- DRAIN_TIMEOUT (R467). During Doze or Sleep entry the queue drain ends when the buffer empties or after DRAIN µs. -/
  | drainTimeout
  /-- SHED_ENTER (R478). VCORE has stayed below a shed threshold for 1 µs, so that shed level is entered. -/
  | shedEnter (level : Nat) (vcore : Nat)
  /-- SHED_LEAVE (R478). VCORE has stayed above a threshold plus 1 % for 100 µs, so that level is left. -/
  | shedLeave (vcore : Nat)
  /-- SUPPLY (R479). A rail monitor crosses its warning limit, or its S5 limit for 1 µs. -/
  | supply (rail : Nat) (mv : Nat) (deep : Bool)
  /-- BROWN_OUT (R471). The island regulator is overdrawn or undervolted, so the island resets and the device goes to Off. -/
  | brownOut
  /-- THERMAL (R481). The hottest sensor rises to WARN. -/
  | thermal (sensor : Fin 40) (temp : Int)
  /-- THERMTRIP_N (R482). A sensor reaches 125 °C. The device squelches and resets, and THERMTRIP_N is held low. -/
  | thermtripN (sensor : Fin 40) (temp : Int)
  /-- CLOCK (R483). A reference or always-on clock is lost or restored. -/
  | clock (which : Fin 10) (lost : Bool)
  /-- RESET_N (R536). RESET_N is asserted, or PWRGOOD falls, for 50 ns or more, so a full reset starts. -/
  | resetN
  /-- WAKE (R474). An enabled wake source fires in Sleep or Off and starts the device. -/
  | wake (src : Fin 5)
  /-- START_UP (R485). A start runs the start-up sequence from strap sampling through swatch choice, render bring-up, coat
  and tile calibration. -/
  | startUp (straps : Straps) (kept : Bool) (bad0 : List Nat) (bad1 : List Nat)
  /-- TILE_CALIBRATED (R485). A tile's PLL calibration completes and its ports begin their first attempt. -/
  | tileCalibrated (tile : Fin 64)
  /-- ALIVE (R29). The first attempt of every enabled port has ended, so Darby declares the device forwarding and ALIVE
  goes high. -/
  | alive
  /-- HB_TOGGLE (R29). Darby's supervision loop toggles HB every 500 µs. -/
  | hbToggle
  /-- COUNTER_TICK (R501). Each tick, counters take written values, add increments and pass carries, raising overflow. -/
  | counterTick
  /-- EXPORT_WALK (R511). At each INTERVAL a flow space export walk starts, or is skipped as late. -/
  | exportWalk (space : Fin 16)
  /-- QUOTE_EXPORT (R512). At each quote interval a QUOTE record is exported per active quote. -/
  | quoteExport
  /-- COUNTER_EXPORT (R512). At each counter interval an export snapshot is taken and COUNTER records are exported. -/
  | counterExport
  /-- TEMPLATE_SEND (R510). Every TPL_PERIOD seconds the template set is sent. -/
  | templateSend
  /-- FLUSH_TIMER (R510). FLUSH µs after its first record, an export message is closed and sent. -/
  | flushTimer (template : Nat)
  /-- FRAME_SAMPLE (R513). A mirror copy to port 516 becomes a FRAME_SAMPLE record, or is skipped. -/
  | frameSample (pipe : Fin 32)
  /-- RX_AWAKE (R305). A sleeping receive direction finishes relocking from its frozen state, is awake and aligned, and
  disarms. -/
  | rxAwake (port : Fin 512)
  /-- VERIFY_ANSWERED (R310). The partner answers a preemption verify frame, so verification succeeds and preemption
  becomes active. -/
  | verifyAnswered (port : Fin 512)
  /-- COEFFICIENT_REQUEST (R294). During link training the partner's request for a coefficient change arrives and is acted
  on or answered as unsupported or at its limit. -/
  | coefficientRequest (lane : Fin 512) (coef : Fin 4) (up : Bool)
  /-- PDELAY_REQ (R351). The partner's Pdelay_Req reaches Darby on the servo port and Darby answers it. -/
  | pdelayReq (port : Fin 512) (bytes : List Byte)
  /-- PPS_LOST (R365). PPS_IN has had no edge for 2 s after edges were seen, so the loss is raised on source 361. -/
  | ppsLost
  /-- SELF_REFRESH_IDLE (R207). A stack brought out of self-refresh in Doze has had no request for 100 µs and goes back
  into self-refresh. -/
  | selfRefreshIdle (stack : Fin 2)
  /-- SCAF_IDLE (R465). A scaffold engine with no task held for PWR_TRIM.SCAF_IDLE µs in Trim is power-gated. -/
  | scafIdle (engine : Fin 32)
  /-- FLASH_DONE (R496). A DARBY_FLASH erase, program or read finishes, BUSY clears and STATUS is set. -/
  | flashDone (err : Bool)
  /-- SWATCH_CHECK_END (R492). Darby's check of a selected swatch ends, and the switch is refused, scheduled, or made at
  once when the time is 0 or too near. -/
  | swatchCheckEnd
  /-- WALK_READ (R511). An export walk reads one authoritative copy of its space and yields one FLOW record, closing a
  message when it is full. -/
  | walkRead (space : Fin 16)
deriving DecidableEq, Repr

end Sys2Proof
end

