-- ==== Sys2Proof/Decode.lean ====
section
/-! DEFINITION. The command that a table word spells, and the Dravea instruction words (R48, R52). spec/opcode_table.json gives none
of its rows bits: a command reaches the block as a bus access, a ring entry, a frame or an event, never as a word. The
instruction words that programs hold are decoded and encoded here from the formats of R52. -/

namespace Sys2Proof

/-- No word spells a command. -/
def decodeTableWord (_nbits _w : Nat) : Option Instr := none

/-! ### The operand fields of each format (R52) -/

/-- Field [hi:lo] of an instruction word as bits. -/
def fieldAt (w hi lo n : Nat) : BitVec n := BitVec.ofNat n (bits w hi lo)

def FmtA.dec (w : Nat) : FmtA :=
  ⟨fieldAt w 51 46 6, fieldAt w 45 40 6, fieldAt w 39 34 6, Sys2Proof.bit w 33, Sys2Proof.bit w 32, fieldAt w 31 0 32⟩
def FmtP.dec (w : Nat) : FmtP :=
  ⟨fieldAt w 51 49 3, fieldAt w 48 46 3, fieldAt w 45 40 6, fieldAt w 39 34 6, Sys2Proof.bit w 33, fieldAt w 31 0 32⟩
def FmtH.dec (w : Nat) : FmtH :=
  ⟨fieldAt w 51 46 6, fieldAt w 45 40 6, fieldAt w 39 34 6, fieldAt w 33 32 2, fieldAt w 31 0 32⟩
def FmtX.dec (w : Nat) : FmtX :=
  ⟨fieldAt w 51 46 6, fieldAt w 45 37 9, fieldAt w 36 32 5, Sys2Proof.bit w 31, Sys2Proof.bit w 30, fieldAt w 29 24 6⟩
def FmtXM.dec (w : Nat) : FmtXM :=
  ⟨fieldAt w 51 46 6, fieldAt w 45 43 3, fieldAt w 42 36 7, fieldAt w 35 31 5⟩
def FmtXI.dec (w : Nat) : FmtXI :=
  ⟨fieldAt w 51 46 6, fieldAt w 45 40 6, fieldAt w 39 34 6, fieldAt w 33 28 6⟩
def FmtKB.dec (w : Nat) : FmtKB :=
  ⟨fieldAt w 51 46 6, fieldAt w 45 41 5, Sys2Proof.bit w 40, fieldAt w 39 34 6⟩
def FmtAV.dec (w : Nat) : FmtAV :=
  ⟨fieldAt w 51 44 8, Sys2Proof.bit w 43, fieldAt w 42 37 6⟩
def FmtL.dec (w : Nat) : FmtL :=
  ⟨fieldAt w 51 44 8, fieldAt w 43 41 3, fieldAt w 40 38 3, fieldAt w 37 32 6, fieldAt w 31 26 6, fieldAt w 25 20 6,
    fieldAt w 19 0 20⟩
def FmtFS.dec (w : Nat) : FmtFS :=
  ⟨fieldAt w 51 46 6, fieldAt w 45 39 7, fieldAt w 38 37 2, fieldAt w 36 31 6, fieldAt w 30 28 3, fieldAt w 27 25 3,
    Sys2Proof.bit w 24, fieldAt w 23 0 24⟩
def FmtFL.dec (w : Nat) : FmtFL :=
  ⟨fieldAt w 51 48 4, fieldAt w 47 42 6, fieldAt w 41 36 6, fieldAt w 35 30 6⟩
def FmtE.dec (w : Nat) : FmtE :=
  ⟨fieldAt w 51 46 6, fieldAt w 45 41 5, Sys2Proof.bit w 40, fieldAt w 39 34 6, fieldAt w 33 0 34⟩
def FmtN.dec (w : Nat) : FmtN :=
  ⟨fieldAt w 51 50 2, Sys2Proof.bit w 49, fieldAt w 48 43 6, fieldAt w 42 37 6, fieldAt w 36 31 6, fieldAt w 30 25 6,
    Sys2Proof.bit w 24⟩
def FmtT.dec (w : Nat) : FmtT :=
  ⟨fieldAt w 51 46 6, fieldAt w 45 44 2, fieldAt w 43 41 3, Sys2Proof.bit w 40, fieldAt w 39 34 6⟩
def FmtG.dec (w : Nat) : FmtG :=
  ⟨fieldAt w 51 40 12⟩
def FmtW.dec (w : Nat) : FmtW :=
  ⟨fieldAt w 51 32 20, Sys2Proof.bit w 31, fieldAt w 30 25 6, fieldAt w 24 23 2⟩
def FmtTM.dec (w : Nat) : FmtTM :=
  ⟨fieldAt w 51 46 6, fieldAt w 45 43 3, fieldAt w 42 41 2, fieldAt w 40 35 6, Sys2Proof.bit w 34, fieldAt w 33 0 34⟩
def FmtC.dec (w : Nat) : FmtC :=
  ⟨fieldAt w 51 49 3, fieldAt w 48 46 3, Sys2Proof.bit w 45⟩
def FmtJ.dec (w : Nat) : FmtJ :=
  ⟨fieldAt w 51 46 6, Sys2Proof.bit w 45, fieldAt w 31 0 32⟩
def FmtM.dec (w : Nat) : FmtM :=
  ⟨fieldAt w 51 46 6, fieldAt w 45 40 6, fieldAt w 39 38 2, fieldAt w 36 0 37⟩
def FmtQ.dec (w : Nat) : FmtQ :=
  ⟨fieldAt w 51 46 6, fieldAt w 45 40 6, fieldAt w 39 34 6, fieldAt w 33 30 4, fieldAt w 29 0 30⟩

/-- The instruction a word spells for an executor (R48, R52); `units` and `beyond` are what a run of it carries beside the word. A
reserved opcode, or one that only a thread has, spells none. -/
def decodeDravea (who : Who) (units : Nat) (beyond : Bool) (w : Nat) : Option Instr :=
  let q := wordPred w
  match bits w 63 56 with
  | 0x00 => some (.add who q (.dec w))
  | 0x01 => some (.sub who q (.dec w))
  | 0x02 => some (.and who q (.dec w))
  | 0x03 => some (.or who q (.dec w))
  | 0x04 => some (.xor who q (.dec w))
  | 0x05 => some (.shl who q (.dec w))
  | 0x06 => some (.shr who q (.dec w))
  | 0x07 => some (.rot who q (.dec w))
  | 0x08 => some (.min who q (.dec w))
  | 0x09 => some (.max who q (.dec w))
  | 0x0A => some (.cmp who q (.dec w))
  | 0x0B => some (.tst who q (.dec w))
  | 0x0C => some (.mov who q (.dec w))
  | 0x0D => some (.movi who q (.dec w))
  | 0x0E => some (.sel who q (.dec w))
  | 0x0F => some (.hash who q (.dec w))
  | 0x10 => some (.csum who q (.dec w) units)
  | 0x11 => some (.popc who q (.dec w))
  | 0x20 => some (.ext who q (.dec w))
  | 0x21 => some (.extm who q (.dec w))
  | 0x22 => some (.ins who q (.dec w))
  | 0x23 => some (.keyb who q (.dec w))
  | 0x24 => some (.adv who q (.dec w))
  | 0x30 => some (.lkt who q (.dec w))
  | 0x31 => some (.lkh who q (.dec w))
  | 0x32 => some (.lkx who q (.dec w))
  | 0x33 => some (.lkp who q (.dec w))
  | 0x34 => some (.lkf who q (.dec w) beyond)
  | 0x40 => some (.fld who q (.dec w))
  | 0x41 => some (.fst who q (.dec w))
  | 0x42 => some (.fadd who q (.dec w))
  | 0x43 => some (.fcas who q (.dec w))
  | 0x44 => some (.fstamp who q (.dec w))
  | 0x45 => some (.flearn who q (.dec w))
  | 0x50 => some (.push who q (.dec w))
  | 0x51 => some (.pop who q (.dec w))
  | 0x52 => some (.setf who q (.dec w))
  | 0x53 => some (.nata who q (.dec w))
  | 0x54 => some (.tsi who q (.dec w))
  | 0x55 => some (.seam who q (.dec w))
  | 0x56 => some (.twin who q (.dec w))
  | 0x60 => some (.fwd who q (.dec w))
  | 0x61 => some (.fwdg who q (.dec w))
  | 0x62 => some (.mcast who q (.dec w))
  | 0x63 => some (.class_ who q (.dec w))
  | 0x64 => some (.quote who q (.dec w))
  | 0x65 => some (.mirror who q (.dec w))
  | 0x66 => some (.toseat who q (.dec w))
  | 0x67 => some (.toscaf who q (.dec w))
  | 0x68 => some (.drop who q (.dec w))
  | 0x69 => some (.recirc who q (.dec w))
  | 0x70 => some (.next who q (.dec w))
  | 0x71 => some (.end_ who q)
  | 0x80 => some (.tnow who q (.dec w))
  | 0x81 => some (.tcmp who q (.dec w))
  | 0x82 => some (.tstamp who q (.dec w))
  | 0x83 => some (.tgate who q (.dec w))
  | 0x90 => match who with | .thr e t => some (.jmp e t q (.dec w)) | _ => none
  | 0x91 => match who with | .thr e t => some (.br e t q (.dec w)) | _ => none
  | 0x92 => match who with | .thr e t => some (.call e t q (.dec w)) | _ => none
  | 0x93 => match who with | .thr e t => some (.ret e t q (.dec w)) | _ => none
  | 0x94 => match who with | .thr e t => some (.loop e t q (.dec w)) | _ => none
  | 0x98 => match who with | .thr e t => some (.ld e t q (.dec w)) | _ => none
  | 0x99 => match who with | .thr e t => some (.st e t q (.dec w)) | _ => none
  | 0x9A => match who with | .thr e t => some (.ldd e t q (.dec w)) | _ => none
  | 0x9B => match who with | .thr e t => some (.std e t q (.dec w)) | _ => none
  | 0xA0 => match who with | .thr e t => some (.wait e t q (.dec w)) | _ => none
  | 0xA1 => match who with | .thr e t => some (.yield_ e t q (.dec w)) | _ => none
  | 0xA8 => match who with | .thr e t => some (.blkmv e t q (.dec w) units) | _ => none
  | 0xA9 => match who with | .thr e t => some (.scan e t q (.dec w) units) | _ => none
  | 0xAA => match who with | .thr e t => some (.fence e t q (.dec w)) | _ => none
  | _ => none

/-- The executor of a Dravea instruction, what a run of it carries beside its word, and the word (R48, R52). -/
def Instr.dravea : Instr → Option (Who × Nat × Bool × Nat)
  | .add who q f => some (who, 0, false, instWord q 0x00 f.enc)
  | .sub who q f => some (who, 0, false, instWord q 0x01 f.enc)
  | .and who q f => some (who, 0, false, instWord q 0x02 f.enc)
  | .or who q f => some (who, 0, false, instWord q 0x03 f.enc)
  | .xor who q f => some (who, 0, false, instWord q 0x04 f.enc)
  | .shl who q f => some (who, 0, false, instWord q 0x05 f.enc)
  | .shr who q f => some (who, 0, false, instWord q 0x06 f.enc)
  | .rot who q f => some (who, 0, false, instWord q 0x07 f.enc)
  | .min who q f => some (who, 0, false, instWord q 0x08 f.enc)
  | .max who q f => some (who, 0, false, instWord q 0x09 f.enc)
  | .cmp who q f => some (who, 0, false, instWord q 0x0A f.enc)
  | .tst who q f => some (who, 0, false, instWord q 0x0B f.enc)
  | .mov who q f => some (who, 0, false, instWord q 0x0C f.enc)
  | .movi who q f => some (who, 0, false, instWord q 0x0D f.enc)
  | .sel who q f => some (who, 0, false, instWord q 0x0E f.enc)
  | .hash who q f => some (who, 0, false, instWord q 0x0F f.enc)
  | .csum who q f units => some (who, units, false, instWord q 0x10 f.enc)
  | .popc who q f => some (who, 0, false, instWord q 0x11 f.enc)
  | .ext who q f => some (who, 0, false, instWord q 0x20 f.enc)
  | .extm who q f => some (who, 0, false, instWord q 0x21 f.enc)
  | .ins who q f => some (who, 0, false, instWord q 0x22 f.enc)
  | .keyb who q f => some (who, 0, false, instWord q 0x23 f.enc)
  | .adv who q f => some (who, 0, false, instWord q 0x24 f.enc)
  | .lkt who q f => some (who, 0, false, instWord q 0x30 f.enc)
  | .lkh who q f => some (who, 0, false, instWord q 0x31 f.enc)
  | .lkx who q f => some (who, 0, false, instWord q 0x32 f.enc)
  | .lkp who q f => some (who, 0, false, instWord q 0x33 f.enc)
  | .lkf who q f beyond => some (who, 0, beyond, instWord q 0x34 f.enc)
  | .fld who q f => some (who, 0, false, instWord q 0x40 f.enc)
  | .fst who q f => some (who, 0, false, instWord q 0x41 f.enc)
  | .fadd who q f => some (who, 0, false, instWord q 0x42 f.enc)
  | .fcas who q f => some (who, 0, false, instWord q 0x43 f.enc)
  | .fstamp who q f => some (who, 0, false, instWord q 0x44 f.enc)
  | .flearn who q f => some (who, 0, false, instWord q 0x45 f.enc)
  | .push who q f => some (who, 0, false, instWord q 0x50 f.enc)
  | .pop who q f => some (who, 0, false, instWord q 0x51 f.enc)
  | .setf who q f => some (who, 0, false, instWord q 0x52 f.enc)
  | .nata who q f => some (who, 0, false, instWord q 0x53 f.enc)
  | .tsi who q f => some (who, 0, false, instWord q 0x54 f.enc)
  | .seam who q f => some (who, 0, false, instWord q 0x55 f.enc)
  | .twin who q f => some (who, 0, false, instWord q 0x56 f.enc)
  | .fwd who q f => some (who, 0, false, instWord q 0x60 f.enc)
  | .fwdg who q f => some (who, 0, false, instWord q 0x61 f.enc)
  | .mcast who q f => some (who, 0, false, instWord q 0x62 f.enc)
  | .class_ who q f => some (who, 0, false, instWord q 0x63 f.enc)
  | .quote who q f => some (who, 0, false, instWord q 0x64 f.enc)
  | .mirror who q f => some (who, 0, false, instWord q 0x65 f.enc)
  | .toseat who q f => some (who, 0, false, instWord q 0x66 f.enc)
  | .toscaf who q f => some (who, 0, false, instWord q 0x67 f.enc)
  | .drop who q f => some (who, 0, false, instWord q 0x68 f.enc)
  | .recirc who q f => some (who, 0, false, instWord q 0x69 f.enc)
  | .next who q f => some (who, 0, false, instWord q 0x70 f.enc)
  | .end_ who q => some (who, 0, false, instWord q 0x71 0)
  | .tnow who q f => some (who, 0, false, instWord q 0x80 f.encRd)
  | .tcmp who q f => some (who, 0, false, instWord q 0x81 f.encRd)
  | .tstamp who q f => some (who, 0, false, instWord q 0x82 f.encRd)
  | .tgate who q f => some (who, 0, false, instWord q 0x83 f.encRd)
  | .jmp e t q f => some (.thr e t, 0, false, instWord q 0x90 f.enc)
  | .br e t q f => some (.thr e t, 0, false, instWord q 0x91 f.enc)
  | .call e t q f => some (.thr e t, 0, false, instWord q 0x92 f.enc)
  | .ret e t q f => some (.thr e t, 0, false, instWord q 0x93 f.enc)
  | .loop e t q f => some (.thr e t, 0, false, instWord q 0x94 f.enc)
  | .ld e t q f => some (.thr e t, 0, false, instWord q 0x98 f.enc)
  | .st e t q f => some (.thr e t, 0, false, instWord q 0x99 f.enc)
  | .ldd e t q f => some (.thr e t, 0, false, instWord q 0x9A f.enc)
  | .std e t q f => some (.thr e t, 0, false, instWord q 0x9B f.enc)
  | .wait e t q f => some (.thr e t, 0, false, instWord q 0xA0 f.enc)
  | .yield_ e t q f => some (.thr e t, 0, false, instWord q 0xA1 f.enc)
  | .blkmv e t q f units => some (.thr e t, units, false, instWord q 0xA8 f.enc)
  | .scan e t q f units => some (.thr e t, units, false, instWord q 0xA9 f.enc)
  | .fence e t q f => some (.thr e t, 0, false, instWord q 0xAA f.enc)
  | _ => none

end Sys2Proof
end

