-- ==== Sys2Proof/Machine/Crc.lean ====
section
/-! DEFINITION. The checks and hashes of the device: CRC-32 and CRC-32C (R544), the ones' complement sum of CSUM (R57),
and the mixing function of the store and spread hashes (R157, R271). -/

namespace Sys2Proof.Machine

/-- One bit of the reflected CRC with the reflected polynomial `poly`. -/
def crcBit (poly x : Nat) : Nat := if x % 2 = 1 then (x / 2) ^^^ poly else x / 2

/-- One byte into the CRC register, least significant bit first (R544). -/
def crcByte (poly x : Nat) (b : Byte) : Nat :=
  let x := x ^^^ b.toNat
  crcBit poly (crcBit poly (crcBit poly (crcBit poly (crcBit poly (crcBit poly (crcBit poly (crcBit poly x)))))))

/-- The register after a byte string, without the final inversion. -/
def crcRun (poly preset : Nat) (l : List Byte) : Nat := l.foldl (crcByte poly) preset

/-- 0x04C1_1DB7 and 0x1EDC_6F41, reflected. -/
def polyCrc32 : Nat := 0xEDB88320
def polyCrc32c : Nat := 0x82F63B78

def inv32 (x : Nat) : Nat := 2 ^ 32 - 1 - x % 2 ^ 32

/-- CRC-32 of IEEE 802.3 with a preset (R544). -/
def crc32With (preset : Nat) (l : List Byte) : Nat := inv32 (crcRun polyCrc32 preset l)

/-- CRC-32C with a preset (R544). -/
def crc32cWith (preset : Nat) (l : List Byte) : Nat := inv32 (crcRun polyCrc32c preset l)

/-- The checks that use the preset all ones (R544). -/
def crc32 (l : List Byte) : Nat := crc32With 0xFFFFFFFF l
def crc32c (l : List Byte) : Nat := crc32cWith 0xFFFFFFFF l

/-- A 16-bit ones' complement sum folds its carries. -/
def fold16 (x : Nat) : Nat :=
  let x := x % 2 ^ 16 + x / 2 ^ 16
  let x := x % 2 ^ 16 + x / 2 ^ 16
  x % 2 ^ 16 + x / 2 ^ 16

/-- The 16-bit words of a byte string, most significant byte first; an odd last byte is followed by 0 (R79 and R57 do not say
it of the region form; DESIGN CHOICE, log, entry 126). -/
def words16 : List Byte → List Nat
  | [] => []
  | [a] => [a.toNat * 256]
  | a :: b :: t => (a.toNat * 256 + b.toNat) :: words16 t

/-- The ones' complement sum, not inverted, continued from `acc`. -/
def onesSumFrom (acc : Nat) (l : List Byte) : Nat := (words16 l).foldl (fun a w => fold16 (a + w)) acc

def onesSum (l : List Byte) : Nat := onesSumFrom 0 l

/-- An incremental checksum update by RFC 1624: HC' = ~(~HC + ~m + m') over the changed words (R66). -/
def rfc1624 (hc : Nat) (old new : List Nat) : Nat :=
  let acc := (List.zip old new).foldl (fun a (m, m') => fold16 (a + (0xFFFF - m) + m')) (0xFFFF - hc % 2 ^ 16)
  0xFFFF - acc % 2 ^ 16

/-- The words of the mixing function: four bytes each, the first byte most significant, zeros after the end (R157). -/
def mixWords : List Byte → List Nat
  | [] => []
  | [a] => [beNat [a, 0, 0, 0]]
  | [a, b] => [beNat [a, b, 0, 0]]
  | [a, b, c] => [beNat [a, b, c, 0]]
  | a :: b :: c :: d :: t => beNat [a, b, c, d] :: mixWords t

def mixStep (x w : Nat) : Nat :=
  let x := ((x ^^^ w) * 0x9E3779B1) % 2 ^ 32
  x ^^^ (x / 2 ^ 16)

/-- mix(s, n, seed) of R157. -/
def mix (s : List Byte) (seed : Nat) : Nat :=
  let x := (mixWords s).foldl mixStep seed
  let x := ((x ^^^ s.length) * 0x2C1B3C6D) % 2 ^ 32
  x ^^^ (x / 2 ^ 15)

/-- The store hashes (R157) and the spread hash (R271). -/
def h1 (s : List Byte) : Nat := mix s 0x6A7D2C15
def h2 (s : List Byte) : Nat := mix s 0x3B91E4A7
def spreadHash (s : List Byte) : Nat := mix s 0x51ED270B

end Sys2Proof.Machine
end

