-- ==== Sys2Proof/Config.lean ====
section
/-! DEFINITION. What one part or one implementation fixes, and the free values: constants without a body, so that no
proof can see what they are. A statement about one of them holds for every value it can have. -/

namespace Sys2Proof.Config

/-- A value the spec leaves open: the first argument says which open point (the numbers are listed in the assumption
log, entry 3), the second is the model's own counter of such values. No body: nothing can evaluate it. -/
opaque freeValue : Nat → Nat → BitVec 64

/-- The fused serial number DEV_SERIAL (R521): unique to each part. -/
opaque serial : BitVec 64

/-- The fused VCORE requirement PWR_VCORE.REQ in mV (R476). -/
opaque vcoreReq : BitVec 16

/-- HASH of no bytes with FN 0, 1 or 3: R157 states the hashes for 1 to 49 bytes. -/
opaque emptyHash : Nat → BitVec 32

/-- The JEDEC identifier of the flash part (R427): 3 bytes. -/
opaque jedec : BitVec 24

/-- The fixed delay from presentation to the pins of a port mode (R343, R347), in 2^−16 ns: the argument is
PORT_CFG[30:23], that is SPEED, LANES and FEC. The spec gives no value. -/
opaque txPath : BitVec 8 → BitVec 32

/-- DARBY_FW_VER and MC_PATCH_VER as the FIRMWARE section of a swatch holds them (R488): the spec gives the section no layout. -/
opaque firmwareOf : List (BitVec 8) → BitVec 32 × BitVec 32

/-- The bytes of a gPTP frame that Darby sends (R351): 0 its Pdelay_Req, 1 its answer to the partner's; the port and the sequence
number follow. The spec gives their content nowhere. -/
opaque ptpFrame : Nat → Nat → Nat → List (BitVec 8)

/-- The microword at a ROM micro-address and, from 2^15 on, the routine of an opcode (R390), and word n of the patch RAM that a FIRMWARE section holds (R393): the spec gives the
content of neither. -/
opaque microRom : Nat → BitVec 32
opaque patchOf : List (BitVec 8) → Nat → BitVec 32

/-- Field SEL of an instruction word (UIWF of R391): the numbers of the fields are given nowhere. -/
opaque microField : Nat → BitVec 64 → BitVec 64

/-- The C micro-flag of a micro-operation but UADD, and the result of a micro-shift by 64 or more (R391), by UOP and operands. -/
opaque microCarry : Nat → BitVec 64 → BitVec 64 → Bool
opaque microWide : Nat → BitVec 64 → BitVec 64 → BitVec 64

/-- The JTAG instruction that the bits of the instruction register give (R532; IEEE 1149.1 leaves the codes to the part, and the spec
gives none): 0 IDCODE, 1 BYPASS, 2 EXTEST, 3 INTEST, 4 an instruction of IEEE 1149.6, anything else BYPASS. -/
opaque jtagCode : List Bool → Nat

/-- The match register n that the FIRMWARE section of a swatch holds (R488). -/
opaque matchOf : List (BitVec 8) → Nat → BitVec 32

end Sys2Proof.Config
end

