-- ==== Sys2Proof/Machine/Maps.lean ====
section
/-! DEFINITION. Sparse data as plain data: lists of (key, value) pairs with keys strictly rising. `NMap` is a partial
map; the `DMap` operations read a map whose unlisted keys hold a default, and keep no entry equal to that default, so
that equal contents are equal lists. Byte memories and the register file are such maps. -/

namespace Sys2Proof

abbrev NMap (α : Type) := List (Nat × α)

/-- The value listed under a key. -/
def NMap.get? {α : Type} : NMap α → Nat → Option α
  | [], _ => none
  | (k, v) :: t, a => if a = k then some v else NMap.get? t a

/-- The map with one key set; the keys stay in rising order. -/
def NMap.set {α : Type} : NMap α → Nat → α → NMap α
  | [], a, v => [(a, v)]
  | (k, w) :: t, a, v =>
    if a < k then (a, v) :: (k, w) :: t
    else if a = k then (a, v) :: t
    else (k, w) :: NMap.set t a v

/-- The map without one key. -/
def NMap.del {α : Type} (m : NMap α) (a : Nat) : NMap α := m.filter fun p => p.1 ≠ a

def NMap.getD {α : Type} (m : NMap α) (a : Nat) (d : α) : α := (NMap.get? m a).getD d

def NMap.has {α : Type} (m : NMap α) (a : Nat) : Bool := (NMap.get? m a).isSome

/-- One key changed, where it is listed. -/
def NMap.modify {α : Type} (m : NMap α) (a : Nat) (f : α → α) : NMap α :=
  match NMap.get? m a with
  | some v => NMap.set m a (f v)
  | none => m

def NMap.keys {α : Type} (m : NMap α) : List Nat := m.map (·.1)

def NMap.vals {α : Type} (m : NMap α) : List α := m.map (·.2)

/-- The least number below `n` that is no key: the next free id. -/
def NMap.free {α : Type} (m : NMap α) (n : Nat) : Nat := ((List.range n).find? fun i => !NMap.has m i).getD n

/-- Keys strictly rising, all above `lo`. -/
def NMap.sortedFrom {α : Type} : Nat → NMap α → Bool
  | _, [] => true
  | lo, (k, _) :: t => decide (lo ≤ k) && NMap.sortedFrom (k + 1) t

/-- A map with a default: what a key reads as. -/
def DMap.get {α : Type} (d : Nat → α) (m : NMap α) (a : Nat) : α := (NMap.get? m a).getD (d a)

/-- A map with a default: one key written; a value equal to the default is not listed. -/
def DMap.put {α : Type} [DecidableEq α] (d : Nat → α) (m : NMap α) (a : Nat) (v : α) : NMap α :=
  if v = d a then NMap.del m a else NMap.set m a v

/-- The canonical form: keys strictly rising and no entry equal to the default. -/
def DMap.wf {α : Type} [DecidableEq α] (d : Nat → α) (m : NMap α) : Bool :=
  NMap.sortedFrom 0 m && m.all fun p => decide (p.2 ≠ d p.1)

/-- A byte memory; its unlisted addresses read as the byte its owner names. -/
abbrev Mem := NMap Byte

def Mem.read (dflt : Byte) (m : Mem) (a : Nat) : Byte := DMap.get (fun _ => dflt) m a

def Mem.write (dflt : Byte) (m : Mem) (a : Nat) (b : Byte) : Mem := DMap.put (fun _ => dflt) m a b

/-- `n` bytes from address `a` upward. -/
def Mem.readN (dflt : Byte) (m : Mem) (a : Nat) : Nat → List Byte
  | 0 => []
  | n + 1 => Mem.read dflt m a :: Mem.readN dflt m (a + 1) n

/-- Bytes written from address `a` upward, lowest first. -/
def Mem.writeN (dflt : Byte) (m : Mem) (a : Nat) : List Byte → Mem
  | [] => m
  | b :: t => Mem.writeN dflt (Mem.write dflt m a b) (a + 1) t

/-- The canonical form of a byte memory. -/
def Mem.wf (dflt : Byte) (m : Mem) : Bool := DMap.wf (fun _ => dflt) m

end Sys2Proof
end

