-- ==== Sys2Proof/Machine/RegTable.lean ====
section
/-! DEFINITION. The register map of BAR0 (R518, R525): one entry for every named register, with its place, its
replication, its reset value and, field by field, its access type (R8) and its change class (R12). The field tables
are those of R120, R148, R190, R213, R241, R268, R286, R313, R335, R366, R397, R428, R458, R496, R516, R517, R521 and
R522. `Off.<register>` is the BAR0 offset of a register, by instance where the register is replicated. -/

namespace Sys2Proof.Machine

/-- The access types of R8. -/
inductive Access where
  | ro | rw | rw1c | wo | rc | rsv
deriving DecidableEq, Repr

/-- The change classes of R12. -/
inductive Change where
  | live | quiet | coat | boot
deriving DecidableEq, Repr

/-- Which half of a 64-bit pair a register is (R10, R520). -/
inductive Half where
  | single | lo | hi
deriving DecidableEq, Repr

/-- One field of a register: its bits, its access type, its change class, and the encodings listed as reserved (R11). -/
structure Field where
  hi : Nat
  lo : Nat
  acc : Access
  chg : Change := .live
  resv : List Nat := []
deriving DecidableEq, Repr

/-- One named register: its BAR0 offset (of instance 0), its replicated sets as (count, stride), outermost first
(R518), the value it takes at reset, its half of a pair, and its fields. -/
structure RegDef where
  name : String
  base : Nat
  reps : List (Nat × Nat)
  reset : Nat
  half : Half
  fields : List Field
deriving DecidableEq, Repr

namespace Off

def pipeStatus (i : Nat) : Nat := 0x1000004 + 0x10000 * i
def pipeArb (i : Nat) : Nat := 0x1000010 + 0x10000 * i
def pipeNoEntry (i : Nat) : Nat := 0x1000020 + 0x10000 * i
def pipeReloadDrop (i : Nat) : Nat := 0x1000024 + 0x10000 * i
def pipeStepCe (i : Nat) : Nat := 0x1000028 + 0x10000 * i
def pipeEgenDrop (i : Nat) : Nat := 0x120002C + 0x10000 * i
def pipeRecirc (i : Nat) : Nat := 0x1000030 + 0x10000 * i
def coatStatus : Nat := 0x800000
def coatSlot (i : Nat) : Nat := 0x800010 + 0x4 * i
def coatCarry (i : Nat) : Nat := 0x800020 + 0x4 * i
def coatTimeLo : Nat := 0x800040
def coatTimeHi : Nat := 0x800044
def coatEgenWait : Nat := 0x800050
def coatFreeMin : Nat := 0x800060
def coatVerifyLast : Nat := 0x800070
def tblParseStart (i : Nat) : Nat := 0x1400000 + 0x4 * i
def tblParseCtl : Nat := 0x1400020
def tblPoolFree : Nat := 0x1400040
def tblTernFree : Nat := 0x1400044
def tblStageLog : Nat := 0x1400048
def tblSettle : Nat := 0x140004C
def tblEccCe : Nat := 0x1400050
def tblEccUe : Nat := 0x1400054
def pipeLenLate (i : Nat) : Nat := 0x1000034 + 0x10000 * i
def pipeParseFlag (i : Nat) : Nat := 0x1000038 + 0x10000 * i
def flowSpaceCtl (i : Nat) : Nat := 0x1800000 + 0x40 * i
def flowSpaceAge (i : Nat) : Nat := 0x1800004 + 0x40 * i
def flowSpaceAgeint (i : Nat) : Nat := 0x1800008 + 0x40 * i
def flowSpaceLearn (i : Nat) : Nat := 0x180000C + 0x40 * i
def flowSpaceLimit (i : Nat) : Nat := 0x1800010 + 0x40 * i
def flowSpaceCount (i : Nat) : Nat := 0x1800014 + 0x40 * i
def flowSpaceDmaskLo (i : Nat) : Nat := 0x1800018 + 0x40 * i
def flowSpaceDmaskHi (i : Nat) : Nat := 0x180001C + 0x40 * i
def flowTune : Nat := 0x1800800
def flowBudget : Nat := 0x1800804
def flowEvictMax : Nat := 0x1800808
def flowPark : Nat := 0x180080C
def flowDemote : Nat := 0x1800810
def flowSander : Nat := 0x1800814
def flowPinMax : Nat := 0x1800818
def flowLearnWin : Nat := 0x180081C
def flowLodgeUse : Nat := 0x1800820
def flowParked : Nat := 0x1800824
def flowSkimUsed : Nat := 0x1800828
def flowPinned : Nat := 0x180082C
def flowFetch : Nat := 0x1800840
def flowParkExpire : Nat := 0x1800844
def flowLodgeFull : Nat := 0x1800848
def flowInstallFail : Nat := 0x180084C
def flowUpdOver : Nat := 0x1800850
def flowLearnSent : Nat := 0x1800854
def flowLearnRefused : Nat := 0x1800858
def flowAged : Nat := 0x180085C
def flowSkimCe : Nat := 0x1800860
def flowSkimUe : Nat := 0x1800864
def flowRenderUe : Nat := 0x1800868
def rstoreRegion (i : Nat) : Nat := 0x1A00100 + 0x4 * i
def rstorePort (i : Nat) : Nat := 0x1A00200 + 0x4 * i
def rstoreAgeLimit : Nat := 0x1A00220
def rstoreUeLimit : Nat := 0x1A00224
def rstoreFailed : Nat := 0x1A00228
def rstoreSelfref : Nat := 0x1A0022C
def rstoreChStatus (i : Nat) : Nat := 0x1A01000 + 0x100 * i
def rstoreDlyCa (i : Nat) : Nat := 0x1A01004 + 0x100 * i
def rstoreVref (i : Nat) : Nat := 0x1A01008 + 0x100 * i
def rstoreDlyWr0 (i : Nat) : Nat := 0x1A01010 + 0x100 * i
def rstoreDlyWr1 (i : Nat) : Nat := 0x1A01014 + 0x100 * i
def rstoreDlyRd0 (i : Nat) : Nat := 0x1A01018 + 0x100 * i
def rstoreDlyRd1 (i : Nat) : Nat := 0x1A0101C + 0x100 * i
def rstoreChCe (i : Nat) : Nat := 0x1A01020 + 0x100 * i
def rstoreChUe (i : Nat) : Nat := 0x1A01024 + 0x100 * i
def rstoreChMaxlat (i : Nat) : Nat := 0x1A01028 + 0x100 * i
def bufPoolContract : Nat := 0x1C00000
def bufPoolRecirc : Nat := 0x1C00004
def bufPoolScaf : Nat := 0x1C00008
def bufSharedSize : Nat := 0x1C0000C
def bufFree : Nat := 0x1C00010
def bufStatus : Nat := 0x1C00014
def bufAlpha : Nat := 0x1C00018
def bufXonGap : Nat := 0x1C0001C
def bufWd : Nat := 0x1C00020
def bufMirrorMin : Nat := 0x1C00024
def bufPortCt (i : Nat) : Nat := 0x1C10000 + 0x40 * i
def bufPortHeadroom (i : Nat) : Nat := 0x1C10004 + 0x40 * i
def bufPortAllow (i : Nat) : Nat := 0x1C10008 + 0x40 * i
def bufPortCuse (i : Nat) : Nat := 0x1C1000C + 0x40 * i
def bufInDrop (i : Nat) : Nat := 0x1C10010 + 0x40 * i
def bufHrDrop (i : Nat) : Nat := 0x1C10014 + 0x40 * i
def bufFlush (i : Nat) : Nat := 0x1C10018 + 0x40 * i
def bufCtAbort (i : Nat) : Nat := 0x1C1001C + 0x40 * i
def bufWdDrop (i : Nat) : Nat := 0x1C10020 + 0x40 * i
def bufHintOver (i : Nat) : Nat := 0x1C10024 + 0x40 * i
def bufDemoteDrop : Nat := 0x1C00040
def bufScafDrop : Nat := 0x1C00044
def bufReplDrop : Nat := 0x1C00048
def bufMirrorSkip : Nat := 0x1C0004C
def bufCellCe : Nat := 0x1C00050
def bufCellUe : Nat := 0x1C00054
def schedCal (i : Nat) : Nat := 0x1E10000 + 0x100 * i
def schedPortCtl (i : Nat) : Nat := 0x1E10004 + 0x100 * i
def schedCalPeak (i : Nat) : Nat := 0x1E10008 + 0x100 * i
def schedShapeRate (i j : Nat) : Nat := 0x1E10010 + 0x100 * i + 0x4 * j
def schedShapeBurst (i j : Nat) : Nat := 0x1E10030 + 0x100 * i + 0x4 * j
def schedWeightLo (i : Nat) : Nat := 0x1E10050 + 0x100 * i
def schedWeightHi (i : Nat) : Nat := 0x1E10054 + 0x100 * i
def schedGateCtl (i : Nat) : Nat := 0x1E10060 + 0x100 * i
def schedGateBaseLo (i : Nat) : Nat := 0x1E10064 + 0x100 * i
def schedGateBaseHi (i : Nat) : Nat := 0x1E10068 + 0x100 * i
def schedGateCycle (i : Nat) : Nat := 0x1E1006C + 0x100 * i
def schedGateLen (i : Nat) : Nat := 0x1E10070 + 0x100 * i
def schedGateIdx (i : Nat) : Nat := 0x1E10074 + 0x100 * i
def schedGateData (i : Nat) : Nat := 0x1E10078 + 0x100 * i
def schedQExpired (i : Nat) : Nat := 0x1E10080 + 0x100 * i
def schedC7Remap (i : Nat) : Nat := 0x1E10084 + 0x100 * i
def schedQMisroute (i : Nat) : Nat := 0x1E10088 + 0x100 * i
def schedQOverlen (i : Nat) : Nat := 0x1E1008C + 0x100 * i
def schedGateOverrun (i : Nat) : Nat := 0x1E10090 + 0x100 * i
def schedQuoteActive : Nat := 0x1E00000
def schedFitStatus : Nat := 0x1E00004
def schedExpired : Nat := 0x1E00008
def spreadGrpCtl (i : Nat) : Nat := 0x2A01000 + 0x200 * i
def spreadGrpExcl (i : Nat) : Nat := 0x2A01004 + 0x200 * i
def spreadGrpLiveLo (i : Nat) : Nat := 0x2A01008 + 0x200 * i
def spreadGrpLiveHi (i : Nat) : Nat := 0x2A0100C + 0x200 * i
def spreadGrpForceLo (i : Nat) : Nat := 0x2A01010 + 0x200 * i
def spreadGrpForceHi (i : Nat) : Nat := 0x2A01014 + 0x200 * i
def spreadGrpMember (i j : Nat) : Nat := 0x2A01100 + 0x200 * i + 0x4 * j
def spreadPort (i : Nat) : Nat := 0x2A40000 + 0x4 * i
def spreadTwinProf (i : Nat) : Nat := 0x2A00100 + 0x4 * i
def spreadFloatGap : Nat := 0x2A00000
def spreadFloatUse : Nat := 0x2A00004
def spreadStatus : Nat := 0x2A00008
def spreadNoMember : Nat := 0x2A00040
def spreadRxBadtag : Nat := 0x2A00044
def spreadFloatGapCnt : Nat := 0x2A00048
def spreadFloatLate : Nat := 0x2A0004C
def spreadFloatForced : Nat := 0x2A00050
def spreadTwinDup : Nat := 0x2A00054
def spreadTwinRogue : Nat := 0x2A00058
def spreadTwinReset : Nat := 0x2A0005C
def spreadTwinBadctx : Nat := 0x2A00060
def laneCtl (i : Nat) : Nat := 0x2000000 + 0x1000 * i
def laneTxTap (i : Nat) : Nat := 0x2000004 + 0x1000 * i
def laneStatus (i : Nat) : Nat := 0x2000008 + 0x1000 * i
def laneLosCfg (i : Nat) : Nat := 0x200000C + 0x1000 * i
def laneLosCnt (i : Nat) : Nat := 0x2000020 + 0x1000 * i
def laneLolCnt (i : Nat) : Nat := 0x2000024 + 0x1000 * i
def laneRetrain (i : Nat) : Nat := 0x2000028 + 0x1000 * i
def laneFail (i : Nat) : Nat := 0x200002C + 0x1000 * i
def portCfg (i : Nat) : Nat := 0x2400000 + 0x1000 * i
def portPrio (i : Nat) : Nat := 0x2400004 + 0x1000 * i
def portPfc (i : Nat) : Nat := 0x2400008 + 0x1000 * i
def portSleep (i : Nat) : Nat := 0x240000C + 0x1000 * i
def portStatus (i : Nat) : Nat := 0x2400010 + 0x1000 * i
def portMacLo (i : Nat) : Nat := 0x2400018 + 0x1000 * i
def portMacHi (i : Nat) : Nat := 0x240001C + 0x1000 * i
def portRxFramesLo (i : Nat) : Nat := 0x2400100 + 0x1000 * i
def portRxFramesHi (i : Nat) : Nat := 0x2400104 + 0x1000 * i
def portRxBytesLo (i : Nat) : Nat := 0x2400108 + 0x1000 * i
def portRxBytesHi (i : Nat) : Nat := 0x240010C + 0x1000 * i
def portTxFramesLo (i : Nat) : Nat := 0x2400110 + 0x1000 * i
def portTxFramesHi (i : Nat) : Nat := 0x2400114 + 0x1000 * i
def portTxBytesLo (i : Nat) : Nat := 0x2400118 + 0x1000 * i
def portTxBytesHi (i : Nat) : Nat := 0x240011C + 0x1000 * i
def portFecCorrLo (i : Nat) : Nat := 0x2400120 + 0x1000 * i
def portFecCorrHi (i : Nat) : Nat := 0x2400124 + 0x1000 * i
def portFecUncorr (i : Nat) : Nat := 0x2400128 + 0x1000 * i
def portRxFcsErr (i : Nat) : Nat := 0x240012C + 0x1000 * i
def portRxOversize (i : Nat) : Nat := 0x2400130 + 0x1000 * i
def portRxRunt (i : Nat) : Nat := 0x2400134 + 0x1000 * i
def portRxFragErr (i : Nat) : Nat := 0x2400138 + 0x1000 * i
def portTxOversize (i : Nat) : Nat := 0x240013C + 0x1000 * i
def portPfcRx (i : Nat) : Nat := 0x2400140 + 0x1000 * i
def portPfcTx (i : Nat) : Nat := 0x2400144 + 0x1000 * i
def portPauseIgnored (i : Nat) : Nat := 0x2400148 + 0x1000 * i
def portSleepRx (i : Nat) : Nat := 0x240014C + 0x1000 * i
def portSleepTx (i : Nat) : Nat := 0x2400150 + 0x1000 * i
def portSleepBad (i : Nat) : Nat := 0x2400154 + 0x1000 * i
def portDownCnt (i : Nat) : Nat := 0x2400158 + 0x1000 * i
def lathCtl (i : Nat) : Nat := 0x2800000 + 0x4000 * i
def lathStatus (i : Nat) : Nat := 0x2800004 + 0x4000 * i
def lathDefCfg (i : Nat) : Nat := 0x2800008 + 0x4000 * i
def lathApsCtl (i : Nat) : Nat := 0x280000C + 0x4000 * i
def lathApsStatus (i : Nat) : Nat := 0x2800010 + 0x4000 * i
def lathTraceTx (i j : Nat) : Nat := 0x2800020 + 0x4000 * i + 0x4 * j
def lathTraceExp (i j : Nat) : Nat := 0x2800030 + 0x4000 * i + 0x4 * j
def lathTraceRx (i j : Nat) : Nat := 0x2800040 + 0x4000 * i + 0x4 * j
def lathChanCfg (i j : Nat) : Nat := 0x2800108 + 0x4000 * i + 0x8 * j
def lathChanD (i j : Nat) : Nat := 0x280010C + 0x4000 * i + 0x8 * j
def lathMap (i j : Nat) : Nat := 0x2800400 + 0x4000 * i + 0x4 * j
def lathRxFrames (i : Nat) : Nat := 0x2800800 + 0x4000 * i
def lathTxFrames (i : Nat) : Nat := 0x2800804 + 0x4000 * i
def lathRxFcsErr (i : Nat) : Nat := 0x2800808 + 0x4000 * i
def lathHdrErr (i : Nat) : Nat := 0x280080C + 0x4000 * i
def lathBipErr (i : Nat) : Nat := 0x2800810 + 0x4000 * i
def lathFecUncorr (i : Nat) : Nat := 0x2800814 + 0x4000 * i
def lathStuffInc (i : Nat) : Nat := 0x2800818 + 0x4000 * i
def lathStuffDec (i : Nat) : Nat := 0x280081C + 0x4000 * i
def lathC7Remap (i : Nat) : Nat := 0x2800820 + 0x4000 * i
def lathChanDemote (i : Nat) : Nat := 0x2800824 + 0x4000 * i
def lathChanExp (i : Nat) : Nat := 0x2800828 + 0x4000 * i
def lathApsSwitch (i : Nat) : Nat := 0x280082C + 0x4000 * i
def lathApsLost (i : Nat) : Nat := 0x2800830 + 0x4000 * i
def plumbCtl : Nat := 0x500000
def plumbStatus : Nat := 0x500004
def plumbTransitLo : Nat := 0x500008
def plumbTransitHi : Nat := 0x50000C
def plumbAonInc : Nat := 0x500010
def plumbAlarmLo : Nat := 0x500018
def plumbAlarmHi : Nat := 0x50001C
def plumbPps : Nat := 0x500020
def plumbPpsCapLo : Nat := 0x500028
def plumbPpsCapHi : Nat := 0x50002C
def plumbServoCtl : Nat := 0x500030
def plumbServoGain : Nat := 0x500034
def plumbServoLim : Nat := 0x500038
def plumbServoStatus : Nat := 0x50003C
def plumbTsiSkip : Nat := 0x500080
def plumbTbCmd (i : Nat) : Nat := 0x500100 + 0x40 * i
def plumbTbStatus (i : Nat) : Nat := 0x500104 + 0x40 * i
def plumbTbAdj (i : Nat) : Nat := 0x500108 + 0x40 * i
def plumbTbSlew (i : Nat) : Nat := 0x50010C + 0x40 * i
def plumbTbSecLo (i : Nat) : Nat := 0x500110 + 0x40 * i
def plumbTbSecHi (i : Nat) : Nat := 0x500114 + 0x40 * i
def plumbTbNs (i : Nat) : Nat := 0x500118 + 0x40 * i
def plumbTbFrac (i : Nat) : Nat := 0x50011C + 0x40 * i
def plumbTbSetSecLo (i : Nat) : Nat := 0x500120 + 0x40 * i
def plumbTbSetSecHi (i : Nat) : Nat := 0x500124 + 0x40 * i
def plumbTbSetNs (i : Nat) : Nat := 0x500128 + 0x40 * i
def plumbTbDeltaLo (i : Nat) : Nat := 0x50012C + 0x40 * i
def plumbTbDeltaHi (i : Nat) : Nat := 0x500130 + 0x40 * i
def plumbTbOfsLo (i : Nat) : Nat := 0x500134 + 0x40 * i
def plumbTbOfsHi (i : Nat) : Nat := 0x500138 + 0x40 * i
def plumbTioCtl (i : Nat) : Nat := 0x500400 + 0x20 * i
def plumbTioStartLo (i : Nat) : Nat := 0x500404 + 0x20 * i
def plumbTioStartHi (i : Nat) : Nat := 0x500408 + 0x20 * i
def plumbTioPeriod (i : Nat) : Nat := 0x50040C + 0x20 * i
def plumbTioPfrac (i : Nat) : Nat := 0x500410 + 0x20 * i
def plumbTioWidth (i : Nat) : Nat := 0x500414 + 0x20 * i
def plumbTioCapLo (i : Nat) : Nat := 0x500418 + 0x20 * i
def plumbTioCapHi (i : Nat) : Nat := 0x50041C + 0x20 * i
def plumbPortTs (i : Nat) : Nat := 0x510000 + 0x10 * i
def plumbPortAdj (i : Nat) : Nat := 0x510004 + 0x10 * i
def plumbPortAsym (i : Nat) : Nat := 0x510008 + 0x10 * i
def mcRomId : Nat := 0x2C00000
def mcPatchVer : Nat := 0x2C00004
def scafCodeCtl : Nat := 0x2C00010
def scafCodeLen0 : Nat := 0x2C00014
def scafCodeLen1 : Nat := 0x2C00018
def scafCodeIdx : Nat := 0x2C0001C
def scafCodeDataLo : Nat := 0x2C00020
def scafCodeDataHi : Nat := 0x2C00024
def scafBudget : Nat := 0x2C00030
def scafPullAge : Nat := 0x2C00034
def scafPushPages : Nat := 0x2C00038
def scafSignal : Nat := 0x2C0003C
def scafTasks : Nat := 0x2C00040
def scafWork : Nat := 0x2C00044
def scafTick (i : Nat) : Nat := 0x2C00080 + 0x4 * i
def mcMatch (i : Nat) : Nat := 0x2C00100 + 0x4 * i
def scafNoEntry : Nat := 0x2C00200
def scafQueueDrop : Nat := 0x2C00204
def scafShedDrop : Nat := 0x2C00208
def scafTickOver : Nat := 0x2C0020C
def scafEmitBad : Nat := 0x2C00210
def scafAbort : Nat := 0x2C00214
def scafEngStatus (i : Nat) : Nat := 0x2C10000 + 0x1000 * i
def scafEngInstr (i : Nat) : Nat := 0x2C10004 + 0x1000 * i
def scafEngExc (i : Nat) : Nat := 0x2C10008 + 0x1000 * i
def scafEngFaults (i : Nat) : Nat := 0x2C1000C + 0x1000 * i
def scafThrState (i j : Nat) : Nat := 0x2C10100 + 0x1000 * i + 0x40 * j
def scafThrPc (i j : Nat) : Nat := 0x2C10104 + 0x1000 * i + 0x40 * j
def scafThrUpc (i j : Nat) : Nat := 0x2C10108 + 0x1000 * i + 0x40 * j
def scafThrExc (i j : Nat) : Nat := 0x2C1010C + 0x1000 * i + 0x40 * j
def scafThrEpc (i j : Nat) : Nat := 0x2C10110 + 0x1000 * i + 0x40 * j
def scafThrEaddrLo (i j : Nat) : Nat := 0x2C10114 + 0x1000 * i + 0x40 * j
def scafThrEaddrHi (i j : Nat) : Nat := 0x2C10118 + 0x1000 * i + 0x40 * j
def seatOwner : Nat := 0x200000
def seatIsland : Nat := 0x200004
def seatIslandStatus : Nat := 0x200008
def seatPart (i : Nat) : Nat := 0x200040 + 0x4 * i
def seatPortPart (i : Nat) : Nat := 0x200100 + 0x4 * i
def seatCtl (i : Nat) : Nat := 0x201000 + 0x1000 * i
def seatStatus (i : Nat) : Nat := 0x201004 + 0x1000 * i
def seatKeepalive (i : Nat) : Nat := 0x201008 + 0x1000 * i
def seatClaim (i : Nat) : Nat := 0x20100C + 0x1000 * i
def seatNrLost (i : Nat) : Nat := 0x201010 + 0x1000 * i
def seatCrBaseLo (i j : Nat) : Nat := 0x201100 + 0x1000 * i + 0x20 * j
def seatCrBaseHi (i j : Nat) : Nat := 0x201104 + 0x1000 * i + 0x20 * j
def seatCrCtl (i j : Nat) : Nat := 0x201108 + 0x1000 * i + 0x20 * j
def seatCrHead (i j : Nat) : Nat := 0x20110C + 0x1000 * i + 0x20 * j
def seatCrTail (i j : Nat) : Nat := 0x201110 + 0x1000 * i + 0x20 * j
def seatNrBaseLo (i j : Nat) : Nat := 0x201200 + 0x1000 * i + 0x20 * j
def seatNrBaseHi (i j : Nat) : Nat := 0x201204 + 0x1000 * i + 0x20 * j
def seatNrCtl (i j : Nat) : Nat := 0x201208 + 0x1000 * i + 0x20 * j
def seatNrTail (i j : Nat) : Nat := 0x20120C + 0x1000 * i + 0x20 * j
def seatNrHead (i j : Nat) : Nat := 0x201210 + 0x1000 * i + 0x20 * j
def seatNrFrameBaseLo (i j : Nat) : Nat := 0x201214 + 0x1000 * i + 0x20 * j
def seatNrFrameBaseHi (i j : Nat) : Nat := 0x201218 + 0x1000 * i + 0x20 * j
def seatNrCoalesce (i j : Nat) : Nat := 0x20121C + 0x1000 * i + 0x20 * j
def hawkCtl : Nat := 0x100000
def hawkStatus : Nat := 0x100004
def hawkSeqLo : Nat := 0x100008
def hawkSeqHi : Nat := 0x10000C
def hawkRaiseArgLo : Nat := 0x100010
def hawkRaiseArgHi : Nat := 0x100014
def hawkRaise : Nat := 0x100018
def hawkQuiet : Nat := 0x100020
def hawkQuietVal : Nat := 0x100024
def hawkLogCtl : Nat := 0x100030
def hawkLogOvf : Nat := 0x100034
def hawkMerged : Nat := 0x100038
def hawkSticky (i : Nat) : Nat := 0x100100 + 0x4 * i
def hawkLogmask (i : Nat) : Nat := 0x100180 + 0x4 * i
def hawkSmask (i j : Nat) : Nat := 0x100200 + 0x80 * i + 0x4 * j
def hawkLogW (i j : Nat) : Nat := 0x101000 + 0x20 * i + 0x4 * j
def faultCtl : Nat := 0x3200000
def faultRepeat : Nat := 0x3200004
def faultStatus : Nat := 0x3200008
def faultResetCause : Nat := 0x320000C
def faultStopSeqLo : Nat := 0x3200010
def faultStopSeqHi : Nat := 0x3200014
def faultDomIdx : Nat := 0x3200020
def faultDomState : Nat := 0x3200024
def faultRecoveries : Nat := 0x3200030
def faultEscalations : Nat := 0x3200034
def faultReclaimed : Nat := 0x3200038
def pwrCtl : Nat := 0x400000
def pwrStatus : Nat := 0x400004
def pwrReqL : Nat := 0x400008
def pwrWakeEn : Nat := 0x400010
def pwrWakeSrc : Nat := 0x400014
def pwrVcore : Nat := 0x400020
def pwrShedThr : Nat := 0x400024
def pwrShedStatus : Nat := 0x400028
def pwrLastword : Nat := 0x400030
def pwrTherm : Nat := 0x400040
def pwrTrim : Nat := 0x400044
def pwrStrap : Nat := 0x400050
def pwrSwatch : Nat := 0x400054
def pwrPad : Nat := 0x400058
def pwrAon : Nat := 0x40005C
def pwrGatePipeLo : Nat := 0x400060
def pwrGatePipeHi : Nat := 0x400064
def pwrGateTileLo : Nat := 0x400068
def pwrGateTileHi : Nat := 0x40006C
def pwrGateScaf : Nat := 0x400070
def pwrShedDrop : Nat := 0x400100
def darbyFlashAddr : Nat := 0x600100
def darbyFlashCmd : Nat := 0x600104
def darbyFlashBuf (i : Nat) : Nat := 0x600200 + 0x4 * i
def darbyFwVer : Nat := 0x600000
def perfSel (i : Nat) : Nat := 0x3001000 + 0x20 * i
def perfFilt (i : Nat) : Nat := 0x3001004 + 0x20 * i
def perfRangeLo (i : Nat) : Nat := 0x3001008 + 0x20 * i
def perfRangeHi (i : Nat) : Nat := 0x300100C + 0x20 * i
def perfPart (i : Nat) : Nat := 0x3001010 + 0x20 * i
def perfCntLo (i : Nat) : Nat := 0x3001014 + 0x20 * i
def perfCntHi (i : Nat) : Nat := 0x3001018 + 0x20 * i
def perfCtl : Nat := 0x3000000
def perfSnapTimeLo : Nat := 0x3000008
def perfSnapTimeHi : Nat := 0x300000C
def perfSnapPend : Nat := 0x3000010
def perfSnapSkip : Nat := 0x3000014
def perfOvf (i : Nat) : Nat := 0x3000020 + 0x4 * i
def perfSnapLo (i : Nat) : Nat := 0x3008000 + 0x8 * i
def perfSnapHi (i : Nat) : Nat := 0x3008004 + 0x8 * i
def telemCtl : Nat := 0x3100000
def telemPen : Nat := 0x3100004
def telemOdid : Nat := 0x3100008
def telemUdp : Nat := 0x310000C
def telemDmacLo : Nat := 0x3100010
def telemDmacHi : Nat := 0x3100014
def telemVlan : Nat := 0x3100018
def telemSip (i : Nat) : Nat := 0x3100020 + 0x4 * i
def telemDip (i : Nat) : Nat := 0x3100030 + 0x4 * i
def telemTiming : Nat := 0x3100040
def telemEpochLo : Nat := 0x3100048
def telemEpochHi : Nat := 0x310004C
def telemFspaceCtl (i : Nat) : Nat := 0x3100100 + 0x10 * i
def telemFspaceMaskLo (i : Nat) : Nat := 0x3100104 + 0x10 * i
def telemFspaceMaskHi (i : Nat) : Nat := 0x3100108 + 0x10 * i
def telemQuote : Nat := 0x3100200
def telemCounter : Nat := 0x3100204
def telemSample : Nat := 0x3100208
def telemStatus : Nat := 0x3100300
def telemRecordsLo : Nat := 0x3100400
def telemRecordsHi : Nat := 0x3100404
def telemMsgs : Nat := 0x3100408
def telemDropMsg : Nat := 0x310040C
def telemDropRec : Nat := 0x3100410
def telemSampleSkip : Nat := 0x3100414
def telemWalkLate : Nat := 0x3100418
def devIdent : Nat := 0x0
def devStepping : Nat := 0x4
def devSerialLo : Nat := 0x8
def devSerialHi : Nat := 0xC
def devWhoami : Nat := 0x10
def devScratch : Nat := 0x14
def indAddr : Nat := 0x3F00000
def indStride : Nat := 0x3F00004
def indCount : Nat := 0x3F00008
def indData : Nat := 0x3F0000C
def indStatus : Nat := 0x3F00010

end Off

/-- Registers of 03_line_pipeline (R120). -/
def regsLinePipeline : List RegDef := [
  ⟨"PIPE_STATUS", 0x1000004, [(64, 0x10000)], 0x0, .single,
    [⟨31, 16, .ro, .live, []⟩, ⟨11, 8, .ro, .live, []⟩, ⟨5, 4, .ro, .live, []⟩, ⟨2, 2, .ro, .live, []⟩, ⟨1, 1, .ro, .live, []⟩, ⟨0, 0, .ro, .live, []⟩]⟩,
  ⟨"PIPE_ARB", 0x1000010, [(32, 0x10000)], 0x4, .single,
    [⟨15, 8, .rc, .live, []⟩, ⟨7, 0, .rw, .live, []⟩]⟩,
  ⟨"PIPE_NO_ENTRY", 0x1000020, [(64, 0x10000)], 0x0, .single,
    [⟨31, 0, .rc, .live, []⟩]⟩,
  ⟨"PIPE_RELOAD_DROP", 0x1000024, [(64, 0x10000)], 0x0, .single,
    [⟨31, 0, .rc, .live, []⟩]⟩,
  ⟨"PIPE_STEP_CE", 0x1000028, [(64, 0x10000)], 0x0, .single,
    [⟨31, 0, .rc, .live, []⟩]⟩,
  ⟨"PIPE_EGEN_DROP", 0x120002C, [(32, 0x10000)], 0x0, .single,
    [⟨31, 0, .rc, .live, []⟩]⟩,
  ⟨"PIPE_RECIRC", 0x1000030, [(32, 0x10000)], 0x0, .single,
    [⟨31, 0, .rc, .live, []⟩]⟩,
  ⟨"COAT_STATUS", 0x800000, [], 0x0, .single,
    [⟨31, 16, .ro, .live, []⟩, ⟨9, 9, .ro, .live, []⟩, ⟨8, 8, .ro, .live, []⟩, ⟨7, 7, .ro, .live, []⟩, ⟨6, 6, .ro, .live, []⟩, ⟨5, 2, .ro, .live, []⟩, ⟨1, 0, .ro, .live, []⟩]⟩,
  ⟨"COAT_SLOT", 0x800010, [(4, 0x4)], 0x0, .single,
    [⟨17, 17, .ro, .live, []⟩, ⟨16, 16, .ro, .live, []⟩, ⟨15, 0, .ro, .live, []⟩]⟩,
  ⟨"COAT_CARRY", 0x800020, [(4, 0x4)], 0x0, .single,
    [⟨19, 0, .ro, .live, []⟩]⟩,
  ⟨"COAT_TIME_LO", 0x800040, [], 0x0, .lo,
    [⟨31, 0, .ro, .live, []⟩]⟩,
  ⟨"COAT_TIME_HI", 0x800044, [], 0x0, .hi,
    [⟨31, 0, .ro, .live, []⟩]⟩,
  ⟨"COAT_EGEN_WAIT", 0x800050, [], 0xC8, .single,
    [⟨15, 0, .rw, .live, []⟩]⟩,
  ⟨"COAT_FREE_MIN", 0x800060, [], 0x10001000, .single,
    [⟨28, 16, .ro, .live, []⟩, ⟨12, 0, .ro, .live, []⟩]⟩,
  ⟨"COAT_VERIFY_LAST", 0x800070, [], 0x0, .single,
    [⟨26, 24, .ro, .live, []⟩, ⟨23, 12, .ro, .live, []⟩, ⟨11, 6, .ro, .live, []⟩, ⟨5, 0, .ro, .live, []⟩]⟩]

/-- Registers of 04_parse_classify (R148). -/
def regsParseClassify : List RegDef := [
  ⟨"TBL_PARSE_START", 0x1400000, [(8, 0x4)], 0x0, .single,
    [⟨3, 0, .rw, .coat, [5, 6, 7, 8, 9, 10, 11, 12, 13, 14, 15]⟩, ⟨7, 4, .rw, .coat, [5, 6, 7, 8, 9, 10, 11, 12, 13, 14, 15]⟩, ⟨11, 8, .rw, .coat, [5, 6, 7, 8, 9, 10, 11, 12, 13, 14, 15]⟩, ⟨15, 12, .rw, .coat, [5, 6, 7, 8, 9, 10, 11, 12, 13, 14, 15]⟩, ⟨19, 16, .rw, .coat, [5, 6, 7, 8, 9, 10, 11, 12, 13, 14, 15]⟩, ⟨23, 20, .rw, .coat, [5, 6, 7, 8, 9, 10, 11, 12, 13, 14, 15]⟩, ⟨27, 24, .rw, .coat, [5, 6, 7, 8, 9, 10, 11, 12, 13, 14, 15]⟩, ⟨31, 28, .rw, .coat, [5, 6, 7, 8, 9, 10, 11, 12, 13, 14, 15]⟩]⟩,
  ⟨"TBL_PARSE_CTL", 0x1400020, [], 0x88A80007, .single,
    [⟨31, 16, .rw, .coat, []⟩, ⟨2, 2, .rw, .coat, []⟩, ⟨1, 1, .rw, .coat, []⟩, ⟨0, 0, .rw, .coat, []⟩]⟩,
  ⟨"TBL_POOL_FREE", 0x1400040, [], 0x5D0, .single,
    [⟨10, 0, .ro, .live, []⟩]⟩,
  ⟨"TBL_TERN_FREE", 0x1400044, [], 0x60, .single,
    [⟨6, 0, .ro, .live, []⟩]⟩,
  ⟨"TBL_STAGE_LOG", 0x1400048, [], 0x0, .single,
    [⟨22, 0, .ro, .live, []⟩]⟩,
  ⟨"TBL_SETTLE", 0x140004C, [], 0x0, .single,
    [⟨0, 0, .ro, .live, []⟩]⟩,
  ⟨"TBL_ECC_CE", 0x1400050, [], 0x0, .single,
    [⟨31, 0, .rc, .live, []⟩]⟩,
  ⟨"TBL_ECC_UE", 0x1400054, [], 0x0, .single,
    [⟨31, 0, .rc, .live, []⟩]⟩,
  ⟨"PIPE_LEN_LATE", 0x1000034, [(32, 0x10000)], 0x0, .single,
    [⟨31, 0, .rc, .live, []⟩]⟩,
  ⟨"PIPE_PARSE_FLAG", 0x1000038, [(32, 0x10000)], 0x0, .single,
    [⟨31, 0, .rc, .live, []⟩]⟩]

/-- Registers of 05_flow_state (R190). -/
def regsFlowState1 : List RegDef := [
  ⟨"FLOW_SPACE_CTL", 0x1800000, [(16, 0x40)], 0x0, .single,
    [⟨31, 31, .rw, .live, []⟩, ⟨30, 30, .rw, .quiet, []⟩, ⟨29, 26, .rw, .quiet, []⟩, ⟨23, 23, .rw, .live, []⟩, ⟨22, 22, .rw, .live, []⟩, ⟨21, 19, .rw, .live, []⟩]⟩,
  ⟨"FLOW_SPACE_AGE", 0x1800004, [(16, 0x40)], 0x0, .single,
    [⟨22, 0, .rw, .live, []⟩]⟩,
  ⟨"FLOW_SPACE_AGEINT", 0x1800008, [(16, 0x40)], 0x3BA, .single,
    [⟨14, 0, .rw, .live, []⟩]⟩,
  ⟨"FLOW_SPACE_LEARN", 0x180000C, [(16, 0x40)], 0x400064, .single,
    [⟨31, 16, .rw, .live, []⟩, ⟨15, 0, .rw, .live, []⟩]⟩,
  ⟨"FLOW_SPACE_LIMIT", 0x1800010, [(16, 0x40)], 0x0, .single,
    [⟨25, 0, .rw, .live, []⟩]⟩,
  ⟨"FLOW_SPACE_COUNT", 0x1800014, [(16, 0x40)], 0x0, .single,
    [⟨26, 0, .ro, .live, []⟩]⟩,
  ⟨"FLOW_SPACE_DMASK_LO", 0x1800018, [(16, 0x40)], 0x0, .single,
    [⟨31, 0, .rw, .live, []⟩]⟩,
  ⟨"FLOW_SPACE_DMASK_HI", 0x180001C, [(16, 0x40)], 0x0, .single,
    [⟨15, 0, .rw, .live, []⟩]⟩,
  ⟨"FLOW_TUNE", 0x1800800, [], 0x31F0000A, .single,
    [⟨31, 28, .ro, .live, []⟩, ⟨27, 24, .rw, .live, []⟩, ⟨23, 20, .rw, .live, []⟩, ⟨15, 0, .rw, .live, []⟩]⟩,
  ⟨"FLOW_BUDGET", 0x1800804, [], 0x4B0, .single,
    [⟨11, 0, .rw, .live, []⟩]⟩,
  ⟨"FLOW_EVICT_MAX", 0x1800808, [], 0x1E8480, .single,
    [⟨31, 0, .rw, .live, []⟩]⟩,
  ⟨"FLOW_PARK", 0x180080C, [], 0x14, .single,
    [⟨5, 0, .rw, .live, []⟩]⟩,
  ⟨"FLOW_DEMOTE", 0x1800810, [], 0x3E803BA, .single,
    [⟨31, 16, .rw, .live, []⟩, ⟨15, 0, .rw, .live, []⟩]⟩,
  ⟨"FLOW_SANDER", 0x1800814, [], 0x640010, .single,
    [⟨31, 16, .rw, .live, []⟩, ⟨15, 0, .rw, .live, []⟩]⟩,
  ⟨"FLOW_PIN_MAX", 0x1800818, [], 0x100000, .single,
    [⟨20, 0, .rw, .live, []⟩]⟩,
  ⟨"FLOW_LEARN_WIN", 0x180081C, [], 0x64, .single,
    [⟨15, 0, .rw, .live, []⟩]⟩,
  ⟨"FLOW_LODGE_USE", 0x1800820, [], 0x0, .single,
    [⟨14, 0, .ro, .live, []⟩]⟩,
  ⟨"FLOW_PARKED", 0x1800824, [], 0x0, .single,
    [⟨18, 0, .ro, .live, []⟩]⟩,
  ⟨"FLOW_SKIM_USED", 0x1800828, [], 0x0, .single,
    [⟨21, 0, .ro, .live, []⟩]⟩,
  ⟨"FLOW_PINNED", 0x180082C, [], 0x0, .single,
    [⟨20, 0, .ro, .live, []⟩]⟩,
  ⟨"FLOW_FETCH", 0x1800840, [], 0x0, .single,
    [⟨31, 0, .rc, .live, []⟩]⟩,
  ⟨"FLOW_PARK_EXPIRE", 0x1800844, [], 0x0, .single,
    [⟨31, 0, .rc, .live, []⟩]⟩,
  ⟨"FLOW_LODGE_FULL", 0x1800848, [], 0x0, .single,
    [⟨31, 0, .rc, .live, []⟩]⟩,
  ⟨"FLOW_INSTALL_FAIL", 0x180084C, [], 0x0, .single,
    [⟨31, 0, .rc, .live, []⟩]⟩]

/-- Registers of 05_flow_state (R190). -/
def regsFlowState2 : List RegDef := [
  ⟨"FLOW_UPD_OVER", 0x1800850, [], 0x0, .single,
    [⟨31, 0, .rc, .live, []⟩]⟩,
  ⟨"FLOW_LEARN_SENT", 0x1800854, [], 0x0, .single,
    [⟨31, 0, .rc, .live, []⟩]⟩,
  ⟨"FLOW_LEARN_REFUSED", 0x1800858, [], 0x0, .single,
    [⟨31, 0, .rc, .live, []⟩]⟩,
  ⟨"FLOW_AGED", 0x180085C, [], 0x0, .single,
    [⟨31, 0, .rc, .live, []⟩]⟩,
  ⟨"FLOW_SKIM_CE", 0x1800860, [], 0x0, .single,
    [⟨31, 0, .rc, .live, []⟩]⟩,
  ⟨"FLOW_SKIM_UE", 0x1800864, [], 0x0, .single,
    [⟨31, 0, .rc, .live, []⟩]⟩,
  ⟨"FLOW_RENDER_UE", 0x1800868, [], 0x0, .single,
    [⟨31, 0, .rc, .live, []⟩]⟩]

/-- Registers of 06_render_store (R213). -/
def regsRenderStore : List RegDef := [
  ⟨"RSTORE_REGION", 0x1A00100, [(8, 0x4)], 0x0, .single,
    [⟨31, 31, .rw, .boot, []⟩, ⟨30, 28, .rw, .boot, [6, 7]⟩, ⟨27, 26, .rw, .boot, [3]⟩, ⟨25, 22, .rw, .boot, []⟩, ⟨14, 0, .rw, .boot, []⟩]⟩,
  ⟨"RSTORE_PORT", 0x1A00200, [(6, 0x4)], 0x0, .single,
    [⟨31, 30, .rw, .live, []⟩, ⟨19, 0, .rw, .live, []⟩]⟩,
  ⟨"RSTORE_AGE_LIMIT", 0x1A00220, [], 0xC8, .single,
    [⟨15, 0, .rw, .live, []⟩]⟩,
  ⟨"RSTORE_UE_LIMIT", 0x1A00224, [], 0x40, .single,
    [⟨15, 0, .rw, .live, []⟩]⟩,
  ⟨"RSTORE_FAILED", 0x1A00228, [], 0x0, .single,
    [⟨31, 0, .ro, .live, []⟩]⟩,
  ⟨"RSTORE_SELFREF", 0x1A0022C, [], 0x0, .single,
    [⟨1, 0, .ro, .live, []⟩]⟩,
  ⟨"RSTORE_CH_STATUS", 0x1A01000, [(32, 0x100)], 0x2, .single,
    [⟨4, 4, .ro, .live, []⟩, ⟨3, 3, .ro, .live, []⟩, ⟨2, 2, .ro, .live, []⟩, ⟨1, 1, .ro, .live, []⟩, ⟨0, 0, .ro, .live, []⟩]⟩,
  ⟨"RSTORE_DLY_CA", 0x1A01004, [(32, 0x100)], 0x0, .single,
    [⟨6, 0, .rw, .quiet, []⟩]⟩,
  ⟨"RSTORE_VREF", 0x1A01008, [(32, 0x100)], 0x0, .single,
    [⟨14, 8, .rw, .quiet, []⟩, ⟨6, 0, .rw, .quiet, []⟩]⟩,
  ⟨"RSTORE_DLY_WR0", 0x1A01010, [(32, 0x100)], 0x0, .single,
    [⟨5, 0, .rw, .quiet, []⟩, ⟨11, 6, .rw, .quiet, []⟩, ⟨17, 12, .rw, .quiet, []⟩, ⟨23, 18, .rw, .quiet, []⟩, ⟨29, 24, .rw, .quiet, []⟩]⟩,
  ⟨"RSTORE_DLY_WR1", 0x1A01014, [(32, 0x100)], 0x0, .single,
    [⟨5, 0, .rw, .quiet, []⟩, ⟨11, 6, .rw, .quiet, []⟩, ⟨17, 12, .rw, .quiet, []⟩, ⟨23, 18, .rw, .quiet, []⟩, ⟨29, 24, .rw, .quiet, []⟩]⟩,
  ⟨"RSTORE_DLY_RD0", 0x1A01018, [(32, 0x100)], 0x0, .single,
    [⟨5, 0, .rw, .quiet, []⟩, ⟨11, 6, .rw, .quiet, []⟩, ⟨17, 12, .rw, .quiet, []⟩, ⟨23, 18, .rw, .quiet, []⟩, ⟨29, 24, .rw, .quiet, []⟩]⟩,
  ⟨"RSTORE_DLY_RD1", 0x1A0101C, [(32, 0x100)], 0x0, .single,
    [⟨5, 0, .rw, .quiet, []⟩, ⟨11, 6, .rw, .quiet, []⟩, ⟨17, 12, .rw, .quiet, []⟩, ⟨23, 18, .rw, .quiet, []⟩, ⟨29, 24, .rw, .quiet, []⟩]⟩,
  ⟨"RSTORE_CH_CE", 0x1A01020, [(32, 0x100)], 0x0, .single,
    [⟨31, 0, .rc, .live, []⟩]⟩,
  ⟨"RSTORE_CH_UE", 0x1A01024, [(32, 0x100)], 0x0, .single,
    [⟨31, 0, .rc, .live, []⟩]⟩,
  ⟨"RSTORE_CH_MAXLAT", 0x1A01028, [(32, 0x100)], 0x0, .single,
    [⟨19, 0, .rc, .live, []⟩]⟩]

/-- Registers of 07_buffer_core (R241). -/
def regsBufferCore1 : List RegDef := [
  ⟨"BUF_POOL_CONTRACT", 0x1C00000, [], 0x10000, .single,
    [⟨19, 0, .rw, .live, []⟩]⟩,
  ⟨"BUF_POOL_RECIRC", 0x1C00004, [], 0x4000, .single,
    [⟨19, 0, .rw, .live, []⟩]⟩,
  ⟨"BUF_POOL_SCAF", 0x1C00008, [], 0x2000, .single,
    [⟨19, 0, .rw, .live, []⟩]⟩,
  ⟨"BUF_SHARED_SIZE", 0x1C0000C, [], 0x8A000, .single,
    [⟨19, 0, .ro, .live, []⟩]⟩,
  ⟨"BUF_FREE", 0x1C00010, [], 0x8A000, .single,
    [⟨19, 0, .ro, .live, []⟩]⟩,
  ⟨"BUF_STATUS", 0x1C00014, [], 0x0, .single,
    [⟨0, 0, .rw1c, .live, []⟩]⟩,
  ⟨"BUF_ALPHA", 0x1C00018, [], 0x3, .single,
    [⟨2, 0, .rw, .live, []⟩]⟩,
  ⟨"BUF_XON_GAP", 0x1C0001C, [], 0x4A, .single,
    [⟨15, 0, .rw, .live, []⟩]⟩,
  ⟨"BUF_WD", 0x1C00020, [], 0x80000064, .single,
    [⟨31, 31, .rw, .live, []⟩, ⟨15, 0, .rw, .live, []⟩]⟩,
  ⟨"BUF_MIRROR_MIN", 0x1C00024, [], 0x8000, .single,
    [⟨19, 0, .rw, .live, []⟩]⟩,
  ⟨"BUF_PORT_CT", 0x1C10000, [(512, 0x40)], 0xFF, .single,
    [⟨7, 0, .rw, .live, []⟩]⟩,
  ⟨"BUF_PORT_HEADROOM", 0x1C10004, [(512, 0x40)], 0x0, .single,
    [⟨15, 0, .rw, .quiet, []⟩]⟩,
  ⟨"BUF_PORT_ALLOW", 0x1C10008, [(512, 0x40)], 0x0, .single,
    [⟨19, 0, .ro, .live, []⟩]⟩,
  ⟨"BUF_PORT_CUSE", 0x1C1000C, [(512, 0x40)], 0x0, .single,
    [⟨19, 0, .ro, .live, []⟩]⟩,
  ⟨"BUF_IN_DROP", 0x1C10010, [(512, 0x40)], 0x0, .single,
    [⟨31, 0, .rc, .live, []⟩]⟩,
  ⟨"BUF_HR_DROP", 0x1C10014, [(512, 0x40)], 0x0, .single,
    [⟨31, 0, .rc, .live, []⟩]⟩,
  ⟨"BUF_FLUSH", 0x1C10018, [(512, 0x40)], 0x0, .single,
    [⟨31, 0, .rc, .live, []⟩]⟩,
  ⟨"BUF_CT_ABORT", 0x1C1001C, [(512, 0x40)], 0x0, .single,
    [⟨31, 0, .rc, .live, []⟩]⟩,
  ⟨"BUF_WD_DROP", 0x1C10020, [(512, 0x40)], 0x0, .single,
    [⟨31, 0, .rc, .live, []⟩]⟩,
  ⟨"BUF_HINT_OVER", 0x1C10024, [(512, 0x40)], 0x0, .single,
    [⟨31, 0, .rc, .live, []⟩]⟩,
  ⟨"BUF_DEMOTE_DROP", 0x1C00040, [], 0x0, .single,
    [⟨31, 0, .rc, .live, []⟩]⟩,
  ⟨"BUF_SCAF_DROP", 0x1C00044, [], 0x0, .single,
    [⟨31, 0, .rc, .live, []⟩]⟩,
  ⟨"BUF_REPL_DROP", 0x1C00048, [], 0x0, .single,
    [⟨31, 0, .rc, .live, []⟩]⟩,
  ⟨"BUF_MIRROR_SKIP", 0x1C0004C, [], 0x0, .single,
    [⟨31, 0, .rc, .live, []⟩]⟩]

/-- Registers of 07_buffer_core (R241). -/
def regsBufferCore2 : List RegDef := [
  ⟨"BUF_CELL_CE", 0x1C00050, [], 0x0, .single,
    [⟨31, 0, .rc, .live, []⟩]⟩,
  ⟨"BUF_CELL_UE", 0x1C00054, [], 0x0, .single,
    [⟨31, 0, .rc, .live, []⟩]⟩]

/-- Registers of 08_quotes_scheduling (R268). -/
def regsQuotesScheduling : List RegDef := [
  ⟨"SCHED_CAL", 0x1E10000, [(512, 0x100)], 0xC000064, .single,
    [⟨27, 24, .rw, .quiet, []⟩, ⟨9, 0, .rw, .quiet, []⟩]⟩,
  ⟨"SCHED_PORT_CTL", 0x1E10004, [(512, 0x100)], 0x80, .single,
    [⟨7, 7, .ro, .live, []⟩, ⟨6, 0, .rw, .quiet, []⟩]⟩,
  ⟨"SCHED_CAL_PEAK", 0x1E10008, [(512, 0x100)], 0x0, .single,
    [⟨31, 16, .ro, .live, []⟩, ⟨15, 0, .ro, .live, []⟩]⟩,
  ⟨"SCHED_SHAPE_RATE", 0x1E10010, [(512, 0x100), (7, 0x4)], 0x0, .single,
    [⟨31, 31, .rw, .live, []⟩, ⟨30, 30, .rw, .live, []⟩, ⟨20, 0, .rw, .live, []⟩]⟩,
  ⟨"SCHED_SHAPE_BURST", 0x1E10030, [(512, 0x100), (7, 0x4)], 0x0, .single,
    [⟨23, 0, .rw, .live, []⟩]⟩,
  ⟨"SCHED_WEIGHT_LO", 0x1E10050, [(512, 0x100)], 0x1010101, .single,
    [⟨31, 24, .rw, .live, []⟩, ⟨23, 16, .rw, .live, []⟩, ⟨15, 8, .rw, .live, []⟩, ⟨7, 0, .rw, .live, []⟩]⟩,
  ⟨"SCHED_WEIGHT_HI", 0x1E10054, [(512, 0x100)], 0x101, .single,
    [⟨15, 8, .rw, .live, []⟩, ⟨7, 0, .rw, .live, []⟩]⟩,
  ⟨"SCHED_GATE_CTL", 0x1E10060, [(512, 0x100)], 0x10, .single,
    [⟨31, 31, .rw, .live, []⟩, ⟨30, 30, .wo, .live, []⟩, ⟨29, 29, .ro, .live, []⟩, ⟨28, 26, .rw, .live, []⟩, ⟨15, 0, .rw, .live, []⟩]⟩,
  ⟨"SCHED_GATE_BASE_LO", 0x1E10064, [(512, 0x100)], 0x0, .lo,
    [⟨31, 0, .rw, .live, []⟩]⟩,
  ⟨"SCHED_GATE_BASE_HI", 0x1E10068, [(512, 0x100)], 0x0, .hi,
    [⟨31, 0, .rw, .live, []⟩]⟩,
  ⟨"SCHED_GATE_CYCLE", 0x1E1006C, [(512, 0x100)], 0xF4240, .single,
    [⟨31, 0, .rw, .live, []⟩]⟩,
  ⟨"SCHED_GATE_LEN", 0x1E10070, [(512, 0x100)], 0x1, .single,
    [⟨8, 0, .rw, .live, []⟩]⟩,
  ⟨"SCHED_GATE_IDX", 0x1E10074, [(512, 0x100)], 0x0, .single,
    [⟨7, 0, .rw, .live, []⟩]⟩,
  ⟨"SCHED_GATE_DATA", 0x1E10078, [(512, 0x100)], 0xFF0F4240, .single,
    [⟨31, 24, .rw, .live, []⟩, ⟨23, 0, .rw, .live, []⟩]⟩,
  ⟨"SCHED_Q_EXPIRED", 0x1E10080, [(512, 0x100)], 0x0, .single,
    [⟨31, 0, .rc, .live, []⟩]⟩,
  ⟨"SCHED_C7_REMAP", 0x1E10084, [(512, 0x100)], 0x0, .single,
    [⟨31, 0, .rc, .live, []⟩]⟩,
  ⟨"SCHED_Q_MISROUTE", 0x1E10088, [(512, 0x100)], 0x0, .single,
    [⟨31, 0, .rc, .live, []⟩]⟩,
  ⟨"SCHED_Q_OVERLEN", 0x1E1008C, [(512, 0x100)], 0x0, .single,
    [⟨31, 0, .rc, .live, []⟩]⟩,
  ⟨"SCHED_GATE_OVERRUN", 0x1E10090, [(512, 0x100)], 0x0, .single,
    [⟨31, 0, .rc, .live, []⟩]⟩,
  ⟨"SCHED_QUOTE_ACTIVE", 0x1E00000, [], 0x0, .single,
    [⟨20, 0, .ro, .live, []⟩]⟩,
  ⟨"SCHED_FIT_STATUS", 0x1E00004, [], 0x0, .single,
    [⟨15, 8, .ro, .live, []⟩, ⟨0, 0, .ro, .live, []⟩]⟩,
  ⟨"SCHED_EXPIRED", 0x1E00008, [], 0x0, .single,
    [⟨31, 0, .rc, .live, []⟩]⟩]

/-- Registers of 09_spread_float (R286). -/
def regsSpreadFloat : List RegDef := [
  ⟨"SPREAD_GRP_CTL", 0x2A01000, [(256, 0x200)], 0x8000, .single,
    [⟨31, 31, .rw, .live, []⟩, ⟨30, 30, .rw, .quiet, []⟩, ⟨29, 22, .rw, .quiet, []⟩, ⟨21, 15, .rw, .quiet, []⟩]⟩,
  ⟨"SPREAD_GRP_EXCL", 0x2A01004, [(256, 0x200)], 0x3E80010, .single,
    [⟨31, 16, .rw, .live, []⟩, ⟨15, 0, .rw, .live, []⟩]⟩,
  ⟨"SPREAD_GRP_LIVE_LO", 0x2A01008, [(256, 0x200)], 0x0, .single,
    [⟨31, 0, .ro, .live, []⟩]⟩,
  ⟨"SPREAD_GRP_LIVE_HI", 0x2A0100C, [(256, 0x200)], 0x0, .single,
    [⟨31, 0, .ro, .live, []⟩]⟩,
  ⟨"SPREAD_GRP_FORCE_LO", 0x2A01010, [(256, 0x200)], 0x0, .single,
    [⟨31, 0, .rw, .live, []⟩]⟩,
  ⟨"SPREAD_GRP_FORCE_HI", 0x2A01014, [(256, 0x200)], 0x0, .single,
    [⟨31, 0, .rw, .live, []⟩]⟩,
  ⟨"SPREAD_GRP_MEMBER", 0x2A01100, [(256, 0x200), (64, 0x4)], 0x0, .single,
    [⟨9, 0, .rw, .quiet, []⟩]⟩,
  ⟨"SPREAD_PORT", 0x2A40000, [(512, 0x4)], 0x0, .single,
    [⟨31, 31, .rw, .quiet, []⟩, ⟨30, 30, .rw, .quiet, []⟩, ⟨28, 24, .rw, .quiet, []⟩, ⟨15, 0, .rw, .quiet, []⟩]⟩,
  ⟨"SPREAD_TWIN_PROF", 0x2A00100, [(16, 0x4)], 0x2003E8, .single,
    [⟨31, 27, .rw, .live, []⟩, ⟨26, 16, .rw, .live, []⟩, ⟨15, 0, .rw, .live, []⟩]⟩,
  ⟨"SPREAD_FLOAT_GAP", 0x2A00000, [], 0x32, .single,
    [⟨13, 0, .rw, .live, []⟩]⟩,
  ⟨"SPREAD_FLOAT_USE", 0x2A00004, [], 0x0, .single,
    [⟨17, 0, .ro, .live, []⟩]⟩,
  ⟨"SPREAD_STATUS", 0x2A00008, [], 0x0, .single,
    [⟨0, 0, .rw1c, .live, []⟩]⟩,
  ⟨"SPREAD_NO_MEMBER", 0x2A00040, [], 0x0, .single,
    [⟨31, 0, .rc, .live, []⟩]⟩,
  ⟨"SPREAD_RX_BADTAG", 0x2A00044, [], 0x0, .single,
    [⟨31, 0, .rc, .live, []⟩]⟩,
  ⟨"SPREAD_FLOAT_GAP_CNT", 0x2A00048, [], 0x0, .single,
    [⟨31, 0, .rc, .live, []⟩]⟩,
  ⟨"SPREAD_FLOAT_LATE", 0x2A0004C, [], 0x0, .single,
    [⟨31, 0, .rc, .live, []⟩]⟩,
  ⟨"SPREAD_FLOAT_FORCED", 0x2A00050, [], 0x0, .single,
    [⟨31, 0, .rc, .live, []⟩]⟩,
  ⟨"SPREAD_TWIN_DUP", 0x2A00054, [], 0x0, .single,
    [⟨31, 0, .rc, .live, []⟩]⟩,
  ⟨"SPREAD_TWIN_ROGUE", 0x2A00058, [], 0x0, .single,
    [⟨31, 0, .rc, .live, []⟩]⟩,
  ⟨"SPREAD_TWIN_RESET", 0x2A0005C, [], 0x0, .single,
    [⟨31, 0, .rc, .live, []⟩]⟩,
  ⟨"SPREAD_TWIN_BADCTX", 0x2A00060, [], 0x0, .single,
    [⟨31, 0, .rc, .live, []⟩]⟩]

/-- Registers of 10_lanes_ports (R313). -/
def regsLanesPorts1 : List RegDef := [
  ⟨"LANE_CTL", 0x2000000, [(512, 0x1000)], 0x8000000, .single,
    [⟨27, 27, .rw, .quiet, []⟩, ⟨23, 22, .rw, .quiet, []⟩, ⟨21, 20, .rw, .quiet, [3]⟩]⟩,
  ⟨"LANE_TX_TAP", 0x2000004, [(512, 0x1000)], 0x0, .single,
    [⟨20, 16, .rw, .live, []⟩, ⟨14, 8, .rw, .live, []⟩, ⟨4, 0, .rw, .live, []⟩]⟩,
  ⟨"LANE_STATUS", 0x2000008, [(512, 0x1000)], 0x0, .single,
    [⟨11, 8, .ro, .live, []⟩, ⟨7, 7, .ro, .live, []⟩, ⟨6, 6, .ro, .live, []⟩, ⟨5, 5, .ro, .live, []⟩, ⟨4, 4, .ro, .live, []⟩, ⟨3, 3, .ro, .live, []⟩, ⟨2, 2, .ro, .live, []⟩, ⟨1, 1, .rw1c, .live, []⟩, ⟨0, 0, .ro, .live, []⟩]⟩,
  ⟨"LANE_LOS_CFG", 0x200000C, [(512, 0x1000)], 0x64000A, .single,
    [⟨31, 16, .rw, .live, []⟩, ⟨15, 0, .rw, .live, []⟩]⟩,
  ⟨"LANE_LOS_CNT", 0x2000020, [(512, 0x1000)], 0x0, .single,
    [⟨31, 0, .rc, .live, []⟩]⟩,
  ⟨"LANE_LOL_CNT", 0x2000024, [(512, 0x1000)], 0x0, .single,
    [⟨31, 0, .rc, .live, []⟩]⟩,
  ⟨"LANE_RETRAIN", 0x2000028, [(512, 0x1000)], 0x0, .single,
    [⟨31, 0, .rc, .live, []⟩]⟩,
  ⟨"LANE_FAIL", 0x200002C, [(512, 0x1000)], 0x0, .single,
    [⟨31, 0, .rc, .live, []⟩]⟩,
  ⟨"PORT_CFG", 0x2400000, [(512, 0x1000)], 0x302005F2, .single,
    [⟨31, 31, .rw, .live, []⟩, ⟨30, 27, .rw, .quiet, [7, 8, 9, 10, 11, 12, 13, 14, 15]⟩, ⟨26, 25, .rw, .quiet, []⟩, ⟨24, 23, .rw, .quiet, [3]⟩, ⟨22, 22, .rw, .quiet, []⟩, ⟨21, 21, .rw, .quiet, []⟩, ⟨20, 20, .rw, .live, []⟩, ⟨13, 0, .rw, .quiet, []⟩]⟩,
  ⟨"PORT_PRIO", 0x2400004, [(512, 0x1000)], 0xFAC688, .single,
    [⟨26, 24, .rw, .live, []⟩, ⟨23, 0, .rw, .live, []⟩]⟩,
  ⟨"PORT_PFC", 0x2400008, [(512, 0x1000)], 0xFFFF0000, .single,
    [⟨31, 16, .rw, .live, []⟩, ⟨14, 8, .rw, .quiet, []⟩, ⟨6, 0, .rw, .quiet, []⟩]⟩,
  ⟨"PORT_SLEEP", 0x240000C, [(512, 0x1000)], 0xA32, .single,
    [⟨31, 31, .rw, .live, []⟩, ⟨30, 30, .rw, .live, []⟩, ⟨15, 8, .rw, .live, []⟩, ⟨7, 0, .rw, .live, []⟩]⟩,
  ⟨"PORT_STATUS", 0x2400010, [(512, 0x1000)], 0x0, .single,
    [⟨31, 31, .ro, .live, []⟩, ⟨30, 30, .ro, .live, []⟩, ⟨29, 29, .ro, .live, []⟩, ⟨28, 28, .ro, .live, []⟩, ⟨27, 27, .ro, .live, []⟩, ⟨26, 26, .ro, .live, []⟩, ⟨25, 25, .ro, .live, []⟩, ⟨24, 24, .rw1c, .live, []⟩, ⟨15, 8, .ro, .live, []⟩, ⟨7, 0, .ro, .live, []⟩]⟩,
  ⟨"PORT_MAC_LO", 0x2400018, [(512, 0x1000)], 0x0, .lo,
    [⟨31, 0, .rw, .live, []⟩]⟩,
  ⟨"PORT_MAC_HI", 0x240001C, [(512, 0x1000)], 0x0, .hi,
    [⟨15, 0, .rw, .live, []⟩]⟩,
  ⟨"PORT_RX_FRAMES_LO", 0x2400100, [(512, 0x1000)], 0x0, .lo,
    [⟨31, 0, .ro, .live, []⟩]⟩,
  ⟨"PORT_RX_FRAMES_HI", 0x2400104, [(512, 0x1000)], 0x0, .hi,
    [⟨31, 0, .ro, .live, []⟩]⟩,
  ⟨"PORT_RX_BYTES_LO", 0x2400108, [(512, 0x1000)], 0x0, .lo,
    [⟨31, 0, .ro, .live, []⟩]⟩,
  ⟨"PORT_RX_BYTES_HI", 0x240010C, [(512, 0x1000)], 0x0, .hi,
    [⟨31, 0, .ro, .live, []⟩]⟩,
  ⟨"PORT_TX_FRAMES_LO", 0x2400110, [(512, 0x1000)], 0x0, .lo,
    [⟨31, 0, .ro, .live, []⟩]⟩,
  ⟨"PORT_TX_FRAMES_HI", 0x2400114, [(512, 0x1000)], 0x0, .hi,
    [⟨31, 0, .ro, .live, []⟩]⟩,
  ⟨"PORT_TX_BYTES_LO", 0x2400118, [(512, 0x1000)], 0x0, .lo,
    [⟨31, 0, .ro, .live, []⟩]⟩,
  ⟨"PORT_TX_BYTES_HI", 0x240011C, [(512, 0x1000)], 0x0, .hi,
    [⟨31, 0, .ro, .live, []⟩]⟩,
  ⟨"PORT_FEC_CORR_LO", 0x2400120, [(512, 0x1000)], 0x0, .lo,
    [⟨31, 0, .ro, .live, []⟩]⟩]

/-- Registers of 10_lanes_ports (R313). -/
def regsLanesPorts2 : List RegDef := [
  ⟨"PORT_FEC_CORR_HI", 0x2400124, [(512, 0x1000)], 0x0, .hi,
    [⟨31, 0, .ro, .live, []⟩]⟩,
  ⟨"PORT_FEC_UNCORR", 0x2400128, [(512, 0x1000)], 0x0, .single,
    [⟨31, 0, .rc, .live, []⟩]⟩,
  ⟨"PORT_RX_FCS_ERR", 0x240012C, [(512, 0x1000)], 0x0, .single,
    [⟨31, 0, .rc, .live, []⟩]⟩,
  ⟨"PORT_RX_OVERSIZE", 0x2400130, [(512, 0x1000)], 0x0, .single,
    [⟨31, 0, .rc, .live, []⟩]⟩,
  ⟨"PORT_RX_RUNT", 0x2400134, [(512, 0x1000)], 0x0, .single,
    [⟨31, 0, .rc, .live, []⟩]⟩,
  ⟨"PORT_RX_FRAG_ERR", 0x2400138, [(512, 0x1000)], 0x0, .single,
    [⟨31, 0, .rc, .live, []⟩]⟩,
  ⟨"PORT_TX_OVERSIZE", 0x240013C, [(512, 0x1000)], 0x0, .single,
    [⟨31, 0, .rc, .live, []⟩]⟩,
  ⟨"PORT_PFC_RX", 0x2400140, [(512, 0x1000)], 0x0, .single,
    [⟨31, 0, .rc, .live, []⟩]⟩,
  ⟨"PORT_PFC_TX", 0x2400144, [(512, 0x1000)], 0x0, .single,
    [⟨31, 0, .rc, .live, []⟩]⟩,
  ⟨"PORT_PAUSE_IGNORED", 0x2400148, [(512, 0x1000)], 0x0, .single,
    [⟨31, 0, .rc, .live, []⟩]⟩,
  ⟨"PORT_SLEEP_RX", 0x240014C, [(512, 0x1000)], 0x0, .single,
    [⟨31, 0, .rc, .live, []⟩]⟩,
  ⟨"PORT_SLEEP_TX", 0x2400150, [(512, 0x1000)], 0x0, .single,
    [⟨31, 0, .rc, .live, []⟩]⟩,
  ⟨"PORT_SLEEP_BAD", 0x2400154, [(512, 0x1000)], 0x0, .single,
    [⟨31, 0, .rc, .live, []⟩]⟩,
  ⟨"PORT_DOWN_CNT", 0x2400158, [(512, 0x1000)], 0x0, .single,
    [⟨31, 0, .rc, .live, []⟩]⟩]

/-- Registers of 11_lath_spans (R335). -/
def regsLathSpans : List RegDef := [
  ⟨"LATH_CTL", 0x2800000, [(32, 0x4000)], 0x0, .single,
    [⟨31, 31, .rw, .live, []⟩, ⟨30, 29, .rw, .quiet, []⟩, ⟨28, 28, .rw, .live, []⟩, ⟨27, 27, .rw1c, .live, []⟩, ⟨8, 0, .rw, .quiet, []⟩]⟩,
  ⟨"LATH_STATUS", 0x2800004, [(32, 0x4000)], 0x0, .single,
    [⟨31, 31, .ro, .live, []⟩, ⟨30, 30, .ro, .live, []⟩, ⟨29, 29, .ro, .live, []⟩, ⟨28, 28, .ro, .live, []⟩, ⟨27, 27, .ro, .live, []⟩, ⟨26, 26, .ro, .live, []⟩, ⟨25, 25, .ro, .live, []⟩, ⟨23, 16, .ro, .live, []⟩, ⟨15, 8, .ro, .live, []⟩, ⟨7, 0, .ro, .live, []⟩]⟩,
  ⟨"LATH_DEF_CFG", 0x2800008, [(32, 0x4000)], 0xA011004, .single,
    [⟨31, 24, .rw, .live, []⟩, ⟨23, 16, .rw, .live, []⟩, ⟨15, 8, .rw, .live, []⟩, ⟨7, 0, .rw, .live, []⟩]⟩,
  ⟨"LATH_APS_CTL", 0x280000C, [(32, 0x4000)], 0x6000012C, .single,
    [⟨31, 31, .rw, .quiet, []⟩, ⟨30, 30, .rw, .quiet, []⟩, ⟨29, 29, .rw, .quiet, []⟩, ⟨28, 24, .rw, .quiet, []⟩, ⟨23, 20, .rw, .live, []⟩, ⟨15, 0, .rw, .live, []⟩]⟩,
  ⟨"LATH_APS_STATUS", 0x2800010, [(32, 0x4000)], 0x0, .single,
    [⟨31, 31, .ro, .live, []⟩, ⟨30, 27, .ro, .live, []⟩, ⟨26, 23, .ro, .live, []⟩]⟩,
  ⟨"LATH_TRACE_TX", 0x2800020, [(32, 0x4000), (4, 0x4)], 0x0, .single,
    [⟨31, 0, .rw, .live, []⟩]⟩,
  ⟨"LATH_TRACE_EXP", 0x2800030, [(32, 0x4000), (4, 0x4)], 0x0, .single,
    [⟨31, 0, .rw, .live, []⟩]⟩,
  ⟨"LATH_TRACE_RX", 0x2800040, [(32, 0x4000), (4, 0x4)], 0x0, .single,
    [⟨31, 0, .ro, .live, []⟩]⟩,
  ⟨"LATH_CHAN_CFG", 0x2800108, [(32, 0x4000), (63, 0x8)], 0x0, .single,
    [⟨31, 31, .rw, .live, []⟩, ⟨30, 16, .rw, .quiet, []⟩, ⟨15, 0, .rw, .quiet, []⟩]⟩,
  ⟨"LATH_CHAN_D", 0x280010C, [(32, 0x4000), (63, 0x8)], 0x0, .single,
    [⟨15, 0, .ro, .live, []⟩]⟩,
  ⟨"LATH_MAP", 0x2800400, [(32, 0x4000), (40, 0x4)], 0x0, .single,
    [⟨5, 0, .rw, .live, []⟩, ⟨13, 8, .rw, .live, []⟩, ⟨21, 16, .rw, .live, []⟩, ⟨29, 24, .rw, .live, []⟩]⟩,
  ⟨"LATH_RX_FRAMES", 0x2800800, [(32, 0x4000)], 0x0, .single,
    [⟨31, 0, .rc, .live, []⟩]⟩,
  ⟨"LATH_TX_FRAMES", 0x2800804, [(32, 0x4000)], 0x0, .single,
    [⟨31, 0, .rc, .live, []⟩]⟩,
  ⟨"LATH_RX_FCS_ERR", 0x2800808, [(32, 0x4000)], 0x0, .single,
    [⟨31, 0, .rc, .live, []⟩]⟩,
  ⟨"LATH_HDR_ERR", 0x280080C, [(32, 0x4000)], 0x0, .single,
    [⟨31, 0, .rc, .live, []⟩]⟩,
  ⟨"LATH_BIP_ERR", 0x2800810, [(32, 0x4000)], 0x0, .single,
    [⟨31, 0, .rc, .live, []⟩]⟩,
  ⟨"LATH_FEC_UNCORR", 0x2800814, [(32, 0x4000)], 0x0, .single,
    [⟨31, 0, .rc, .live, []⟩]⟩,
  ⟨"LATH_STUFF_INC", 0x2800818, [(32, 0x4000)], 0x0, .single,
    [⟨31, 0, .rc, .live, []⟩]⟩,
  ⟨"LATH_STUFF_DEC", 0x280081C, [(32, 0x4000)], 0x0, .single,
    [⟨31, 0, .rc, .live, []⟩]⟩,
  ⟨"LATH_C7_REMAP", 0x2800820, [(32, 0x4000)], 0x0, .single,
    [⟨31, 0, .rc, .live, []⟩]⟩,
  ⟨"LATH_CHAN_DEMOTE", 0x2800824, [(32, 0x4000)], 0x0, .single,
    [⟨31, 0, .rc, .live, []⟩]⟩,
  ⟨"LATH_CHAN_EXP", 0x2800828, [(32, 0x4000)], 0x0, .single,
    [⟨31, 0, .rc, .live, []⟩]⟩,
  ⟨"LATH_APS_SWITCH", 0x280082C, [(32, 0x4000)], 0x0, .single,
    [⟨31, 0, .rc, .live, []⟩]⟩,
  ⟨"LATH_APS_LOST", 0x2800830, [(32, 0x4000)], 0x0, .single,
    [⟨31, 0, .rc, .live, []⟩]⟩]

/-- Registers of 12_plumb_time (R366). -/
def regsPlumbTime1 : List RegDef := [
  ⟨"PLUMB_CTL", 0x500000, [], 0x0, .single,
    [⟨31, 31, .rw, .boot, []⟩, ⟨30, 30, .rw, .live, []⟩]⟩,
  ⟨"PLUMB_STATUS", 0x500004, [], 0x0, .single,
    [⟨2, 2, .rw1c, .live, []⟩, ⟨1, 1, .rw1c, .live, []⟩, ⟨0, 0, .ro, .live, []⟩]⟩,
  ⟨"PLUMB_TRANSIT_LO", 0x500008, [], 0x0, .lo,
    [⟨31, 0, .ro, .live, []⟩]⟩,
  ⟨"PLUMB_TRANSIT_HI", 0x50000C, [], 0x0, .hi,
    [⟨31, 0, .ro, .live, []⟩]⟩,
  ⟨"PLUMB_AON_INC", 0x500010, [], 0x0, .single,
    [⟨31, 0, .ro, .live, []⟩]⟩,
  ⟨"PLUMB_ALARM_LO", 0x500018, [], 0x0, .lo,
    [⟨31, 0, .rw, .live, []⟩]⟩,
  ⟨"PLUMB_ALARM_HI", 0x50001C, [], 0x0, .hi,
    [⟨31, 0, .rw, .live, []⟩]⟩,
  ⟨"PLUMB_PPS", 0x500020, [], 0x64, .single,
    [⟨31, 31, .rw, .live, []⟩, ⟨30, 28, .rw, .live, []⟩, ⟨15, 0, .rw, .live, []⟩]⟩,
  ⟨"PLUMB_PPS_CAP_LO", 0x500028, [], 0x0, .lo,
    [⟨31, 0, .ro, .live, []⟩]⟩,
  ⟨"PLUMB_PPS_CAP_HI", 0x50002C, [], 0x0, .hi,
    [⟨31, 0, .ro, .live, []⟩]⟩,
  ⟨"PLUMB_SERVO_CTL", 0x500030, [], 0x0, .single,
    [⟨31, 31, .rw, .live, []⟩, ⟨30, 30, .rw, .quiet, []⟩, ⟨29, 27, .rw, .quiet, []⟩, ⟨26, 17, .rw, .quiet, []⟩, ⟨7, 0, .rw, .quiet, []⟩]⟩,
  ⟨"PLUMB_SERVO_GAIN", 0x500034, [], 0xB4000C, .single,
    [⟨31, 16, .rw, .live, []⟩, ⟨15, 0, .rw, .live, []⟩]⟩,
  ⟨"PLUMB_SERVO_LIM", 0x500038, [], 0x3E86408, .single,
    [⟨31, 16, .rw, .live, []⟩, ⟨15, 8, .rw, .live, []⟩, ⟨7, 0, .rw, .live, []⟩]⟩,
  ⟨"PLUMB_SERVO_STATUS", 0x50003C, [], 0x0, .single,
    [⟨31, 30, .ro, .live, []⟩, ⟨29, 0, .ro, .live, []⟩]⟩,
  ⟨"PLUMB_TSI_SKIP", 0x500080, [], 0x0, .single,
    [⟨31, 0, .rc, .live, []⟩]⟩,
  ⟨"PLUMB_TB_CMD", 0x500100, [(8, 0x40)], 0x0, .single,
    [⟨1, 0, .wo, .live, []⟩]⟩,
  ⟨"PLUMB_TB_STATUS", 0x500104, [(8, 0x40)], 0x0, .single,
    [⟨3, 3, .ro, .live, []⟩, ⟨2, 2, .ro, .live, []⟩, ⟨1, 1, .ro, .live, []⟩, ⟨0, 0, .rw1c, .live, []⟩]⟩,
  ⟨"PLUMB_TB_ADJ", 0x500108, [(8, 0x40)], 0x0, .single,
    [⟨31, 0, .rw, .live, []⟩]⟩,
  ⟨"PLUMB_TB_SLEW", 0x50010C, [(8, 0x40)], 0x186A0, .single,
    [⟨19, 0, .rw, .live, []⟩]⟩,
  ⟨"PLUMB_TB_SEC_LO", 0x500110, [(8, 0x40)], 0x0, .lo,
    [⟨31, 0, .ro, .live, []⟩]⟩,
  ⟨"PLUMB_TB_SEC_HI", 0x500114, [(8, 0x40)], 0x0, .hi,
    [⟨15, 0, .ro, .live, []⟩]⟩,
  ⟨"PLUMB_TB_NS", 0x500118, [(8, 0x40)], 0x0, .single,
    [⟨29, 0, .ro, .live, []⟩]⟩,
  ⟨"PLUMB_TB_FRAC", 0x50011C, [(8, 0x40)], 0x0, .single,
    [⟨31, 0, .ro, .live, []⟩]⟩,
  ⟨"PLUMB_TB_SET_SEC_LO", 0x500120, [(8, 0x40)], 0x0, .lo,
    [⟨31, 0, .rw, .live, []⟩]⟩]

/-- Registers of 12_plumb_time (R366). -/
def regsPlumbTime2 : List RegDef := [
  ⟨"PLUMB_TB_SET_SEC_HI", 0x500124, [(8, 0x40)], 0x0, .hi,
    [⟨15, 0, .rw, .live, []⟩]⟩,
  ⟨"PLUMB_TB_SET_NS", 0x500128, [(8, 0x40)], 0x0, .single,
    [⟨29, 0, .rw, .live, []⟩]⟩,
  ⟨"PLUMB_TB_DELTA_LO", 0x50012C, [(8, 0x40)], 0x0, .lo,
    [⟨31, 0, .rw, .live, []⟩]⟩,
  ⟨"PLUMB_TB_DELTA_HI", 0x500130, [(8, 0x40)], 0x0, .hi,
    [⟨31, 0, .rw, .live, []⟩]⟩,
  ⟨"PLUMB_TB_OFS_LO", 0x500134, [(8, 0x40)], 0x0, .lo,
    [⟨31, 0, .rw, .live, []⟩]⟩,
  ⟨"PLUMB_TB_OFS_HI", 0x500138, [(8, 0x40)], 0x0, .hi,
    [⟨31, 0, .rw, .live, []⟩]⟩,
  ⟨"PLUMB_TIO_CTL", 0x500400, [(16, 0x20)], 0x0, .single,
    [⟨31, 16, .rc, .live, []⟩, ⟨15, 11, .ro, .live, []⟩, ⟨10, 10, .rw1c, .live, []⟩, ⟨9, 9, .ro, .live, []⟩, ⟨8, 8, .rw, .quiet, []⟩, ⟨7, 7, .rw, .quiet, []⟩, ⟨6, 4, .rw, .quiet, []⟩, ⟨3, 0, .rw, .live, [8, 9, 10, 11, 12, 13, 14, 15]⟩]⟩,
  ⟨"PLUMB_TIO_START_LO", 0x500404, [(16, 0x20)], 0x0, .lo,
    [⟨31, 0, .rw, .quiet, []⟩]⟩,
  ⟨"PLUMB_TIO_START_HI", 0x500408, [(16, 0x20)], 0x0, .hi,
    [⟨31, 0, .rw, .quiet, []⟩]⟩,
  ⟨"PLUMB_TIO_PERIOD", 0x50040C, [(16, 0x20)], 0xF4240, .single,
    [⟨31, 0, .rw, .quiet, []⟩]⟩,
  ⟨"PLUMB_TIO_PFRAC", 0x500410, [(16, 0x20)], 0x0, .single,
    [⟨15, 0, .rw, .quiet, []⟩]⟩,
  ⟨"PLUMB_TIO_WIDTH", 0x500414, [(16, 0x20)], 0x3E8, .single,
    [⟨31, 0, .rw, .quiet, []⟩]⟩,
  ⟨"PLUMB_TIO_CAP_LO", 0x500418, [(16, 0x20)], 0x0, .lo,
    [⟨31, 0, .ro, .live, []⟩]⟩,
  ⟨"PLUMB_TIO_CAP_HI", 0x50041C, [(16, 0x20)], 0x0, .hi,
    [⟨31, 0, .ro, .live, []⟩]⟩,
  ⟨"PLUMB_PORT_TS", 0x510000, [(512, 0x10)], 0x0, .single,
    [⟨2, 0, .rw, .live, []⟩]⟩,
  ⟨"PLUMB_PORT_ADJ", 0x510004, [(512, 0x10)], 0x0, .single,
    [⟨31, 16, .rw, .live, []⟩, ⟨15, 0, .rw, .live, []⟩]⟩,
  ⟨"PLUMB_PORT_ASYM", 0x510008, [(512, 0x10)], 0x0, .single,
    [⟨31, 0, .rw, .live, []⟩]⟩]

/-- Registers of 13_scaffold (R397). -/
def regsScaffold1 : List RegDef := [
  ⟨"MC_ROM_ID", 0x2C00000, [], 0xC001, .single,
    [⟨31, 0, .ro, .live, []⟩]⟩,
  ⟨"MC_PATCH_VER", 0x2C00004, [], 0x0, .single,
    [⟨31, 16, .ro, .boot, []⟩, ⟨15, 8, .ro, .boot, []⟩]⟩,
  ⟨"SCAF_CODE_CTL", 0x2C00010, [], 0x0, .single,
    [⟨31, 31, .wo, .live, []⟩, ⟨30, 30, .ro, .live, []⟩, ⟨29, 29, .ro, .live, []⟩, ⟨28, 28, .rw1c, .live, []⟩]⟩,
  ⟨"SCAF_CODE_LEN0", 0x2C00014, [], 0x0, .single,
    [⟨18, 0, .rw, .quiet, []⟩]⟩,
  ⟨"SCAF_CODE_LEN1", 0x2C00018, [], 0x0, .single,
    [⟨18, 0, .rw, .quiet, []⟩]⟩,
  ⟨"SCAF_CODE_IDX", 0x2C0001C, [], 0x0, .single,
    [⟨17, 0, .rw, .live, []⟩]⟩,
  ⟨"SCAF_CODE_DATA_LO", 0x2C00020, [], 0x0, .lo,
    [⟨31, 0, .wo, .live, []⟩]⟩,
  ⟨"SCAF_CODE_DATA_HI", 0x2C00024, [], 0x0, .hi,
    [⟨31, 0, .wo, .live, []⟩]⟩,
  ⟨"SCAF_BUDGET", 0x2C00030, [], 0x27100064, .single,
    [⟨31, 16, .rw, .live, []⟩, ⟨15, 0, .rw, .live, []⟩]⟩,
  ⟨"SCAF_PULL_AGE", 0x2C00034, [], 0xA, .single,
    [⟨15, 0, .rw, .live, []⟩]⟩,
  ⟨"SCAF_PUSH_PAGES", 0x2C00038, [], 0x40, .single,
    [⟨8, 0, .rw, .quiet, []⟩]⟩,
  ⟨"SCAF_SIGNAL", 0x2C0003C, [], 0x0, .single,
    [⟨15, 0, .wo, .live, []⟩]⟩,
  ⟨"SCAF_TASKS", 0x2C00040, [], 0x0, .single,
    [⟨9, 0, .ro, .live, []⟩]⟩,
  ⟨"SCAF_WORK", 0x2C00044, [], 0x0, .single,
    [⟨15, 0, .ro, .live, []⟩]⟩,
  ⟨"SCAF_TICK", 0x2C00080, [(16, 0x4)], 0x3E8, .single,
    [⟨31, 31, .rw, .live, []⟩, ⟨27, 24, .rw, .quiet, []⟩, ⟨23, 0, .rw, .quiet, []⟩]⟩,
  ⟨"MC_MATCH", 0x2C00100, [(32, 0x4)], 0x0, .single,
    [⟨31, 31, .ro, .boot, []⟩, ⟨24, 11, .ro, .boot, []⟩, ⟨10, 0, .ro, .boot, []⟩]⟩,
  ⟨"SCAF_NO_ENTRY", 0x2C00200, [], 0x0, .single,
    [⟨31, 0, .rc, .live, []⟩]⟩,
  ⟨"SCAF_QUEUE_DROP", 0x2C00204, [], 0x0, .single,
    [⟨31, 0, .rc, .live, []⟩]⟩,
  ⟨"SCAF_SHED_DROP", 0x2C00208, [], 0x0, .single,
    [⟨31, 0, .rc, .live, []⟩]⟩,
  ⟨"SCAF_TICK_OVER", 0x2C0020C, [], 0x0, .single,
    [⟨31, 0, .rc, .live, []⟩]⟩,
  ⟨"SCAF_EMIT_BAD", 0x2C00210, [], 0x0, .single,
    [⟨31, 0, .rc, .live, []⟩]⟩,
  ⟨"SCAF_ABORT", 0x2C00214, [], 0x0, .single,
    [⟨31, 0, .rc, .live, []⟩]⟩,
  ⟨"SCAF_ENG_STATUS", 0x2C10000, [(32, 0x1000)], 0x0, .single,
    [⟨2, 2, .ro, .live, []⟩, ⟨1, 1, .rw1c, .live, []⟩, ⟨0, 0, .ro, .live, []⟩]⟩,
  ⟨"SCAF_ENG_INSTR", 0x2C10004, [(32, 0x1000)], 0x0, .single,
    [⟨31, 0, .rc, .live, []⟩]⟩]

/-- Registers of 13_scaffold (R397). -/
def regsScaffold2 : List RegDef := [
  ⟨"SCAF_ENG_EXC", 0x2C10008, [(32, 0x1000)], 0x0, .single,
    [⟨31, 0, .rc, .live, []⟩]⟩,
  ⟨"SCAF_ENG_FAULTS", 0x2C1000C, [(32, 0x1000)], 0x0, .single,
    [⟨31, 0, .rc, .live, []⟩]⟩,
  ⟨"SCAF_THR_STATE", 0x2C10100, [(32, 0x1000), (8, 0x40)], 0x0, .single,
    [⟨31, 29, .ro, .live, []⟩, ⟨28, 28, .ro, .live, []⟩, ⟨27, 24, .ro, .live, []⟩, ⟨23, 23, .ro, .live, []⟩, ⟨8, 0, .ro, .live, []⟩]⟩,
  ⟨"SCAF_THR_PC", 0x2C10104, [(32, 0x1000), (8, 0x40)], 0x0, .single,
    [⟨17, 0, .ro, .live, []⟩]⟩,
  ⟨"SCAF_THR_UPC", 0x2C10108, [(32, 0x1000), (8, 0x40)], 0x0, .single,
    [⟨14, 0, .ro, .live, []⟩]⟩,
  ⟨"SCAF_THR_EXC", 0x2C1010C, [(32, 0x1000), (8, 0x40)], 0x0, .single,
    [⟨31, 31, .rw1c, .live, []⟩, ⟨23, 16, .ro, .live, []⟩, ⟨8, 0, .ro, .live, []⟩]⟩,
  ⟨"SCAF_THR_EPC", 0x2C10110, [(32, 0x1000), (8, 0x40)], 0x0, .single,
    [⟨17, 0, .ro, .live, []⟩]⟩,
  ⟨"SCAF_THR_EADDR_LO", 0x2C10114, [(32, 0x1000), (8, 0x40)], 0x0, .lo,
    [⟨31, 0, .ro, .live, []⟩]⟩,
  ⟨"SCAF_THR_EADDR_HI", 0x2C10118, [(32, 0x1000), (8, 0x40)], 0x0, .hi,
    [⟨31, 0, .ro, .live, []⟩]⟩]

/-- Registers of 14_seats (R428). -/
def regsSeats : List RegDef := [
  ⟨"SEAT_OWNER", 0x200000, [], 0x0, .single,
    [⟨1, 0, .rw, .live, [3]⟩]⟩,
  ⟨"SEAT_ISLAND", 0x200004, [], 0x821E03E8, .single,
    [⟨31, 31, .rw, .live, []⟩, ⟨30, 24, .rw, .live, []⟩, ⟨23, 16, .rw, .live, []⟩, ⟨15, 0, .rw, .live, []⟩]⟩,
  ⟨"SEAT_ISLAND_STATUS", 0x200008, [], 0x0, .single,
    [⟨1, 1, .ro, .live, []⟩, ⟨0, 0, .ro, .live, []⟩]⟩,
  ⟨"SEAT_PART", 0x200040, [(16, 0x4)], 0x0, .single,
    [⟨7, 4, .rw, .live, []⟩, ⟨1, 0, .rw, .live, []⟩]⟩,
  ⟨"SEAT_PORT_PART", 0x200100, [(64, 0x4)], 0x0, .single,
    [⟨3, 0, .rw, .quiet, []⟩, ⟨7, 4, .rw, .quiet, []⟩, ⟨11, 8, .rw, .quiet, []⟩, ⟨15, 12, .rw, .quiet, []⟩, ⟨19, 16, .rw, .quiet, []⟩, ⟨23, 20, .rw, .quiet, []⟩, ⟨27, 24, .rw, .quiet, []⟩, ⟨31, 28, .rw, .quiet, []⟩]⟩,
  ⟨"SEAT_CTL", 0x201000, [(2, 0x1000)], 0x0, .single,
    [⟨31, 31, .rw, .live, []⟩, ⟨14, 12, .rw, .live, []⟩, ⟨11, 9, .rw, .live, []⟩, ⟨8, 6, .rw, .live, []⟩, ⟨5, 3, .rw, .live, []⟩]⟩,
  ⟨"SEAT_STATUS", 0x201004, [(2, 0x1000)], 0x0, .single,
    [⟨31, 31, .ro, .live, []⟩, ⟨30, 29, .ro, .live, []⟩, ⟨2, 2, .ro, .live, []⟩, ⟨1, 1, .rw1c, .live, []⟩, ⟨0, 0, .rw1c, .live, []⟩]⟩,
  ⟨"SEAT_KEEPALIVE", 0x201008, [(2, 0x1000)], 0x0, .single,
    [⟨31, 0, .wo, .live, []⟩]⟩,
  ⟨"SEAT_CLAIM", 0x20100C, [(2, 0x1000)], 0x0, .single,
    [⟨0, 0, .wo, .live, []⟩]⟩,
  ⟨"SEAT_NR_LOST", 0x201010, [(2, 0x1000)], 0x0, .single,
    [⟨31, 0, .rc, .live, []⟩]⟩,
  ⟨"SEAT_CR_BASE_LO", 0x201100, [(2, 0x1000), (8, 0x20)], 0x0, .lo,
    [⟨31, 0, .rw, .quiet, []⟩]⟩,
  ⟨"SEAT_CR_BASE_HI", 0x201104, [(2, 0x1000), (8, 0x20)], 0x0, .hi,
    [⟨31, 0, .rw, .quiet, []⟩]⟩,
  ⟨"SEAT_CR_CTL", 0x201108, [(2, 0x1000), (8, 0x20)], 0x40000, .single,
    [⟨31, 31, .rw, .live, []⟩, ⟨20, 16, .rw, .quiet, []⟩, ⟨2, 0, .rw, .quiet, []⟩]⟩,
  ⟨"SEAT_CR_HEAD", 0x20110C, [(2, 0x1000), (8, 0x20)], 0x0, .single,
    [⟨15, 0, .ro, .live, []⟩]⟩,
  ⟨"SEAT_CR_TAIL", 0x201110, [(2, 0x1000), (8, 0x20)], 0x0, .single,
    [⟨15, 0, .ro, .live, []⟩]⟩,
  ⟨"SEAT_NR_BASE_LO", 0x201200, [(2, 0x1000), (8, 0x20)], 0x0, .lo,
    [⟨31, 0, .rw, .quiet, []⟩]⟩,
  ⟨"SEAT_NR_BASE_HI", 0x201204, [(2, 0x1000), (8, 0x20)], 0x0, .hi,
    [⟨31, 0, .rw, .quiet, []⟩]⟩,
  ⟨"SEAT_NR_CTL", 0x201208, [(2, 0x1000), (8, 0x20)], 0x40000, .single,
    [⟨31, 31, .rw, .live, []⟩, ⟨20, 16, .rw, .quiet, []⟩, ⟨13, 8, .rw, .quiet, []⟩, ⟨1, 0, .rw, .quiet, []⟩]⟩,
  ⟨"SEAT_NR_TAIL", 0x20120C, [(2, 0x1000), (8, 0x20)], 0x0, .single,
    [⟨15, 0, .ro, .live, []⟩]⟩,
  ⟨"SEAT_NR_HEAD", 0x201210, [(2, 0x1000), (8, 0x20)], 0x0, .single,
    [⟨15, 0, .ro, .live, []⟩]⟩,
  ⟨"SEAT_NR_FRAME_BASE_LO", 0x201214, [(2, 0x1000), (8, 0x20)], 0x0, .lo,
    [⟨31, 0, .rw, .quiet, []⟩]⟩,
  ⟨"SEAT_NR_FRAME_BASE_HI", 0x201218, [(2, 0x1000), (8, 0x20)], 0x0, .hi,
    [⟨31, 0, .rw, .quiet, []⟩]⟩,
  ⟨"SEAT_NR_COALESCE", 0x20121C, [(2, 0x1000), (8, 0x20)], 0x10000, .single,
    [⟨31, 16, .rw, .live, []⟩, ⟨15, 0, .rw, .live, []⟩]⟩]

/-- Registers of 15_events_faults (R458). -/
def regsEventsFaults1 : List RegDef := [
  ⟨"HAWK_CTL", 0x100000, [], 0x64, .single,
    [⟨15, 0, .rw, .live, []⟩]⟩,
  ⟨"HAWK_STATUS", 0x100004, [], 0x0, .single,
    [⟨0, 0, .rw1c, .live, []⟩]⟩,
  ⟨"HAWK_SEQ_LO", 0x100008, [], 0x0, .lo,
    [⟨31, 0, .ro, .live, []⟩]⟩,
  ⟨"HAWK_SEQ_HI", 0x10000C, [], 0x0, .hi,
    [⟨15, 0, .ro, .live, []⟩]⟩,
  ⟨"HAWK_RAISE_ARG_LO", 0x100010, [], 0x0, .lo,
    [⟨31, 0, .rw, .live, []⟩]⟩,
  ⟨"HAWK_RAISE_ARG_HI", 0x100014, [], 0x0, .hi,
    [⟨31, 0, .rw, .live, []⟩]⟩,
  ⟨"HAWK_RAISE", 0x100018, [], 0x0, .single,
    [⟨20, 16, .wo, .live, []⟩, ⟨15, 0, .wo, .live, []⟩]⟩,
  ⟨"HAWK_QUIET", 0x100020, [], 0x0, .single,
    [⟨31, 31, .rw1c, .live, []⟩, ⟨30, 29, .ro, .live, []⟩, ⟨25, 0, .ro, .live, []⟩]⟩,
  ⟨"HAWK_QUIET_VAL", 0x100024, [], 0x0, .single,
    [⟨31, 0, .ro, .live, []⟩]⟩,
  ⟨"HAWK_LOG_CTL", 0x100030, [], 0x0, .single,
    [⟨31, 31, .wo, .live, []⟩, ⟨23, 16, .ro, .live, []⟩, ⟨8, 0, .ro, .live, []⟩]⟩,
  ⟨"HAWK_LOG_OVF", 0x100034, [], 0x0, .single,
    [⟨31, 0, .rc, .live, []⟩]⟩,
  ⟨"HAWK_MERGED", 0x100038, [], 0x0, .single,
    [⟨31, 0, .rc, .live, []⟩]⟩,
  ⟨"HAWK_STICKY", 0x100100, [(17, 0x4)], 0x0, .single,
    [⟨31, 0, .rw1c, .live, []⟩]⟩,
  ⟨"HAWK_LOGMASK", 0x100180, [(17, 0x4)], 0x0, .single,
    [⟨31, 0, .rw, .live, []⟩]⟩,
  ⟨"HAWK_SMASK", 0x100200, [(2, 0x80), (17, 0x4)], 0x0, .single,
    [⟨31, 0, .rw, .live, []⟩]⟩,
  ⟨"HAWK_LOG_W", 0x101000, [(256, 0x20), (8, 0x4)], 0x0, .single,
    [⟨31, 0, .ro, .live, []⟩]⟩,
  ⟨"FAULT_CTL", 0x3200000, [], 0x3258000A, .single,
    [⟨31, 28, .rw, .live, []⟩, ⟨27, 16, .rw, .live, []⟩, ⟨15, 0, .rw, .live, []⟩]⟩,
  ⟨"FAULT_REPEAT", 0x3200004, [], 0x8, .single,
    [⟨7, 0, .rw, .live, []⟩]⟩,
  ⟨"FAULT_STATUS", 0x3200008, [], 0x0, .single,
    [⟨31, 31, .ro, .live, []⟩, ⟨23, 16, .ro, .live, []⟩, ⟨15, 0, .ro, .live, []⟩]⟩,
  ⟨"FAULT_RESET_CAUSE", 0x320000C, [], 0x0, .single,
    [⟨3, 0, .ro, .live, []⟩]⟩,
  ⟨"FAULT_STOP_SEQ_LO", 0x3200010, [], 0x0, .lo,
    [⟨31, 0, .ro, .live, []⟩]⟩,
  ⟨"FAULT_STOP_SEQ_HI", 0x3200014, [], 0x0, .hi,
    [⟨15, 0, .ro, .live, []⟩]⟩,
  ⟨"FAULT_DOM_IDX", 0x3200020, [], 0x0, .single,
    [⟨19, 16, .rw, .live, []⟩, ⟨8, 0, .rw, .live, []⟩]⟩,
  ⟨"FAULT_DOM_STATE", 0x3200024, [], 0x0, .single,
    [⟨31, 29, .ro, .live, []⟩, ⟨23, 16, .ro, .live, []⟩, ⟨15, 0, .ro, .live, []⟩]⟩]

/-- Registers of 15_events_faults (R458). -/
def regsEventsFaults2 : List RegDef := [
  ⟨"FAULT_RECOVERIES", 0x3200030, [], 0x0, .single,
    [⟨31, 0, .rc, .live, []⟩]⟩,
  ⟨"FAULT_ESCALATIONS", 0x3200034, [], 0x0, .single,
    [⟨31, 0, .rc, .live, []⟩]⟩,
  ⟨"FAULT_RECLAIMED", 0x3200038, [], 0x0, .single,
    [⟨31, 0, .rc, .live, []⟩]⟩]

/-- Registers of 16_power_startup (R496). -/
def regsPowerStartup1 : List RegDef := [
  ⟨"PWR_CTL", 0x400000, [], 0x3E80000, .single,
    [⟨31, 16, .rw, .live, []⟩, ⟨2, 0, .rw, .live, []⟩]⟩,
  ⟨"PWR_STATUS", 0x400004, [], 0x0, .single,
    [⟨31, 31, .ro, .live, []⟩, ⟨30, 30, .ro, .live, []⟩, ⟨29, 27, .ro, .live, []⟩, ⟨26, 24, .ro, .live, []⟩, ⟨23, 23, .rw1c, .live, []⟩]⟩,
  ⟨"PWR_REQ_L", 0x400008, [], 0x0, .single,
    [⟨15, 8, .ro, .live, []⟩, ⟨2, 0, .wo, .live, []⟩]⟩,
  ⟨"PWR_WAKE_EN", 0x400010, [], 0x1F, .single,
    [⟨4, 0, .rw, .live, []⟩]⟩,
  ⟨"PWR_WAKE_SRC", 0x400014, [], 0x0, .single,
    [⟨4, 0, .ro, .live, []⟩]⟩,
  ⟨"PWR_VCORE", 0x400020, [], 0x2BC0000, .single,
    [⟨31, 16, .rw, .live, []⟩, ⟨15, 0, .ro, .live, []⟩]⟩,
  ⟨"PWR_SHED_THR", 0x400024, [], 0x2479848C, .single,
    [⟨29, 0, .rw, .live, []⟩]⟩,
  ⟨"PWR_SHED_STATUS", 0x400028, [], 0x0, .single,
    [⟨31, 29, .ro, .live, []⟩, ⟨28, 26, .rc, .live, []⟩, ⟨15, 0, .ro, .live, []⟩]⟩,
  ⟨"PWR_LASTWORD", 0x400030, [], 0x88B5, .single,
    [⟨15, 0, .rw, .live, []⟩]⟩,
  ⟨"PWR_THERM", 0x400040, [], 0x640000, .single,
    [⟨23, 16, .rw, .live, []⟩, ⟨15, 0, .ro, .live, []⟩]⟩,
  ⟨"PWR_TRIM", 0x400044, [], 0xC0000064, .single,
    [⟨31, 31, .rw, .live, []⟩, ⟨30, 30, .rw, .live, []⟩, ⟨15, 0, .rw, .live, []⟩]⟩,
  ⟨"PWR_STRAP", 0x400050, [], 0x0, .single,
    [⟨8, 8, .ro, .boot, []⟩, ⟨7, 5, .ro, .boot, []⟩, ⟨4, 4, .ro, .boot, []⟩, ⟨1, 0, .ro, .boot, []⟩]⟩,
  ⟨"PWR_SWATCH", 0x400054, [], 0x0, .single,
    [⟨31, 31, .ro, .live, []⟩, ⟨30, 30, .rw1c, .live, []⟩, ⟨3, 2, .ro, .live, []⟩, ⟨1, 0, .ro, .live, []⟩]⟩,
  ⟨"PWR_PAD", 0x400058, [], 0x0, .single,
    [⟨0, 0, .ro, .live, []⟩]⟩,
  ⟨"PWR_AON", 0x40005C, [], 0x0, .single,
    [⟨31, 31, .rw1c, .live, []⟩, ⟨30, 30, .ro, .live, []⟩, ⟨7, 0, .ro, .live, []⟩]⟩,
  ⟨"PWR_GATE_PIPE_LO", 0x400060, [], 0x0, .single,
    [⟨31, 0, .ro, .live, []⟩]⟩,
  ⟨"PWR_GATE_PIPE_HI", 0x400064, [], 0x0, .single,
    [⟨31, 0, .ro, .live, []⟩]⟩,
  ⟨"PWR_GATE_TILE_LO", 0x400068, [], 0x0, .single,
    [⟨31, 0, .ro, .live, []⟩]⟩,
  ⟨"PWR_GATE_TILE_HI", 0x40006C, [], 0x0, .single,
    [⟨31, 0, .ro, .live, []⟩]⟩,
  ⟨"PWR_GATE_SCAF", 0x400070, [], 0x0, .single,
    [⟨31, 0, .ro, .live, []⟩]⟩,
  ⟨"PWR_SHED_DROP", 0x400100, [], 0x0, .single,
    [⟨31, 0, .rc, .live, []⟩]⟩,
  ⟨"DARBY_FLASH_ADDR", 0x600100, [], 0x0, .single,
    [⟨27, 0, .rw, .live, []⟩]⟩,
  ⟨"DARBY_FLASH_CMD", 0x600104, [], 0x0, .single,
    [⟨31, 31, .ro, .live, []⟩, ⟨30, 28, .ro, .live, []⟩, ⟨1, 0, .wo, .live, []⟩]⟩,
  ⟨"DARBY_FLASH_BUF", 0x600200, [(64, 0x4)], 0x0, .single,
    [⟨31, 0, .rw, .live, []⟩]⟩]

/-- Registers of 16_power_startup (R496). -/
def regsPowerStartup2 : List RegDef := [
  ⟨"DARBY_FW_VER", 0x600000, [], 0x2040000, .single,
    [⟨31, 0, .ro, .live, []⟩]⟩]

/-- Registers of 17_counters_telemetry (R516, R517). -/
def regsCountersTelemetry1 : List RegDef := [
  ⟨"PERF_SEL", 0x3001000, [(256, 0x20)], 0x0, .single,
    [⟨31, 31, .rw, .live, []⟩, ⟨30, 30, .rw, .quiet, []⟩, ⟨29, 29, .rw, .live, []⟩, ⟨28, 28, .rw, .live, []⟩, ⟨11, 0, .rw, .quiet, []⟩]⟩,
  ⟨"PERF_FILT", 0x3001004, [(256, 0x20)], 0xFFE00400, .single,
    [⟨31, 24, .rw, .quiet, []⟩, ⟨23, 21, .rw, .quiet, []⟩, ⟨20, 20, .rw, .quiet, []⟩, ⟨19, 16, .rw, .quiet, [12, 13, 14, 15]⟩, ⟨15, 11, .rw, .quiet, []⟩, ⟨10, 10, .rw, .quiet, []⟩]⟩,
  ⟨"PERF_RANGE_LO", 0x3001008, [(256, 0x20)], 0x0, .single,
    [⟨31, 0, .rw, .quiet, []⟩]⟩,
  ⟨"PERF_RANGE_HI", 0x300100C, [(256, 0x20)], 0xFFFFFFFF, .single,
    [⟨31, 0, .rw, .quiet, []⟩]⟩,
  ⟨"PERF_PART", 0x3001010, [(256, 0x20)], 0x1FFFF, .single,
    [⟨16, 16, .rw, .quiet, []⟩, ⟨15, 0, .rw, .quiet, []⟩]⟩,
  ⟨"PERF_CNT_LO", 0x3001014, [(256, 0x20)], 0x0, .lo,
    [⟨31, 0, .rw, .live, []⟩]⟩,
  ⟨"PERF_CNT_HI", 0x3001018, [(256, 0x20)], 0x0, .hi,
    [⟨15, 0, .rw, .live, []⟩]⟩,
  ⟨"PERF_CTL", 0x3000000, [], 0x0, .single,
    [⟨31, 31, .rw, .live, []⟩, ⟨30, 30, .wo, .live, []⟩]⟩,
  ⟨"PERF_SNAP_TIME_LO", 0x3000008, [], 0x0, .lo,
    [⟨31, 0, .ro, .live, []⟩]⟩,
  ⟨"PERF_SNAP_TIME_HI", 0x300000C, [], 0x0, .hi,
    [⟨31, 0, .ro, .live, []⟩]⟩,
  ⟨"PERF_SNAP_PEND", 0x3000010, [], 0x0, .single,
    [⟨2, 0, .ro, .live, []⟩]⟩,
  ⟨"PERF_SNAP_SKIP", 0x3000014, [], 0x0, .single,
    [⟨31, 0, .rc, .live, []⟩]⟩,
  ⟨"PERF_OVF", 0x3000020, [(8, 0x4)], 0x0, .single,
    [⟨31, 0, .rw1c, .live, []⟩]⟩,
  ⟨"PERF_SNAP_LO", 0x3008000, [(256, 0x8)], 0x0, .lo,
    [⟨31, 0, .ro, .live, []⟩]⟩,
  ⟨"PERF_SNAP_HI", 0x3008004, [(256, 0x8)], 0x0, .hi,
    [⟨15, 0, .ro, .live, []⟩]⟩,
  ⟨"TELEM_CTL", 0x3100000, [], 0x80005DC, .single,
    [⟨31, 31, .rw, .live, []⟩, ⟨30, 30, .rw, .quiet, []⟩, ⟨29, 29, .rw, .quiet, []⟩, ⟨28, 26, .rw, .quiet, []⟩, ⟨25, 16, .rw, .quiet, []⟩, ⟨13, 0, .rw, .quiet, []⟩]⟩,
  ⟨"TELEM_PEN", 0x3100004, [], 0x0, .single,
    [⟨31, 0, .rw, .quiet, []⟩]⟩,
  ⟨"TELEM_ODID", 0x3100008, [], 0x0, .single,
    [⟨31, 0, .rw, .quiet, []⟩]⟩,
  ⟨"TELEM_UDP", 0x310000C, [], 0x12831283, .single,
    [⟨31, 16, .rw, .quiet, []⟩, ⟨15, 0, .rw, .quiet, []⟩]⟩,
  ⟨"TELEM_DMAC_LO", 0x3100010, [], 0x0, .lo,
    [⟨31, 0, .rw, .quiet, []⟩]⟩,
  ⟨"TELEM_DMAC_HI", 0x3100014, [], 0x0, .hi,
    [⟨15, 0, .rw, .quiet, []⟩]⟩,
  ⟨"TELEM_VLAN", 0x3100018, [], 0x0, .single,
    [⟨15, 0, .rw, .quiet, []⟩]⟩,
  ⟨"TELEM_SIP", 0x3100020, [(4, 0x4)], 0x0, .single,
    [⟨31, 0, .rw, .quiet, []⟩]⟩,
  ⟨"TELEM_DIP", 0x3100030, [(4, 0x4)], 0x0, .single,
    [⟨31, 0, .rw, .quiet, []⟩]⟩]

/-- Registers of 17_counters_telemetry (R516, R517). -/
def regsCountersTelemetry2 : List RegDef := [
  ⟨"TELEM_TIMING", 0x3100040, [], 0x3C03E8, .single,
    [⟨31, 16, .rw, .live, []⟩, ⟨15, 0, .rw, .live, []⟩]⟩,
  ⟨"TELEM_EPOCH_LO", 0x3100048, [], 0x83AA7E80, .lo,
    [⟨31, 0, .rw, .live, []⟩]⟩,
  ⟨"TELEM_EPOCH_HI", 0x310004C, [], 0x0, .hi,
    [⟨31, 0, .rw, .live, []⟩]⟩,
  ⟨"TELEM_FSPACE_CTL", 0x3100100, [(16, 0x10)], 0x3E8, .single,
    [⟨31, 31, .rw, .live, []⟩, ⟨23, 0, .rw, .live, []⟩]⟩,
  ⟨"TELEM_FSPACE_MASK_LO", 0x3100104, [(16, 0x10)], 0x0, .single,
    [⟨31, 0, .rw, .live, []⟩]⟩,
  ⟨"TELEM_FSPACE_MASK_HI", 0x3100108, [(16, 0x10)], 0x0, .single,
    [⟨15, 0, .rw, .live, []⟩]⟩,
  ⟨"TELEM_QUOTE", 0x3100200, [], 0x3E8, .single,
    [⟨31, 31, .rw, .live, []⟩, ⟨23, 0, .rw, .live, []⟩]⟩,
  ⟨"TELEM_COUNTER", 0x3100204, [], 0x3E8, .single,
    [⟨31, 31, .rw, .live, []⟩, ⟨23, 0, .rw, .live, []⟩]⟩,
  ⟨"TELEM_SAMPLE", 0x3100208, [], 0x8003E8, .single,
    [⟨31, 31, .rw, .live, []⟩, ⟨24, 16, .rw, .live, []⟩, ⟨15, 0, .rw, .live, []⟩]⟩,
  ⟨"TELEM_STATUS", 0x3100300, [], 0x0, .single,
    [⟨0, 0, .rw1c, .live, []⟩]⟩,
  ⟨"TELEM_RECORDS_LO", 0x3100400, [], 0x0, .lo,
    [⟨31, 0, .ro, .live, []⟩]⟩,
  ⟨"TELEM_RECORDS_HI", 0x3100404, [], 0x0, .hi,
    [⟨31, 0, .ro, .live, []⟩]⟩,
  ⟨"TELEM_MSGS", 0x3100408, [], 0x0, .single,
    [⟨31, 0, .rc, .live, []⟩]⟩,
  ⟨"TELEM_DROP_MSG", 0x310040C, [], 0x0, .single,
    [⟨31, 0, .rc, .live, []⟩]⟩,
  ⟨"TELEM_DROP_REC", 0x3100410, [], 0x0, .single,
    [⟨31, 0, .rc, .live, []⟩]⟩,
  ⟨"TELEM_SAMPLE_SKIP", 0x3100414, [], 0x0, .single,
    [⟨31, 0, .rc, .live, []⟩]⟩,
  ⟨"TELEM_WALK_LATE", 0x3100418, [], 0x0, .single,
    [⟨31, 0, .rc, .live, []⟩]⟩]

/-- Registers of 18_register_index (R521, R522). -/
def regsRegisterIndex : List RegDef := [
  ⟨"DEV_IDENT", 0x0, [], 0x47517102, .single,
    [⟨31, 0, .ro, .live, []⟩]⟩,
  ⟨"DEV_STEPPING", 0x4, [], 0xC0, .single,
    [⟨7, 0, .ro, .live, []⟩]⟩,
  ⟨"DEV_SERIAL_LO", 0x8, [], 0x0, .lo,
    [⟨31, 0, .ro, .live, []⟩]⟩,
  ⟨"DEV_SERIAL_HI", 0xC, [], 0x0, .hi,
    [⟨31, 0, .ro, .live, []⟩]⟩,
  ⟨"DEV_WHOAMI", 0x10, [], 0x0, .single,
    [⟨1, 0, .ro, .live, []⟩]⟩,
  ⟨"DEV_SCRATCH", 0x14, [], 0x0, .single,
    [⟨31, 0, .rw, .live, []⟩]⟩,
  ⟨"IND_ADDR", 0x3F00000, [], 0x0, .single,
    [⟨25, 2, .rw, .live, []⟩]⟩,
  ⟨"IND_STRIDE", 0x3F00004, [], 0x0, .single,
    [⟨19, 2, .rw, .live, []⟩]⟩,
  ⟨"IND_COUNT", 0x3F00008, [], 0x1, .single,
    [⟨12, 0, .rw, .live, []⟩]⟩,
  ⟨"IND_DATA", 0x3F0000C, [], 0x0, .single,
    [⟨31, 0, .rw, .live, []⟩]⟩,
  ⟨"IND_STATUS", 0x3F00010, [], 0x0, .single,
    [⟨31, 31, .ro, .live, []⟩, ⟨30, 30, .rw1c, .live, []⟩, ⟨15, 0, .ro, .live, []⟩]⟩]

/-- The whole register index (R525). -/
def regTable : List RegDef :=
  regsLinePipeline ++
  regsParseClassify ++
  regsFlowState1 ++
  regsFlowState2 ++
  regsRenderStore ++
  regsBufferCore1 ++
  regsBufferCore2 ++
  regsQuotesScheduling ++
  regsSpreadFloat ++
  regsLanesPorts1 ++
  regsLanesPorts2 ++
  regsLathSpans ++
  regsPlumbTime1 ++
  regsPlumbTime2 ++
  regsScaffold1 ++
  regsScaffold2 ++
  regsSeats ++
  regsEventsFaults1 ++
  regsEventsFaults2 ++
  regsPowerStartup1 ++
  regsPowerStartup2 ++
  regsCountersTelemetry1 ++
  regsCountersTelemetry2 ++
  regsRegisterIndex

/-- The default map of the render store's eight regions, as loaded from the swatch (R194): VALID, KIND, ORDER, LOG2
and BASE_ROW of each. -/
def rstoreRegionReset : List Nat := [0x8B400000, 0x97002000, 0xA2803000, 0xB6803400, 0xCAC03800, 0xD7804000, 0x0, 0x0]

/-- Whether a distance from a set's base falls on an instance of the nested replicated sets (R518). -/
def onInstance : List (Nat × Nat) → Nat → Bool
  | [], x => x == 0
  | (n, st) :: rest, x => decide (x / st < n) && onInstance rest (x % st)

/-- The register at a BAR0 offset, if the offset names one (R518, R519). -/
def RegDef.covers (r : RegDef) (off : Nat) : Bool := decide (r.base ≤ off) && onInstance r.reps (off - r.base)

def findReg (t : List RegDef) (off : Nat) : Option RegDef := t.find? (·.covers off)

def regDef? (off : Nat) : Option RegDef := findReg regTable off

/-- The base classes and latency targets of the six render requestor ports at reset (R201): [31:30] and [19:0]. -/
def rstorePortReset : List Nat := [1000, 1 * 2 ^ 30 + 20000, 1 * 2 ^ 30 + 2000, 3 * 2 ^ 30 + 100000, 2 * 2 ^ 30 + 100000, 2 * 2 ^ 30 + 50000]

/-- The value a register holds at reset: the value its table gives, by R201 for RSTORE_PORT, and 0 for a register the
spec names no value for (R488) and for an offset that names no register. A seat's own copy of a register stands at
2^26 × (seat + 1) above its offset (R521, R522). -/
def regReset (off : Nat) : BitVec 32 :=
  if Off.rstoreRegion 0 ≤ off && off < Off.rstoreRegion 8 then
    BitVec.ofNat 32 (rstoreRegionReset.getD ((off - Off.rstoreRegion 0) / 4) 0)
  else if Off.rstorePort 0 ≤ off && off < Off.rstorePort 6 then
    BitVec.ofNat 32 (rstorePortReset.getD ((off - Off.rstorePort 0) / 4) 0)
  else
    match regDef? (off % 2 ^ 26) with
    | some r => BitVec.ofNat 32 r.reset
    | none => 0

end Sys2Proof.Machine
end

