-- ==== Sys2Proof/Machine/Regs.lean ====
section
/-! DEFINITION. The Dravea register files (R34 to R42) as plain data, and the writes an instruction makes. A line context and a scaffold task hold the same register files;
s0 to s15, sp, pc and pr exist in full form only. -/

namespace Sys2Proof.Machine

structure Regs where
  v : Vector Word 32
  m : Vector Word 16
  p : BitVec 8
  k : Vector (BitVec 128) 8
  key : List Byte
  s : Vector DWord 16
  sp : DWord
  pc : DWord
  pr : DWord
deriving DecidableEq, Repr

/-- All registers 0; p0 reads 1 through `Regs.pred` (R47). -/
def Regs.zero : Regs :=
  { v := Vector.replicate 32 0, m := Vector.replicate 16 0, p := 0, k := Vector.replicate 8 0,
    key := List.replicate 48 0, s := Vector.replicate 16 0, sp := 0, pc := 0, pr := 0 }

/-- Whether a specifier names an s register (R34). -/
def isS (spec : BitVec 6) : Bool := decide (48 ≤ spec.toNat)

/-- The register a specifier names, zero-extended to 64 bits (R34, R35). -/
def Regs.get (r : Regs) (spec : BitVec 6) : DWord :=
  let n := spec.toNat
  if n < 32 then (r.v[n]?.getD 0).zeroExtend 64
  else if n < 48 then (r.m[n - 32]?.getD 0).zeroExtend 64
  else r.s[n - 48]?.getD 0

/-- A register written: a 32-bit register takes the low 32 bits (R35). -/
def Regs.set (r : Regs) (spec : BitVec 6) (x : DWord) : Regs :=
  let n := spec.toNat
  if n < 32 then { r with v := r.v.setIfInBounds n (x.truncate 32) }
  else if n < 48 then { r with m := r.m.setIfInBounds (n - 32) (x.truncate 32) }
  else { r with s := r.s.setIfInBounds (n - 48) x }

/-- Metadata register n as a number. -/
def Regs.mN (r : Regs) (n : Nat) : Nat := (r.m[n]?.getD 0).toNat

def Regs.setM (r : Regs) (n v : Nat) : Regs := { r with m := r.m.setIfInBounds n (BitVec.ofNat 32 v) }

/-- Predicate i: p0 reads 1 (R34). -/
def Regs.pred (r : Regs) (i : BitVec 3) : Bool := i.toNat == 0 || r.p.getLsbD i.toNat

/-- A predicate written; writes to p0 are ignored (R34). -/
def Regs.setPred (r : Regs) (i : BitVec 3) (b : Bool) : Regs :=
  if i.toNat = 0 then r else { r with p := BitVec.ofNat 8 (setBits r.p.toNat i.toNat i.toNat (b2n b)) }

/-- An instruction executes when p[PI] differs from PS (R49). -/
def Regs.executes (r : Regs) (q : Pred) : Bool := r.pred q.pi != q.ps

/-- One write that an instruction's result makes when it becomes visible. -/
inductive Wr where
  | reg (spec : BitVec 6) (x : DWord)
  | pred (i : BitVec 3) (b : Bool)
  | kslot (i : BitVec 3) (x : BitVec 128)
  | key (off : Nat) (bytes : List Byte)
  | flowHit (handle : Nat) (rec : List Byte)
  | learnRefused
  | lkf (f : FmtL) (key : List Byte) (beyond : Bool)
deriving DecidableEq, Repr

/-- A write to the register files. A flow hit sets m4 (R59); a refused learn request writes 0x22 to m7[7:0] unless LOCK
is set (R54, R62). F itself is held by the context. A flow lookup on its way writes nothing: its results come from the flow
step (R43). -/
def Regs.apply (r : Regs) (w : Wr) : Regs :=
  match w with
  | .reg spec x => r.set spec x
  | .pred i b => r.setPred i b
  | .kslot i x => { r with k := r.k.setIfInBounds i.toNat x }
  | .key off bytes => { r with key := patchB r.key off bytes }
  | .flowHit h _ => r.setM 4 (h % 2 ^ 26 + 2 ^ 26)
  | .lkf _ _ _ => r
  | .learnRefused => if bit (r.mN 3) 29 then r else r.setM 7 (setBits (r.mN 7) 7 0 0x22)

end Sys2Proof.Machine
end

