-- ==== Sys2Proof/Machine/Operands.lean ====
section
/-! DEFINITION. The operands of Dravea instructions: which specifiers a form may name, the width of a computation, the second
source, key byte strings and bit fields (R34 to R36, R40, R42, R57, R76). -/

namespace Sys2Proof.Machine

/-- The full-form exceptions (R76) and BUDGET (R388). -/
inductive Exc where
  | illegal | register | align | address | stack | partition | target | budget
deriving DecidableEq, Repr

def Exc.code : Exc → Nat
  | .illegal => 1 | .register => 2 | .align => 3 | .address => 4 | .stack => 5 | .partition => 6 | .target => 7
  | .budget => 8

/-! ### The checks of a destination and a source (R34, R36, R76) -/

/-- A specifier that may be read in this form: s registers exist in full form only (R34). -/
def specOk (full : Bool) (spec : BitVec 6) : Bool := full || !isS spec

/-- A destination an ALU, extract or time instruction may name: not m0 to m6 (R36). -/
def destOk (spec : BitVec 6) : Bool := !(decide (32 ≤ spec.toNat) && decide (spec.toNat ≤ 38))

/-- The write of a result by an instruction that may name m0 to m6 although it is none of those that R36 lists as their writers: they
keep their values (DEDUCED, log, entry 34). -/
def resultTo (rd : BitVec 6) (v : DWord) : List Wr := if destOk rd then [.reg rd v] else []

/-- The width an instruction computes in: 64 for an s destination, else 32 (R35). -/
def widthOf (rd : BitVec 6) : Nat := if isS rd then 64 else 32

/-- `src` of format A and P: RB, or IMM when I = 1 (R57). -/
def srcOf (r : Regs) (i : Bool) (imm : BitVec 32) (rb : BitVec 6) : Nat :=
  if i then imm.toNat else (r.get rb).toNat

/-- A key byte string: `len` bytes of K from `off`; one that would run past byte 47 is no instruction (R42). -/
def keyString (r : Regs) (off len : Nat) : Option (List Byte) :=
  if off + len ≤ 48 then some (sliceB r.key off len) else none

/-- The LEN of CSUM in bytes: its 6-bit field cannot spell the largest length R57 gives, 64, and 0 spells it
(DEDUCED, assumption log, entry 10). -/
def csumLen (f : FmtH) : Nat := if f.len = 0 then 64 else f.len.toNat

/-- The `n` bits from bit offset `o`, bit offset 0 being bit 7 of byte 0; bits past the end read 0 (R40, R58). -/
def bitField (l : List Byte) (o n : Nat) : Nat :=
  (List.range n).foldl (fun acc i =>
    2 * acc + b2n ((l.getD ((o + i) / 8) 0).getLsbD (7 - (o + i) % 8))) 0

end Sys2Proof.Machine
end

