-- ==== Sys2Proof/Machine/Flags.lean ====
section
/-! DEFINITION. The predicates that instructions compute: CMP and TST (R57), and a lookup's hit (R59). -/

namespace Sys2Proof.Machine

/-- The tests of CMP on 32-bit operands (R57): a predicate is no s register, so CMP computes in 32 bits (R35). -/
def cmpTest (cond : BitVec 3) (a b : Nat) : Bool :=
  let a := a % 2 ^ 32
  let b := b % 2 ^ 32
  match cond.toNat with
  | 0 => a == b
  | 1 => a != b
  | 2 => decide (a < b)
  | 3 => decide (a ≤ b)
  | 4 => decide (b < a)
  | 5 => decide (b ≤ a)
  | 6 => decide (signed 32 a < signed 32 b)
  | _ => decide (signed 32 b ≤ signed 32 a)

def cmpEff (full : Bool) (r : Regs) (f : FmtP) : Except Exc (List Wr) :=
  if !specOk full f.ra || !(f.i || specOk full f.rb) then .error .illegal
  else .ok [.pred f.pd (cmpTest f.cond (r.get f.ra).toNat (srcOf r f.i f.imm f.rb))]

/-- TST: PD := (RA AND src) ≠ 0; its COND field must be 0 (R57). -/
def tstEff (full : Bool) (r : Regs) (f : FmtP) : Except Exc (List Wr) :=
  if f.cond ≠ 0 || !specOk full f.ra || !(f.i || specOk full f.rb) then .error .illegal
  else .ok [.pred f.pd (((r.get f.ra).toNat % 2 ^ 32 &&& srcOf r f.i f.imm f.rb % 2 ^ 32) != 0)]

/-- The slot and hit predicate a lookup writes. -/
def lookupWrs (f : FmtL) (r : BitVec 128) : List Wr :=
  .kslot f.kd r :: (if f.hp = 0 then [] else [.pred f.hp (r.getLsbD 127)])

end Sys2Proof.Machine
end

