-- ==== Sys2Proof/Machine/Alu.lean ====
section
/-! DEFINITION. The effects of the ALU, extract and insert instructions (R57, R58). -/

namespace Sys2Proof.Machine

/-! ### The ALU (R57) -/

/-- The two-operand results of R57 in width `w` on the operands' residues. The amount of SHR is src[5:0], as the entry of
SHL states for its own (DEDUCED, assumption log, entry 11). -/
inductive AluOp where
  | add | sub | and | or | xor | shl | shr | rot | min | max
deriving DecidableEq, Repr

def aluResult (op : AluOp) (w : Nat) (x : Bool) (a b : Nat) : Nat :=
  let a := a % 2 ^ w
  let b := b % 2 ^ w
  match op with
  | .add => (a + b) % 2 ^ w
  | .sub => (a + 2 ^ w - b) % 2 ^ w
  | .and => a &&& b
  | .or => a ||| b
  | .xor => a ^^^ b
  | .shl => if b % 64 < w then a * 2 ^ (b % 64) % 2 ^ w else 0
  | .shr =>
    let n := b % 64
    if !x then (if n < w then a / 2 ^ n else 0)
    else unsigned w (signed w a / (2 ^ (if n < w then n else w) : Nat))
  | .rot => (a / 2 ^ (b % w) + a * 2 ^ (w - b % w)) % 2 ^ w
  | .min => if x then (if signed w a ≤ signed w b then a else b) else Nat.min a b
  | .max => if x then (if signed w a ≤ signed w b then b else a) else Nat.max a b

/-- The effect of an ALU instruction of format A: its write, or the exception full form takes (R57, R76). -/
def aluEff (op : AluOp) (full : Bool) (r : Regs) (f : FmtA) : Except Exc (List Wr) :=
  if !specOk full f.rd || !specOk full f.ra || !(f.i || specOk full f.rb) then .error .illegal
  else if !destOk f.rd then .error .register
  else
    let w := widthOf f.rd
    .ok [.reg f.rd (BitVec.ofNat 64 (aluResult op w f.x (r.get f.ra).toNat (srcOf r f.i f.imm f.rb)))]

/-- MOV with X = 0 (R57). -/
def movEff (full : Bool) (r : Regs) (f : FmtA) : Except Exc (List Wr) :=
  if !specOk full f.rd || !specOk full f.ra then .error .illegal
  else if !destOk f.rd then .error .register
  else .ok [.reg f.rd (r.get f.ra)]

/-- MOVI (R57): X = 1 has an s destination only and keeps RD[31:0]. -/
def moviEff (full : Bool) (r : Regs) (f : FmtA) : Except Exc (List Wr) :=
  if !specOk full f.rd || (f.x && !isS f.rd) then .error .illegal
  else if !destOk f.rd then .error .register
  else if f.x then .ok [.reg f.rd (BitVec.ofNat 64 (f.imm.toNat * 2 ^ 32 + (r.get f.rd).toNat % 2 ^ 32))]
  else .ok [.reg f.rd (f.imm.zeroExtend 64)]

/-- SEL: RA if p[IMM[2:0]] = 1, else RB; I is 0 (R57). -/
def selEff (full : Bool) (r : Regs) (f : FmtA) : Except Exc (List Wr) :=
  if f.i || !specOk full f.rd || !specOk full f.ra || !specOk full f.rb then .error .illegal
  else if !destOk f.rd then .error .register
  else .ok [.reg f.rd (if r.pred (f.imm.truncate 3) then r.get f.ra else r.get f.rb)]

def popcEff (full : Bool) (r : Regs) (f : FmtA) : Except Exc (List Wr) :=
  if !specOk full f.rd || !(f.i || specOk full f.rb) then .error .illegal
  else if !destOk f.rd then .error .register
  else
    let x := srcOf r f.i f.imm f.rb % 2 ^ widthOf f.rd
    .ok [.reg f.rd (BitVec.ofNat 64 (((List.range 64).filter fun i => x.testBit i).length))]

/-- HASH (R57, R157, R271, R544): FN 0b00 H1, 0b01 H2 (both with IMM 0), 0b10 CRC-32C with IMM as preset, 0b11 the spread
hash. Of no bytes at all the CRC is defined, and the other three are open (DESIGN CHOICE, log, entry 52). -/
def hashEff (full : Bool) (r : Regs) (f : FmtH) : Except Exc (List Wr) :=
  if !specOk full f.rd then .error .illegal
  else if !destOk f.rd then .error .register
  else match keyString r f.off.toNat f.len.toNat with
    | none => .error .illegal
    | some l =>
      if decide (f.fn.toNat < 2) && f.imm ≠ 0 then .error .illegal
      else
        let x := if f.fn = 2 then crc32cWith f.imm.toNat l
          else if l.isEmpty then (Config.emptyHash f.fn.toNat).toNat
          else match f.fn.toNat with
            | 0 => h1 l
            | 1 => h2 l
            | _ => spreadHash l
        .ok [.reg f.rd (BitVec.ofNat 64 x)]

/-- CSUM over the window, FN 0b00 to 0b10 (R57). The sum needs an even length. -/
def csumEff (full : Bool) (w : List Byte) (f : FmtH) : Except Exc (List Wr) :=
  if !specOk full f.rd then .error .illegal
  else if !destOk f.rd then .error .register
  else
    let l := sliceB w f.off.toNat (csumLen f)
    if f.off.toNat + csumLen f > 64 then .error .illegal
    else match f.fn.toNat with
      | 0 => if csumLen f % 2 = 1 then .error .illegal else .ok [.reg f.rd (BitVec.ofNat 64 (onesSum l))]
      | 1 => .ok [.reg f.rd (BitVec.ofNat 64 (crc32With f.imm.toNat l))]
      | 2 => .ok [.reg f.rd (BitVec.ofNat 64 (crc32cWith f.imm.toNat l))]
      | _ => .error .illegal

/-! ### Extract and insert (R58) -/

/-- EXT (R58): an immediate range past bit 511 of W or 383 of K is no instruction; a register offset may run past. -/
def extEff (full : Bool) (r : Regs) (w : List Byte) (f : FmtX) : Except Exc (List Wr) :=
  let len := f.len1.toNat + 1
  let lim := if f.srcK then 384 else 512
  if !specOk full f.rd || !(!f.reg || specOk full f.ra) || decide (lim < f.bit.toNat + len) then .error .illegal
  else if !destOk f.rd then .error .register
  else
    let o := f.bit.toNat + (if f.reg then 8 * ((r.get f.ra).toNat % 64) else 0)
    .ok [.reg f.rd (BitVec.ofNat 64 (bitField (if f.srcK then r.key else w) o len))]

/-- EXTM (R58). -/
def extmEff (full : Bool) (r : Regs) (f : FmtXM) : Except Exc (List Wr) :=
  let len := f.len1.toNat + 1
  if !specOk full f.rd || decide (128 < f.bit.toNat + len) then .error .illegal
  else if !destOk f.rd then .error .register
  else .ok [.reg f.rd (BitVec.ofNat 64 ((r.k[f.ks.toNat]?.getD 0).toNat / 2 ^ f.bit.toNat % 2 ^ len))]

/-- INS (R58): the other bits of RD are kept. -/
def insEff (full : Bool) (r : Regs) (f : FmtXI) : Except Exc (List Wr) :=
  let len := f.len1.toNat + 1
  if !specOk full f.rd || !specOk full f.ra || decide (widthOf f.rd < f.pos.toNat + len) then .error .illegal
  else if !destOk f.rd then .error .register
  else
    .ok [.reg f.rd (BitVec.ofNat 64
      (setBits (r.get f.rd).toNat (f.pos.toNat + len - 1) f.pos.toNat ((r.get f.ra).toNat % 2 ^ len)))]

/-- KEYB (R58): window bytes, or the LEN least significant bytes of a register, the most significant of those first.
In full form a byte past W is 0 (DESIGN CHOICE, log, entry 77). -/
def keybEff (full : Bool) (r : Regs) (w : List Byte) (f : FmtKB) : Except Exc (List Wr) :=
  let len := f.len.toNat
  if len = 0 || decide (16 < len) || decide (48 < f.koff.toNat + len) then .error .illegal
  else if f.srcReg then
    if !specOk full f.woff || decide ((if isS f.woff then 8 else 4) < len) then .error .illegal
    else .ok [.key f.koff.toNat (bytesBE len (r.get f.woff).toNat)]
  else .ok [.key f.koff.toNat (sliceB w f.woff.toNat len)]

/-- The window base after ADV: it saturates at 16,383 (R58). -/
def advBase (r : Regs) (base : Nat) (f : FmtAV) : Nat :=
  min 16383 (base + f.bytes.toNat + (if f.reg then (r.get f.ra).toNat % 2 ^ 16 else 0))

end Sys2Proof.Machine
end

