-- ==== Sys2Proof/Machine/StHawk.lean ====
section
/-! DEFINITION. The state of the Hawk, the fault manager, the seats, the counters, the export engine and Plumb, as plain
data (R398 to R458, R497 to R517, R336 to R366). Registers that hold only what was written or counted are in the
register file and not here. -/

namespace Sys2Proof.Machine

/-- An event as the Hawk holds it (R432, R433). -/
structure Event where
  src : Nat
  code : Nat
  count : Nat
  dkind : Nat
  dinst : Nat
  arg0 : Nat
  arg1 : Nat
  transit : Nat
deriving DecidableEq, Repr

/-- The pending slot of one pair of source and code (R434). -/
structure PendSlot where
  src : Nat
  code : Nat
  waiting : Option Event
  last : Option Nat
deriving DecidableEq, Repr

/-- One entry of the event log (R440). -/
structure LogEntry where
  seq : Nat
  src : Nat
  code : Nat
  count : Nat
  dkind : Nat
  dinst : Nat
  time : Nat
  arg0 : Nat
deriving DecidableEq, Repr

/-- The Hawk (R429 to R444): the next SEQ, the pending slots, the event log (oldest entry first) and the entry that is
written next. -/
structure Hawk where
  seq : Nat
  slots : List PendSlot
  log : List LogEntry
  logNext : Nat
deriving DecidableEq, Repr

/-- The states of a containment domain (R446). -/
inductive DomState where
  | running | faulted | restarting | failed | stopped
deriving DecidableEq, Repr

/-- One containment domain (R445, R446): its state, the transit counts of its restarts, its faults since reset, when it
was declared FAULTED, the SEQ of that declaration, and whether its recovery waits for one of the 16 places (R447). -/
structure Domain where
  state : DomState
  restarts : List Nat
  faults : Nat
  declared : Nat
  faultSeq : Nat
  waits : Bool
deriving DecidableEq, Repr

/-- One lease (R448). -/
structure Lease where
  kind : Nat
  dkind : Nat
  dinst : Nat
  index : Nat
  amount : Nat
  since : Nat
deriving DecidableEq, Repr

/-- The fault manager (R445 to R457): the domains that are not as at reset, keyed by DKIND × 1024 + instance, the leases,
the contained faults that wait for a place (in Hawk order), the times of the safe stops, and whether a safe stop is
between its cause and its internal reset. -/
structure FaultMgr where
  doms : NMap Domain
  leases : List Lease
  waiting : List (Nat × Nat × Nat × List Nat)
  stops : List Nat
  stopping : Bool
deriving DecidableEq, Repr

/-- What the device keeps of one notice ring beside its registers (R409 to R411): the phase of the pass, whether the next
notice has LOST set, the entries reserved for COMPLETIONs, and the notices written since the last message with the
transit count of the first. -/
structure NoticeRing where
  phase : Bool
  lost : Bool
  reserved : Nat
  since : Nat
  first : Nat
deriving DecidableEq, Repr

/-- A command that a ring has handed over and that has not completed (R409, R417): its OP, TAG, FLAGS and ADDR, whether it
is done inside the device, and, of a BARRIER, the (ring, take number) pairs it waits for. -/
structure OutCmd where
  op : Nat
  tag : Nat
  flags : Nat
  addr : Nat
  status : Nat
  args : List Nat
  waits : List (Nat × Nat)
deriving DecidableEq, Repr

/-- What the device keeps of one command ring beside its registers: the commands taken and completed so far, the command
that is outstanding, whether its seat has been absent since it was taken, so that its COMPLETION is discarded (R401), and the pieces of a
COAT_STAGE image held for it (R414). -/
structure CmdRing where
  taken : Nat
  done : Nat
  out : Option OutCmd
  mute : Bool
  pieces : List Byte
deriving DecidableEq, Repr

/-- One of the seats A and B (R398 to R411): its presence and the parts of it, the time of its last keepalive, if any, and of the
moment it became absent, its rings, the host memory it gives the device, the MSI-X messages sent by vector, the values
held by R10 for pair writes (keyed by the offset of the LO half), and its read shadows (keyed by the offset they answer
for: R10, R341, R357, R441). -/
structure Seat where
  present : Bool
  link : Nat
  lastKeep : Option Nat
  absentSince : Nat
  cr : NMap CmdRing
  nr : NMap NoticeRing
  hostMem : Mem
  msix : NMap Nat
  heldLo : NMap Nat
  shadow : NMap Nat
deriving DecidableEq, Repr

/-- One occurrence of a countable event with the attributes it carries (R498, R500). -/
structure Occ where
  code : Nat
  amount : Nat
  cls : Option Nat
  priv : Option Nat
  master : Option (Nat × Nat)
  operand : Option Nat
  part : Option Nat
deriving DecidableEq, Repr

/-- A command snapshot that waits for its time (R504, R506): issuing seat and ring, buffer address and TB0 time. -/
structure SnapReq where
  seat : Nat
  ring : Nat
  addr : Nat
  time : Nat
deriving DecidableEq, Repr

/-- The counter unit (R497 to R506): the occurrences of the current tick, the values written and not yet taken, whether
counting is frozen and whether a freeze or a register snapshot is due at the next tick, when the last register snapshot
was taken, the counters whose EN is in force, and the command snapshots that wait. -/
structure Perf where
  occ : List Occ
  written : NMap Nat
  frozen : Bool
  freezeNext : Option Bool
  enNow : NMap Bool
  snapNext : Bool
  snapAt : Option Nat
  waiting : List SnapReq
deriving DecidableEq, Repr

/-- One open export message (R510): its records, and the transit count of its first. -/
structure OpenMsg where
  records : List (List Byte)
  first : Nat
deriving DecidableEq, Repr

/-- One export walk (R511): the handle from which it reads on, the mask it took at its start, and the keys it has exported, so
that a record relocated during the walk is not exported twice. -/
structure Walk where
  cursor : Nat
  mask : Nat
  seen : List (List Byte)
deriving DecidableEq, Repr

/-- The export engine (R508 to R514): the open message of each template, the running walk of each flow space, the millisecond
at which each kind last fell due (0 to 15 the walks, 16 quotes, 17 counters), the transit count of the last template set, and
the samples made in the current second. -/
structure Telem where
  open_ : NMap OpenMsg
  walks : NMap Walk
  last : NMap Nat
  templates : Nat
  sampleSec : Nat
  sampleCount : Nat
deriving DecidableEq, Repr

/-- One time base (R338, R340): its value, and what is left of a running slew in 2^−32 ns, signed. -/
structure TimeBase where
  sec : Nat
  ns : Nat
  frac : Nat
  slewLeft : Int
  slewing : Bool
deriving DecidableEq, Repr

/-- One TIO pin (R353 to R357): its captures (count, rising), the next scheduled edge in 2^−16 ns if any,
whether its one-shot has fired, whether it is at its active level, the transit count at which the active pulse ends, and the time at
which the last output edge was placed, in 2^−16 ns. -/
structure TioPin where
  fifo : List (Nat × Bool)
  next : Option Nat
  fired : Bool
  level : Bool
  offAt : Option Nat
  placed : Option Nat
deriving DecidableEq, Repr

/-- Plumb (R336 to R365): the transit count, the time bases, the pins, PPS, the servo and the oscillator measurement. -/
structure Plumb where
  transit : Nat
  tbs : NMap TimeBase
  tio : NMap TioPin
  ppsOff : Option Nat
  ppsSec : Nat
  ppsBase : Nat
  ppsSeen : Option Nat
  ppsLost : Bool
  integ : Int
  inLock : Nat
  lastOffsetAt : Nat
  offsetGap : Nat
  aon : List Nat
  alarmFired : Bool
  pdelaySeq : Nat
  pdelaySec : Nat
deriving DecidableEq, Repr

end Sys2Proof.Machine
end

