-- ==== Sys2Proof/Machine/StLine.lean ====
section
/-! DEFINITION. The state of coats, tables and pipelines, as plain data (R80 to R148). Step-word indices are
coat-relative, as in the image (R114); `addrs` holds where each word lies in its station's step store. -/

namespace Sys2Proof.Machine

/-- One version of a hash or ternary entry as a coat sees it (R133, R135, R138): FROM is the identifier of the coat it was
staged for, 0 once that coat's log is settled (R141). A coat's own list holds exactly the versions visible to it, so the
UNTIL of a version is the identifier of the next coat whose list does not hold it. -/
structure Entry where
  key : List Byte
  mask : List Byte
  prio : Nat
  from_ : Nat
  cell : BitVec 128
deriving DecidableEq, Repr

/-- One longest-prefix entry (R136): key bytes, prefix length in bits, cell. -/
structure Prefix where
  key : List Byte
  plen : Nat
  cell : BitVec 128
deriving DecidableEq, Repr

/-- A table definition: its 32 bytes (R130, R542). -/
structure TableDef where
  raw : List Byte
deriving DecidableEq, Repr

/-- The contents of one table as one coat sees it: the instance (the identifier of the coat whose staging made it), the cells
of a tag table by index with the coat identifier of the version of each written page (R139), the entries of a hash or
ternary table in row order, the prefixes of a longest-prefix table, and the bytes of trie nodes copied into its reserve by coat
identifier (R132 to R139). -/
structure Table where
  inst : Nat
  defn : TableDef
  tags : NMap (BitVec 128)
  pages : NMap Nat
  entries : List Entry
  prefixes : List Prefix
  copied : NMap Nat
deriving DecidableEq, Repr

/-- Everything a coat holds (R103 to R117): step words by station, entry tables, the port maps, tables, replication entries
(keyed group × 512 + index) and Coat-class register values, with where its words lie in the step stores (by station in STN
numbering), its egress slot, whether its definitions name a table number twice (R542), and when it became current. -/
structure Coat where
  id : Nat
  isteps : NMap (List (BitVec 512))
  esteps : NMap (List (BitVec 512))
  ien : NMap (BitVec 32)
  een : NMap (BitVec 32)
  pmapI : NMap Nat
  pmapE : NMap Nat
  tables : NMap Table
  repl : NMap (BitVec 16)
  cregs : NMap Nat
  addrs : NMap (List Nat)
  egSlot : Nat
  dupDefs : Bool
  commit : Nat
deriving DecidableEq, Repr

/-- What a seat has staged, in order (R106, R117): the sections of an image, a table or replication record, a Coat-class
register value, or the egress part of the base (FLAGS[1] of R114). A record keeps the number of trie nodes that Darby copied
for it. -/
inductive Staged where
  | isteps (station : Nat) (words : List (BitVec 512))
  | esteps (station : Nat) (words : List (BitVec 512))
  | ien (entries : List (BitVec 32))
  | een (entries : List (BitVec 32))
  | ports (entries : List (BitVec 32)) (ingressOnly : Bool)
  | egressBase
  | tableDefs (defs : List TableDef)
  | record (bytes : List Byte) (nodes : Nat)
  | replEntry (bytes : List Byte)
  | creg (off v : Nat)
deriving DecidableEq, Repr

/-- A COAT_COMMIT: its ring, its T and its STRICT flag (R107). -/
structure Verifying where
  seat : Nat
  ring : Nat
  time : Nat
  strict : Bool
deriving DecidableEq, Repr

/-- A coat that has been verified and waits (R107, R108, R111, R113): its content, its commit time, the COAT_COMMIT that
completes when it is current (none for a coat taken from a swatch), when its wait for an egress slot expires (R120: by the value
of COAT_EGEN_WAIT as the wait began), what was staged for it, and whether a Darby fault makes its command start again (R452). -/
structure PendingCoat where
  coat : Coat
  time : Nat
  cmd : Option Verifying
  waitEgDue : Option Nat
  items : List (Nat × Staged)
  again : Bool
deriving DecidableEq, Repr

/-- The coats (R103 to R113): the four slots (current or draining), the current slot, the content staged by each seat in
order, the pending coat, the commit under verification, the egress slots in use (egress part by slot, in order of first
use; the part of a voided slot stays under a number above 8 for the copies that were already in egress stations), the coats
whose logs are being or to be settled, in order, with their commit times (R141), the retired coats whose versions wait for that,
the live slots oldest first, the step-store addresses given to staged words, whether STAGE_LOG_FULL has been raised for the staging
coat (R140), the damaged table words (table, instance, word), and the two copies of the retained image of every live, pending and
staging coat by its identifier (R195). -/
structure Coats where
  slots : NMap Coat
  cur : Option Nat
  staged : List (Nat × Staged)
  pending : Option PendingCoat
  verifying : Option Verifying
  egress : NMap Coat
  egOrder : List Nat
  settling : List (Nat × Nat)
  old : List Coat
  order : List Nat
  stagedAddrs : NMap (List Nat)
  logFull : Bool
  damaged : List (Nat × Nat × DamagedWord)
  images : NMap (Coat × Coat)
deriving DecidableEq, Repr

/-- A frame's line context (R80, R81): the pipeline and station, whether an egress one, the coat slot (ingress) or egress
slot (egress), the slot of the coat whose tables its lookups read, of an egress context with that coat (R105), the step word (none after END), the register files as they
stand and as they stood at the pass's entry, the window, the window base of this pass and of the next, F, the results on
their way with the station from which each is visible, the station from which a parked or punted pass no longer
executes (R61), the slots of the present step word that have issued, the time bases and the gate states of the ports with a gate
list as they were when the context entered its station (R71), and the flow spaces that were enabled at its slot grant (R190). -/
structure Ctx where
  pipe : Nat
  egress : Bool
  slot : Nat
  tblSlot : Nat
  tblCoat : Option Coat
  station : Nat
  word : Option Nat
  regs : Regs
  entry : Regs
  w : List Byte
  base : Nat
  nextBase : Nat
  f : Option (List Byte)
  pend : List (Nat × Wr)
  stopAt : Option Nat
  issued : List Nat
  tbs : List TimeBase
  gates : NMap Nat
  spaces : Nat
deriving DecidableEq, Repr

/-- One ingress pipeline's queues (R94 to R97): new frames in the order their windows were completed, the priority queue,
the frames that hold a recirculation place and are not yet eligible, the counts of the arbiter's window, and the frames in the
stations in the order in which they entered (R80). -/
structure Pipe where
  entryQ : List Nat
  prioQ : List Nat
  places : List Nat
  winUsed : Nat
  winPrio : Nat
  prioCtx : Nat
  pfc : Nat
  line : List Nat
deriving DecidableEq, Repr

/-- The pipelines: their queues, and the step words under reload as (instance × 64 + station, step-store address)
(R85). -/
structure Pipes where
  q : NMap Pipe
  reload : List (Nat × Nat)
deriving DecidableEq, Repr

end Sys2Proof.Machine
end

