-- ==== Sys2Proof/Machine/StFrame.lean ====
section
/-! DEFINITION. The state of frames, descriptors, ports, the scheduler, quotes, spread groups and the float unit, as plain
data (R214 to R286, R287 to R311). -/

namespace Sys2Proof.Machine

/-- The effect of one staged or applied edit (R64 to R66, R347). A NATA keeps its format with its offsets from its own
place; a TWIN the number it took (R283); a fill is the value the egress MAC computed for a marked field, and whether the frame it was marked
in carries IPv4 (R347, R348). -/
inductive EditOp where
  | push (bytes : List Byte)
  | pop (len : Nat)
  | setf (bytes : List Byte)
  | nata (kind : Nat) (port : Bool) (l4 : Int) (aoff poff : Nat) (fixL4 : Bool)
  | tsi (mode tb : Nat) (csum : Option Int)
  | seam
  | twin (gen : Nat) (seq : Nat)
  | fill (mode : Nat) (value : Int) (csum : Option Nat) (v4 : Bool)
deriving DecidableEq, Repr

/-- An edit with its byte offset in the frame as received (R64). -/
structure Edit where
  off : Nat
  op : EditOp
deriving DecidableEq, Repr

/-- The pools of R218 with the account within the pool. -/
inductive Account where
  | contract (port : Nat)
  | shared (port cls : Nat)
  | headroom (port cls : Nat)
  | recirc
  | scaf
deriving DecidableEq, Repr

/-- Where a frame is before its copies (R94, R100, R235, R279): its bytes arrive, it waits for its slot, it is in a pass,
on the recirculation path, eligible in the priority queue, in the lodge, held by a float context, in the replicator, or past
all these (only its copies remain). -/
inductive Place where
  | rx | entry | pass | recirc | prio | lodge | float (ctx : Nat) | repl | out
deriving DecidableEq, Repr

/-- The seam tag an ingress MAC removed (R275, R278). -/
structure SeamTag where
  ord : Bool
  sync : Bool
  stream : Nat
  seq : Nat
deriving DecidableEq, Repr

/-- One frame in the buffer (R214 to R217), with what it carries from pass to pass (R47): the bytes received so far,
completeness and BAD (R215), the account its cells are charged to and the one they came from (R221), the transit count and
the timestamp of its receipt (R343), TB0 and the transit count at its slot grant (R93, R22), its metadata, window base and
requested entry point, the parks of the present pass (R75), the length bound and what it was at the pass's first entry (R128), the flow hit of
the pass and the records owed its byte count (R44), a fault that discards the frame as bad FCS, a punt decided inside the stations, the metadata at its park, the
tags the MAC removed with their offsets (R278, R284), whether it has an aside cell once that is decided (R216), of a FRAME_SEND
with TS its seat and ring and the transmit times so far (R421), the numbers of the cells that hold its bytes, in order, and of its
aside (R214, R215), the port to whose drain reserve `drain` of its cells are charged (R218), bytes 80 to 127 of F as they were
at the end of its last pass (R46), END_CHECK of its coat (R129), and the staged edits and the mirror with which it entered the present
pass (R61, R65). -/
structure Frame where
  port : Nat
  bytes : List Byte
  done : Bool
  bad : Bool
  preemptable : Bool
  arrClass : Nat
  acct : Account
  home : Account
  cells : Nat
  drain : Nat
  prov : Nat
  rxTransit : Nat
  rxTime : Nat
  arrTb0 : Nat
  arrTransit : Nat
  granted : Bool
  seam : Option SeamTag
  rtag : Option Nat
  m : Vector Word 16
  base : Nat
  entry : Nat
  parks : Nat
  lenBound : Option Nat
  bound0 : Option Nat
  edits : List Edit
  mirror : Option (Nat × Nat)
  hit : Option Nat
  owed : List Nat
  killed : Bool
  punt : Option Nat
  parkM : Option (Vector Word 16)
  pipe : Nat
  place : Place
  removed : List (Nat × List Byte)
  aside : Option Bool
  sender : Option (Nat × Nat)
  sent : List Nat
  chain : List Nat
  asideCell : Option Nat
  drainPort : Option Nat
  snap : List Byte
  endChk : Bool
  edits0 : List Edit
  mirror0 : Option (Nat × Nat)
deriving DecidableEq, Repr

/-- The stages of a descriptor (R242, R233): waiting in its VOQ; selected; in egress stations; at the MAC; preempted. -/
inductive Stage where
  | queued | selected | egress | mac | remainder
deriving DecidableEq, Repr

/-- One descriptor (R215): frame, pipeline of its VOQ, egress port, class, the accepted quote and its deadline, egress slot,
metadata and snapshot for egress entry (R46, R47), staged edits, egress edits in the order applied, the seam stream, number
and SYNC of a sprayed frame, the length a mirror copy is cut to, the mirror asked for in egress stations (R67), and the progress of its
sending with its transmit time (R346), whether R266 has held it (R500), and whether its gate closed while it was being sent (R266). -/
structure Copy where
  frame : Nat
  pipe : Nat
  port : Nat
  cls : Nat
  quote : Option Nat
  deadline : Nat
  egen : Nat
  m : Vector Word 16
  snap : List Byte
  edits : List Edit
  egEdits : List Edit
  spray : Option (Nat × Nat × Bool)
  chan : Option Nat
  cut : Option Nat
  mirror : Option (Nat × Nat)
  stage : Stage
  cutThrough : Bool
  hint : Nat
  presentAt : Option Nat
  txTime : Nat
  held : Bool
  pastClose : Bool
deriving DecidableEq, Repr

/-- The frames a replicator holds (R235): the frame, its group, the entries of its list read so far, the quote that accepted it, the
class each copy takes where that quote does not name its port (R258), and the pipeline of the copies' VOQs (R228, R280). -/
structure ReplItem where
  frame : Nat
  group : Nat
  next : Nat
  quote : Option Nat
  cls : Nat
  pipe : Nat
deriving DecidableEq, Repr

/-- A bring-up attempt or hold of a port (R293 to R295): idle, loading and adapting, training, held with a backoff. -/
inductive BringUp where
  | off | adapt | train | held | up | down
deriving DecidableEq, Repr

/-- One port beside its registers (R287 to R311): the copy being sent, the preempted remainder, whether its
flush runs (R236), per class the end of the partner's pause and the moments it began and ended (R238, R309), the classes
whose watchdog has tripped, the classes whose change a PFC frame has still to carry (R309), bring-up, the sleep protocol (R299 to R305) with the SLEEP copies sent (R302) and whether the last HELLO said that the transmit
direction may sleep (R313), verification (R310), the last
frame put on the wire and whether it ended with an error termination (R30, R233), PCS and FEC alignment, a received fault ordered set, and the last answer to a coefficient request
(R294: 0 none, 1 updated, 2 not supported, 3 at its limit). -/
structure Port where
  tx : Option Nat
  remainder : Option Nat
  flushing : Bool
  pauseEnd : NMap Nat
  pauseFrom : NMap Nat
  unpaused : NMap Nat
  wd : List Nat
  bring : BringUp
  since : Nat
  helloAt : Option Nat
  peer : Option (Nat × Nat × Nat)
  idleFrom : Nat
  txAsleep : Bool
  txWakeAt : Option Nat
  sleepCopies : Nat
  sleepTx : Bool
  sleepRefresh : Nat
  rxArmed : Option Nat
  rxAsleepAt : Option Nat
  verifySent : Nat
  verifyAt : Nat
  verified : Bool
  pfcSent : NMap Nat
  pfcDue : Nat
  wire : List Byte
  errorTerm : Bool
  aligned : Bool
  faultSet : Bool
  reply : Nat
deriving DecidableEq, Repr

/-- A gate list in force or pending (R264, R265): base time, cycle, entries (gate states, interval), time base, and the
change time. -/
structure GateList where
  base : Nat
  cycle : Nat
  entries : List (Nat × Nat)
  tb : Nat
  change : Nat
deriving DecidableEq, Repr

/-- One egress port's scheduler (R242 to R267): the admin entries, the oper and pending lists, the bucket of each class in
2^−16 byte with the SHAPE_RATE and BURST in force and the 125 ns of the last refill (R262), the virtual time, finish tags and candidate tags (R263), the pipeline each class served last (R244), and
the grants of the current slot by quote (frames, bytes) (R255), and the gate states applied last (R262, R264). -/
structure Sched where
  admin : NMap Nat
  oper : Option GateList
  pend : Option GateList
  tokens : NMap Int
  vtime : Nat
  ftag : NMap Nat
  cand : NMap Nat
  served : NMap Nat
  shape : NMap Nat
  burst : NMap Nat
  refilled : Nat
  slot : Nat
  grants : NMap (Nat × Nat)
  gateSt : Nat
deriving DecidableEq, Repr

/-- The placement of a quote on one port (R255, R256), with the port's rate and preemption state when it was fitted (R251). -/
structure Fit where
  port : Nat
  g : Nat
  o : Nat
  m : Nat
  f : Nat
  d : Nat
  grant : Nat
  rate : Nat
  pre : Bool
deriving DecidableEq, Repr

/-- What a quote's ending waits for (R249): the transit count at which D has passed, the reason, the port concerned or 0xFFFF,
and the rings whose QUOTE_RELEASE or FLOW_REMOVE completes then. -/
structure Release where
  due : Nat
  reason : Nat
  port : Nat
  rings : List (Nat × Nat)
deriving DecidableEq, Repr

/-- One quote (R246 to R261): the requester, the identity, the parameters, the placements, the bound,
whether it polices and from which transit count, the bucket in 10^−6 of 2^−16 byte and the microsecond it was last filled in, its
counts, the smallest slack and largest residence since admission and since the last export (R507), and the second of its last expiry notice. -/
structure Quote where
  seat : Nat
  ring : Nat
  space : Nat
  key : List Byte
  inPort : Nat
  portA : Nat
  portB : Option Nat
  b : Nat
  rate : Nat
  lmin : Nat
  lmax : Nat
  dreq : Nat
  demote : Nat
  fits : List Fit
  d : Nat
  claim : Nat
  active : Bool
  activeAt : Nat
  tokens : Nat
  filled : Nat
  release : Option Release
  accepted : Nat
  demoted : Nat
  discarded : Nat
  expired : Nat
  slack : Option Int
  residence : Nat
  xSlack : Option Int
  xResidence : Nat
  lastExpiry : Option Nat
deriving DecidableEq, Repr

/-- One context of the float unit in use as a seam stream (R279, R281): the expected number, the held frames by number,
when the gap timer expires, and the second of its last gap event. -/
structure FloatCtx where
  expect : Nat
  held : NMap Nat
  timer : Option Nat
  gapSec : Option Nat
deriving DecidableEq, Repr

/-- One twin context (R285): take-any, the number recovered last, the marked numbers, and when a frame was last
accepted, with its profile. -/
structure TwinCtx where
  takeAny : Bool
  recov : Nat
  hist : List Nat
  lastAt : Nat
  prof : Nat
  noticeSec : Option Nat
deriving DecidableEq, Repr

/-- One spread group beside its registers (R272 to R276): the member last chosen, per stream the next number (a stream
not listed starts at 0 with SYNC), per member excluded since when it has been up and clean, and the member table: the live members
it was last applied for, and the stand-in of each bucket whose home member is not among them. -/
structure Group where
  last : Option Nat
  streams : NMap Nat
  excluded : NMap Nat
  applied : List Nat
  standIn : NMap Nat
deriving DecidableEq, Repr

/-- The shared buffer (R214 to R240): frames and descriptors by id, the next ids, VOQs keyed by (pipeline × 1024 + port) × 8
+ class, the sizes in force of the reserves, of the headroom by port × 8 + class and of the drain reserve by port (R218, R219), the classes asserted by R224 as (port, class), and the replicators'
queues by pipeline. -/
structure Buf where
  frames : NMap Frame
  copies : NMap Copy
  nextFrame : Nat
  nextCopy : Nat
  voqs : NMap (List Nat)
  contract : Nat
  recirc : Nat
  scaf : Nat
  headroom : NMap Nat
  drain : NMap Nat
  asserted : List (Nat × Nat)
  repl : NMap (List ReplItem)
deriving DecidableEq, Repr

/-- Spread groups, the float unit and the twin generators (R269 to R286). -/
structure Spread where
  groups : NMap Group
  floats : NMap FloatCtx
  holdOrder : List (Nat × Nat)
  twins : NMap TwinCtx
  gens : NMap Nat
deriving DecidableEq, Repr

end Sys2Proof.Machine
end

