-- ==== Sys2Proof/Machine/StScaf.lean ====
section
/-! DEFINITION. The state of the scaffold (R367 to R397) as plain data. -/

namespace Sys2Proof.Machine

/-- One change to a record in the update order (R162): bytes written, a count added, bits of one byte cleared and set. -/
inductive Upd where
  | put (off : Nat) (bytes : List Byte)
  | add (off n v : Nat)
  | mask (off keep set : Nat)
deriving DecidableEq, Repr

/-- Where a task is (R369, R377, R385, R386): on a ready list, copying its frame, on a thread, on the delay list, or
waiting for a signal. -/
inductive TaskAt where
  | ready | copying (engine thread : Nat) | thread (engine thread : Nat) | delay | signal (n : Nat)
deriving DecidableEq, Repr

/-- A command of a task that waits for the end of a quote (R180, R389): the quote, the identity of the record to remove, OP, TAG and
FLAGS, and the handle the record had. -/
structure TaskCmd where
  qid : Nat
  space : Nat
  key : List Byte
  op : Nat
  tag : Nat
  flags : Nat
  handle : Nat
deriving DecidableEq, Repr

/-- A task (R368, R379, R380): level, code bank, dispatch index, its frame while it is copied, whether it is frameless, its
registers, window base and F; the record of its flow hit and its own updates of it (R45, R46); staged edits and mirror; the
handles it holds locked with the engine whose number the locks bear (R389); the time it has held a thread in ns, since when it
holds this one, and its run budget in µs (R388); its tick; the receipt and arrival times of its frame and its
received length; a command that waits, and whether the thread is stalled in a lookup or a FENCE (R384). -/
structure Task where
  level : Nat
  bank : Nat
  disp : Nat
  frame : Option Nat
  frameless : Bool
  at_ : TaskAt
  regs : Regs
  base : Nat
  f : Option (List Byte)
  hit : Option Nat
  own : List Upd
  edits : List Edit
  mirror : Option (Nat × Nat)
  locks : List Nat
  lockEngine : Option Nat
  ran : Nat
  since : Nat
  budget : Nat
  rxTime : Nat
  rxTransit : Nat
  arrTb0 : Nat
  arrTransit : Nat
  len : Nat
  cmd : Option TaskCmd
  stall : Bool
deriving DecidableEq, Repr

/-- What a hardware thread does (R397). -/
inductive ThrState where
  | free | running | pulling | saving
deriving DecidableEq, Repr

/-- A hardware thread (R367, R384, R388): what it does, its task, the order of its dispatch, its interrupt, whether a spent
budget set it, and whether the thread stands at the instruction boundary where it sampled it. -/
structure Thread where
  state : ThrState
  task : Option Nat
  stamp : Nat
  interrupt : Bool
  spent : Bool
  bound : Bool
deriving DecidableEq, Repr

/-- An item of a ready list (R377): a punt's descriptor with its dispatch index, a due tick task, or an existing task. -/
inductive WorkItem where
  | punt (copy disp : Nat) | tick (n : Nat) | task (id : Nat)
deriving DecidableEq, Repr

/-- An item with the transit count since which it waits at its level. -/
structure ReadyItem where
  item : WorkItem
  since : Nat
deriving DecidableEq, Repr

/-- A timer on the delay list (R385). -/
structure Timer where
  due : Nat
  task : Nat
deriving DecidableEq, Repr

/-- The micro-level state of a thread (R390, R391): the micro-address, none at an instruction boundary, the temporaries t0 to t15, the
micro-flags Z, C and N, and the micro-stack, at most 8 deep. -/
structure Micro where
  upc : Option Nat
  temps : Vector (BitVec 64) 16
  z : Bool
  c : Bool
  n : Bool
  stack : List Nat
deriving DecidableEq, Repr

/-- The scaffold: SRAM (with the code banks, R373), tasks by page, threads keyed engine × 8 + thread (one not listed is free),
ready lists by level, the delay list in order of arming, the pending signals, the waits on signals in order as (signal,
task), when each tick was last due, the free threads in the order in which they became free, the number of dispatches so far,
since when each engine holds no task (R465), the half held
for SCAF_CODE_DATA, whether the load index has passed the bank's last word (R371), the micro-level state of the threads, and the
patch RAM (R390, R393). -/
structure Scaf where
  sram : Mem
  tasks : NMap Task
  threads : NMap Thread
  ready : NMap (List ReadyItem)
  timers : List Timer
  signals : List Nat
  waiters : List (Nat × Nat)
  tickLast : NMap Nat
  freed : List Nat
  stamp : Nat
  idleFrom : NMap Nat
  codeLo : Nat
  idxOver : Bool
  micro : NMap Micro
  patch : List (BitVec 32)
deriving DecidableEq, Repr

end Sys2Proof.Machine
end

