-- ==== Sys2Proof/Machine/StFlow.lean ====
section
/-! DEFINITION. The state of the flow stores, the lodge, the sander and the render store controller, as plain data (R149 to
R213). -/

namespace Sys2Proof.Machine

/-- The identity of a record (R149): the flow space and the key bytes, whose number is the key length. -/
structure FlowId where
  space : Nat
  key : List Byte
deriving DecidableEq, Repr

/-- One place in the update order of a record (R162): the frame whose flow step it is while that frame is in its pass (none
for a command, or a frame that has left), whether its program updates are beyond the limit of R163, and its changes. -/
structure RunEntry where
  frame : Option Nat
  beyond : Bool
  upds : List Upd
deriving DecidableEq, Repr

/-- One skim copy (R154): its home and its bytes before the changes that still stand in the update order. -/
structure SkimCopy where
  handle : Nat
  bytes : List Byte
deriving DecidableEq, Repr

/-- The outcome of a lodge entry (R170): its fetch is out, lodged, or absent. -/
inductive Outcome where
  | pending | lodged | absent
deriving DecidableEq, Repr

/-- One lodge entry (R169 to R172): identity, when it was opened, its park limit, its outcome, and its frame list in park order,
each with whether it has been passed on to the priority queue. -/
structure LodgeEntry where
  id : FlowId
  opened : Nat
  limit : Nat
  outcome : Outcome
  frames : List (Nat × Bool)
deriving DecidableEq, Repr

/-- The settings of R178 in force in a tuning interval: its length in ms, T_MIN, T_MAX, the budget in GB/s, and evictions per
second. -/
structure Tuning where
  interval : Nat
  tmin : Nat
  tmax : Nat
  budget : Nat
  evictMax : Nat
deriving DecidableEq, Repr

/-- The flow stores and their machinery (R149 to R190): the render copies by handle, the skim copies by bucket × 4 + way, the
update order of each record by handle, the lodge, the absent cache and the learn filter with the transit count at which
each identity leaves, the learn buckets by space (millionths of a notice, and when they were last filled), the write-back
queue, the installs of the current microsecond, the software settings of quote-pinned records (R180), the walk number with
the digest blocks that changed or held a record in it and the digest masks it uses, the sums of the tuning interval with the
settings in force in it (R178), the removed records that frames still in their passes see, under numbers of their own from 2^26
on (R43, R162), and the millisecond of the last LODGE_FULL with its source (R173). -/
structure Flow where
  render : NMap (List Byte)
  skim : NMap SkimCopy
  runs : NMap (List RunEntry)
  lodge : List LodgeEntry
  absent : List (FlowId × Nat)
  learn : List (FlowId × Nat)
  tokens : NMap (Nat × Nat)
  wbq : List (Nat × List Byte)
  installs : Nat × Nat
  soft : NMap (Bool × Bool)
  walk : Nat
  changed : List Nat
  held : List Nat
  moved : Nat
  evicted : Nat
  stuck : Nat
  masks : NMap Nat
  tuning : Tuning
  ghosts : NMap (List Byte)
  nextGhost : Nat
  fullMs : Option (Nat × Nat)
deriving DecidableEq, Repr

/-- One request to the render store (R201 to R205): its number, requestor port and master, store address, whether a write, the
number of bursts, the transit count of its entry into the channel queue, and the service class and target it took. -/
structure RReq where
  id : Nat
  port : Nat
  master : Nat × Nat
  addr : Nat
  write : Bool
  bursts : Nat
  since : Nat
  cls : Nat
  target : Nat
deriving DecidableEq, Repr

/-- One render channel beside its registers (R203 to R212): queued requests in order of entry, those that wait at their ports for
room in the queue, the requests sent to DRAM and not complete, the open row of each bank (pseudo-channel × 16 + bank group × 4 +
bank), whether a write batch runs, postponed refreshes by bank, and the uncorrectable codewords counted, with their times. -/
structure RChan where
  queue : List RReq
  waiting : List RReq
  issued : List RReq
  rows : NMap Nat
  batch : Bool
  postponed : NMap Nat
  ues : List (Nat × Nat)
deriving DecidableEq, Repr

/-- The render store controller (R191 to R213): the channels, the next request number, the bytes of the regions other than
RECORD by store address, the transit count of the last request to each stack (R207), the write reference code in each stack's
mode register (R209), the last request of each port that ended with an error, with its status (R194, R198: 1 address error, 2
poisoned), and the 16-byte codewords known to be poisoned (R198). -/
structure Rstore where
  chans : NMap RChan
  nextReq : Nat
  bytes : Mem
  lastReq : NMap Nat
  writeRef : NMap Nat
  portErr : NMap (Nat × Nat)
  poison : List Nat
deriving DecidableEq, Repr

end Sys2Proof.Machine
end

