-- ==== Sys2Proof/Machine/StLath.lean ====
section
/-! DEFINITION. The state of the lath spans (R314 to R335) as plain data. -/

namespace Sys2Proof.Machine

/-- The receiver of one span lane (R318 to R320): in frame or not, the candidate phases with their exact matches in a row, the
phase followed, the errored FAWs in a row, when OOF or IN_FRAME began, LOP with its runs of bad and good pointers, the
words from the first location of the next frame to the next container's start, the words of the container being collected
(none while its start is not known), the BIP-32 of the last frame, and the errors it found. -/
structure LaneRx where
  inFrame : Bool
  cands : NMap Nat
  phase : Nat
  errRun : Nat
  since : Nat
  badPtr : Nat
  goodPtr : Nat
  toStart : Option Nat
  part : Option (List DWord)
  bip : Option Nat
  rei : Nat
deriving DecidableEq, Repr

/-- One received stream of a span (R324): whether it discards until the next FIRST, and the words of the frame or header that is
not complete yet, each with the transit count of its arrival in 2^−16 ns (R343). -/
structure RxStream where
  skip : Bool
  words : List (Nat × DWord)
deriving DecidableEq, Repr

/-- A container of one lane, or of a span, that has been received (R322, R333): its lane, its CSEQ, its words, and the transit count of
the end of its last word in 2^−16 ns. -/
structure RxContainer where
  lane : Nat
  seq : Nat
  words : List DWord
  ended : Nat
deriving DecidableEq, Repr

/-- A word that a stream has to send, with the copy it belongs to (R324). -/
structure StreamWord where
  copy : Nat
  word : DWord
deriving DecidableEq, Repr

/-- One lath span beside its registers (R314 to R334): the lane receivers; the lane containers that wait for their fellows;
the CSEQ values of the lanes' newest containers when they were last found to differ; the last 8 span containers assembled; the CSEQ
delivered last; the runs for LOA, SF, SD, RDI, TIM and
LW; the uncorrectable codewords of the millisecond and the BIP errors of the 100 ms; the trace bytes received; the streams
received; the words each stream has to send; the lane queues being sent, the next CSEQ and FCNT and the BIP-32 of each
lane's last frame; the words left of the frame that each stream sends; the trace bytes of the multiframe being sent; the tokens
of each channel; the last lath frame put on each lane; and the state of protection with the command that its frames carry (R332 to
R335). -/
structure Span where
  lanes : NMap LaneRx
  waiting : List RxContainer
  compared : List Nat
  kept : List RxContainer
  last : Option Nat
  badCseq : Nat
  goodCont : Nat
  uncMs : Nat
  sfClean : Nat
  bipPeriod : Nat
  sdClean : Nat
  rdiRun : Nat
  timRun : Nat
  timGood : Nat
  lwRun : Nat
  losSeen : Bool
  trace : List Byte
  rx : NMap RxStream
  tx : NMap (List StreamWord)
  txq : NMap (List DWord)
  cseq : Nat
  fcnt : Nat
  bipTx : NMap Nat
  out : NMap (List DWord)
  txLeft : NMap Nat
  traceTx : List Byte
  tokens : NMap Nat
  apsCmd : Nat
  farSeen : Nat
  farRun : Nat
  wasBad : Bool
  wtr : Option Nat
  dnr : Bool
deriving DecidableEq, Repr

end Sys2Proof.Machine
end

