-- ==== Sys2Proof/Machine/StPower.lean ====
section
/-! DEFINITION. The state of power, start-up, flash, the recovery loader and the wake port, as plain data (R459 to R496,
R426, R427, R475, R529). -/

namespace Sys2Proof.Machine

/-- A request for a power state (R460): the state, the requester (0 Seat A, 1 Seat B, 2 Seat L, 3 wake, 4 island, R495), and
the ring whose POWER_REQUEST completes with it. -/
structure PwrReq where
  state : Nat
  who : Nat
  ring : Option (Nat × Nat)
deriving DecidableEq, Repr

/-- A transition that runs (R461): its request, the requests that complete with it, the state it left, and the transit count of
its start. -/
structure Trans where
  req : PwrReq
  also : List PwrReq
  old : Nat
  since : Nat
deriving DecidableEq, Repr

/-- Where the device stands (R459, R484 to R486, R482): in reset until START_UP, past step 7 with tiles being calibrated, started
(ALIVE declared), in the recovery loader, in manufacturing test, held in reset, in Sleep, or in Off. -/
inductive Phase where
  | waits | tiles | started | recovery | test | held | asleep | off
deriving DecidableEq, Repr

/-- The kind of the next or present start (R469). -/
inductive StartKind where
  | cold | warm | wake
deriving DecidableEq, Repr

/-- A swatch switch that has been asked for (R492, R422): the ring whose SWATCH_SELECT completes (none: the island), the swatch,
the TB0 time, whether the check has ended, and whether its registers have been applied and its coat is pending. -/
structure Switch where
  ring : Option (Nat × Nat)
  swatch : Nat
  time : Nat
  checked : Bool
  applied : Bool
deriving DecidableEq, Repr

/-- A DARBY_FLASH operation that runs: its OP and its flash address (R494, R496). -/
structure FlashOp where
  op : Nat
  addr : Nat
deriving DecidableEq, Repr

/-- Power and start-up (R459 to R496) beside the PWR registers: the flash bytes; the running transition and the held request;
the wake sources latched during Sleep entry; whether the drain of an entry runs and whether the ports are down; where the device
stands and the kind of its start; the Boot-class values taken at the next start; the tiles calibrated and the ports whose first
attempt has not ended; the switch that waits; the flash operation; whether TEMP has been at WARN and has not fallen 2 °C since
(R481); the pins ALIVE, HB and THERMTRIP_N; the squelch of R28; the spans that sent the last-word flag (R30); the TIO levels held
(R472) and the transit count of the hold; the data of each seat's last register read; the wake port's ADDR and its last STATUS;
the last answer of the recovery loader; since when no owning seat has been present (R422); when the hold of a safe stop
ends; the swatch whose code waits for the inactive bank to drain (R493); the lane dies whose REFCLK
is lost (R483); when the 100 ns of the last word end (R30); and the IDENTITY section that the
endpoints of both seats show (R398, R488). -/
structure Power where
  flash : Mem
  running : Option Trans
  held : Option PwrReq
  latched : Nat
  draining : Bool
  portsDown : Bool
  phase : Phase
  kind : StartKind
  boot : NMap Nat
  tiles : List Nat
  awaiting : List Nat
  switch : Option Switch
  flashOp : Option FlashOp
  warned : Bool
  alive : Bool
  hb : Bool
  thermtrip : Bool
  squelch : Bool
  lwSpans : List Nat
  tioHeld : Option Nat
  heldAt : Nat
  data : NMap Nat
  wakeAddr : Nat
  wakeStatus : Nat
  recovery : List Byte
  islandFrom : Nat
  stopUntil : Option Nat
  codeWait : Option Nat
  lostDies : List Nat
  s5At : Option Nat
  identity : List Byte
deriving DecidableEq, Repr

/-- The states of the test access port (R532, IEEE 1149.1). -/
inductive Tap where
  | reset | idle | selectDr | captureDr | shiftDr | exit1Dr | pauseDr | exit2Dr | updateDr
  | selectIr | captureIr | shiftIr | exit1Ir | pauseIr | exit2Ir | updateIr
deriving DecidableEq, Repr

/-- The JTAG instructions R532 names; `acTest` stands for those of IEEE 1149.6. -/
inductive JtagInstr where
  | idcode | bypass | extest | intest | acTest
deriving DecidableEq, Repr

/-- The test access port (R532): its state, the instruction in force, and the bits in the shift path, the next to leave first. -/
structure Jtag where
  tap : Tap
  instr : JtagInstr
  shift : List Bool
deriving DecidableEq, Repr

end Sys2Proof.Machine
end

