-- ==== Sys2Proof/Machine/Device.lean ====
section
/-! DEFINITION. The block's own state: everything the spec gives the AQ7102, as plain data. -/

namespace Sys2Proof.Machine

structure Device where
  /-- The register file (R8, R518): keyed by BAR0 offset; a register that is not listed holds its reset value. -/
  regs : NMap (BitVec 32)
  hawk : Hawk
  fault : FaultMgr
  seats : NMap Seat
  perf : Perf
  telem : Telem
  plumb : Plumb
  coats : Coats
  pipes : Pipes
  /-- The contexts of frames in ingress passes, by frame, and of copies in egress passes, by copy (R80). -/
  ctxs : NMap Ctx
  ectxs : NMap Ctx
  buf : Buf
  ports : NMap Port
  scheds : NMap Sched
  quotes : NMap Quote
  spread : Spread
  flow : Flow
  rstore : Rstore
  scaf : Scaf
  spans : NMap Span
  pwr : Power
  jtag : Jtag
  freeCtr : Nat
deriving DecidableEq, Repr

end Sys2Proof.Machine
end

