-- ==== Sys2Proof/Machine/Ops.lean ====
section
/-! DEFINITION. The operations that every meaning shares: registers and their fields, counters, time, free values, and
the Hawk with its notices (R429 to R444, R410 to R412). -/

namespace Sys2Proof.Machine

/-! ### The register file -/

/-- The value of the register at an offset. -/
def Device.reg (d : Device) (off : Nat) : Nat := (DMap.get regReset d.regs off).toNat

/-- The device with one register set. -/
def Device.setReg (d : Device) (off v : Nat) : Device :=
  { d with regs := DMap.put regReset d.regs off (BitVec.ofNat 32 v) }

/-- Field [hi:lo] of a register (R5). -/
def Device.fld (d : Device) (off hi lo : Nat) : Nat := bits (d.reg off) hi lo

def Device.flag (d : Device) (off n : Nat) : Bool := d.fld off n n == 1

def Device.setFld (d : Device) (off hi lo v : Nat) : Device := d.setReg off (setBits (d.reg off) hi lo v)

def Device.setFlag (d : Device) (off n : Nat) (v : Bool) : Device := d.setFld off n n (b2n v)

/-- A 32-bit counter that saturates (R8: RC counters). -/
def Device.bump (d : Device) (off n : Nat) : Device := d.setReg off (sat32 (d.reg off + n))

/-- The value of a 64-bit pair (R10), `off` being the offset of its LO half. -/
def Device.reg64 (d : Device) (off : Nat) : Nat := d.reg off + 2 ^ 32 * d.reg (off + 4)

def Device.setReg64 (d : Device) (off v : Nat) : Device :=
  (d.setReg off (v % 2 ^ 32)).setReg (off + 4) (v / 2 ^ 32 % 2 ^ 32)

/-- A 64-bit counter that wraps (R313). -/
def Device.bump64 (d : Device) (off n : Nat) : Device := d.setReg64 off ((d.reg64 off + n) % 2 ^ 64)

/-! ### Free values -/

/-- A value the spec leaves open: `kind` says which open point (assumption log, entry 3). Each use advances the
counter, so that no two uses are bound to agree. -/
def Device.free (d : Device) (kind : Nat) : Device × Nat :=
  ({ d with freeCtr := d.freeCtr + 1 }, (Config.freeValue kind d.freeCtr).toNat)

/-! ### Time (R337, R338, R342) -/

def TimeBase.zero : TimeBase := ⟨0, 0, 0, 0, false⟩

def Device.tb (d : Device) (n : Nat) : TimeBase := NMap.getD d.plumb.tbs n TimeBase.zero

/-- Whether all eight bases count by themselves (R342). -/
def Device.multi (d : Device) : Bool := d.flag Off.plumbCtl 31

/-- The nanosecond count of one base's own fields: SEC × 10^9 + NS modulo 2^64 (R338). -/
def TimeBase.count (t : TimeBase) : Nat := (t.sec * 1000000000 + t.ns) % 2 ^ 64

/-- The signed offset TB_OFS of a base in nanoseconds (R342). -/
def Device.tbOfs (d : Device) (n : Nat) : Int := if n = 0 then 0 else signed 64 (d.reg64 (Off.plumbTbOfsLo n))

/-- The value of a time base as it reads: in single-base mode TBn is TB0 plus its offset (R342). -/
def Device.tbNow (d : Device) (n : Nat) : TimeBase :=
  if n = 0 ∨ d.multi then d.tb n
  else
    let t := d.tb 0
    let total : Int := (t.sec * 1000000000 + t.ns : Nat) + d.tbOfs n
    let m : Nat := (total % (2 ^ 48 * 1000000000 : Nat)).toNat
    { t with sec := m / 1000000000, ns := m % 1000000000 }

/-- The nanosecond count of time base n (R338). -/
def Device.tbCount (d : Device) (n : Nat) : Nat := (d.tbNow n).count

/-- The transit count (R337). -/
def Device.transit (d : Device) : Nat := d.plumb.transit

/-- The shed level in force, 0 for none (R478, PWR_SHED_STATUS). -/
def Device.shed (d : Device) : Nat := d.fld Off.pwrShedStatus 31 29

/-! ### Occurrences for the counters (R498, R500) -/

def Occ.plain (code amount : Nat) : Occ := ⟨code, amount, none, none, none, none, none⟩

/-- One occurrence of a countable event in the current tick. -/
def Device.occ (d : Device) (o : Occ) : Device := { d with perf := { d.perf with occ := d.perf.occ ++ [o] } }

/-- The partition of a port: its nibble in SEAT_PORT_PART (R403). -/
def Device.portPart (d : Device) (p : Nat) : Nat := d.fld (Off.seatPortPart (p / 8)) (4 * (p % 8) + 3) (4 * (p % 8))

/-- An event of a port, the buffer or the scheduler: it carries the port as operand and the port's partition (R500). -/
def Device.occPort (d : Device) (code amount : Nat) (cls : Option Nat) (port : Nat) : Device :=
  d.occ ⟨code, amount, cls, none, none, some port, some (d.portPart port)⟩

/-! ### Seats, presence and privilege (R400, R403, R404) -/

def NoticeRing.reset : NoticeRing := ⟨true, false, 0, 0, 0⟩

def CmdRing.reset : CmdRing := ⟨0, 0, none, false, []⟩

def Seat.reset : Seat := ⟨false, 0, none, 0, [], [], [], [], [], []⟩

def Device.seat (d : Device) (s : Nat) : Seat := NMap.getD d.seats s Seat.reset

def Device.setSeat (d : Device) (s : Nat) (x : Seat) : Device := { d with seats := NMap.set d.seats s x }

def Device.modSeat (d : Device) (s : Nat) (f : Seat → Seat) : Device := d.setSeat s (f (d.seat s))

def Device.present (d : Device) (s : Nat) : Bool := (d.seat s).present

def Seat.nring (x : Seat) (r : Nat) : NoticeRing := NMap.getD x.nr r NoticeRing.reset

def Seat.cring (x : Seat) (r : Nat) : CmdRing := NMap.getD x.cr r CmdRing.reset

def Device.modNring (d : Device) (s r : Nat) (f : NoticeRing → NoticeRing) : Device :=
  d.modSeat s fun x => { x with nr := NMap.set x.nr r (f (x.nring r)) }

def Device.modCring (d : Device) (s r : Nat) (f : CmdRing → CmdRing) : Device :=
  d.modSeat s fun x => { x with cr := NMap.set x.cr r (f (x.cring r)) }

def Device.observer (d : Device) (s : Nat) : Bool := d.flag (Off.seatCtl s) 31

/-- SEAT_OWNER.DEV_OWNER: 0 A, 1 B, 2 none. -/
def Device.devOwner (d : Device) : Nat := d.fld Off.seatOwner 1 0

/-- Whether a seat is the device owner, which needs no other privilege: an Observer may be it (R404). -/
def Device.isDevOwner (d : Device) (s : Nat) : Bool := decide (s < 2) && d.devOwner == s

/-- Whether a seat holds Owner privilege in a partition (R404). -/
def Device.owns (d : Device) (s part : Nat) : Bool := decide (s < 2) && !d.observer s && d.fld (Off.seatPart part) 1 0 == s

/-- Whether a seat holds Owner privilege in a partition for an operation with delegation bit `del` (4 FLOW, 5 TABLE,
6 QUOTE, 7 FRAME) (R404, R405). -/
def Device.ownsOr (d : Device) (s part del : Nat) : Bool :=
  decide (s < 2) && !d.observer s && (d.fld (Off.seatPart part) 1 0 == s || d.flag (Off.seatPart part) del)

/-- A seat's privilege in a partition as the counters see it: 0 Owner, 1 Peer, 2 Observer (R404, R498). -/
def Device.privOf (d : Device) (s part : Nat) : Nat := if d.observer s then 2 else if d.owns s part then 0 else 1

/-- The master kind of a seat (R500). -/
def seatMaster (s : Nat) : Nat × Nat := (5 + s, 0)

/-- The port whose register an offset names. -/
def portOf (off : Nat) : Option Nat :=
  let set (base stride : Nat) : Option Nat := if base ≤ off ∧ off < base + stride * 512 then some ((off - base) / stride) else none
  (set (Off.bufPortCt 0) 0x40) <|> (set (Off.schedCal 0) 0x100) <|> (set (Off.portCfg 0) 0x1000) <|>
    (set (Off.spreadPort 0) 4) <|> (set (Off.plumbPortTs 0) 0x10)

/-- The flow space whose register an offset names; its export registers are the device owner's (R517). -/
def spaceOf (off : Nat) : Option Nat :=
  if Off.flowSpaceCtl 0 ≤ off ∧ off < Off.flowSpaceCtl 0 + 0x40 * 16 then some ((off - Off.flowSpaceCtl 0) / 0x40) else none

/-- The span whose register an offset names. -/
def spanRegOf (off : Nat) : Option Nat :=
  if Off.lathCtl 0 ≤ off ∧ off < Off.lathCtl 0 + 0x4000 * 32 then some ((off - Off.lathCtl 0) / 0x4000) else none

/-- The partition of the object whose register an offset names: a port, a flow space that is not SHARED, a span by its span port
(R403, R500). -/
def Device.regPart (d : Device) (off : Nat) : Option Nat :=
  match portOf off, spaceOf off, spanRegOf off with
  | some p, _, _ => some (d.portPart p)
  | _, some n, _ => if d.flag (Off.flowSpaceCtl n) 30 then none else some (d.fld (Off.flowSpaceCtl n) 29 26)
  | _, _, some x => some (d.portPart (d.fld (Off.lathCtl x) 8 0))
  | _, _, _ => none

/-- An event of a seat access (R500); the privilege is that in the partition it names, or where it names none that
of the device owner (Owner) or of any other seat (Peer or Observer). -/
def Device.occSeat (d : Device) (code s operand : Nat) (part : Option Nat) : Device :=
  let priv := match part with
    | some p => d.privOf s p
    | none => if d.observer s then 2 else if d.isDevOwner s then 0 else 1
  d.occ ⟨code, 1, none, some priv, some (seatMaster s), some operand, part⟩

/-! ### The Hawk -/

/-- The severities of R432. -/
def Sev.info : Nat := 0
def Sev.warn : Nat := 1
def Sev.fault : Nat := 2
def Sev.escalated : Nat := 3

/-- The 16-bit event code (R432). -/
def eventCode (sev cause : Nat) : Nat := sev * 2 ^ 14 + cause % 2 ^ 14

def eventSev (code : Nat) : Nat := code / 2 ^ 14 % 4

/-- The Hawk numbers one item: the device afterwards, the item's SEQ and its TIME (R429). -/
def Device.takeSeq (d : Device) : Device × Nat × Nat :=
  ({ d with hawk := { d.hawk with seq := (d.hawk.seq + 1) % 2 ^ 48 } }, d.hawk.seq, d.tbCount 0)

/-- Entries of a notice ring (R407); LOG2 outside 4 to 16 is taken as the nearer limit (R428). -/
def Device.nrSize (d : Device) (s r : Nat) : Nat := 2 ^ clampN 4 16 (d.fld (Off.seatNrCtl s r) 20 16)

def Device.crSize (d : Device) (s r : Nat) : Nat := 2 ^ clampN 4 16 (d.fld (Off.seatCrCtl s r) 20 16)

def Device.nrEnabled (d : Device) (s r : Nat) : Bool := d.flag (Off.seatNrCtl s r) 31

def Device.crEnabled (d : Device) (s r : Nat) : Bool := d.flag (Off.seatCrCtl s r) 31

/-- Entries of a notice ring that hold no unconsumed notice, one entry being kept free so that a full ring differs from an
empty one (R407). -/
def Device.nrFree (d : Device) (s r : Nat) : Nat :=
  let n := d.nrSize s r
  n - 1 - (d.fld (Off.seatNrTail s r) 15 0 + n - d.fld (Off.seatNrHead s r) 15 0) % n

/-- The base of a ring in host memory; bits [11:0] of LO are ignored (R428). -/
def Device.ringBase (d : Device) (offLo : Nat) : Nat := d.reg64 offLo / 4096 * 4096

/-- One 64-byte notice entry (R418): TYPE with PHASE, FLAGS, SEQ, TIME and the body, bytes 16 to 63. -/
def noticeEntry (ty : Nat) (phase lost cont : Bool) (seq time : Nat) (body : List Byte) : List Byte :=
  BitVec.ofNat 8 (ty + 128 * b2n phase) :: BitVec.ofNat 8 (b2n lost + 2 * b2n cont) ::
    (bytesLE 6 seq ++ bytesLE 8 time ++ fitB 48 body)

/-- A message of a notice ring's MSI-X vector is sent (R411); no vector is masked (PRESUMED, log, entry 133). -/
def Device.sendMsix (d : Device) (s r : Nat) : Device :=
  let v := d.fld (Off.seatNrCtl s r) 13 8
  (d.modSeat s fun x => { x with msix := NMap.set x.msix v (NMap.getD x.msix v 0 + 1) }).modNring s r
    fun n => { n with since := 0 }

/-- A notice for a seat is dropped and counted (R401, R410). -/
def Device.dropNotice (d : Device) (s r ty : Nat) : Device :=
  ((d.bump (Off.seatNrLost s) 1).modNring s r fun n => { n with lost := true }).occSeat 0x706 s ty none

/-- The next entry of a notice ring is written and the tail moves on; the phase turns at the end of the ring (R410). -/
def Device.putEntry (d : Device) (s r ty : Nat) (cont : Bool) (seq time : Nat) (body : List Byte) : Device :=
  let n := (d.seat s).nring r
  let tail := d.fld (Off.seatNrTail s r) 15 0
  let a := d.ringBase (Off.seatNrBaseLo s r) + 64 * tail
  let d := d.modSeat s fun x =>
    { x with hostMem := Mem.writeN 0 x.hostMem a (noticeEntry ty n.phase (n.lost && !cont) cont seq time body) }
  let next := (tail + 1) % d.nrSize s r
  (d.setFld (Off.seatNrTail s r) 15 0 next).modNring s r fun n =>
    { n with lost := false, phase := if next = 0 then !n.phase else n.phase }

/-- The coalescing rule of R411 after one notice: a message when COUNT notices have been written since the last one; a
COUNT of 0 or 1 sends one message per notice. -/
def Device.coalesce (d : Device) (s r : Nat) : Device :=
  let n := (d.seat s).nring r
  let d := d.modNring s r fun n => { n with since := n.since + 1, first := if n.since = 0 then d.transit else n.first }
  if n.since + 1 ≥ max 1 (d.fld (Off.seatNrCoalesce s r) 31 16) then d.sendMsix s r else d

/-- A stamped notice of one entry, or of two with `second` as the body of the CONT entry, is written to a ring, or dropped
(R401, R410, R412). `reserved`: it uses an entry reserved for a COMPLETION (R409). Answers whether it was written. -/
def Device.putNotice (d : Device) (s r ty seq time : Nat) (body : List Byte) (second : Option (List Byte))
    (reserved : Bool) : Device × Bool :=
  let need := if second.isSome then 2 else 1
  let n := (d.seat s).nring r
  let avail := if reserved then d.nrFree s r else d.nrFree s r - n.reserved
  if !d.present s || !d.nrEnabled s r then (d.dropNotice s r ty, false)
  else if avail < need then (d.dropNotice s r ty, false)
  else
    let d := if reserved then d.modNring s r fun n => { n with reserved := n.reserved - 1 } else d
    let d := d.putEntry s r ty false seq time body
    let d := match second with
      | some b => d.putEntry s r ty true seq time b
      | none => d
    ((d.occSeat 0x705 s ty none).coalesce s r, true)

/-- A notice is stamped and routed (R429, R412). -/
def Device.notice (d : Device) (s r ty : Nat) (body : List Byte) (second : Option (List Byte)) : Device × Bool :=
  let (d, seq, time) := d.takeSeq
  d.putNotice s r ty seq time body second false

/-- The body of an EVENT notice (R419, R433). -/
def eventBody (e : Event) : List Byte :=
  bytesLE 2 e.src ++ bytesLE 2 e.code ++ bytesLE 2 e.count ++ bytesLE 1 e.dkind ++ bytesLE 1 0 ++ bytesLE 2 e.dinst ++
    bytesLE 2 0 ++ bytesLE 8 e.arg0 ++ bytesLE 8 e.arg1 ++ bytesLE 8 e.transit

/-- The bit of a source in a set of 32-bit registers. -/
def Device.srcBit (d : Device) (off : Nat → Nat) (src : Nat) : Bool := d.flag (off (src / 32)) (src % 32)

/-- An event is delivered to the EVENT_RING of one seat, if the seat is present and has not masked the source; severity
ESCALATED cannot be masked (R438). -/
def Device.deliver (d : Device) (s : Nat) (e : Event) (seq time : Nat) : Device :=
  if d.present s && (eventSev e.code == Sev.escalated || !d.srcBit (Off.hawkSmask s) e.src) then
    (d.putNotice s (d.fld (Off.seatCtl s) 5 3) 2 seq time (eventBody e) none false).1
  else d

/-- An entry is written into the event log; a full log loses its oldest entry (R440). -/
def Device.logEntry (d : Device) (x : LogEntry) : Device :=
  let h := d.hawk
  let full := h.log.length ≥ 256
  let d := if full then d.bump Off.hawkLogOvf 1 else d
  { d with hawk := { h with log := (if full then h.log.drop 1 else h.log) ++ [x], logNext := (h.logNext + 1) % 256 } }

/-- An event is stamped: it takes its SEQ and TIME, sets its sticky bit, sets FN_LATCH when ESCALATED, is logged by R440
and is delivered to the present seats (R429, R438 to R440, R443). -/
def Device.stampEvent (d : Device) (e : Event) : Device :=
  let (d, seq, time) := d.takeSeq
  let d := d.setFlag (Off.hawkSticky (e.src / 32)) (e.src % 32) true
  let sev := eventSev e.code
  let d := if sev = Sev.escalated then d.setFlag Off.hawkStatus 0 true else d
  let d := if sev ≥ Sev.fault || d.srcBit Off.hawkLogmask e.src then
      d.logEntry ⟨seq, e.src, e.code, e.count, e.dkind, e.dinst, time, e.arg0⟩ else d
  (d.deliver 0 e seq time).deliver 1 e seq time

def Device.slot? (d : Device) (src code : Nat) : Option PendSlot :=
  d.hawk.slots.find? fun p => p.src == src && p.code == code

def Device.setSlot (d : Device) (p : PendSlot) : Device :=
  { d with hawk := { d.hawk with
      slots := d.hawk.slots.filter (fun q => !(q.src == p.src && q.code == p.code)) ++ [p] } }

/-- An event is raised: merged into its pending slot, held until HOLDOFF has passed since the pair's last event, or
stamped at once; severity ESCALATED is never merged (R434). -/
def Device.raiseEvent (d : Device) (e : Event) : Device :=
  let now := d.transit
  let fresh := (d.stampEvent e).setSlot ⟨e.src, e.code, none, some now⟩
  if eventSev e.code = Sev.escalated then d.stampEvent e
  else match d.slot? e.src e.code with
    | none => fresh
    | some p =>
      match p.waiting, p.last with
      | some w, _ =>
        (d.setSlot { p with waiting := some { w with count := min 65535 (w.count + 1) } }).bump Off.hawkMerged 1
      | none, some t =>
        if now < t + 1000 * d.fld Off.hawkCtl 15 0 then
          (d.setSlot { p with waiting := some e }).bump Off.hawkMerged 1
        else fresh
      | none, none => fresh

/-- An event of a source with its severity and cause and its two arguments; DKIND 0xFF for no domain (R433, R437). -/
def Device.raise (d : Device) (src sev cause arg0 arg1 : Nat) : Device :=
  d.raiseEvent ⟨src, eventCode sev cause, 1, 0xFF, 0, arg0, arg1, d.transit⟩

/-- An event that concerns a containment domain (R433, R445). -/
def Device.raiseDom (d : Device) (src sev cause dkind dinst arg0 arg1 : Nat) : Device :=
  d.raiseEvent ⟨src, eventCode sev cause, 1, dkind, dinst, arg0, arg1, d.transit⟩

/-! ### The causes of R437 -/

namespace Cause
def ueData : Nat := 0x0001
def domainFault : Nat := 0x0002
def domainRestarted : Nat := 0x0003
def domainFailed : Nat := 0x0004
def escalated : Nat := 0x0005
def safeStop : Nat := 0x0006
def leaseReclaim : Nat := 0x0007
def cfgRefused : Nat := 0x0010
def writeIgnored : Nat := 0x0011
def linkUp : Nat := 0x0020
def linkDown : Nat := 0x0021
def attemptFailed : Nat := 0x0022
def los : Nat := 0x0023
def lol : Nat := 0x0024
def verifyFail : Nat := 0x0025
def pauseWd : Nat := 0x0026
def coatCurrent : Nat := 0x0030
def coatRetired : Nat := 0x0031
def coatWait : Nat := 0x0032
def settled : Nat := 0x0033
def commitRefused : Nat := 0x0034
def stageLogFull : Nat := 0x0035
def lodgeFull : Nat := 0x0040
def thresholdStuck : Nat := 0x0041
def quoteExpiry : Nat := 0x0050
def quoteEnded : Nat := 0x0051
def gateChange : Nat := 0x0052
def memberExcluded : Nat := 0x0060
def memberReadmitted : Nat := 0x0061
def floatGap : Nat := 0x0062
def floatForced : Nat := 0x0063
def twinRogue : Nat := 0x0064
def spanDefect : Nat := 0x0070
def apsSwitch : Nat := 0x0071
def lwReceived : Nat := 0x0072
def timeStep : Nat := 0x0080
def slewEnd : Nat := 0x0081
def timeValid : Nat := 0x0082
def tioOvf : Nat := 0x0083
def ppsLost : Nat := 0x0084
def trefLost : Nat := 0x0085
def servoState : Nat := 0x0086
def alarm : Nat := 0x0087
def aonRange : Nat := 0x0088
def seatPresent : Nat := 0x0090
def seatAbsent : Nat := 0x0091
def ownerChanged : Nat := 0x0092
def island : Nat := 0x0093
def ringDisabled : Nat := 0x0094
def loader : Nat := 0x0095
def taskException : Nat := 0x00A0
def codeSwitch : Nat := 0x00A1
def powerState : Nat := 0x00B0
def shedLevel : Nat := 0x00B1
def supply : Nat := 0x00B2
def thermal : Nat := 0x00B3
def clock : Nat := 0x00B4
def counterOvf : Nat := 0x00C0
def snapshot : Nat := 0x00C1
def exportDrop : Nat := 0x00C2
end Cause

/-! ### Domains (R445, R446) -/

/-- The key of a domain: DKIND × 1024 + instance. -/
def domKey (kind inst : Nat) : Nat := kind * 1024 + inst

/-- Whether a domain accepts work: it is not under recovery or held out of service (R447). -/
def Device.domainOk (d : Device) (kind inst : Nat) : Bool :=
  match NMap.get? d.fault.doms (domKey kind inst) with
  | some x => x.state == .running
  | none => true

/-- A domain as at reset. -/
def Domain.reset : Domain := ⟨.running, [], 0, 0, 0, false⟩

def Device.dom (d : Device) (kind inst : Nat) : Domain := (NMap.get? d.fault.doms (domKey kind inst)).getD Domain.reset

def Device.modDom (d : Device) (kind inst : Nat) (f : Domain → Domain) : Device :=
  { d with fault := { d.fault with doms := NMap.set d.fault.doms (domKey kind inst) (f (d.dom kind inst)) } }

/-! ### Refused and ignored writes (R405, R444) -/

/-- The event source of a seat (R436): 416 Seat A, 417 Seat B, 418 Seat L. -/
def seatSource (s : Nat) : Nat := 416 + s

/-- A write that R12 ignores: the sticky flag, its record and the event on source 465 (R444). -/
def Device.quietFlag (d : Device) (s off v : Nat) : Device :=
  let d := d.setReg Off.hawkQuiet (2 ^ 31 + s % 4 * 2 ^ 29 + off % 2 ^ 26)
  let d := d.setReg Off.hawkQuietVal v
  let d := d.raise 465 Sev.warn Cause.writeIgnored off (v + s % 4 * 2 ^ 62)
  d.occSeat 0x703 s off (d.regPart off)

/-- A register write without the needed privilege: ignored, SEAT_STATUS.PRIV_ERR set, and an event on the seat's source
(R405). -/
def Device.privRefuse (d : Device) (s off v : Nat) : Device :=
  let d := if s < 2 then d.setFlag (Off.seatStatus s) 1 true else d
  let d := d.raise (seatSource s) Sev.warn Cause.writeIgnored off (v + s % 4 * 2 ^ 62)
  d.occSeat 0x703 s off (d.regPart off)

end Sys2Proof.Machine
end

