-- ==== Sys2Proof/Machine/Seats.lean ====
section
/-! DEFINITION. Rings and seats: taking and completing commands, doorbells, presence, the device owner's role
(R400 to R419), and the leases the fault manager records (R448). -/

namespace Sys2Proof.Machine

/-! ### Leases (R448) -/

/-- A resource is granted under a lease (R448). -/
def Device.lease (d : Device) (kind dkind dinst index amount : Nat) : Device :=
  { d with fault := { d.fault with leases := d.fault.leases ++ [⟨kind, dkind, dinst, index, amount, d.transit⟩] } }

/-- The lease of a released resource is removed (R448). -/
def Device.unlease (d : Device) (kind index : Nat) : Device :=
  { d with fault := { d.fault with
      leases := d.fault.leases.filter fun l => !(l.kind == kind && l.index == index) } }

/-- The lease index of the completion slot reserved for a command ring: the ring, over both seats. -/
def ringIndex (s r : Nat) : Nat := 8 * s + r

/-! ### Darby (R409, R445, R452) -/

/-- Darby runs: what it does waits while it is under recovery (R445, R452). -/
def Device.darbyRuns (d : Device) : Bool := d.domainOk 0xA 0

/-- The flow commands are applied without Darby; it runs the others (R409). -/
def flowOp (op : Nat) : Bool := decide (1 ≤ op ∧ op ≤ 5) || op == 0x11

/-! ### Completion statuses (R416) -/

namespace St
def ok : Nat := 0x00
def badParam : Nat := 0x01
def priv : Nat := 0x02
def busy : Nat := 0x03
def notFound : Nat := 0x04
def exists_ : Nat := 0x05
def noSpace : Nat := 0x06
def disabled : Nat := 0x07
def qpin : Nat := 0x08
def badRecord : Nat := 0x09
def verify : Nat := 0x0A
def quoteConflict : Nat := 0x0B
def tooLate : Nat := 0x0C
def noStage : Nat := 0x0D
def idInUse : Nat := 0x0E
def flowQuoted : Nat := 0x0F
def limit : Nat := 0x10
def noFlow : Nat := 0x11
def path : Nat := 0x12
def port : Nat := 0x13
def noFit : Nat := 0x14
def noCells : Nat := 0x15
def noPin : Nat := 0x16
def dmaErr : Nat := 0x17
def dropped : Nat := 0x18
end St

/-! ### Taking and completing commands (R408, R409, R417) -/

/-- The notice ring that takes a command ring's COMPLETIONs. -/
def Device.cplRing (d : Device) (s r : Nat) : Nat := d.fld (Off.seatCrCtl s r) 2 0

/-- QUOTE_REQUEST, QUOTE_RELEASE and COAT_COMMIT, which Darby handles one at a time (R247). -/
def inTurn (op : Nat) : Bool := op == 0x0B || op == 0x0C || op == 0x09

/-- Whether Darby handles one of the three now: a commit is verified, or a release waits for D (R247, R249; that a commit which
waits for its coat's turn is handled already is DEDUCED from R107 and R247, assumption log, entry 57). -/
def Device.turnTaken (d : Device) : Bool :=
  (List.range 16).any fun i => match ((d.seat (i / 8)).cring (i % 8)).out with
    | some o => o.op == 0x0C || (o.op == 0x09 && d.coats.verifying.isSome)
    | none => false

/-- Whether the device can take a command from a ring: the seat is present, the ring enabled and not empty, no command of
it outstanding, an entry for the COMPLETION can be reserved, Darby runs where the command needs it, and no other command's turn
lasts (R247, R401, R408, R409, R452). -/
def Device.canTake (d : Device) (s r op : Nat) : Bool :=
  (flowOp op || d.darbyRuns) && !(inTurn op && d.turnTaken) && d.present s && !d.fault.stopping && d.crEnabled s r &&
    d.fld (Off.seatCrHead s r) 15 0 != d.fld (Off.seatCrTail s r) 15 0 &&
    ((d.seat s).cring r).out.isNone && d.nrEnabled s (d.cplRing s r) &&
    decide (((d.seat s).nring (d.cplRing s r)).reserved < d.nrFree s (d.cplRing s r))

/-- The holder of a taken command's completion slot: Darby for the commands it runs, else the seat (DEDUCED, assumption log,
entry 27). -/
def slotHolder (s op : Nat) : Nat × Nat := if flowOp op then (9, s) else (0xA, 0)

/-- A command is taken: the head moves on and one COMPLETION entry is reserved, under a lease (R409, R448). -/
def Device.takeCmd (d : Device) (s r op : Nat) (part : Option Nat) : Device :=
  let d := d.setFld (Off.seatCrHead s r) 15 0 ((d.fld (Off.seatCrHead s r) 15 0 + 1) % d.crSize s r)
  let d := d.modNring s (d.cplRing s r) fun n => { n with reserved := n.reserved + 1 }
  let d := d.modCring s r fun c => { c with taken := c.taken + 1 }
  (d.lease 4 (slotHolder s op).1 (slotHolder s op).2 (ringIndex s r) 1).occSeat 0x704 s op part

/-- The body of a COMPLETION (R419); `result` is bytes 24 to 63. -/
def completionBody (op status tag s r : Nat) (result : List Byte) : List Byte :=
  bytesLE 1 op ++ bytesLE 1 status ++ bytesLE 2 tag ++ bytesLE 1 (r + 8 * s) ++ bytesLE 3 0 ++ fitB 40 result

/-- A taken command completes: its notice is written, unless it is QUIET and OK, its reserved entry is given back, and the
ring may hand over its next command (R409, R413, R419); that of a command taken before its seat was absent is discarded and counted
(R401). SCHED_FIT_STATUS shows the status of a refused QUOTE_REQUEST (R268). -/
def Device.completeOne (d : Device) (s r op status tag flags : Nat) (result : List Byte) : Device :=
  let d := d.unlease 4 (ringIndex s r)
  let d := if op = 0x0B ∧ status ≠ St.ok then d.setFld Off.schedFitStatus 15 8 status else d
  let mute := ((d.seat s).cring r).mute
  let d := d.modCring s r fun c => { c with done := c.done + 1, out := none, mute := false }
  let ring := d.cplRing s r
  if mute then d.dropNotice s ring 3
  else if bit flags 7 && status == St.ok then d.modNring s ring fun n => { n with reserved := n.reserved - 1 }
  else
    let (d, seq, time) := d.takeSeq
    let (d, wrote) := d.putNotice s ring 3 seq time (completionBody op status tag s r result) none true
    if wrote then d else d.modNring s ring fun n => { n with reserved := n.reserved - 1 }

/-- Whether a BARRIER's noted commands have all completed (R417). -/
def Device.barrierMet (d : Device) (o : OutCmd) : Bool :=
  o.waits.all fun (i, n) => decide (n ≤ ((d.seat (i / 8)).cring (i % 8)).done)

/-- One look at the rings: the BARRIERs whose noted commands have completed complete themselves (R417). -/
def Device.releaseBarriers (d : Device) : Device :=
  (List.range 16).foldl (fun d i =>
    match ((d.seat (i / 8)).cring (i % 8)).out with
    | some o => if o.op = 0x14 ∧ d.barrierMet o then d.completeOne (i / 8) (i % 8) 0x14 St.ok o.tag o.flags [] else d
    | none => d) d

/-- A command completes, and with it the BARRIERs that waited for it, one after the other: at most one per ring. -/
def Device.complete (d : Device) (s r op status tag flags : Nat) (result : List Byte) : Device :=
  (List.range 16).foldl (fun d _ => d.releaseBarriers) (d.completeOne s r op status tag flags result)

/-- A command stays outstanding until an event completes it. -/
def Device.hold (d : Device) (s r : Nat) (o : OutCmd) : Device := d.modCring s r fun c => { c with out := some o }

/-- An outstanding command, if its OP is the one asked for. -/
def Device.held (d : Device) (s r op : Nat) : Option OutCmd :=
  match ((d.seat s).cring r).out with
  | some o => if o.op = op then some o else none
  | none => none

/-- Whether PARAM bytes outside the listed (first entry byte, count) fields are all 0 (R413). -/
def cmdUnusedZero (c : CmdEntry) (used : List (Nat × Nat)) : Bool :=
  (List.range 48).all fun i =>
    used.any (fun (a, n) => decide (a ≤ i + 16 ∧ i + 16 < a + n)) || c.param.getD i 0 == 0

/-- The checks every command shares: reserved flags 0 (bit 7 is QUIET), unused bytes 0, LEN enough for the buffer (R413). -/
def cmdWellSpelt (c : CmdEntry) (flagBits : Nat) (used : List (Nat × Nat)) (need : Nat) : Bool :=
  decide (c.flags.toNat % 128 < 2 ^ flagBits) && cmdUnusedZero c used && decide (need ≤ c.len.toNat)

/-- The commands whose buffer the device only writes: QUOTE_QUERY, PERF_SNAPSHOT, LEASE_QUERY, TABLE_READ of a step word and FLOW_READ with
ENUM. -/
def writesOnly (op flags : Nat) : Bool :=
  op == 0x0D || op == 0x0E || op == 0x13 || (op == 0x07 && bits flags 1 0 == 2) || (op == 0x04 && bit flags 2)

/-- Host memory refuses an access: a buffer write that fails disables the ring, with an event on the seat's source (R416). -/
def Device.hostFail (d : Device) (s r op flags : Nat) : Device :=
  if writesOnly op flags then
    (d.setFlag (Off.seatCrCtl s r) 31 false).raise (seatSource s) Sev.warn Cause.ringDisabled s r
  else d

/-- A command of a ring that completes at once, `part` the partition of the object it names (R500): it is taken, its common checks are made, then `f` answers its effect, its
STATUS and its RESULT (R413, R416). A ring from which no command can be taken leaves the device as it is. -/
def Device.runCmd (d : Device) (c : CmdEntry) (op flagBits : Nat) (used : List (Nat × Nat)) (need : Nat) (part : Option Nat)
    (f : Device → Device × Nat × List Byte) : Device :=
  if d.canTake c.seat c.ring op then
    let d := d.takeCmd c.seat c.ring op part
    let (d, status, result) :=
      if !cmdWellSpelt c flagBits used need then (d, St.badParam, [])
      else if !c.dmaOk && c.len.toNat != 0 then (d.hostFail c.seat c.ring op c.flags.toNat, St.dmaErr, [])
      else f d
    d.complete c.seat c.ring op status c.tag.toNat c.flags.toNat result
  else d

/-- A command that may stay outstanding: `f` answers either its completion at once or the held form. -/
def Device.runHeld (d : Device) (c : CmdEntry) (op flagBits : Nat) (used : List (Nat × Nat)) (need : Nat) (part : Option Nat)
    (f : Device → Device × (Nat × List Byte) ⊕ Device × OutCmd) : Device :=
  if d.canTake c.seat c.ring op then
    let d := d.takeCmd c.seat c.ring op part
    if !cmdWellSpelt c flagBits used need then d.complete c.seat c.ring op St.badParam c.tag.toNat c.flags.toNat []
    else if !c.dmaOk && c.len.toNat != 0 then (d.hostFail c.seat c.ring op c.flags.toNat).complete c.seat c.ring op St.dmaErr c.tag.toNat c.flags.toNat []
    else match f d with
      | .inl (d, status, result) => d.complete c.seat c.ring op status c.tag.toNat c.flags.toNat result
      | .inr (d, o) => d.hold c.seat c.ring o
  else d

/-- Bytes written to a seat's host memory (R413: result buffers). -/
def Device.hostWrite (d : Device) (s a : Nat) (bs : List Byte) : Device :=
  d.modSeat s fun x => { x with hostMem := Mem.writeN 0 x.hostMem a bs }

/-! ### BARRIER (R417) -/

/-- The (ring, take number) pairs a BARRIER notes: every command already taken from the rings its mask names, its own
excepted. -/
def Device.barrierNotes (d : Device) (mask own : Nat) : List (Nat × Nat) :=
  ((List.range 16).filter fun i => bit mask i && i != own).map fun i => (i, ((d.seat (i / 8)).cring (i % 8)).taken)

/-- BARRIER: it completes at once when everything it notes has completed, and is held otherwise (R417). -/
def Device.barrier (d : Device) (c : CmdEntry) : Device :=
  d.runHeld c 0x14 0 [(16, 2)] 0 none fun d =>
    let o : OutCmd := ⟨0x14, c.tag.toNat, c.flags.toNat, 0, 0, [], d.barrierNotes (c.p 16 2) (ringIndex c.seat c.ring)⟩
    if d.barrierMet o then .inl (d, St.ok, []) else .inr (d, o)

/-! ### Doorbells (R408) -/

/-- DOORBELL_ERR (R408). -/
def Device.doorbellErr (d : Device) (s : Nat) : Device := d.setFlag (Off.seatStatus s) 0 true

/-- A command ring's tail doorbell: refused when the ring is disabled or the value is not below 2^LOG2 (R408). -/
def Device.cmdDoorbell (d : Device) (s r v : Nat) : Device :=
  if d.crEnabled s r && decide (v < d.crSize s r) then d.setFld (Off.seatCrTail s r) 15 0 v else d.doorbellErr s

/-- Whether a head value lies between the present head and the tail, both included (R408: the head must not pass the
tail). -/
def headWithin (n head tail v : Nat) : Bool := decide ((v + n - head) % n ≤ (tail + n - head) % n)

/-- A notice ring's head doorbell: refused when the ring is disabled, the value is not below 2^LOG2, or it would move the
head past the tail (R408). -/
def Device.noticeDoorbell (d : Device) (s r v : Nat) : Device :=
  let n := d.nrSize s r
  if d.nrEnabled s r && decide (v < n) &&
      headWithin n (d.fld (Off.seatNrHead s r) 15 0) (d.fld (Off.seatNrTail s r) 15 0) v then
    d.setFld (Off.seatNrHead s r) 15 0 v
  else d.doorbellErr s

/-- NR_COALESCE.TIME has passed since the first notice of the batch and the ring holds unconsumed notices: a message
(R411). TIME 0 sends at COUNT only (R428). -/
def Device.coalesceTimer (d : Device) (s r : Nat) : Device :=
  let n := (d.seat s).nring r
  let t := d.fld (Off.seatNrCoalesce s r) 15 0
  if t ≠ 0 ∧ n.since ≠ 0 ∧ n.first + 1000 * t ≤ d.transit ∧
      d.fld (Off.seatNrHead s r) 15 0 ≠ d.fld (Off.seatNrTail s r) 15 0 then d.sendMsix s r
  else d

/-! ### Presence (R400, R401) -/

/-- A ring's enable bit is written: a command or notice ring that becomes enabled starts its first pass (R410, R428). -/
def Device.ringsOff (d : Device) (s : Nat) : Device :=
  let d := (List.range 8).foldl (fun d r =>
    let d := d.setFlag (Off.seatCrCtl s r) 31 false
    let d := d.setFlag (Off.seatNrCtl s r) 31 false
    let d := (d.setFld (Off.seatCrHead s r) 15 0 0).setFld (Off.seatCrTail s r) 15 0 0
    (d.setFld (Off.seatNrHead s r) 15 0 0).setFld (Off.seatNrTail s r) 15 0 0) d
  d.modSeat s fun x => { x with nr := [], cr := x.cr.map fun (r, c) => (r, { c with pieces := [], mute := c.out.isSome }) }

/-- Whether the keepalive condition of R400 holds: a write of the seat within KEEPALIVE ms, a KEEPALIVE of 0 removing it. -/
def Device.keepaliveOk (d : Device) (s : Nat) : Bool :=
  let k := d.fld Off.seatIsland 15 0
  k == 0 || (d.seat s).lastKeep.any fun t => decide (d.transit ≤ t + 1000000 * k)

/-- SEAT_STATUS of a seat shows its presence, its link and whether it is the device owner (R428). -/
def Device.showSeat (d : Device) (s : Nat) : Device :=
  ((d.setFlag (Off.seatStatus s) 31 (d.present s)).setFld (Off.seatStatus s) 30 29 (d.seat s).link).setFlag
    (Off.seatStatus s) 2 (d.fld Off.seatOwner 1 0 = s)

/-- A write of SEAT_KEEPALIVE (R400). -/
def Device.keepalive (d : Device) (s : Nat) : Device := d.modSeat s fun x => { x with lastKeep := some d.transit }

/-- A seat whose link is up and whose bus master enable is set becomes present if its keepalive is current and its domain is not under
recovery (R400, R445). Its
rings stay disabled until its driver enables them (R401). -/
def Device.seatPresent (d : Device) (s link : Nat) : Device :=
  if d.present s || link == 0 || !d.keepaliveOk s || !d.domainOk 9 s then d
  else
    let d := d.modSeat s fun x => { x with present := true, link := link }
    (d.showSeat s).raise (seatSource s) Sev.info Cause.seatPresent s 0

/-! ### The device owner (R406) -/

/-- SEAT_OWNER names the device owner; SEAT_STATUS[2] of each seat shows whether it is the one. -/
def Device.nameOwner (d : Device) (o : Nat) : Device :=
  ((d.setFld Off.seatOwner 1 0 o).setFlag (Off.seatStatus 0) 2 (o = 0)).setFlag (Off.seatStatus 1) 2 (o = 1)

/-- The device owner changes, with its event. -/
def Device.setOwner (d : Device) (o : Nat) : Device := (d.nameOwner o).raise 419 Sev.info Cause.ownerChanged o 0

/-- Whether a claim of the device owner's role is accepted (R406): there is no owner, or the owner has been absent for
CLAIM_DELAY seconds, 0 being taken as 1. -/
def Device.claimOk (d : Device) : Bool :=
  let o := d.devOwner
  o == 2 || (!d.present o &&
    decide ((d.seat o).absentSince + 1000000000 * max 1 (d.fld Off.seatIsland 30 24) ≤ d.transit))

/-- A write of 1 to SEAT_CLAIM (R406). -/
def Device.claim (d : Device) (s : Nat) : Device := if d.claimOk then d.setOwner s else d

end Sys2Proof.Machine
end

