-- ==== Sys2Proof/Machine/Tables.lean ====
section
/-! DEFINITION. Classification tables: definitions and footprints, lookups, and the records that change them (R130 to R147,
R234, R542). -/

namespace Sys2Proof.Machine

/-! ### Definitions (R130, R137, R542) -/

def TableDef.num (t : TableDef) : Nat := fieldLE t.raw 0 1
def TableDef.kind (t : TableDef) : Nat := fieldLE t.raw 1 1
def TableDef.klen (t : TableDef) : Nat := fieldLE t.raw 2 1
def TableDef.cellBytes (t : TableDef) : Nat := 4 * 2 ^ fieldLE t.raw 3 1
def TableDef.log2 (t : TableDef) : Nat := fieldLE t.raw 4 1
def TableDef.blocks (t : TableDef) : Nat := fieldLE t.raw 5 1
def TableDef.res (t : TableDef) : Nat := fieldLE t.raw 6 1
def TableDef.part (t : TableDef) : Nat := fieldLE t.raw 7 1 % 16
def TableDef.shared (t : TableDef) : Bool := bit (fieldLE t.raw 7 1) 4
def TableDef.capacity (t : TableDef) : Nat := fieldLE t.raw 8 4

/-- The table kinds of R542. -/
def kTag : Nat := 0
def kHash : Nat := 1
def kTern : Nat := 2
def kLpm : Nat := 3

/-- Whether every field lies in the range R542 gives for its kind. -/
def TableDef.ok (t : TableDef) : Bool :=
  let z (i : Nat) : Bool := fieldLE t.raw i 1 == 0
  (match t.kind with
    | 0 => z 2 && decide (fieldLE t.raw 3 1 ≤ 2) && decide (t.log2 ≤ 20) && z 5 && decide (t.res ≤ 8) && t.capacity == 0
    | 1 => decide (1 ≤ t.klen ∧ t.klen ≤ 44) && z 3 && decide (t.log2 ≤ 20) && z 5 && z 6 && t.capacity == 0
    | 2 => decide (1 ≤ t.klen ∧ t.klen ≤ 20) && z 3 && z 4 && decide (1 ≤ t.blocks ∧ t.blocks ≤ 96) && z 6 && t.capacity == 0
    | 3 => decide (1 ≤ t.klen ∧ t.klen ≤ 18) && z 3 && z 4 && z 5 && decide (t.res ≤ 8) &&
        decide (1 ≤ t.capacity ∧ t.capacity ≤ 4194304)
    | _ => false) &&
  fieldLE t.raw 7 1 / 32 == 0 && (!t.shared || t.part == 0) && (List.range 20).all fun i => z (12 + i)

def TableDef.entryBytes (t : TableDef) : Nat := if t.klen ≤ 12 then 32 else 64

def TableDef.nodeBytes (t : TableDef) : Nat := if t.klen ≤ 5 then 32 else 64

/-- The footprint in bytes (R137). -/
def TableDef.footprint (t : TableDef) : Nat :=
  match t.kind with
  | 0 => 2 ^ t.log2 * t.cellBytes + 5 * ceilDiv (2 ^ t.log2) 256 * 4
  | 1 => 2 ^ t.log2 * 4 * t.entryBytes
  | 3 => t.capacity * t.nodeBytes
  | _ => 0

/-- The version reserve in bytes: the whole pages allocated for it (R137). -/
def TableDef.reserve (t : TableDef) : Nat := ceilDiv (t.footprint * t.res) (8 * 65536) * 65536

/-- The pool pages an instance takes. -/
def TableDef.pages (t : TableDef) : Nat := ceilDiv t.footprint 65536 + t.reserve / 65536

def TableDef.rows (t : TableDef) : Nat := if t.kind = kTern then t.blocks else 0

/-- An instance with nothing in it. -/
def Table.new (inst : Nat) (t : TableDef) : Table := ⟨inst, t, [], [], [], [], []⟩

/-! ### Cells and results (R59, R131, R132) -/

def cellValid (c : BitVec 128) : Bool := c.getLsbD 0

/-- A cell as stored: bit 1 is 0, and data beyond the cell's size is not held. -/
def storedCell (bytes : Nat) (c : BitVec 128) : BitVec 128 :=
  BitVec.ofNat 128 (setBits (c.toNat % 2 ^ (8 * bytes)) 1 1 0)

/-- The result of a hit: hit bit, status and data of the cell. -/
def cellResult (c : BitVec 128) : BitVec 128 :=
  BitVec.ofNat 128 (2 ^ 127 + bits c.toNat 7 2 * 2 ^ 120 + c.toNat / 2 ^ 8 % 2 ^ 120)

/-- The result of a lookup that met an uncorrectable error (R147). -/
def errorResult : BitVec 128 := BitVec.ofNat 128 (2 ^ 126)

/-! ### Lookups (R132 to R136, R138, R147) -/

/-- The version of a directory page: the instance for a page in the table's footprint, the number of the copy for one in its
reserve, or 0x1_0000 for the all-invalid page a CLEAR names (R139). -/
def Table.pageVersion (t : Table) (p : Nat) : Nat := NMap.getD t.pages p t.inst

/-- LKT: the cell at an index; an index at or above 2^n is a miss and reads no cell. -/
def Table.lkt (t : Table) (bad : List DamagedWord) (idx : Nat) : BitVec 128 :=
  let hurt := bad.any fun w => match w with
    | .cell i v => i == idx && v == t.pageVersion (idx / 256)
    | .page _ p => p == idx / 256
    | _ => false
  if 2 ^ t.defn.log2 ≤ idx then 0
  else if hurt then errorResult
  else
    let c := NMap.getD t.tags idx 0
    if cellValid c then cellResult c else 0

/-- The candidate buckets of a key (R134); a table of one bucket has no second. -/
def Table.buckets (t : Table) (key : List Byte) : Nat × Nat :=
  let s := key ++ [BitVec.ofNat 8 t.defn.num]
  let n := 2 ^ t.defn.log2
  let a := h1 s % n
  let b := h2 s % n
  (a, if a = b ∧ 1 < n then a ^^^ 1 else b)

/-- LKH: hits on a valid entry of the key. An error in either bucket gives the error result; a damaged entry is taken to lie in
the first bucket of its key (DEDUCED, assumption log, entry 15). -/
def Table.lkh (t : Table) (bad : List DamagedWord) (key : List Byte) : BitVec 128 :=
  let (a, b) := t.buckets key
  let err := bad.any fun w => match w with
    | .entry k _ => let x := (t.buckets k).1; x == a || x == b
    | _ => false
  if err then errorResult
  else match t.entries.find? fun e => e.key == key && cellValid e.cell with
    | some e => cellResult e.cell
    | none => 0

def andB (a b : List Byte) : List Byte := List.zipWith (fun x y => x &&& y) a b

/-- LKX: the lowest matching row with a valid cell. -/
def Table.lkx (t : Table) (bad : List DamagedWord) (key : List Byte) : BitVec 128 :=
  if bad.any fun w => match w with | .entry _ _ => true | _ => false then errorResult
  else match t.entries.find? fun e => cellValid e.cell && andB key e.mask == andB e.key e.mask with
    | some e => cellResult e.cell
    | none => 0

/-- The first `n` bits of a key, the rest 0. -/
def keyPrefix (key : List Byte) (n : Nat) : List Byte :=
  key.zipIdx.map fun (b, i) =>
    let k := min 8 (n - 8 * i)
    BitVec.ofNat 8 (b.toNat / 2 ^ (8 - k) * 2 ^ (8 - k))

/-- LKP: the longest valid matching prefix, with its length. A walk reads every node that lies on its key, and the data of the
prefix it finds (R147). -/
def Table.lkp (t : Table) (bad : List DamagedWord) (key : List Byte) : BitVec 128 :=
  let hit := (t.prefixes.filter fun p => cellValid p.cell && keyPrefix key p.plen == p.key).foldl
    (fun (b : Option Prefix) p => match b with
      | none => some p
      | some q => if q.plen < p.plen then some p else some q) none
  let onWalk := bad.any fun w => match w with
    | .node k n _ => keyPrefix key n == k
    | _ => false
  if onWalk then errorResult
  else match hit with
  | none => 0
  | some p =>
    let hurt := bad.any fun w => match w with
      | .prefix_ k n _ => k == p.key && n == p.plen
      | _ => false
    if hurt then errorResult
    else BitVec.ofNat 128 (2 ^ 127 + p.plen * 2 ^ 64 + p.cell.toNat / 2 ^ 8 % 2 ^ 56)

/-! ### Records (R140, R142 to R144, R234) -/

/-- The fields of a table record (R143). -/
def recTable (b : List Byte) : Nat := fieldLE b 0 1
def recOp (b : List Byte) : Nat := fieldLE b 1 1
def recKlen (b : List Byte) : Nat := fieldLE b 2 1
def recPlen (b : List Byte) : Nat := fieldLE b 3 1
def recPrio (b : List Byte) : Nat := fieldLE b 4 2
def recKey (b : List Byte) (n : Nat) : List Byte := sliceB b 8 n
def recMask (b : List Byte) (n : Nat) : List Byte := sliceB b 56 n
def recCell (b : List Byte) : BitVec 128 := BitVec.ofNat 128 (fieldLE b 80 16)

def allZero (l : List Byte) : Bool := l.all (· == 0)

/-- The operations a table kind has. -/
def opFits (kind op : Nat) : Bool := if kind = kTag then op == 1 || op == 4 else decide (2 ≤ op ∧ op ≤ 4)

/-- The conditions of BAD_RECORD for a record of a defined table (R144). -/
def recordBad (t : TableDef) (b : List Byte) : Bool :=
  !opFits t.kind (recOp b) || recKlen b != t.klen ||
  (if t.kind = kTag then decide (2 ^ t.log2 ≤ fieldLE b 8 4) || !allZero (sliceB b 12 44)
    else !allZero (sliceB b (8 + t.klen) (48 - t.klen))) ||
  (if t.kind = kTern then !allZero (sliceB b (56 + t.klen) (20 - t.klen)) else !allZero (sliceB b 56 20)) ||
  decide (8 * t.klen < recPlen b) || (t.kind != kTern && recPrio b != 0) ||
  !allZero (sliceB b 6 2) || !allZero (sliceB b 76 4)

/-- Versions of hash or ternary entries that an instance stores: those any of the coats sees, each once (R137, R138). -/
def storedVersions (views : List Table) : Nat :=
  ((views.flatMap fun t => t.entries.map fun e => (e.key, e.mask, e.prio, e.from_)).dedup).length

def emptyPage : Nat := 65536

/-- The number of a page copy that the staging coat `id` makes: in a table of its own making, where only a page after a CLEAR is
one, a number that is no coat's. -/
def Table.copyVersion (t : Table) (id : Nat) : Nat := if t.inst = id then id + 131072 else id

/-- The coat that made a page copy. -/
def copyOwner (v : Nat) : Nat := v % 65536

/-- The 256-cell pages in the reserve: the copies in any of the views, each once (R137, R139). -/
def reservePages (views : List Table) : Nat :=
  (((views.flatMap fun t => t.pages.filter fun p => p.2 ≠ t.inst ∧ p.2 ≠ emptyPage)).dedup).length

/-- Replaces the entry that satisfies `q` by `e`, in place; adds `e` by ascending priority, behind its equals, when there is
none (R135). -/
def putEntry (q : Entry → Bool) (e : Entry) (l : List Entry) : List Entry :=
  if l.any q then l.map fun x => if q x then e else x
  else (l.takeWhile fun x => decide (x.prio ≤ e.prio)) ++ [e] ++ (l.dropWhile fun x => decide (x.prio ≤ e.prio))

/-- One record on a table as the staging coat `id` sees it. `views`: the same instance as the other coats see it. `nodes`: the
trie nodes Darby copies for it, none where the staging coat already has its own. Answers the new table, or the status of
R144. Bits of the key beyond PLEN are dropped (DESIGN CHOICE, log, entry 127). -/
def Table.apply (t : Table) (id : Nat) (views : List Table) (nodes : Nat) (b : List Byte) : Except Nat Table :=
  let df := t.defn
  let key := recKey b df.klen
  let mask := if df.kind = kTern then recMask b df.klen else []
  if recordBad df b then .error St.badRecord
  else if recOp b = 4 then
    .ok { t with
      tags := []
      pages := if df.kind = kTag then (List.range (ceilDiv (2 ^ df.log2) 256)).map fun p => (p, emptyPage) else []
      entries := [], prefixes := [] }
  else if df.kind = kTag then
    let i := fieldLE b 8 4
    let p := i / 256
    let own := t.pageVersion p
    let t' := { t with tags := DMap.put (fun _ => 0) t.tags i (storedCell df.cellBytes (recCell b)) }
    let t'' := { t' with pages := NMap.set t.pages p (t.copyVersion id) }
    if own = t.copyVersion id ∨ own = id then .ok t'
    else if reservePages (t'' :: views) ≤ df.reserve / (256 * df.cellBytes) then .ok t''
    else .error St.noSpace
  else if df.kind = kLpm then
    let k := keyPrefix key (recPlen b)
    let same (p : Prefix) : Bool := p.key == k && p.plen == recPlen b
    let rest := t.prefixes.filter fun p => !same p
    let cost := if t.inst = id then 0 else nodes * df.nodeBytes
    let used := (t.copied.map (·.2)).sum
    let t' := { t with
      prefixes := if recOp b = 2 then rest ++ [⟨k, recPlen b, storedCell 16 (recCell b)⟩] else rest
      copied := if cost = 0 then t.copied else NMap.set t.copied id (NMap.getD t.copied id 0 + cost) }
    if recOp b = 3 ∧ !t.prefixes.any same then .error St.notFound
    else if df.capacity < t'.prefixes.length ∨ df.reserve < used + cost ∧ cost ≠ 0 then .error St.noSpace
    else .ok t'
  else
    let tern := df.kind = kTern
    let same (e : Entry) : Bool := e.key == key && (!tern || (e.mask == mask && e.prio == recPrio b))
    if recOp b = 3 then
      if t.entries.any same then .ok { t with entries := t.entries.filter fun e => !same e } else .error St.notFound
    else
      let t' := { t with entries := putEntry same ⟨key, mask, recPrio b, id, storedCell 16 (recCell b)⟩ t.entries }
      let limit := if tern then 1024 * df.blocks else 4 * 2 ^ df.log2 * 85 / 100
      if storedVersions (t' :: views) ≤ limit then .ok t' else .error St.noSpace

/-- Whether a table is as a record would leave it (R106). -/
def Table.holds (t : Table) (b : List Byte) : Bool :=
  let df := t.defn
  let key := recKey b df.klen
  if recordBad df b then true
  else if recOp b = 4 then t.tags.isEmpty && t.entries.isEmpty && t.prefixes.isEmpty
  else if df.kind = kTag then DMap.get (fun _ => 0) t.tags (fieldLE b 8 4) == storedCell df.cellBytes (recCell b)
  else if df.kind = kLpm then
    match t.prefixes.find? fun p => p.key == keyPrefix key (recPlen b) && p.plen == recPlen b with
    | some p => recOp b != 3 && p.cell == storedCell 16 (recCell b)
    | none => recOp b == 3
  else
    let tern := df.kind = kTern
    match t.entries.find? fun e => e.key == key && (!tern || (e.mask == recMask b df.klen && e.prio == recPrio b)) with
    | some e => recOp b != 3 && e.cell == storedCell 16 (recCell b)
    | none => recOp b == 3

/-- Serial comparison of coat identifiers (R138). -/
def coatGe (a b : Nat) : Bool := decide ((a + 65536 - b) % 65536 < 32768)

/-- A table record on a coat. A table the coat does not define is BAD_RECORD. -/
def Coat.applyRecord (c : Coat) (others : List Coat) (nodes : Nat) (b : List Byte) : Except Nat Coat :=
  match NMap.get? c.tables (recTable b) with
  | none => .error St.badRecord
  | some t =>
    let views := (others.filterMap fun o => NMap.get? o.tables (recTable b)).filter fun v => v.inst == t.inst
    (t.apply c.id views nodes b).map fun t' => { c with tables := NMap.set c.tables (recTable b) t' }

/-- A replication record on a coat (R234, R414). -/
def Coat.applyRepl (c : Coat) (b : List Byte) : Except Nat Coat :=
  let group := fieldLE b 8 2
  let i := fieldLE b 10 2
  if (recOp b != 1 && recOp b != 4) || decide (511 < i) || !allZero (sliceB b 6 2) || !allZero (sliceB b 76 4) then
    .error St.badRecord
  else if recOp b = 4 then .ok { c with repl := c.repl.filter fun p => p.1 / 512 ≠ group }
  else
    let e := BitVec.ofNat 16 (fieldLE b 80 2)
    let repl := DMap.put (fun _ => 0) c.repl (group * 512 + i) e
    if (repl.filter fun p => p.2.getLsbD 15).length ≤ 1048576 then .ok { c with repl := repl } else .error St.noSpace

/-! ### TABLE_READ (R145) -/

/-- The full record of an entry: its OP is WRITE for a tag cell and INSERT otherwise (DEDUCED, assumption log, entry 16). -/
def recordOf (df : TableDef) (op plen prio : Nat) (key mask : List Byte) (cell : BitVec 128) : List Byte :=
  [BitVec.ofNat 8 df.num, BitVec.ofNat 8 op, BitVec.ofNat 8 df.klen, BitVec.ofNat 8 plen] ++ bytesLE 2 prio ++ [0, 0] ++
    fitB 48 key ++ fitB 20 mask ++ bytesLE 4 0 ++ bytesLE 16 cell.toNat

/-- The entry a record names, as a coat sees it. A table that the view does not define is BAD_RECORD, and KLEN is not checked (DESIGN CHOICE,
log, entry 127). -/
def Coat.readRecord (c : Coat) (b : List Byte) : Except Nat (List Byte) :=
  match NMap.get? c.tables (recTable b) with
  | none => .error St.badRecord
  | some t =>
    let df := t.defn
    let key := recKey b df.klen
    if df.kind = kTag then
      let i := fieldLE b 8 4
      if 2 ^ df.log2 ≤ i then .error St.badRecord
      else .ok (recordOf df 1 0 0 (bytesLE 4 i) [] (NMap.getD t.tags i 0))
    else if df.kind = kLpm then
      let k := keyPrefix key (recPlen b)
      match t.prefixes.find? fun p => p.key == k && p.plen == recPlen b with
      | some p => .ok (recordOf df 2 p.plen 0 p.key [] p.cell)
      | none => .error St.notFound
    else
      let tern := df.kind = kTern
      match t.entries.find? fun e =>
          e.key == key && (!tern || (e.mask == recMask b df.klen && e.prio == recPrio b)) with
      | some e => .ok (recordOf df 2 0 e.prio e.key e.mask e.cell)
      | none => .error St.notFound

/-- The replication entry a record names. -/
def Coat.readRepl (c : Coat) (b : List Byte) : Except Nat (List Byte) :=
  let i := fieldLE b 10 2
  if 511 < i then .error St.badRecord
  else
    let e := NMap.getD c.repl (fieldLE b 8 2 * 512 + i) 0
    .ok ([0, 1, 0, 0] ++ bytesLE 4 0 ++ fitB 48 (sliceB b 8 4) ++ fitB 24 [] ++ fitB 16 (bytesLE 2 e.toNat))

end Sys2Proof.Machine
end

