-- ==== Sys2Proof/Machine/Loader.lean ====
section
/-! DEFINITION. The loader: what each slot of a step word reads, writes and breaks, and the rules of R118 over a whole coat
(R32 to R34, R38, R42, R44, R51 to R55, R60 to R65, R83, R84, R86 to R89, R104, R116, R118, R146, R543). -/

namespace Sys2Proof.Machine

/-- A place an instruction reads or writes (R53, R54). -/
inductive Loc where
  | reg (n : Nat) | pred (n : Nat) | kslot (n : Nat) | kbyte (n : Nat) | f
deriving DecidableEq, Repr

/-- One instruction of a slot as the loader sees it: its slot, the codes it breaks by itself, its predicate, what it reads and
writes, and the latency of its writes. -/
structure LInst where
  slot : Nat
  op : Nat
  codes : List Nat
  pi : Nat
  ps : Bool
  reads : List Loc
  writes : List Loc
  lat : Nat
deriving DecidableEq, Repr

/-! The verification codes of R118. -/

namespace Code
def format : Nat := 0x01
def opcode : Nat := 0x02
def field : Nat := 0x03
def register : Nat := 0x04
def reason : Nat := 0x05
def successor : Nat := 0x06
def resultReady : Nat := 0x07
def writeConflict : Nat := 0x08
def lateLookup : Nat := 0x09
def flowLimit : Nat := 0x0A
def editLimit : Nat := 0x0B
def entry : Nat := 0x0C
def space : Nat := 0x0D
def range : Nat := 0x0E
def table : Nat := 0x0F
end Code

def codeIf (b : Bool) (c : Nat) : List Nat := if b then [c] else []

/-- A register specifier in line form: no s register (R34). -/
def lineReg (n : Nat) : List Nat := codeIf (decide (48 ≤ n)) Code.register

/-- A destination in line form: no s register and none of m0 to m6 (R34, R36). -/
def lineDest (n : Nat) : List Nat := codeIf (decide (48 ≤ n) || decide (32 ≤ n ∧ n ≤ 38)) Code.register

/-- The predicate a result is written to; p0 keeps 1. -/
def predLoc (n : Nat) : List Loc := if n = 0 then [] else [.pred n]

def kBytes (o n : Nat) : List Loc := (List.range n).map fun i => .kbyte (o + i)

/-- An immediate reason a program may name (R38). -/
def reasonOk (r : Nat) : Bool := r == 0 || decide (0x40 ≤ r ∧ r ≤ 0x5F)

/-- Codes, reads, writes and latency of an instruction, by its opcode and operand bits `x` = [51:0] (R52, R57 to R71). FLD to m0 to
m6 is REGISTER (DEDUCED, log, entry 34), REG = 1 counts for FWD alone and a range past byte 63 of W is RANGE (DESIGN CHOICE, log,
entries 75 and 76). -/
def lineOperands (op x : Nat) : List Nat × List Loc × List Loc × Nat :=
  let b := bits x
  let hi6 := b 51 46
  let r2 := b 45 40
  let r3 := b 39 34
  let i33 := b 33 33 == 1
  let srcR : List Loc := if i33 then [] else [.reg r3]
  let srcC : List Nat := if i33 then [] else lineReg r3
  -- the two-operand ALU instructions of format A
  if op ≤ 0x09 then (lineDest hi6 ++ lineReg r2 ++ srcC, .reg r2 :: srcR, [.reg hi6], 1)
  else match op with
  | 0x0A => (codeIf (b 32 32 != 0) Code.field ++ lineReg r2 ++ srcC, .reg r2 :: srcR, predLoc (b 48 46), 1)
  | 0x0B => (codeIf (b 32 32 != 0 || b 51 49 != 0) Code.field ++ lineReg r2 ++ srcC, .reg r2 :: srcR, predLoc (b 48 46), 1)
  | 0x0C => (codeIf (b 32 32 != 0) Code.field ++ lineDest hi6 ++ lineReg r2, [.reg r2], [.reg hi6], 1)
  | 0x0D => (codeIf (b 32 32 != 0) Code.field ++ lineDest hi6, [], [.reg hi6], 1)
  | 0x0E => (codeIf i33 Code.field ++ lineDest hi6 ++ lineReg r2 ++ lineReg r3,
      [.reg r2, .reg r3] ++ predLoc (b 2 0), [.reg hi6], 1)
  | 0x0F =>
    let fn := b 33 32
    (codeIf (decide (fn < 2) && b 31 0 != 0) Code.field ++ codeIf (decide (48 < r2 + r3)) Code.range ++ lineDest hi6,
      kBytes r2 r3, [.reg hi6], 2)
  | 0x10 =>
    let fn := b 33 32
    let len := if r3 = 0 then 64 else r3
    (codeIf (fn == 3 || (fn == 0 && len % 2 == 1)) Code.field ++ codeIf (decide (64 < r2 + len)) Code.range ++ lineDest hi6,
      [], [.reg hi6], 2)
  | 0x11 => (lineDest hi6 ++ srcC, srcR, [.reg hi6], 1)
  | 0x20 =>
    let len := b 36 32 + 1
    let k := b 31 31 == 1
    let reg := b 30 30 == 1
    let lim := if k then 384 else 512
    (codeIf (b 23 0 != 0) Code.field ++ codeIf (decide (lim < b 45 37 + len)) Code.range ++ lineDest hi6 ++
        (if reg then lineReg (b 29 24) else []),
      (if reg then [.reg (b 29 24)] else []) ++ (if k then kBytes (b 45 37 / 8) ((b 45 37 % 8 + len + 7) / 8) else []),
      [.reg hi6], 1)
  | 0x21 => (codeIf (b 30 0 != 0) Code.field ++ codeIf (decide (128 < b 42 36 + b 35 31 + 1)) Code.range ++ lineDest hi6,
      [.kslot (b 45 43)], [.reg hi6], 1)
  | 0x22 => (codeIf (b 27 0 != 0) Code.field ++ codeIf (decide (32 < r3 + b 33 28 + 1)) Code.range ++ lineDest hi6 ++ lineReg r2,
      [.reg r2, .reg hi6], [.reg hi6], 1)
  | 0x23 =>
    let len := b 45 41
    let reg := b 40 40 == 1
    (codeIf (b 33 0 != 0 || len == 0 || decide (16 < len) || (reg && decide (4 < len))) Code.field ++
        codeIf (decide (48 < hi6 + len) || (!reg && decide (64 < r3 + len))) Code.range ++ (if reg then lineReg r3 else []),
      (if reg then [.reg r3] else []), kBytes hi6 len, 1)
  | 0x24 =>
    let reg := b 43 43 == 1
    (codeIf (b 36 0 != 0) Code.field ++ (if reg then lineReg (b 42 37) else []), (if reg then [.reg (b 42 37)] else []), [], 1)
  | 0x30 => (lineReg (b 25 20), [.reg (b 25 20)], .kslot (b 43 41) :: predLoc (b 40 38), 2)
  | 0x31 => (codeIf (decide (48 < b 37 32 + b 31 26)) Code.range, kBytes (b 37 32) (b 31 26),
      .kslot (b 43 41) :: predLoc (b 40 38), 4)
  | 0x32 => (codeIf (decide (20 < b 31 26) || decide (48 < b 37 32 + b 31 26)) Code.range,
      kBytes (b 37 32) (b 31 26), .kslot (b 43 41) :: predLoc (b 40 38), 3)
  | 0x33 => (codeIf (decide (48 < b 37 32 + b 31 26)) Code.range, kBytes (b 37 32) (b 31 26),
      .kslot (b 43 41) :: predLoc (b 40 38), 5)
  | 0x34 => (codeIf (b 51 48 != 0) Code.field ++
        codeIf (b 31 26 == 0 || decide (48 < b 37 32 + b 31 26)) Code.range,
      kBytes (b 37 32) (b 31 26), [.kslot (b 43 41), .reg 36, .f] ++ predLoc (b 40 38), 4)
  | 0x40 =>
    let n := 2 ^ b 38 37
    (codeIf (b 45 39 % n != 0 || decide (128 < b 45 39 + n)) Code.range ++ lineReg hi6, [.f],
      (if 32 ≤ hi6 ∧ hi6 ≤ 38 then [] else [.reg hi6]), 1)
  | 0x41 =>
    let n := 2 ^ b 38 37
    (codeIf (b 45 39 % n != 0 || decide (128 < b 45 39 + n) || decide (b 45 39 < 80)) Code.range ++ lineReg hi6 ++
        (if n = 8 then lineReg (b 36 31) else []),
      .reg hi6 :: (if n = 8 then [.reg (b 36 31)] else []), [], 1)
  | 0x42 =>
    let n := 2 ^ b 38 37
    let imm := b 24 24 == 1
    (codeIf (decide (n < 4)) Code.field ++
        codeIf (b 45 39 % n != 0 || decide (128 < b 45 39 + n) || decide (b 45 39 < 80)) Code.range ++
        (if imm then [] else lineReg hi6 ++ (if n = 8 then lineReg (b 36 31) else [])),
      (if imm then [] else .reg hi6 :: (if n = 8 then [.reg (b 36 31)] else [])), [], 1)
  | 0x43 =>
    let n := 2 ^ b 38 37
    let rb := b 36 31
    (codeIf (decide (n < 4)) Code.field ++
        codeIf (b 45 39 % n != 0 || decide (128 < b 45 39 + n) || decide (b 45 39 < 80)) Code.range ++
        (if n = 8 then codeIf (decide (30 < hi6) || decide (30 < rb)) Code.register else lineReg hi6 ++ lineReg rb),
      [.reg hi6, .reg rb] ++ (if n = 8 then [.reg (hi6 + 1), .reg (rb + 1)] else []), predLoc (b 30 28), 2)
  | 0x44 => (codeIf (b 45 39 % 8 != 0 || decide (128 < b 45 39 + 8) || decide (b 45 39 < 80)) Code.range, [], [], 1)
  | 0x45 => (codeIf (b 29 0 != 0) Code.field ++
        codeIf (b 41 36 == 0 || decide (48 < b 47 42 + b 41 36)) Code.range ++ lineReg (b 35 30),
      [.reg 32, .reg (b 35 30)] ++ kBytes (b 47 42) (b 41 36), [], 1)
  | 0x50 | 0x52 =>
    let len := b 45 41
    let reg := b 40 40 == 1
    let n := ceilDiv len 4
    (codeIf (len == 0 || decide (16 < len) || (!reg && decide (4 < len))) Code.field ++
        codeIf (op == 0x52 && decide (64 < hi6 + len)) Code.range ++
        (if reg then codeIf (decide (48 < r3 + n)) Code.register else []),
      (if reg then (List.range n).map fun k => .reg (r3 + k) else []), [], 1)
  | 0x51 => (codeIf (b 45 41 == 0 || decide (16 < b 45 41)) Code.field ++
      codeIf (decide (64 < hi6 + b 45 41)) Code.range, [], [], 1)
  | 0x53 => (codeIf (b 23 0 != 0) Code.field ++ codeIf (decide (48 < b 36 31 + (if b 51 51 = 1 then 16 else 4)) ||
      (b 49 49 == 1 && decide (48 < b 30 25 + 2))) Code.range, [], [], 1)
  | 0x54 => (codeIf (b 33 0 != 0 || b 45 44 == 3) Code.field ++ codeIf (decide (64 < hi6 + (if b 45 44 = 0 then 10 else 8)) ||
      (b 40 40 == 1 && decide (64 < r3 + 2))) Code.range, [], [], 1)
  | 0x55 => (codeIf (x != 0) Code.field, [], [], 1)
  | 0x56 => (codeIf (b 39 0 != 0) Code.field, [], [], 1)
  | 0x60 | 0x61 | 0x62 | 0x63 | 0x64 | 0x65 | 0x66 | 0x67 | 0x68 | 0x69 =>
    let v := b 51 32
    let reg := b 31 31 == 1
    let ra := b 30 25
    let fromReg := reg && (decide (op ≤ 0x64) || op == 0x67)
    let valBits := match op with
      | 0x60 => 10 | 0x61 => 8 | 0x62 => 16 | 0x63 => 6 | 0x64 => 20 | 0x65 => 10 | 0x66 => 9 | 0x69 => 6 | _ => 8
    let badVal := match op with
      | 0x60 => decide (511 < v)
      | 0x63 => b 36 35 == 3
      | 0x65 => decide (511 < v) && v != 516
      | 0x61 => b 24 24 == 1
      | _ => false
    let badReason := match op with
      | 0x66 | 0x68 => !reasonOk (v % 256)
      | 0x67 => !reg && !reasonOk (v % 256)
      | _ => false
    -- a bad register target, and a RECIRC of pass 3, write a reason as a DROP and a TOSCAF do
    let m7 : List Loc := if (op = 0x60 ∧ reg) ∨ (0x66 ≤ op ∧ op ≤ 0x69) then [.reg 39] else []
    let dst : List Loc := if op = 0x63 then [.reg 34] else if op = 0x64 then [.reg 37] else if op = 0x65 then [] else [.reg 35]
    (codeIf (b 22 0 != 0 || ((!fromReg || op == 0x61) && badVal) || decide (2 ^ valBits ≤ v)) Code.field ++
        codeIf badReason Code.reason ++
        codeIf (op == 0x69 && reg) Code.entry ++ (if fromReg then lineReg ra else []),
      (if fromReg then [.reg ra] else []) ++ (if op = 0x61 then (if b 24 23 = 0 then [.reg 32, .reg 36] else [.reg 40]) else []), dst ++ m7, 1)
  | 0x70 => (codeIf (b 44 0 != 0) Code.field, predLoc (b 51 49) ++ (if b 45 45 = 1 then predLoc (b 48 46) else []), [], 1)
  | 0x71 => (codeIf (x != 0) Code.field, [], [], 1)
  | 0x80 | 0x82 => (lineDest hi6, [], [.reg hi6], 1)
  | 0x81 => (codeIf (b 51 49 != 0) Code.field ++ (if b 34 34 = 1 then [] else lineReg (b 40 35)),
      (if b 34 34 = 1 then [] else [.reg (b 40 35)]), predLoc (b 48 46), 1)
  | 0x83 => (codeIf (b 51 49 != 0) Code.field ++ lineReg (b 40 35), [.reg (b 40 35)], predLoc (b 48 46), 1)
  | _ => ([Code.opcode], [], [], 1)

/-- Whether an opcode is available in ingress or in egress stations (R32). -/
def lineAvailable (egress : Bool) (op : Nat) : Bool :=
  if egress then
    decide (op ≤ 0x11) || decide (0x20 ≤ op ∧ op ≤ 0x22) || op == 0x30 || op == 0x40 || decide (0x50 ≤ op ∧ op ≤ 0x56) ||
      op == 0x65 || op == 0x68 || op == 0x70 || op == 0x71 || decide (0x80 ≤ op ∧ op ≤ 0x83)
  else
    decide (op ≤ 0x11) || decide (0x20 ≤ op ∧ op ≤ 0x24) || decide (0x30 ≤ op ∧ op ≤ 0x34) ||
      decide (0x40 ≤ op ∧ op ≤ 0x45) || decide (0x50 ≤ op ∧ op ≤ 0x56) || decide (0x60 ≤ op ∧ op ≤ 0x69) || op == 0x70 ||
      op == 0x71 || decide (0x80 ≤ op ∧ op ≤ 0x83)

/-- The opcodes a slot accepts (R84). -/
def slotTakes (slot op : Nat) : Bool :=
  match slot with
  | 0 | 1 => decide (op ≤ 0x2F) || decide (0x80 ≤ op ∧ op ≤ 0x8F)
  | 2 => decide (0x30 ≤ op ∧ op ≤ 0x3F)
  | 3 => decide (0x40 ≤ op ∧ op ≤ 0x5F)
  | 4 => decide (0x60 ≤ op ∧ op ≤ 0x6F)
  | _ => op == 0x70 || op == 0x71

/-- The empty slot word (R84). -/
def emptySlot : Nat := 0x0080000000000000

/-- One slot of a step word; none for an empty slot. -/
def slotInst (egress : Bool) (slot w : Nat) : Option LInst :=
  if slot < 5 ∧ w = emptySlot then none
  else
    let op := bits w 63 56
    let (codes, reads, writes, lat) := lineOperands op (w % 2 ^ 52)
    let pi := bits w 54 52
    let ps := bit w 55
    some { slot := slot, op := op, pi := pi, ps := ps, lat := lat, writes := writes, reads := predLoc pi ++ reads,
           codes := (if !slotTakes slot op || !lineAvailable egress op then [Code.opcode] else codes) ++
             codeIf (slot == 5 && (pi != 0 || ps)) Code.field }

/-- Whether an instruction can execute: its predicate is not the constant "never" (R49). -/
def LInst.live (i : LInst) : Bool := !(i.pi == 0 && i.ps)

/-- A step word as the loader sees it: its instructions, successors, lookup, edit and RECIRC. -/
structure WInfo where
  word : Nat
  insts : List LInst
deriving DecidableEq, Repr

def slotWord (w slot : Nat) : Nat := bits w (511 - 64 * slot) (448 - 64 * slot)

def wordInfo (egress : Bool) (w : BitVec 512) : WInfo :=
  ⟨w.toNat, (List.range 6).filterMap fun s => slotInst egress s (slotWord w.toNat s)⟩

def WInfo.liveInsts (w : WInfo) : List LInst := w.insts.filter LInst.live

def WInfo.succ (w : WInfo) (n : Nat) : Nat := bits w.word (91 + 12 * n) (80 + 12 * n)

def WInfo.cword (w : WInfo) : Nat := slotWord w.word 5

/-- The successors a NEXT can choose: p0 reads 1, and one predicate named twice reads the same (R49, R86, R88). -/
def WInfo.succs (w : WInfo) : List Nat :=
  let c := w.cword
  if bits c 63 56 ≠ 0x70 then []
  else if bit c 45 then
    let sa := bits c 51 49
    let sb := bits c 48 46
    let ns := if sa = 0 ∧ sb = 0 then [3] else if sa = 0 then [1, 3] else if sb = 0 then [2, 3] else if sa = sb then [0, 3] else [0, 1, 2, 3]
    ns.map w.succ
  else if bits c 51 49 = 0 then [w.succ 1]
  else [w.succ 0, w.succ 1]

/-- The SUCCESSOR rule of one word (R86, R88, R89): `next` is the coat's word count of the next station, none in the last. -/
def WInfo.succBad (w : WInfo) (next : Option Nat) : Bool :=
  let c := w.cword
  if bits c 63 56 = 0x71 then (List.range 4).any fun n => w.succ n != 0
  else match next with
    | none => true
    | some k =>
      (!bit c 45 && (w.succ 2 != 0 || w.succ 3 != 0)) || (!bit c 45 && bits c 51 49 == 0 && w.succ 0 != 0) ||
        (if bit c 45 then (List.range 4).map w.succ else w.succs).any fun s => decide (k ≤ s)

/-- Flow updates that can execute in a word (R63). -/
def WInfo.upds (w : WInfo) : Nat := (w.liveInsts.filter fun i => decide (0x41 ≤ i.op ∧ i.op ≤ 0x44)).length

def WInfo.lkfs (w : WInfo) : Nat := (w.liveInsts.filter fun i => i.op == 0x34).length

/-- The edit of a word: the most it can add to a frame, and whether it is a TSI (R65). A POP that a predicate can keep from executing
may take nothing away. -/
def WInfo.edit (w : WInfo) : Option (Int × Bool) :=
  (w.liveInsts.find? fun i => decide (0x50 ≤ i.op ∧ i.op ≤ 0x56)).map fun i =>
    let len : Int := (bits (slotWord w.word 3) 45 41 : Nat)
    match i.op with
    | 0x50 => (len, false)
    | 0x51 => (if i.pi = 0 then -len else 0, false)
    | 0x54 => (0, true)
    | 0x55 => (4, false)
    | 0x56 => (6, false)
    | _ => (0, false)

/-- The entry point of a RECIRC that can execute. -/
def WInfo.recirc (w : WInfo) : Option Nat :=
  (w.liveInsts.find? fun i => i.op == 0x69).map fun _ => bits (slotWord w.word 4) 37 32

/-- The table a lookup names, with its kind and key length. -/
def WInfo.look (w : WInfo) : Option (Nat × Nat × Nat) :=
  (w.insts.find? fun i => decide (0x30 ≤ i.op ∧ i.op ≤ 0x33)).map fun i =>
    let x := slotWord w.word 2
    (bits x 51 44, i.op - 0x30, if i.op = 0x30 then 0 else bits x 31 26)

/-! ### Programs as lists of stations -/

/-- The words of a program, station by station. -/
abbrev Prog := List (List WInfo)

def progOf (egress : Bool) (n : Nat) (steps : NMap (List (BitVec 512))) : Prog :=
  (List.range n).map fun st => (NMap.getD steps st []).map (wordInfo egress)

def Prog.at (p : Prog) (st i : Nat) : Option WInfo := (p.getD st []).getD i ⟨0, []⟩ |> fun w =>
  if i < (p.getD st []).length then some w else none

/-- The words of each station that lie on a path of one pass from the starting indices. -/
def reachFrom : Prog → List Nat → List (List Nat)
  | [], _ => []
  | ws :: rest, is =>
    let here := (is.filter fun i => decide (i < ws.length)).dedup
    here :: reachFrom rest (here.flatMap fun i => (ws.getD i ⟨0, []⟩).succs).dedup

/-- One failure: code, station in STN numbering, word index, slot. -/
abbrev Fail := Nat × Nat × Nat × Nat

/-- The order of R543: lowest code, station, word, slot; a failure that concerns no station comes first of its code. -/
def failKey (f : Fail) : Nat := ((f.1 * 64 + f.2.1) * 4096 + f.2.2.1) * 16 + (if f.2.2.2 = 7 ∧ f.2.1 = 0 then 0 else f.2.2.2 + 1)

def firstFail (l : List Fail) : Option Fail :=
  l.foldl (fun b f => match b with
    | none => some f
    | some g => if failKey f < failKey g then some f else some g) none

/-- The station number in STN numbering (R83). -/
def stnOf (egress : Bool) (st : Nat) : Nat := if egress then 32 + st else st

/-- The last issue station of each lookup (R55). -/
def lateLookup (egress : Bool) (st op : Nat) : Bool :=
  match op with
  | 0x30 => decide ((if egress then 5 else 21) < st)
  | 0x31 => decide (19 < st)
  | 0x32 => decide (20 < st)
  | 0x33 => decide (18 < st)
  | 0x34 => decide (19 < st)
  | _ => false

/-- The rules a word breaks by itself: FORMAT, OPCODE, FIELD, REGISTER, REASON, SUCCESSOR, LATE_LOOKUP, RANGE. -/
def wordFails (egress : Bool) (st i : Nat) (next : Option Nat) (w : WInfo) : List Fail :=
  let stn := stnOf egress st
  let v := w.word
  (if bits v 77 72 != stn || bits v 79 78 != 0 || bits v 71 64 != 0 || bits v 31 0 != 0 then [(Code.format, stn, i, 7)] else []) ++
  (w.insts.flatMap fun x => x.codes.map fun c => (c, stn, i, x.slot)) ++
  (if w.succBad next then [(Code.successor, stn, i, 6)] else []) ++
  ((w.liveInsts.filter fun x => lateLookup egress st x.op).map fun x => (Code.lateLookup, stn, i, x.slot))

/-- Whether two instructions are exempt from R54: same predicate index, opposite senses. -/
def opposite (a b : LInst) : Bool := a.pi == b.pi && a.ps != b.ps

/-- RESULT_READY and WRITE_CONFLICT between an instruction of word (stnA, iA) and one `k` stations on in word (stn, i) (R53,
R54). An FLD after the LKF of its path counts as a read of F (R118). The first is reported at the reader, the second at the
lower of its two instructions (R543). -/
def pairFails (stnA iA stn i k : Nat) (a b : LInst) : List Fail :=
  let ready := decide (0 < k ∧ k < a.lat) && a.writes.any fun l => b.reads.contains l
  let conflict := decide (a.lat = k + b.lat) && (k != 0 || decide (a.slot < b.slot)) && !opposite a b &&
    a.writes.any fun l => b.writes.contains l
  (if ready then [(Code.resultReady, stn, i, b.slot)] else []) ++ (if conflict then [(Code.writeConflict, stnA, iA, a.slot)] else [])

/-- The pair rules between one instruction and every word up to 5 stations on along the successors. -/
def pathPairs (egress : Bool) (a : LInst) (iA st k : Nat) : Prog → List Nat → List Fail
  | [], _ => []
  | ws :: rest, is =>
    if 5 < k then []
    else
      (is.flatMap fun i => (ws.getD i ⟨0, []⟩).liveInsts.flatMap fun b => pairFails (stnOf egress st) iA (stnOf egress (st + k)) i k a b) ++
        pathPairs egress a iA st (k + 1) rest (is.flatMap fun i => (ws.getD i ⟨0, []⟩).succs).dedup

/-- Both pair rules over a program, for the words on a path. -/
def pairRules (egress : Bool) (st : Nat) : Prog → List (List Nat) → List Fail
  | ws :: rest, is :: more =>
    (is.flatMap fun i => (ws.getD i ⟨0, []⟩).liveInsts.flatMap fun a => pathPairs egress a i st 0 (ws :: rest) [i]) ++
      pairRules egress (st + 1) rest more
  | _, _ => []

/-- The greatest sum of a measure over the paths of one pass from each word of the first station. -/
def maxOver (f : WInfo → Nat) : Prog → List Nat
  | [] => []
  | ws :: rest =>
    let next := maxOver f rest
    ws.map fun w => f w + (w.succs.map fun s => next.getD s 0).foldl max 0

/-- The valid entry points of an entry table, as (number, index, partition, SHARED) (R116). -/
def validEntries (t : NMap (BitVec 32)) : List (Nat × Nat × Nat × Bool) :=
  (t.filter fun p => p.2.getLsbD 31).map fun p =>
    (p.1, bits p.2.toNat 11 0, bits p.2.toNat 27 24, p.2.getLsbD 28)

/-- FLOW_LIMIT (R60, R63), reported at the path's first word with an LKF or an update. -/
def flowFails (p : Prog) (es : List (Nat × Nat × Nat × Bool)) : List Fail :=
  let lk := maxOver WInfo.lkfs p
  let up := maxOver WInfo.upds p
  es.flatMap fun (_, i, _, _) =>
    let bad1 := decide (1 < lk.getD i 0)
    let bad2 := decide (8 < up.getD i 0)
    if !bad1 && !bad2 then []
    else
      let r := reachFrom p [i]
      (r.zipIdx.flatMap fun (is, st) => is.filterMap fun j =>
        let w := (p.getD st []).getD j ⟨0, []⟩
        if bad1 && w.lkfs != 0 then some (Code.flowLimit, st, j, 2)
        else if bad2 && w.upds != 0 then some (Code.flowLimit, st, j, 3) else none).take 1

/-- The greatest total of a measure over a set of paths, and over those of them that stage a TSI, where there is one. -/
structure Best where
  any : Int
  tsi : Option Int
deriving DecidableEq, Repr

def maxOpt (a b : Option Int) : Option Int :=
  match a, b with
  | some x, some y => some (max x y)
  | some x, none => some x
  | none, y => y

/-- The better of two sets of paths. -/
def Best.max (a b : Best) : Best := ⟨Max.max a.any b.any, maxOpt a.tsi b.tsi⟩

/-- Paths of one set followed by paths of another. -/
def Best.andThen (a b : Best) : Best := ⟨a.any + b.any, maxOpt (a.tsi.map (· + b.any)) (b.tsi.map (a.any + ·))⟩

/-- The empty path. -/
def Best.nil : Best := ⟨0, none⟩

def bestOf (l : List Best) : Option Best :=
  l.foldl (fun acc x => match acc with | none => some x | some y => some (y.max x)) none

/-- What one word adds. -/
def wordBest (cost : WInfo → Int) (w : WInfo) : Best := ⟨cost w, if (w.edit.map (·.2)) = some true then some (cost w) else none⟩

/-- What the paths of one pass from a word can add: the best of their beginnings, since a limit holds after every step; the best of
the whole paths; and the best of those that go on to another pass, which follows the whole of this one. -/
structure PassBest where
  begins : Best
  whole : Best
  onward : Option Best
deriving DecidableEq, Repr

/-- Of one pass, from each word of the first station, given what the entry points of the next pass can add. -/
def passBest (cost : WInfo → Int) (next : Nat → Option Best) : Prog → List PassBest
  | [] => []
  | ws :: rest =>
    let tail := passBest cost next rest
    ws.map fun w =>
      let ts := w.succs.filterMap fun s => tail[s]?
      let here := wordBest cost w
      let whole := (bestOf (ts.map (·.whole))).getD Best.nil
      let onward := bestOf (ts.filterMap (·.onward))
      let taken := (w.recirc.bind next).map whole.andThen
      ⟨here.andThen ((ts.map (·.begins)).foldl Best.max Best.nil), here.andThen whole,
        (bestOf (onward.toList ++ taken.toList)).map here.andThen⟩

/-- The best over paths of up to `n` passes from an entry point. -/
def chainBest (cost : WInfo → Int) (p : Prog) (es : List (Nat × Nat × Nat × Bool)) : Nat → Nat → Option Best
  | 0, _ => none
  | n + 1, e =>
    match es.find? fun x => x.1 == e with
    | none => none
    | some (_, i, _, _) =>
      match (passBest cost (fun e' => chainBest cost p es n e') p)[i]? with
      | none => none
      | some b => some (b.onward.elim b.begins b.begins.max)

/-- The edits a word counts; TSIs count once for a whole chain, so they are left out here (R65, R347). -/
def editCost (w : WInfo) : Int := match w.edit with | some (_, false) => 1 | _ => 0
def growCost (w : WInfo) : Int := match w.edit with | some (g, _) => g | none => 0

/-- EDIT_LIMIT (R65): more than 8 edits or 64 bytes of growth on a chain of up to four passes, reported at the first word of
the entry point. -/
def editFails (p : Prog) (es : List (Nat × Nat × Nat × Bool)) : List Fail :=
  es.flatMap fun (e, i, _, _) =>
    let many := match chainBest editCost p es 4 e with
      | some b => decide (8 < b.any) || (match b.tsi with | some t => decide (8 < t + 1) | none => false)
      | none => false
    let long := match chainBest growCost p es 4 e with
      | some b => decide (64 < b.any)
      | none => false
    if many || long then [(Code.editLimit, 0, i, 7)] else []

/-- The entry points reached from one by RECIRCs, itself first, in chains of up to `n` more passes. -/
def recircFrom (p : Prog) (es : List (Nat × Nat × Nat × Bool)) : Nat → List Nat → List Nat
  | 0, seen => seen
  | n + 1, seen =>
    let more := seen.flatMap fun e => match es.find? fun x => x.1 == e with
      | none => []
      | some (_, i, _, _) => (reachFrom p [i]).zipIdx.flatMap fun (is, st) =>
          is.filterMap fun j => ((p.getD st []).getD j ⟨0, []⟩).recirc
    recircFrom p es n (seen ++ more).dedup

/-- Whether partition `a` with SHARED `sa` may lead to partition `b` with SHARED `sb` (R118, ENTRY; R146). -/
def mayLead (a : Nat) (sa : Bool) (b : Nat) (sb : Bool) : Bool := sb || (!sa && a == b)

/-- The RECIRC part of the ENTRY rule: every RECIRC of the coat names a valid entry point, and one on a path from an entry point one
that this may lead to. -/
def recircFails (p : Prog) (es : List (Nat × Nat × Nat × Bool)) : List Fail :=
  (p.zipIdx.flatMap fun (ws, st) => ws.zipIdx.filterMap fun (w, j) =>
    if w.insts.any (fun i => i.op == 0x69) && !(es.any fun x => x.1 == bits (slotWord w.word 4) 37 32) then some (Code.entry, st, j, 4)
    else none) ++
  es.flatMap fun (_, i, part, sh) =>
    (reachFrom p [i]).zipIdx.flatMap fun (is, st) => is.filterMap fun j =>
      match ((p.getD st []).getD j ⟨0, []⟩).recirc with
      | none => none
      | some r => match es.find? fun x => x.1 == r with
        | none => some (Code.entry, st, j, 4)
        | some (_, _, part', sh') => if mayLead part sh part' sh' then none else some (Code.entry, st, j, 4)

/-- The lookups of a program against the coat's tables (R146). -/
def lookFails (egress : Bool) (c : Coat) (p : Prog) (es : List (Nat × Nat × Nat × Bool)) : List Fail :=
  let own (t : Table) (st j : Nat) : Bool := es.all fun (_, i, part, sh) =>
    !(((reachFrom p [i]).getD st []).contains j) || mayLead part sh t.defn.part t.defn.shared
  p.zipIdx.flatMap fun (ws, st) => ws.zipIdx.filterMap fun (w, j) =>
    match w.look with
    | none => none
    | some (n, kind, klen) => match NMap.get? c.tables n with
      | none => some (Code.table, stnOf egress st, j, 2)
      | some t =>
        if t.defn.kind ≠ kind ∨ (kind ≠ kTag ∧ t.defn.klen ≠ klen) ∨ !own t st j then some (Code.table, stnOf egress st, j, 2)
        else none

/-- The port maps against the entry tables (R116, R118): `part` gives the partition of a port. -/
def mapFails (part : Nat → Nat) (es : List (Nat × Nat × Nat × Bool)) (m : NMap Nat) : List Fail :=
  m.filterMap fun (port, e) => match es.find? fun x => x.1 == e with
    | none => some (Code.entry, 0, 0, 7)
    | some (_, _, p, sh) => if sh || p == part port then none else some (Code.entry, 0, 0, 7)

/-- Every failure of one program by itself. -/
def progFails (egress : Bool) (p : Prog) (starts : List Nat) : List Fail :=
  (p.zipIdx.flatMap fun (ws, st) => ws.zipIdx.flatMap fun (w, i) =>
    wordFails egress st i (if st + 1 < p.length then some (p.getD (st + 1) []).length else none) w) ++
  (starts.filterMap fun i => if i < (p.getD 0 []).length then none else some (Code.entry, 0, 0, 7)) ++
  pairRules egress 0 p (reachFrom p starts)

/-- Every failure of a coat by the rules that need nothing beside it (R118, R146), with coat-relative indices. -/
def Coat.fails (c : Coat) (part : Nat → Nat) : List Fail :=
  let pi := progOf false 24 c.isteps
  let pe := progOf true 8 c.esteps
  let ei := validEntries c.ien
  let ee := validEntries c.een
  progFails false pi (ei.map (·.2.1)) ++ progFails true pe (ee.map (·.2.1)) ++
    flowFails pi ei ++ editFails pi ei ++ recircFails pi ei ++ mapFails part ei c.pmapI ++ mapFails part ee c.pmapE ++
    lookFails false c pi ei ++ lookFails true c pe ee ++
    (if c.tables.any fun t => !t.2.defn.ok then [(Code.table, 0, 0, 7)] else [])

end Sys2Proof.Machine
end

