-- ==== Sys2Proof/Machine/Plumb.lean ====
section
/-! DEFINITION. Plumb: the tick, the time base commands, the timed pins, PPS and the servo (R336 to R365). -/

namespace Sys2Proof.Machine

def Device.modPlumb (d : Device) (f : Plumb → Plumb) : Device := { d with plumb := f d.plumb }

def Device.setTb (d : Device) (n : Nat) (t : TimeBase) : Device :=
  d.modPlumb fun p => { p with tbs := NMap.set p.tbs n t }

/-- PWR_STATUS.STATE: 0 Run, 1 Trim, 2 Doze, 3 Sleep, 4 Off (R459). -/
def Device.pwrState (d : Device) : Nat := d.fld Off.pwrStatus 26 24

/-! ### The tick (R337, R339, R342, R362) -/

/-- The rate of a slew in 2^−32 ns per tick: SLEW_PPB, 0 being taken as 1 and values above 1,000,000 as 1,000,000
(R340, R366). -/
def Device.slewRate (d : Device) (n : Nat) : Int :=
  ((clampN 1 1000000 (d.fld (Off.plumbTbSlew n) 19 0) * 2 ^ 32 / 1000000000 : Nat) : Int)

/-- A base advanced by a signed increment in 2^−32 ns: NS and FRAC are one fixed-point value, and SEC takes the carry
(R339). -/
def TimeBase.advance (t : TimeBase) (inc : Int) : TimeBase :=
  let total : Int := ((t.sec * 1000000000 + t.ns) * 2 ^ 32 + t.frac : Nat) + inc
  let m : Nat := (total % (2 ^ 48 * 1000000000 * 2 ^ 32 : Nat)).toNat
  { t with sec := m / 2 ^ 32 / 1000000000, ns := m / 2 ^ 32 % 1000000000, frac := m % 2 ^ 32 }

/-- One tick of one base: INC = 2^32 + ADJ, and a running slew's part (R339, R340). -/
def Device.tickBase (d : Device) (n : Nat) : Device :=
  let t := d.tb n
  let part := clampI (-d.slewRate n) (d.slewRate n) t.slewLeft
  d.setTb n { (t.advance (2 ^ 32 + signed 32 (d.reg (Off.plumbTbAdj n)) + part)) with slewLeft := t.slewLeft - part }

/-- Pulses of pins and of PPS_OUT that end by now return to the inactive level (R353, R358). -/
def Plumb.endPulses (p : Plumb) : Plumb :=
  { p with
    tio := p.tio.map fun (k, x) =>
      (k, match x.offAt with
        | some t => if t ≤ p.transit then { x with level := false, offAt := none } else x
        | none => x)
    ppsOff := match p.ppsOff with
      | some t => if t ≤ p.transit then none else some t
      | none => none }

/-- In multi-base mode TB_OFS shows TBn − TB0, updated once per microsecond (R342). -/
def Device.showOfs (d : Device) : Device :=
  if d.multi ∧ d.transit % 1000 = 0 then
    (List.range 7).foldl (fun d i =>
      d.setReg64 (Off.plumbTbOfsLo (i + 1)) (unsigned 64 ((d.tb (i + 1)).count - (d.tb 0).count : Int))) d
  else d

/-- Whether the island keeps time (R362, R364): in Sleep, and from a reset or a wake to the start-up that follows. -/
def Device.islandTime (d : Device) : Bool :=
  match d.pwr.phase with
  | .asleep => true
  | .held => true
  | .waits => d.pwr.kind != .cold
  | _ => false

/-- PPS_TB takes effect at the next whole second of the base in force (R366). `sec`: the second that base was in before the tick. -/
def Device.ppsTake (d : Device) (sec : Nat) : Device :=
  let base := d.fld Off.plumbPps 30 28
  if (d.tbNow d.plumb.ppsBase).sec = sec ∨ base = d.plumb.ppsBase then d
  else d.modPlumb fun p => { p with ppsBase := base, ppsSec := 2 ^ 48 }

/-- One time-clock tick: every base that counts adds its increment and the transit count adds 1 (R337, R339, R342). While the
island keeps time the tick is one of the always-on oscillator: TB0 adds AON_INC and the transit count exactly 40 (R362). In Off
nothing counts. -/
def Device.tick (d : Device) : Device :=
  if d.pwr.phase = .off then d
  else if d.islandTime then
    let d := d.setTb 0 ((d.tb 0).advance (40 * 2 ^ 32 + signed 32 (d.reg Off.plumbAonInc)))
    d.modPlumb fun p => { p with transit := (p.transit + 40) % 2 ^ 64 }
  else
    let sec := (d.tbNow d.plumb.ppsBase).sec
    let d := if d.multi then (List.range 8).foldl Device.tickBase d else d.tickBase 0
    let d := d.modPlumb fun p => { p with transit := (p.transit + 1) % 2 ^ 64 }
    ((d.modPlumb Plumb.endPulses).showOfs).ppsTake sec

/-! ### The pins' schedules (R353, R354, R356) -/

def TioPin.reset : TioPin := ⟨[], none, false, false, none, none⟩

def Device.tio (d : Device) (k : Nat) : TioPin := NMap.getD d.plumb.tio k TioPin.reset

def Device.setTio (d : Device) (k : Nat) (x : TioPin) : Device :=
  d.modPlumb fun p => { p with tio := NMap.set p.tio k x }

def Device.tioMode (d : Device) (k : Nat) : Nat := d.fld (Off.plumbTioCtl k) 3 0

/-- The level a pin drives in an output mode: POL = 1 makes the active level low (R353). -/
def Device.tioHigh (d : Device) (k : Nat) : Bool := (d.tio k).level != d.flag (Off.plumbTioCtl k) 7

/-- An edge time placed to the nearest 0.125 ns, in 2^−16 ns (R353). -/
def placeEdge (t : Nat) : Nat := (t + 4096) / 8192 * 8192

def Device.tioBase (d : Device) (k : Nat) : Nat := d.fld (Off.plumbTioCtl k) 6 4

/-- START in 2^−16 ns. -/
def Device.tioStart (d : Device) (k : Nat) : Nat := d.reg64 (Off.plumbTioStartLo k) * 2 ^ 16

/-- The period P in 2^−16 ns; a PERIOD below 100 is taken as 100 (R354, R366). -/
def Device.tioPeriod (d : Device) (k : Nat) : Nat :=
  max 100 (d.reg (Off.plumbTioPeriod k)) * 2 ^ 16 + d.fld (Off.plumbTioPfrac k) 15 0

/-- One second in 2^−16 ns. -/
def secondFx : Nat := 1000000000 * 2 ^ 16

/-- The number of the first periodic edge at or after time `t` (2^−16 ns), counted over all edges: from START with
RESYNC = 0, and from second 0 with RESYNC = 1 (R354). -/
def Device.tioIndex (d : Device) (k t : Nat) : Nat :=
  let p := d.tioPeriod k
  if d.flag (Off.plumbTioCtl k) 8 then
    let off := d.tioStart k % secondFx
    let perSec := ceilDiv (secondFx - off) p
    t / secondFx * perSec + min perSec (ceilDiv (t % secondFx - off) p)
  else ceilDiv (t - d.tioStart k) p

/-- The time of the periodic edge of a number (R354). -/
def Device.tioEdgeTime (d : Device) (k i : Nat) : Nat :=
  let p := d.tioPeriod k
  if d.flag (Off.plumbTioCtl k) 8 then
    let off := d.tioStart k % secondFx
    let perSec := ceilDiv (secondFx - off) p
    i / perSec * secondFx + off + i % perSec * p
  else d.tioStart k + i * p

/-- The first scheduled edge of an output pin at or after time `t`; the one-shots PULSE, SET and CLEAR are scheduled at
START until they have fired (R353, R356). -/
def Device.tioNext (d : Device) (k t : Nat) : Option Nat :=
  let m := d.tioMode k
  if m = 5 then some (d.tioEdgeTime k (d.tioIndex k t))
  else if m = 4 ∨ m = 6 ∨ m = 7 then (if (d.tio k).fired then none else some (d.tioStart k))
  else none

/-- The time of a pin's base in 2^−16 ns. -/
def Device.tioNow (d : Device) (k : Nat) : Nat := d.tbCount (d.tioBase k) * 2 ^ 16

/-- A MODE write starts the pin afresh: its one-shot may fire again and its schedule is made anew (R355, R356). -/
def Device.tioArm (d : Device) (k : Nat) : Device :=
  let d := d.setTio k { d.tio k with fired := false, level := false, offAt := none }
  d.setTio k { d.tio k with next := d.tioNext k (d.tioNow k) }

/-- A step of a pin's base: the next edge is the first at or after the new time; periodic edges passed over are counted
in SKIP (R356). -/
def Device.tioStep (d : Device) (k : Nat) : Device :=
  let x := d.tio k
  let next := d.tioNext k (d.tioNow k)
  let skipped := match x.next, next with
    | some a, some b => if d.tioMode k = 5 then d.tioIndex k b - d.tioIndex k a else 0
    | _, _ => 0
  let d := d.setTio k { x with next := next }
  d.setFld (Off.plumbTioCtl k) 31 16 (min 65535 (d.fld (Off.plumbTioCtl k) 31 16 + skipped))

/-- A scheduled edge that falls within the current tick is produced, placed to the nearest 0.125 ns (R353, R354, R356). While the
pads are held, edges are not produced (R473). -/
def Device.tioEdge (d : Device) (k : Nat) : Device :=
  let x := d.tio k
  match x.next with
  | none => d
  | some t =>
    if t < d.tioNow k + 2 ^ 16 ∧ d.pwr.tioHeld.isNone then
      let m := d.tioMode k
      let off := if m = 4 ∨ m = 5 then some (d.transit + max 1 (d.reg (Off.plumbTioWidth k))) else none
      let d := d.setTio k { x with level := m ≠ 7, offAt := off, fired := m ≠ 5, placed := some (placeEdge t) }
      let d := d.setTio k { d.tio k with next := d.tioNext k (t + 1) }
      d.occ { Occ.plain 0x803 1 with operand := some k }
    else d

/-- An edge on a capturing pin goes into the FIFO, or is lost when 16 captures are held (R357). -/
def Device.tioCapture (d : Device) (k : Nat) (rising : Bool) : Device :=
  let m := d.tioMode k
  let x := d.tio k
  if m = 3 ∨ (m = 1 ∧ rising) ∨ (m = 2 ∧ !rising) then
    let d := d.occ { Occ.plain 0x803 1 with operand := some k }
    if x.fifo.length < 16 then d.setTio k { x with fifo := x.fifo ++ [(d.tbCount (d.tioBase k), rising)] }
    else (d.setFlag (Off.plumbTioCtl k) 10 true).raise 360 Sev.warn Cause.tioOvf k 0
  else d

/-! ### Time base commands (R340, R342) -/

/-- VALID is set, with its event the first time (R364, R365). -/
def Device.setValid (d : Device) (n : Nat) : Device :=
  if d.flag (Off.plumbTbStatus n) 3 then d
  else (d.setFlag (Off.plumbTbStatus n) 3 true).raise (352 + n) Sev.info Cause.timeValid n 0

/-- Base n has been moved: PPS_OUT's second on it is to come (R358). In single-base mode TB1 to TB7 follow TB0 (R342). -/
def Device.ppsAgain (d : Device) (n : Nat) : Device :=
  if d.plumb.ppsBase = n ∨ (n = 0 ∧ !d.multi) then d.modPlumb fun p => { p with ppsSec := 2 ^ 48 } else d

/-- What every step of base n brings about: STEPPED and its event, PPS_OUT's second to come, and the schedules of the pins on the base; in
single-base mode TB1 to TB7 follow TB0, so the pins on them are moved as well (R340, R342, R356). -/
def Device.stepped (d : Device) (n : Nat) (delta : Int) : Device :=
  let d := d.setFlag (Off.plumbTbStatus n) 0 true
  let d := d.raise (352 + n) Sev.info Cause.timeStep n (unsigned 64 delta)
  let d := d.ppsAgain n
  (List.range 16).foldl (fun d k =>
    if d.tioBase k = n ∨ (n = 0 ∧ !d.multi) then d.tioStep k else d) d

/-- A running slew ends at once, with its event; the part already added stays (R340, R365). -/
def Device.endSlew (d : Device) (n : Nat) : Device :=
  if !(d.tb n).slewing then d
  else
    let d := (d.setTb n { d.tb n with slewLeft := 0, slewing := false }).setFlag (Off.plumbTbStatus n) 1 false
    d.raise (352 + n) Sev.info Cause.slewEnd n 0

/-- A base that counts by itself is moved by a signed number of nanoseconds in one step (ADD of R340). -/
def Device.addTb (d : Device) (n : Nat) (delta : Int) : Device :=
  if n = 0 ∨ d.multi then (d.setTb n ((d.tb n).advance (delta * 2 ^ 32))).stepped n delta
  else (d.setReg64 (Off.plumbTbOfsLo n) (unsigned 64 (d.tbOfs n + delta))).stepped n delta

/-- SET: SEC := TB_SET_SEC, NS := TB_SET_NS, FRAC := 0; an NS of 10^9 or above is ignored and flagged (R340). -/
def Device.tbSet (d : Device) (seat n : Nat) : Device :=
  let sec := d.reg64 (Off.plumbTbSetSecLo n) % 2 ^ 48
  let ns := d.fld (Off.plumbTbSetNs n) 29 0
  if ns ≥ 1000000000 then d.quietFlag seat (Off.plumbTbCmd n) 1
  else
    let d := d.endSlew n
    let delta : Int := (sec * 1000000000 + ns : Nat) - ((d.tbNow n).sec * 1000000000 + (d.tbNow n).ns : Nat)
    if n = 0 ∨ d.multi then
      ((d.setTb n { d.tb n with sec := sec, ns := ns, frac := 0 }).stepped n delta).setValid n
    else (d.addTb n delta).setValid n

/-- ADD: the signed TB_DELTA is added to the count (R340). -/
def Device.tbAdd (d : Device) (n : Nat) : Device :=
  (d.endSlew n).addTb n (signed 64 (d.reg64 (Off.plumbTbDeltaLo n)))

/-- SLEW: TB_DELTA is added gradually (R340). In single-base mode TB1 to TB7 have no rate of their own, and the command
adds its delta to TB_OFS (R342). -/
def Device.tbSlew (d : Device) (n : Nat) : Device :=
  let delta := signed 64 (d.reg64 (Off.plumbTbDeltaLo n))
  let d := d.endSlew n
  if n = 0 ∨ d.multi then
    (d.setTb n { d.tb n with slewLeft := delta * 2 ^ 32, slewing := true }).setFlag (Off.plumbTbStatus n) 1 true
  else (d.setReg64 (Off.plumbTbOfsLo n) (unsigned 64 (d.tbOfs n + delta))).ppsAgain n

/-- A slew that has added its whole delta ends (R340, R365). -/
def Device.slewDone (d : Device) (n : Nat) : Device :=
  if (d.tb n).slewLeft = 0 then d.endSlew n else d

/-- ADJ is limited to ±4,294,967; a value outside is taken as the nearer limit (R339). -/
def clampAdj (a : Int) : Int := clampI (-4294967) 4294967 a

def Device.setAdj (d : Device) (n : Nat) (a : Int) : Device := d.setReg (Off.plumbTbAdj n) (unsigned 32 (clampAdj a))

/-! ### PPS, alarm, oscillator (R336, R358, R359, R361) -/

/-- Whether PPS_OUT is to give its pulse: at the first tick of a second of the base in force, once for each time the base passes it
(R358). The rate of a base puts that tick in the second's first 2 ns. -/
def Device.ppsDue (d : Device) : Bool :=
  let t := d.tbNow d.plumb.ppsBase
  d.flag Off.plumbPps 31 && d.pwr.tioHeld.isNone && decide (t.ns < 2) && t.sec != d.plumb.ppsSec

/-- At a whole second of its base, PPS_OUT gives a pulse of PPS_WIDTH µs (R358). -/
def Device.ppsPulse (d : Device) : Device :=
  if d.ppsDue then
    d.modPlumb fun p => { p with
      ppsSec := (d.tbNow p.ppsBase).sec, ppsOff := some (p.transit + 1000 * max 1 (d.fld Off.plumbPps 15 0)) }
  else d

/-- A rising edge on PPS_IN is captured in the servo's base (R358). -/
def Device.ppsIn (d : Device) : Device :=
  let d := d.setReg64 Off.plumbPpsCapLo (d.tbCount (d.fld Off.plumbServoCtl 29 27))
  d.modPlumb fun p => { p with ppsSeen := some p.transit, ppsLost := false }

/-- PPS_IN has had no edge for 2 s after edges were seen (R365). -/
def Device.ppsLost (d : Device) : Device :=
  match d.plumb.ppsSeen with
  | some t =>
    if !d.plumb.ppsLost ∧ t + 2000000000 ≤ d.transit then
      (d.modPlumb fun p => { p with ppsLost := true }).raise 361 Sev.warn Cause.ppsLost 0 0
    else d
  | none => d

/-- Whether the TB0 alarm is set, has not fired, and its time is reached (R359). -/
def Device.alarmDue (d : Device) : Bool :=
  let t := d.reg64 Off.plumbAlarmLo
  t ≠ 0 && !d.plumb.alarmFired && decide (t ≤ d.tbCount 0)

/-- The alarm fires once, with its event (R359). -/
def Device.alarmFire (d : Device) : Device :=
  (d.modPlumb fun p => { p with alarmFired := true }).raise 364 Sev.info Cause.alarm 0 0

/-- TREF_IN is declared lost while it is in use: the PLL moves to REFCLK, TREF_LOST is set, with its event (R336). -/
def Device.trefLost (d : Device) : Device :=
  if d.flag Off.plumbStatus 0 then
    ((d.setFlag Off.plumbStatus 0 false).setFlag Off.plumbStatus 1 true).raise 362 Sev.warn Cause.trefLost 0 0
  else d

/-- 200 ppm of 40 ns in 2^−32 ns (R361). -/
def aonLimit : Int := 34359738

/-- While the time clock runs, the measured count of one second, in 2^−32 ns above 40 ns, enters the mean of the last 16; a mean more than 200 ppm
off raises an event and the nearer limit is used (R361). -/
def Device.aonMeasure (d : Device) (count : Nat) : Device :=
  if d.islandTime ∨ d.pwr.phase = .off then d
  else
    let l := (count :: d.plumb.aon).take 16
    let sum : Int := (l.map fun c => signed 32 c).sum
    let mean := sum / (l.length : Int)
    let d := d.modPlumb fun p => { p with aon := l }
    let d := d.setReg Off.plumbAonInc (unsigned 32 (clampI (-aonLimit) aonLimit mean))
    if mean < -aonLimit ∨ aonLimit < mean then d.raise 365 Sev.warn Cause.aonRange (unsigned 64 mean) 0 else d

/-! ### The servo (R351, R352) -/

/-- SERVO_CTL.EN. -/
def Device.servoOn (d : Device) : Bool := d.flag Off.plumbServoCtl 31

def Device.servoState (d : Device) : Nat := d.fld Off.plumbServoStatus 31 30

def Device.servoBase (d : Device) : Nat := d.fld Off.plumbServoCtl 29 27

/-- A change of the servo's state, with its event (R352). -/
def Device.setServo (d : Device) (st : Nat) : Device :=
  if d.servoState = st then d
  else
    let d := d.setFld Off.plumbServoStatus 31 30 st
    let d := d.setFlag (Off.plumbTbStatus d.servoBase) 2 (st = 3)
    let d := d.raise 363 Sev.info Cause.servoState d.servoBase st
    if st = 2 then d.setValid d.servoBase else d

/-- KP × o and the integrator in 2^−8 ppb, and the ADJ they give (R351). -/
def Device.servoAdjust (d : Device) (o : Int) : Device :=
  let lim : Int := 1000000 * 256
  let integ := clampI (-lim) lim (d.plumb.integ + d.fld Off.plumbServoGain 15 0 * o)
  let adj := clampI (-lim) lim (-((d.fld Off.plumbServoGain 31 16 : Int) * o + integ))
  let d := d.modPlumb fun p => { p with integ := integ }
  d.setAdj d.servoBase ((2 * adj * 2 ^ 32 + 256000000000) / (2 * 256000000000))

/-- An offset `o` in ns: a step when it is beyond STEP_THR, else the control law; then the state (R351, R352). -/
def Device.servoOffset (d : Device) (o : Int) : Device :=
  let small := o.natAbs ≤ d.fld Off.plumbServoLim 15 8
  let d := if o.natAbs > d.fld Off.plumbServoLim 31 16 then d.addTb d.servoBase (-o) else d.servoAdjust o
  let d := d.setFld Off.plumbServoStatus 29 0 (unsigned 30 (clampI (-(2 ^ 29)) (2 ^ 29 - 1) o))
  let n := if small then d.plumb.inLock + 1 else 0
  let d := d.modPlumb fun p => { p with inLock := n, lastOffsetAt := p.transit, offsetGap := p.transit - p.lastOffsetAt }
  let d := if d.servoState = 0 ∨ d.servoState = 3 then d.setServo 1 else d
  if n ≥ 16 then d.setServo 2 else d

/-- The offset of a PPS capture: the capture minus the nearest whole second of the base (R351). -/
def Device.ppsOffset (d : Device) : Int :=
  let c := d.reg64 Off.plumbPpsCapLo % 1000000000
  if c < 500000000 then (c : Int) else (c : Int) - 1000000000

end Sys2Proof.Machine
end

