-- ==== Sys2Proof/Machine/Rstore.lean ====
section
/-! DEFINITION. The render store controller: regions and address orders, requests and their order, refresh and self-refresh, and
the bytes of the heap (R191 to R207). -/

namespace Sys2Proof.Machine

def RChan.reset : RChan := ⟨[], [], [], [], false, [], []⟩

def Device.rchan (d : Device) (c : Nat) : RChan := NMap.getD d.rstore.chans c RChan.reset

def Device.modRstore (d : Device) (f : Rstore → Rstore) : Device := { d with rstore := f d.rstore }

def Device.modRchan (d : Device) (c : Nat) (f : RChan → RChan) : Device :=
  d.modRstore fun r => { r with chans := NMap.set r.chans c (f (d.rchan c)) }

def Device.chanFailed (d : Device) (c : Nat) : Bool := bit (d.reg Off.rstoreFailed) c

/-! ### Regions and locations (R193, R194, R196) -/

/-- The region that holds a store address: the first valid one (regions do not overlap). -/
def Device.regionOf (d : Device) (a : Nat) : Option Nat :=
  (List.range 8).find? fun n =>
    let v := d.reg (Off.rstoreRegion n)
    bit v 31 && decide (bits v 14 0 ≤ a / 2 ^ 20 ∧ a / 2 ^ 20 < bits v 14 0 + 2 ^ bits v 25 22)

/-- The store address of the region of a kind (R213: KIND). -/
def Device.regionBase (d : Device) (kind : Nat) : Option Nat :=
  ((List.range 8).find? fun n => d.flag (Off.rstoreRegion n) 31 && d.fld (Off.rstoreRegion n) 30 28 == kind).map fun n =>
    d.fld (Off.rstoreRegion n) 14 0 * 2 ^ 20

/-- Where a store address lies: render channel, bank (pseudo-channel × 16 + bank group × 4 + bank) and physical row. -/
structure StoreLoc where
  chan : Nat
  bank : Nat
  row : Nat
deriving DecidableEq, Repr

/-- The location of block number `a` in a region of 2^k rows of an order, its row being the local one (R196). The order 0b11 is
reserved and read as 0b00 (R11). -/
def blockLoc (order k a : Nat) : StoreLoc :=
  let mk (row bank bg pc ch st : Nat) : StoreLoc := ⟨16 * (st % 2) + ch % 16, 16 * (pc % 2) + 4 * (bg % 4) + bank % 4, row % 2 ^ k⟩
  if order = 1 then mk (a / 2 ^ 10) a (a / 4) (a / 16) (a / 32) (a / 512)
  else if order = 2 then
    let row := a / 2 ^ 10 % 2 ^ k
    let h := (row % 32) ^^^ (row / 32 % 32) ^^^ (row / 1024 % 32)
    mk row (a / 256) (a / 64) (a / 32) ((a % 16) ^^^ (h % 16)) ((a / 16 % 2) ^^^ (h / 16))
  else mk a (a / 2 ^ k) (a / 2 ^ (k + 2)) (a / 2 ^ (k + 4)) (a / 2 ^ (k + 5)) (a / 2 ^ (k + 9))

/-- The location of a store address; none in no valid region: an address error (R194). -/
def Device.locate (d : Device) (a : Nat) : Option StoreLoc :=
  (d.regionOf a).map fun n =>
    let v := d.reg (Off.rstoreRegion n)
    let l := blockLoc (bits v 27 26) (bits v 25 22) ((a - bits v 14 0 * 2 ^ 20) / 1024)
    { l with row := l.row + bits v 14 0 }

/-! ### Requests (R198, R201 to R205) -/

def RReq.age (r : RReq) (now : Nat) : Nat := now - r.since

/-- The urgency level (R202). -/
def RReq.urgency (r : RReq) (now : Nat) : Nat :=
  if r.target ≤ r.age now then 2 else if r.target ≤ 2 * r.age now then 1 else 0

/-- The effective class (R202). -/
def RReq.effective (r : RReq) (now : Nat) : Nat := r.cls - r.urgency now

/-- A request in Doze takes its stack out of self-refresh (R207). -/
def Device.stackWake (d : Device) (st : Nat) : Device :=
  let d := d.modRstore fun r => { r with lastReq := NMap.set r.lastReq st d.transit }
  if bit (d.reg Off.rstoreSelfref) st then d.setFlag Off.rstoreSelfref st false else d

/-- Whether the channel queue has room for a request of a kind: 128 reads, 64 writes (R205). -/
def RChan.room (c : RChan) (write : Bool) : Bool :=
  decide ((c.queue.filter fun r => r.write == write).length < if write then 64 else 128)

/-- A request enters the channel queue, where its age begins and it takes its port's class and target (R202, R213), or it waits at
its port while the queue is full or an earlier request of that port waits (R205). -/
def Device.enterQueue (d : Device) (c : RChan) (r : RReq) : RChan :=
  if c.room r.write && c.waiting.all fun q => q.port != r.port then
    let cfg := d.reg (Off.rstorePort r.port)
    { c with queue := c.queue ++ [{ r with since := d.transit, cls := bits cfg 31 30, target := max 1 (bits cfg 19 0) }] }
  else { c with waiting := c.waiting ++ [r] }

/-- The requests waiting at their ports enter a channel's queue as it has room, those of a port in their order. -/
def Device.admitWaiting (d : Device) (c : Nat) : Device :=
  d.modRchan c fun ch => ch.waiting.foldl d.enterQueue { ch with waiting := [] }

/-- A request of one port ends with an error for its requestor: 1 address error, 2 poisoned (R194, R198). -/
def Device.portError (d : Device) (port addr status : Nat) : Device :=
  d.modRstore fun r => { r with portErr := NMap.set r.portErr port (addr, status) }

/-- The store address of the same offset in the other half of the COAT_IMAGE region that holds `a` (R195). -/
def Device.otherHalf (d : Device) (region a : Nat) : Nat :=
  let v := d.reg (Off.rstoreRegion region)
  let base := bits v 14 0 * 2 ^ 20
  let half := 2 ^ bits v 25 22 * 2 ^ 20 / 2
  if a < base + half then a + half else a - half

/-- A request for whole bursts of one 1 KiB block enters the queues of its channel; a failed one sends nothing to DRAM (R201, R212). -/
def Device.requestSend (d : Device) (port : Nat) (master : Nat × Nat) (write : Bool) (addr bursts : Nat) : Device :=
  match d.locate addr with
  | none => d
  | some l =>
    if d.chanFailed l.chan then d
    else
      let r : RReq := ⟨d.rstore.nextReq, port, master, addr, write, bursts, d.transit, 0, 1⟩
      ((d.stackWake (l.chan / 16)).modRchan l.chan fun c => d.enterQueue c r).modRstore fun x =>
        { x with nextReq := x.nextReq + 1 }

/-- A request for whole bursts of one 1 KiB block: in no valid region it completes with an address error; to a failed channel a transfer
of TELEM or HOST ends with an error, and Darby's read of a coat image goes to the other copy (R194, R195, R198, R212). -/
def Device.requestBlock (d : Device) (port : Nat) (master : Nat × Nat) (write : Bool) (addr bursts : Nat) : Device :=
  match d.locate addr with
  | none => d.portError port addr 1
  | some l =>
    if !d.chanFailed l.chan then d.requestSend port master write addr bursts
    else
      let d := if 4 ≤ port then d.portError port addr 2 else d
      match d.regionOf addr with
      | some n => if !write && d.fld (Off.rstoreRegion n) 30 28 == 2 then d.requestSend port master false (d.otherHalf n addr) bursts else d
      | none => d

/-- A run of whole bursts, one request for each 1 KiB block it touches: such a block lies in one row of one bank (R196, R199). -/
def Device.request (d : Device) (port : Nat) (master : Nat × Nat) (addr : Nat) (write : Bool) (bursts : Nat) : Device :=
  let lo := addr / 32 * 32
  let hi := lo + 32 * bursts
  ((List.range (if bursts = 0 then 0 else ceilDiv hi 1024 - lo / 1024)).map fun k => lo / 1024 + k).foldl (fun d b =>
    let a := max lo (1024 * b)
    d.requestBlock port master write a ((min hi (1024 * (b + 1)) - a) / 32)) d

/-- Whether two requests' bursts overlap (R204). -/
def RReq.overlaps (a b : RReq) : Bool :=
  decide (a.addr < b.addr + 32 * b.bursts) && decide (b.addr < a.addr + 32 * a.bursts)

/-- Whether a write batch runs after a look at the queue (R205). -/
def RChan.batchNow (c : RChan) (now : Nat) : Bool :=
  let ws := c.queue.filter fun r => r.write
  let starts := decide (48 ≤ ws.length) || ws.any fun r => decide (1 ≤ r.urgency now)
  let ends := decide (ws.length < 16) || c.queue.any fun r => !r.write && r.cls == 0 && decide (1 ≤ r.urgency now)
  if c.batch then !ends else starts

/-- The oldest of a list in order of entry, and whether a request hits its open row. -/
def Device.rowHit (d : Device) (c : Nat) (r : RReq) : Bool :=
  match d.locate r.addr with
  | some l => NMap.get? (d.rchan c).rows l.bank == some l.row
  | none => false

/-- Whether no earlier request, queued or sent, has bursts in common with a request (R204). -/
def RChan.inOrder (c : RChan) (r : RReq) : Bool :=
  (c.queue.takeWhile fun q => q.id != r.id).all (fun q => !q.overlaps r) && c.issued.all fun q => !q.overlaps r

/-- The requests ready at pseudo-channel `pc`: those whose bank is not among the banks `busy` by their timing and that R204 lets
go, a bank with 8 postponed refreshes taking none (R203, R206). -/
def Device.readyReqs (d : Device) (c pc : Nat) (busy : List Nat) : List RReq :=
  let ch := d.rchan c
  ch.queue.filter fun r => ch.inOrder r && match d.locate r.addr with
    | some l => l.bank / 16 == pc && !busy.contains (l.bank % 16) && decide (NMap.getD ch.postponed l.bank 0 < 8)
    | none => false

/-- The request that R203 picks: one past the age limit, the oldest first; else, of the kind that R205 serves, the lowest
effective class, a row hit first, else the oldest. -/
def Device.pickReq (d : Device) (c pc : Nat) (busy : List Nat) : Option RReq :=
  let now := d.transit
  let ready := d.readyReqs c pc busy
  match ready.find? fun r => decide (1000 * max 1 (d.fld Off.rstoreAgeLimit 15 0) ≤ r.age now) with
  | some r => some r
  | none =>
    let kind := ready.filter fun r => r.write == (d.rchan c).batchNow now
    let low := (kind.map fun r => r.effective now).foldl min 4
    let best := kind.filter fun r => r.effective now == low
    match best.find? fun r => d.rowHit c r with
    | some r => some r
    | none => best.head?

/-- An occurrence of a render event (R500). -/
def Device.occRender (d : Device) (code n : Nat) (r : RReq) : Device :=
  d.occ ⟨code, n, none, none, some r.master, some (r.addr / 32), none⟩

/-- A queued request is sent to DRAM: its row is open from then on, and the next waiting request takes its place (R203, R205). -/
def Device.sendReq (d : Device) (c : Nat) (r : RReq) : Device :=
  let hit := d.rowHit c r
  let d := d.occRender (if r.write then 0x502 else 0x501) r.bursts r
  let d := d.occRender 0x503 (if hit then r.bursts else r.bursts - 1) r
  let d := match d.locate r.addr with
    | some l => d.modRchan c fun ch => { ch with rows := NMap.set ch.rows l.bank l.row }
    | none => d
  (d.modRchan c fun ch => { ch with
    queue := ch.queue.filter fun q => q.id ≠ r.id
    issued := ch.issued ++ [r] }).admitWaiting c

/-- A pseudo-channel can take a command: the picked request is sent to DRAM (R203). A stopped channel, and one under recovery, issues no
commands (R213, R447). -/
def Device.commandOpportunity (d : Device) (c pc : Nat) (busy : List Nat) : Device :=
  if !d.flag (Off.rstoreChStatus c) 0 || !d.domainOk 6 c then d
  else
    let pick := d.pickReq c pc busy
    let d := d.modRchan c fun ch => { ch with batch := ch.batchNow d.transit }
    match pick with
    | none => d
    | some r => d.sendReq c r

/-- A request sent to DRAM is done: one later than its target is LATE, and the largest latency of a fetch is kept (R213, R500). -/
def Device.reqDone (d : Device) (c : Nat) (r : RReq) : Device :=
  let d := d.modRchan c fun x => { x with issued := x.issued.filter fun q => q.id ≠ r.id }
  let age := r.age d.transit
  let d := if r.target < age then d.occRender 0x504 1 r else d
  if r.port = 0 ∧ d.fld (Off.rstoreChMaxlat c) 19 0 < age then d.setFld (Off.rstoreChMaxlat c) 19 0 (min age (2 ^ 20 - 1)) else d

/-- A channel empties its queues on the way to Doze: every request is performed in order of entry (R207). -/
def Device.drainChannel (d : Device) (c : Nat) : Device :=
  let ch := d.rchan c
  let d := (List.range (ch.queue.length + ch.waiting.length)).foldl (fun d _ => match (d.rchan c).queue.head? with
    | some r => d.sendReq c r
    | none => d) d
  (d.rchan c).issued.foldl (fun d r => d.reqDone c r) d

/-! ### Refresh and self-refresh (R206, R207) -/

/-- Whether a class-0 request waits for a bank. -/
def Device.bankWaited (d : Device) (c bank : Nat) : Bool :=
  (d.rchan c).queue.any fun r => r.effective d.transit == 0 &&
    match d.locate r.addr with | some l => l.bank == bank | none => false

/-- A bank's refresh interval has come: the bank is refreshed, with one of its postponed refreshes made up, or the refresh is
postponed while a class-0 request waits for the bank and fewer than 8 are postponed. A refresh closes the row. `hot`: the stack
reports more than 85 °C, as HOT then shows. -/
def Device.dramRefresh (d : Device) (c bank : Nat) (hot : Bool) : Device :=
  let d := (List.range 16).foldl (fun d k => d.setFlag (Off.rstoreChStatus (c / 16 * 16 + k)) 4 hot) d
  let n := NMap.getD (d.rchan c).postponed bank 0
  if d.bankWaited c bank ∧ n < 8 then d.modRchan c fun ch => { ch with postponed := NMap.set ch.postponed bank (n + 1) }
  else d.modRchan c fun ch => { ch with
    rows := NMap.del ch.rows bank
    postponed := if n ≤ 1 then NMap.del ch.postponed bank else NMap.set ch.postponed bank (n - 1) }

/-- A stack brought out of self-refresh in Doze has had no request for 100 µs and goes back (R207). -/
def Device.selfRefreshIdle (d : Device) (st : Nat) : Device :=
  if d.pwrState = 2 ∧ NMap.getD d.rstore.lastReq st 0 + 100000 ≤ d.transit then d.setFlag Off.rstoreSelfref st true else d

/-! ### The bytes of the heap (R72, R195, R199) -/

/-- The store address of heap offset `x`; none outside the HEAP region. -/
def Device.heapAddr (d : Device) (x : Nat) : Option Nat :=
  (d.regionBase 1).bind fun b =>
    match d.regionOf (b + x) with
    | some n => if d.fld (Off.rstoreRegion n) 30 28 = 1 then some (b + x) else none
    | none => none

def Device.storeRead (d : Device) (a n : Nat) : List Byte := Mem.readN 0 d.rstore.bytes a n

/-- Bytes written to the store; a codeword written whole is good again. -/
def Device.storeWrite (d : Device) (a : Nat) (bs : List Byte) : Device :=
  d.modRstore fun r => { r with
    bytes := Mem.writeN 0 r.bytes a bs
    poison := r.poison.filter fun k => decide (16 * k < a ∨ a + bs.length < 16 * k + 16) }

/-- Whether a store address reads as poisoned: its channel has failed, or its codeword is uncorrectable (R198, R212). -/
def Device.storePoisoned (d : Device) (a : Nat) : Bool :=
  d.rstore.poison.contains (a / 16) || match d.locate a with
    | some l => d.chanFailed l.chan
    | none => false

/-- Uncorrectable codewords of a channel are counted with their time; those of more than a second ago are let go. -/
def Device.countUe (d : Device) (c n : Nat) : Device :=
  d.modRchan c fun x => { x with
    ues := (x.ues.filter fun u => decide (d.transit < u.1 + 1000000000)) ++ (if n = 0 then [] else [(d.transit, n)]) }

/-- A codeword of the store has become uncorrectable (R198, R199). -/
def Device.poisonWord (d : Device) (k : Nat) : Device :=
  if d.rstore.poison.contains k then d else d.modRstore fun r => { r with poison := r.poison ++ [k] }

/-! ### Record traffic (R177, R178, R201) -/

/-- The channel of a render bucket under the order of the region that holds it (R196). -/
def Device.recordChannel (d : Device) (bucket : Nat) : Nat :=
  match d.locate (1024 * bucket) with
  | some l => l.chan
  | none => 0

/-- A bucket in a failed channel reads as empty and takes no record (R212). -/
def Device.bucketFailed (d : Device) (bucket : Nat) : Bool :=
  match d.locate (1024 * bucket) with
  | some l => d.chanFailed l.chan
  | none => false

/-- The requests of a fetch: both candidate buckets of 1 KiB through port FETCH (R169); a bucket in a failed channel is not
read. -/
def Device.requestFetch (d : Device) (a b : Nat) : Device :=
  (d.request 0 (8, 0) (1024 * a) false 32).request 0 (8, 0) (1024 * b) false 32

/-- A read of the render copy at handle `h` by a command, through port FETCH (R166, R201). -/
def Device.requestRead (d : Device) (h : Nat) : Device := d.request 0 (8, 0) (128 * h) false 4

/-- A write of `n` bytes to the render copy at handle `h` through port WRITEBACK. -/
def Device.requestWrite (d : Device) (h n : Nat) : Device := d.request 1 (9, 0) (128 * h) true (n / 32)

/-- Darby reads or writes the store through port HOST (R201). -/
def Device.darbyAccess (d : Device) (addr : Nat) (write : Bool) (bursts : Nat) : Device := d.request 5 (4, 0) addr write bursts

/-- The sander reads `bursts` at a store address through its port (R185, R200). -/
def Device.scrub (d : Device) (addr bursts : Nat) : Device := d.request 3 (10, 0) addr false bursts

end Sys2Proof.Machine
end

