-- ==== Sys2Proof/Machine/Flow.lean ====
section
/-! DEFINITION. Flow records and the two stores: the record layout, the update order, buckets, installs, demotion,
relocation, insertion and removal (R149 to R168, R174 to R180). -/

namespace Sys2Proof.Machine

/-! ### The record (R151, R152) -/

/-- Identity of a record image (R149). -/
def recId (b : List Byte) : FlowId := ⟨fieldLE b 50 1 % 16, sliceB b 0 (fieldLE b 49 1)⟩

def recFlags (b : List Byte) : Nat := fieldLE b 48 1
def recValid (b : List Byte) : Bool := bit (recFlags b) 0
def recPinned (b : List Byte) : Bool := bit (recFlags b) 1
def recStale (b : List Byte) : Bool := bit (recFlags b) 3
def recDirty (b : List Byte) : Bool := bit (recFlags b) 4
def recNoage (b : List Byte) : Bool := bit (recFlags b) 5
def recTier (b : List Byte) : Nat := recFlags b / 64 % 4
def recPart (b : List Byte) : Nat := fieldLE b 50 1 / 16
def recHeat (b : List Byte) : Nat := fieldLE b 51 1 % 16
def recQpin (b : List Byte) : Bool := bit (fieldLE b 51 1) 4
def recStamp (b : List Byte) : Nat := fieldLE b 56 3
def recLease (b : List Byte) : Nat := fieldLE b 59 1

def Upd.apply (b : List Byte) (u : Upd) : List Byte :=
  match u with
  | .put off bytes => patchB b off bytes
  | .add off n v => patchB b off (bytesLE n ((fieldLE b off n + v) % 2 ^ (8 * n)))
  | .mask off keep set => patchB b off (bytesLE 1 ((fieldLE b off 1 &&& keep) ||| set))

def updsApply (b : List Byte) (us : List Upd) : List Byte := us.foldl Upd.apply b

/-- The change that sets or clears one bit of the FLAGS byte. -/
def flagUpd (n : Nat) (on : Bool) : Upd := .mask 48 (255 - 2 ^ n) (if on then 2 ^ n else 0)

def tierUpd (t : Nat) : Upd := .mask 48 63 (64 * t)

/-- The present seen-time (R152). -/
def Device.seenTime (d : Device) : Nat := (d.tbNow 0).ns % 2 ^ 30 + (d.tbNow 0).sec % 4 * 2 ^ 30

/-- The present age tick, bits [43:20] of the transit count (R151, R152). -/
def Device.ageTick (d : Device) : Nat := bits d.transit 43 20

/-! ### Buckets (R157, R158) -/

/-- The store input of an identity: the key bytes and then the flow space (R157). -/
def FlowId.input (i : FlowId) : List Byte := i.key ++ [BitVec.ofNat 8 i.space]

/-- The two candidate buckets; equal candidates differ in bit 0 (R158). -/
def FlowId.skimBuckets (i : FlowId) : Nat × Nat :=
  let a := h1 i.input % 2 ^ 19
  let b := h2 i.input % 2 ^ 19
  (a, if a = b then a ^^^ 1 else b)

def FlowId.renderBuckets (i : FlowId) : Nat × Nat :=
  let a := h1 i.input / 2 ^ 9
  let b := h2 i.input / 2 ^ 9
  (a, if a = b then a ^^^ 1 else b)

/-- The skim bank group of the first skim candidate (R159, R166). -/
def FlowId.group (i : FlowId) : Nat := i.skimBuckets.1 % 32

/-- The digest block of an identity (R186), over all spaces. -/
def FlowId.block (i : FlowId) : Nat := i.space * 4096 + h1 i.input / 2 ^ 20

/-- The places of a bucket: 4 ways in skim, 8 in render. -/
def skimWays (b : Nat) : List Nat := (List.range 4).map (4 * b + ·)
def renderWays (b : Nat) : List Nat := (List.range 8).map (8 * b + ·)

def FlowId.skimPlaces (i : FlowId) : List Nat := skimWays i.skimBuckets.1 ++ skimWays i.skimBuckets.2
def FlowId.renderPlaces (i : FlowId) : List Nat := renderWays i.renderBuckets.1 ++ renderWays i.renderBuckets.2

/-! ### Reading and changing records -/

def Device.modFlow (d : Device) (f : Flow → Flow) : Device := { d with flow := f d.flow }

def Device.runOf (d : Device) (h : Nat) : List RunEntry := NMap.getD d.flow.runs h []

/-- The changes of the first places of an update order, up to and not including that of frame `f`; all of them when `f` is
none. -/
def runBefore (r : List RunEntry) (f : Option Nat) : List Upd :=
  (r.takeWhile fun e => f.isNone || e.frame != f).flatMap RunEntry.upds

/-- The place of the skim copy of a record. -/
def Device.skimAt (d : Device) (h : Nat) : Option Nat := (d.flow.skim.find? fun p => p.2.handle == h).map (·.1)

def Device.skimFind (d : Device) (i : FlowId) : Option Nat :=
  i.skimPlaces.find? fun p => match NMap.get? d.flow.skim p with
    | some c => recValid c.bytes && recId c.bytes == i
    | none => false

/-- The handle of a record, wherever its authoritative copy lies (R154, R177). -/
def Device.homeOf (d : Device) (i : FlowId) : Option Nat :=
  i.renderPlaces.find? fun h => !d.bucketFailed (h / 8) && match NMap.get? d.flow.render h with
    | some b => recValid b && recId b == i
    | none => false

def Device.queued (d : Device) (h : Nat) : Option (List Byte) := (d.flow.wbq.find? fun p => p.1 == h).map (·.2)

/-- The partition a record carries: in an owned space the owning partition, in a shared one that of its insert (R150). -/
def Device.partOf (d : Device) (b : List Byte) : Nat :=
  let ctl := Off.flowSpaceCtl (recId b).space
  if d.flag ctl 30 then recPart b else d.fld ctl 29 26

/-- A record image with the partition it carries. -/
def Device.carried (d : Device) (b : List Byte) : List Byte :=
  patchB b 50 [BitVec.ofNat 8 ((recId b).space + 16 * d.partOf b)]

/-- The authoritative copy before the changes that stand in the update order: skim copy, queued copy or home (R154,
R177); for a number from 2^26 on, the copy of a removed record that frames still in their passes see (R43). -/
def Device.baseCopy (d : Device) (h : Nat) : Option (List Byte) :=
  let raw : Option (List Byte) := match d.skimAt h with
    | some p => (NMap.get? d.flow.skim p).map SkimCopy.bytes
    | none => match d.queued h with
      | some b => some b
      | none => (NMap.get? d.flow.render h).orElse fun _ => NMap.get? d.flow.ghosts h
  raw.map d.carried

/-- The authoritative copy with every change applied. -/
def Device.authCopy (d : Device) (h : Nat) : Option (List Byte) :=
  (d.baseCopy h).map fun b => updsApply b (runBefore (d.runOf h) none)

/-- The record as frame `f` sees it: the changes of the frames before it in the update order (R43, R45). -/
def Device.viewOf (d : Device) (h f : Nat) : Option (List Byte) :=
  (d.baseCopy h).map fun b => updsApply b (runBefore (d.runOf h) (some f))

/-- The record with the frame's own changes as well (R46). -/
def Device.viewOwn (d : Device) (h f : Nat) : Option (List Byte) :=
  (d.viewOf h f).map fun b =>
    updsApply b (((d.runOf h).filter fun e => e.frame == some f).flatMap RunEntry.upds)

/-- The base of the authoritative copy replaced. -/
def Device.setBase (d : Device) (h : Nat) (b : List Byte) : Device :=
  match d.skimAt h with
  | some p => d.modFlow fun w => { w with skim := NMap.set w.skim p ⟨h, b⟩ }
  | none =>
    if (d.queued h).isSome then d.modFlow fun w => { w with wbq := w.wbq.map fun q => if q.1 = h then (h, b) else q }
    else if NMap.has d.flow.ghosts h then d.modFlow fun w => { w with ghosts := NMap.set w.ghosts h b }
    else d.modFlow fun w => { w with render := NMap.set w.render h (updsApply b [flagUpd 4 false]) }

/-- Places at the front of the update order whose frames have left are applied for good; the copy of a removed record goes with
its last frame. -/
def Device.settleRun (d : Device) (h : Nat) : Device :=
  let r := d.runOf h
  let gone := r.takeWhile fun e => e.frame.isNone
  let rest := r.dropWhile fun e => e.frame.isNone
  let d := match d.baseCopy h with
    | some b => if gone.isEmpty then d else d.setBase h (updsApply b (gone.flatMap RunEntry.upds))
    | none => d
  d.modFlow fun w => { w with
    runs := if rest.isEmpty then NMap.del w.runs h else NMap.set w.runs h rest
    ghosts := if rest.isEmpty then NMap.del w.ghosts h else w.ghosts }

/-- A change takes its place at the end of a record's update order (R162). -/
def Device.addRun (d : Device) (h : Nat) (e : RunEntry) : Device :=
  (d.modFlow fun w => { w with runs := NMap.set w.runs h (d.runOf h ++ [e]) }).settleRun h

/-- A change of the record that the two copies share, which leaves DIRTY as it is (R155). -/
def Device.quietUpdate (d : Device) (h : Nat) (us : List Upd) : Device :=
  if (d.baseCopy h).isSome then d.addRun h ⟨none, false, us⟩ else d

/-- A change to the authoritative copy alone: a skim copy, or one in the write-back queue, then differs from its home and is dirty
(R155, R162). A record that is gone takes no change. -/
def Device.update (d : Device) (h : Nat) (us : List Upd) : Device :=
  d.quietUpdate h (if (d.skimAt h).isSome ∨ (d.queued h).isSome then us ++ [flagUpd 4 true] else us)

/-- A program update of a frame, at the frame's place in the update order; beyond the limit of R163 it is not applied. -/
def Device.frameUpdate (d : Device) (h f : Nat) (us : List Upd) : Device :=
  (d.modFlow fun w => { w with runs := NMap.modify w.runs h (fun r =>
    r.map fun e => if e.frame = some f ∧ !e.beyond then { e with upds := e.upds ++ us } else e) })

/-- Whether a frame's program updates on the record are applied (R163). -/
def Device.updatesApply (d : Device) (h f : Nat) : Bool :=
  (d.runOf h).any fun e => e.frame == some f && !e.beyond

/-- The frame has left: its changes stand, and its place no longer waits for it (R45). -/
def Device.endRun (d : Device) (h f : Nat) : Device :=
  (d.modFlow fun w => { w with runs := NMap.modify w.runs h (fun r =>
    r.map fun e => if e.frame = some f then { e with frame := none } else e) }).settleRun h

/-- The changes of R44 at a hit: FRAMES, LAST_SEEN, STAMP, DIRTY, and STALE cleared in the same step (R182). -/
def Device.hitUpds (d : Device) : List Upd :=
  [.add 64 6 1, .put 60 (bytesLE 4 d.seenTime), .put 56 (bytesLE 3 d.ageTick), .mask 48 (255 - 8) 16]

/-- The byte count of R44. -/
def byteUpd (len : Nat) : List Upd := [.add 72 8 len]

/-- A digest block changed during the walk (R186). -/
def Device.touchBlock (d : Device) (i : FlowId) : Device :=
  if d.flow.changed.contains i.block then d else d.modFlow fun w => { w with changed := w.changed ++ [i.block] }

/-- A change to the authoritative copy and to the render copy in one operation (R155). -/
def Device.bothUpdate (d : Device) (h : Nat) (us : List Upd) : Device :=
  let d := d.quietUpdate h us
  match NMap.get? d.flow.render h with
  | some b => if (d.skimAt h).isSome ∨ (d.queued h).isSome then
      d.modFlow fun w => { w with render := NMap.set w.render h (updsApply b us) } else d
  | none => d

/-- A command that reaches a record authoritative in the render store reads its home slot first (R166). -/
def Device.readHome (d : Device) (h : Nat) : Device :=
  if (d.skimAt h).isSome ∨ (d.queued h).isSome then d else d.requestRead h

/-- A command's change, written to the home through port WRITEBACK after `readHome` (R155, R166, R201). The write is of the whole
record (DESIGN CHOICE, log, entry 86). -/
def Device.commandUpdate (d : Device) (h : Nat) (us : List Upd) : Device :=
  ((d.readHome h).bothUpdate h us).requestWrite h 128

/-! ### Render traffic and occurrences -/

/-- Bytes moved to and from the render store in the tuning interval (R178). -/
def Device.moved (d : Device) (n : Nat) : Device := d.modFlow fun w => { w with moved := w.moved + n }

/-- An occurrence of a flow event with the record's handle and partition (R500). -/
def Device.occFlow (d : Device) (code : Nat) (master : Option (Nat × Nat)) (h : Nat) : Device :=
  let part := (d.baseCopy h).map recPart
  d.occ ⟨code, 1, none, none, master, some h, part⟩

/-! ### Demotion and installs (R175 to R177) -/

/-- Room in the write-back queue (R177). -/
def Device.wbqRoom (d : Device) : Bool := decide (d.flow.wbq.length < 4096)

/-- A skim copy leaves for the write-back queue (R177). -/
def Device.demote (d : Device) (p : Nat) : Device :=
  match NMap.get? d.flow.skim p with
  | some c =>
    let d := d.occFlow 0x206 (some (9, 0)) c.handle
    d.modFlow fun w => { w with skim := NMap.del w.skim p, wbq := w.wbq ++ [(c.handle, c.bytes)] }
  | none => d

/-- A queued write-back reaches its home: TIER 0b00, DIRTY 0; a clean copy moves 64 bytes, a dirty one 128 (R177, R189). -/
def Device.writeBack (d : Device) (h : Nat) : Device :=
  match d.queued h with
  | some b =>
    let n := if recDirty b || !(d.runOf h).isEmpty then 128 else 64
    let d := (d.moved n).requestWrite h n
    d.modFlow fun w => { w with
      wbq := w.wbq.filter fun q => q.1 ≠ h
      render := NMap.set w.render h (updsApply b [tierUpd 0, flagUpd 4 false]) }
  | none => d

/-- Whether the identity of a copy has an open lodge entry. -/
def Device.lodged? (d : Device) (i : FlowId) : Option LodgeEntry := d.flow.lodge.find? fun e => e.id == i

/-- The skim copy at a place with every change applied. -/
def Device.copyNow (d : Device) (p : Nat) : Option (List Byte) :=
  (NMap.get? d.flow.skim p).map fun c => updsApply c.bytes (runBefore (d.runOf c.handle) none)

/-- The skim bank group that holds a record's copy: that of the bucket it stands in, else of its first candidate (R159, R166). -/
def Device.groupOf (d : Device) (h : Nat) : Nat :=
  match d.skimAt h with
  | some p => p / 4 % 32
  | none => match d.baseCopy h with
    | some b => (recId b).group
    | none => 0

/-- A way whose copy may be displaced: not pinned nor moving, its identity without an open lodge entry (R176). -/
def Device.displaceable (d : Device) (p : Nat) : Bool :=
  match d.copyNow p with
  | some b => !recPinned b && !bit (recFlags b) 2 && (d.lodged? (recId b)).isNone
  | none => false

/-- How long ago a copy was hit, in ticks modulo 2^24. -/
def Device.copyAge (d : Device) (p : Nat) : Nat :=
  match d.copyNow p with
  | some b => (d.ageTick + 2 ^ 24 - recStamp b) % 2 ^ 24
  | none => 0

/-- Of the places that satisfy `q`, that whose copy has the oldest STAMP; ties go to the first. -/
def Device.oldest (d : Device) (ps : List Nat) (q : Nat → Bool) : Option Nat :=
  (ps.filter q).foldl (fun b p => match b with
    | none => some p
    | some x => if d.copyAge x < d.copyAge p then some p else b) none

def Device.copyTier (d : Device) (p : Nat) : Nat :=
  match d.copyNow p with | some b => recTier b | none => 0

/-- The other candidate's places of the copy at a place. -/
def Device.otherWays (d : Device) (p : Nat) : List Nat :=
  match NMap.get? d.flow.skim p with
  | some c =>
    let (a, b) := (recId c.bytes).skimBuckets
    if p / 4 = a then skimWays b else skimWays a
  | none => []

/-- A way freed by a single relocation: the place and where its copy goes (R168, R176). -/
def Device.relocatable (d : Device) (ps : List Nat) (q : Nat → Bool) : Option (Nat × Nat) :=
  ps.findSome? fun p =>
    if q p then ((d.otherWays p).find? fun o => !NMap.has d.flow.skim o).map fun o => (p, o) else none

/-- A skim copy relocated to another way in the steps of R168: written there as MOVING, gone from the old way, no longer MOVING. -/
def Device.relocate (d : Device) (p o : Nat) : Device :=
  match NMap.get? d.flow.skim p with
  | some c =>
    let d := d.modFlow fun w => { w with skim := NMap.set w.skim o { c with bytes := updsApply c.bytes [flagUpd 2 true] } }
    let d := d.modFlow fun w => { w with skim := NMap.del w.skim p }
    let d := d.modFlow fun w => { w with skim := NMap.set w.skim o { c with bytes := updsApply c.bytes [flagUpd 2 false] } }
    d.touchBlock (recId c.bytes)
  | none => d

/-- What stands in the way of an install among some ways (R176, R177): a way is free to take, only a demotion that waits for room in
the write-back queue gives one, or none can take the copy. -/
inductive SkimWay where
  | free (d : Device) (place : Nat)
  | waits
  | none_

/-- The way R176 gives an install among the places `ps`, with the device after what it takes to free it. -/
def Device.wayAmong (d : Device) (ps : List Nat) : SkimWay :=
  match ps.find? fun p => !NMap.has d.flow.skim p with
  | some p => .free d p
  | none =>
    match d.relocatable ps fun p => d.displaceable p && d.copyTier p == 3 with
    | some (p, o) => .free (d.relocate p o) p
    | none =>
      match d.oldest ps fun p => d.displaceable p && d.copyTier p == 2 with
      | some p => if d.wbqRoom then .free (d.demote p) p else .waits
      | none => match d.oldest ps fun p => d.displaceable p && d.copyTier p == 3 with
        | some p =>
          let h := match NMap.get? d.flow.skim p with | some c => c.handle | none => 0
          if d.wbqRoom then
            .free (((d.occFlow 0x205 (some (9, 0)) h).modFlow fun w => { w with evicted := w.evicted + 1 }).demote p) p
          else .waits
        | none => .none_

/-- The way an install takes; none when no way can take the copy. -/
def Device.installWay (d : Device) (i : FlowId) : Option (Device × Nat) :=
  match d.wayAmong i.skimPlaces with
  | .free d p => some (d, p)
  | _ => none

/-- Installs made in the current microsecond of the transit count (R176). -/
def Device.installsNow (d : Device) : Nat :=
  if d.flow.installs.1 = d.transit / 1000 then d.flow.installs.2 else 0

/-- An install of the identity waits for a demotion that the full write-back queue holds back (R177). -/
def Device.installWaits (d : Device) (i : FlowId) : Bool :=
  decide (d.installsNow < 40) && match d.wayAmong i.skimPlaces with
    | .waits => true
    | _ => false

/-- The bytes of a new skim copy and of the render copy it is taken from (R155, R170). -/
def asSkim (b : List Byte) (tier : Nat) : List Byte := updsApply b [tierUpd tier, flagUpd 4 false]

/-- A copy of the record at home `h` is installed with TIER `tier` (0b10 transient, 0b11 resident), within the limit of 40
a microsecond; none when it cannot be (R176). A record in the write-back queue is taken from there (R169). -/
def Device.install (d : Device) (h tier : Nat) : Option Device :=
  match d.baseCopy h with
  | none => none
  | some b =>
    if d.installsNow ≥ 40 then none
    else (d.installWay (recId b)).map fun (d, p) =>
      let d := d.occFlow 0x204 (some (8, 0)) h
      let dirty := (d.queued h).isSome && recDirty b
      let copy := if dirty then updsApply b [tierUpd tier] else asSkim b tier
      ((d.moved 64).requestWrite h 64).modFlow fun w => { w with
        skim := NMap.set w.skim p ⟨h, copy⟩
        wbq := w.wbq.filter fun q => q.1 ≠ h
        render := NMap.modify w.render h (fun r => updsApply r [tierUpd 1])
        installs := (d.transit / 1000, d.installsNow + 1) }

/-- The same, with the skim copy made resident where one exists (R179). -/
def Device.makeResident (d : Device) (h : Nat) : Option Device :=
  match d.skimAt h with
  | some _ => some (d.quietUpdate h [tierUpd 3])
  | none => d.install h 3

/-! ### Pinning (R179, R180) -/

def Device.pinnedCount (d : Device) : Nat :=
  (d.flow.skim.filter fun p => recPinned (updsApply p.2.bytes (runBefore (d.runOf p.2.handle) none))).length

def Device.pinMax (d : Device) : Nat := min 1572864 (d.fld Off.flowPinMax 20 0)

def Device.bucketPins (d : Device) (b : Nat) : Nat :=
  ((skimWays b).filter fun p => match NMap.get? d.flow.skim p with
    | some c => recPinned (updsApply c.bytes (runBefore (d.runOf c.handle) none))
    | none => false).length

/-- A way of the buckets `bs` freed by the relocation of one pinned copy into a bucket that takes it: its place and where it goes. -/
def Device.pinRelocation (d : Device) (bs : List Nat) (own : Nat) : Option (Nat × Nat) :=
  (bs.flatMap skimWays).findSome? fun q =>
    if q != own && (match d.copyNow q with | some c => recPinned c | none => false) then
      ((d.otherWays q).find? fun o => !NMap.has d.flow.skim o && decide (d.bucketPins (o / 4) < 3)).map fun o => (q, o)
    else none

/-- Where the resident copy at `p` may stand pinned: its own bucket while that holds fewer than 3 pinned copies, else a way of the
other candidate by R176, else a bucket freed by one relocation of a pinned copy (R179). Answers the device with the copy there. -/
def Device.pinRoom (d : Device) (i : FlowId) (p : Nat) : Option Device :=
  let (a, b) := i.skimBuckets
  let other := if p / 4 = a then b else a
  if d.bucketPins (p / 4) < 3 then some d
  else if d.bucketPins other < 3 then match d.wayAmong (skimWays other) with
    | .free d o => some (d.relocate p o)
    | _ => none
  else match d.pinRelocation [a, b] p with
    | some (q, o) =>
      let d := d.relocate q o
      some (if q / 4 = p / 4 then d else d.relocate p q)
    | none => none

/-- A pin of a record waits for room in the write-back queue (R177): that of the install it needs, or of the displacement that
`pinRoom` asks of the other bucket. -/
def Device.pinWaits (d : Device) (i : FlowId) (place : Option Nat) : Bool :=
  let full (d : Device) (p : Nat) : Bool :=
    let (a, b) := i.skimBuckets
    let other := if p / 4 = a then b else a
    decide (3 ≤ d.bucketPins (p / 4) ∧ d.bucketPins other < 3) && (match d.wayAmong (skimWays other) with | .waits => true | _ => false)
  match place with
  | some p => full d p
  | none => d.installWaits i || (match d.installWay i with | some (e, p) => full e p | none => false)

/-- A pin of the record at `h`: its copy is made resident first, its bucket then holds at most 3 pinned copies; none when it cannot
be (R179). -/
def Device.pin (d : Device) (h : Nat) : Option Device :=
  match d.authCopy h with
  | none => none
  | some b =>
    if recPinned b then some d
    else if d.pinnedCount ≥ d.pinMax then none
    else (d.makeResident h).bind fun d => (d.skimAt h).bind fun p =>
      (d.pinRoom (recId b) p).map fun d => d.commandUpdate h [flagUpd 1 true]

/-! ### Insertion (R165, R167) -/

def Device.renderFree (d : Device) (h : Nat) : Bool :=
  !d.bucketFailed (h / 8) && !(match NMap.get? d.flow.render h with | some b => recValid b | none => false)

/-- What names a render slot follows a record that moves: its skim copy's home, its update order, the settings a quote keeps, the
frames and tasks that hit it, and the lease of its lock (R168, step 4). -/
def Device.rehome (d : Device) (h o : Nat) : Device :=
  let mv (x : Nat) : Nat := if x = h then o else x
  let r := d.runOf h
  let d := d.modFlow fun w => { w with
    skim := w.skim.map fun (p, c) => (p, { c with handle := mv c.handle })
    runs := (if r.isEmpty then NMap.del w.runs h else NMap.set (NMap.del w.runs h) o r)
    soft := match NMap.get? w.soft h with | some s => NMap.set (NMap.del w.soft h) o s | none => w.soft }
  { d with
    buf := { d.buf with frames := d.buf.frames.map fun (k, x) => (k, { x with hit := x.hit.map mv, owed := x.owed.map mv }) }
    scaf := { d.scaf with tasks := d.scaf.tasks.map fun (k, t) =>
      (k, { t with hit := t.hit.map mv, locks := t.locks.map mv }) }
    fault := { d.fault with leases := d.fault.leases.map fun l => if l.kind = 2 then { l with index := mv l.index } else l } }

/-- A render record moved to another slot in the steps of R168: Darby reads it and writes it there as MOVING, with its skim copy's
home changed at the same point; VALID goes at the old slot; MOVING goes at the new one. -/
def Device.moveHome (d : Device) (h o : Nat) : Device :=
  match NMap.get? d.flow.render h with
  | none => d
  | some b =>
    let d := (d.darbyAccess (128 * h) false 4).modFlow fun w => { w with render := NMap.set w.render o (updsApply b [flagUpd 2 true]) }
    let d := (d.rehome h o).requestWrite o 128
    let d := (d.modFlow fun w => { w with render := NMap.del w.render h }).requestWrite h 64
    let d := (d.modFlow fun w => { w with render := NMap.set w.render o (updsApply b [flagUpd 2 false]) }).requestWrite o 64
    d.touchBlock (recId b)

/-- Whether a render record may be relocated: no entry in the write-back queue, no open lodge entry (R168). -/
def Device.mayMove (d : Device) (h : Nat) : Bool :=
  match NMap.get? d.flow.render h with
  | some b => recValid b && (d.queued h).isNone && (d.lodged? (recId b)).isNone
  | none => false

/-- The ways of the other candidate of the record at `h`. -/
def Device.otherHomes (d : Device) (h : Nat) : List Nat :=
  match NMap.get? d.flow.render h with
  | some b =>
    let (a, c) := (recId b).renderBuckets
    if h / 8 = a then renderWays c else renderWays a
  | none => []

/-- The search for a chain of at most `fuel` relocations that frees a way, first by fewer moves, no slot being looked at twice. Each
slot of `hs` comes with the moves that free it once it is free itself, last first to be made; `seen`: the slots looked at (R167). -/
def Device.chain (d : Device) : Nat → List Nat → List (Nat × List (Nat × Nat)) → Option (List (Nat × Nat))
  | 0, _, _ => none
  | fuel + 1, seen, hs =>
    let next := hs.foldl (fun acc (h, ms) =>
      if d.mayMove h then (d.otherHomes h).foldl (fun acc o =>
        if seen.contains o || acc.any (fun x => x.1 == o) then acc else acc ++ [(o, (h, o) :: ms)]) acc
      else acc) []
    match next.find? fun x => d.renderFree x.1 with
    | some x => some x.2
    | none => if next.isEmpty then none else d.chain fuel (seen ++ next.map (·.1)) next

/-- A free home for an identity: a free way of either candidate, else one freed by relocations (R167). The moves are made
from the far end of the chain, so that every record moves into a way already free. -/
def Device.freeHome (d : Device) (i : FlowId) : Option (Device × Nat) :=
  match i.renderPlaces.find? fun h => d.renderFree h with
  | some h => some (d, h)
  | none =>
    let starts := i.renderPlaces.filter fun h => !d.bucketFailed (h / 8)
    (d.chain 16 starts (starts.map fun h => (h, []))).bind fun ms =>
      ms.getLast?.map fun (h, _) => (ms.foldl (fun d (a, b) => d.moveHome a b) d, h)

def Device.spaceEn (d : Device) (s : Nat) : Bool := d.flag (Off.flowSpaceCtl s) 31

/-- The partition of a record inserted into a space (R150). -/
def Device.insertPart (d : Device) (s : Nat) (img : List Byte) : Nat :=
  if d.flag (Off.flowSpaceCtl s) 30 then recPart img else d.fld (Off.flowSpaceCtl s) 29 26

def Device.showCount (d : Device) (s : Nat) (n : Int) : Device :=
  let off := Off.flowSpaceCount s
  d.setReg off (((d.reg off : Nat) : Int) + n).toNat

/-- The image of a new record (R165). -/
def Device.newRecord (d : Device) (i : FlowId) (part : Nat) (state : List Byte) (noage : Bool) : List Byte :=
  fitB 48 i.key ++ bytesLE 1 (1 + 32 * b2n noage) ++ bytesLE 1 i.key.length ++ bytesLE 1 (i.space + 16 * part) ++
    [0] ++ bytesLE 4 d.seenTime ++ bytesLE 3 d.ageTick ++ [0] ++ bytesLE 4 d.seenTime ++ bytesLE 6 0 ++ bytesLE 2 0 ++
    bytesLE 8 0 ++ fitB 48 state

/-- A record is inserted whole or not at all (R165, R167): the device and the handle; none for NO_SPACE. -/
def Device.insertRecord (d : Device) (i : FlowId) (part : Nat) (state : List Byte) (resident pinIt noage : Bool) :
    Option (Device × Nat) :=
  let limit := d.fld (Off.flowSpaceLimit i.space) 25 0
  if limit ≠ 0 ∧ d.fld (Off.flowSpaceCount i.space) 26 0 ≥ limit then none
  else (d.freeHome i).bind fun (d, h) =>
    let d := d.modFlow fun w => { w with
      render := NMap.set w.render h (d.newRecord i part state noage)
      absent := w.absent.filter fun a => a.1 ≠ i }
    let d := ((d.showCount i.space 1).touchBlock i).requestWrite h 128
    if pinIt then (d.pin h).map fun d => (d, h)
    else if resident then (d.makeResident h).map fun d => (d, h)
    else some (d, h)

/-! ### Removal (R165, R182) -/

/-- The locks a task goes on holding; the last one frees it from its engine (R389). -/
def Task.keepLocks (x : Task) (q : Nat → Bool) : Task :=
  let ls := x.locks.filter q
  if ls.length = x.locks.length then x else { x with locks := ls, lockEngine := if ls.isEmpty then none else x.lockEngine }

/-- The copy of a record that is about to go is kept, under a number of its own, for the frames in their passes that see it (R43,
R182); the byte counts that they owe it are dropped, and a task's hit on it and its lock of it with them. -/
def Device.keepGhost (d : Device) (h : Nat) (b : List Byte) : Device :=
  let g := d.flow.nextGhost
  let run := d.runOf h
  let seen := run.any fun e => e.frame.isSome
  let mv (x : Nat) : Option Nat := if x = h then (if seen then some g else none) else some x
  let d := if seen then d.modFlow fun w => { w with
      ghosts := NMap.set w.ghosts g b, runs := NMap.set w.runs g run, nextGhost := g + 1 } else d
  { d with
    buf := { d.buf with frames := d.buf.frames.map fun (k, x) =>
      (k, { x with hit := x.hit.bind mv, owed := x.owed.filter (· ≠ h) }) }
    scaf := { d.scaf with tasks := d.scaf.tasks.map fun (k, t) => (k, (Task.keepLocks { t with hit := t.hit.filter (· ≠ h) } fun x => x ≠ h)) } }

/-- Both copies and the queued copy of a record are gone, VALID in its home with them; its lease of a lock too. -/
def Device.removeRecord (d : Device) (h : Nat) : Device :=
  match d.baseCopy h with
  | none => d
  | some b =>
    let i := recId b
    (((((d.showCount i.space (-1)).touchBlock i).unlease 2 h).keepGhost h b).modFlow fun w => { w with
      render := NMap.del w.render h
      skim := w.skim.filter fun p => p.2.handle ≠ h
      wbq := w.wbq.filter fun q => q.1 ≠ h
      runs := NMap.del w.runs h
      soft := NMap.del w.soft h }).requestWrite h 64

/-- A LEARN notice of kind NEW or AGED (R184, R419). -/
def Device.learnNotice (d : Device) (kind : Nat) (i : FlowId) (part : Nat) (keyLost : Bool) (port hint handle : Nat) :
    Device :=
  let ctl := Off.flowSpaceCtl i.space
  let key := fitB 48 i.key
  let body := bytesLE 1 kind ++ bytesLE 1 (i.space + 16 * part) ++ bytesLE 1 i.key.length ++ bytesLE 1 (b2n keyLost) ++
    bytesLE 2 port ++ bytesLE 2 0 ++ bytesLE 4 hint ++ bytesLE 4 handle ++ sliceB key 0 32
  (d.notice (d.fld ctl 22 22) (d.fld ctl 21 19) 1 body (some (sliceB key 32 16))).1

/-- A record is removed as "flow aged out", with its LEARN notice of kind AGED (R27, R188). -/
def Device.ageOut (d : Device) (h : Nat) (keyLost : Bool) : Device :=
  match d.authCopy h with
  | none => d
  | some b => (d.removeRecord h).learnNotice 1 (recId b) (recPart b) keyLost 0xFFFF 0 h

/-! ### The lodge's part in commands (R166) -/

def Device.setLodge (d : Device) (i : FlowId) (f : LodgeEntry → LodgeEntry) : Device :=
  d.modFlow fun w => { w with lodge := w.lodge.map fun e => if e.id = i then f e else e }

/-- A removal finds an open entry: its outcome becomes absent (R166). -/
def Device.lodgeRemoved (d : Device) (i : FlowId) : Device := d.setLodge i fun e => { e with outcome := .absent }

end Sys2Proof.Machine
end

