-- ==== Sys2Proof/Machine/Buffer.lean ====
section
/-! DEFINITION. The shared buffer: frames and descriptors, pools and accounts, admission, priority flow control toward the
partner, and the freeing of cells (R214 to R227, R309). -/

namespace Sys2Proof.Machine

/-! ### Ports (R288, R307) -/

/-- The ports whose register at `base` + stride × port is listed, that is, may differ from its reset value. -/
def Device.listed (d : Device) (base stride count : Nat) : List Nat :=
  d.regs.filterMap fun p =>
    if base ≤ p.1 ∧ (p.1 - base) % stride = 0 ∧ (p.1 - base) / stride < count then some ((p.1 - base) / stride) else none

def Device.macEn (d : Device) (p : Nat) : Bool := d.flag (Off.portCfg p) 31

def Device.portUp (d : Device) (p : Nat) : Bool := d.flag (Off.portStatus p) 31

/-- The enabled ports. -/
def Device.enabledPorts (d : Device) : List Nat := (d.listed (Off.portCfg 0) 0x1000 512).filter d.macEn

/-- The rate of a SPEED encoding in Gbit/s (R288); 0 for the reserved ones. -/
def speedRate (s : Nat) : Nat :=
  match s with
  | 0 => 1600 | 1 => 800 | 2 => 400 | 3 => 200 | 4 => 100 | 5 => 50 | 6 => 25 | _ => 0

def Device.spanEn (d : Device) (s : Nat) : Bool := d.flag (Off.lathCtl s) 31

/-- The lanes L of a span (R314). -/
def Device.spanL (d : Device) (s : Nat) : Nat := 2 ^ d.fld (Off.lathCtl s) 30 29

/-- The working span whose protection group has span `s` as its protect span (R332). -/
def Device.protects (d : Device) (s : Nat) : Option Nat :=
  (d.listed (Off.lathApsCtl 0) 0x4000 32).find? fun w =>
    d.flag (Off.lathApsCtl w) 31 && d.fld (Off.lathApsCtl w) 28 24 == s && w != s

/-- The enabled span of a span port number; a protect span's number is not a target (R314, R332). -/
def Device.spanOf (d : Device) (port : Nat) : Option Nat :=
  (d.listed (Off.lathCtl 0) 0x4000 32).find? fun s =>
    d.spanEn s && d.fld (Off.lathCtl s) 8 0 == port && (d.protects s).isNone

/-- A port's rate in Gbit/s, that is, in bits per nanosecond: that of its SPEED (R288), and 100 for each lane of a span port
(DEDUCED from R321, assumption log, entry 55). -/
def Device.portRate (d : Device) (p : Nat) : Nat :=
  match d.spanOf p with
  | some s => 100 * d.spanL s
  | none => speedRate (d.fld (Off.portCfg p) 30 27)

/-- PORT_CFG.MAXLEN; below 64 is taken as 64 (R307, R313). -/
def Device.maxLen (d : Device) (p : Nat) : Nat := max 64 (d.fld (Off.portCfg p) 13 0)

/-- The provision P of a port in cells (R217). -/
def Device.provision (d : Device) (p : Nat) : Nat := ceilDiv (d.maxLen p) 256 + 1

/-- The classes with priority flow control enabled toward the partner (R309). -/
def Device.pfcTxEn (d : Device) (p : Nat) : Nat := d.fld (Off.portPfc p) 6 0

def Port.reset : Port :=
  { tx := none, remainder := none, flushing := false, pauseEnd := [], pauseFrom := [], unpaused := [], wd := [],
    bring := .off, since := 0, helloAt := none, peer := none, idleFrom := 0, txAsleep := false, txWakeAt := none,
    sleepCopies := 0, sleepTx := false, sleepRefresh := 0, rxArmed := none, rxAsleepAt := none, verifySent := 0, verifyAt := 0, verified := false,
    pfcSent := [], pfcDue := 0, wire := [], errorTerm := false, aligned := false, faultSet := false, reply := 0 }

def Device.port (d : Device) (p : Nat) : Port := NMap.getD d.ports p Port.reset

def Device.modPort (d : Device) (p : Nat) (f : Port → Port) : Device :=
  { d with ports := NMap.set d.ports p (f (d.port p)) }

/-- The event source of a port's group (R436). -/
def portSource (p : Nat) : Nat := 64 + p / 8

/-! ### Frames and descriptors -/

def Device.modBuf (d : Device) (f : Buf → Buf) : Device := { d with buf := f d.buf }

def Device.frame (d : Device) (f : Nat) : Option Frame := NMap.get? d.buf.frames f

def Device.setFrame (d : Device) (f : Nat) (x : Frame) : Device :=
  d.modBuf fun b => { b with frames := NMap.set b.frames f x }

def Device.modFrame (d : Device) (f : Nat) (g : Frame → Frame) : Device :=
  d.modBuf fun b => { b with frames := NMap.modify b.frames f g }

def Device.copy (d : Device) (c : Nat) : Option Copy := NMap.get? d.buf.copies c

def Device.modCopy (d : Device) (c : Nat) (g : Copy → Copy) : Device :=
  d.modBuf fun b => { b with copies := NMap.modify b.copies c g }

def Frame.mN (x : Frame) (n : Nat) : Nat := (x.m[n]?.getD 0).toNat

def Frame.setM (x : Frame) (n v : Nat) : Frame := { x with m := x.m.setIfInBounds n (BitVec.ofNat 32 v) }

/-- A metadata vector's register n with one field replaced. -/
def setField (m : Vector Word 16) (n hi lo v : Nat) : Vector Word 16 :=
  m.setIfInBounds n (BitVec.ofNat 32 (setBits (m[n]?.getD 0).toNat hi lo v))

def vecN (m : Vector Word 16) (n : Nat) : Nat := (m[n]?.getD 0).toNat

def zeroM : Vector Word 16 := Vector.replicate 16 0

/-- Descriptors in use (R215): one per frame that has not left ingress, one per queued copy. -/
def Device.descriptors (d : Device) : Nat :=
  (d.buf.frames.filter fun p => p.2.place != .out).length + d.buf.copies.length

/-! ### Pools (R218 to R221) -/

/-- Cells charged to accounts that satisfy `q`. -/
def Device.use (d : Device) (q : Account → Bool) : Nat :=
  ((d.buf.frames.filter fun p => q p.2.acct).map fun p => p.2.cells).sum

def Device.acctUse (d : Device) (a : Account) : Nat := d.use fun b => b == a

def Account.isShared : Account → Bool
  | .shared _ _ => true
  | _ => false

def Account.isContract : Account → Bool
  | .contract _ => true
  | _ => false

def Device.sharedUse (d : Device) : Nat := d.use Account.isShared

/-- The drain reserve that a port's settings ask for: P, or 2P with preemption, while its MAC is enabled (R218). -/
def Device.drainWant (d : Device) (p : Nat) : Nat :=
  if d.macEn p then d.provision p * (if d.flag (Off.portCfg p) 22 then 2 else 1) else 0

/-- Cells charged to the drain reserve of a port: those written after its first cut-through dequeue (R218, R233). -/
def Device.drainUse (d : Device) (p : Nat) : Nat :=
  ((d.buf.frames.filter fun x => x.2.drainPort == some p).map fun x => x.2.drain).sum

def popcount (n v : Nat) : Nat := ((List.range n).filter fun i => v.testBit i).length

/-- The headroom that the settings ask for by port × 8 + class: only where priority flow control is enabled (R218). -/
def Device.headroomWant (d : Device) (k : Nat) : Nat :=
  if bit (d.pfcTxEn (k / 8)) (k % 8) then d.fld (Off.bufPortHeadroom (k / 8)) 15 0 else 0

/-- The shared size beside the sizes in force of the other pools, as an integer (R218, R219). -/
def Device.sharedNow (d : Device) : Int :=
  (655360 : Int) - (d.buf.drain.map (·.2)).sum - (d.buf.headroom.map (·.2)).sum - d.buf.contract - d.buf.recirc - d.buf.scaf

/-- The shared pool's size: what remains beside the reserves in force (R218, R219). -/
def Device.sharedSize (d : Device) : Nat := d.sharedNow.toNat

def Device.sharedFree (d : Device) : Nat := d.sharedSize - d.sharedUse

/-- A reserve made smaller takes its new size once its use has fallen to it (R219). -/
def reserveNow (now want use : Nat) : Nat := if want ≥ now then want else if use ≤ want then want else now

/-- The same for reserves by key, over those in force and those listed. -/
def reservesNow (now : NMap Nat) (keys : List Nat) (want use : Nat → Nat) : NMap Nat :=
  (keys ++ now.map (·.1)).foldl (fun m k =>
    let v := reserveNow (NMap.getD m k 0) (want k) (use k)
    if v = 0 then NMap.del m k else NMap.set m k v) now

def Device.settlePools (d : Device) : Device :=
  let hr := (d.listed (Off.bufPortHeadroom 0) 0x40 512).flatMap fun p => (List.range 7).map fun c => 8 * p + c
  d.modBuf fun b => { b with
    contract := reserveNow b.contract (d.fld Off.bufPoolContract 19 0) (d.use Account.isContract)
    recirc := reserveNow b.recirc (d.fld Off.bufPoolRecirc 19 0) (d.acctUse .recirc)
    scaf := reserveNow b.scaf (d.fld Off.bufPoolScaf 19 0) (d.acctUse .scaf)
    headroom := reservesNow b.headroom hr d.headroomWant fun k => d.acctUse (.headroom (k / 8) (k % 8))
    drain := reservesNow b.drain d.enabledPorts d.drainWant d.drainUse }

/-- Whether the registers as they stand, with the sizes they bring into force, leave the shared pool its 65,536 cells (R219). -/
def Device.poolsOk (d : Device) : Bool := decide ((65536 : Int) ≤ d.settlePools.sharedNow)

/-- The contract allowance of a port (R220): the claims of its active quotes plus 2P; a port that no quote enters on has
none (DEDUCED from the sum of R226's worked sizing and the reset value of BUF_PORT_ALLOW; assumption log, entry 12). -/
def Device.allowance (d : Device) (p : Nat) : Nat :=
  let qs := d.quotes.filter fun q => q.2.inPort == p
  if qs.isEmpty then 0 else (qs.map fun q => q.2.claim).sum + 2 * d.provision p

/-- The threshold Th of every shared account in eighths of a cell: α is 2^(BUF_ALPHA − 3) (R223). -/
def Device.threshold8 (d : Device) : Nat := d.sharedFree * 2 ^ d.fld Off.bufAlpha 2 0

/-- The most cells that Th lets an account hold (R223). -/
def Device.threshold (d : Device) : Nat := d.threshold8 / 8

/-! ### Priority flow control toward the partner (R97, R224, R309) -/

/-- The Ethernet ports of an ingress pipeline (R82). -/
def pipeOf (port : Nat) : Nat := port / 16 % 32

def Pipe.reset : Pipe := ⟨[], [], [], 0, 0, 4, 0, []⟩

def Device.pipe (d : Device) (i : Nat) : Pipe := NMap.getD d.pipes.q i Pipe.reset

def Device.modPipe (d : Device) (i : Nat) (f : Pipe → Pipe) : Device :=
  { d with pipes := { d.pipes with q := NMap.set d.pipes.q i (f (d.pipe i)) } }

/-- Whether the shed level refuses an arrival class (R477: S2 and S3). -/
def Device.shedRefuses (d : Device) (c : Nat) : Bool :=
  (decide (2 ≤ d.shed) && decide (c < 4)) || (decide (3 ≤ d.shed) && decide (c < 6))

/-- The classes asserted toward the partner, from every cause, where the port enables them (R224, R225, R309, R477). -/
def Device.assertMask (d : Device) (p : Nat) : Nat :=
  ((List.range 7).filter fun c => bit (d.pfcTxEn p) c &&
    (d.buf.asserted.contains (p, c) || bit (d.pipe (pipeOf p)).pfc c || d.shedRefuses c)).foldl (fun a c => a + 2 ^ c) 0

def Device.portMac (d : Device) (p : Nat) : List Byte :=
  bytesBE 2 (d.fld (Off.portMacHi p) 15 0) ++ bytesBE 4 (d.reg (Off.portMacLo p))

/-- A frame with its bytes filled to 60 and its FCS (R544). -/
def withFcs (b : List Byte) : List Byte :=
  let b := if b.length < 60 then fitB 60 b else b
  b ++ bytesLE 4 (crc32 b)

/-- A PFC frame of IEEE 802.1Qbb: the classes named and their times in quanta (R309). -/
def Device.pfcFrame (d : Device) (p mask : Nat) (time : Nat → Nat) : List Byte :=
  withFcs (bytesBE 6 0x0180C2000001 ++ d.portMac p ++ bytesBE 2 0x8808 ++ bytesBE 2 0x0101 ++ bytesBE 2 mask ++
    (List.range 8).flatMap fun c => bytesBE 2 (if bit mask c then time c else 0))

/-- A moment at which a condition of lane sleep did not hold: the idle time of a port starts anew, and a sleep
sequence under way is cancelled (R302). -/
def Device.notIdle (d : Device) (p : Nat) : Device :=
  if p < 512 then d.modPort p fun x => { x with idleFrom := d.transit, sleepCopies := 0 } else d

/-- A frame of the port's own is put on the wire, and counted with the frames sent (R313, R500: it carries no class). None leaves
after squelch (R31). -/
def Device.sendOwn (d : Device) (p : Nat) (b : List Byte) : Device :=
  if d.pwr.squelch then d else
  let d := (d.bump64 (Off.portTxFramesLo p) 1).bump64 (Off.portTxBytesLo p) b.length
  let d := (d.occPort 0x003 1 none p).occPort 0x004 b.length none p
  (d.modPort p fun x => { x with wire := b, errorTerm := false }).notIdle p

def Device.sendPfc (d : Device) (p mask : Nat) (time : Nat → Nat) : Device :=
  let d := (d.sendOwn p (d.pfcFrame p mask time)).bump (Off.portPfcTx p) 1
  d.modPort p fun x => { x with
    pfcSent := (List.range 8).foldl (fun m c => if bit mask c then NMap.set m c d.transit else m) x.pfcSent }

/-- The classes whose change no frame has carried yet are carried in one PFC frame, time QUANTA for an assertion and 0 for a release,
once no frame is on the wire: those that change while one is being sent go together (R309). -/
def Device.pfcFlush (d : Device) (p : Nat) : Device :=
  let due := (d.port p).pfcDue
  if due = 0 || !d.portUp p || d.pwr.squelch || (d.port p).tx.isSome then d
  else
    let on := d.fld (Off.portStatus p) 7 0
    (d.modPort p fun x => { x with pfcDue := 0 }).sendPfc p due fun c => if bit on c then d.fld (Off.portPfc p) 31 16 else 0

/-- PORT_STATUS.PAUSED_TX follows the assertions of a port; the classes that change are carried in a PFC frame (R309). -/
def Device.showPfc (d : Device) (p : Nat) : Device :=
  let new := d.assertMask p
  let old := d.fld (Off.portStatus p) 7 0
  if new = old then d
  else
    let d := d.setFld (Off.portStatus p) 7 0 new
    if d.portUp p then (d.modPort p fun x => { x with pfcDue := x.pfcDue ||| (new ^^^ old) }).pfcFlush p else d

/-- The assertions of R97 after a change of a pipeline's priority queue: class c is asserted at 64 + 16c contexts and
released below 32 + 16c. -/
def Device.pipePfc (d : Device) (i : Nat) : Device :=
  let n := (d.pipe i).prioQ.length
  let old := (d.pipe i).pfc
  let new := (List.range 6).foldl (fun a c =>
    if 64 + 16 * c ≤ n ∨ (bit old c ∧ 32 + 16 * c ≤ n) then a + 2 ^ c else a) 0
  let d := d.modPipe i fun q => { q with pfc := new }
  let d := if (d.fld (Off.pipeArb i) 15 8) < n then d.setFld (Off.pipeArb i) 15 8 (min 255 n) else d
  if new = old then d else (List.range 16).foldl (fun d k => d.showPfc (16 * i + k)) d

/-- Whether a class is lossless on a port (R224, R225). -/
def Device.lossless (d : Device) (p c : Nat) : Bool := c != 7 && bit (d.pfcTxEn p) c

/-- The condition of R224 for an assertion: the account's use plus one provision reaches Th. -/
def Device.reachesTh (d : Device) (a : Nat × Nat) : Bool :=
  decide (d.threshold8 ≤ 8 * (d.acctUse (.shared a.1 a.2) + d.provision a.1))

/-- The release of R224: the account's use is below Th − XON_GAP, or the class is lossless no more. An account whose use still reaches Th
with one provision keeps its pause (DEDUCED, log, entry 114). -/
def Device.releaseOne (d : Device) (a : Nat × Nat) : Device :=
  if !d.lossless a.1 a.2 ||
      (decide (8 * (d.acctUse (.shared a.1 a.2) + d.fld Off.bufXonGap 15 0) < d.threshold8) && !d.reachesTh a) then
    (d.modBuf fun b => { b with asserted := b.asserted.filter fun x => x ≠ a }).showPfc a.1
  else d

/-- The assertion of R224: the account's use plus one provision reaches Th. -/
def Device.assertOne (d : Device) (a : Nat × Nat) : Device :=
  if d.reachesTh a then
    (d.modBuf fun b => { b with asserted := b.asserted ++ [a] }).showPfc a.1
  else d

/-- The accounts of the lossless classes. -/
def Device.losslessAccounts (d : Device) : List (Nat × Nat) :=
  (d.listed (Off.portPfc 0) 0x1000 512).flatMap fun p => ((List.range 7).filter fun c => d.lossless p c).map fun c => (p, c)

/-- R224 for every account: a change of any pool's use or size moves the threshold of all. -/
def Device.pfcCheck (d : Device) : Device :=
  let held := d.buf.asserted
  let rest := d.losslessAccounts.filter fun a => !held.contains a
  rest.foldl Device.assertOne (held.foldl Device.releaseOne d)

/-- What follows a change of the cells charged, or of a setting that sizes a pool: reserves that shrink take their sizes, and priority
flow control follows the thresholds (R219, R224). -/
def Device.poolsMoved (d : Device) : Device := d.settlePools.pfcCheck

/-! ### Admission (R217, R221, R223 to R225) -/

/-- The account an arriving frame draws its provision from; none when it is refused, with the counter that counts it. -/
def Device.admitTo (d : Device) (p c prov : Nat) : Option Account :=
  if c = 7 ∧ d.acctUse (.contract p) < d.allowance p then some (.contract p)
  else if d.lossless p c ∧ bit (d.fld (Off.portStatus p) 7 0) c then
    if d.acctUse (.headroom p c) + prov ≤ NMap.getD d.buf.headroom (8 * p + c) 0 then some (.headroom p c) else none
  else if d.acctUse (.shared p c) + prov ≤ d.threshold then some (.shared p c)
  else none

/-- Admission of an arriving frame: a lossless account that has reached its threshold has asserted first (R224). A frame for which no
descriptor is free is refused (R215; DESIGN CHOICE, log, entry 48). -/
def Device.admitFrame (d : Device) (p c prov : Nat) : Device × Option Account :=
  let d := d.pfcCheck
  match if 1048576 ≤ d.descriptors then none else d.admitTo p c prov with
  | some a => (((d.occPort 0x301 1 (some c) p).occPort 0x302 prov (some c) p), some a)
  | none =>
    let off := if d.lossless p c ∧ bit (d.fld (Off.portStatus p) 7 0) c then Off.bufHrDrop p else Off.bufInDrop p
    ((d.bump off 1).occPort 0x303 1 (some c) p, none)

/-- Frames from the scaffold and FRAME_SEND draw from the scaffold reserve, or are discarded (R221, item 4); so are those for which no
descriptor is free (R215; DESIGN CHOICE, log, entry 48). -/
def Device.admitScaf (d : Device) (cells : Nat) : Bool :=
  decide (d.acctUse .scaf + cells ≤ d.buf.scaf) && decide (d.descriptors < 1048576)

/-! ### Leaving the buffer (R222) -/

/-- The cells a frame of `n` bytes occupies (R214). -/
def cellsOf (n : Nat) : Nat := ceilDiv n 256

/-- The cells a frame's bytes so far take, with its aside cell until it is known that it needs none (R216, R217). -/
def Frame.wanted (x : Frame) : Nat := cellsOf x.bytes.length + (if x.aside = some false then 0 else 1)

/-! ### Cells and descriptors (R214 to R217) -/

/-- The numbers of the cells in use. -/
def Device.cellsTaken (d : Device) : List Nat := d.buf.frames.flatMap fun p => p.2.chain ++ p.2.asideCell.toList

/-- The `n` lowest free cells (R214; which free cells are taken is the model's choice, log, entry 18). -/
def Device.freeCells (d : Device) (n : Nat) : List Nat :=
  let used := d.cellsTaken
  ((List.range (used.length + n)).filter fun c => !used.contains c).take n

/-- The received bytes of a frame that holds cells lie in cells chained in the order of the bytes (R214); those written after a
cut-through dequeue are charged to the drain reserve of its port (R218). -/
def Device.writeCells (d : Device) (f : Nat) : Device :=
  match d.frame f with
  | none => d
  | some x =>
    if x.cells + x.drain = 0 then d
    else
      let more := d.freeCells (cellsOf x.bytes.length - x.chain.length)
      d.setFrame f { x with
        chain := x.chain ++ more
        drain := if x.drainPort.isSome then x.wanted - x.cells else x.drain }

/-- HEAD of a frame's descriptor: its first cell (R215). -/
def Frame.head (x : Frame) : Option Nat := x.chain.head?

/-- NEXT of a copy's descriptor: the next one in the same queue (R215). -/
def Device.nextInQueue (d : Device) (c : Nat) : Option Nat :=
  d.buf.voqs.findSome? fun q => (q.2.dropWhile (· ≠ c))[1]?

/-- The frame holds no cells any more; its bytes, if any still arrive, are not written. -/
def Frame.withoutCells (x : Frame) : Frame := { x with cells := 0, drain := 0, drainPort := none, chain := [], asideCell := none }

/-- Whether anything still reads a frame: it is before its copies, or a copy of it is left. -/
def Device.hasReader (d : Device) (f : Nat) : Bool :=
  (match d.frame f with | some x => x.place != .out | none => false) ||
    d.buf.copies.any fun c => c.2.frame == f

/-- A FRAME_SEND with TS completes when its frame has left the buffer: with the transmit time when it left by one port, with
DROPPED when by none; by several ports the time is not valid and is a free value (R421). -/
def Device.sendDone (d : Device) (x : Frame) : Device :=
  match x.sender with
  | none => d
  | some (s, r) => match d.held s r 0x12 with
    | none => d
    | some o => match x.sent with
      | [] => d.complete s r 0x12 St.dropped o.tag o.flags []
      | [t] => d.complete s r 0x12 St.ok o.tag o.flags (bytesLE 8 t ++ [1])
      | _ =>
        let (d, v) := d.free 1
        d.complete s r 0x12 St.ok o.tag o.flags (bytesLE 8 v ++ [0])

/-- The frame's cells are freed and its descriptor with them; its arriving bytes, if any, are no longer written. -/
def Device.freeFrame (d : Device) (f : Nat) : Device :=
  match d.frame f with
  | none => d
  | some x =>
    let d := d.sendDone x
    let d := d.modBuf fun b => { b with frames := NMap.del b.frames f }
    ({ d with ctxs := NMap.del d.ctxs f }).poolsMoved

/-- The cells of a frame that nothing reads any more are free: a complete frame is gone; one whose bytes still arrive is not written
further, and is forgotten at its last byte (R222, R236). -/
def Device.freeUnread (d : Device) (f : Nat) : Device :=
  if d.hasReader f then d
  else match d.frame f with
    | none => d
    | some x => if x.done then d.freeFrame f else (d.modFrame f Frame.withoutCells).poolsMoved

/-- The lease index of the cells an egress pipeline reads for a copy (R448). -/
def copyLease (c : Nat) : Nat := 2 ^ 31 + c

/-- The copy of a frame that cut through to the port whose drain reserve holds the frame's cells has ended: the reserve of another port
that the frame still cuts through to takes them, else the frame's account, with what is left of the provision while its bytes still
come (R218, R233; log, entry 50). -/
def Device.drainLeave (d : Device) (f p : Nat) : Device :=
  match d.frame f with
  | none => d
  | some x =>
    let left := d.buf.copies.filter fun c => c.2.frame == f && c.2.cutThrough
    if x.drainPort ≠ some p ∨ left.any (fun c => c.2.port == p) then d
    else match left.head? with
      | some (_, y) => (d.modFrame f fun x => { x with drainPort := some y.port }).poolsMoved
      | none => (d.modFrame f fun x => { x with
          drainPort := none, drain := 0, cells := if x.done then x.cells + x.drain else max x.prov (x.cells + x.drain) }).poolsMoved

/-- A copy is gone; the cells of its frame are freed when it was the last reader (R222). -/
def Device.dropCopy (d : Device) (c : Nat) : Device :=
  match d.copy c with
  | none => d
  | some x =>
    let d := d.modBuf fun b => { b with
      copies := NMap.del b.copies c
      voqs := (b.voqs.map fun (k, l) => (k, l.filter (· ≠ c))).filter fun q => !q.2.isEmpty }
    (((({ d with ectxs := NMap.del d.ectxs c }).unlease 0 (copyLease c)).drainLeave x.frame x.port).freeUnread x.frame).notIdle x.port

/-! ### Moves between accounts (R221) -/

def Device.moveAcct (d : Device) (f : Nat) (a : Account) : Device :=
  (d.modFrame f fun x => { x with acct := a }).poolsMoved

/-- Move 3: to the recirculation reserve if it can take the frame's whole provision. -/
def Device.toRecirc (d : Device) (f : Nat) : Device :=
  match d.frame f with
  | some x =>
    if x.acct ≠ .recirc ∧ d.acctUse .recirc + x.prov ≤ d.buf.recirc then
      (d.modFrame f fun x => { x with acct := .recirc, home := x.acct }).poolsMoved
    else d
  | none => d

/-- The cells return to the account they came from (R221, item 3). -/
def Device.fromRecirc (d : Device) (f : Nat) : Device :=
  match d.frame f with
  | some x => if x.acct = .recirc then d.moveAcct f x.home else d
  | none => d

/-- Move 4: to the scaffold reserve; false when the reserve lacks room. -/
def Device.toScaf (d : Device) (f : Nat) : Device × Bool :=
  match d.frame f with
  | some x =>
    if x.acct = .scaf then (d, true)
    else if d.acctUse .scaf + x.cells ≤ d.buf.scaf then (d.moveAcct f .scaf, true)
    else (d, false)
  | none => (d, false)

end Sys2Proof.Machine
end

