-- ==== Sys2Proof/Machine/Spread.lean ====
section
/-! DEFINITION. Spread groups, seam streams, the float unit's contexts and twin recovery, as operations on their own state
(R269 to R285). -/

namespace Sys2Proof.Machine

/-! ### Groups and members (R269, R272) -/

def Group.reset : Group := ⟨none, [], [], [], []⟩

def Device.group (d : Device) (g : Nat) : Group := NMap.getD d.spread.groups g Group.reset

def Device.modGroup (d : Device) (g : Nat) (f : Group → Group) : Device :=
  { d with spread := { d.spread with groups := NMap.set d.spread.groups g (f (d.group g)) } }

def Device.groupEn (d : Device) (g : Nat) : Bool := d.flag (Off.spreadGrpCtl g) 31

def Device.groupSpray (d : Device) (g : Nat) : Bool := d.flag (Off.spreadGrpCtl g) 30

def Device.groupStreams (d : Device) (g : Nat) : Nat := d.fld (Off.spreadGrpCtl g) 29 22 + 1

/-- NMEMB; 0 is taken as 1 (R286), and more than 64 as 64. -/
def Device.nmemb (d : Device) (g : Nat) : Nat := clampN 1 64 (d.fld (Off.spreadGrpCtl g) 21 15)

def Device.member (d : Device) (g n : Nat) : Nat := d.fld (Off.spreadGrpMember g n) 9 0

def Device.members (d : Device) (g : Nat) : List Nat := (List.range (d.nmemb g)).map (d.member g)

def Device.forced (d : Device) (g n : Nat) : Bool :=
  if n < 32 then d.flag (Off.spreadGrpForceLo g) n else d.flag (Off.spreadGrpForceHi g) (n - 32)

/-- Whether member n of a group is live (R269). -/
def Device.memberLive (d : Device) (g n : Nat) : Bool :=
  d.portUp (d.member g n) && !NMap.has (d.group g).excluded n && !d.forced g n

def Device.liveMembers (d : Device) (g : Nat) : List Nat :=
  if d.groupEn g then (List.range (d.nmemb g)).filter (d.memberLive g) else []

/-- Changes of liveness reach the member table at a frame's VOQ join (R276). A bucket whose home member is live has no stand-in; one
that has a live stand-in keeps it; any other takes the live member at position ⌊b / NMEMB⌋ mod L (R272; that a stand-in which is no
longer live is replaced is DEDUCED, assumption log, entry 58). -/
def Device.applyLive (d : Device) (g : Nat) : Device :=
  let live := d.liveMembers g
  if (d.group g).applied = live then d
  else
    let old := (d.group g).standIn
    let n := d.nmemb g
    let table := (List.range 1024).filterMap fun b =>
      if live.contains (b % n) then none
      else match (NMap.get? old b).filter live.contains with
        | some m => some (b, m)
        | none => live[(b / n) % live.length]?.map fun m => (b, m)
    d.modGroup g fun q => { q with applied := live, standIn := table }

/-- The member that owns a bucket in the member table: the home member, or its stand-in. -/
def Device.bucketMember (d : Device) (g b : Nat) : Option Nat :=
  let home := b % d.nmemb g
  if (d.group g).applied.contains home then some home else NMap.get? (d.group g).standIn b

/-- The enabled spray group a port is a member of (R275). -/
def Device.sprayGroupOf (d : Device) (p : Nat) : Option Nat :=
  (d.listed (Off.spreadGrpCtl 0) 0x200 256).find? fun g =>
    d.groupEn g && d.groupSpray g && (d.members g).contains p

/-- The next member in list order after the one last chosen (R274). -/
def Device.nextMember (d : Device) (g : Nat) : Option Nat :=
  let live := d.liveMembers g
  match (d.group g).last with
  | none => live.head?
  | some l => (live.find? (fun n => decide (l < n))).orElse fun _ => live.head?

/-! ### Net growth of staged edits (R65) -/

def EditOp.growth : EditOp → Int
  | .push b => b.length
  | .pop n => -(n : Int)
  | .seam => 4
  | .twin _ _ => 6
  | _ => 0

def growthOf (es : List Edit) : Int := (es.map fun e => e.op.growth).sum

/-- The growth that takes place: SEAM has none unless the frame is sprayed (R64, R65). -/
def growthSent (es : List Edit) : Int := (es.map fun e => if e.op = .seam then 0 else e.op.growth).sum

/-! ### Length hint (R232) -/

/-- The hint of a frame toward an egress port with net growth left out. -/
def Device.rawHint (d : Device) (x : Frame) (port : Nat) : Nat :=
  if x.done then x.bytes.length
  else
    let h := match x.lenBound with
      | some b => max (b + 4) 64
      | none => d.maxLen port
    max h x.bytes.length

def Device.hintOf (d : Device) (x : Frame) (port : Nat) (es : List Edit) : Nat :=
  ((d.rawHint x port : Int) + growthSent es).toNat

/-! ### Resolution at the VOQ join (R229, R273 to R275) -/

/-- Whether a frame to a group is sprayed (R274). -/
def Device.sprayed (d : Device) (x : Frame) (g : Nat) : Bool :=
  d.groupSpray g && x.edits.any (fun e => e.op == .seam) && !bit (x.mN 5) 20 &&
    (d.liveMembers g).all fun n => decide (d.hintOf x (d.member g n) x.edits + 4 ≤ d.maxLen (d.member g n))

/-- A frame to spread group g with selector `sel` takes its member and, when sprayed, its stream's next number and SYNC; none
when the group has no live member (R269). -/
def Device.resolve (d : Device) (x : Frame) (g sel : Nat) : Device × Option (Nat × Option (Nat × Nat × Bool)) :=
  let d := d.applyLive g
  if d.sprayed x g then
    match d.nextMember g with
    | none => (d.bump Off.spreadNoMember 1, none)
    | some n =>
      let st := sel % d.groupStreams g
      let seq := NMap.getD (d.group g).streams st 0
      let sync := !NMap.has (d.group g).streams st
      let d := d.modGroup g fun q => { q with last := some n, streams := NMap.set q.streams st ((seq + 1) % 65536) }
      let d := d.occ ⟨0x804, 1, some (x.mN 2 % 8), none, none, some g, none⟩
      (d, some (d.member g n, some (st, seq, sync)))
  else match d.bucketMember g sel with
    | none => (d.bump Off.spreadNoMember 1, none)
    | some n => (d, some (d.member g n, none))

/-- The spread selector of the AUX 0b00 rule (R270). -/
def selector0 (m0 m4 : Nat) : Nat :=
  (if bit m4 26 then spreadHash (bytesBE 4 (m4 % 2 ^ 26)) else spreadHash (bytesBE 2 (m0 % 1024))) % 1024

/-! ### The float unit (R277 to R281) -/

def FloatCtx.fresh : FloatCtx := ⟨0, [], none, none⟩

/-- The frames a context releases, in order, as its expected number moves up to `target`, with the numbers skipped. -/
def floatAdvance (held : NMap Nat) (from_ count : Nat) : List Nat × NMap Nat × Nat :=
  let order := (List.range count).map fun k => (from_ + k) % 65536
  let rel := order.filter fun n => NMap.has held n
  (rel.filterMap (NMap.get? held), rel.foldl NMap.del held, count - rel.length)

/-- The held frames that follow on without a gap from number `e`. -/
def floatRun : Nat → NMap Nat → Nat → List Nat × NMap Nat × Nat
  | 0, held, e => ([], held, e)
  | fuel + 1, held, e =>
    match NMap.get? held e with
    | none => ([], held, e)
    | some f =>
      let (fs, h, e') := floatRun fuel (NMap.del held e) ((e + 1) % 65536)
      (f :: fs, h, e')

/-- The numbers that are held, lowest first in the order of distance from `e`. -/
def heldByDistance (held : NMap Nat) (e : Nat) : List (Nat × Nat) :=
  ((List.range 1024).filterMap fun k => (NMap.get? held ((e + k) % 65536)).map fun f => (k, f))

/-- What the float unit does with a frame (R279). -/
structure FloatDo where
  ctx : FloatCtx
  release : List Nat
  gaps : Nat
  forced : Bool
  late : Bool
  hold : Bool
deriving DecidableEq, Repr

/-- A timer runs only while frames are held (R279, R281). -/
def timerFor (held : NMap Nat) (t : Option Nat) (start : Nat) : Option Nat :=
  if held.isEmpty then none else match t with | some x => some x | none => some start

/-- R279 for frame `f` with its number and SYNC; `start` is when a timer that starts now expires. A number that is held
already is taken as a duplicate (assumption log, entry 13). -/
def floatStep (c : Option FloatCtx) (f seq : Nat) (sync : Bool) (start : Nat) : FloatDo :=
  let cx := c.getD FloatCtx.fresh
  if sync || c.isNone then
    let hs := heldByDistance cx.held cx.expect
    let gaps := (hs.foldl (fun (acc : Nat × Nat) (k, _) => (acc.1 + (k - acc.2), k + 1)) (0, 0)).1
    ⟨{ cx with expect := (seq + 1) % 65536, held := [], timer := none }, hs.map (·.2) ++ [f], gaps, false, false, false⟩
  else
    let dist := (seq + 65536 - cx.expect) % 65536
    if NMap.has cx.held seq then ⟨cx, [], 0, false, true, false⟩
    else if dist = 0 then
      let (rel, held, e) := floatRun 1024 cx.held ((seq + 1) % 65536)
      ⟨{ cx with expect := e, held := held, timer := timerFor held cx.timer start }, f :: rel, 0, false, false, false⟩
    else if dist < 1024 then
      ⟨{ cx with held := NMap.set cx.held seq f, timer := timerFor [(0, f)] cx.timer start }, [], 0, false, false, true⟩
    else if dist < 32768 then
      let (rel, held, gaps) := floatAdvance cx.held cx.expect (dist - 1023)
      let held := NMap.set held seq f
      ⟨{ cx with expect := (seq + 65536 - 1023) % 65536, held := held, timer := timerFor held cx.timer start }, rel, gaps, true, false, true⟩
    else ⟨cx, [], 0, false, true, false⟩

/-- R281: the gap timer expires. -/
def floatExpire (c : FloatCtx) (start : Nat) : FloatDo :=
  match heldByDistance c.held c.expect with
  | [] => ⟨{ c with timer := none }, [], 0, false, false, false⟩
  | (k, _) :: _ =>
    let (rel, held, e) := floatRun 1024 c.held ((c.expect + k) % 65536)
    ⟨{ c with expect := e, held := held, timer := timerFor held none start }, rel, k, false, false, false⟩

/-- SPREAD_FLOAT_GAP in ns, 1 to 10,000 µs. -/
def Device.floatGap (d : Device) : Nat := 1000 * clampN 1 10000 (d.fld Off.spreadFloatGap 13 0)

def Device.setFloat (d : Device) (c : Nat) (x : FloatCtx) : Device :=
  { d with spread := { d.spread with floats := NMap.set d.spread.floats c x } }

/-- The counts and events of a float action (R279, R281, and the sources 401 and 402). -/
def Device.floatCounts (d : Device) (c : Nat) (r : FloatDo) (seq : Nat) : Device :=
  let d := if r.gaps = 0 then d else
    let d := (d.bump Off.spreadFloatGapCnt r.gaps).occ ⟨0x805, r.gaps, none, none, none, some c, none⟩
    let sec := d.transit / 1000000000
    if r.ctx.gapSec = some sec then d
    else (d.raise 401 Sev.warn Cause.floatGap c seq).setFloat c { r.ctx with gapSec := some sec }
  let d := if r.forced then (d.bump Off.spreadFloatForced 1).raise 402 Sev.warn Cause.floatForced c seq else d
  if r.late then d.bump Off.spreadFloatLate 1 else d

/-! ### Twin recovery (R285) -/

def TwinCtx.fresh : TwinCtx := ⟨true, 0, [], 0, 0, none⟩

inductive TwinVerdict where
  | accept | rogue | duplicate
deriving DecidableEq, Repr

def Device.twinHist (d : Device) (prof : Nat) : Nat := clampN 2 1024 (d.fld (Off.spreadTwinProf prof) 26 16)

/-- The vector recovery algorithm. `hist` holds the marked numbers within the history length. -/
def twinStep (c : TwinCtx) (s hist : Nat) : TwinCtx × TwinVerdict :=
  if c.takeAny then ({ c with takeAny := false, recov := s, hist := [s] }, .accept)
  else
    let delta := signed 16 ((s + 65536 - c.recov) % 65536)
    if (hist : Int) ≤ delta.natAbs then (c, .rogue)
    else if 0 < delta then
      let keep := c.hist.filter fun n => decide ((s + 65536 - n) % 65536 < hist)
      ({ c with recov := s, hist := s :: keep }, .accept)
    else if c.hist.contains s then (c, .duplicate)
    else ({ c with hist := s :: c.hist }, .accept)

/-- Whether a context lies in a seam range of an RXSEAM port (R284). -/
def Device.seamRange (d : Device) (ctx : Nat) : Bool :=
  (d.listed (Off.spreadPort 0) 4 512).any fun p =>
    d.flag (Off.spreadPort p) 31 && decide ((ctx + 65536 - d.fld (Off.spreadPort p) 15 0) % 65536 ≤ 255)

/-- Recovery of a frame that carried an R-TAG (R284, R285): whether it goes on, and the pipeline of its VOQ. -/
def Device.twinRecover (d : Device) (word seq : Nat) : Device × Bool × Nat :=
  let ctx := word % 65536
  let prof := bits word 19 16
  if d.seamRange ctx then (d.bump Off.spreadTwinBadctx 1, false, 0)
  else
    let c := NMap.getD d.spread.twins ctx TwinCtx.fresh
    let (c', v) := twinStep c seq (d.twinHist prof)
    let c' := if v = .accept then { c' with lastAt := d.transit, prof := prof } else c'
    let d := { d with spread := { d.spread with twins := NMap.set d.spread.twins ctx c' } }
    match v with
    | .accept => (d, true, d.fld (Off.spreadTwinProf prof) 31 27)
    | .duplicate => ((d.bump Off.spreadTwinDup 1).occ ⟨0x806, 1, none, none, none, some ctx, none⟩, false, 0)
    | .rogue =>
      let d := d.bump Off.spreadTwinRogue 1
      let sec := d.transit / 1000000000
      if c.noticeSec = some sec then (d, false, 0)
      else
        let d := d.raise 403 Sev.warn Cause.twinRogue ctx seq
        ({ d with spread := { d.spread with twins := NMap.set d.spread.twins ctx { c' with noticeSec := some sec } } }, false, 0)

/-- No frame has been accepted for the reset timeout (R285). -/
def Device.twinReset (d : Device) (ctx : Nat) : Device :=
  match NMap.get? d.spread.twins ctx with
  | none => d
  | some c =>
    let t := 1000000 * max 1 (d.fld (Off.spreadTwinProf c.prof) 15 0)
    if c.takeAny || decide (d.transit < c.lastAt + t) then d
    else
      let sec := d.transit / 1000000000
      let first := c.noticeSec ≠ some sec
      let c := { c with takeAny := true, hist := [], noticeSec := some sec }
      let d := { d with spread := { d.spread with twins := NMap.set d.spread.twins ctx c } }
      let d := d.bump Off.spreadTwinReset 1
      if first then d.raise 403 Sev.warn Cause.twinRogue ctx c.recov else d

/-! ### Exclusion (R276) and enabling (R274) -/

/-- A member is excluded: readmission counts its READMIT milliseconds from now. -/
def Device.exclude (d : Device) (g n : Nat) : Device :=
  let was := NMap.has (d.group g).excluded n
  let d := d.modGroup g fun q => { q with excluded := NMap.set q.excluded n d.transit }
  if was then d else d.raise 400 Sev.warn Cause.memberExcluded g (d.member g n)

/-- A member's port has counted `uncorr` uncorrectable codewords within a millisecond, more than EXCL_LIMIT. -/
def Device.excludeMember (d : Device) (g n uncorr : Nat) : Device :=
  if n ≥ d.nmemb g || uncorr ≤ d.fld (Off.spreadGrpExcl g) 15 0 then d
  else (d.bump (Off.portFecUncorr (d.member g n)) uncorr).exclude g n

/-- The groups' members on a port, as (group, member). A group's EN does not matter: its members are excluded and readmitted all the
same (R276). -/
def Device.memberships (d : Device) (p : Nat) : List (Nat × Nat) :=
  (d.listed (Off.spreadGrpCtl 0) 0x200 256).flatMap fun g =>
    ((List.range (d.nmemb g)).filter fun n => d.member g n == p).map fun n => (g, n)

/-- A port that goes down excludes its members. -/
def Device.excludeDown (d : Device) (p : Nat) : Device := (d.memberships p).foldl (fun d m => d.exclude m.1 m.2) d

/-- A port that comes up: READMIT of its excluded members counts from now. -/
def Device.countReadmit (d : Device) (p : Nat) : Device :=
  (d.memberships p).foldl (fun d m => if NMap.has (d.group m.1).excluded m.2 then
    d.modGroup m.1 fun q => { q with excluded := NMap.set q.excluded m.2 d.transit } else d) d

/-- The port has been up and clean for READMIT ms (R276). -/
def Device.readmitMember (d : Device) (g n : Nat) : Device :=
  match NMap.get? (d.group g).excluded n with
  | none => d
  | some t =>
    let p := d.member g n
    if d.portUp p ∧ t + 1000000 * max 1 (d.fld (Off.spreadGrpExcl g) 31 16) ≤ d.transit then
      (d.modGroup g fun q => { q with excluded := NMap.del q.excluded n }).raise 400 Sev.info Cause.memberReadmitted g p
    else d

/-- Whether the members of a group all run at one rate (R274). -/
def Device.ratesEqual (d : Device) (g : Nat) : Bool :=
  match (d.members g).map d.portRate with
  | [] => true
  | r :: rs => rs.all (· == r)

/-- CFG_ERR of a refused group enable (R274). -/
def Device.groupRefuse (d : Device) (g v : Nat) : Device :=
  (d.setFlag Off.spreadStatus 0 true).raise 404 Sev.warn Cause.cfgRefused (Off.spreadGrpCtl g) v

/-- A group is laid out anew: its streams start again, and its member table has no stand-ins yet (R272, R275). -/
def Device.resetGroup (d : Device) (g : Nat) : Device :=
  d.modGroup g fun q => { q with streams := [], applied := [], standIn := [] }

end Sys2Proof.Machine
end

