-- ==== Sys2Proof/Machine/Quote.lean ====
section
/-! DEFINITION. Quotes: the bound and the calendar fitter, grants, the policer, deadlines, and the ending of a quote (R220,
R245 to R261). The path check of R248 and the request itself are in the coat files. -/

namespace Sys2Proof.Machine

def Device.quote (d : Device) (q : Nat) : Option Quote := NMap.get? d.quotes q

def Device.setQuote (d : Device) (q : Nat) (x : Quote) : Device := { d with quotes := NMap.set d.quotes q x }

def Device.modQuote (d : Device) (q : Nat) (f : Quote → Quote) : Device := { d with quotes := NMap.modify d.quotes q f }

/-- Whether quote q polices frames now (R247, R249). -/
def Device.quoteActive (d : Device) (q : Nat) : Bool :=
  match d.quote q with
  | some x => x.active && decide (x.activeAt ≤ d.transit)
  | none => false

/-! ### Calendar terms (R252 to R255) -/

/-- τ of a port in ns: 32 to 1,000 (R268). -/
def Device.slotTime (d : Device) (p : Nat) : Nat := clampN 32 1000 (d.fld (Off.schedCal p) 9 0)

def Device.share (d : Device) (p : Nat) : Nat := max 1 (d.fld (Off.schedCal p) 27 24)

/-- The slot budget S of a port in wire bytes (R254). -/
def Device.slotBudget (d : Device) (p : Nat) : Nat := d.slotTime p * d.portRate p * d.share p / 128

/-- The number of slots of a wheel. -/
def wheel : Nat := 4096

/-- The current slot of a port, counted from transit count 0 (R254). -/
def Device.slotNow (d : Device) (p : Nat) : Nat := d.transit / d.slotTime p

/-- The quote names the port (R250). -/
def Quote.names (q : Quote) (p : Nat) : Bool := q.portA == p || q.portB == some p

/-- The reserved positions of a placement (R255). -/
def Fit.positions (x : Fit) : List Nat := (List.range x.m).map fun j => (x.o + j * wheel / x.m) % wheel

/-- The placement of a quote on a port. -/
def Quote.fitOn (q : Quote) (p : Nat) : Option Fit := q.fits.find? fun f => f.port == p

/-- load[] of a port: the granted wire bytes in one slot (R256), over the quotes whose positions are reserved. -/
def Device.slotLoad (d : Device) (p slot : Nat) : Nat :=
  (d.quotes.map fun (_, q) => match q.fitOn p with
    | some f => if f.positions.contains slot then f.grant else 0
    | none => 0).sum

/-- Whether preemption is active on a port with classes 0 to 6 all preemptable (R253). -/
def Device.allPreemptable (d : Device) (p : Nat) : Bool :=
  d.flag (Off.portStatus p) 29 && d.fld (Off.schedPortCtl p) 6 0 == 0

/-- Blk in bytes at the port's rate (R253). -/
def Device.blkBytes (d : Device) (p : Nat) : Nat := if d.allPreemptable p then 151 else d.maxLen p + 20

/-- T + Blk + ser of R252 in units of 1 / (ingress rate × egress rate) ns. -/
def Device.baseTerms (d : Device) (inPort p lmax : Nat) : Int :=
  let ri : Int := d.portRate inPort
  let re : Int := d.portRate p
  40 * ri * re + max 0 (((lmax : Int) - 64) * 8 * re - 20 * ri * re) + d.blkBytes p * 8 * ri + lmax * 8 * ri

/-- D for spacing g (R252), in ns. -/
def boundFor (base k : Int) (g tau : Nat) : Int :=
  let x := base + (g + 1) * tau * k
  (x + 100 * k - 1) / (100 * k) * 100

/-- f for spacing g (R255). -/
def framesFor (b rate g tau lmin : Nat) : Nat := (b * 1000000000 + rate * g * tau) / (lmin * 1000000000)

/-- The fitter's search over spacings (R256). -/
def Device.fitFrom (d : Device) (p b rate lmin lmax dreq : Nat) (base k : Int) : Nat → Option Fit
  | 0 => none
  | g + 1 =>
    let tau := d.slotTime p
    let s := d.slotBudget p
    let f := framesFor b rate (g + 1) tau lmin
    let grant := f * (lmax + 20)
    let dd := boundFor base k (g + 1) tau
    let m := ceilDiv wheel (g + 1)
    let found :=
      if grant ≤ s ∧ dd ≤ (dreq : Int) then
        ((List.range (g + 1)).map fun o => (⟨p, g + 1, o, m, f, dd.toNat, grant, d.portRate p, d.flag (Off.portStatus p) 29⟩ : Fit)).find? fun x =>
          x.positions.all fun n => decide (d.slotLoad p n + grant ≤ s)
      else none
    match found with
    | some x => some x
    | none => d.fitFrom p b rate lmin lmax dreq base k g

/-- The calendar fitter of one port (R256); none is NO_FIT. -/
def Device.fit (d : Device) (inPort p b rate lmin lmax dreq : Nat) : Option Fit :=
  let k : Int := d.portRate inPort * d.portRate p
  if k = 0 then none
  else
    let base := d.baseTerms inPort p lmax
    let g0 : Int := ((dreq : Int) * k - base) / (d.slotTime p * k) - 1
    d.fitFrom p b rate lmin lmax dreq base k (min wheel g0.toNat)

/-- The cell claim of a quote (R220), with the serialisation time at egress port p. -/
def Device.claimOn (d : Device) (p b rate dd lmin lmax : Nat) : Nat :=
  let re := d.portRate p
  ceilDiv (b * 1000000000 * re + rate * (dd * re + lmax * 8)) (lmin * 1000000000 * re) * (ceilDiv lmax 256 + 1)

/-- The sum of all contract allowances, with `extra` cells more on one port (R220). -/
def Device.allowances (d : Device) (p extra : Nat) : Nat :=
  let ports := (d.quotes.map fun q => q.2.inPort).dedup
  (ports.map fun n => d.allowance n).sum + extra +
    (if extra ≠ 0 ∧ !ports.contains p then 2 * d.provision p else 0)

/-- Whether an active quote names an egress port. -/
def Device.quoted (d : Device) (p : Nat) : Bool :=
  d.quotes.any fun q => q.2.active && (q.2.portA == p || q.2.portB == some p)

/-! ### Notices (R250, R419) -/

/-- A QUOTE_STATUS notice to the seat that requested the quote, on its SEAT_CTL.QUOTE_RING (R412). -/
def Device.quoteNotice (d : Device) (qid : Nat) (q : Quote) (reason port : Nat) : Device :=
  let body := bytesLE 4 qid ++ bytesLE 1 reason ++ bytesLE 2 (if reason = 4 then q.d / 100 else 0) ++ bytesLE 1 0 ++
    bytesLE 2 port
  (d.notice q.seat (d.fld (Off.seatCtl q.seat) 11 9) 5 body none).1

/-! ### Policing (R257 to R260) -/

/-- One 10^−6 of 2^−16 byte, the unit in which a bucket is held: r × 65,536 of them come each microsecond (R257). -/
def tokenUnit : Nat := 65536 * 1000000

/-- The microseconds that have begun since the last refill are credited, up to B (R257). -/
def Quote.refill (q : Quote) (us : Nat) : Quote :=
  { q with tokens := min (q.b * tokenUnit) (q.tokens + (us - q.filled) * q.rate * 65536), filled := max q.filled us }

def Device.policerRefill (d : Device) : Device :=
  { d with quotes := d.quotes.map fun (k, q) => (k, if q.active then q.refill (d.transit / 1000) else q) }

/-- The verdict of the policer: conforming takes the charge, otherwise nothing is taken (R257). -/
def Quote.police (q : Quote) (len : Nat) : Quote × Bool :=
  let charge := clampN q.lmin q.lmax len * tokenUnit
  if charge ≤ q.tokens then ({ q with tokens := q.tokens - charge }, true) else (q, false)

/-! ### Deadlines (R22, R261) -/

/-- Whether a deadline has passed x = transit count + 7 ns. -/
def Device.deadlinePassed (d : Device) (deadline : Nat) : Bool :=
  decide (2 ^ 31 ≤ (deadline + 2 ^ 32 - (d.transit + 7) % 2 ^ 32) % 2 ^ 32)

/-- The class that a copy's frame had before policing (R258, R500). -/
def Device.classBefore (d : Device) (x : Copy) : Nat := ((d.frame x.frame).map fun f => f.mN 2 % 8).getD x.cls

/-- A frame of a quote expires on a port (R261); `cls` is its class before policing. -/
def Device.expire (d : Device) (qid port cls : Nat) : Device :=
  let d := ((d.bump (Off.schedQExpired port) 1).bump Off.schedExpired 1).occPort 0x405 1 (some cls) port
  match d.quote qid with
  | none => d
  | some q =>
    let sec := d.transit / 1000000000
    let d := d.setQuote qid { q with expired := q.expired + 1, lastExpiry := some sec }
    if q.lastExpiry = some sec then d
    else (d.raise 368 Sev.warn Cause.quoteExpiry qid 5).quoteNotice qid q 5 port

/-! ### Ending (R249, R250) -/

/-- SCHED_QUOTE_ACTIVE shows the quotes that police frames now, SCHED_FIT_STATUS.BUSY a release in progress (R268). -/
def Device.showQuotes (d : Device) : Device :=
  (d.setReg Off.schedQuoteActive (d.quotes.filter fun q => d.quoteActive q.1).length).setFlag Off.schedFitStatus 0
    (d.quotes.any fun q => q.2.release.isSome)

/-- The policer is removed and the wait of D begins (R249). -/
def Device.startRelease (d : Device) (qid reason port : Nat) (ring : Option (Nat × Nat)) : Device :=
  match d.quote qid with
  | none => d
  | some q =>
    if !q.active then d
    else
      let d := d.setQuote qid { q with active := false, release := some ⟨d.transit + q.d, reason, port, ring.toList⟩ }
      (q.portA :: q.portB.toList).foldl Device.notIdle d.showQuotes

/-- A command joins those that an ending quote completes. -/
def Device.joinRelease (d : Device) (qid : Nat) (ring : Nat × Nat) : Device :=
  d.modQuote qid fun q => { q with release := q.release.map fun r => { r with rings := r.rings ++ [ring] } }

/-- The pin of a quote is cleared: QPIN goes, PINNED and NOAGE take their software settings (R180). A record without QPIN, inserted
anew since, is left as it is. -/
def Device.unpinQuote (d : Device) (h : Nat) : Device :=
  if !((d.authCopy h).any recQpin) then d else
  let (p, n) := (NMap.get? d.flow.soft h).getD (false, false)
  let d := d.commandUpdate h [.mask 51 (255 - 16) 0, flagUpd 1 p, flagUpd 5 n]
  d.modFlow fun w => { w with soft := NMap.del w.soft h }

end Sys2Proof.Machine
end

