-- ==== Sys2Proof/Machine/Sched.lean ====
section
/-! DEFINITION. The egress scheduler: gate lists, token buckets, weighted fair queueing, eligibility and the calendar's grants
(R228 to R232, R242 to R245, R254, R255, R262 to R267). -/

namespace Sys2Proof.Machine

def Sched.reset : Sched :=
  { admin := [], oper := none, pend := none, tokens := [], vtime := 0, ftag := [], cand := [], served := [], shape := [],
    burst := [], refilled := 0, slot := 0, grants := [], gateSt := 255 }

def Device.sched (d : Device) (p : Nat) : Sched := NMap.getD d.scheds p Sched.reset

def Device.modSched (d : Device) (p : Nat) (f : Sched → Sched) : Device :=
  { d with scheds := NMap.set d.scheds p (f (d.sched p)) }

/-! ### VOQs (R228, R245) -/

def voqKey (pipe port cls : Nat) : Nat := (pipe * 1024 + port) * 8 + cls

def Device.voq (d : Device) (pipe port cls : Nat) : List Nat := NMap.getD d.buf.voqs (voqKey pipe port cls) []

/-- The class that keys an internal port's queue: one queue per pipeline and internal port (R228). -/
def voqCls (port cls : Nat) : Nat := if port < 512 then cls else 0

/-- Whether any frame waits for a port. -/
def Device.queuedTo (d : Device) (p : Nat) : Bool := d.buf.copies.any fun c => c.2.port == p && c.2.stage == .queued

/-! ### Gate lists (R264 to R266) -/

/-- The segments of one cycle as (end, states): cut at the cycle's end, the last states holding to it. -/
def segments (cycle : Nat) : Nat → List (Nat × Nat) → List (Nat × Nat)
  | _, [] => []
  | from_, [(st, _)] => if from_ < cycle then [(cycle, st)] else []
  | from_, (st, len) :: t =>
    if from_ + len ≥ cycle then [(cycle, st)] else (from_ + len, st) :: segments cycle (from_ + len) t

def GateList.segs (g : GateList) : List (Nat × Nat) := segments g.cycle 0 g.entries

/-- The place in the cycle at nanosecond count `t` of the list's base. -/
def GateList.pos (g : GateList) (t : Nat) : Nat :=
  let x : Int := ((t : Int) - g.base) % (g.cycle : Int)
  x.toNat

/-- The gate states at `t`; class 7 is always open. -/
def GateList.statesAt (g : GateList) (t : Nat) : Nat :=
  match g.segs.find? fun s => decide (g.pos t < s.1) with
  | some (_, st) => st % 128 + 128
  | none => 255

/-- Nanoseconds from `t` until the gate of class `c` next closes; none when it does not. -/
def GateList.closesIn (g : GateList) (t c : Nat) : Option Nat :=
  let p := g.pos t
  let segs := g.segs
  let now := (segs.filter fun s => decide (p < s.1)).map fun s => (s.1 - p, s.2)
  let later := segs.map fun s => (g.cycle - p + s.1, s.2)
  let rec go (start : Nat) : List (Nat × Nat) → Option Nat
    | [] => none
    | (e, st) :: rest => if bit st c then go e rest else some start
  go 0 (now ++ later)

/-- The states of a port's gates now: every gate is open while no list is in force. -/
def Device.gates (d : Device) (p : Nat) : Nat :=
  match (d.sched p).oper with
  | some g => if d.flag (Off.schedGateCtl p) 31 then g.statesAt (d.tbCount g.tb) else 255
  | none => 255

def Device.gateOpen (d : Device) (p c : Nat) : Bool := bit (d.gates p) c

/-- Nanoseconds until the gate of class c of a port next closes: in the list in force, or in a pending one from its change time on
(R264, R265); none when it does not. -/
def Device.closesIn (d : Device) (p c : Nat) : Option Nat :=
  let oper := if d.flag (Off.schedGateCtl p) 31 then (d.sched p).oper else none
  let now := oper.bind fun g => g.closesIn (d.tbCount g.tb) c
  match (d.sched p).pend with
  | none => now
  | some g =>
    let left := g.change - d.tbCount g.tb
    if now.any fun n => decide (n ≤ left) then now
    else if !d.flag (Off.schedGateCtl p) 31 then none
    else if !bit (g.statesAt g.change) c then some left
    else (g.closesIn g.change c).map (left + ·)

/-- Whether an open gate of a class closes before `bytes` more bytes are on the wire at the port's rate, `guard` ns before it. -/
def Device.closesBefore (d : Device) (p c bytes guard : Nat) : Bool :=
  match d.closesIn p c with
  | none => false
  | some ns => decide (ns * d.portRate p < bytes * 8 + guard * d.portRate p)

/-- Preemption is active on the port and the class is preemptable (R266, R267). -/
def Device.cutsAtClose (d : Device) (p c : Nat) : Bool := d.flag (Off.portStatus p) 29 && !bit (d.fld (Off.schedPortCtl p) 6 0) c

/-- The length rule of R266 for a frame of class c with a hint. -/
def Device.lengthFits (d : Device) (p c hint : Nat) : Bool :=
  d.cutsAtClose p c || !d.closesBefore p c (hint + 20) (d.fld (Off.schedGateCtl p) 15 0)

/-! ### Token buckets (R262) -/

/-- BURST in force in 2^−16 byte, raised to RATE / 64 plus the port's maximum frame length plus 20 bytes. -/
def Device.burstOf (d : Device) (p c : Nat) : Nat :=
  let rate := NMap.getD (d.sched p).shape c 0 % 2 ^ 21
  max (NMap.getD (d.sched p).burst c 0 % 2 ^ 24 * 65536) (rate * 1024 + (d.maxLen p + 20) * 65536)

/-- Tokens of a class; a bucket that has not been charged or refilled holds 0. -/
def Device.tokensOf (d : Device) (p c : Nat) : Int := NMap.getD (d.sched p).tokens c 0

def Device.bucketOn (d : Device) (p c : Nat) : Bool := bit (NMap.getD (d.sched p).shape c 0) 31

/-- Whether the class's bucket, when enabled, holds at least 0. -/
def Device.bucketOk (d : Device) (p c : Nat) : Bool := !d.bucketOn p c || decide (0 ≤ d.tokensOf p c)

def Device.setTokens (d : Device) (p c : Nat) (t : Int) : Device :=
  d.modSched p fun s => { s with tokens := NMap.set s.tokens c t }

/-- Whether a class has a frame waiting on a port. -/
def Device.classWaits (d : Device) (p c : Nat) : Bool :=
  d.buf.copies.any fun x => x.2.port == p && x.2.cls == c && x.2.stage == .queued

/-- A RESET bucket falls to min(tokens, 0) whenever its class has no frame waiting (R262). -/
def Device.idleBucket (d : Device) (p c : Nat) : Device :=
  if d.bucketOn p c && bit (NMap.getD (d.sched p).shape c 0) 30 && !d.classWaits p c then
    d.setTokens p c (min (d.tokensOf p c) 0) else d

/-- Every 125 ns: written RATE, MODE and BURST come into force, and each enabled bucket adds RATE × 1,024 units up to its
burst; a RESET bucket with no frame waiting falls to min(tokens, 0) (R262). `n` refills have come due. -/
def Device.refillPort (d : Device) (p : Nat) : Device :=
  let n := d.transit / 125 - (d.sched p).refilled
  if n = 0 then d
  else
    let d := d.modSched p fun s => { s with
      refilled := d.transit / 125
      shape := (List.range 7).foldl (fun m c => NMap.set m c (d.reg (Off.schedShapeRate p c))) s.shape
      burst := (List.range 7).foldl (fun m c => NMap.set m c (d.reg (Off.schedShapeBurst p c))) s.burst }
    (List.range 7).foldl (fun d c =>
      if !d.bucketOn p c then d
      else
        let t := min (d.burstOf p c : Int)
          (d.tokensOf p c + n * (NMap.getD (d.sched p).shape c 0 % 2 ^ 21) * 1024)
        (d.setTokens p c t).idleBucket p c) d

/-- A change of the gate state of a class: a RESET bucket falls to min(tokens, 0) (R262). -/
def Device.gateBucket (d : Device) (p c : Nat) : Device :=
  if d.bucketOn p c && bit (NMap.getD (d.sched p).shape c 0) 30 then d.setTokens p c (min (d.tokensOf p c) 0) else d

/-! ### What a head may do (R230, R231) -/

/-- Whether a copy's frame may be dequeued cut-through (R230). -/
def Device.cutThroughOk (d : Device) (x : Copy) (fr : Frame) : Bool :=
  bit (d.reg (Off.bufPortCt x.port)) x.cls && fr.port < 512 && decide (d.portRate x.port ≤ d.portRate fr.port) &&
    (d.port x.port).tx.isNone && !fr.preemptable && !fr.bad

/-- Whether the head of a VOQ may be dequeued: complete, or eligible for cut-through. -/
def Device.headReady (d : Device) (c : Nat) : Bool :=
  match d.copy c with
  | none => false
  | some x => match d.frame x.frame with
    | none => false
    | some fr => fr.done || d.cutThroughOk x fr

/-- The length hint of a copy toward its port (R232). -/
def Device.copyHint (d : Device) (x : Copy) : Nat :=
  match x.cut, d.frame x.frame with
  | some n, some fr => min (n + 4) (d.hintOf fr x.port x.edits)
  | none, some fr => d.hintOf fr x.port x.edits
  | _, none => 0

/-- The partner has not paused the class, or its watchdog has tripped (R238, R244). -/
def Device.pauseFree (d : Device) (p c : Nat) : Bool :=
  !bit (d.fld (Off.portStatus p) 15 8) c || (d.port p).wd.contains c

/-- Classes 0 to 5 are not eligible at shed level S4 (R477). -/
def Device.shedOk (d : Device) (c : Nat) : Bool := decide (d.shed < 4) || decide (6 ≤ c)

/-- Whether a class is express (R267). -/
def Device.express (d : Device) (p c : Nat) : Bool := c == 7 || bit (d.fld (Off.schedPortCtl p) 6 0) c

/-- Whether a class may start a frame beside a preempted remainder: only an express one (R242). -/
def Device.mayStart (d : Device) (p c : Nat) : Bool := (d.port p).remainder.isNone || d.express p c

/-- The heads of a class's VOQs that may be selected (R244). -/
def Device.heads (d : Device) (p c : Nat) : List (Nat × Nat) :=
  (List.range 32).filterMap fun i =>
    match d.voq i p c with
    | [] => none
    | h :: _ => match d.copy h with
      | none => none
      | some x =>
        if d.headReady h && (d.lengthFits p c (d.copyHint x)) then some (i, h) else none

/-- Class c, 0 to 6, is eligible on a port (R244). -/
def Device.eligible (d : Device) (p c : Nat) : Bool :=
  d.gateOpen p c && d.pauseFree p c && d.bucketOk p c && d.shedOk c && !(d.heads p c).isEmpty

/-- The next head of a class in round-robin order of ingress pipeline (R244). -/
def Device.nextHead (d : Device) (p c : Nat) : Option (Nat × Nat) :=
  let hs := d.heads p c
  match NMap.get? (d.sched p).served c with
  | none => hs.head?
  | some l => (hs.find? fun h => decide (l < h.1)).orElse fun _ => hs.head?

/-! ### Weighted fair queueing (R263) -/

/-- Serial comparison modulo 2^48: whether a comes before b. -/
def tagBefore (a b : Nat) : Bool := a != b && decide ((b + 2 ^ 48 - a) % 2 ^ 48 < 2 ^ 47)

def tagMax (a b : Nat) : Nat := if tagBefore a b then b else a

def Device.weight (d : Device) (p c : Nat) : Nat :=
  max 1 (if c < 4 then d.fld (Off.schedWeightLo p) (8 * c + 7) (8 * c)
    else d.fld (Off.schedWeightHi p) (8 * (c - 4) + 7) (8 * (c - 4)))

/-- The tag of a class's next frame. -/
def Device.newTag (d : Device) (p c : Nat) : Nat :=
  let s := d.sched p
  let hint := match d.nextHead p c with
    | some (_, h) => match d.copy h with | some x => d.copyHint x | none => 0
    | none => 0
  (tagMax s.vtime (NMap.getD s.ftag c 0) + (hint + 20) * (4096 / d.weight p c)) % 2 ^ 48

/-- Candidate tags follow eligibility: a class that becomes eligible takes a tag, one that is not drops its own (R263). -/
def Device.tags (d : Device) (p : Nat) : Device :=
  (List.range 6).foldl (fun d c =>
    if d.eligible p c then
      if NMap.has (d.sched p).cand c then d
      else d.modSched p fun s => { s with cand := NMap.set s.cand c (d.newTag p c) }
    else d.modSched p fun s => { s with cand := NMap.del s.cand c }) d

/-- The eligible class of smallest tag that may start; ties go to the higher class (R263). -/
def Device.wfqClass (d : Device) (p : Nat) : Option (Nat × Nat) :=
  ((d.sched p).cand.filter fun q => d.mayStart p q.1).foldl (fun b q => match b with
    | none => some q
    | some r => if tagBefore r.2 q.2 then some r else some q) none

/-! ### Calendar grants (R255) -/

/-- The quotes with a reserved position in a slot of a port. -/
def Device.slotQuotes (d : Device) (p slot : Nat) : List (Nat × Fit) :=
  d.quotes.filterMap fun (k, q) => match q.fitOn p with
    | some f => if f.positions.contains (slot % wheel) then some (k, f) else none
    | none => none

/-- The wire bytes of the grants of a slot that lapse unused (R500: GRANT_IDLE). -/
def Sched.idleBytes (s : Sched) : Nat := (s.grants.map fun g => g.2.2).sum

/-- A calendar slot begins: the grants of the quotes reserved in it are refreshed, the others lapse (R255). -/
def Device.calendarSlot (d : Device) (p : Nat) : Device :=
  let now := d.slotNow p
  if (d.sched p).slot = now then d
  else
    let idle := (d.sched p).idleBytes
    let d := if idle = 0 then d else d.occPort 0x404 idle (some 7) p
    let grants := (d.slotQuotes p now).foldl (fun m (k, f) => NMap.set m k (f.f, f.grant)) []
    d.modSched p fun s => { s with slot := now, grants := grants }

/-- The head of each quote's list in each class-7 VOQ of a port: its first queued descriptor (R245). -/
def Device.quoteHeads (d : Device) (p : Nat) : List Nat :=
  (List.range 32).flatMap fun i =>
    let l := d.voq i p 7
    l.filter fun c => match d.copy c with
      | some x => (l.find? fun e => match d.copy e with | some y => y.quote == x.quote | none => false) == some c
      | none => false

/-- Whether a class-7 head holds a grant in the current slot that suffices for it (R255). -/
def Device.granted (d : Device) (p c : Nat) : Bool :=
  match d.copy c with
  | none => false
  | some x => match x.quote with
    | none => false
    | some q => match NMap.get? (d.sched p).grants q with
      | none => false
      | some (f, g) => decide (1 ≤ f) && decide (d.copyHint x + 20 ≤ g) && d.headReady c &&
          (d.sched p).slot == d.slotNow p

/-- Whether deadline `a` is earlier than `b`, modulo 2^32 (R261). -/
def earlier (a b : Nat) : Bool := a != b && decide ((b + 2 ^ 32 - a) % 2 ^ 32 < 2 ^ 31)

/-- The class-7 frame with a grant and the earliest deadline; ties go to the lower ingress pipeline (R242). -/
def Device.grantPick (d : Device) (p : Nat) : Option Nat :=
  ((d.quoteHeads p).filter (d.granted p)).foldl (fun b c =>
    match b, d.copy c with
    | none, _ => some c
    | some o, some x => match d.copy o with
      | some y => if earlier x.deadline y.deadline then some c else some o
      | none => some c
    | some o, none => some o) none

/-- The heads of quote lists whose deadline has passed are discarded without being read (R261). -/
def Device.expireOnce (d : Device) (p : Nat) : Device :=
  ((d.quoteHeads p).filter fun c => match d.copy c with
      | some x => d.deadlinePassed x.deadline
      | none => false).foldl (fun d c => match d.copy c with
    | some x => match x.quote with
      | some q => (d.dropCopy c).expire q p (d.classBefore x)
      | none => d
    | none => d) d

/-- The same until no head has passed: the next frame of a quote may then be selected (R261). -/
def Device.expireHeads (d : Device) (p : Nat) : Device :=
  (List.range d.buf.copies.length).foldl (fun d _ => d.expireOnce p) d

end Sys2Proof.Machine
end

