-- ==== Sys2Proof/Machine/Exit.lean ====
section
/-! DEFINITION. What happens to a frame at the end of its last pass: the float unit, twin recovery, policing, the moves
between pools, VOQ joins, the replicator, punts and discards (R46, R68, R216, R221, R227 to R229, R234 to R236, R243, R257 to
R259, R278 to R284, R326). -/

namespace Sys2Proof.Machine

/-! ### Spans as ports (R314, R326, R332) -/

def Span.reset : Span :=
  { lanes := [], waiting := [], compared := [], kept := [], last := none, badCseq := 0, goodCont := 0, uncMs := 0, sfClean := 0,
    bipPeriod := 0, sdClean := 0, rdiRun := 0, timRun := 0, timGood := 0, lwRun := 0, losSeen := false,
    trace := List.replicate 16 0, rx := [], tx := [], txq := [], cseq := 0, fcnt := 0, bipTx := [], out := [], txLeft := [],
    traceTx := List.replicate 16 0, tokens := [], apsCmd := 0, farSeen := 0, farRun := 0, wasBad := false, wtr := none, dnr := false }

def Device.span (d : Device) (s : Nat) : Span := NMap.getD d.spans s Span.reset

def Device.modSpan (d : Device) (s : Nat) (f : Span → Span) : Device :=
  { d with spans := NMap.set d.spans s (f (d.span s)) }

/-- A span delivers and sends unless it is failed; a group's port is down only while both spans are failed (R330, R332). -/
def Device.spanUp (d : Device) (s : Nat) : Bool := d.flag (Off.lathStatus s) 31

def Device.groupUp (d : Device) (s : Nat) : Bool :=
  d.spanUp s || (d.flag (Off.lathApsCtl s) 31 && d.spanUp (d.fld (Off.lathApsCtl s) 28 24))

/-- Whether frames to an egress port are sent: an Ethernet port that is up, or a span port whose group is up. -/
def Device.targetUp (d : Device) (p : Nat) : Bool :=
  match d.spanOf p with
  | some s => d.groupUp s
  | none => d.portUp p && !(d.port p).flushing

/-- Words a frame costs on a span (R324). -/
def spanCost (len : Nat) : Nat := ceilDiv len 8 + 1

/-- CRC-16 of a lath word: over bits 63 to 16, most significant first, preset 0xFFFF (R322). -/
def lathCrc (w : Nat) : Nat :=
  (List.range 48).foldl (fun c i =>
    let top := c.testBit 15
    let c := c * 2 % 65536
    if top != w.testBit (63 - i) then c ^^^ 0x1021 else c) 65535

/-- A word of lath fields above bit 15 with its CRC-16. -/
def withCrc (w : Nat) : DWord := BitVec.ofNat 64 (w / 65536 * 65536 + lathCrc w)

/-- The words of a frame in a stream: its header and its bytes, padded to whole words (R324). -/
def streamWords (cls : Nat) (b : List Byte) : List DWord :=
  withCrc (b.length % 2 ^ 14 * 2 ^ 50 + cls % 8 * 2 ^ 47) ::
    (List.range (ceilDiv b.length 8)).map fun i => BitVec.ofNat 64 (fieldBE b (8 * i) 8)

/-- The channel of slot j as the map holds it (R323, R335). -/
def Device.slotChannel (d : Device) (s j : Nat) : Nat :=
  if j = 0 then 0 else d.fld (Off.lathMap s (j / 4)) (8 * (j % 4) + 5) (8 * (j % 4))

/-- Payload words of slot j of a container of L lanes (R323). -/
def slotPayload (l j : Nat) : Nat := if j = 0 then 16 * l - l - 1 else 16 * l - 1

/-- The payload words that one span container carries of a stream. -/
def Device.streamPayload (d : Device) (s stream : Nat) : Nat :=
  ((List.range 160).map fun j => if d.slotChannel s j = stream then slotPayload (d.spanL s) j else 0).sum

/-! ### Coats a frame carries -/

/-- The coat in a slot. -/
def Device.coatAt (d : Device) (slot : Nat) : Option Coat := NMap.get? d.coats.slots slot

def Device.curCoat (d : Device) : Option Coat := d.coats.cur.bind d.coatAt

/-- The egress slot of a frame: that of its own coat while it is in an ingress pass, else that of the current coat (R113). -/
def Device.egenOf (d : Device) (x : Frame) : Nat :=
  let c := if x.port < 512 ∨ x.granted then (d.coatAt (x.mN 1 % 4)).filter (fun c => c.id == bits (x.mN 1) 25 10) else d.curCoat
  match c <|> d.curCoat with | some c => c.egSlot | none => 0

/-! ### Discards (R222) -/

/-- Occurrences of ingress frames: class of m2, the ingress pipeline, the partition m0[13:10] (R500). -/
def Device.occIng (d : Device) (code : Nat) (x : Frame) (operand : Nat) : Device :=
  d.occ ⟨code, 1, some (x.mN 2 % 8), none, some (1, x.pipe), some operand, some (bits (x.mN 0) 13 10)⟩

/-- The frame has no reader of its own any more: its cells are freed unless a copy still reads them. -/
def Device.releaseFrame (d : Device) (f : Nat) : Device := (d.modFrame f fun x => { x with place := .out }).freeUnread f

/-- A frame is discarded with a reason. -/
def Device.discardFrame (d : Device) (f reason : Nat) : Device :=
  match d.frame f with
  | none => d
  | some x => (d.occIng 0x106 x reason).releaseFrame f

/-! ### The lodge's list (R171) -/

/-- Parked frames over all entries. -/
def Device.parkedCount (d : Device) : Nat := (d.flow.lodge.map fun e => (e.frames.filter fun p => !p.2).length).sum

/-- The registers that show the lodge's use. -/
def Device.showLodge (d : Device) : Device :=
  (d.setReg Off.flowLodgeUse d.flow.lodge.length).setReg Off.flowParked d.parkedCount

/-- An entry with no frame left and its fetch returned closes (R171). -/
def Device.closeLodge (d : Device) : Device :=
  let gone := d.flow.lodge.filter fun e => e.frames.isEmpty && e.outcome != .pending
  let d := gone.foldl (fun d e => d.unlease 1 (h1 e.id.input)) d
  (d.modFlow fun w => { w with lodge := w.lodge.filter fun e => !(e.frames.isEmpty && e.outcome != .pending) }).showLodge

def Device.lodgeLeave (d : Device) (f : Nat) : Device :=
  (d.modFlow fun w => { w with lodge := w.lodge.map fun e => { e with frames := e.frames.filter fun p => p.1 ≠ f } }).closeLodge

/-- A frame leaves the stations for good: its changes to the record stand, its context and its lease are gone. -/
def Device.leaveStations (d : Device) (f : Nat) : Device :=
  let d := match d.frame f with
    | some x => match x.hit with
      | some h => d.endRun h f
      | none => d
    | none => d
  let d := { d with ctxs := NMap.del d.ctxs f }
  (d.unlease 0 f).lodgeLeave f

/-! ### VOQ joins (R228, R236, R243, R326) -/

/-- Bytes 80 to 127 of a frame's record with its own changes: the snapshot as the frame leaves station 23 (R46). -/
def Device.snapshotOf (d : Device) (f : Nat) : List Byte :=
  match d.frame f with
  | some x => match x.hit with
    | some h => match d.viewOwn h f with
      | some b => sliceB b 80 48
      | none => List.replicate 48 0
    | none => List.replicate 48 0
  | none => List.replicate 48 0

/-- A descriptor joins its VOQ. -/
def Device.joinQueue (d : Device) (c : Copy) : Device :=
  let k := voqKey c.pipe c.port (voqCls c.port c.cls)
  d.modBuf fun b => { b with
    copies := NMap.set b.copies b.nextCopy c
    nextCopy := b.nextCopy + 1
    voqs := NMap.set b.voqs k (NMap.getD b.voqs k [] ++ [b.nextCopy]) }

/-- The class, channel and deadline of a class-7 frame on a span port (R326). -/
def Device.channelJoin (d : Device) (s : Nat) (m : Vector Word 16) (hint arr : Nat) : Device × Nat × Option Nat × Nat :=
  let c := vecN m 8 % 64
  if c = 0 ∨ !d.flag (Off.lathChanCfg s (c - 1)) 31 then (d.bump (Off.lathC7Remap s) 1, 6, none, 0)
  else
    let cost := spanCost hint
    let t := NMap.getD (d.span s).tokens c 0
    if t < cost then (d.bump (Off.lathChanDemote s) 1, 6, none, 0)
    else
      (d.modSpan s fun x => { x with tokens := NMap.set x.tokens c (t - cost) }, 7, some c,
        (arr + 100 * d.fld (Off.lathChanD s (c - 1)) 15 0) % 2 ^ 32)

/-- m5[21] of a copy of a quoted frame says whether the quote accepted it for the copy's port (R68, R258). -/
def markAccepted (m : Vector Word 16) (accepted : Bool) : Vector Word 16 :=
  if bit (vecN m 5) 20 then setField m 5 21 21 (b2n accepted) else m

/-- A frame joins the VOQ of an egress port, or is flushed when the port is down. `quote`: the quote that accepted it for
this port. A class-7 frame without one is remapped to class 6 (R243), or taken by a channel on a span port (R326). -/
def Device.joinPort (d : Device) (f pipe port cls : Nat) (quote : Option Nat) (spray : Option (Nat × Nat × Bool))
    (cut : Option Nat) (snap : List Byte) : Device :=
  match d.frame f with
  | none => d
  | some x =>
    if !d.targetUp port then d.bump (Off.bufFlush port) 1
    else
      let hint := d.hintOf x port x.edits
      let (d, cls, chan, dl) :=
        if cls ≠ 7 then (d, cls, none, 0)
        else match quote with
          | some q => (d, 7, none, (x.arrTransit + (match d.quote q with | some y => y.d | none => 0)) % 2 ^ 32)
          | none => match d.spanOf port with
            | some s => d.channelJoin s x.m hint x.arrTransit
            | none => (d.bump (Off.schedC7Remap port) 1, 6, none, 0)
      d.joinQueue { frame := f, pipe := pipe, port := port, cls := cls, quote := quote, deadline := dl, egen := d.egenOf x,
                    m := markAccepted (setField x.m 2 2 0 cls) quote.isSome, snap := snap, edits := x.edits, egEdits := [], spray := spray, chan := chan,
                    cut := cut, mirror := none, stage := .queued, cutThrough := false, hint := hint, presentAt := none,
                    txTime := 0, held := false, pastClose := false }

/-- A frame joins the queue of an internal port 513 to 516 of its pipeline (R228). -/
def Device.joinInternal (d : Device) (f port : Nat) (cut : Option Nat) : Device :=
  match d.frame f with
  | none => d
  | some x =>
    d.joinQueue { frame := f, pipe := x.pipe, port := port, cls := x.mN 2 % 8, quote := none, deadline := 0,
                  egen := d.egenOf x, m := x.m, snap := List.replicate 48 0, edits := x.edits, egEdits := [],
                  spray := none, chan := none, cut := cut, mirror := none, stage := .queued, cutThrough := false,
                  hint := 0, presentAt := none, txTime := 0, held := false, pastClose := false }

/-- The bytes a MIRROR's AUX copies: the whole frame, or the first 64, 128 or 256 (R67). -/
def mirrorCut (aux : Nat) : Option Nat :=
  match aux with
  | 1 => some 64 | 2 => some 128 | 3 => some 256 | _ => none

/-- The mirror copy of a frame (R227): made only while the shared pool has more than MIRROR_MIN free cells, and a descriptor is free
(R215; log, entry 48). -/
def Device.makeMirror (d : Device) (f port aux pipe : Nat) (snap : List Byte) : Device :=
  match d.frame f with
  | none => d
  | some x =>
    if d.sharedFree ≤ d.fld Off.bufMirrorMin 19 0 || decide (1048576 ≤ d.descriptors) then d.bump Off.bufMirrorSkip 1
    else if port = 516 then d.joinInternal f 516 (mirrorCut aux)
    else d.joinPort f pipe port (x.mN 2 % 8) none none (mirrorCut aux) snap

/-! ### Policing (R68, R257 to R259) -/

/-- What the policer leaves of a frame: discarded, or forwarded with a class, and the quote that accepted it. -/
structure Policed where
  discard : Bool
  cls : Nat
  accepted : Option Nat
deriving DecidableEq, Repr

/-- The quote named in m5 polices a frame for the egress ports `targets`. An id that is not active clears m5 (R68). -/
def Device.policeFrame (d : Device) (f : Nat) (targets : List Nat) : Device × Policed :=
  match d.frame f with
  | none => (d, ⟨true, 0, none⟩)
  | some x =>
    let cls := x.mN 2 % 8
    let qid := x.mN 5 % 2 ^ 20
    if !bit (x.mN 5) 20 then (d, ⟨false, cls, none⟩)
    else if !d.quoteActive qid then (d.modFrame f fun x => x.setM 5 0, ⟨false, cls, none⟩)
    else match d.quote qid with
      | none => (d, ⟨false, cls, none⟩)
      | some q =>
        let t0 := targets.headD q.portA
        let (q, ok) := (q.refill (d.transit / 1000)).police (d.rawHint x t0)
        let d := d.setQuote qid q
        let onPort := targets.any fun t => t == q.portA || q.portB == some t
        if ok ∧ onPort then
          ((d.modQuote qid fun q => { q with accepted := q.accepted + 1 }).modFrame f fun x =>
            { x with m := setField x.m 5 21 21 1 }, ⟨false, cls, some qid⟩)
        else
          let d := if ok then d.bump (Off.schedQMisroute t0) 1 else d
          let d := d.occPort 0x406 1 (some cls) t0
          if q.demote = 0xFF then (d.modQuote qid fun q => { q with discarded := q.discarded + 1 }, ⟨true, cls, none⟩)
          else
            ((d.modQuote qid fun q => { q with demoted := q.demoted + 1 }).modFrame f fun x =>
              { x with m := setField x.m 2 2 0 q.demote }, ⟨false, q.demote, none⟩)

/-- Move 2 of R221: accepted frames go into the contract reserve if the port's allowance has room; a frame in it that was not
accepted goes to the shared account of its final class, or is discarded. True: the frame stays. -/
def Device.moveContract (d : Device) (f : Nat) (accepted : Bool) (cls : Nat) : Device × Bool :=
  match d.frame f with
  | none => (d, false)
  | some x =>
    if accepted then
      if !x.acct.isContract ∧ d.acctUse (.contract x.port) + x.cells ≤ d.allowance x.port then
        (d.moveAcct f (.contract x.port), true)
      else (d, true)
    else if x.acct.isContract then
      if d.acctUse (.shared x.port cls) + x.cells ≤ d.threshold then (d.moveAcct f (.shared x.port cls), true)
      else (d.bump Off.bufDemoteDrop 1, false)
    else (d, true)

/-- The class a copy to `port` carries (R258): 7 where the quote accepted it, else what m2 held before policing. -/
def Device.copyClass (d : Device) (v : Policed) (port : Nat) : Nat × Option Nat :=
  match v.accepted with
  | none => (v.cls, none)
  | some q => match d.quote q with
    | some y => if port = y.portA ∨ y.portB = some port then (7, some q) else (v.cls, none)
    | none => (v.cls, none)

/-! ### Twin sequence numbers (R283) -/

/-- Each TWIN edit takes the next number of its generator. -/
def Device.numberTwins (d : Device) (f : Nat) : Device :=
  match d.frame f with
  | none => d
  | some x =>
    let (d, es) := x.edits.foldl (fun (acc : Device × List Edit) e =>
      match e.op with
      | .twin g _ =>
        let n := NMap.getD acc.1.spread.gens g 0
        ({ acc.1 with spread := { acc.1.spread with gens := NMap.set acc.1.spread.gens g ((n + 1) % 65536) } },
          acc.2 ++ [{ e with op := .twin g n }])
      | _ => (acc.1, acc.2 ++ [e])) (d, [])
    d.modFrame f fun x => { x with edits := es }

/-! ### Dispositions (R67, R221) -/

/-- The replication list of a group in the coat of a slot, in index order (R234). -/
def Device.replList (d : Device) (slot group : Nat) : List (BitVec 16) :=
  match d.coatAt slot with
  | none => []
  | some c => ((c.repl.filter fun p => p.1 / 512 == group && p.2.getLsbD 15).map (·.2))

/-- R216 at the end of the last pass: an aside cell for a frame with a staged edit, a snapshot that is not all zero, or any of
m8 to m15 not zero. A frame complete by then keeps exactly the cells of its bytes and its aside. -/
def Device.takeAside (d : Device) (f : Nat) : Device :=
  match d.frame f with
  | none => d
  | some x =>
    let a := !x.edits.isEmpty || x.snap.any (· != 0) || ((List.range 8).any fun j => x.mN (8 + j) != 0)
    let cell := if a ∧ 0 < x.cells then (d.freeCells 1).head? else none
    let x := { x with aside := some a, asideCell := cell }
    let d := d.setFrame f { x with cells := if x.done ∧ 0 < x.cells then x.wanted else x.cells }
    if x.done then d.poolsMoved else d

/-- The snapshot and the aside of a frame are settled as it leaves the last pass (R46, R216). -/
def Device.endPasses (d : Device) (f : Nat) : Device :=
  (d.modFrame f fun x => { x with snap := d.snapshotOf f }).takeAside f

/-- A punt: the cells move to the scaffold reserve and the frame joins its pipeline's port-513 queue; m7[7:0] holds the
reason (R221, R376). A seat's frame waits on port 514 or 515 in the same way (R420). -/
def Device.toInternal (d : Device) (f port : Nat) : Device :=
  match d.frame f with
  | none => d
  | some x =>
    let d := if port = 513 then d.occIng 0x104 x (x.mN 7 % 256) else d
    let (d, ok) := (d.fromRecirc f).toScaf f
    if ok then (d.joinInternal f port none).releaseFrame f
    else ((d.bump Off.bufScafDrop 1).occIng 0x106 x (x.mN 7 % 256)).releaseFrame f

/-- A frame to the multicast replicator of the pipeline of its VOQs: its ingress pipeline, or its ANCHOR, so that frames released or
recovered in order are expanded in that order (R235, R280, R285). -/
def Device.toRepl (d : Device) (f group pipe : Nat) (v : Policed) : Device :=
  match d.frame f with
  | none => d
  | some _ =>
    let q := NMap.getD d.buf.repl pipe []
    if q.length ≥ 256 then (d.bump Off.bufReplDrop 1).discardFrame f 0
    else
      (d.modBuf fun b => { b with repl := NMap.set b.repl pipe (q ++ [⟨f, group, 0, v.accepted, v.cls, pipe⟩]) }).modFrame f
        fun x => { x with place := .repl }

/-- The ports a disposition makes a copy to, for policing (R258): groups give the member the frame would take now; the ingress
port's own entry of a replication list makes none without SELF. -/
def Device.targetsOf (d : Device) (x : Frame) : List Nat :=
  let m3 := x.mN 3
  match m3 / 2 ^ 30 with
  | 0 => [m3 % 2 ^ 16]
  | 1 => ((d.resolve x (m3 % 256) (bits m3 25 16)).2.map (·.1)).toList
  | 2 => (d.replList (x.mN 1 % 4) (m3 % 2 ^ 16)).filterMap fun e =>
      let n := e.toNat % 1024
      if e.getLsbD 13 then (d.resolve x (n % 256) (selector0 (x.mN 0) (x.mN 4))).2.map (·.1)
      else if n = x.port ∧ !e.getLsbD 14 then none
      else some n
  | _ => []

/-- The frame joins what m3 names, with the policer's verdict. -/
def Device.joinTargets (d : Device) (f pipe : Nat) (v : Policed) (snap : List Byte) : Device :=
  match d.frame f with
  | none => d
  | some x =>
    let m3 := x.mN 3
    match m3 / 2 ^ 30 with
    | 0 =>
      let p := m3 % 2 ^ 16
      let (c, q) := d.copyClass v p
      (d.joinPort f pipe p c q none none snap).releaseFrame f
    | 1 =>
      match d.resolve x (m3 % 256) (bits m3 25 16) with
      | (d, none) => d.discardFrame f (x.mN 7 % 256)
      | (d, some (p, spray)) =>
        let (c, q) := d.copyClass v p
        (d.joinPort f pipe p c q spray none snap).releaseFrame f
    | _ => d.toRepl f (m3 % 2 ^ 16) pipe v

/-- A frame that was complete before its quote accepted it and is longer than LMAX is BAD, counted on the first of its ports that
the quote names (R260). -/
def Device.overlenDone (d : Device) (f : Nat) (accepted : Option Nat) (targets : List Nat) : Device :=
  match d.frame f, accepted.bind d.quote with
  | some x, some q =>
    if x.done && !x.bad && decide (q.lmax < x.bytes.length) then
      let port := (targets.find? q.names).getD q.portA
      (d.bump (Off.schedQOverlen port) 1).modFrame f fun x => { x with bad := true }
    else d
  | _, _ => d

/-- A frame at the end of its last pass is forwarded to what m3 names, through policing and the moves of R221. `pipe` is the
pipeline of its VOQ (R280, R285). -/
def Device.forward (d : Device) (f pipe : Nat) (snap : List Byte) : Device :=
  let d := d.fromRecirc f
  match d.frame f with
  | none => d
  | some x =>
    let (d, v) := d.policeFrame f (d.targetsOf x)
    if v.discard then d.discardFrame f (x.mN 7 % 256)
    else
      let (d, stays) := d.moveContract f v.accepted.isSome v.cls
      if !stays then d.discardFrame f (x.mN 7 % 256)
      else (d.overlenDone f v.accepted (d.targetsOf x)).joinTargets f pipe v snap

/-- A frame that enters from port 513 or from a seat past the passes is forwarded: no quote polices it (R68, R69, R243). -/
def Device.forwardOwn (d : Device) (f pipe : Nat) (snap : List Byte) : Device :=
  let d := d.numberTwins f
  match d.frame f with
  | none => d
  | some x => d.joinTargets f pipe ⟨false, x.mN 2 % 8, none⟩ snap

/-- Whether a disposition joins a VOQ: an Ethernet or span port, a spread group or a multicast group (R280). -/
def forwards (m3 : Nat) : Bool :=
  match m3 / 2 ^ 30 with
  | 0 => decide (m3 % 2 ^ 16 < 512)
  | 1 => true
  | 2 => true
  | _ => false

/-- A frame goes where m3 says (R67, R221): `pipe` is the pipeline of its VOQ. -/
def Device.disposeTo (d : Device) (f pipe : Nat) (x : Frame) : Device :=
  let m3 := x.mN 3
  if forwards m3 then d.forward f pipe x.snap
  else if m3 / 2 ^ 30 = 0 ∧ 513 ≤ m3 % 2 ^ 16 ∧ m3 % 2 ^ 16 ≤ 515 then d.toInternal f (m3 % 2 ^ 16)
  else if m3 / 2 ^ 30 = 0 then d.discardFrame f (x.mN 7 % 256)
  else d.discardFrame f 0

/-- The disposition of a frame that has no float turn to wait for, or whose turn has come. A frame with an R-TAG that has ended its last
pass is recovered, whatever its disposition (R284): one that the device punts before that has not (`ended`), unless its locked
disposition forwards it. -/
def Device.dispose (d : Device) (f pipe : Nat) (ended : Bool) : Device :=
  match d.frame f with
  | none => d
  | some x =>
    let snap := x.snap
    let d := match x.mirror, x.killed with
      | some (p, aux), false => d.makeMirror f p aux pipe snap
      | _, _ => d
    if x.killed then d.discardFrame f 0x60
    else match x.rtag, bit (fieldLE snap 40 4) 31 && (ended || forwards (x.mN 3)) with
      | some s, true =>
        let (d, ok, anchor) := d.twinRecover (fieldLE snap 40 4) s
        if ok then d.disposeTo f anchor x else d.discardFrame f (x.mN 7 % 256)
      | _, _ => d.disposeTo f pipe x

/-- The pipeline a float release uses (R280). -/
def Device.anchorOf (d : Device) (port : Nat) : Nat := d.fld (Off.spreadPort port) 28 24

/-- The frames a float context releases, in order: those still held join as their dispositions say (R280). -/
def Device.floatRelease (d : Device) (fs : List Nat) : Device :=
  fs.foldl (fun d f => match d.frame f with
    | some x => match x.place with
      | .float _ => (d.modFrame f fun x => { x with place := .pass }).dispose f (d.anchorOf x.port) true
      | _ => d
    | none => d) d

/-- Held frames over all contexts. -/
def Device.heldCount (d : Device) : Nat := (d.buf.frames.filter fun p => match p.2.place with | .float _ => true | _ => false).length

/-- The gap timer of a context expires, or the held pool is full (R281). -/
def Device.floatExpireCtx (d : Device) (c : Nat) : Device :=
  match NMap.get? d.spread.floats c with
  | none => d
  | some x =>
    let r := floatExpire x (d.transit + d.floatGap)
    let first := (heldByDistance x.held x.expect).head?.map (·.1)
    ((d.setFloat c r.ctx).floatCounts c r ((x.expect + first.getD 0) % 65536)).floatRelease r.release

/-- The gap timer of a context is due (R281). -/
def Device.gapDue (d : Device) (c : Nat) : Device :=
  match (NMap.get? d.spread.floats c).bind (·.timer) with
  | some t => if t ≤ d.transit then d.floatExpireCtx c else d
  | none => d

/-- When the held pool is full, the context whose oldest held frame is the oldest in the device expires at once (R281). -/
def Device.floatFull (d : Device) : Device :=
  if d.heldCount < 131072 then d
  else
    let oldest := d.spread.holdOrder.find? fun p => match d.frame p.2 with
      | some x => x.place == .float p.1
      | none => false
    match oldest with
    | some (c, _) => (d.bump Off.spreadFloatForced 1).floatExpireCtx c
    | none => d

/-- A frame with ORD = 1 takes its turn in its context (R279, R280). One that is not forwarded only consumes its number and is
disposed of at once, by `act`. -/
def Device.floatTurn (d : Device) (f : Nat) (t : SeamTag) (fwd : Bool) (act : Device → Device) : Device :=
  match d.frame f with
  | none => d
  | some x =>
    let ctx := (d.fld (Off.spreadPort x.port) 15 0 + t.stream) % 65536
    let d := d.floatFull
    let r := floatStep (NMap.get? d.spread.floats ctx) f t.seq t.sync (d.transit + d.floatGap)
    let d := (d.setFloat ctx r.ctx).floatCounts ctx r t.seq
    if r.late then d.discardFrame f (x.mN 7 % 256)
    else if !fwd then (act d).floatRelease r.release
    else
      let d := d.modFrame f fun x => { x with place := .float ctx }
      let d := if r.hold then { d with spread := { d.spread with
        holdOrder := (d.spread.holdOrder.filter fun p => NMap.has d.buf.frames p.2) ++ [(ctx, f)] } } else d
      d.floatRelease r.release

/-- The end of a frame's passes in its turn: at once, or in the float unit where its seam tag has ORD = 1. -/
def Device.takeTurn (d : Device) (f : Nat) (fwd : Bool) (act : Device → Device) : Device :=
  match (d.frame f).bind (·.seam) with
  | some t => if t.ord then d.floatTurn f t fwd act else act d
  | none => act d

/-- A frame is discarded before the end of its passes: with ORD = 1 it still consumes its number (R279). -/
def Device.discardTurn (d : Device) (f reason : Nat) : Device := d.takeTurn f false fun d => d.discardFrame f reason

/-- The end of a frame's last pass, or its punt or discard before that. A frame that goes to ports takes its twin numbers here, before
its float turn and its recovery (R283). The snapshot and the aside are taken before the changes of
the frame are settled (R46, R216). -/
def Device.leavePasses (d : Device) (f : Nat) (ended : Bool) : Device :=
  let d := d.endPasses f
  match d.frame f with
  | none => d
  | some x =>
    let fwd := forwards (x.mN 3) && !x.killed
    let d := if fwd then d.numberTwins f else d
    (d.takeTurn f fwd fun d => d.dispose f x.pipe ended).leaveStations f

/-- The end of a frame's last pass. -/
def Device.finishFrame (d : Device) (f : Nat) : Device := d.leavePasses f true

/-- A frame whose entry point is not valid in its coat is discarded (R92); with ORD = 1 it consumes its number (R279). -/
def Device.noEntry (d : Device) (f : Nat) : Device :=
  match d.frame f with
  | none => d
  | some x => ((d.bump (Off.pipeNoEntry x.pipe) 1).discardTurn f 0).leaveStations f

/-- A punt by the device (R39, R172, R173): m7[7:0] takes the reason and m3 names port 513, unless the frame's disposition is
locked, which then stands (R61). -/
def Device.puntFrame (d : Device) (f reason : Nat) : Device :=
  (d.modFrame f fun x =>
    let m := x.parkM.getD x.m
    if bit (vecN m 3) 29 then { x with m := m, parkM := none, punt := none }
    else { x with m := setField (m.setIfInBounds 3 513) 7 7 0 reason, parkM := none, punt := none }).leavePasses f false

/-! ### The replicator (R235) -/

/-- One entry of a list makes its copy. -/
def Device.replOne (d : Device) (it : ReplItem) (e : BitVec 16) : Device :=
  match d.frame it.frame with
  | none => d
  | some x =>
    let n := e.toNat % 1024
    let v : Policed := ⟨false, it.cls, it.quote⟩
    let snap := x.snap
    if e.getLsbD 13 then
      match d.resolve x (n % 256) (selector0 (x.mN 0) (x.mN 4)) with
      | (d, none) => d
      | (d, some (p, spray)) => let (c, q) := d.copyClass v p; d.joinPort it.frame it.pipe p c q spray none snap
    else if n = x.port ∧ !e.getLsbD 14 then d
    else let (c, q) := d.copyClass v n; d.joinPort it.frame it.pipe n c q none none snap

/-- The entries from the item's place on, while descriptors are free; answers the entries not yet read. -/
def Device.replRun (d : Device) (it : ReplItem) : List (BitVec 16) → Device × Nat
  | [] => (d, 0)
  | e :: t => if d.descriptors ≥ 1048576 then (d, (e :: t).length) else (d.replOne it e).replRun it t

/-- The replicator of a pipeline reads the list of its first frame as far as descriptors are free (R235). -/
def Device.replExpand (d : Device) (pipe : Nat) : Device :=
  match NMap.getD d.buf.repl pipe [] with
  | [] => d
  | it :: rest =>
    match d.frame it.frame with
    | none => d.modBuf fun b => { b with repl := NMap.set b.repl pipe rest }
    | some x =>
      let l := d.replList (x.mN 1 % 4) it.group
      let (d, left) := d.replRun it (l.drop it.next)
      if left = 0 then (d.modBuf fun b => { b with repl := NMap.set b.repl pipe rest }).releaseFrame it.frame
      else d.modBuf fun b => { b with repl := NMap.set b.repl pipe ({ it with next := l.length - left } :: rest) }

end Sys2Proof.Machine
end

