-- ==== Sys2Proof/Machine/Edits.lean ====
section
/-! DEFINITION. Edits: the order in which staged edits are applied, the edits of the egress stations, NATA and the one-step
fill (R64 to R66, R275, R283, R347 to R349). -/

namespace Sys2Proof.Machine

/-! ### Frames and tags -/

/-- A coat-class register as the coat in a slot holds it; without that coat, as the register file shows it (R12). -/
def Device.coatReg (d : Device) (slot off : Nat) : Nat :=
  match d.coatAt slot with
  | some c => NMap.getD c.cregs off (regReset off).toNat
  | none => d.reg off

/-- TBL_PARSE_CTL.S_TPID of the current coat. -/
def Device.sTpid (d : Device) : Nat := d.fld Off.tblParseCtl 31 16

def isTag (stpid ty : Nat) : Bool := ty == 0x8100 || ty == stpid

/-- The offset after the tags of TPID 0x8100 or S_TPID that follow byte `o`; `fuel` tags at most are passed. -/
def afterTags (stpid : Nat) (b : List Byte) : Nat → Nat → Nat
  | 0, o => o
  | fuel + 1, o => if isTag stpid (fieldBE b o 2) && decide (o + 4 ≤ b.length) then afterTags stpid b fuel (o + 4) else o

/-- A frame without the bytes at an offset. -/
def cutBytes (b : List Byte) (o n : Nat) : List Byte := b.take o ++ b.drop (o + n)

def insertBytes (b : List Byte) (o : Nat) (x : List Byte) : List Byte := b.take o ++ x ++ b.drop o

/-- The data end of a frame: its length less the FCS (R124). -/
def Frame.dataEnd (x : Frame) : Nat := x.bytes.length - 4

/-! ### Bytes (R64) -/

/-- A byte list filled with zeros up to length `n`. A PUSH or SETF past the frame's end fills the frame so far (DESIGN CHOICE,
assumption log, entry 19). -/
def fillTo (b : List Byte) (n : Nat) : List Byte := b ++ List.replicate (n - b.length) 0

/-- The ones' complement update of RFC 1624 for bytes `o` of a checksum `c` that become `n`; `odd`: they begin at an odd place
of the sum (R66, R348). -/
def csumUpdate (odd : Bool) (c : Nat) (o n : List Byte) : Nat :=
  let lead (l : List Byte) := if odd then 0 :: l else l
  let even (l : List Byte) := if (lead l).length % 2 = 1 then lead l ++ [0] else lead l
  let words (l : List Byte) : List Nat := (List.range (l.length / 2)).map fun i => fieldBE l (2 * i) 2
  let sum := 65535 - c + ((words (even o)).map fun w => 65535 - w).sum + (words (even n)).sum
  let fold (x : Nat) := x % 65536 + x / 65536
  65535 - fold (fold (fold sum))

/-- The new value of a UDP checksum: 0 stays 0 in IPv4, and a result of 0 is sent as 0xFFFF (R66, R348). -/
def udpUpdate (odd v4 : Bool) (c : Nat) (o n : List Byte) : Nat :=
  if v4 && c == 0 then 0 else let r := csumUpdate odd c o n; if r = 0 then 65535 else r

/-- A field of a frame that lies whole within it. -/
def inFrame (b : List Byte) (o : Int) (n : Nat) : Bool := decide (0 ≤ o) && decide (o.toNat + n ≤ b.length)

/-- A checksum field rewritten for a change of bytes; one that lies past the frame's end is left alone (assumption log, entry
20). -/
def csumAt (b : List Byte) (o : Int) (udp v4 : Bool) (old new : List Byte) : List Byte :=
  if inFrame b o 2 then
    let c := fieldBE b o.toNat 2
    patchB b o.toNat (bytesBE 2 (if udp then udpUpdate false v4 c old new else csumUpdate false c old new))
  else b

/-- One field rewritten, with the checksums over it (R66). -/
def natField (b : List Byte) (l3 l4 : Int) (v4 fixL4 ip4sum : Bool) (o : Int) (new : List Byte) : List Byte :=
  if !inFrame b o new.length then b
  else
    let old := sliceB b o.toNat new.length
    let proto := fieldBE b (l3.toNat + if v4 then 9 else 6) 1
    let b := patchB b o.toNat new
    let b := if v4 && ip4sum then csumAt b (l3 + 10) false v4 old new else b
    if fixL4 && proto == 6 then csumAt b (l4 + 16) false v4 old new
    else if fixL4 && proto == 17 then csumAt b (l4 + 6) true v4 old new
    else b

/-- NATA: the address and, where asked, the port from record bytes 80 to 127 (R66). -/
def natApply (b snap : List Byte) (l3 l4 : Int) (kind : Nat) (port : Bool) (aoff poff : Nat) (fixL4 : Bool) : List Byte :=
  let v4 := decide (kind < 2)
  let dst := kind % 2 == 1
  let addr := sliceB snap aoff (if v4 then 4 else 16)
  let at_ : Int := if v4 then (if dst then 16 else 12) else if dst then 24 else 8
  let b := natField b l3 l4 v4 fixL4 true (l3 + at_) addr
  if port then natField b l3 l4 v4 fixL4 false (l4 + if dst then 2 else 0) (sliceB snap poff 2) else b

/-! ### The one-step fill (R347 to R349) -/

def fillLen (mode : Nat) : Nat := if mode = 0 then 10 else 8

/-- Whether the field, and the checksum where one is named, lie before the data end. -/
def fillFits (len off mode : Nat) (csum : Option Nat) : Bool :=
  decide (off + fillLen mode ≤ len) && (match csum with | some c => decide (c + 2 ≤ len) | none => true)

/-- Whether a frame without a seam tag carries IPv4 (for the UDP checksum of 0): its first Ethertype after tags and R-TAGs is
0x0800. -/
def isIp4 (stpid : Nat) (b : List Byte) : Bool :=
  let rec look : Nat → Nat → Bool
    | 0, _ => false
    | fuel + 1, o =>
      let t := afterTags stpid b b.length o
      if fieldBE b t 2 == 0xF1C1 && decide (t + 8 ≤ b.length) then look fuel (t + 6) else fieldBE b t 2 == 0x0800
  look b.length 12

/-- The bytes written into the field. -/
def fillBytes (mode : Nat) (old : List Byte) (value : Int) : List Byte :=
  match mode with
  | 0 =>
    let ns := ((value + 32768) / 65536).toNat
    bytesBE 6 (ns / 1000000000 % 2 ^ 48) ++ bytesBE 4 (ns % 1000000000)
  | 1 => bytesBE 8 (unsigned 64 (signed 64 (beNat old) + value))
  | _ => bytesBE 8 ((value / 65536).toNat % 2 ^ 64)

def fillApply (b : List Byte) (off mode : Nat) (value : Int) (csum : Option Nat) (v4 : Bool) : List Byte :=
  if !fillFits b.length off mode csum then b
  else
    let old := sliceB b off (fillLen mode)
    let new := fillBytes mode old value
    let b' := patchB b off new
    match csum with
    | some c => patchB b' c (bytesBE 2 (udpUpdate ((c + off) % 2 == 1) v4 (fieldBE b c 2) old new))
    | none => b'

/-! ### Applying edits -/

/-- One edit at a place of the frame as it stands; `l4` is the place of a NATA's layer-4 header. -/
def editAt (snap b : List Byte) (place : Nat) (l4 : Int) (op : EditOp) : List Byte :=
  match op with
  | .push x => insertBytes (fillTo b place) place x
  | .pop n => cutBytes b place n
  | .setf x => patchB (fillTo b (place + x.length)) place x
  | .nata kind port _ aoff poff fixL4 => natApply b snap place l4 kind port aoff poff fixL4
  | .fill mode value csum v4 => fillApply b place mode value csum v4
  | _ => b

/-- An edit put into a list in ascending order of offset, after those of the same offset (R64). -/
def insertEdit (e : Edit) : List Edit → List Edit
  | [] => [e]
  | x :: t => if e.off < x.off then e :: x :: t else x :: insertEdit e t

def sortEdits (es : List Edit) : List Edit := es.foldl (fun l e => insertEdit e l) []

/-- The length change an applied edit makes in the frame (R64). -/
def EditOp.shift : EditOp → Int
  | .push b => b.length
  | .pop n => -(n : Int)
  | _ => 0

/-- The place of a frame offset after the edits of a list: it moves by the length change of those at lower offsets. -/
def movedBy (es : List Edit) (off : Int) : Int :=
  off + ((es.filter fun e => decide ((e.off : Int) < off)).map fun e => e.op.shift).sum

/-- Sorted edits applied in turn; `applied`: those applied before them, whose length changes move the places of the others (R64). An
edit whose place falls below 0, in bytes that an applied POP took away, is applied at place 0 (DESIGN CHOICE, log, entry 19). -/
def applyFrom (snap : List Byte) (applied : List Edit) : List Edit → List Byte → List Byte
  | [], b => b
  | e :: t, b =>
    let l4 := match e.op with | .nata _ _ l4 _ _ _ => movedBy applied (e.off + l4) | _ => 0
    applyFrom snap (applied ++ [e]) t (editAt snap b (movedBy applied e.off).toNat l4 e.op)

/-- The staged edits applied to a frame as received, in ascending order of offset (R64); marks and tags come later. An edit whose place
a POP moves below 0 is applied at place 0 (DESIGN CHOICE, log, entry 19). -/
def applyStaged (snap b : List Byte) (es : List Edit) : List Byte := applyFrom snap [] (sortEdits es) b

/-- The edits of the egress stations and of the egress MAC, in the order in which they were made. -/
def applyEgress (snap b : List Byte) (es : List Edit) : List Byte :=
  es.foldl (fun b e =>
    let l4 := match e.op with | .nata _ _ l4 _ _ _ => (e.off : Int) + l4 | _ => 0
    editAt snap b e.off l4 e.op) b

/-- Where a place of the frame comes to lie after an edit made at once. -/
def placeAfter (p : Nat) (e : Edit) : Nat :=
  match e.op with
  | .push x => if e.off ≤ p then p + x.length else p
  | .pop n => if e.off + n ≤ p then p - n else min p e.off
  | _ => p

/-- The frame's bytes without the FCS, as far as they have arrived. -/
def Frame.body (x : Frame) : List Byte := if x.done then x.bytes.take x.dataEnd else x.bytes

/-- The frame after its staged edits: what egress station 0 reads (R41). -/
def Device.stagedBytes (_ : Device) (c : Copy) (x : Frame) : List Byte := applyStaged c.snap x.body c.edits

/-- The copy as it stands: after the staged edits and the egress edits made so far, cut to the length of a mirror copy. -/
def Device.outBytes (d : Device) (c : Copy) (x : Frame) : List Byte :=
  let b := applyEgress c.snap (d.stagedBytes c x) c.egEdits
  match c.cut with
  | some n => b.take n
  | none => b

/-- The mark of a TSI with the place it has come to, from the egress edits if one of them marks, else from the staged ones
(R347). -/
def Copy.mark (c : Copy) : Option (Nat × Nat × Nat × Option Nat) :=
  let after (l : List Edit) (p : Nat) : Nat := l.foldl placeAfter p
  let rec go : List Edit → Option (Nat × Nat × Nat × Option Nat)
    | [] => none
    | e :: t => match go t with
      | some m => some m
      | none => match e.op with
        | .tsi mode tb cs => some (after t e.off, mode, tb, cs.map fun x => after t ((e.off : Int) + x).toNat)
        | _ => none
  match go c.egEdits with
  | some m => some m
  | none => (c.edits.find? fun e => match e.op with | .tsi _ _ _ => true | _ => false).bind fun e => match e.op with
    | .tsi mode tb cs =>
      some (after c.egEdits (movedBy c.edits e.off).toNat, mode, tb,
        cs.map fun x => after c.egEdits (movedBy c.edits (e.off + x)).toNat)
    | _ => none

/-- The tag a TWIN inserts: after the last tag of TPID 0x8100 or S_TPID, else after the source address (R283). -/
def twinEdit (stpid : Nat) (b : List Byte) (seq : Nat) : Edit :=
  ⟨afterTags stpid b b.length 12, .push (bytesBE 2 0xF1C1 ++ bytesBE 2 0 ++ bytesBE 2 seq)⟩

/-- The seam tag of a copy (R275). -/
def seamEdit (c : Copy) : Edit :=
  let w := match c.spray with
    | some (stream, seq, sync) => 2 ^ 30 + 2 ^ 29 + b2n sync * 2 ^ 28 + stream % 256 * 2 ^ 16 + seq % 65536
    | none => 2 ^ 30
  ⟨12, .push (bytesBE 4 w)⟩

end Sys2Proof.Machine
end

