-- ==== Sys2Proof/Machine/Rx.lean ====
section
/-! DEFINITION. Reception: the first bytes of a frame, its header window and its last byte (R40, R44, R95, R128, R129, R217,
R221, R224, R232, R233, R260, R262, R278, R284, R307, R308, R343). -/

namespace Sys2Proof.Machine

/-! ### The ingress MAC -/

/-- The frame as it stood on the wire: the removed tags put back, the last removed first. -/
def wireBytes (b : List Byte) (removed : List (Nat × List Byte)) : List Byte :=
  removed.foldr (fun r b => insertBytes b r.1 r.2) b

/-- The seam tag of the word at bytes 12 to 15 (R275). -/
def seamOf (w : Nat) : SeamTag := ⟨bit w 29, bit w 28, bits w 23 16, w % 65536⟩

def seamTagBad (w : Nat) : Bool := bits w 31 30 != 1 || bits w 27 24 != 0

/-- A MAC control frame (R278). -/
def isMacControl (b : List Byte) : Bool := fieldBE b 12 2 == 0x8808

/-- A frame of the sleep protocol's destination and Ethertype (R300). -/
def isSleepFrame (b : List Byte) : Bool := fieldBE b 0 6 == 0x0180C200000E && fieldBE b 12 2 == 0x88B6

/-- A gPTP frame of the servo's domain on the servo's port, which goes to Darby (R351). The place of the domain number is that of
the PTP header (PRESUMED, assumption log, entry 46). -/
def Device.isServoFrame (d : Device) (p : Nat) (b : List Byte) : Bool :=
  let c := d.reg Off.plumbServoCtl
  bit c 31 && !bit c 30 && bits c 26 17 == p && fieldBE b 0 6 == 0x0180C200000E && fieldBE b 12 2 == 0x88F7 &&
    fieldBE b 18 1 == c % 256

/-- The arrival class (R308). -/
def Device.arrivalClass (d : Device) (p : Nat) (b : List Byte) : Nat :=
  if isTag d.sTpid (fieldBE b 12 2) then
    let pcp := fieldBE b 14 1 / 32
    d.fld (Off.portPrio p) (3 * pcp + 2) (3 * pcp)
  else d.fld (Off.portPrio p) 26 24

/-- A signed number of picoseconds in 2^−16 ns. -/
def psFx (i : Int) : Int := i * 65536 / 1000

/-- The asymmetry A of a port (R344). -/
def Device.asym (d : Device) (p : Nat) : Int := signed 32 (d.reg (Off.plumbPortAsym p))

/-- The transit count at the message timestamp point, in 2^−16 ns, with RXADJ and without the asymmetry (R343, R344). -/
def Device.rxTransitFx (d : Device) (p : Nat) : Nat :=
  ((d.transit : Int) * 65536 + psFx (signed 16 (d.fld (Off.plumbPortAdj p) 31 16)) - d.asym p).toNat

/-- The value of the port's TS time base at the message timestamp point, in 2^−16 ns, with RXADJ and without the asymmetry (R343,
R344). -/
def Device.rxTimeFx (d : Device) (p : Nat) : Nat :=
  let t := d.tbNow (d.fld (Off.plumbPortTs p) 2 0)
  (((t.count * 65536 + t.frac / 65536 : Nat) : Int) + psFx (signed 16 (d.fld (Off.plumbPortAdj p) 31 16)) - d.asym p).toNat

/-- A new frame with nothing decided. -/
def Frame.blank (port : Nat) (bytes : List Byte) : Frame :=
  { port := port, bytes := bytes, done := false, bad := false, preemptable := false, arrClass := 0, acct := .scaf,
    home := .scaf, cells := 0, drain := 0, prov := 0, rxTransit := 0, rxTime := 0, arrTb0 := 0, arrTransit := 0,
    granted := false, seam := none, rtag := none, m := zeroM, base := 0, entry := 0, parks := 0, lenBound := none, bound0 := none,
    edits := [], mirror := none, hit := none, owed := [], killed := false, punt := none, parkM := none, pipe := 0, place := .rx,
    removed := [], aside := none, sender := none, sent := [], chain := [], asideCell := none, drainPort := none, snap := [],
    endChk := false, edits0 := [], mirror0 := none }

def Device.addFrame (d : Device) (x : Frame) : Device :=
  (d.modBuf fun b => { b with frames := NMap.set b.frames b.nextFrame x, nextFrame := b.nextFrame + 1 }).writeCells d.buf.nextFrame

/-- Any received frame other than SLEEP disarms the receive direction (R305). -/
def Device.disarm (d : Device) (p : Nat) : Device := d.modPort p fun x => { x with rxArmed := none }

/-- A frame of this kind, preemptable or express, is being received on a port. -/
def Device.receiving (d : Device) (p : Nat) (pre : Bool) : Bool :=
  d.buf.frames.any fun x => x.2.port == p && !x.2.done && x.2.preemptable == pre

/-- A new frame of a port as its ingress MAC passes it on: the seam tag and the R-TAG removed where the port says so, the
arrival class, the timestamps and its first metadata; with it whether its seam tag is bad (R278, R284, R308, R343). -/
def Device.strip (d : Device) (p : Nat) (bytes : List Byte) (pre : Bool) (cls : Option Nat) : Frame × Bool :=
  let rxseam := d.flag (Off.spreadPort p) 31
  let b1 := if rxseam then cutBytes bytes 12 4 else bytes
  let o := afterTags d.sTpid b1 b1.length 12
  let rtag := d.flag (Off.spreadPort p) 30 && fieldBE b1 o 2 == 0xF1C1
  let b2 := if rtag then cutBytes b1 o 6 else b1
  let cls := cls.getD (d.arrivalClass p b2)
  ({ Frame.blank p b2 with
      preemptable := pre, arrClass := cls, rxTransit := d.rxTransitFx p, rxTime := d.rxTimeFx p, pipe := pipeOf p,
      seam := if rxseam then some (seamOf (fieldBE bytes 12 4)) else none
      rtag := if rtag then some (fieldBE b1 (o + 4) 2) else none
      removed := (if rxseam then [(12, sliceB bytes 12 4)] else []) ++ (if rtag then [(o, sliceB b1 o 6)] else [])
      m := (zeroM.setIfInBounds 2 (BitVec.ofNat 32 cls)).setIfInBounds 3 (BitVec.ofNat 32 (3 * 2 ^ 30)) },
    rxseam && seamTagBad (fieldBE bytes 12 4))

/-- A new frame is charged its provision; a refused one is received to its end without cells. At shed levels S2 and S3 the
refused arrival classes are discarded and counted in PWR_SHED_DROP, unless they are lossless, when they use the headroom (R217,
R221, R278, R477). -/
def Device.takeIn (d : Device) (x : Frame) (badTag : Bool) : Device :=
  let p := x.port
  let cls := x.arrClass
  if badTag then (d.bump Off.spreadRxBadtag 1).addFrame { x with place := .out }
  else if d.pwr.draining then (d.bump (Off.bufInDrop p) 1).addFrame { x with place := .out }
  else if d.shedRefuses cls && !d.lossless p cls then
    ((d.bump Off.pwrShedDrop 1).occPort 0x303 1 (some cls) p).addFrame { x with place := .out }
  else
    let prov := d.provision p
    match d.admitFrame p cls prov with
    | (d, none) => d.addFrame { x with place := .out }
    | (d, some a) => (d.addFrame { x with acct := a, home := a, cells := prov, prov := prov }).poolsMoved

/-- The first bytes of a frame arrive (R217, R221, R278, R284, R308, R343, R477). MAC control frames, sleep frames and the servo's frames
have rows of their own. -/
def Device.frameReceive (d : Device) (p : Nat) (bytes : List Byte) (pre : Bool) : Device :=
  if !d.portUp p || d.flag (Off.portStatus p) 26 || isMacControl bytes || isSleepFrame bytes || d.isServoFrame p bytes ||
      d.receiving p pre then d
  else
    let d := d.disarm p
    let (x, badTag) := d.strip p bytes pre none
    d.takeIn x badTag

/-- The frame joins its pipeline's entry queue once its header window has been received (R95). -/
def Device.joinEntry (d : Device) (f : Nat) : Device :=
  match d.frame f with
  | some x =>
    (d.modFrame f fun x => { x with place := .entry }).modPipe x.pipe fun q => { q with entryQ := q.entryQ ++ [f] }
  | none => d

/-- Bytes are added to a frame, as far as MAXLEN lets the MAC write (R307). -/
def Device.appendBytes (d : Device) (f : Nat) (more : List Byte) : Device :=
  (d.modFrame f fun x =>
    let room := d.maxLen x.port - (wireBytes x.bytes x.removed).length
    { x with bytes := x.bytes ++ more.take room }).writeCells f

/-- The rest of a frame's header window has arrived (R95), and a byte after it: a frame that ends with its window joins at its end, so
that its length is known to every pass whose window holds its last byte (R126; DEDUCED, log, entry 53). A hint passed by the received bytes is their number, by R232. -/
def Device.headerWindow (d : Device) (f : Nat) (more : List Byte) : Device :=
  match d.frame f with
  | some x =>
    if x.done || x.place != .rx || x.bytes.length + more.length ≤ 64 then d
    else (d.appendBytes f more).joinEntry f
  | none => d

/-! ### Copies that end early (R233, R239) -/

/-- A copy whose head has left its port, its last byte not. -/
def Copy.started (x : Copy) : Bool := x.stage == .mac || x.stage == .remainder

/-- Bytes with the complement of their correct FCS (R30, R233). -/
def withBadFcs (b : List Byte) : List Byte := b ++ bytesLE 4 (inv32 (crc32 b))

/-- The egress MAC ends a copy with the complement of the correct FCS for the bytes sent and an error termination; its drain cells go
with it (R30, R233). Nothing leaves after squelch (R31). -/
def Device.endWire (d : Device) (c : Nat) : Device :=
  match d.copy c with
  | none => d
  | some x =>
    let b := match d.frame x.frame with | some fr => d.outBytes x fr | none => []
    ((d.modPort x.port fun q => { q with
      wire := if d.pwr.squelch then q.wire else withBadFcs b
      errorTerm := if d.pwr.squelch then q.errorTerm else true
      tx := if q.tx = some c then none else q.tx
      remainder := if q.remainder = some c then none else q.remainder }).dropCopy c).pfcFlush x.port

/-- The words that a copy still has in its span's streams. -/
def Device.wordsLeft (d : Device) (s c : Nat) : Nat :=
  ((d.span s).tx.map fun q => (q.2.filter fun w => w.copy == c).length).sum

/-- The words of a copy in its span's streams are replaced by others in their places. -/
def Device.rewriteWords (d : Device) (s stream c : Nat) (ws : List DWord) : Device :=
  d.modSpan s fun q =>
    let l := NMap.getD q.tx stream []
    let before := l.takeWhile fun w => w.copy != c
    let after := l.filter fun w => w.copy != c
    { q with tx := NMap.set q.tx stream (before ++ ws.map (⟨c, ·⟩) ++ after.drop before.length) }

/-- The bytes of a copy on a span with a correct FCS, as its stream carries them. -/
def Device.spanBytes (d : Device) (x : Copy) (fr : Frame) : List Byte := withFcs (d.outBytes x fr)

/-- A copy on a span ends: one whose head has entered the span is sent on with the complement of its correct FCS, and one whose words all
wait is taken from its stream and discarded (R324). -/
def Device.endSpan (d : Device) (s c : Nat) : Device :=
  match d.copy c with
  | none => d
  | some x => match d.frame x.frame with
    | none => d.dropCopy c
    | some fr =>
      let b := d.spanBytes x fr
      let left := d.wordsLeft s c
      let bad := streamWords x.cls (withBadFcs (b.take (b.length - 4)))
      let entered := decide (left < bad.length)
      let d := if entered then (d.bump (Off.bufCtAbort x.port) 1).occPort 0x306 1 (some x.cls) x.port else d
      (d.rewriteWords s (x.chan.getD 0) c (if entered then bad.drop (bad.length - left) else [])).dropCopy c

/-- A started copy of a frame that has turned bad is ended (R233, R324). -/
def Device.abortCopy (d : Device) (c : Nat) : Device :=
  match d.copy c with
  | none => d
  | some x => match d.spanOf x.port with
    | some s => d.endSpan s c
    | none => ((d.bump (Off.bufCtAbort x.port) 1).occPort 0x306 1 (some x.cls) x.port).endWire c

/-- The copies of a frame whose head has left. -/
def Device.startedCopies (d : Device) (f : Nat) : List Nat :=
  (d.buf.copies.filter fun c => c.2.frame == f && c.2.started).map (·.1)

/-- A frame turns bad: BAD is set, and every copy already started is ended. `counted`: the ingress MAC has counted the frame among its
errors; else it does so when a copy is ended (R233, R313). -/
def Device.turnBad (d : Device) (f : Nat) (counted : Bool) : Device :=
  let cs := d.startedCopies f
  let d := d.modFrame f fun x => { x with bad := true }
  let d := match d.frame f with
    | some x => if !counted && !cs.isEmpty && decide (x.port < 512) then d.bump (Off.portRxFcsErr x.port) 1 else d
    | none => d
  cs.foldl Device.abortCopy d

/-! ### The last byte -/

/-- The condition of the end check: the frame ends beyond the window of its last pass, and its length bound beyond its data
end (R129). -/
def Frame.endCheckFails (x : Frame) : Bool :=
  x.port < 512 && x.granted && x.endChk && decide (x.base + 64 < x.bytes.length) &&
    (match x.lenBound with | some b => decide (x.dataEnd < b) | none => false)

/-- The end check of a complete frame whose passes are over (R129). For a frame still in its passes at its last byte it is
made at the end of the last pass (DEDUCED, assumption log, entry 14). -/
def Device.endCheck (d : Device) (f : Nat) : Device :=
  match d.frame f with
  | some x =>
    if x.done && !x.bad && x.endCheckFails then (d.bump (Off.pipeLenLate x.pipe) 1).turnBad f false else d
  | none => d

/-- The passes of a frame are over. -/
def Place.passed : Place → Bool
  | .out => true
  | .repl => true
  | .float _ => true
  | _ => false

/-- An accepted frame longer than its quote's LMAX turns bad, counted on the port it goes to (R260). -/
def Device.overlenCheck (d : Device) (f : Nat) : Device :=
  match d.frame f with
  | some x =>
    if bit (x.mN 5) 21 && !x.bad then
      match d.quote (x.mN 5 % 2 ^ 20) with
      | some q =>
        let port := ((d.buf.copies.find? fun c => c.2.frame == f && c.2.quote.isSome).map (·.2.port)).getD q.portA
        if q.lmax < x.bytes.length then (d.bump (Off.schedQOverlen port) 1).turnBad f false else d
      | none => d
    else d
  | none => d

/-- Whether a copy that cannot be preempted at its gate's close, and is `real` bytes long, runs past it: its gate has closed since, or
closes before the last of its bytes not yet sent since its presentation (R266). -/
def Device.overruns (d : Device) (c : Copy) (real : Nat) : Bool :=
  let sent := match c.presentAt with | some t => (d.transit - t) * d.portRate c.port / 8 | none => 0
  decide (c.cls < 7) && !d.cutsAtClose c.port c.cls &&
    (c.pastClose || !d.gateOpen c.port c.cls || d.closesBefore c.port c.cls (real + 20 - sent) 0)

/-- The copies of a frame that were selected before it was complete: the class bucket is corrected by the difference between
the true length and the hint, and a frame longer than its hint is counted, also as a gate overrun when its gate has closed
(R232, R262, R266). -/
def Device.hintSettle (d : Device) (f : Nat) : Device :=
  match d.frame f with
  | none => d
  | some x =>
    (d.buf.copies.filter fun c => c.2.frame == f && c.2.cutThrough && c.2.stage != .queued).foldl (fun d (_, c) =>
      let whole := ((x.bytes.length : Int) + growthSent c.edits).toNat
      let real : Nat := match c.cut with | some n => min whole (n + 4) | none => whole
      let d := if c.cls < 7 ∧ d.bucketOn c.port c.cls then
          ((d.setTokens c.port c.cls (d.tokensOf c.port c.cls + ((c.hint : Int) - real) * 65536)).idleBucket c.port c.cls).tags c.port else d
      if real ≤ c.hint then d
      else
        let d := d.bump (Off.bufHintOver c.port) 1
        if d.overruns c real then d.bump (Off.schedGateOverrun c.port) 1 else d) d

/-- Cells the frame does not use return to its account (R217). -/
def Device.returnCells (d : Device) (f : Nat) : Device :=
  (d.modFrame f fun x =>
    let have_ := min x.cells x.wanted
    { x with cells := have_, drain := if x.drainPort.isSome then x.wanted - have_ else 0 }).poolsMoved

/-- The byte count of R44: added when the MAC has received the whole frame, for every hit until then. A frame whose FCS proves bad adds
nothing (DESIGN CHOICE, log, entry 49). -/
def Device.countBytes (d : Device) (f : Nat) : Device :=
  match d.frame f with
  | some x => (x.owed.foldl (fun d h => d.update h (byteUpd x.bytes.length)) d).modFrame f fun x => { x with owed := [] }
  | none => d

/-- What the FCS check and the length limits say of a whole wire frame. -/
inductive RxVerdict where
  | good | badFcs | oversize | runt
deriving DecidableEq, Repr

def Device.rxVerdict (d : Device) (p : Nat) (wire : List Byte) (fragErr : Bool) : RxVerdict :=
  let n := wire.length
  if fragErr then .badFcs
  else if d.maxLen p < n then .oversize
  else if n < 64 then .runt
  else if leNat (wire.drop (n - 4)) != crc32 (wire.take (n - 4)) then .badFcs
  else .good

/-- A frame that turned out bad leaves at once if it has not entered a pipeline; otherwise it is marked and its passes run
on (R230, R233). -/
def Device.rxBad (d : Device) (f : Nat) : Device :=
  match d.frame f with
  | none => d
  | some x =>
    let d := ((d.modFrame f fun x => { x with done := true }).hintSettle f).turnBad f true
    if x.place = .rx then d.freeFrame f
    else if x.place = .out && !(d.hasReader f) then d.freeFrame f
    else d.returnCells f

/-- A whole frame with a good FCS: its FCS follows the removal of its tags, its byte count, unused cells, hint and length checks
are settled, and it goes on (R44, R129, R217, R232, R260). -/
def Device.frameWhole (d : Device) (f : Nat) : Device :=
  match d.frame f with
  | none => d
  | some x =>
    let d := d.modFrame f fun x => { x with
      done := true
      bytes := if x.removed.isEmpty then x.bytes
        else let b := x.bytes.take (x.bytes.length - 4); b ++ bytesLE 4 (crc32 b) }
    let d := ((d.countBytes f).returnCells f).hintSettle f
    let d := (if x.place.passed then d.endCheck f else d).overlenCheck f
    if x.place = .rx then d.joinEntry f
    else if x.place = .out && !(d.hasReader f) then d.freeFrame f
    else d

/-- The last bytes of a frame arrive (R129, R217, R232, R233, R260, R307). `fragErr`: its reassembly from preemptable
fragments failed (R310). -/
def Device.frameEnd (d : Device) (f : Nat) (rest : List Byte) (fragErr : Bool) : Device :=
  match d.frame f with
  | none => d
  | some x =>
    if x.done || 512 ≤ x.port then d
    else
      let p := x.port
      let wire := wireBytes (x.bytes ++ rest) x.removed
      let d := d.appendBytes f rest
      let bad := fun (d : Device) => (d.occPort 0x005 1 (some x.arrClass) p).rxBad f
      match d.rxVerdict p wire fragErr with
      | .oversize => bad (d.bump (Off.portRxOversize p) 1)
      | .runt => bad (d.bump (Off.portRxRunt p) 1)
      | .badFcs => bad (d.bump (if fragErr then Off.portRxFragErr p else Off.portRxFcsErr p) 1)
      | .good =>
        let d := ((d.bump64 (Off.portRxFramesLo p) 1).bump64 (Off.portRxBytesLo p) wire.length)
        let d := (d.occPort 0x001 1 (some x.arrClass) p).occPort 0x002 wire.length (some x.arrClass) p
        d.frameWhole f

/-- The port's link is lost before a frame's last byte (R233): the frame is treated as one with a bad FCS. -/
def Device.cutRx (d : Device) (p : Nat) : Device :=
  (d.buf.frames.filter fun x => x.2.port == p && !x.2.done).foldl (fun d (f, x) =>
    (((d.bump (Off.portRxFcsErr p) 1).occPort 0x005 1 (some x.arrClass) p).rxBad f)) d

end Sys2Proof.Machine
end

