-- ==== Sys2Proof/Machine/Coats.lean ====
section
/-! DEFINITION. Coats: images, staging, verification, the change to a new coat, retirement and settling (R103 to R118, R140,
R141, R145, R248, R405, R414, R543). -/

namespace Sys2Proof.Machine

/-! ### The staged view (R103, R106, R117, R140) -/

def Coat.blank : Coat :=
  { id := 0, isteps := [], esteps := [], ien := [], een := [], pmapI := [], pmapE := [], tables := [], repl := [],
    cregs := [], addrs := [], egSlot := 0, dupDefs := false, commit := 0 }

def Device.modCoats (d : Device) (f : Coats → Coats) : Device := { d with coats := f d.coats }

/-- The newest coat: the pending coat if one exists, otherwise the current coat (R117). -/
def Device.newest (d : Device) : Option Coat :=
  match d.coats.pending with
  | some p => some p.coat
  | none => d.curCoat

/-- The identifier after another: from 0xFFFF to 0x0001 (R103). -/
def nextCoatId (n : Nat) : Nat := if n = 65535 then 1 else n + 1

/-- The base of the staging coat, with the identifier it will bear (R117, R140). -/
def Device.stageBase (d : Device) : Coat :=
  let b := d.newest.getD Coat.blank
  { b with id := nextCoatId b.id, addrs := [] }

/-- The coats beside the staging one whose tables and words are held: the live ones and the pending one. -/
def Device.heldCoats (d : Device) : List Coat := d.coats.slots.vals ++ (d.coats.pending.map (·.coat)).toList

/-- The other coats whose versions the device stores: the held ones, and those retired whose versions wait for settling
(R141). -/
def Device.otherCoats (d : Device) : List Coat := d.heldCoats ++ d.coats.old

/-- A whole table definition section: a definition equal to the present one or to the base's keeps that instance (R542). -/
def Coat.define (c base : Coat) (defs : List TableDef) : Coat :=
  let one (df : TableDef) : Nat × Table :=
    let keep (o : Coat) : Option Table := (NMap.get? o.tables df.num).bind fun t => if t.defn = df then some t else none
    (df.num, (keep c).getD ((keep base).getD (Table.new c.id df)))
  { c with
    tables := defs.foldl (fun m df => let x := one df; NMap.set m x.1 x.2) []
    dupDefs := decide ((defs.map TableDef.num).dedup.length < defs.length) }

def entriesOf (l : List (BitVec 32)) : NMap (BitVec 32) := l.zipIdx.map fun (e, i) => (i, e)

/-- A Coat-class register takes a value: a reserved encoding leaves its field as it was (R11, R122). -/
def coatRegValue (off old v : Nat) : Nat :=
  match regDef? off with
  | none => old
  | some r => r.fields.foldl (fun acc f =>
      let x := bits v f.hi f.lo
      if f.acc = .rw ∧ !f.resv.contains x then setBits acc f.hi f.lo x else acc) old

/-- The value of a Coat-class register in a coat. -/
def Coat.creg (c : Coat) (off : Nat) : Nat := NMap.getD c.cregs off (regReset off).toNat

/-- One staged item on the staged view. -/
def Coat.stage (base : Coat) (others : List Coat) (c : Coat) (s : Staged) : Coat :=
  match s with
  | .isteps st ws => { c with isteps := NMap.set c.isteps st ws }
  | .esteps st ws => { c with esteps := NMap.set c.esteps st ws }
  | .ien es => { c with ien := entriesOf es }
  | .een es => { c with een := entriesOf es }
  | .ports es only =>
    let c := { c with pmapI := es.foldl (fun m e => NMap.set m (bits e.toNat 9 0) (bits e.toNat 15 10)) [] }
    let eg : NMap Nat := (es.filter fun e => e.getLsbD 31).foldl
      (fun m e => NMap.set m (bits e.toNat 9 0) (bits e.toNat 21 16)) []
    if only then c else { c with pmapE := eg }
  | .egressBase => { c with esteps := base.esteps, een := base.een, pmapE := base.pmapE }
  | .tableDefs defs => c.define base defs
  | .record b n => match c.applyRecord others n b with | .ok c' => c' | .error _ => c
  | .replEntry b => match c.applyRepl b with | .ok c' => c' | .error _ => c
  | .creg off v => { c with cregs := NMap.set c.cregs off (coatRegValue off (c.creg off) v) }

/-- The staging coat as it stands. -/
def Device.stagedCoat (d : Device) : Coat :=
  let base := d.stageBase
  (d.coats.staged.map (·.2)).foldl (Coat.stage base d.otherCoats) base

def Device.staging (d : Device) : Bool := !d.coats.staged.isEmpty

/-- The retained images of the live, pending and staging coats, two copies each, follow their contents (R195). -/
def Device.retainImages (d : Device) : Device :=
  let all := d.heldCoats ++ (if d.staging then [d.stagedCoat] else [])
  d.modCoats fun c => { c with images := all.foldl (fun m x => NMap.set m x.id (x, x)) [] }

/-- Changes logged for the staging coat: one a record (R140). -/
def Device.stageLog (d : Device) : Nat :=
  (d.coats.staged.filter fun s => match s.2 with | .record _ _ => true | .replEntry _ => true | _ => false).length

/-- The seat's staged content is discarded (R106). -/
def Device.dropStaged (d : Device) (seat : Nat) : Device :=
  Device.retainImages <| d.modCoats fun c =>
    let rest := c.staged.filter fun s => s.1 ≠ seat
    let addrs := if rest.isEmpty then [] else c.stagedAddrs
    { c with staged := rest, stagedAddrs := addrs, logFull := c.logFull && !rest.isEmpty }


/-! ### Step-store words (R104) -/

/-- The addresses that words of other coats take in a station (STN numbering). -/
def Device.usedAddrs (d : Device) (stn : Nat) : List Nat :=
  let live := (d.coats.slots.vals ++ (d.coats.pending.map (·.coat)).toList ++
    (if stn < 32 then [] else (d.coats.egress.filter fun p => decide (p.1 < 8)).map (·.2))).map fun c => NMap.getD c.addrs stn []
  live.flatten.dedup

def Coat.words (c : Coat) (stn : Nat) : List (BitVec 512) :=
  if stn < 32 then NMap.getD c.isteps stn [] else NMap.getD c.esteps (stn - 32) []

/-- The stations of both kinds, in STN numbering. -/
def stnList : List Nat := List.range 24 ++ (List.range 8).map (32 + ·)

/-- `n` addresses out of a station's free ones; which of them Darby takes is open (assumption log, entry 17). -/
def Device.takeAddrs (d : Device) (used : List Nat) : Nat → Device × List Nat
  | 0 => (d, [])
  | n + 1 =>
    let free := (List.range 4096).filter fun a => !used.contains a
    let (d, v) := d.free 2
    let a := free.getD (v % free.length) 0
    let (d, rest) := d.takeAddrs (a :: used) n
    (d, a :: rest)

/-- Darby gives each staged word of a coat an address, as far as words are free: the stations `stns` (R104). -/
def Device.placeWords (d : Device) (c : Coat) (stns : List Nat) : Device :=
  stns.foldl (fun d stn =>
    let have_ := NMap.getD d.coats.stagedAddrs stn []
    let n := (c.words stn).length
    if n ≤ have_.length then d.modCoats fun x => { x with stagedAddrs := NMap.set x.stagedAddrs stn (have_.take n) }
    else
      let (d, more) := d.takeAddrs (d.usedAddrs stn ++ have_) (n - have_.length)
      d.modCoats fun x => { x with stagedAddrs := NMap.set x.stagedAddrs stn (have_ ++ more) }) d

/-- The stations for which blocks are staged. -/
def stagedStns (l : List Staged) : List Nat :=
  (l.filterMap fun s => match s with | .isteps st _ => some st | .esteps st _ => some (32 + st) | _ => none).dedup

/-- Whether the words of the stations fit beside the others (R104, R106). -/
def Device.wordsFit (d : Device) (c : Coat) (stns : List Nat) : Bool :=
  stns.all fun stn => decide ((d.usedAddrs stn).length + (c.words stn).length ≤ 4096)

/-! ### Images (R114 to R117) -/

/-- The image header's rules, and the CRC (R114). -/
def imageHeaderOk (b : List Byte) : Bool :=
  let f := fieldLE b
  decide (64 ≤ b.length) && f 0 4 == 0x3149575A && f 4 2 == 3 && f 6 2 == 64 && f 8 4 == b.length && b.length % 16 == 0 &&
    f 12 4 == 0x47517102 && decide (f 16 1 ≤ 0xC0) && decide (f 17 1 < 4) && decide (1 ≤ f 18 2 ∧ f 18 2 ≤ 64) &&
    allZero (sliceB b 32 32) && f 20 4 == crc32c (patchB b 20 [0, 0, 0, 0])

/-- One section table entry: type, SFLAGS, offset, length, count (R115). -/
structure Section_ where
  ty : Nat
  flags : Nat
  off : Nat
  len : Nat
  count : Nat
deriving DecidableEq, Repr

def imageSections (b : List Byte) : List Section_ :=
  (List.range (fieldLE b 18 2)).map fun i =>
    let o := 64 + 16 * i
    ⟨fieldLE b o 2, fieldLE b (o + 2) 2, fieldLE b (o + 4) 4, fieldLE b (o + 8) 4, fieldLE b (o + 12) 4⟩

def Section_.listed (s : Section_) : Bool := decide (1 ≤ s.ty ∧ s.ty ≤ 8)

/-- The bounds of the sections (R115). -/
def sectionsOk (b : List Byte) (l : List Section_) : Bool :=
  let listed := (l.filter Section_.listed).map Section_.ty
  decide (listed.dedup.length = listed.length) &&
  (l.all fun s => s.flags == 0 && s.off % 16 == 0 && decide (64 + 16 * l.length ≤ s.off) && decide (s.off + s.len ≤ b.length)) &&
  l.zipIdx.all fun (s, i) => l.zipIdx.all fun (t, j) =>
    i == j || s.len == 0 || t.len == 0 || decide (s.off + s.len ≤ t.off) || decide (t.off + t.len ≤ s.off)

/-- The 64-byte words at a place of an image (R117). -/
def wordsAt (b : List Byte) (o n : Nat) : List (BitVec 512) :=
  (List.range n).map fun i => BitVec.ofNat 512 (fieldLE b (o + 64 * i) 64)

/-- The station blocks of a steps section: (station, words); none where a block header breaks R115. -/
def stepBlocks (b : List Byte) (stations : Nat) : Nat → Nat → Nat → Option (List (Nat × List (BitVec 512)))
  | 0, o, stop => if o = stop then some [] else none
  | k + 1, o, stop =>
    let st := fieldLE b o 1
    let n := fieldLE b (o + 2) 2
    if st < stations ∧ fieldLE b (o + 1) 1 = 0 ∧ 1 ≤ n ∧ n ≤ 4096 ∧ fieldLE b (o + 4) 4 = 0 ∧ o + 8 + 64 * n ≤ stop then
      (stepBlocks b stations k (o + 8 + 64 * n) stop).map fun l => (st, wordsAt b (o + 8) n) :: l
    else none

def words32At (b : List Byte) (o n : Nat) : List (BitVec 32) :=
  (List.range n).map fun i => BitVec.ofNat 32 (fieldLE b (o + 4 * i) 4)

def bytesAt (b : List Byte) (o size n : Nat) : List (List Byte) := (List.range n).map fun i => sliceB b (o + size * i) size

/-- An entry-point entry with its fields marked 0 at 0 (R116). -/
def entryFormOk (e : BitVec 32) : Bool := bits e.toNat 23 12 == 0 && bits e.toNat 30 29 == 0

/-- Whether a register offset is that of a Coat-class register (R12, R115). -/
def isCoatReg (off : Nat) : Bool :=
  match regDef? off with
  | some r => r.fields.any fun f => f.chg == .coat
  | none => false

/-- The staged items of one section; none is FORMAT. `egFixed`: FLAGS[1]. -/
def sectionItems (b : List Byte) (egFixed : Bool) (s : Section_) : Option (List Staged) :=
  let stop := s.off + s.len
  match s.ty with
  | 1 => (stepBlocks b 24 s.count s.off stop).bind fun l =>
      if (l.map (·.1)).dedup.length = l.length then some (l.map fun x => .isteps x.1 x.2) else none
  | 2 =>
    if egFixed then none
    else (stepBlocks b 8 s.count s.off stop).bind fun l =>
      if (l.map (·.1)).dedup.length = l.length then some (l.map fun x => .esteps x.1 x.2) else none
  | 3 =>
    let es := words32At b s.off 64
    if s.count = 64 ∧ s.len = 256 ∧ es.all entryFormOk then some [.ien es] else none
  | 4 =>
    let es := words32At b s.off 64
    if !egFixed ∧ s.count = 64 ∧ s.len = 256 ∧ es.all entryFormOk then some [.een es] else none
  | 5 =>
    let es := words32At b s.off s.count
    let ports := es.map fun e => bits e.toNat 9 0
    if s.len = 4 * s.count ∧ ports.all (fun p => decide (p < 512)) ∧ ports.dedup.length = ports.length ∧
        es.all (fun e => bits e.toNat 30 22 == 0 && !(egFixed && e.getLsbD 31)) then some [.ports es egFixed] else none
  | 6 => if s.len = 32 * s.count then some [.tableDefs ((bytesAt b s.off 32 s.count).map TableDef.mk)] else none
  | 7 => if s.len = 96 * s.count then some ((bytesAt b s.off 96 s.count).map fun r => .record r 0) else none
  | 8 =>
    let ps := (bytesAt b s.off 8 s.count).map fun p => (fieldLE p 0 4, fieldLE p 4 4)
    if s.len = 8 * s.count ∧ ps.all (fun p => isCoatReg p.1) then
      some (ps.map fun p => .creg p.1 p.2)
    else none
  | _ => some []

/-- The order in which an image's sections take effect: definitions before the records that use them. -/
def sectionRank (s : Section_) : Nat := s.ty

/-- FORMAT of the step words of an image: the first failure by R543 (R118), with its coat-relative index, since the words have no
addresses yet (DESIGN CHOICE, log, entry 119). -/
def imageWordFails (items : List Staged) : List Fail :=
  items.flatMap fun s =>
    let chk (stn : Nat) (ws : List (BitVec 512)) : List Fail := ws.zipIdx.filterMap fun (w, i) =>
      if bits w.toNat 77 72 != stn || bits w.toNat 79 78 != 0 || bits w.toNat 71 64 != 0 || bits w.toNat 31 0 != 0 then
        some (Code.format, stn, i, 7) else none
    match s with
    | .isteps st ws => chk st ws
    | .esteps st ws => chk (32 + st) ws
    | _ => []

/-- An image as staged items, or the FORMAT failure (R114 to R118). -/
def parseImage (b : List Byte) : Except Fail (Bool × List Staged) :=
  if !imageHeaderOk b then .error (Code.format, 0, 0, 7)
  else
    let secs := imageSections b
    let egFixed := bit (fieldLE b 17 1) 1
    let sorted := (List.range 9).flatMap fun k => secs.filter fun s => sectionRank s == k
    if !sectionsOk b secs then .error (Code.format, 0, 0, 7)
    else
      let parts := sorted.map (sectionItems b egFixed)
      if parts.any Option.isNone then .error (Code.format, 0, 0, 7)
      else
        let items := (if egFixed then [Staged.egressBase] else []) ++ (parts.filterMap id).flatten
        match firstFail (imageWordFails items) with
        | some f => .error f
        | none => .ok (bit (fieldLE b 17 1) 0, items)

/-! ### Privilege of staged content (R106, R405) -/

/-- Whether a seat may stage content of an entry point or table: Owner of its partition or delegation bit TABLE, the device
owner for SHARED. -/
def Device.mayStage (d : Device) (seat : Nat) (part : Nat) (shared : Bool) : Bool :=
  if shared then d.isDevOwner seat else d.ownsOr seat part 5

/-- An entry-point entry that changes: the partitions of the old and of the new value both count, whether or not either is
valid. -/
def Device.entryPriv (d : Device) (seat : Nat) (old new : NMap (BitVec 32)) : Bool :=
  (List.range 64).all fun e =>
    let a := NMap.getD old e 0
    let b := NMap.getD new e 0
    let may (x : BitVec 32) : Bool := d.mayStage seat (bits x.toNat 27 24) (x.getLsbD 28)
    a == b || (may a && may b)

def Device.mapPriv (d : Device) (seat : Nat) (old new : NMap Nat) : Bool :=
  (old.keys ++ new.keys).dedup.all fun p => NMap.get? old p == NMap.get? new p || d.mayStage seat (d.portPart p) false

/-- The entry points from which each word lies on a path, by station and index. -/
def reachSets (p : Prog) (t : NMap (BitVec 32)) : List (Nat × List (List Nat)) :=
  let es := validEntries t
  es.map fun (e, _, _, _) =>
    let starts := (recircFrom p es 3 [e]).filterMap fun x => (es.find? fun y => y.1 == x).map (·.2.1)
    (e, reachFrom p starts)

def reachers (r : List (Nat × List (List Nat))) (st i : Nat) : List Nat :=
  (r.filter fun x => (x.2.getD st []).contains i).map (·.1)

/-- The step words that change, or whose reaching entry points change, need the privilege of every entry point that reaches
them afterwards. -/
def Device.wordPriv (d : Device) (seat n : Nat) (eg : Bool) (oldS newS : NMap (List (BitVec 512)))
    (oldE newE : NMap (BitVec 32)) : Bool :=
  let po := progOf eg n oldS
  let pn := progOf eg n newS
  let ro := reachSets po oldE
  let rn := reachSets pn newE
  pn.zipIdx.all fun (ws, st) => (List.range ws.length).all fun i =>
    let before := reachers ro st i
    let after := reachers rn st i
    let changed := (NMap.getD oldS st [])[i]? != (NMap.getD newS st [])[i]? || before != after
    !changed || after.all fun e =>
      let x := NMap.getD newE e 0
      d.mayStage seat (bits x.toNat 27 24) (x.getLsbD 28)

def Device.tablePriv (d : Device) (seat : Nat) (t : Table) : Bool := d.mayStage seat t.defn.part t.defn.shared

/-- The nibbles of a TBL_PARSE_START register that change need their entry points' partitions; every other Coat-class field
needs the device owner. -/
def Device.cregPriv (d : Device) (seat : Nat) (c : Coat) (off old new : Nat) : Bool :=
  if Off.tblParseStart 0 ≤ off ∧ off ≤ Off.tblParseStart 7 then
    (List.range 8).all fun j =>
      let x := NMap.getD c.ien (8 * ((off - Off.tblParseStart 0) / 4) + j) 0
      bits old (4 * j + 3) (4 * j) == bits new (4 * j + 3) (4 * j) ||
        d.mayStage seat (bits x.toNat 27 24) (x.getLsbD 28)
  else old == new || d.isDevOwner seat

/-- The records of an image that change the staged view need the privilege of their tables; one that it carries unchanged counts for
nothing (R106). -/
def Device.recordsPriv (d : Device) (seat : Nat) : Coat → List (List Byte) → Bool
  | _, [] => true
  | c, r :: t =>
    ((NMap.get? c.tables (recTable r)).all fun x => x.holds r || d.tablePriv seat x) &&
      d.recordsPriv seat (match c.applyRecord [] 0 r with | .ok c' => c' | .error _ => c) t

/-- The privilege check of an image's items against the staged view before and after it. -/
def Device.stagePriv (d : Device) (seat : Nat) (old new : Coat) (items : List Staged) : Bool :=
  d.entryPriv seat old.ien new.ien && d.entryPriv seat old.een new.een && d.mapPriv seat old.pmapI new.pmapI &&
    d.mapPriv seat old.pmapE new.pmapE && d.wordPriv seat 24 false old.isteps new.isteps old.ien new.ien &&
    d.wordPriv seat 8 true old.esteps new.esteps old.een new.een &&
    ((old.tables.keys ++ new.tables.keys).dedup.all fun n =>
      let a := NMap.get? old.tables n
      let b := NMap.get? new.tables n
      (a.map (·.defn)) == (b.map (·.defn)) || (a.all (d.tablePriv seat) && b.all (d.tablePriv seat))) &&
    d.recordsPriv seat new (items.filterMap fun s => match s with | .record r _ => some r | _ => none) &&
    items.all fun s => match s with
      | .creg off _ => d.cregPriv seat new off (old.creg off) (new.creg off)
      | _ => true

/-! ### Staging (R106, R140, R142, R144) -/

/-- One record joins what is staged; the device, and the status. Beyond 4 Mi changes a record that is good and would change something is
refused with NO_SPACE (R140), but a CLEAR is not (R139; DESIGN CHOICE, log, entry 117). -/
def Device.stageRecord (d : Device) (seat : Nat) (repl : Bool) (b : List Byte) : Device × Nat :=
  let c := d.stagedCoat
  let full := decide (4194304 ≤ d.stageLog)
  let refused (d : Device) : Device × Nat :=
    (if d.coats.logFull then d else
      (d.modCoats fun c => { c with logFull := true }).raise 386 Sev.warn Cause.stageLogFull d.stageBase.id 0, St.noSpace)
  if repl then
    match c.applyRepl b with
    | .error e => (d, e)
    | .ok _ => if full then refused d
      else ((d.modCoats fun x => { x with staged := x.staged ++ [(seat, .replEntry b)] }).retainImages, St.ok)
  else
    let (d, v) := d.free 3
    match c.applyRecord d.otherCoats v b with
    | .error e => (d, e)
    | .ok _ => if full && recOp b != 4 then refused d
      else ((d.modCoats fun x => { x with staged := x.staged ++ [(seat, .record b v)] }).retainImages, St.ok)

/-- The records of a section, in order, up to the first refused one: its index and status. -/
def Device.stageRecords (d : Device) (seat : Nat) : Nat → List (List Byte) → Device × Option (Nat × Nat)
  | _, [] => (d, none)
  | i, r :: t =>
    match d.stageRecord seat false r with
    | (d, 0) => d.stageRecords seat (i + 1) t
    | (d, e) => (d, some (i, e))

/-- The result of a loader failure (R414). -/
def failResult (f : Fail) : List Byte := [BitVec.ofNat 8 f.1, BitVec.ofNat 8 f.2.1] ++ bytesLE 2 f.2.2.1 ++ [BitVec.ofNat 8 f.2.2.2]

/-- A complete image is staged (R106, R117): the device, the status and the result. One that lacks both room and privilege completes
with NO_SPACE (DESIGN CHOICE, log, entry 118). -/
def Device.stageImage (d : Device) (seat : Nat) (img : List Byte) : Device × Nat × List Byte :=
  match parseImage img with
  | .error f => (d, St.verify, failResult f)
  | .ok (partial_, items) =>
    let d := if partial_ then d else d.dropStaged seat
    let base := d.stageBase
    let old := d.stagedCoat
    let recs := items.filterMap fun s => match s with | .record r _ => some r | _ => none
    let others := items.filter fun s => match s with | .record _ _ => false | _ => true
    let new := others.foldl (Coat.stage base d.otherCoats) old
    let stns := stagedStns (d.coats.staged.map (·.2) ++ others)
    if !d.wordsFit new stns then (d, St.noSpace, [])
    else if !d.stagePriv seat old new items then (d, St.priv, [])
    else
      let d := d.modCoats fun c => { c with staged := c.staged ++ others.map fun s => (seat, s) }
      let d := (d.placeWords new stns).retainImages
      let (d, refused) := d.stageRecords seat 0 recs
      match refused with
      | none => (d, St.ok, bytesLE 4 0xFFFFFFFF ++ [0])
      | some (i, e) => (d, St.ok, bytesLE 4 i ++ [BitVec.ofNat 8 e])

/-! ### Verification (R107, R118, R137, R146, R543) -/

/-- Pool pages and ternary blocks that the instances of a list of coats take, each instance once. -/
def poolUse (cs : List Coat) (f : TableDef → Nat) : Nat :=
  (((cs.flatMap fun c => c.tables.map fun t => (t.1, t.2.inst, t.2.defn)).dedup).map fun x => f x.2.2).sum

def Device.poolPages (d : Device) : Nat :=
  poolUse (d.heldCoats ++ (if d.staging then [d.stagedCoat] else [])) TableDef.pages

def Device.ternBlocks (d : Device) : Nat :=
  poolUse (d.heldCoats ++ (if d.staging then [d.stagedCoat] else [])) TableDef.rows

/-- The relocated index of a failure; one of SPACE, TABLE or a map's ENTRY concerns no word (R543). For a word that has no address placed
it is 0 (DESIGN CHOICE, log, entry 119). -/
def relocFail (addrs : NMap (List Nat)) (f : Fail) : Fail :=
  if f.2.2.2 = 7 ∧ (f.1 = Code.space ∨ f.1 = Code.table ∨ f.1 = Code.entry) then f
  else (f.1, f.2.1, (NMap.getD addrs f.2.1 []).getD f.2.2.1 0, f.2.2.2)

/-- The loader's verdict on the staged coat: the failure R543 chooses, relocated. -/
def Device.verify (d : Device) : Option Fail :=
  let c := d.stagedCoat
  let own := c.fails d.portPart
  let space : List Fail := if d.wordsFit c stnList then [] else [(Code.space, 0, 0, 7)]
  let pool : List Fail :=
    if c.dupDefs || decide (1488 < d.poolPages) || decide (96 < d.ternBlocks) then [(Code.table, 0, 0, 7)] else []
  firstFail ((own ++ space ++ pool).map (relocFail d.coats.stagedAddrs))

/-! ### The path check of quotes (R248) -/

/-- What a path has shown so far: a QUOTE that can execute with its place, an LKF of the space, a DROP without predicate, a
RECIRC that can take effect, a TOSCAF or TOSEAT that can, each with its place. -/
structure PathSt where
  quote : Option (Nat × Nat)
  lkf : Bool
  dropped : Bool
  recirc : Option (Nat × Nat)
  locked : Option (Nat × Nat)
deriving DecidableEq, Repr

def PathSt.step (space st i : Nat) (w : WInfo) (p : PathSt) : PathSt :=
  let live (op : Nat) : Bool := w.liveInsts.any fun x => x.op == op
  let drop := w.insts.any fun x => x.op == 0x68 && x.pi == 0 && !x.ps
  { quote := if live 0x64 then some (p.quote.getD (st, i)) else p.quote
    lkf := p.lkf || (live 0x34 && bits (slotWord w.word 2) 47 44 == space)
    dropped := p.dropped || drop
    recirc := if live 0x69 && !p.dropped then some (p.recirc.getD (st, i)) else p.recirc
    locked := if (live 0x66 || live 0x67) && !p.dropped then some (p.locked.getD (st, i)) else p.locked }

/-- Where a finished path fails the check: the instruction at fault, or its QUOTE when no LKF names the space. -/
def PathSt.fails (p : PathSt) : Option (Nat × Nat) :=
  match p.quote with
  | none => none
  | some q => match p.locked with
    | some x => some x
    | none =>
      if p.dropped then none
      else match p.recirc with
        | some x => some x
        | none => if p.lkf then none else some q

/-- Every path's end state, from the states that reach each word of the first station. -/
def pathEnds (space : Nat) : Prog → Nat → List (Nat × PathSt) → List PathSt
  | [], _, l => l.map (·.2)
  | ws :: rest, st, l =>
    let stepped := l.map fun (i, p) =>
      let w := ws.getD i ⟨0, []⟩
      (w, p.step space st i w)
    let done := (stepped.filter fun x => x.1.succs.isEmpty).map (·.2)
    let next := (stepped.flatMap fun x => x.1.succs.map fun s => (s, x.2)).dedup
    done ++ pathEnds space rest (st + 1) next

/-- The path check of a coat for an ingress port and a flow space: none passes; else the station and the relocated word
index at fault. A port without a valid entry point has no path, and passes. -/
def Coat.pathCheck (c : Coat) (addrs : NMap (List Nat)) (inPort space : Nat) : Option (Nat × Nat) :=
  let p := progOf false 24 c.isteps
  let e := NMap.getD c.pmapI inPort 0
  match (validEntries c.ien).find? fun x => x.1 == e with
  | none => none
  | some (_, i, _, _) =>
    ((pathEnds space p 0 [(i, ⟨none, false, false, none, none⟩)]).findSome? PathSt.fails).map fun (st, j) =>
      (st, (NMap.getD addrs st []).getD j 0)

/-- The lowest quote id whose flow fails the check under a coat (R21). -/
def Device.quoteConflict (d : Device) (c : Coat) : Option Nat :=
  ((d.quotes.filter fun q => q.2.active && (c.pathCheck [] q.2.inPort q.2.space).isSome).map (·.1)).head?

/-! ### Commit (R107, R108, R111, R113) -/

/-- The first whole microsecond of TB0 at least 10 µs after now (R107). -/
def Device.commitSoon (d : Device) : Nat := ceilDiv (d.tbCount 0 + 10000) 1000 * 1000

/-- A refused commit: the event and the COMPLETION. -/
def Device.refuseCommit (d : Device) (v : Verifying) (status : Nat) (result : List Byte) : Device :=
  let id := d.stagedCoat.id
  let d := d.modCoats fun c => { c with verifying := none }
  let d := d.raise 387 Sev.warn Cause.commitRefused id status
  match d.held v.seat v.ring 0x09 with
  | some o => d.complete v.seat v.ring 0x09 status o.tag o.flags result
  | none => d

/-- COAT_VERIFY_LAST shows a loader failure. -/
def Device.verifyLast (d : Device) (f : Fail) : Device :=
  d.setReg Off.coatVerifyLast (f.2.2.2 * 2 ^ 24 + f.2.2.1 % 4096 * 2 ^ 12 + f.2.1 * 2 ^ 6 + f.1)

/-- The commit time of a coat whose verification finishes now; none when STRICT refuses it (R107). -/
def Device.commitTime (d : Device) (v : Verifying) : Option Nat :=
  if v.time ≠ 0 ∧ d.tbCount 0 + 10000 ≤ v.time then some v.time
  else if v.strict then none else some d.commitSoon

/-- The COAT_COMMIT of a pending coat starts again after a Darby fault: its checks are made anew, and where one refuses it the
coat is staging again (R107, R452). -/
def Device.verifyAgain (d : Device) (p : PendingCoat) (v : Verifying) : Device :=
  let back := Device.retainImages <| (d.setFld Off.coatStatus 8 7 0).modCoats fun c => { c with
    pending := none
    staged := p.items ++ c.staged
    stagedAddrs := c.stagedAddrs.foldl (fun m x => NMap.set m x.1 x.2) p.coat.addrs }
  match firstFail ((p.coat.fails d.portPart).map (relocFail p.coat.addrs)) with
  | some f => (back.verifyLast f).refuseCommit v St.verify (failResult f)
  | none => match d.quoteConflict p.coat with
    | some q => back.refuseCommit v St.quoteConflict (bytesLE 4 q)
    | none => match d.commitTime v with
      | none => back.refuseCommit v St.tooLate []
      | some t => d.modCoats fun c => { c with pending := some { p with time := t, again := false } }

/-- Verification of the committed coat finishes: it is refused, or made pending with its commit time (R107). It waits for Darby
(R452). -/
def Device.verifyComplete (d : Device) : Device :=
  if !d.darbyRuns then d
  else match d.coats.verifying with
  | none => match d.coats.pending with
    | none => d
    | some p => match p.again, p.cmd with
      | true, some v => d.verifyAgain p v
      | _, _ => d
  | some v =>
    let d := if d.wordsFit d.stagedCoat stnList then d.placeWords d.stagedCoat stnList else d
    match d.verify with
    | some f => (d.verifyLast f).refuseCommit v St.verify (failResult f)
    | none => match d.quoteConflict d.stagedCoat with
      | some q => d.refuseCommit v St.quoteConflict (bytesLE 4 q)
      | none => match d.commitTime v with
        | none => d.refuseCommit v St.tooLate []
        | some t =>
          let coat := { d.stagedCoat with addrs := d.coats.stagedAddrs }
          Device.retainImages <| d.modCoats fun c => { c with
            verifying := none, staged := [], stagedAddrs := [], logFull := false
            pending := some ⟨coat, t, some v, none, c.staged, false⟩ }

/-- The egress part of two coats is the same, by content (R113). -/
def sameEgress (a b : Coat) : Bool :=
  ((List.range 8).all fun st => NMap.getD a.esteps st [] == NMap.getD b.esteps st []) &&
    ((List.range 64).all fun e => NMap.getD a.een e 0 == NMap.getD b.een e 0) &&
    ((a.pmapE.keys ++ b.pmapE.keys).all fun p => NMap.getD a.pmapE p 0 == NMap.getD b.pmapE p 0)

/-- Whether a copy is on its way through the egress stations. -/
def Copy.inStations (x : Copy) : Bool := x.stage == .selected || x.stage == .egress

/-- An egress slot is free: frames still queued under it are void, and copies already in the egress stations run on with its part,
which is kept beside the slots for them (R113). -/
def Device.vacateEgress (d : Device) (e : Nat) : Device :=
  let moving := d.buf.copies.any fun p => p.2.egen == e && p.2.inStations
  let k := 9 + (d.coats.egress.keys.foldl max 8)
  let d := d.modBuf fun b => { b with copies := b.copies.map fun (n, c) =>
    (n, if c.egen ≠ e then c else if c.stage = .queued then { c with egen := 8 } else if c.inStations then { c with egen := k } else c) }
  let d := { d with ectxs := d.ectxs.map (fun (p : Nat × Ctx) => (p.1, if p.2.slot = e then { p.2 with slot := k } else p.2)) }
  d.modCoats fun c =>
    let part := NMap.get? c.egress e
    let rest := NMap.del c.egress e
    { c with
      egress := match part with
        | some p => if moving then NMap.set rest k p else rest
        | none => rest
      egOrder := c.egOrder.filter (· ≠ e) }

/-- The egress slots that no queued frame carries and no live coat uses are freed (R113). -/
def Device.freeEgress (d : Device) : Device :=
  let used (s : Nat) : Bool := d.coats.slots.vals.any (fun c => c.egSlot == s) ||
    d.buf.copies.any fun x => x.2.egen == s && (x.2.stage == .queued || (decide (8 < s) && x.2.inStations))
  let gone := d.coats.egress.keys.filter fun s => !used s
  let d := (gone.filter (· < 8)).foldl Device.vacateEgress d
  d.modCoats fun c => { c with egress := c.egress.filter fun p => !gone.contains p.1 }

/-- The lowest free number below `n` of a map's keys (DEDUCED for coat slots from the worked commit of R113; assumption log,
entry 18). -/
def freeKey {α : Type} (m : NMap α) (n : Nat) : Option Nat := (List.range n).find? fun i => !NMap.has m i

/-- The live register file shows the Coat-class values of the current coat (R12). -/
def Device.showCregs (d : Device) (c : Coat) : Device := c.cregs.foldl (fun d (off, v) => d.setReg off v) d

/-- Whether settling of a coat older than the current one runs or is still to run (R141). -/
def Device.settleHolds (d : Device) : Bool := d.coats.settling.any fun x => (d.curCoat.map (·.id)) != some x.1

/-- The coat that has become the oldest live coat has its log settled, after those already under way (R141). -/
def Device.settleOldest (d : Device) : Device :=
  match d.coats.order.head?.bind d.coatAt with
  | none => d
  | some c => d.modCoats fun x => { x with settling := x.settling ++ [(c.id, c.commit)] }

/-- A pending coat whose time has come becomes current, or waits and says so (R108, R111, R113, R141). Its actual commit time is the tick
at which it becomes current (R108). -/
def Device.coatDue (d : Device) : Device :=
  let d := d.freeEgress
  match d.coats.pending with
  | none => d
  | some p =>
    if d.tbCount 0 < p.time || p.again || !d.darbyRuns then d
    else
      match freeKey d.coats.slots 4 with
      | none =>
        if d.flag Off.coatStatus 7 then d
        else (d.setFlag Off.coatStatus 7 true).raise 384 Sev.info Cause.coatWait p.coat.id p.time
      | some s =>
        if d.settleHolds then
          if d.flag Off.coatStatus 7 then d
          else (d.setFlag Off.coatStatus 7 true).raise 384 Sev.info Cause.coatWait p.coat.id p.time
        else
          let d := d.setFlag Off.coatStatus 7 false
          let shared := d.curCoat.bind fun c => if sameEgress c p.coat then some c.egSlot else none
          match shared.orElse fun _ => freeKey d.coats.egress 8 with
          | none =>
            let d := d.setFlag Off.coatStatus 8 true
            if p.waitEgDue.isSome then d
            else
              let due := d.transit + 1000000 * max 1 (d.fld Off.coatEgenWait 15 0)
              d.modCoats fun c => { c with pending := some { p with waitEgDue := some due } }
          | some e =>
            let now := d.tbCount 0
            let coat := { p.coat with
              egSlot := e
              commit := now
              addrs := if shared.isSome then p.coat.addrs.filter fun x => x.1 < 32 else p.coat.addrs }
            let d := d.setFlag Off.coatStatus 8 false
            let first := d.coats.order.isEmpty
            let d := d.modCoats fun c => { c with
              slots := NMap.set c.slots s coat, cur := some s, pending := none, order := c.order ++ [s]
              egress := if shared.isSome then c.egress else NMap.set c.egress e coat
              egOrder := if shared.isSome then c.egOrder else c.egOrder ++ [e] }
            let d := (if first then d.settleOldest else d).retainImages
            let d := (d.setReg64 Off.coatTimeLo now).showCregs coat
            let d := d.raise 384 Sev.info Cause.coatCurrent coat.id now
            match p.cmd with
            | none => d
            | some v => match d.held v.seat v.ring 0x09 with
              | some o => d.complete v.seat v.ring 0x09 St.ok o.tag o.flags (bytesLE 8 now ++ bytesLE 2 coat.id ++ [BitVec.ofNat 8 s])
              | none => d

/-- Frames that carry a slot in ingress passes, priority queues, the lodge, or a replicator that has not read its list (R109,
R235). -/
def Device.carrying (d : Device) (s : Nat) : Nat :=
  (d.buf.frames.filter fun p => p.2.granted && p.2.mN 1 % 4 == s && (match p.2.place with
    | .pass | .recirc | .prio | .lodge | .repl => true
    | _ => false)).length

/-- A draining coat that no frame carries retires: its slot and words are free, and where it was the oldest, the settling of the
coat that is now the oldest begins (R109, R141). A coat whose commit time has come meanwhile has waited for the slot (R111). -/
def Device.retire (d : Device) (s : Nat) : Device :=
  match d.coatAt s with
  | none => d
  | some c =>
    if d.coats.cur = some s ∨ d.carrying s ≠ 0 then d
    else
      let d := d.coatDue
      let oldest := d.coats.order.head? == some s
      let d := d.modCoats fun x => { x with
        slots := NMap.del x.slots s, order := x.order.filter (· ≠ s), old := x.old ++ [c] }
      let d := (if oldest then d.settleOldest else d).retainImages
      ((d.raise 384 Sev.info Cause.coatRetired c.id c.commit).freeEgress).coatDue

/-- Settling of a coat's log finishes: its versions bear FROM 0, and its page and node copies are the table's own. The same holds
of the versions of every coat before it (DEDUCED: a coat that retired before it was ever the oldest has no settling of its own; log,
entry 83). -/
def Table.settle (id : Nat) (t : Table) : Table :=
  { t with
    entries := t.entries.map fun e => if e.from_ ≠ 0 ∧ coatGe id e.from_ then { e with from_ := 0 } else e
    pages := t.pages.filter fun p => !(decide (p.2 ≠ emptyPage) && coatGe id (copyOwner p.2))
    copied := t.copied.filter fun p => !coatGe id p.1 }

def Coat.settle (id : Nat) (c : Coat) : Coat := { c with tables := c.tables.map fun (n, t) => (n, t.settle id) }

/-- A damaged word of a page copy that settling has made the table's own bears the instance's number from then on. -/
def settleDamage (id : Nat) (w : Nat × Nat × DamagedWord) : Nat × Nat × DamagedWord :=
  match w with
  | (n, inst, .cell i v) => (n, inst, .cell i (if v ≠ emptyPage ∧ coatGe id (copyOwner v) then inst else v))
  | _ => w

/-- Settling finishes: the versions that only coats before it could see are freed, and its own bear FROM 0 (R141). -/
def Device.settled (d : Device) : Device :=
  match d.coats.settling with
  | [] => d
  | (id, commit) :: rest =>
    if !d.darbyRuns then d
    else
      let d := d.modCoats fun x => { x with
        settling := rest
        old := (x.old.filter fun c => coatGe c.id id).map (Coat.settle id)
        slots := x.slots.map fun (k, v) => (k, v.settle id)
        pending := x.pending.map fun p => { p with coat := p.coat.settle id }
        damaged := x.damaged.map (settleDamage id) }
      (d.raise 386 Sev.info Cause.settled id commit).retainImages.coatDue

/-- COAT_EGEN_WAIT has passed: the oldest egress slot that no live coat uses is void (R113). -/
def Device.egenExpiry (d : Device) : Device :=
  let d := d.freeEgress
  match d.coats.pending.bind (·.waitEgDue) with
  | none => d
  | some due =>
    if d.transit < due then d
    else match d.coats.egOrder.find? fun e => !d.coats.slots.vals.any fun c => c.egSlot == e with
      | none => d
      | some e => (d.vacateEgress e).coatDue

/-! ### Commands (R106, R107, R142, R145, R414) -/

/-- COAT_STAGE: pieces come in order from one ring; the image is staged at the piece with LAST. -/
def Device.coatStage (d : Device) (c : CmdEntry) : Device :=
  d.runCmd c 0x08 1 [(16, 8)] 0 none fun d =>
    let s : Nat := c.seat
    let r : Nat := c.ring
    let have_ := ((d.seat s).cring r).pieces
    let off := c.p 16 4
    let total := c.p 20 4
    let n := c.len.toNat
    let piece := fitB n c.buf
    let clear := fun (d : Device) => d.modCring s r fun x => { x with pieces := [] }
    if n % 16 ≠ 0 ∨ 1048576 < n ∨ 67108864 < total ∨ off ≠ have_.length ∨ total < off + n then (clear d, St.badParam, [])
    else if !bit c.flags.toNat 0 then (d.modCring s r fun x => { x with pieces := have_ ++ piece }, St.ok, [])
    else if off + n ≠ total then (clear d, St.badParam, [])
    else if d.coats.verifying.isSome then (clear d, St.busy, [])
    else (clear d).stageImage s (have_ ++ piece)

/-- The partition of the table that a record names; a SHARED one belongs to none (R130, R403). -/
def tablePart (v : Coat) (b : List Byte) : Option Nat :=
  ((NMap.get? v.tables (recTable b)).filter fun t => !t.defn.shared).map fun t => t.defn.part

/-- TABLE_WRITE: one record, of a table or of a replication list. -/
def Device.tableWrite (d : Device) (c : CmdEntry) : Device :=
  d.runCmd c 0x06 1 [] 96 (if bit c.flags.toNat 0 then none else tablePart d.stagedCoat (fitB 96 c.buf)) fun d =>
    let s : Nat := c.seat
    let b := fitB 96 c.buf
    let repl := bit c.flags.toNat 0
    let may := if repl then d.isDevOwner s else (NMap.get? d.stagedCoat.tables (recTable b)).all (d.tablePriv s)
    if !may then (d, St.priv, [])
    else if d.coats.verifying.isSome then (d, St.busy, [])
    else
      let (d, st) := d.stageRecord s repl b
      (d, st, [])

/-- The coat a TABLE_READ names: slots 0 to 3, or 4 for the staging view. -/
def Device.readView (d : Device) (v : Nat) : Option Coat :=
  if v < 4 then d.coatAt v else if v = 4 ∧ d.staging then some { d.stagedCoat with addrs := d.coats.stagedAddrs } else none

/-- The step word at a step-store address of a coat's station. -/
def Device.readStep (d : Device) (c : Coat) (stn addr : Nat) : Option (BitVec 512) :=
  let a := NMap.getD c.addrs stn []
  let a := if 32 ≤ stn ∧ a.isEmpty then (match NMap.get? d.coats.egress c.egSlot with
    | some e => NMap.getD e.addrs stn []
    | none => []) else a
  (a.findIdx? (· == addr)).bind fun i => (c.words stn)[i]?

/-- TABLE_READ: a table entry, a replication entry or a step word as a view shows it. -/
def Device.tableRead (d : Device) (c : CmdEntry) : Device :=
  let kind := c.flags.toNat % 4
  d.runCmd c 0x07 2 (if kind = 2 then [(16, 4)] else [(16, 1)]) (if kind = 2 then 64 else 96)
      (if kind = 0 then (d.readView (c.p 16 1)).bind fun v => tablePart v (fitB 96 c.buf) else none) fun d =>
    let back (r : Except Nat (List Byte)) : Device × Nat × List Byte := match r with
      | .ok b => (d.hostWrite c.seat c.addr.toNat b, St.ok, [])
      | .error e => (d, e, [])
    if kind = 3 ∨ 4 < c.p 16 1 then (d, St.badParam, [])
    else match d.readView (c.p 16 1) with
      | none => (d, St.notFound, [])
      | some v =>
        if kind = 0 then back (v.readRecord (fitB 96 c.buf))
        else if kind = 1 then back (v.readRepl (fitB 96 c.buf))
        else if !stnList.contains (c.p 17 1) ∨ 4095 < c.p 18 2 then (d, St.badParam, [])
        else match d.readStep v (c.p 17 1) (c.p 18 2) with
          | some w => back (.ok (bytesLE 64 w.toNat))
          | none => (d, St.notFound, [])

/-- COAT_COMMIT is taken: refused at once, or verification begins (R107). -/
def Device.coatCommit (d : Device) (c : CmdEntry) : Device :=
  d.runHeld c 0x09 1 [(16, 8)] 0 none fun d =>
    let refuse (status : Nat) : Device × (Nat × List Byte) ⊕ Device × OutCmd :=
      .inl (d.raise 387 Sev.warn Cause.commitRefused (if d.staging then d.stagedCoat.id else 0) status, status, [])
    if !d.isDevOwner c.seat then .inl (d, St.priv, [])
    else if !d.staging then refuse St.noStage
    else if d.coats.pending.isSome ∨ d.coats.verifying.isSome then refuse St.busy
    else
      let d := d.modCoats fun x => { x with verifying := some ⟨c.seat, c.ring, c.p 16 8, bit c.flags.toNat 0⟩ }
      .inr (d, ⟨0x09, c.tag.toNat, c.flags.toNat, 0, 0, [], []⟩)

/-- COAT_ABANDON (R106). -/
def Device.coatAbandon (d : Device) (c : CmdEntry) : Device :=
  d.runCmd c 0x0A 0 [] 0 none fun d =>
    if d.coats.verifying.isSome then (d, St.busy, []) else (d.dropStaged c.seat, St.ok, [])

end Sys2Proof.Machine
end

