-- ==== Sys2Proof/Machine/Swatch.lean ====
section
/-! DEFINITION. The flash: the directory, swatches and their sections (R487, R488). -/

namespace Sys2Proof.Machine

/-- `n` bytes of flash from an address; an address that was never programmed reads as erased flash (assumption log,
entry 2). -/
def Device.flashBytes (d : Device) (a n : Nat) : List Byte := Mem.readN 0xFF d.pwr.flash a n

def Device.flashN (d : Device) (a n : Nat) : Nat := leNat (d.flashBytes a n)

/-! ### The directory (R487) -/

/-- Whether the directory copy at an address is valid. -/
def Device.dirValid (d : Device) (a : Nat) : Bool :=
  d.flashN a 4 == 0x44535747 && d.flashN (a + 8) 4 == crc32c (d.flashBytes (a + 16) 4080)

/-- The address of the directory copy that Darby uses; none when neither is valid. -/
def Device.dirAt (d : Device) : Option Nat :=
  match d.dirValid 0, d.dirValid 0x1000 with
  | true, false => some 0
  | false, true => some 0x1000
  | false, false => none
  | true, true =>
    let x := (d.flashN 0x100C 4 + 2 ^ 32 - d.flashN 0xC 4) % 2 ^ 32
    some (if 1 ≤ x ∧ x < 2 ^ 31 then 0x1000 else 0)

/-- The directory entry of a swatch. -/
structure SwatchEntry where
  off : Nat
  len : Nat
  crc : Nat
  present : Bool
deriving DecidableEq, Repr

def Device.swatchEntry (d : Device) (n : Nat) : Option SwatchEntry :=
  d.dirAt.map fun a =>
    let e := a + 16 + 16 * (n % 4)
    ⟨d.flashN e 4, d.flashN (e + 4) 4, d.flashN (e + 8) 4, d.flashN (e + 12) 4 % 2 == 1⟩

/-! ### Images (R488) -/

/-- The sections of the swatch at a flash address, as its header counts them. -/
def Device.swatchSections (d : Device) (o : Nat) : List Section_ :=
  (List.range (min 16 (d.flashN (o + 18) 2))).map fun i =>
    let e := o + 64 + 16 * i
    ⟨d.flashN e 2, d.flashN (e + 2) 2, d.flashN (e + 4) 4, d.flashN (e + 8) 4, d.flashN (e + 12) 4⟩

/-- The flash address and the table entry of a section of swatch n. -/
def Device.swatchSection (d : Device) (n ty : Nat) : Option (Nat × Section_) :=
  (d.swatchEntry n).bind fun e =>
    ((d.swatchSections e.off).find? fun s => s.ty == ty).map fun s => (e.off + s.off, s)

def Device.sectionBytes (d : Device) (n ty : Nat) : List Byte :=
  match d.swatchSection n ty with
  | some (a, s) => d.flashBytes a s.len
  | none => []

/-- PWR_SWATCH.ACTIVE (R490). -/
def Device.activeSwatch (d : Device) : Nat := d.fld Off.pwrSwatch 1 0

/-- The tap set PRE, MAIN, POST of the active swatch for a lane at a rate (R291, R488). -/
def Device.swatchTaps (d : Device) (lane rate : Nat) : Option (Nat × Nat × Nat) :=
  (d.swatchSection d.activeSwatch 0x0103).map fun (a, _) =>
    let e := a + 16 * lane + 4 * rate
    (d.flashN e 1, d.flashN (e + 1) 1, d.flashN (e + 2) 1)

end Sys2Proof.Machine
end

