-- ==== Sys2Proof/Machine/Tx.lean ====
section
/-! DEFINITION. Transmission: the scheduler's selection at a transmit opportunity, the start of the egress pass, presentation to
the egress MAC and its end (R41, R47, R64, R91, R105, R113, R222, R230 to R233, R238, R242 to R245, R255, R260 to R263, R266,
R275, R307, R326 to R328, R343 to R349, R507). -/

namespace Sys2Proof.Machine

/-! ### The copy a stream sends -/

/-- The copy of a port that has been selected and is not yet sent or preempted. An Ethernet port has stream 0; a span port has
the general stream, 0, and one stream for each channel (R324, R327). -/
def Device.inFlight (d : Device) (p stream : Nat) : Option Nat :=
  (d.buf.copies.find? fun c => c.2.port == p && c.2.chan.getD 0 == stream &&
    (match c.2.stage with | .selected | .egress | .mac => true | _ => false)).map (·.1)

/-- Whether a stream of a span takes no frame now: one is between its selection and its presentation, or the stream has a container's
words to send already (R327; DESIGN CHOICE, log, entry 113). -/
def Device.streamBusy (d : Device) (s p stream : Nat) : Bool :=
  (d.buf.copies.any fun c => c.2.port == p && c.2.chan.getD 0 == stream && (c.2.stage == .selected || c.2.stage == .egress)) ||
    decide (d.streamPayload s stream ≤ (NMap.getD (d.span s).tx stream []).length)

/-- A descriptor leaves its VOQ. -/
def Device.unqueue (d : Device) (c : Nat) : Device :=
  d.modBuf fun b => { b with voqs := (b.voqs.map fun (k, l) => (k, l.filter (· ≠ c))).filter fun q => !q.2.isEmpty }

/-- A copy is discarded from its queue; a RESET bucket of a class that is then idle keeps no tokens (R222, R262). -/
def Device.dropQueued (d : Device) (c : Nat) (x : Copy) : Device := (d.dropCopy c).idleBucket x.port x.cls

/-! ### Discards at dequeue (R113, R230, R238, R307) -/

/-- The length a copy has on the wire: its hint, with the seam tag of a sprayed frame. -/
def Device.wireHint (d : Device) (x : Copy) : Nat := d.copyHint x + (if x.spray.isSome then 4 else 0)

/-- Why a dequeued copy is discarded. -/
inductive DeqDrop where
  | voided | watchdog | bad | oversize
deriving DecidableEq, Repr

def Device.deqDrop (d : Device) (x : Copy) : Option DeqDrop :=
  match d.frame x.frame with
  | none => some .bad
  | some fr =>
    if 8 ≤ x.egen then some .voided
    else if (d.port x.port).wd.contains x.cls then some .watchdog
    else if fr.bad then some .bad
    else if fr.done && decide (d.maxLen x.port < d.wireHint x) && (d.spanOf x.port).isNone then some .oversize
    else none

def Device.dropAtDeq (d : Device) (c : Nat) (x : Copy) (r : DeqDrop) : Device :=
  let d := match r with
    | .voided => d.bump (Off.pipeEgenDrop (pipeOf x.port)) 1
    | .watchdog => d.bump (Off.bufWdDrop x.port) 1
    | .oversize => d.bump (Off.portTxOversize x.port) 1
    | .bad => d
  d.dropQueued c x

/-! ### Selection (R242, R255, R262, R263) -/

/-- What the scheduler has picked. -/
inductive Pick where
  | grant (copy : Nat) | resume (copy : Nat) | head (cls pipe copy : Nat) | channel (copy : Nat)
deriving DecidableEq, Repr

/-- A class-7 frame selected, or discarded at dequeue, spends its grant (R255). -/
def Device.spendGrant (d : Device) (x : Copy) : Device :=
  match x.quote with
  | none => d
  | some q =>
    let cost := d.copyHint x + 20
    (d.modSched x.port fun s => { s with
      grants := NMap.modify s.grants q (fun (g : Nat × Nat) => (g.1 - 1, g.2 - cost)) }).occPort 0x403 1 (some 7) x.port

/-- A class's turn: round robin moves on, the bucket is charged hint + 20, and for classes 0 to 5 the tag becomes V and F
(R244, R262, R263). -/
def Device.spendClass (d : Device) (p c pipe : Nat) (x : Copy) : Device :=
  let d := if d.bucketOn p c then d.setTokens p c (d.tokensOf p c - ((d.copyHint x + 20 : Nat) : Int) * 65536) else d
  d.modSched p fun s =>
    let t := NMap.getD s.cand c s.vtime
    { s with
      served := NMap.set s.served c pipe
      vtime := if c < 6 then t else s.vtime
      ftag := if c < 6 then NMap.set s.ftag c t else s.ftag
      cand := NMap.del s.cand c }

/-- The choice among the classes 0 to 6: class 6, else the eligible class of smallest tag; while a preempted remainder waits, only
express classes may start (R242). -/
def Device.pickClass (d : Device) (p : Nat) : Option Pick :=
  let head (c : Nat) : Option Pick := (d.nextHead p c).map fun h => .head c h.1 h.2
  if d.eligible p 6 && d.mayStart p 6 then head 6 else (d.wfqClass p).bind fun q => head q.1

/-- The scheduler's choice for an Ethernet port (R242). -/
def Device.pick (d : Device) (p : Nat) : Option Pick :=
  match d.grantPick p with
  | some c => some (.grant c)
  | none =>
    let resume := (d.port p).remainder.bind fun c => (d.copy c).bind fun x =>
      if d.gateOpen p x.cls then some (Pick.resume c) else none
    resume <|> d.pickClass p

/-- The choice while a preemptable frame stands preempted for an express one: no resumption (R242). -/
def Device.pickExpress (d : Device) (p : Nat) : Option Pick := (d.grantPick p).map Pick.grant <|> d.pickClass p

/-- The oldest frame of a channel of each pipeline's class-7 VOQ, where it is ready: one that is not holds back those behind it (R231, R326). -/
def Device.channelHeads (d : Device) (p stream : Nat) : List Nat :=
  (List.range 32).filterMap fun i =>
    let l := d.voq i p 7
    match l.find? fun c => (d.copy c).any fun x => x.chan == some stream with
    | some c => if d.headReady c then some c else none
    | none => none

/-- The choice for a stream of a span port: the selection of R242 without class 7 for the general stream, and a channel's
oldest frame for its own (R326, R327). -/
def Device.pickSpan (d : Device) (p stream : Nat) : Option Pick :=
  if stream = 0 then d.pickClass p
  else ((d.channelHeads p stream).foldl (fun (b : Option Nat) c => some (match b with | some o => min o c | none => c)) none).map
    Pick.channel

/-- Frames of a port that R266 holds for the first time are counted (R500: GATE_HOLD). -/
def Device.countHolds (d : Device) (p : Nat) : Device :=
  (List.range 7).foldl (fun d c =>
    (List.range 32).foldl (fun d i =>
      match d.voq i p c with
      | [] => d
      | h :: _ => match d.copy h with
        | none => d
        | some x =>
          if !x.held && d.headReady h && d.gateOpen p c && !d.lengthFits p c (d.copyHint x) then
            (d.modCopy h fun y => { y with held := true }).occPort 0x407 1 (some c) p
          else d) d) d

/-- A copy is dequeued: it leaves its VOQ, its hint is fixed, and a cut-through frame's further cells are charged to the drain
reserve of the port: of the first, where several copies cut through (R218, R230, R233; DESIGN CHOICE, log, entry 50). -/
def Device.startCopy (d : Device) (c : Nat) (x : Copy) : Device :=
  match d.frame x.frame with
  | none => d
  | some fr =>
    let hint := d.copyHint x
    let d := (d.unqueue c).modCopy c fun y => { y with stage := .selected, cutThrough := !fr.done, hint := hint }
    let d := d.idleBucket x.port x.cls
    let d := if fr.done || fr.drainPort.isSome then d
      else
        (d.modFrame x.frame fun f => { f with cells := min fr.cells fr.wanted, drainPort := some x.port }).poolsMoved
    let d := d.occPort (if fr.done then 0x305 else 0x304) 1 (some x.cls) x.port
    let d := (d.occPort 0x401 1 (some x.cls) x.port).occPort 0x402 (hint + 20) (some x.cls) x.port
    if (d.spanOf x.port).isSome then d else d.modPort x.port fun q => { q with tx := some c }

/-- One look of the scheduler: nothing to send, a copy that starts, or a discard after which it looks again. -/
def Device.serveOnce (d : Device) (p : Nat) (pk : Option Pick) : Device × Bool :=
  match pk with
  | none => (d, false)
  | some (.resume c) =>
    ((d.modCopy c fun x => { x with stage := .mac }).modPort p fun q => { q with tx := some c, remainder := none }, false)
  | some (.grant c) => match d.copy c with
    | none => (d, false)
    | some x =>
      let d := d.spendGrant x
      match d.deqDrop x with
      | some r => (d.dropAtDeq c x r, true)
      | none => (d.startCopy c x, false)
  | some (.channel c) => match d.copy c with
    | none => (d, false)
    | some x =>
      if d.deadlinePassed x.deadline then
        ((match d.spanOf p, x.chan with
          | some s, some _ => d.bump (Off.lathChanExp s) 1
          | _, _ => d).dropQueued c x, true)
      else match d.deqDrop x with
        | some r => (d.dropAtDeq c x r, true)
        | none => (d.startCopy c x, false)
  | some (.head c i h) => match d.copy h with
    | none => (d, false)
    | some x => match d.deqDrop x with
      | some r => (d.dropAtDeq h x r, true)
      | none => ((d.spendClass p c i x).startCopy h x, false)

/-- The scheduler looks until a copy starts or nothing can be sent; every look that goes on has removed a descriptor. -/
def Device.serve (d : Device) (p : Nat) (pk : Device → Option Pick) : Nat → Device
  | 0 => d
  | n + 1 =>
    let d := (d.expireHeads p).tags p
    match d.serveOnce p (pk d) with
    | (d, true) => d.serve p pk n
    | (d, false) => d

/-- Whether a preemptable frame is on the wire whose place an express frame may take (R242, R267): it has been presented, and no
other remainder waits. -/
def Device.preemptable (d : Device) (p : Nat) : Option Nat :=
  if !d.flag (Off.portStatus p) 29 || (d.port p).remainder.isSome then none
  else (d.port p).tx.bind fun c => (d.copy c).bind fun x =>
    if x.stage == .mac && !d.express p x.cls then some c else none

/-- The frame on the wire is preempted (R242). -/
def Device.preempt (d : Device) (p c : Nat) : Device :=
  (d.modCopy c fun x => { x with stage := .remainder }).modPort p fun q => { q with tx := none, remainder := some c }

/-- A preempted frame goes on when no express frame has taken its place. -/
def Device.resumeIdle (d : Device) (p : Nat) : Device :=
  match (d.port p).tx, (d.port p).remainder with
  | none, some c => (d.modCopy c fun x => { x with stage := .mac }).modPort p fun q => { q with tx := some c, remainder := none }
  | _, _ => d

/-- Whether a port's transmit direction may start frames: the port is up and not flushing, and the direction is awake (R236,
R303). -/
def Device.txReady (d : Device) (p : Nat) : Bool :=
  !d.pwr.squelch && d.portUp p && !(d.port p).flushing && !d.flag (Off.portStatus p) 27 && (d.port p).txWakeAt.isNone

/-- A transmit opportunity (R242). On an Ethernet port with a preemptable frame on the wire, only an express frame is taken, and
it preempts; on a span port the stream must have room in the next container. A pipeline under recovery, and a squelched device, take
none (R27, R31). -/
def Device.transmitOpportunity (d : Device) (p stream : Nat) : Device :=
  if !d.domainOk 3 (pipeOf p) || d.pwr.squelch then d else
  match d.spanOf p with
  | some s =>
    if stream > 63 || !d.targetUp p || d.streamBusy s p stream then d
    else (d.countHolds p).serve p (fun d => d.pickSpan p stream) (d.buf.copies.length + 1)
  | none =>
    if stream ≠ 0 || 512 ≤ p || !d.txReady p then d
    else
      let d := (d.countHolds p).calendarSlot p
      match (d.port p).tx with
      | none => d.serve p (fun d => d.pick p) (d.buf.copies.length + 1)
      | some _ => match d.preemptable p with
        | none => d
        | some c =>
          let d' := ((d.preempt p c).expireHeads p).tags p
          if (d'.pickExpress p).isNone then d
          else ((d.preempt p c).serve p (fun d => d.pickExpress p) (d.buf.copies.length + 1)).resumeIdle p

/-! ### Contexts in the stations (R81, R85) -/

/-- The context of an executor in line form. -/
def Device.lineCtx (d : Device) (who : Who) : Option Ctx :=
  match who with
  | .ing f => NMap.get? d.ctxs f
  | .egr c => NMap.get? d.ectxs c
  | .thr _ _ => none

def Device.setLine (d : Device) (who : Who) (x : Ctx) : Device :=
  match who with
  | .ing f => { d with ctxs := NMap.set d.ctxs f x }
  | .egr c => { d with ectxs := NMap.set d.ectxs c x }
  | .thr _ _ => d

/-- The last station of a context's pipeline. -/
def Ctx.last (x : Ctx) : Nat := if x.egress then 7 else 23

/-- The step words of the station a context stands in (R81, R104). -/
def Device.stationWords (d : Device) (x : Ctx) (station : Nat) : List (BitVec 512) :=
  if x.egress then match NMap.get? d.coats.egress x.slot with
    | some c => NMap.getD c.esteps station []
    | none => []
  else match d.coatAt x.slot with
    | some c => NMap.getD c.isteps station []
    | none => []

/-- The step-store address of word `i` of a station (R114). -/
def Device.storeAddr (d : Device) (x : Ctx) (station i : Nat) : Option Nat :=
  let c := if x.egress then NMap.get? d.coats.egress x.slot else d.coatAt x.slot
  c.bind fun c => (NMap.getD c.addrs (stnOf x.egress station) [])[i]?

/-- The PIPE instance of a context (R82). -/
def Ctx.inst (x : Ctx) : Nat := if x.egress then 32 + x.pipe else x.pipe

/-- A word under reload: the frame that selects it is discarded as bad FCS (R85). -/
def Device.wordGone (d : Device) (x : Ctx) (station i : Nat) : Bool :=
  match d.storeAddr x station i with
  | some a => d.pipes.reload.contains (x.inst * 64 + stnOf x.egress station, a)
  | none => false


/-- A context executes: its program has not ended, and no park or punt has stopped it (R56, R61). -/
def Ctx.live (x : Ctx) : Bool := x.word.isSome && x.stopAt.all fun s => decide (x.station < s)

/-- A frame is lost as one with a bad FCS at its context: it executes no more, and is discarded where its pass ends. An egress
copy ends as a DROP does, with the filler reason 0x60. -/
def Device.loseCtx (d : Device) (who : Who) (x : Ctx) : Device :=
  match who with
  | .ing f => (d.setLine who { x with word := none, pend := [] }).modFrame f fun y => { y with killed := true }
  | _ => d.setLine who { x with word := none, pend := [], regs := (x.regs.setM 3 517).setM 7 0x60 }

/-- The states of the ports whose gate list is in force and not all open. -/
def Device.gateShot (d : Device) : NMap Nat :=
  (d.listed (Off.schedGateCtl 0) (Off.schedGateCtl 1 - Off.schedGateCtl 0) 512).filterMap fun p =>
    if d.gates p = 255 then none else some (p, d.gates p)

/-- The context stands at its step word: the time its instructions read is that of its entry (R71), and a word under reload is
lost with its frame (R85). -/
def Device.readWord (d : Device) (who : Who) (x : Ctx) : Device :=
  let x := { x with tbs := (List.range 8).map d.tbNow, gates := d.gateShot }
  match x.word with
  | some i =>
    if x.live && d.wordGone x x.station i then (d.loseCtx who x).bump (Off.pipeReloadDrop x.inst) 1 else d.setLine who x
  | none => d.setLine who x

/-! ### Results (R53, R54) -/

def Ctx.applyWr (x : Ctx) (w : Wr) : Ctx :=
  match w with
  | .flowHit _ rec => { x with regs := x.regs.apply w, f := some rec }
  | _ => { x with regs := x.regs.apply w }

def Wr.isLearn : Wr → Bool
  | .learnRefused => true
  | _ => false

/-- The results visible from a station are written; a refused learn's reason comes after a locking instruction's (R54). -/
def Ctx.settleAt (x : Ctx) (s : Nat) : Ctx :=
  let now := x.pend.filter fun p => p.1 == s
  let x := { x with pend := x.pend.filter fun p => p.1 != s }
  let x := (now.filter fun p => !p.2.isLearn).foldl (fun x p => x.applyWr p.2) x
  (now.filter fun p => p.2.isLearn).foldl (fun x p => x.applyWr p.2) x

/-- Every result still on its way, in the order of the stations. -/
def Ctx.settleAll (x : Ctx) : Ctx := (List.range 32).foldl (fun x s => x.settleAt s) x

/-! ### The egress pass (R41, R47, R64, R91, R105) -/

/-- The first 64 bytes of a byte list. -/
def window0 (b : List Byte) : List Byte := sliceB b 0 64

/-- Station-0 address of an entry point of an entry table; none where it is not valid (R90 to R92). -/
def entryAddr (t : NMap (BitVec 32)) (e : Nat) : Option Nat :=
  ((validEntries t).find? fun x => x.1 == e).map fun x => x.2.1

/-- The egress entry point of a port (R91). -/
def Coat.egressEntry (c : Coat) (p : Nat) : Option Nat := entryAddr c.een (NMap.getD c.pmapE p 0)

/-- The R-TAGs that the staged TWINs insert, in the order of their staging. -/
def Device.copyTwin (d : Device) (x : Copy) (fr : Frame) : List Edit :=
  (x.edits.filterMap fun e => match e.op with | .twin _ n => some n | _ => none).map
    (twinEdit d.sTpid (d.stagedBytes x fr))

/-- The egress port number's entry point in the egress slot a copy recorded (R91, R113). -/
def Device.egressWord (d : Device) (x : Copy) : Option Nat :=
  (NMap.get? d.coats.egress x.egen).bind fun c => c.egressEntry x.port

/-- The context at egress station 0: metadata kept, everything else 0, F the snapshot (R46, R47). -/
def Device.egressCtx (d : Device) (x : Copy) (fr : Frame) : Ctx :=
  let b := applyEgress x.snap (d.stagedBytes x fr) (d.copyTwin x fr)
  let r := { Regs.zero with m := x.m }
  { pipe := pipeOf x.port, egress := true, slot := x.egen, tblSlot := d.coats.cur.getD 4, tblCoat := d.curCoat, station := 0,
    word := d.egressWord x
    regs := r, entry := r, w := window0 b, base := 0, nextBase := 0
    f := some (List.replicate 80 0 ++ fitB 48 x.snap), pend := [], stopAt := none, issued := []
    tbs := [], gates := [], spaces := 0 }
/-- A selected copy is discarded before it is presented: its port may take another frame. -/
def Device.dropSelected (d : Device) (c : Nat) (x : Copy) : Device :=
  ((d.modPort x.port fun r => { r with tx := if r.tx = some c then none else r.tx }).dropCopy c).pfcFlush x.port

/-- The copy's context is placed in egress station 0 and reads its first word (R85). A copy whose entry point is not valid in its
egress slot is discarded and counted (R92). -/
def Device.egressGo (d : Device) (c : Nat) (x : Copy) (fr : Frame) : Device :=
  if (d.egressWord x).isNone then
    ((d.bump (Off.pipeNoEntry (32 + pipeOf x.port)) 1).occ
      ⟨0x106, 1, some x.cls, none, some (1, x.pipe), some 0, some (bits (vecN x.m 0) 13 10)⟩).dropSelected c x
  else
    let d' := ({ d with ectxs := NMap.set d.ectxs c (d.egressCtx x fr) }).lease 0 3 (pipeOf x.port) (copyLease c) fr.cells
    (d'.readWord (.egr c) (d.egressCtx x fr)).modCopy c fun y => { y with stage := .egress, egEdits := d.copyTwin x fr }

/-- A dequeued copy enters egress station 0: its deadline is checked, its staged edits are applied (R64, R261). -/
def Device.egressStart (d : Device) (c : Nat) : Device :=
  match d.copy c with
  | none => d
  | some x => match d.frame x.frame with
    | none => d
    | some fr =>
      if x.stage != .selected || !d.domainOk 3 (pipeOf x.port) then d
      else match x.quote with
        | some q => if d.deadlinePassed x.deadline then (d.dropSelected c x).expire q x.port (d.classBefore x) else d.egressGo c x fr
        | none => d.egressGo c x fr

/-! ### Presentation to the egress MAC (R275, R343 to R349, R507) -/

/-- The predicted transit count at the transmit message timestamp point, in 2^−16 ns, without the asymmetry (R343, R347). -/
def Device.txDelayFx (d : Device) (p : Nat) : Int :=
  ((Config.txPath (BitVec.ofNat 8 (d.fld (Off.portCfg p) 30 23))).toNat : Int) +
    psFx (signed 16 (d.fld (Off.plumbPortAdj p) 15 0))

/-- A time base's value in 2^−16 ns at the transmit message timestamp point, less the port's asymmetry (R344, R347). -/
def Device.txTimeFx (d : Device) (p tb : Nat) : Int :=
  let t := d.tbNow tb
  (((t.sec * 1000000000 + t.ns) * 65536 + t.frac / 65536 : Nat) : Int) + d.txDelayFx p - d.asym p

/-- The residence time of a frame in the seconds of a time base: in single-base mode every base runs at TB0's rate (R342, R347). -/
def Device.residence (d : Device) (fr : Frame) (p tb : Nat) : Int :=
  let tx : Int := (d.transit : Int) * 65536 + d.txDelayFx p - d.asym p
  (tx - fr.rxTransit) * (2 ^ 32 + signed 32 (d.reg (Off.plumbTbAdj (if d.multi then tb else 0)))) / 2 ^ 32

/-- Whether a marked base may not be used: TB1 to TB7 in a port whose TS base differs, with MODE 0b01 (R349). -/
def Device.tsiBarred (d : Device) (p mode tb : Nat) : Bool :=
  mode == 1 && tb != 0 && d.fld (Off.plumbPortTs p) 2 0 != tb

/-- The length that a copy is known to have at most: that of its complete frame, or that of a cut mirror copy. -/
def Device.knownLen (d : Device) (x : Copy) (fr : Frame) : Option Nat :=
  if fr.done then some (d.outBytes x fr).length else x.cut

/-- The fill of a marked field; it is skipped and counted where it may not be made, or is known not to fit (R347 to R349). `v4`: the
frame carries IPv4. -/
def Device.tsiFill (d : Device) (c : Nat) (x : Copy) (fr : Frame) (v4 : Bool) : Device :=
  match x.mark with
  | none => d
  | some (off, mode, tb, cs) =>
    if d.tsiBarred x.port mode tb || (d.knownLen x fr).any (fun n => !fillFits n off mode cs) then d.bump Off.plumbTsiSkip 1
    else
      let v := if mode = 1 then d.residence fr x.port tb else d.txTimeFx x.port tb
      d.modCopy c fun y => { y with egEdits := y.egEdits ++ [⟨off, .fill mode v cs v4⟩] }

/-- Whether a copy holds a fill that its frame proved too short for (R349). -/
def Device.fillMissed (d : Device) (x : Copy) (fr : Frame) : Bool :=
  x.egEdits.any fun e => match e.op with
    | .fill mode _ cs _ => !fillFits (d.outBytes x fr).length e.off mode cs
    | _ => false

/-- Slack and residence of an accepted frame (R507). -/
def Device.measure (d : Device) (x : Copy) (fr : Frame) : Device :=
  match x.quote with
  | none => d
  | some q =>
    let slack := signed 32 ((x.deadline + 2 ^ 32 - d.transit % 2 ^ 32) % 2 ^ 32)
    let res := d.transit - fr.arrTransit
    d.modQuote q fun y => { y with
      slack := some (match y.slack with | some s => min s slack | none => slack)
      residence := max y.residence res
      xSlack := some (match y.xSlack with | some s => min s slack | none => slack)
      xResidence := max y.xResidence res }

/-- What an egress program has done with its copy: it has ended, or there was none. -/
def Device.egressDone (d : Device) (c : Nat) : Bool :=
  match NMap.get? d.ectxs c with
  | some x => x.word.isNone
  | none => true

/-- The reason of a DROP that an egress program has executed for its copy, in its last word too: m3 names port 517 (R67). -/
def Device.egressDrop (d : Device) (c : Nat) : Option Nat :=
  ((NMap.get? d.ectxs c).map Ctx.settleAll).bind fun x =>
    if x.regs.mN 3 / 2 ^ 30 = 0 ∧ x.regs.mN 3 % 2 ^ 16 = 517 then some (x.regs.mN 7 % 256) else none

/-- The first byte of a copy is presented to the egress MAC: the seam tag of a member port of an enabled spray group is
inserted, and the marked field takes its value. On a span the frame's words join its stream. A copy whose egress program
dropped it is discarded (R67). The seam tag is no part of W: it is inserted here (R41, R275; DESIGN CHOICE, log, entry 21). A
preemptable frame whose gate has closed is preempted at its first point (R266). A frame header on a span gives the frame's length, so
the frame is presented there once it is complete (R324; DEDUCED, log, entry 113). -/
def Device.macPresent (d : Device) (c : Nat) : Device :=
  match d.copy c with
  | none => d
  | some x => match d.frame x.frame with
    | none => d
    | some fr =>
      if x.stage != .egress || !d.egressDone c || !d.domainOk 3 (pipeOf x.port) || d.pwr.squelch ||
          (if (d.spanOf x.port).isSome then !fr.done else !d.txReady x.port) then d
      else
        let d := match x.mirror with
          | some (p, aux) => d.makeMirror x.frame p aux x.pipe x.snap
          | none => d
        let why := d.egressDrop c
        if fr.bad || why.isSome then
          let d := match why with
            | some r => d.occ ⟨0x106, 1, some x.cls, none, some (1, x.pipe), some r, some (bits (vecN x.m 0) 13 10)⟩
            | none => d
          d.dropSelected c x
        else
        let d := { d with ectxs := NMap.del d.ectxs c }
        let out := d.outBytes x fr
        let tagged := (d.sprayGroupOf x.port).isSome && !isMacControl out
        let x := if tagged then { x with egEdits := x.egEdits ++ [seamEdit x] } else x
        let t := (d.txTimeFx x.port (d.fld (Off.plumbPortTs x.port) 2 0) / 65536).toNat % 2 ^ 64
        let d := d.modCopy c fun y => { y with stage := .mac, egEdits := x.egEdits, presentAt := some d.transit, txTime := t }
        let d := (d.tsiFill c x fr (isIp4 d.sTpid out)).measure x fr
        match d.spanOf x.port, d.copy c with
        | some s, some y =>
          d.modSpan s fun q => { q with
            tx := NMap.set q.tx (x.chan.getD 0)
              (NMap.getD q.tx (x.chan.getD 0) [] ++ (streamWords x.cls (d.spanBytes y fr)).map (⟨c, ·⟩)) }
        | _, _ =>
          if (d.preemptable x.port) = some c ∧ !d.gateOpen x.port x.cls then d.preempt x.port c else d

/-! ### The end of transmission (R222, R233) -/

/-- The frame has been sent whole: counters, the transmit time of a FRAME_SEND, and its descriptor is free; the cells are freed
when it was the last reader. -/
def Device.sent (d : Device) (c : Nat) (x : Copy) (fr : Frame) : Device :=
  let b := withFcs (d.outBytes x fr)
  let d := if d.fillMissed x fr then d.bump Off.plumbTsiSkip 1 else d
  let d := d.modFrame x.frame fun f => { f with sent := f.sent ++ [x.txTime] }
  match d.spanOf x.port with
  | some s => 
    let d := (d.bump (Off.lathTxFrames s) 1).occ ⟨0x807, 1, some x.cls, none, none, some x.port, none⟩
    ((d.occPort 0x003 1 (some x.cls) x.port).occPort 0x004 b.length (some x.cls) x.port).dropCopy c
  | none =>
    let d := (d.bump64 (Off.portTxFramesLo x.port) 1).bump64 (Off.portTxBytesLo x.port) b.length
    let d := (d.occPort 0x003 1 (some x.cls) x.port).occPort 0x004 b.length (some x.cls) x.port
    let d := d.modPort x.port fun q => { q with
      wire := b, errorTerm := false, tx := if q.tx = some c then none else q.tx, idleFrom := d.transit }
    (d.dropCopy c).pfcFlush x.port

/-- The copy whose transmission can be complete: the one in flight on an Ethernet port; on a span the first of its stream whose words are
all in containers. -/
def Device.lastSent (d : Device) (p stream : Nat) : Option Nat :=
  match d.spanOf p with
  | some s => (d.buf.copies.find? fun c =>
      c.2.port == p && c.2.chan.getD 0 == stream && c.2.stage == .mac && d.wordsLeft s c.1 == 0).map (·.1)
  | none => d.inFlight p stream

/-- The egress MAC finishes a frame (R222): all its bytes have arrived and left; on a span all its words are in containers. No frame
leaves after squelch (R31). -/
def Device.transmitComplete (d : Device) (p stream : Nat) : Device :=
  match d.lastSent p stream with
  | none => d
  | some c => match d.copy c with
    | none => d
    | some x => match d.frame x.frame with
      | none => d
      | some fr => if x.stage == .mac && fr.done && !d.pwr.squelch then d.sent c x fr else d

end Sys2Proof.Machine
end

