-- ==== Sys2Proof/Machine/Link.lean ====
section
/-! DEFINITION. Lanes and ports: port modes, taps, bring-up and training, loss of signal and lock, the flush, lane sleep,
preemption verification, partner pauses and their watchdog, gate changes, and the refit of a port's quotes (R236 to R238,
R250, R251, R264, R265, R287 to R310). -/

namespace Sys2Proof.Machine

/-! ### Lanes and modes (R287 to R289) -/

/-- The lanes of a port (R288). -/
def Device.lanesOf (d : Device) (p : Nat) : List Nat := (List.range (2 ^ d.fld (Off.portCfg p) 26 25)).map (p + ·)

/-- The enabled port that covers a lane. -/
def Device.portOfLane (d : Device) (l : Nat) : Option Nat :=
  ((List.range 8).map (l / 8 * 8 + ·)).find? fun p => d.macEn p && (d.lanesOf p).contains l

/-- The rows of the mode table: SPEED, LANES, lane rate, FEC. -/
def portModes : List (Nat × Nat × Nat × Nat) :=
  [(0, 3, 0, 0), (1, 2, 0, 0), (1, 3, 1, 0), (2, 1, 0, 0), (2, 2, 1, 0), (2, 3, 2, 0), (3, 0, 0, 0), (3, 1, 1, 0),
   (3, 2, 2, 0), (4, 0, 1, 0), (4, 1, 2, 0), (4, 2, 3, 1), (5, 0, 2, 0), (6, 0, 3, 1), (6, 0, 3, 2)]

/-- Whether the registers of a port let it be enabled (R288, R289). A port whose number is no multiple of its lane count is
not one of R288's ports (DEDUCED, assumption log, entry 24). -/
def Device.portModeOk (d : Device) (p : Nat) : Bool :=
  let cfg := d.reg (Off.portCfg p)
  let lanes := d.lanesOf p
  p % lanes.length == 0 &&
    lanes.all (fun l => portModes.contains (bits cfg 30 27, bits cfg 26 25, d.fld (Off.laneCtl l) 23 22, bits cfg 24 23)) &&
    lanes.all (fun l => d.fld (Off.laneCtl l) 21 20 == 0) &&
    !(List.range p).any (fun q => q / 8 == p / 8 && d.macEn q && lanes.any fun l => (d.lanesOf q).contains l)

def Device.overLanes (d : Device) (p : Nat) (f : Device → Nat → Device) : Device := (d.lanesOf p).foldl f d

/-! ### Taps (R290, R291) -/

/-- The limits of the transmit FIR. -/
def tapsOk (pre main post : Nat) : Bool :=
  decide (pre ≤ 16) && decide (post ≤ 24) && decide (pre + main + post ≤ 64) && decide (16 + pre + post ≤ main)

def Device.setTaps (d : Device) (l pre main post : Nat) : Device :=
  d.setReg (Off.laneTxTap l) (pre % 32 * 2 ^ 16 + main % 128 * 2 ^ 8 + post % 32)

/-- A write of LANE_TX_TAP: taken within the limits while no training runs on the lane, else refused with TAP_REJ and an event
on the tile's source (R290, R291, R436). -/
def Device.writeTaps (d : Device) (l v : Nat) : Device :=
  let training := match d.portOfLane l with | some p => (d.port p).bring == .train | none => false
  if !training && tapsOk (bits v 20 16) (bits v 14 8) (bits v 4 0) then
    d.setTaps l (bits v 20 16) (bits v 14 8) (bits v 4 0)
  else (d.setFlag (Off.laneStatus l) 1 true).raise (l / 8) Sev.warn Cause.cfgRefused (Off.laneTxTap l) v

/-- The bound of a quote: the larger of those of its ports (R252). -/
def boundOf (fits : List Fit) : Nat := (fits.map (·.d)).foldl max 0

/-- The swatch taps are loaded at the lane's rate (R291). -/
def Device.loadTaps (d : Device) (l : Nat) : Device :=
  match d.swatchTaps l (d.fld (Off.laneCtl l) 23 22) with
  | some (pre, main, post) => d.setTaps l pre main post
  | none => d

/-! ### Quotes of a port (R250, R251) -/

/-- One quote of a port that came up: refitted where the port's rate or preemption state is another (R251). The claim follows
the new D (DEDUCED from R220, assumption log, entry 25). -/
def Device.refitQuote (d : Device) (p qid : Nat) : Device :=
  match d.quote qid with
  | none => d
  | some q =>
    if !q.active || !q.names p then d
    else
      let same := match q.fitOn p with
        | some f => f.rate == d.portRate p && f.pre == d.flag (Off.portStatus p) 29
        | none => true
      if same then d.quoteNotice qid q 4 p
      else
        let others := q.fits.filter fun f => f.port ≠ p
        let bare := d.setQuote qid { q with fits := others }
        match bare.fit q.inPort p q.b q.rate q.lmin q.lmax q.dreq with
        | some f =>
          let fits := if p = q.portA then f :: others else others ++ [f]
          let claim := ((fits.map fun f => d.claimOn f.port q.b q.rate (boundOf fits) q.lmin q.lmax)).foldl max 0
          let q := { q with fits := fits, d := boundOf fits, claim := claim }
          (d.setQuote qid q).quoteNotice qid q 4 p
        | none => d.startRelease qid 2 p none

def Device.refitPort (d : Device) (p : Nat) : Device :=
  (d.quotes.map (·.1)).foldl (fun d k => d.refitQuote p k) d

/-- The quotes that name a port that went down are reported; they stay active (R250). -/
def Device.quotesDown (d : Device) (p : Nat) : Device :=
  (d.quotes.filter fun q => q.2.active && q.2.names p).foldl (fun d (k, q) => d.quoteNotice k q 3 p) d

/-! ### Down, flush and up (R236, R297) -/

/-- The flush discards every frame queued to a port; a frame being sent is abandoned (R236). -/
def Device.flushPort (d : Device) (p : Nat) : Device :=
  let d := (d.buf.copies.filter fun c => c.2.port == p).foldl (fun d (k, c) =>
    let d := if c.stage == .queued then d.bump (Off.bufFlush p) 1 else d
    d.dropCopy k) d
  let d := match d.spanOf p with
    | some s => d.modSpan s fun x => { x with tx := [], txLeft := [] }
    | none => d
  d.modPort p fun x => { x with tx := none, remainder := none }

/-- A port goes down: its event and count, the flush, and everything that the link carried (R236, R250, R297, R301, R310). The
cause bits of the event are a free value. `relink`: bring-up follows (R293). -/
def Device.portDown (d : Device) (p : Nat) (relink : Bool) : Device :=
  let d := if relink then (d.modPort p fun x => { x with bring := if x.bring == .up then .down else x.bring, aligned := false }) else d
  if !d.portUp p then d
  else
    let (d, why) := d.free 4
    let d := (d.setFlag (Off.portStatus p) 31 false).bump (Off.portDownCnt p) 1
    let d := d.raise (portSource p) Sev.warn Cause.linkDown p why
    let d := (((d.setFlag (Off.portStatus p) 29 false).setFld (Off.portStatus p) 27 26 0).overLanes p fun d l => d.setFld (Off.laneStatus l) 3 2 0)
    let d := d.modPort p fun x => { x with
      flushing := true, pfcDue := 0, helloAt := none, sleepTx := false, txAsleep := false, txWakeAt := none, sleepCopies := 0, sleepRefresh := 0, rxArmed := none,
      rxAsleepAt := none, verifySent := 0, verified := false }
    (((d.flushPort p).cutRx p).quotesDown p).excludeDown p

/-- A port is declared up once every condition holds (R297): preemption is active at once where no verification is asked
(R310), and its quotes are refitted or reported (R250, R251). -/
def Device.portUpCheck (d : Device) (p : Nat) : Device :=
  let x := d.port p
  if d.macEn p && !d.portUp p && x.bring == .up && x.aligned && !x.faultSet && !x.flushing &&
      (d.lanesOf p).all (fun l => d.flag (Off.laneStatus l) 0) then
    let d := (d.setFlag (Off.portStatus p) 31 true).setFlag (Off.portStatus p) 25 false
    let d := d.setFlag (Off.portStatus p) 29 (d.flag (Off.portCfg p) 22 && !d.flag (Off.portCfg p) 21)
    let d := d.modPort p fun x => { x with idleFrom := d.transit, verifySent := 0, verified := false }
    ((d.raise (portSource p) Sev.info Cause.linkUp p 0).countReadmit p).refitPort p
  else d

def Device.flushComplete (d : Device) (p : Nat) : Device :=
  if (d.port p).flushing then (d.modPort p fun x => { x with flushing := false }).portUpCheck p else d

/-- A received fault ordered set begins or ends, or PCS and FEC alignment is lost or regained (R297). -/
def Device.faultOrderedSet (d : Device) (p : Nat) (fault aligned : Bool) : Device :=
  if !d.macEn p then d
  else
    let d := d.modPort p fun x => { x with faultSet := fault, aligned := aligned }
    if fault || !aligned then d.portDown p false else d.portUpCheck p

/-! ### Enabling (R219, R289, R293) -/

/-- MAC_EN becomes 1: refused with CFG_ERR (R289), or because the shared pool would become too small (R219), else bring-up is
asked for. `v` is the value written. -/
def Device.enablePort (d : Device) (p v : Nat) : Device :=
  let on := d.setFlag (Off.portCfg p) 31 true
  if !d.portModeOk p then
    (d.setFlag (Off.portStatus p) 24 true).raise (portSource p) Sev.warn Cause.cfgRefused (Off.portCfg p) v
  else if !on.poolsOk then (d.setFlag Off.bufStatus 0 true).raise 192 Sev.warn Cause.cfgRefused (Off.portCfg p) v
  else
    let on := if on.pwr.phase = .tiles then { on with pwr := { on.pwr with awaiting := on.pwr.awaiting ++ [p] } } else on
    (on.modPort p fun x => { x with bring := .down, faultSet := false, aligned := false }).poolsMoved

/-- The first attempt of a port after a start has ended (R29, R485). -/
def Device.firstEnded (d : Device) (p : Nat) : Device :=
  { d with pwr := { d.pwr with awaiting := d.pwr.awaiting.filter (· ≠ p) } }

/-- MAC_EN becomes 0: the port goes down (R297), the hold and its backoff end (R295). -/
def Device.disablePort (d : Device) (p : Nat) : Device :=
  let d := d.portDown p false
  let d := d.overLanes p fun d l => (d.setFld (Off.laneStatus l) 11 8 0).setFlag (Off.laneStatus l) 0 false
  let d := (d.setFlag (Off.portStatus p) 30 false).setFlag (Off.portCfg p) 31 false
  (((d.modPort p fun x => { x with bring := .off, aligned := false }).firstEnded p).poolsMoved)

/-! ### Bring-up (R293 to R295) -/

/-- An attempt begins: the swatch taps are loaded and the attempt is counted on each lane. -/
def Device.startAttempt (d : Device) (p : Nat) : Device :=
  let d := d.overLanes p fun d l => ((d.loadTaps l).bump (Off.laneRetrain l) 1).setFlag (Off.laneStatus l) 6 false
  d.modPort p fun x => { x with bring := .adapt, since := d.transit }

/-- Whether a port's tile has been calibrated and is not gated by shedding, its lane die has its REFCLK, tile and port are not under
recovery, and the device has not taken its ports down (R13, R447, R467, R477, R483, R485). -/
def Device.mayBringUp (d : Device) (p : Nat) : Bool :=
  d.pwr.tiles.contains (p / 8) && !d.pwr.portsDown && !d.pwr.lostDies.contains (p / 64) && d.domainOk 0 (p / 8) && d.domainOk 1 p &&
    !d.flag (if p < 256 then Off.pwrGateTileLo else Off.pwrGateTileHi) (p / 8 % 32)

def Device.canTrain (d : Device) (p : Nat) : Bool := (d.lanesOf p).all fun l => d.flag (Off.laneCtl l) 27

/-- An attempt begins, or falls back to link training after its first step (R293). -/
def Device.bringUpAttempt (d : Device) (p : Nat) (fallback : Bool) : Device :=
  match (d.port p).bring, fallback with
  | .down, false => if d.mayBringUp p then d.startAttempt p else d
  | .adapt, true =>
    if d.canTrain p then d.modPort p fun x => { x with bring := .train, since := d.transit } else d
  | _, _ => d

/-- The attempt succeeded: the lanes are locked and the backoff returns to 1 s. -/
def Device.attemptGood (d : Device) (p : Nat) : Device :=
  let d := d.firstEnded p
  let trained := (d.port p).bring == .train
  let d := d.overLanes p fun d l =>
    let s := setBits (setBits (d.reg (Off.laneStatus l)) 11 4 0) 3 2 0
    d.setReg (Off.laneStatus l) (setBits (setBits s 6 6 (b2n trained)) 0 0 1)
  let d := d.setFlag (Off.portStatus p) 30 false
  (d.modPort p fun x => { x with bring := .up, aligned := true }).portUpCheck p

/-- The attempt failed: the failing lanes are marked and counted, each with its event, and the port is held down with the next
backoff; a spread group excludes it (R276, R295). -/
def Device.attemptBad (d : Device) (p : Nat) (lanes : List Nat) : Device :=
  let d := d.firstEnded p
  let old := d.fld (Off.laneStatus p) 11 8
  let next := if d.flag (Off.portStatus p) 30 then min 6 (old + 1) else 0
  let d := d.overLanes p fun d l => d.setFld (Off.laneStatus l) 11 8 next
  let d := d.overLanes p fun d l => d.setFlag (Off.laneStatus l) 7 (lanes.contains l)
  let d := (lanes.filter fun l => (d.lanesOf p).contains l).foldl (fun d l =>
    (d.bump (Off.laneFail l) 1).raise (l / 8) Sev.warn Cause.attemptFailed l next) d
  let d := (d.setFlag (Off.portStatus p) 30 true).excludeDown p
  d.modPort p fun x => { x with bring := .held, since := d.transit }

/-- Whether the running step of an attempt is within its time: 20 ms to adapt, 500 ms to train (R293). -/
def Device.stepInTime (d : Device) (p : Nat) : Bool :=
  decide (d.transit ≤ (d.port p).since + if (d.port p).bring = .adapt then 20000000 else 500000000)

/-- An attempt ends; one that has outrun its step's time has failed. A failed first step falls back to training before the attempt can
fail (R293). -/
def Device.attemptEnd (d : Device) (p : Nat) (ok : Bool) (lanes : List Nat) : Device :=
  let b := (d.port p).bring
  if b != .adapt && b != .train then d
  else if ok && d.stepInTime p then d.attemptGood p
  else if b == .adapt && d.canTrain p then d
  else d.attemptBad p lanes

/-- The backoff of a held port has passed (R295). -/
def Device.retry (d : Device) (p : Nat) : Device :=
  let x := d.port p
  if d.mayBringUp p && x.bring == .held && decide (x.since + 2 ^ d.fld (Off.laneStatus p) 11 8 * 1000000000 ≤ d.transit) then d.startAttempt p
  else d

/-- A coefficient request of the partner in training (R294): coefficient 0 is c(−1), 1 c(0), 2 c(+1), 3 any other; a step
changes it by 1/64. -/
def Device.coefficientRequest (d : Device) (l coef : Nat) (up : Bool) : Device :=
  match d.portOfLane l with
  | none => d
  | some p =>
    if (d.port p).bring != .train then d
    else
      let t := d.reg (Off.laneTxTap l)
      let pre : Int := bits t 20 16
      let main : Int := bits t 14 8
      let post : Int := bits t 4 0
      let one : Int := if up then 1 else -1
      let answer (d : Device) (n : Nat) : Device := d.modPort p fun x => { x with reply := n }
      let take (pre main post : Int) : Device :=
        if 0 ≤ pre && 0 ≤ main && 0 ≤ post && tapsOk pre.toNat main.toNat post.toNat then
          answer (d.setTaps l pre.toNat main.toNat post.toNat) 1
        else answer d 3
      if coef = 0 then take (pre - one) main post
      else if coef = 1 then take pre (main + one) post
      else if coef = 2 then take pre main (post - one)
      else answer d 2

/-! ### Loss of signal and lock (R296, R305) -/

/-- A lane of a port loses lock or signal: the port goes down and is brought up again (R293, R297). -/
def Device.laneLost (d : Device) (l : Nat) : Device :=
  let d := d.setFlag (Off.laneStatus l) 0 false
  match d.portOfLane l with
  | some p => d.portDown p true
  | none => d

/-- Loss of signal is declared on a lane, once until it clears. -/
def Device.declareLos (d : Device) (l : Nat) : Device :=
  if d.flag (Off.laneStatus l) 4 then d
  else
    let d := (d.setFlag (Off.laneStatus l) 4 true).bump (Off.laneLosCnt l) 1
    (d.raise (l / 8) Sev.warn Cause.los l 0).laneLost l

/-- The receive direction of a port sleeps or wakes, with the flags of its lanes (R299). -/
def Device.setRxAsleep (d : Device) (p : Nat) (on : Bool) : Device :=
  (d.setFlag (Off.portStatus p) 26 on).overLanes p fun d l => d.setFlag (Off.laneStatus l) 3 on

def Device.rxAsleep (d : Device) (p : Nat) : Bool := d.flag (Off.portStatus p) 26

/-- Whether a lane is assigned to a port or a lath span; the receiver of an unused lane is gated (R287). -/
def Device.laneAssigned (d : Device) (l : Nat) : Bool := decide (d.fld (Off.laneCtl l) 21 20 < 2)

/-- Whether a lane's receiver is in use: it is a lane of an enabled port, or of an enabled span (R287). -/
def Device.laneUsed (d : Device) (l : Nat) : Bool :=
  (d.portOfLane l).isSome || (d.listed (Off.lathCtl 0) 0x4000 32).any fun s =>
    d.spanEn s && decide (d.fld (Off.lathCtl s) 8 0 ≤ l ∧ l < d.fld (Off.lathCtl s) 8 0 + d.spanL s)

/-- The amplitude of a lane has stayed below the threshold for SET: an armed receive direction goes to sleep, one asleep does
nothing, and else loss of signal is declared. -/
def Device.lossOfSignal (d : Device) (l : Nat) : Device :=
  match d.portOfLane l with
  | none => if d.laneAssigned l then d.declareLos l else d
  | some p =>
    if d.rxAsleep p then d
    else if (d.port p).rxArmed.isSome && d.portUp p then
      (d.setRxAsleep p true).modPort p fun x => { x with rxAsleepAt := some d.transit }
    else d.declareLos l

/-- Clock recovery has stayed out of lock for 1 µs, which is one declaration, counted and raised (R296); while a receive direction sleeps this is declared only for a failed relock
after signal return (R305). -/
def Device.lossOfLock (d : Device) (l : Nat) : Device :=
  let asleep := match d.portOfLane l with | some p => d.rxAsleep p && (d.port p).rxAsleepAt.isSome | none => false
  if asleep || !d.laneAssigned l then d
  else
    let d := (d.setFlag (Off.laneStatus l) 5 true).bump (Off.laneLolCnt l) 1
    (d.raise (l / 8) Sev.warn Cause.lol l 0).laneLost l

/-- The signal of a lane has been present for CLEAR, or returns to a sleeping receive direction (R296, R305). -/
def Device.signalReturn (d : Device) (l : Nat) : Device :=
  let d := d.setFlag (Off.laneStatus l) 4 false
  match d.portOfLane l with
  | some p => if d.rxAsleep p then d.modPort p fun x => { x with rxAsleepAt := none } else d
  | none => d

/-- A sleeping receive direction has relocked (R305). -/
def Device.rxAwake (d : Device) (p : Nat) : Device :=
  if d.rxAsleep p && (d.port p).rxAsleepAt.isNone then
    (d.setRxAsleep p false).modPort p fun x => { x with rxArmed := none }
  else d

/-- The signal has not returned within 2 × R of entering sleep (R305). -/
def Device.rxNoReturn (d : Device) (p : Nat) : Device :=
  let x := d.port p
  match x.rxAsleepAt with
  | some t =>
    if t + 2 * x.rxArmed.getD 1 * 1000000 ≤ d.transit then
      (d.setRxAsleep p false).overLanes p fun d l => d.declareLos l
    else d
  | none => d

/-! ### Lane sleep (R299 to R304) -/

/-- A sleep frame of the port (R300). -/
def Device.sleepFrame (d : Device) (p kind caps refresh copy : Nat) : List Byte :=
  withFcs (bytesBE 6 0x0180C200000E ++ d.portMac p ++ bytesBE 2 0x88B6 ++ bytesBE 2 0x4C53 ++ bytesBE 1 1 ++ bytesBE 1 kind ++
    bytesBE 1 caps ++ [0] ++ bytesBE 2 refresh ++ bytesBE 1 copy)

/-- PORT_SLEEP.REFRESH in ms and IDLE in µs; 0 is taken as 1. -/
def Device.sleepRefreshMs (d : Device) (p : Nat) : Nat := max 1 (d.fld (Off.portSleep p) 15 8)
def Device.sleepIdleUs (d : Device) (p : Nat) : Nat := max 1 (d.fld (Off.portSleep p) 7 0)

def Device.txAsleep (d : Device) (p : Nat) : Bool := d.flag (Off.portStatus p) 27

def Device.setTxAsleep (d : Device) (p : Nat) (on : Bool) : Device :=
  ((d.setFlag (Off.portStatus p) 27 on).overLanes p fun d l => d.setFlag (Off.laneStatus l) 2 on).modPort p fun x =>
    { x with txAsleep := on }

/-- A sleeping transmit direction starts to wake: 2.0 µs of idle follow (R303), once the direction has been quiet for 1 µs (R302).
Squelched transmitters stay idle (R306). -/
def Device.startWake (d : Device) (p : Nat) (refresh : Bool) : Device :=
  if d.txAsleep p && (d.port p).txWakeAt.isNone && !d.pwr.squelch then
    d.modPort p fun x => { x with
      txWakeAt := some (max d.transit (x.idleFrom + 1000) + 2000), sleepRefresh := if refresh then 0 else x.sleepRefresh }
  else d

/-- Once per second an up port sends a HELLO (R301). A transmit direction that sleeps is woken for it, as for any frame (DEDUCED, log
121). From a HELLO on, PORT_SLEEP.TX_EN is in force as the HELLO gave it (R313). -/
def Device.helloSend (d : Device) (p : Nat) : Device :=
  let due := match (d.port p).helloAt with | some t => decide (t + 1000000000 ≤ d.transit) | none => true
  if d.portUp p && d.txAsleep p && due then d.startWake p false
  else if d.txReady p && due then
    let caps := b2n (d.flag (Off.portSleep p) 30) + 2 * b2n (d.flag (Off.portSleep p) 31)
    let d := (d.sendOwn p (d.sleepFrame p 1 caps (d.sleepRefreshMs p) 0)).bump (Off.portSleepTx p) 1
    d.modPort p fun x => { x with helloAt := some d.transit, sleepTx := d.flag (Off.portSleep p) 31 }
  else d

/-- A frame that the MAC consumes itself is checked and counted like any other received frame. -/
def Device.macOwn (d : Device) (p : Nat) (b : List Byte) : Device × Bool :=
  let cls := d.arrivalClass p b
  let bad := fun (d : Device) => (d.occPort 0x005 1 (some cls) p, false)
  match d.rxVerdict p b false with
  | .oversize => bad (d.bump (Off.portRxOversize p) 1)
  | .runt => bad (d.bump (Off.portRxRunt p) 1)
  | .badFcs => bad (d.bump (Off.portRxFcsErr p) 1)
  | .good =>
    let d := (d.bump64 (Off.portRxFramesLo p) 1).bump64 (Off.portRxBytesLo p) b.length
    ((d.occPort 0x001 1 (some cls) p).occPort 0x002 b.length (some cls) p, true)

/-- Whether a port receives frames: it is up and its receive direction awake. -/
def Device.rxOpen (d : Device) (p : Nat) : Bool := d.portUp p && !d.rxAsleep p

/-- A sleep frame is received: HELLO makes the partner's parameters current, SLEEP arms the receive direction (R300, R301,
R305). -/
def Device.sleepReceive (d : Device) (p : Nat) (b : List Byte) : Device :=
  if !d.rxOpen p || !isSleepFrame b then d
  else
    let kind := fieldBE b 17 1
    let ok := fieldBE b 14 2 == 0x4C53 && fieldBE b 16 1 == 1 && (kind == 1 || kind == 2)
    match d.macOwn p b with
    | (d, false) => d.disarm p
    | (d, true) =>
      if !ok then (d.bump (Off.portSleepBad p) 1).disarm p
      else
        let d := d.bump (Off.portSleepRx p) 1
        if kind = 2 then d.modPort p fun x => { x with rxArmed := some (fieldBE b 20 2) }
        else
          let caps := fieldBE b 18 1
          let fresh := bit caps 0 && !d.flag (Off.portStatus p) 28
          let d := ((d.disarm p).setFlag (Off.portStatus p) 28 (bit caps 0))
          d.modPort p fun x => { x with
            peer := some (d.transit + 3000000000, caps, fieldBE b 20 2)
            idleFrom := if fresh then d.transit else x.idleFrom }

/-- The conditions under which the transmit direction may sleep (R302). -/
def Device.sleepOk (d : Device) (p : Nat) : Bool :=
  d.portUp p && (d.port p).sleepTx && d.flag (Off.portStatus p) 28 &&
    !(d.buf.copies.any fun c => c.2.port == p) && (d.port p).tx.isNone && (d.port p).remainder.isNone && !d.quoted p &&
    d.pfcTxEn p == 0

/-- R, in ms: the smaller of the port's own REFRESH and the partner's HELLO value (R302). -/
def Device.sleepR (d : Device) (p : Nat) : Nat :=
  match (d.port p).peer with
  | some (_, _, r) => min (d.sleepRefreshMs p) (max 1 r)
  | none => d.sleepRefreshMs p

/-- The conditions have held for IDLE, or a copy has been sent: the next SLEEP copy goes out, and after the third electrical idle
follows. A condition that stopped holding before the third copy cancels the entry (R302). -/
def Device.sleepEntry (d : Device) (p : Nat) : Device :=
  let x := d.port p
  let held := x.sleepCopies != 0 || decide (x.idleFrom + 1000 * d.sleepIdleUs p ≤ d.transit)
  if d.sleepOk p && !d.pwr.squelch && !d.txAsleep p && x.txWakeAt.isNone && held then
    let n := x.sleepCopies + 1
    let r := d.sleepR p
    let d := (d.sendOwn p (d.sleepFrame p 2 0 r n)).bump (Off.portSleepTx p) 1
    if n < 3 then d.modPort p fun y => { y with sleepCopies := n }
    else (d.setTxAsleep p true).modPort p fun y => { y with sleepRefresh := d.transit + 1000000 * r }
  else if x.sleepCopies ≠ 0 then d.notIdle p
  else d

/-- A condition of R302 has stopped holding (R303). -/
def Device.txWake (d : Device) (p : Nat) : Device := if d.sleepOk p then d else d.startWake p false

/-- The refresh time has come (R304). -/
def Device.laneRefresh (d : Device) (p : Nat) : Device :=
  let x := d.port p
  if x.sleepRefresh ≠ 0 ∧ x.sleepRefresh ≤ d.transit then d.startWake p true else d

/-- The direction is awake, unless its transmitters are squelched (R306). After a refresh the sleep sequence may follow 20 µs later (R303, R304). -/
def Device.txAwake (d : Device) (p : Nat) : Device :=
  match (d.port p).txWakeAt with
  | some t =>
    if d.transit < t ∨ d.pwr.squelch then d
    else (d.setTxAsleep p false).modPort p fun x => { x with
      txWakeAt := none
      idleFrom := if x.sleepRefresh = 0 then d.transit + 20000 - 1000 * d.sleepIdleUs p else d.transit }
  | none => d

/-- The partner's HELLO has not been renewed for 3 s (R301). -/
def Device.helloExpiry (d : Device) (p : Nat) : Device :=
  match (d.port p).peer with
  | some (t, _, _) =>
    if d.transit < t then d
    else ((d.setFlag (Off.portStatus p) 28 false).modPort p fun x => { x with peer := none }).startWake p false
  | none => d

/-! ### Preemption verification (R310) -/

/-- The packet of a verify frame: 60 bytes of zeros and the check of IEEE 802.3br (PRESUMED, assumption log, entry 26). -/
def verifyFrame : List Byte :=
  let z : List Byte := List.replicate 60 0
  z ++ bytesLE 4 (crc32 z ^^^ 0xFFFF)

def Device.verifying? (d : Device) (p : Nat) : Bool :=
  d.portUp p && d.flag (Off.portCfg p) 22 && d.flag (Off.portCfg p) 21 && !(d.port p).verified && !d.flag (Off.portStatus p) 25

/-- A verify frame is sent, up to three times 10 ms apart. -/
def Device.verifySend (d : Device) (p : Nat) : Device :=
  let x := d.port p
  if d.verifying? p && d.txReady p && decide (x.verifySent < 3) &&
      (x.verifySent == 0 || decide (x.verifyAt + 10000000 ≤ d.transit)) then
    d.modPort p fun x => { x with verifySent := x.verifySent + 1, verifyAt := d.transit, wire := verifyFrame }
  else d

def Device.verifyFail (d : Device) (p : Nat) : Device :=
  let x := d.port p
  if d.verifying? p && x.verifySent == 3 && decide (x.verifyAt + 10000000 ≤ d.transit) then
    (d.setFlag (Off.portStatus p) 25 true).raise (portSource p) Sev.warn Cause.verifyFail p 0
  else d

/-- The partner answers: preemption becomes active, and the port's quotes are refitted (R250, R310). -/
def Device.verifyAnswered (d : Device) (p : Nat) : Device :=
  if d.verifying? p && (d.port p).verifySent != 0 then
    ((d.setFlag (Off.portStatus p) 29 true).modPort p fun x => { x with verified := true }).refitPort p
  else d

/-! ### Partner pauses (R237, R238, R309) -/

/-- The pause of a class ends. -/
def Device.unpause (d : Device) (p c : Nat) : Device :=
  if !bit (d.fld (Off.portStatus p) 15 8) c then d
  else ((d.setFlag (Off.portStatus p) (8 + c) false).modPort p fun x => { x with
    pauseEnd := NMap.del x.pauseEnd c, pauseFrom := NMap.del x.pauseFrom c, unpaused := NMap.set x.unpaused c d.transit }).tags p

/-- A pause of `q` quanta; the moment at which its watchdog would trip is fixed when it starts (R238, BUF_WD). -/
def Device.pauseClass (d : Device) (p c q : Nat) : Device :=
  if q = 0 then d.unpause p c
  else
    let was := bit (d.fld (Off.portStatus p) 15 8) c
    let stop := d.transit + ceilDiv (q * 512) (max 1 (d.portRate p))
    let trip := d.transit + 1000000 * max 1 (d.fld Off.bufWd 15 0)
    ((d.setFlag (Off.portStatus p) (8 + c) true).modPort p fun x => { x with
      pauseEnd := NMap.set x.pauseEnd c stop
      pauseFrom := if was then x.pauseFrom else NMap.set x.pauseFrom c trip }).tags p

/-- A MAC control frame is received (R309): PAUSE is counted and ignored, PFC pauses the classes the port honours; each bit
of class 7 or of a class not honoured is counted as ignored (R237). -/
def Device.pfcReceive (d : Device) (p : Nat) (b : List Byte) : Device :=
  if !d.rxOpen p || !isMacControl b then d
  else
    let d := d.disarm p
    match d.macOwn p b with
    | (d, false) => d
    | (d, true) =>
      let op := fieldBE b 14 2
      if op = 1 then d.bump (Off.portPauseIgnored p) 1
      else if op = 0x0101 then
        let d := d.bump (Off.portPfcRx p) 1
        let mask := fieldBE b 16 2 % 256
        let en := d.fld (Off.portPfc p) 14 8
        let d := d.bump (Off.portPauseIgnored p) (popcount 8 (mask &&& (255 ^^^ en % 128)))
        (List.range 7).foldl (fun d c => if bit mask c && bit en c then d.pauseClass p c (fieldBE b (18 + 2 * c) 2) else d) d
      else d

def Device.pauseExpiry (d : Device) (p c : Nat) : Device :=
  match NMap.get? (d.port p).pauseEnd c with
  | some t => if t ≤ d.transit then d.unpause p c else d
  | none => d

/-- Asserted classes whose last frame is half a pause old are carried in one more frame (R309). -/
def Device.pfcRefresh (d : Device) (p : Nat) : Device :=
  let q := d.fld (Off.portPfc p) 31 16
  let half := q * 256 / max 1 (d.portRate p)
  let due := ((List.range 8).filter fun c => bit (d.fld (Off.portStatus p) 7 0) c &&
    decide (NMap.getD (d.port p).pfcSent c 0 + half ≤ d.transit)).foldl (fun a c => a + 2 ^ c) 0
  if due ≠ 0 ∧ d.portUp p ∧ !d.pwr.squelch then d.sendPfc p due fun _ => q else d

/-- The watchdog trips for a class paused for LIMIT with a frame waiting (R238). -/
def Device.watchdogTrip (d : Device) (p c : Nat) : Device :=
  match NMap.get? (d.port p).pauseFrom c with
  | some t =>
    if d.flag Off.bufWd 31 && decide (t ≤ d.transit) && d.classWaits p c && !(d.port p).wd.contains c then
      ((d.modPort p fun x => { x with wd := x.wd ++ [c] }).tags p).raise (portSource p) Sev.warn Cause.pauseWd p c
    else d
  | none => d

/-- The partner has left the class unpaused for 1 ms (R238). -/
def Device.watchdogDisarm (d : Device) (p c : Nat) : Device :=
  let x := d.port p
  if x.wd.contains c && !bit (d.fld (Off.portStatus p) 15 8) c && decide (NMap.getD x.unpaused c 0 + 1000000 ≤ d.transit) then
    (d.modPort p fun x => { x with wd := x.wd.filter (· ≠ c) }).tags p
  else d

/-! ### Gate lists (R264, R265) -/

/-- The admin list as it stands: an entry not written holds its reset value; intervals below 32 are taken as 32. -/
def Device.adminList (d : Device) (p : Nat) : GateList :=
  let n := clampN 1 256 (d.fld (Off.schedGateLen p) 8 0)
  let entry (i : Nat) : Nat × Nat :=
    let v := NMap.getD (d.sched p).admin i (0xFF * 2 ^ 24 + 1000000)
    (bits v 31 24, max 32 (bits v 23 0))
  let tb := d.fld (Off.schedGateCtl p) 28 26
  let base := d.reg64 (Off.schedGateBaseLo p)
  let cycle := max 1000 (d.reg (Off.schedGateCycle p))
  let now := d.tbCount tb + 10000
  { base := base, cycle := cycle, entries := (List.range n).map entry, tb := tb,
    change := if now ≤ base then base else base + ceilDiv (now - base) cycle * cycle }

/-- COMMIT: the admin list becomes pending with its change time (R265). -/
def Device.gateCommit (d : Device) (p : Nat) : Device :=
  (d.modSched p fun s => { s with pend := some (d.adminList p) }).setFlag (Off.schedGateCtl p) 29 true

/-- The gates of a port take the states of this moment: the RESET buckets of the classes whose gate state changed fall (R262), a class
whose gate is closed drops its tag (R263), a copy being sent whose gate has closed is marked (R266), and a
frame whose gate has closed is preempted (R266). -/
def Device.gatesMoved (d : Device) (p : Nat) : Device :=
  let old := (d.sched p).gateSt
  let new := d.gates p
  if old = new then d
  else
    let d := d.modSched p fun s => { s with gateSt := new }
    let d := (List.range 7).foldl (fun d c => if bit old c != bit new c then d.gateBucket p c else d) d
    let d := d.modBuf fun b => { b with copies := b.copies.map fun (k, x) =>
      (k, { x with pastClose := x.pastClose || (x.port == p && x.stage != .queued && bit old x.cls && !bit new x.cls) }) }
    let d := d.tags p
    match d.preemptable p with
    | some c => match d.copy c with
      | some x => if bit new x.cls then d else d.preempt p c
      | none => d
    | none => d

/-- A time base has been stepped: the gates of every port with a list take the states of the new time (R264, R340). -/
def Device.gatesStepped (d : Device) : Device :=
  (d.scheds.filter fun q => q.2.oper.isSome).foldl (fun d q => d.gatesMoved q.1) d

/-- An entry's interval ends: the states of the place in the cycle apply (R264). -/
def Device.gateEntryEnd (d : Device) (p : Nat) : Device := d.gatesMoved p

/-- The pending list comes into force at its change time (R265). EN = 0 leaves every gate open. -/
def Device.gateChange (d : Device) (p : Nat) : Device :=
  match (d.sched p).pend with
  | none => d
  | some g =>
    if d.tbCount g.tb < g.change then d
    else
      let d := (d.modSched p fun s => { s with
        oper := if d.flag (Off.schedGateCtl p) 31 then some g else none, pend := none }).setFlag (Off.schedGateCtl p) 29 false
      (d.raise 370 Sev.info Cause.gateChange p g.change).gatesMoved p

end Sys2Proof.Machine
end

