-- ==== Sys2Proof/Machine/Lodge.lean ====
section
/-! DEFINITION. The flow step, the lodge, the absent cache, the learn filter, the sander with its digests, write-backs and the
promotion threshold (R25, R61, R96, R155, R160 to R163, R169 to R175, R177, R178, R181 to R187). -/

namespace Sys2Proof.Machine

/-! ### Counts (R96, R173) -/

/-- The reserve count of an ingress pipeline (R96). -/
def Device.reserveCount (d : Device) (i : Nat) : Nat :=
  (d.ctxs.filter fun c => c.2.pipe == i).length + (d.pipe i).places.length + (d.pipe i).prioQ.length

/-! ### LKF (R160 to R163, R171, R173) -/

/-- What LKF does at the flow step. -/
inductive Lkf where
  | hit (handle : Nat) | miss | park | full (limit : Nat) | abort
deriving DecidableEq, Repr

def Device.inAbsent (d : Device) (i : FlowId) : Bool := d.flow.absent.any fun a => a.1 == i && decide (d.transit < a.2)

/-- The outcome for a frame, in the order of R160; `en`: the space is enabled for it. A frame that must park while 262,144 are
parked is turned away (R173). -/
def Device.lkfOutcome (d : Device) (f parks : Nat) (i : FlowId) (en : Bool) : Lkf :=
  let again : Lkf := if 2 ≤ parks then .abort else if 262144 ≤ d.parkedCount then .full 1 else .park
  if !en then .miss
  else match d.lodged? i with
    | some e =>
      if e.frames.contains (f, true) then
        match e.outcome with
        | .absent => .miss
        | .pending => again
        | .lodged => match d.skimFind i with
          | some p => (match NMap.get? d.flow.skim p with | some c => .hit c.handle | none => .miss)
          | none => again
      else if 2 ≤ parks then .abort
      else if 262144 ≤ d.parkedCount then .full 1
      else if 4096 ≤ e.frames.length then .full 2
      else .park
    | none =>
      match d.skimFind i with
      | some p => (match NMap.get? d.flow.skim p with | some c => .hit c.handle | none => .miss)
      | none =>
        if d.inAbsent i then .miss
        else if 2 ≤ parks then .abort
        else if 16384 ≤ d.flow.lodge.length then .full 0
        else if 262144 ≤ d.parkedCount then .full 1
        else .park

/-- An identity's fetch is issued; one in the write-back queue is taken from there and reads no DRAM (R169). -/
def Device.issueFetch (d : Device) (i : FlowId) : Device :=
  let d := d.bump Off.flowFetch 1
  if d.flow.wbq.any fun q => recId q.2 == i then d
  else (d.moved 2048).requestFetch i.renderBuckets.1 i.renderBuckets.2

/-- A frame parks on its entry: behind the open one, in its old place when it parks again, or on a new one (R160, R171). -/
def Device.parkOn (d : Device) (f : Nat) (i : FlowId) : Device :=
  let d := match d.lodged? i with
    | some e =>
      if e.frames.any fun p => p.1 == f then
        let d := if e.outcome == Outcome.lodged then d.issueFetch i else d
        d.setLodge i fun e => { e with
          frames := e.frames.map (fun (p : Nat × Bool) => if p.1 = f then (f, false) else p)
          outcome := if e.outcome == Outcome.lodged then .pending else e.outcome }
      else d.setLodge i fun e => { e with frames := e.frames ++ [(f, false)] }
    | none =>
      let limit := d.transit + 1000 * clampN 1 40 (d.fld Off.flowPark 5 0)
      let d := d.modFlow fun w => { w with lodge := w.lodge ++ [LodgeEntry.mk i d.transit limit .pending [(f, false)]] }
      (d.lease 1 5 (i.group) (h1 i.input) 1).issueFetch i
  (d.modFrame f fun x => { x with parks := x.parks + 1 }).showLodge

/-- One more occurrence of a source's event is merged into its pending slot (R434). -/
def Device.mergeInto (d : Device) (src code : Nat) (e : Event) : Device :=
  match d.slot? src code with
  | none => d.raiseEvent e
  | some p => (d.setSlot { p with waiting := some (match p.waiting with
      | some w => { w with count := min 65535 (w.count + 1) }
      | none => e) }).bump Off.hawkMerged 1

/-- LODGE_FULL: the first frame in a millisecond raises it, the later ones merge into its COUNT (R173, R437). -/
def Device.lodgeFull (d : Device) (i : FlowId) (limit : Nat) : Device :=
  let d := d.bump Off.flowLodgeFull 1
  let code := eventCode Sev.warn Cause.lodgeFull
  let ms := d.transit / 1000000
  let event (src : Nat) : Event := ⟨src, code, 1, 0xFF, 0, limit, d.flow.lodge.length, d.transit⟩
  match d.flow.fullMs with
  | some (t, src) =>
    if t = ms then d.mergeInto src code (event src)
    else (d.raiseEvent (event (224 + i.group))).modFlow fun w => { w with fullMs := some (ms, 224 + i.group) }
  | none => (d.raiseEvent (event (224 + i.group))).modFlow fun w => { w with fullMs := some (ms, 224 + i.group) }

/-- The changes of a hit take their place in the update order, with the byte count of a frame received whole and good (DESIGN CHOICE, log,
entry 49); a frame beyond the limit of R163 has no program updates. -/
def Device.hitRecord (d : Device) (f h : Nat) (beyond : Bool) : Device :=
  let whole := match d.frame f with | some x => if x.done && !x.bad then byteUpd x.bytes.length else [] | none => []
  let d := d.addRun h ⟨some f, beyond, d.hitUpds ++ whole⟩
  let d := if beyond then d.bump Off.flowUpdOver 1 else d
  d.modFrame f fun x => { x with hit := some h, owed := if x.done then x.owed else x.owed ++ [h] }

/-! ### The fetch returns (R161, R170) -/

/-- The frames of an entry that are parked leave it by a punt: at once from the lodge, at station 23 when they are still in the
stations. -/
def Device.puntParked (d : Device) (fs : List Nat) (reason off : Nat) : Device :=
  fs.foldl (fun d f => match d.frame f with
    | none => d
    | some x =>
      let d := d.bump off 1
      if x.place == .lodge then d.puntFrame f reason else d.modFrame f fun x => { x with punt := some reason }) d

/-- An entry closes with a punt of its parked frames. -/
def Device.closeEntry (d : Device) (i : FlowId) (reason off : Nat) : Device :=
  match d.lodged? i with
  | none => d
  | some e =>
    let d := (d.modFlow fun w => { w with lodge := w.lodge.filter fun e => e.id ≠ i }).unlease 1 (h1 i.input)
    (d.puntParked ((e.frames.filter fun p => !p.2).map (·.1)) reason off).showLodge

/-- An identity enters the absent cache; when it is full, the entry closest to expiry gives way (R161). -/
def Device.addAbsent (d : Device) (i : FlowId) : Device :=
  let rest := d.flow.absent.filter fun a => a.1 ≠ i
  let first := (rest.map (·.2)).foldl min (rest.headD (i, 0)).2
  let rest := if 16384 ≤ rest.length then rest.eraseIdx (rest.findIdx fun a => a.2 == first) else rest
  d.modFlow fun w => { w with absent := rest ++ [(i, d.transit + 1000000 * d.fld Off.flowLearnWin 15 0)] }

/-- FLOW_TUNE.T. -/
def Device.threshT (d : Device) : Nat := d.fld Off.flowTune 31 28

/-- The record's HEAT is raised, and a skim copy installed: resident at the threshold, but at shed level S1 and above transient
(R170, R174, R478). False when no way can take it. -/
def Device.fetchInstall (d : Device) (h : Nat) : Device × Bool :=
  match d.authCopy h with
  | none => (d, false)
  | some b =>
    let heat := min 15 (recHeat b + 1)
    let d := d.bothUpdate h [.mask 51 0xF0 heat]
    if (d.skimAt h).isSome then (d, true)
    else match d.install h (if d.threshT ≤ heat ∧ d.shed < 1 then 3 else 2) with
      | some d => (d, true)
      | none => (d, false)

/-- A fetch returns. While the install it needs waits for room in the write-back queue, nothing happens (R177). -/
def Device.fetchReturn (d : Device) (i : FlowId) : Device :=
  match d.lodged? i with
  | none => d
  | some e =>
    if e.outcome != .pending then d
    else match d.homeOf i with
      | none =>
        let d := d.occ ⟨0x203, 1, none, none, some (8, 0), some i.space, none⟩
        ((d.addAbsent i).setLodge i fun e => { e with outcome := .absent }).closeLodge
      | some h =>
        if (d.skimAt h).isNone && d.installWaits i then d
        else match (d.occFlow 0x203 (some (8, 0)) h).fetchInstall h with
          | (d, true) => (d.setLodge i fun e => { e with outcome := .lodged }).closeLodge
          | (d, false) => d.closeEntry i 0x25 Off.flowInstallFail

/-- The entry that holds a frame as parked, with the frame first among those (R171). -/
def Device.nextReturn (d : Device) (f : Nat) : Option LodgeEntry :=
  d.flow.lodge.find? fun e => e.outcome != .pending && ((e.frames.find? fun p => !p.2).map (·.1)) == some f

/-- The lodge passes a parked frame to its pipeline's priority queue (R96, R171). -/
def Device.reEntry (d : Device) (f : Nat) : Device :=
  match d.frame f, d.nextReturn f with
  | some x, some e =>
    if x.place != .lodge || 160 ≤ d.reserveCount x.pipe then d
    else
      let d := d.setLodge e.id fun e => { e with frames := e.frames.map fun p => if p.1 = f then (f, true) else p }
      let d := (d.modFrame f fun x => { x with place := .prio, parkM := none }).modPipe x.pipe fun q =>
        { q with prioQ := q.prioQ ++ [f] }
      ((d.pipePfc x.pipe).lease 0 2 x.pipe f x.cells).showLodge
  | _, _ => d

/-- The park limit of an entry (R172). -/
def Device.parkLimit (d : Device) (i : FlowId) : Device :=
  match d.lodged? i with
  | none => d
  | some e =>
    if e.limit ≤ d.transit ∧ (e.frames.any fun p => !p.2) then d.closeEntry i 0x23 Off.flowParkExpire else d

def Device.absentExpiry (d : Device) (i : FlowId) : Device :=
  d.modFlow fun w => { w with absent := w.absent.filter fun a => !(a.1 == i && decide (a.2 ≤ d.transit)) }

def Device.learnExpiry (d : Device) (i : FlowId) : Device :=
  d.modFlow fun w => { w with learn := w.learn.filter fun a => !(a.1 == i && decide (a.2 ≤ d.transit)) }

/-! ### Learn requests (R184) -/

/-- The learn bucket of a space, in millionths of a notice, credited up to BURST; a bucket never used is full. -/
def Device.learnTokens (d : Device) (s : Nat) : Nat :=
  let cap := d.fld (Off.flowSpaceLearn s) 31 16 * 1000000
  match NMap.get? d.flow.tokens s with
  | none => cap
  | some (n, t) => min cap (n + (d.transit - t) * d.fld (Off.flowSpaceLearn s) 15 0)

/-- A learn request: true when it is refused. -/
def Device.learnRequest (d : Device) (i : FlowId) (part port hint : Nat) : Device × Bool :=
  let refuse := (d.bump Off.flowLearnRefused 1, true)
  if d.flow.learn.any fun a => a.1 == i && decide (d.transit < a.2) then (d, false)
  else
    let live := d.flow.learn.filter fun a => decide (d.transit < a.2) && a.1 != i
    let t := d.learnTokens i.space
    if t < 1000000 ∨ 16384 ≤ live.length then refuse
    else
      let d := d.modFlow fun w => { w with
        tokens := NMap.set w.tokens i.space (t - 1000000, d.transit)
        learn := live ++ [(i, d.transit + 1000000 * d.fld Off.flowLearnWin 15 0)] }
      ((d.bump Off.flowLearnSent 1).learnNotice 0 i part false port hint 0, false)

/-! ### The sander (R174, R175, R181 to R185) -/

/-- Ageing at a visit (R181). True: the slot holds no record any more. -/
def Device.ageVisit (d : Device) (h : Nat) : Device × Bool :=
  match d.authCopy h with
  | none => (d, true)
  | some b =>
    let s := (recId b).space
    let timeout := min 7967232 (d.fld (Off.flowSpaceAge s) 22 0)
    let interval := max 1 (d.fld (Off.flowSpaceAgeint s) 14 0)
    let now := d.ageTick
    if timeout = 0 || recPinned b || recNoage b then (d, false)
    else if !recStale b then
      if timeout ≤ (now + 2 ^ 24 - recStamp b) % 2 ^ 24 then
        (d.update h [flagUpd 3 true, .put 70 (bytesLE 2 (now % 2 ^ 16))], false)
      else (d, false)
    else if interval ≤ (now + 2 ^ 16 - fieldLE b 70 2) % 2 ^ 16 then
      let d := (d.bump Off.flowAged 1).occFlow 0x207 (some (10, 0)) h
      let notice := d.flag (Off.flowSpaceCtl s) 23
      let d := if notice then d.ageOut h false else d.removeRecord h
      ((d.lodgeRemoved (recId b)).closeLodge, true)
    else (d, false)

/-- Idle demotion of a skim copy (R175): a resident copy idle for IDLE ticks, or a transient one whose lodge entry has closed;
never a pinned one. -/
def Device.idleDemote (d : Device) (p : Nat) : Device :=
  let idle := d.copyTier p == 2 || (d.fld Off.flowDemote 15 0 ≤ d.copyAge p : Bool)
  if d.displaceable p && idle && d.wbqRoom then d.demote p else d

/-- The sander visits a record slot in both stores: ageing, then the read of the slot through port SANDER, whether it holds a record or
not, and of a record HEAT halved and idle demotion (R174, R175, R181, R185). At shed level S1 and above it only ages; in Doze no walk reads the render store (R207). -/
def Device.visitRecord (d : Device) (h : Nat) : Device :=
  match d.ageVisit h with
  | (d, gone) =>
    if d.shed ≥ 1 || d.pwrState == 2 then d
    else if gone then (d.moved 128).scrub (128 * h) 4
    else
      let d := (d.moved 128).scrub (128 * h) 4
      let d := match d.authCopy h with
        | some b => if recHeat b = 0 then d else d.bothUpdate h [.mask 51 0xF0 (recHeat b / 2)]
        | none => d
      match d.skimAt h with
      | some p => d.idleDemote p
      | none => d

/-- The sander's visit to 128 bytes of the store: a record slot, or from 2^26 on the store beyond the RECORD region, whose valid
regions it reads at the same shed levels as the record walk (R185, R200). -/
def Device.sanderVisit (d : Device) (n : Nat) : Device :=
  if n < 2 ^ 26 then d.visitRecord n
  else if d.shed ≥ 1 || d.pwrState == 2 || (d.regionOf (128 * n)).isNone then d
  else (d.moved 128).scrub (128 * n) 4

/-! ### Digests (R186, R187, R419) -/

/-- The digest mask of a space as its registers hold it (R190). -/
def Device.dmask (d : Device) (s : Nat) : Nat := d.reg (Off.flowSpaceDmaskLo s) + 2 ^ 32 * d.fld (Off.flowSpaceDmaskHi s) 15 0

/-- The canonical form of a record and its e(rec), under the mask that the walk uses. -/
def Device.digestOf (d : Device) (h : Nat) (b : List Byte) : Nat :=
  let i := recId b
  let mask := NMap.getD d.flow.masks i.space 0
  let (p, n) := if recQpin b then (NMap.get? d.flow.soft h).getD (false, false) else (recPinned b, recNoage b)
  crc32c (sliceB b 0 48 ++ sliceB b 49 2 ++ [BitVec.ofNat 8 (b2n p + 2 * b2n n), 0] ++
    (List.range 48).map fun j => if bit mask j then b.getD (80 + j) 0 else 0)

/-- COUNT, SUM and XOR of a list of digests. -/
def digestBody (ds : List Nat) : List Byte :=
  bytesLE 4 ds.length ++ bytesLE 4 ds.sum ++ bytesLE 4 (ds.foldl (· ^^^ ·) 0)

/-- A DIGEST notice goes to the Owner of the space's or table's partition, or to the device owner when it is shared. -/
def Device.digestNotice (d : Device) (shared : Bool) (part : Nat) (body : List Byte) : Device :=
  let s := if shared then d.devOwner else d.fld (Off.seatPart part) 1 0
  if s < 2 then (d.notice s (d.fld (Off.seatCtl s) 8 6) 4 body none).1 else d

/-- The notice of one digest block of the flow stores. -/
def Device.flowDigest (d : Device) (k : Nat) : Device :=
  let s := k / 4096
  let recs := (NMap.keys d.flow.render).filterMap fun h => match d.authCopy h with
    | some b => if recValid b && (recId b).block == k then some (d.digestOf h b) else none
    | none => none
  d.digestNotice (d.flag (Off.flowSpaceCtl s) 30) (d.fld (Off.flowSpaceCtl s) 29 26)
    ([0, BitVec.ofNat 8 s] ++ bytesLE 2 (k % 4096) ++ [0, BitVec.ofNat 8 (b2n (d.flow.changed.contains k)), 0, 0] ++
      bytesLE 4 d.flow.walk ++ digestBody recs)

/-- The digest block and the canonical form of each entry of a table (R187); a tag cell whose valid bit is 0 is empty (R143). -/
def Table.digests (t : Table) : List (Nat × Nat) :=
  let df := t.defn
  if df.kind = kTag then (t.tags.filter fun p => cellValid p.2).map fun (i, c) => (i / 256, crc32c (recordOf df 1 0 0 (bytesLE 4 i) [] c))
  else if df.kind = kLpm then t.prefixes.map fun p => (fieldBE p.key 0 2 / 16, crc32c (recordOf df 2 p.plen 0 p.key [] p.cell))
  else t.entries.map fun e => (h1 e.key / 2 ^ 20, crc32c (recordOf df 2 0 e.prio e.key e.mask e.cell))

def Device.tableDigests (d : Device) (slot : Nat) (t : Table) : Device :=
  let ds := t.digests
  ((ds.map (·.1)).dedup).foldl (fun d k =>
    d.digestNotice t.defn.shared t.defn.part
      ([1, BitVec.ofNat 8 slot] ++ bytesLE 2 k ++ [BitVec.ofNat 8 t.defn.num, 0, 0, 0] ++ bytesLE 4 d.flow.walk ++
        digestBody ((ds.filter fun x => x.1 == k).map (·.2)))) d

/-- The digest blocks that hold a record now. -/
def Device.liveBlocks (d : Device) : List Nat :=
  ((NMap.keys d.flow.render).filterMap fun h => match d.authCopy h with
    | some b => if recValid b then some (recId b).block else none
    | none => none).dedup

/-- A walk takes the digest masks as they stand at its beginning (R190). -/
def Device.takeMasks (d : Device) : Device :=
  d.modFlow fun w => { w with masks := ((List.range 16).map fun s => (s, d.dmask s)).filter fun p => p.2 != 0 }

/-- A render walk ends: the digests of every block that holds or held a record in it, and of the tables of every live coat
(R186, R187); the next walk begins, with the digest masks as they then stand (R190). No walk runs at shed level S1 and above
(R185), nor in Doze (R207). -/
def Device.walkEnd (d : Device) : Device :=
  if d.shed ≥ 1 || d.pwrState == 2 then d
  else
    let blocks := (d.liveBlocks ++ d.flow.held ++ d.flow.changed).dedup
    let d := blocks.foldl Device.flowDigest d
    let d := d.coats.slots.foldl (fun d (s, c) => c.tables.foldl (fun d (_, t) => d.tableDigests s t) d) d
    (d.modFlow fun w => { w with walk := (w.walk + 1) % 2 ^ 32, changed := [], held := d.liveBlocks }).takeMasks

/-! ### Write-back and tuning (R155, R177, R178) -/

/-- One dirty skim copy is written to its home; the changes of frames still in their passes keep their places. -/
def Device.writeCopy (d : Device) (p : Nat) : Device :=
  match NMap.get? d.flow.skim p with
  | some c =>
    if recDirty c.bytes || !(d.runOf c.handle).isEmpty then
      let b := updsApply c.bytes [flagUpd 4 false]
      ((d.moved 128).requestWrite c.handle 128).modFlow fun w => { w with
        skim := NMap.set w.skim p { c with bytes := b }
        render := NMap.set w.render c.handle (updsApply c.bytes [tierUpd 1, flagUpd 4 false]) }
    else d
  | none => d

/-- WB_PERIOD has passed: every dirty skim copy is written back (R155), but not in Doze, where the skim store makes no request
(R207). -/
def Device.writeBackPeriod (d : Device) : Device :=
  if d.pwrState = 2 then d else (NMap.keys d.flow.skim).foldl Device.writeCopy d

/-- The settings of R178 as their registers hold them, brought within their limits (R190). -/
def Device.tuningNow (d : Device) : Tuning :=
  let tmin := max 1 (d.fld Off.flowTune 27 24)
  { interval := max 1 (d.fld Off.flowTune 15 0), tmin := tmin, tmax := max tmin (d.fld Off.flowTune 23 20)
    budget := clampN 16 1536 (d.fld Off.flowBudget 11 0), evictMax := d.reg Off.flowEvictMax }

/-- The tuning interval's end (R178), under the settings taken at its start; those of the next are taken now. T held at T_MIN with
the load above budget for 100 intervals raises an event. At shed level S1 and above T is frozen (R478). -/
def Device.tuneInterval (d : Device) : Device :=
  let u := d.flow.tuning
  let budget := u.budget * 1000000 * u.interval
  let load := d.flow.moved
  let evict := d.flow.evicted
  let t := d.threshT
  let t' :=
    if 1 ≤ d.shed then t
    else if load > budget ∧ t > u.tmin then t - 1
    else if 4 * load < budget * 3 ∧ evict * 1000 > u.evictMax * u.interval ∧ t < u.tmax then t + 1
    else t
  let stuck := if load > budget ∧ t ≤ u.tmin then d.flow.stuck + 1 else 0
  let d := (d.setFld Off.flowTune 31 28 t').modFlow fun w => { w with
    moved := 0, evicted := 0, stuck := stuck % 100, tuning := d.tuningNow }
  if stuck = 100 then d.raise 224 Sev.warn Cause.thresholdStuck (load / (1000000 * u.interval)) t' else d

end Sys2Proof.Machine
end

