-- ==== Sys2Proof/Machine/FlowCmd.lean ====
section
/-! DEFINITION. The flow commands, as a seat's ring or a scaffold task issues them (R149, R150, R164 to R167, R179, R180, R389,
R405, R413 to R416). -/

namespace Sys2Proof.Machine

/-- Who issues a flow command: the seat whose privileges count, the lock holder it is (R164), and its master kind (R500). -/
structure Issuer where
  seat : Nat
  holder : Nat
  master : Nat × Nat
deriving DecidableEq, Repr

def ringIssuer (s : Nat) : Issuer := ⟨s, 33 + s, seatMaster s⟩

/-- The containment domain of a lock holder (R448). -/
def holderDomain (h : Nat) : Nat × Nat := if h < 32 then (7, h) else if h = 32 then (0xA, 0) else (9, h - 33)

/-- What a flow command answers: its STATUS, the handle of its RESULT, the record to be written back, and the quote whose end it
waits for (R180). -/
structure FlowAns where
  status : Nat
  handle : Nat
  out : Option (List Byte)
  waits : Option Nat
deriving DecidableEq, Repr

def FlowAns.no (st : Nat) : FlowAns := ⟨st, 0, none, none⟩

def FlowAns.done (h : Nat) : FlowAns := ⟨St.ok, h, none, none⟩

/-- A command turned away names the record it met: R414 gives the handle without regard to the status. -/
def FlowAns.turned (st h : Nat) : FlowAns := ⟨st, h, none, none⟩

/-- RESULT of a flow command; 0 where no record is named. -/
def FlowAns.result (a : FlowAns) : List Byte := bytesLE 4 a.handle

/-! ### Locks (R164) -/

def lockedBy (b : List Byte) : Option Nat := if bit (recLease b) 7 then some (recLease b % 128) else none

def lockedElse (b : List Byte) (who : Issuer) : Bool := match lockedBy b with | some h => h != who.holder | none => false

def Device.takeLock (d : Device) (h : Nat) (who : Issuer) : Device :=
  let (k, i) := holderDomain who.holder
  ((d.commandUpdate h [.put 59 [BitVec.ofNat 8 (128 + who.holder)]]).unlease 2 h).lease 2 k i h 1

/-- The caller's lock is released. -/
def Device.dropLock (d : Device) (h : Nat) (who : Issuer) : Device :=
  match d.authCopy h with
  | some b => if lockedBy b = some who.holder then (d.commandUpdate h [.put 59 [0]]).unlease 2 h else d
  | none => d

/-! ### The commands -/

/-- Whether an image names an identity at all (R151: KLEN 1 to 48). -/
def imageOk (img : List Byte) : Bool := decide (1 ≤ fieldLE img 49 1 ∧ fieldLE img 49 1 ≤ 48)

/-- A record exists and its issuer may act on it: the handle and the authoritative copy, or the answer that turns it away. -/
def Device.flowTarget (d : Device) (who : Issuer) (i : FlowId) (priv lock : Bool) : Except FlowAns (Nat × List Byte) :=
  if !d.spaceEn i.space then .error (.no St.disabled)
  else match d.homeOf i with
    | none => .error (.no St.notFound)
    | some h => match d.authCopy h with
      | none => .error (.no St.notFound)
      | some b =>
        if priv && !d.ownsOr who.seat (d.partOf b) 4 then .error (.no St.priv)
        else if lock && lockedElse b who then .error (.turned St.busy h)
        else .ok (h, b)

/-- The lodge's part in an insert (R166). -/
def Device.insertLodge (d : Device) (i : FlowId) (h : Nat) : Device :=
  match d.lodged? i with
  | some e =>
    if e.outcome != .absent then d
    else if (d.skimAt h).isSome then d.setLodge i fun e => { e with outcome := .lodged }
    else match d.install h 2 with
      | some d => d.setLodge i fun e => { e with outcome := .lodged }
      | none => d.closeEntry i 0x25 Off.flowInstallFail
  | none => d

/-- FLOW_INSERT. -/
def Device.flowInsert (d : Device) (who : Issuer) (img : List Byte) (resident pinIt noage : Bool) : Device × FlowAns :=
  let i := recId img
  let part := d.insertPart i.space img
  if !imageOk img then (d, .no St.badParam)
  else if !d.spaceEn i.space then (d, .no St.disabled)
  else if !d.ownsOr who.seat part 4 then (d, .no St.priv)
  else match d.homeOf i with
    | some h => (d, .turned St.exists_ h)
    | none => match d.insertRecord i part (sliceB img 80 48) resident pinIt noage with
      | none => (d, .no St.noSpace)
      | some (d, h) => ((d.insertLodge i h).occFlow 0x208 (some who.master) h, .done h)

/-- The bytes of 80 to 127 that a mask selects, one change a byte. -/
def maskedPuts (mask : Nat) (state : List Byte) : List Upd :=
  ((List.range 48).filter (bit mask)).map fun j => .put (80 + j) [state.getD j 0]

/-- FLOW_UPDATE. -/
def Device.flowUpdate (d : Device) (who : Issuer) (img : List Byte) (mask : Nat) (clear unlock : Bool) : Device × FlowAns :=
  let i := recId img
  if !imageOk img then (d, .no St.badParam)
  else match d.flowTarget who i true true with
    | .error e => (d, e)
    | .ok (h, _) =>
      let d := d.commandUpdate h (maskedPuts mask (sliceB img 80 48) ++ (if clear then [flagUpd 3 false] else []))
      let d := if unlock then d.dropLock h who else d
      ((d.touchBlock i).occFlow 0x208 (some who.master) h, .done h)

/-- The quote that names an identity: the active one before one that is ending. -/
def Device.quoteOf (d : Device) (i : FlowId) : Option (Nat × Quote) :=
  let named := d.quotes.filter fun q => q.2.space == i.space && q.2.key == i.key
  (named.find? fun q => q.2.active).orElse fun _ => named.head?

/-- A record goes by command, with a read of its home where it is authoritative there (R165, R166). -/
def Device.dropRecord (d : Device) (i : FlowId) (h : Nat) : Device := (((d.readHome h).removeRecord h).lodgeRemoved i).closeLodge

/-- FLOW_REMOVE: a quote-pinned record's quote ends first, as QUOTE_RELEASE does, and one that is ending already is waited for
(R180). -/
def Device.flowRemove (d : Device) (who : Issuer) (img : List Byte) (ring : Nat × Nat) : Device × FlowAns :=
  let i := recId img
  if !imageOk img then (d, .no St.badParam)
  else match d.flowTarget who i true true with
    | .error e => (d, e)
    | .ok (h, _) => match d.quoteOf i with
      | some (k, q) =>
        let d := if q.release.isSome then d.joinRelease k ring else d.startRelease k 0 0xFFFF (some ring)
        (d, ⟨St.ok, h, none, some k⟩)
      | none => ((d.occFlow 0x208 (some who.master) h).dropRecord i h, .done h)

/-- ENUM: the record of lowest handle above the floor in a digest block. -/
def Device.enumRecord (d : Device) (floor space block : Nat) : Option (Nat × List Byte) :=
  (NMap.keys d.flow.render).findSome? fun h =>
    if floor < h then match d.authCopy h with
      | some b => if recValid b && (recId b).block == space % 16 * 4096 + block % 4096 then some (h, b) else none
      | none => none
    else none

/-- FLOW_READ. -/
def Device.flowRead (d : Device) (who : Issuer) (img : List Byte) (lock unlock : Bool) (enum_ : Option (Nat × Nat × Nat)) :
    Device × FlowAns :=
  let target : Except FlowAns (Nat × List Byte) := match enum_ with
    | some (floor, space, block) =>
      if 15 < space ∨ 4095 < block then .error (.no St.badParam)
      else if !d.spaceEn space then .error (.no St.disabled)
      else match d.enumRecord floor space block with | some x => .ok x | none => .error (.no St.notFound)
    | none => if !imageOk img then .error (.no St.badParam) else d.flowTarget who (recId img) false false
  match target with
  | .error e => (d, e)
  | .ok (h, b) =>
    if (lock || unlock) && !d.ownsOr who.seat (d.partOf b) 4 then (d, .no St.priv)
    else if lock && lockedElse b who then (d, .turned St.busy h)
    else
      let d := d.readHome h
      let d := if lock then d.takeLock h who else d
      let d := if unlock then d.dropLock h who else d
      (d.occFlow 0x208 (some who.master) h, ⟨St.ok, h, d.authCopy h, none⟩)

/-- FLOW_PIN (R179, R180). -/
def Device.flowPin (d : Device) (who : Issuer) (img : List Byte) (pinned noage : Bool) : Device × FlowAns :=
  if !imageOk img then (d, .no St.badParam)
  else match d.flowTarget who (recId img) true true with
    | .error e => (d, e)
    | .ok (h, b) =>
      let fin (d : Device) : Device × FlowAns := ((d.touchBlock (recId img)).occFlow 0x208 (some who.master) h, .done h)
      if recQpin b then
        if !pinned || !noage then (d, .turned St.qpin h)
        else fin (d.modFlow fun w => { w with soft := NMap.set w.soft h (pinned, noage) })
      else
        match (if pinned then (d.readHome h).pin h else some d) with
        | none => (d, .turned St.noSpace h)
        | some d => fin (d.commandUpdate h [flagUpd 1 pinned, flagUpd 5 noage])

/-- SHADOW_REWRITE: an insert when the record is absent, else its static bytes are rewritten, those of the digest mask in force (R190).
A change of partition needs the
privilege in both. -/
def Device.shadowRewrite (d : Device) (who : Issuer) (img : List Byte) (resident pinIt noage : Bool) : Device × FlowAns :=
  let i := recId img
  if !imageOk img then (d, .no St.badParam)
  else match d.flowTarget who i true true with
    | .error e => if e.status = St.notFound then d.flowInsert who img resident pinIt noage else (d, e)
    | .ok (h, _) =>
      let part := d.insertPart i.space img
      if !d.ownsOr who.seat part 4 then (d, .no St.priv)
      else
        let mask := NMap.getD d.flow.masks i.space 0
        let d := d.commandUpdate h ([.put 49 [BitVec.ofNat 8 i.key.length], .put 50 [BitVec.ofNat 8 (i.space + 16 * part)]] ++
          maskedPuts mask (sliceB img 80 48))
        ((d.touchBlock i).occFlow 0x208 (some who.master) h, .done h)

/-! ### From a ring (R413, R414) -/

/-- The reserved flags and unused bytes of a flow command are those of its OP. -/
def flowUsed (op flags : Nat) : List (Nat × Nat) :=
  if op = 2 then [(16, 6)] else if op = 4 ∧ bit flags 2 then [(16, 4), (20, 1), (22, 2)] else []

def flowFlagBits (op : Nat) : Nat :=
  match op with | 1 => 3 | 2 => 2 | 4 => 3 | 5 => 2 | 0x11 => 3 | _ => 0

/-- One flow command, decoded: OP, FLAGS, PARAM and the image. `ring` is where a waiting removal completes. -/
def Device.flowCommand (d : Device) (who : Issuer) (op flags : Nat) (p : Nat → Nat → Nat) (img : List Byte) (ring : Nat × Nat) :
    Device × FlowAns :=
  match op with
  | 0x01 => d.flowInsert who img (bit flags 0) (bit flags 1) (bit flags 2)
  | 0x02 => d.flowUpdate who img (p 16 6) (bit flags 0) (bit flags 1)
  | 0x03 => d.flowRemove who img ring
  | 0x04 => d.flowRead who img (bit flags 0) (bit flags 1) (if bit flags 2 then some (p 16 4, p 20 1, p 22 2) else none)
  | 0x05 => d.flowPin who img (bit flags 0) (bit flags 1)
  | 0x11 => d.shadowRewrite who img (bit flags 0) (bit flags 1) (bit flags 2)
  | _ => (d, .no St.badParam)

/-- A command whose install, or whose pin, waits for room in the write-back queue is not taken yet (R177): an insert with RESIDENT or
PIN, one that a lodge entry awaits, and a pin. -/
def Device.flowWaits (d : Device) (op flags : Nat) (img : List Byte) : Bool :=
  let i := recId img
  match d.homeOf i with
  | none =>
    if op != 1 && op != 0x11 then false
    else if bit flags 1 then d.pinWaits i none
    else (bit flags 0 || (d.lodged? i).isSome) && d.installWaits i
  | some h => op == 5 && bit flags 0 && !((d.authCopy h).any recPinned) && d.pinWaits i (d.skimAt h)

/-- The partition of the record that an image names, or that one inserted by it would have (R150, R403, R500). -/
def Device.imagePart (d : Device) (img : List Byte) : Option Nat :=
  some (d.partOf (((d.homeOf (recId img)).bind d.authCopy).getD img))

/-- A flow command taken from a ring. -/
def Device.ringFlow (d : Device) (c : CmdEntry) (op : Nat) : Device :=
  if d.flowWaits op c.flags.toNat (fitB 128 c.buf) then d
  else d.runHeld c op (flowFlagBits op) (flowUsed op c.flags.toNat) 128 (d.imagePart (fitB 128 c.buf)) fun d =>
    let s : Nat := c.seat
    match d.flowCommand (ringIssuer s) op c.flags.toNat c.p (fitB 128 c.buf) (s, c.ring) with
    | (d, a) => match a.waits with
      | some _ => .inr (d, ⟨op, c.tag.toNat, c.flags.toNat, c.addr.toNat, 0, [a.handle], []⟩)
      | none =>
        let d := match a.out with | some b => d.hostWrite s c.addr.toNat b | none => d
        .inl (d, a.status, a.result)

end Sys2Proof.Machine
end

