-- ==== Sys2Proof/Machine/QuoteCmd.lean ====
section
/-! DEFINITION. Requesting, querying and ending quotes (R180, R220, R246 to R252, R303, R414, R415, R507). -/

namespace Sys2Proof.Machine

/-- The parameters of QUOTE_REQUEST (R415). -/
structure QuoteReq where
  qid : Nat
  inPort : Nat
  portA : Nat
  portB : Option Nat
  lmin : Nat
  lmax : Nat
  b : Nat
  rate : Nat
  demote : Nat
  dreq : Nat
deriving DecidableEq, Repr

def QuoteReq.of (c : CmdEntry) : QuoteReq :=
  { qid := c.p 16 4, inPort := c.p 20 2, portA := c.p 22 2, portB := if c.p 24 2 = 0xFFFF then none else some (c.p 24 2),
    lmin := c.p 26 2, lmax := c.p 28 2, b := c.p 30 4, rate := c.p 34 5, demote := c.p 39 1, dreq := 100 * c.p 40 2 }

/-- The named ports. -/
def QuoteReq.ports (q : QuoteReq) : List Nat := [q.inPort, q.portA] ++ q.portB.toList

/-- The egress ports. -/
def QuoteReq.outs (q : QuoteReq) : List Nat := q.portA :: q.portB.toList

/-- The ranges of R246, and egress ports that are Ethernet ports; a PORT_B equal to PORT_A is no second port (DEDUCED, assumption log, entry 28). -/
def Device.quoteParamsOk (d : Device) (q : QuoteReq) : Bool :=
  decide (q.qid < 2 ^ 20) && q.ports.all (fun p => decide (p < 512)) && q.portB != some q.portA &&
    decide (q.lmax ≤ q.b ∧ q.b ≤ 1048576) && decide (1 ≤ q.rate ∧ q.rate < 2 ^ 37) && decide (64 ≤ q.lmin ∧ q.lmin ≤ q.lmax) &&
    q.ports.all (fun p => decide (q.lmax ≤ d.maxLen p)) && decide (100 ≤ q.dreq) &&
    q.outs.all (fun p => (d.spanOf p).isNone) && (decide (q.demote ≤ 6) || q.demote == 0xFF)

/-- A placement in a RESULT or a buffer; for no port all zeros (R414). -/
def placementBytes (f : Option Fit) : List Byte :=
  match f with
  | some f => bytesLE 2 f.g ++ bytesLE 2 f.o ++ bytesLE 2 f.m ++ bytesLE 4 f.f
  | none => List.replicate 10 0

/-- The coats a quote's path is checked against (R247, step 3): the current one and the pending one, each if it exists. -/
def Device.pathFault (d : Device) (inPort space : Nat) : Option (Nat × Nat) :=
  (d.curCoat.bind fun c => c.pathCheck c.addrs inPort space) <|>
    d.coats.pending.bind fun p => p.coat.pathCheck p.coat.addrs inPort space

/-- Each egress port is fitted without reserving; none is NO_FIT. -/
def Device.fitAll (d : Device) (q : QuoteReq) : Option (List Fit) :=
  q.outs.foldl (fun acc p => acc.bind fun l =>
    (d.fit q.inPort p q.b q.rate q.lmin q.lmax q.dreq).map fun f => l ++ [f]) (some [])

/-- The pin of a quote: the copy is made resident and pinned, the software settings are kept, and QPIN and NOAGE are set. A record
still pinned by a quote that is ending keeps the software settings it has (R180). -/
def Device.quotePin (d : Device) (h : Nat) : Option Device :=
  match d.authCopy h with
  | none => none
  | some b => (d.pin h).map fun d =>
      (if recQpin b then d else d.modFlow fun w => { w with soft := NMap.set w.soft h (recPinned b, recNoage b) }).commandUpdate h
        [.mask 51 0xFF 16, flagUpd 1 true, flagUpd 5 true]

/-- Whether the ports can carry a quote: the egress ports are enabled, the ingress port is one or an enabled
span's, and no float hold stands before it (R246, R282, R325; DEDUCED, assumption log, entry 56). -/
def Device.quotePortsOk (d : Device) (q : QuoteReq) : Bool :=
  q.outs.all d.macEn && (d.macEn q.inPort || (d.spanOf q.inPort).isSome) &&
    !d.flag (Off.spreadPort q.inPort) 31

/-- The first steps of an admission up to NO_CELLS (R247), every privilege in step 1: the record's handle, the fits and the claim, or the status with its
result. -/
def Device.quoteCheck (d : Device) (s : Nat) (i : FlowId) (q : QuoteReq) : Except (Nat × List Byte) (Nat × List Fit × Nat) :=
  if !d.quoteParamsOk q then .error (St.badParam, [])
  else if !q.ports.all (fun p => d.ownsOr s (d.portPart p) 6) || ((d.homeOf i).bind d.authCopy).any (fun b => !d.ownsOr s (d.partOf b) 6) then
    .error (St.priv, [])
  else if (d.quote q.qid).isSome then .error (St.idInUse, [])
  else if d.quotes.any (fun x => x.2.active && x.2.space == i.space && x.2.key == i.key) then .error (St.flowQuoted, [])
  else if 1048576 ≤ (d.quotes.filter fun x => x.2.active).length then .error (St.limit, [])
  else match (d.homeOf i).filter fun h => (d.authCopy h).isSome with
    | none => .error (St.noFlow, [])
    | some h => match d.pathFault q.inPort i.space with
      | some (st, w) => .error (St.path, bytesLE 2 st ++ bytesLE 2 w)
      | none =>
        if !d.quotePortsOk q then .error (St.port, [])
        else match d.fitAll q with
          | none => .error (St.noFit, [])
          | some fits =>
            let dd := boundOf fits
            let claim := (fits.map fun f => d.claimOn f.port q.b q.rate dd q.lmin q.lmax).foldl max 0
            if d.fld Off.bufPoolContract 19 0 < d.allowances q.inPort claim then .error (St.noCells, [])
            else .ok (h, fits, claim)

/-- QUOTE_REQUEST (R247): a sleeping egress port is awake before the quote becomes active (R303); one whose pin
waits for room in the write-back queue is not taken yet (R177). -/
def Device.quoteRequest (d : Device) (c : CmdEntry) : Device :=
  if d.flowWaits 5 1 (fitB 128 c.buf) then d
  else d.runCmd c 0x0B 0 [(16, 26)] 128 (d.imagePart (fitB 128 c.buf)) fun d =>
    let img := fitB 128 c.buf
    let i := recId img
    let q := QuoteReq.of c
    if !imageOk img then (d, St.badParam, [])
    else match d.quoteCheck c.seat i q with
      | .error (st, res) => (d, st, res)
      | .ok (h, fits, claim) => match d.quotePin h with
        | none => (d, St.noPin, [])
        | some d =>
          let d := q.outs.foldl (fun d p => d.startWake p false) d
          let awake := (q.outs.map fun p => (d.port p).txWakeAt.getD 0).foldl max 0
          let at_ := max ((d.transit / 1000 + 1) * 1000) (ceilDiv awake 1000 * 1000)
          let d := d.setQuote q.qid
            { seat := c.seat, ring := c.ring, space := i.space, key := i.key, inPort := q.inPort, portA := q.portA,
              portB := q.portB, b := q.b, rate := q.rate, lmin := q.lmin, lmax := q.lmax, dreq := q.dreq, demote := q.demote,
              fits := fits, d := boundOf fits, claim := claim, active := true, activeAt := at_, tokens := q.b * tokenUnit,
              filled := at_ / 1000, release := none, accepted := 0, demoted := 0, discarded := 0, expired := 0, slack := none,
              residence := 0, xSlack := none, xResidence := 0, lastExpiry := none }
          (d, St.ok, bytesLE 2 (boundOf fits / 100) ++ placementBytes (fits.find? fun f => f.port == q.portA) ++
            placementBytes (q.portB.bind fun p => fits.find? fun f => f.port == p))

/-- The next transit-count microsecond has come: the quote polices (R247). -/
def Device.quoteBecomesActive (d : Device) (qid : Nat) : Device := if d.quoteActive qid then d.showQuotes else d

/-- The partition of a quote is that of its record (R403). -/
def Device.quotePart (d : Device) (qid : Nat) : Option Nat :=
  (d.quote qid).bind fun q => ((d.homeOf ⟨q.space, q.key⟩).bind d.authCopy).map d.partOf

/-- QUOTE_RELEASE (R249): the policer goes at once; the command completes after D. An id that is no active quote's is
BAD_PARAM (DEDUCED from R416, assumption log, entry 29). -/
def Device.quoteRelease (d : Device) (c : CmdEntry) : Device :=
  d.runHeld c 0x0C 0 [(16, 4)] 0 (d.quotePart (c.p 16 4)) fun d =>
    let qid := c.p 16 4
    match d.quote qid with
    | none => .inl (d, St.badParam, [])
    | some q =>
      let parts := ((q.inPort :: q.portA :: q.portB.toList).map d.portPart) ++
        (((d.homeOf ⟨q.space, q.key⟩).bind d.authCopy).map d.partOf).toList
      if !q.active then .inl (d, St.badParam, [])
      else if !parts.all (fun p => d.ownsOr c.seat p 6) then .inl (d, St.priv, [])
      else
        .inr (d.startRelease qid 0 0xFFFF (some ((c.seat : Nat), (c.ring : Nat))),
          ⟨0x0C, c.tag.toNat, c.flags.toNat, 0, 0, [qid], []⟩)

/-- The 128 bytes of QUOTE_QUERY (R414, R507). The level of the bucket is given in 2^−16 byte. -/
def Quote.image (q : Quote) (qid : Nat) : List Byte :=
  fitB 48 (bytesLE 4 qid ++ bytesLE 2 q.inPort ++ bytesLE 2 q.portA ++ bytesLE 2 (q.portB.getD 0xFFFF) ++ bytesLE 2 q.lmin ++
      bytesLE 2 q.lmax ++ bytesLE 4 q.b ++ bytesLE 5 q.rate ++ bytesLE 1 q.demote ++ bytesLE 2 (q.dreq / 100)) ++
    bytesLE 2 (q.d / 100) ++ placementBytes (q.fitOn q.portA) ++ placementBytes (q.portB.bind q.fitOn) ++ bytesLE 2 0 ++
    bytesLE 8 q.accepted ++ bytesLE 8 q.demoted ++ bytesLE 8 q.discarded ++ bytesLE 8 q.expired ++
    bytesLE 8 (q.tokens / 1000000) ++ bytesLE 4 (match q.slack with | some s => unsigned 32 s | none => 0x7FFFFFFF) ++
    bytesLE 4 q.residence ++ bytesLE 8 0

/-- QUOTE_QUERY. -/
def Device.quoteQuery (d : Device) (c : CmdEntry) : Device :=
  d.runCmd c 0x0D 0 [(16, 4)] 128 (d.quotePart (c.p 16 4)) fun d =>
    match d.quote (c.p 16 4) with
    | none => (d, St.badParam, [])
    | some q => (d.hostWrite c.seat c.addr.toNat ((q.refill (d.transit / 1000)).image (c.p 16 4)), St.ok, [])

/-- D has passed: positions, claim and pin are freed, and the id with them (R249, R180). Answers the quote and its release. -/
def Device.endQuote (d : Device) (qid : Nat) : Device × Option (Quote × Release) :=
  match d.quote qid with
  | none => (d, none)
  | some q => match q.release with
    | none => (d, none)
    | some r =>
      if d.transit < r.due || !d.darbyRuns || d.fault.stopping then (d, none)
      else
        let d := { d with quotes := NMap.del d.quotes qid }
        let i : FlowId := ⟨q.space, q.key⟩
        let again := d.quotes.any fun x => x.2.active && x.2.space == q.space && x.2.key == q.key
        let d := match d.homeOf i with
          | some h => if again then d else d.unpinQuote h
          | none => d
        (d.showQuotes, some (q, r))

/-- The command of a ring that waited for a quote's end completes: QUOTE_RELEASE, or FLOW_REMOVE with the record's removal. -/
def Device.releaseDone (d : Device) (i : FlowId) (s ring : Nat) : Device :=
  match d.held s ring 0x0C with
  | some o => d.complete s ring 0x0C St.ok o.tag o.flags []
  | none => match d.held s ring 0x03 with
    | none => d
    | some o => match d.homeOf i with
      | some h => ((d.occFlow 0x208 (some (seatMaster s)) h).dropRecord i h).complete s ring 0x03 St.ok o.tag o.flags (bytesLE 4 h)
      | none => d.complete s ring 0x03 St.notFound o.tag o.flags []

/-- The notices of an ended quote: its event where the device ended it, QUOTE_STATUS, and after them the COMPLETIONs of the
QUOTE_RELEASE and FLOW_REMOVE commands that waited (R249, R250, R430). -/
def Device.quoteEnded (d : Device) (qid : Nat) (q : Quote) (r : Release) : Device :=
  let d := if r.reason = 0 then d else d.raise 369 Sev.warn Cause.quoteEnded qid r.reason
  let d := d.quoteNotice qid q r.reason r.port
  r.rings.foldl (fun d w => d.releaseDone ⟨q.space, q.key⟩ w.1 w.2) d

/-- A record that a fault took ends its quote (R180, R188, R250: ENDED_FLOW). -/
def Device.quoteLost (d : Device) (i : FlowId) : Device :=
  match d.quoteOf i with
  | some (k, _) => d.startRelease k 1 0xFFFF none
  | none => d

end Sys2Proof.Machine
end

