-- ==== Sys2Proof/Machine/Scaf.lean ====
section
/-! DEFINITION. The scaffold outside its instructions: code banks, work lists, threads, dispatch, pre-emption, timers, signals,
ticks and the end of a task (R69, R76, R367 to R389, R395, R396, R465). -/

namespace Sys2Proof.Machine

/-! ### State access -/

def Device.modScaf (d : Device) (f : Scaf → Scaf) : Device := { d with scaf := f d.scaf }

def Device.task (d : Device) (id : Nat) : Option Task := NMap.get? d.scaf.tasks id

def Device.setTask (d : Device) (id : Nat) (x : Task) : Device := d.modScaf fun s => { s with tasks := NMap.set s.tasks id x }

def Device.modTask (d : Device) (id : Nat) (f : Task → Task) : Device :=
  d.modScaf fun s => { s with tasks := NMap.modify s.tasks id f }

def Thread.idle : Thread := ⟨.free, none, 0, false, false, false⟩

/-- The key of a thread of an engine. -/
def thrKey (e t : Nat) : Nat := 8 * e + t

def Device.thr (d : Device) (k : Nat) : Thread := (NMap.get? d.scaf.threads k).getD Thread.idle

def Device.setThr (d : Device) (k : Nat) (x : Thread) : Device :=
  d.modScaf fun s => { s with threads := NMap.set s.threads k x }

def Device.sram (d : Device) (a n : Nat) : List Byte := Mem.readN 0 d.scaf.sram a n

def Device.setSram (d : Device) (a : Nat) (bs : List Byte) : Device :=
  d.modScaf fun s => { s with sram := Mem.writeN 0 s.sram a bs }

/-! ### Code banks (R370 to R372) -/

def Device.bankActive (d : Device) : Nat := d.fld Off.scafCodeCtl 30 30

def Device.bankLen (d : Device) (b : Nat) : Nat := d.fld (if b = 0 then Off.scafCodeLen0 else Off.scafCodeLen1) 18 0

/-- Word n of a bank. -/
def Device.codeWord (d : Device) (b n : Nat) : Nat := leNat (d.sram (0x200000 * b + 8 * n) 8)

/-- A dispatch entry of the active bank: its level and initial pc; none when it is not VALID. -/
def Device.dispatchEntry (d : Device) (n : Nat) : Option (Nat × Nat) :=
  let w := d.codeWord d.bankActive n
  if bit w 31 then some (bits w 27 24, bits w 17 0) else none

/-- Whether the inactive bank still holds tasks (DRAINING). -/
def Device.bankDraining (d : Device) : Bool := d.scaf.tasks.any fun p => p.2.bank != d.bankActive

/-- A write of SCAF_CODE_DATA_HI stores the held low half and this one at the index of the inactive bank, and moves the index on
(R371). The index runs one past the bank's last word, where a further write is ignored. -/
def Device.storeCode (d : Device) (s v : Nat) : Device :=
  if d.bankDraining || d.scaf.idxOver then d.quietFlag s Off.scafCodeDataHi v
  else
    let i := d.fld Off.scafCodeIdx 17 0
    let d := d.setSram (0x200000 * (1 - d.bankActive) + 8 * i) (bytesLE 4 d.scaf.codeLo ++ bytesLE 4 v)
    (d.setFld Off.scafCodeIdx 17 0 (i + 1)).modScaf fun s => { s with idxOver := i + 1 == 262144 }

/-- The check of a bank before a switch (R372). -/
def Device.bankOk (d : Device) (b : Nat) : Bool :=
  let len := d.bankLen b
  decide (145 ≤ len ∧ len ≤ 262144) && (List.range 144).all fun n =>
    let w := d.codeWord b n
    !bit w 31 || (decide (144 ≤ bits w 17 0 ∧ bits w 17 0 < len) && bits w 63 32 == 0 && bits w 30 28 == 0 && bits w 23 18 == 0)

/-- The event of a switch or its refusal; the spec gives CODE_SWITCH no argument values (log, entry 3). -/
def Device.codeSwitched (d : Device) (sev : Nat) : Device :=
  let (d, a) := d.free 7
  let (d, b) := d.free 7
  d.raise 288 sev Cause.codeSwitch a b

/-- A write of 1 to SCAF_CODE_CTL.SWITCH (R372). -/
def Device.switchCode (d : Device) (s : Nat) : Device :=
  if !d.bankOk (1 - d.bankActive) then (d.setFlag Off.scafCodeCtl 28 true).codeSwitched Sev.warn
  else if d.bankDraining then d.quietFlag s Off.scafCodeCtl (2 ^ 31)
  else (d.setFld Off.scafCodeCtl 30 30 (1 - d.bankActive)).codeSwitched Sev.info

/-! ### Ready lists and work (R376 to R378, R396) -/

def Device.readyList (d : Device) (l : Nat) : List ReadyItem := NMap.getD d.scaf.ready l []

def Device.setReady (d : Device) (l : Nat) (q : List ReadyItem) : Device :=
  d.modScaf fun s => { s with ready := if q.isEmpty then NMap.del s.ready l else NMap.set s.ready l q }

/-- Work items listed over all levels: punts and due ticks. -/
def Device.workListed (d : Device) : Nat :=
  ((d.scaf.ready.flatMap (·.2)).filter fun i => match i.item with | .task _ => false | _ => true).length

def Device.anyFree (d : Device) : Bool := d.scaf.freed.any fun k => d.domainOk 7 (k / 8)

/-- Gated engines are powered again when a push task is ready and no thread is free, or pull items wait (R465). -/
def Device.engineWake (d : Device) : Device :=
  let push := d.scaf.ready.any fun p => decide (12 ≤ p.1)
  let pull := d.scaf.ready.any fun p => decide (p.1 < 12)
  if pull || (push && !d.anyFree) then
    (List.range 32).foldl (fun d e =>
      if (d.dom 7 e).state == .stopped then d.modDom 7 e fun x => { x with state := .running } else d) d
  else d

/-- An item joins the tail of a ready list. -/
def Device.addReady (d : Device) (l : Nat) (i : WorkItem) : Device :=
  (d.setReady l (d.readyList l ++ [⟨i, d.transit⟩])).engineWake

/-- A task joins the tail of its ready list. -/
def Device.wakeTask (d : Device) (id : Nat) : Device :=
  match d.task id with
  | some x => (d.modTask id fun x => { x with at_ := .ready }).addReady x.level (.task id)
  | none => d

/-- A frame that does not become a task leaves by its descriptor. -/
def Device.dropPunt (d : Device) (c off : Nat) : Device :=
  match d.copy c with
  | none => d
  | some y => match d.frame y.frame with
    | some x => ((d.bump off 1).occIng 0x106 x (vecN y.m 7 % 256)).dropCopy c
    | none => d.dropCopy c

/-- The head of a pipeline's port-513 queue moves into a work list, or is discarded: without a valid entry, shed, or for full
lists (R376, R396). -/
def Device.puntArrival (d : Device) (pipe : Nat) : Device :=
  match d.voq pipe 513 (voqCls 513 0) with
  | [] => d
  | c :: _ => match d.copy c with
    | none => d
    | some y =>
      let n := vecN y.m 7 % 256
      match d.dispatchEntry n with
      | none => d.dropPunt c Off.scafNoEntry
      | some (l, _) =>
        if 128 ≤ n then d.dropPunt c Off.scafNoEntry
        else if d.shed ≥ 2 ∧ l < 12 then d.dropPunt c Off.scafShedDrop
        else if 32768 ≤ d.workListed then d.dropPunt c Off.scafQueueDrop
        else
          let d := d.modBuf fun b => { b with voqs :=
            (b.voqs.map fun (k, q) => (k, q.filter (· ≠ c))).filter fun q => !q.2.isEmpty }
          (d.modCopy c fun y => { y with stage := .selected }).addReady l (.punt c n)

/-- The first item of a list that has waited SCAF_PULL_AGE moves one level up, at most to level 11 (R377). -/
def Device.pullAge (d : Device) (l : Nat) : Device :=
  let age := d.fld Off.scafPullAge 15 0
  if age = 0 ∨ 11 ≤ l then d
  else
    let q := d.readyList l
    let i := q.findIdx fun x => decide (x.since + 1000000 * age ≤ d.transit)
    match q[i]? with
    | some x => (d.setReady l (q.eraseIdx i)).addReady (l + 1) x.item
    | none => d

/-! ### Tasks and threads (R368, R369, R373, R381) -/

def pageBase (id : Nat) : Nat := 0x400000 + 0x8000 * id

/-- The lowest free page a new task of a level may take (R378; which one is the model's choice, log, entry 18). PUSH_PAGES runs
from 1 to 256; a value outside is taken as the nearer limit (DESIGN CHOICE, log, entry 124). -/
def Device.freePage (d : Device) (level : Nat) : Option Nat :=
  let n := if 12 ≤ level then 512 else 512 - clampN 1 256 (d.fld Off.scafPushPages 8 0)
  (List.range n).find? fun i => (d.task i).isNone

/-- The seat that owns the partition of a task (R389); none reads as no seat. -/
def Device.taskSeat (d : Device) (x : Task) : Nat := d.fld (Off.seatPart (bits (x.regs.mN 0) 13 10)) 1 0

/-- A task as the issuer of flow commands. -/
def Device.taskIssuer (d : Device) (e : Nat) (x : Task) : Issuer := ⟨d.taskSeat x, e, (3, e)⟩

/-- An occurrence of a scaffold event with the task's dispatch index and partition (R500). -/
def Device.occTask (d : Device) (code e : Nat) (x : Task) : Device :=
  d.occ ⟨code, 1, none, none, some (3, e), some x.disp, some (bits (x.regs.mN 0) 13 10)⟩

/-- A thread becomes free; an engine that then holds no task is idle from now on. -/
def Device.endThread (d : Device) (k : Nat) : Device :=
  let d := d.modScaf fun s => { s with threads := NMap.del s.threads k, freed := (s.freed.filter (· ≠ k)) ++ [k] }
  if d.scaf.threads.any fun p => p.1 / 8 == k / 8 then d
  else d.modScaf fun s => { s with idleFrom := NMap.set s.idleFrom (k / 8) d.transit }

/-- The thread a task holds. -/
def Task.thread? (x : Task) : Option Nat :=
  match x.at_ with
  | .thread e t | .copying e t => some (thrKey e t)
  | _ => none

/-- A task ends in any way: its page is freed, its locks are released, its timer, signal wait and lease are removed, and its
thread is free (R76, R381). -/
def Device.taskGone (d : Device) (id : Nat) : Device :=
  match d.task id with
  | none => d
  | some x =>
    let d := x.locks.foldl (fun d h => d.dropLock h (d.taskIssuer (x.lockEngine.getD 0) x)) d
    let d := d.modScaf fun s => { s with
      tasks := NMap.del s.tasks id
      timers := s.timers.filter fun t => t.task ≠ id
      waiters := s.waiters.filter fun w => w.2 ≠ id
      ready := (s.ready.map fun (l, q) => (l, q.filter fun i => i.item != .task id)).filter fun p => !p.2.isEmpty }
    let d := d.unlease 3 id
    match x.thread? with
    | some k => d.endThread k
    | none => d

/-- A task is aborted: its frame is discarded, and its cells are freed when it was still being copied (R76, R395). -/
def Device.abortTask (d : Device) (id : Nat) : Device :=
  match d.task id with
  | none => d
  | some x =>
    let d := (d.bump Off.scafAbort 1).taskGone id
    match x.frame with
    | some c => (match d.copy c with | some y => d.unlease 0 y.frame | none => d).dropCopy c
    | none => d

/-! ### Dispatch (R379, R380, R382) -/

/-- Whether a level is served: at shed level S2 and above no pull item is (R396). -/
def Device.levelServed (d : Device) (l : Nat) : Bool := decide (12 ≤ l) || decide (d.shed < 2)

/-- Whether an item can go to a thread of engine e: a task whose context has been saved, on its locks' engine; a new item for
which a page is free (R369, R378, R389). -/
def Device.itemReady (d : Device) (e l : Nat) (i : WorkItem) : Bool :=
  match i with
  | .task id =>
    !(d.scaf.threads.any fun p => p.2.task == some id && p.2.state == .saving) &&
      (match d.task id with
       | some x => (match x.lockEngine with | some k => k == e | none => true)
       | none => false)
  | _ => (d.freePage l).isSome

/-- The level whose head is dispatched next to engine e: the highest that is served and whose head can go. -/
def Device.nextLevel (d : Device) (e : Nat) (q : Nat → Bool) : Option Nat :=
  ((List.range 16).reverse).find? fun l => q l && d.levelServed l && (match d.readyList l with
    | x :: _ => d.itemReady e l x.item
    | [] => false)

/-- m1 under the current coat (R110). -/
def Device.coatWord (d : Device) (m1 : Nat) : Nat :=
  match d.coats.cur, d.curCoat with
  | some s, some c => setBits (setBits m1 1 0 s) 25 10 c.id
  | _, _ => m1

/-- The run budget in µs of a level (R388). -/
def Device.runBudget (d : Device) (l : Nat) : Nat := if 12 ≤ l then d.fld Off.scafBudget 15 0 else d.fld Off.scafBudget 31 16

/-- The header of a task page (R373); `created` is the transit count of the task's creation. -/
def Device.writeHeader (d : Device) (id : Nat) (x : Task) (len reason created : Nat) : Device :=
  d.setSram (pageBase id) (bytesLE 2 len ++ bytesLE 1 reason ++
    bytesLE 1 (x.level + 16 * b2n (decide (12 ≤ x.level)) + 32 * b2n x.frameless + 64 * x.bank) ++ bytesLE 2 id ++
    bytesLE 2 x.disp ++ bytesLE 8 (x.rxTime / 65536) ++ bytesLE 8 (x.rxTransit / 65536) ++ bytesLE 8 created ++
    bytesLE 2 (x.regs.mN 0 % 1024) ++ bytesLE 2 (bits (x.regs.mN 1) 25 10) ++ bytesLE 28 0)

/-- A new task on a page. -/
def Device.blankTask (d : Device) (level disp : Nat) (at_ : TaskAt) (regs : Regs) : Task :=
  { level := level, bank := d.bankActive, disp := disp, frame := none, frameless := true, at_ := at_, regs := regs, base := 0,
    f := none, hit := none, own := [], edits := [], mirror := none, locks := [], lockEngine := none, ran := 0,
    since := d.transit, budget := d.runBudget level, rxTime := 0, rxTransit := 0, arrTb0 := d.tbCount 0,
    arrTransit := d.transit, len := 0, cmd := none, stall := false }

def startRegs (id pc : Nat) (m : Vector Word 16) : Regs :=
  { Regs.zero with m := m, pc := BitVec.ofNat 64 pc, sp := BitVec.ofNat 64 (pageBase id + 0x8000) }

/-- A thread takes a task. -/
def Device.holdTask (d : Device) (e t id : Nat) (st : ThrState) : Device :=
  let d := d.setThr (thrKey e t) ⟨st, some id, d.scaf.stamp, false, false, false⟩
  let d := d.modScaf fun s => { s with stamp := s.stamp + 1, freed := s.freed.filter (· ≠ thrKey e t) }
  let d := match d.task id with | some x => d.occTask 0x601 e x | none => d
  d.lease 3 7 e id 1

/-- A due tick becomes a frameless task of its entry's level (R370, R380). -/
def Device.startTick (d : Device) (e t l n : Nat) : Device :=
  match d.freePage l, d.dispatchEntry (128 + n) with
  | some id, some (lv, pc) =>
    let m := ((zeroM.setIfInBounds 0 (BitVec.ofNat 32 (d.fld (Off.scafTick n) 27 24 * 1024))).setIfInBounds 1
      (BitVec.ofNat 32 (d.coatWord 0))).setIfInBounds 6 (BitVec.ofNat 32 (d.tbCount 0))
    let x := d.blankTask lv (128 + n) (.thread e t) (startRegs id pc m)
    ((d.setTask id x).writeHeader id x 0 0 d.transit).holdTask e t id .running
  | _, _ => d

/-- A punt becomes a task of its entry's level (R370): its header is written and its frame copied. The start of R110 is this dispatch,
before the frame's copy (DEDUCED, log, entry 128). One that has become BAD is discarded (R379), and so is one whose entry a code switch
has made invalid since it was listed, as at its arrival (DEDUCED from R372 and R376, assumption log, entry 61). -/
def Device.startPunt (d : Device) (e t l c n : Nat) : Device :=
  match d.copy c with
  | none => d
  | some y => match d.frame y.frame, d.freePage l with
    | some fr, some id =>
      if fr.bad then (d.occIng 0x106 fr (vecN y.m 7 % 256)).dropCopy c
      else match d.dispatchEntry n with
      | none => d.dropPunt c Off.scafNoEntry
      | some (lv, pc) =>
        let m := setField (setField (y.m.setIfInBounds 1 (BitVec.ofNat 32 (d.coatWord (vecN y.m 1)))) 3 31 0 (3 * 2 ^ 30)) 7 7 0 n
        let x := { d.blankTask lv n (.copying e t) (startRegs id pc m) with
          frame := some c, frameless := false, base := fr.base, edits := y.edits, rxTime := fr.rxTime
          rxTransit := fr.rxTransit, arrTb0 := fr.arrTb0, arrTransit := fr.arrTransit }
        (((d.setTask id x).writeHeader id x fr.bytes.length n d.transit).holdTask e t id .pulling).lease 0 7 e y.frame fr.cells
    | _, _ => d

/-- A saved task is restored on a thread (R369). -/
def Device.resumeTask (d : Device) (e t id : Nat) : Device :=
  (d.modTask id fun x => { x with at_ := .thread e t, since := d.transit }).holdTask e t id .running

/-- The head of a level goes to a thread. -/
def Device.dispatchLevel (d : Device) (e t l : Nat) : Device :=
  match d.readyList l with
  | [] => d
  | x :: rest =>
    let d := d.setReady l rest
    match x.item with
    | .task id => d.resumeTask e t id
    | .tick n => d.startTick e t l n
    | .punt c n => d.startPunt e t l c n

/-- The scaffold runs in Run and Trim. -/
def Device.scafRuns (d : Device) : Bool := !d.pwr.portsDown

/-- A free thread pulls: free threads are served in the order in which they became free, but a task bound to an engine by a lock
goes to a thread of that engine (R382, R389). -/
def Device.dispatch (d : Device) (e t : Nat) : Device :=
  let k := thrKey e t
  let first := (d.scaf.freed.find? fun k => d.domainOk 7 (k / 8)) == some k
  if !d.scafRuns || !d.domainOk 7 e || !d.scaf.freed.contains k then d
  else match d.nextLevel e fun _ => true with
    | none => d
    | some l =>
      let bound := match d.readyList l with
        | ⟨.task id, _⟩ :: _ => (match d.task id with | some x => x.lockEngine.isSome | none => false)
        | _ => false
      if first || bound then d.dispatchLevel e t l else d

/-- The copy of a frame into its task page completes: a frame that has become BAD meanwhile creates no task, the cells of
any other are freed, and the task starts, at an instruction boundary (R222, R373, R379, R392). -/
def Device.copyDone (d : Device) (e t : Nat) : Device :=
  match (d.thr (thrKey e t)).state, (d.thr (thrKey e t)).task with
  | .pulling, some id => match d.task id with
    | none => d
    | some x => match x.frame.bind d.copy with
      | none => d
      | some y => match d.frame y.frame, x.frame with
        | some fr, some c =>
          if fr.bad then ((((d.occIng 0x106 fr x.disp).unlease 0 y.frame).taskGone id).dropCopy c)
          else if !fr.done then d
          else
            let created := x.since
            let x := { x with frame := none, at_ := .thread e t, len := fr.bytes.length }
            let d := (d.setTask id x).writeHeader id x fr.bytes.length x.disp created
            let d := d.setSram (pageBase id + 0x40) fr.bytes
            let th := d.thr (thrKey e t)
            ((d.setThr (thrKey e t) { th with state := .running, bound := th.interrupt }).unlease 0 y.frame).dropCopy c
        | _, _ => d
  | _, _ => d

/-! ### Push tasks and pre-emption (R383, R384) -/

def Device.levelOf (d : Device) (k : Nat) : Nat :=
  match (d.thr k).task.bind d.task with | some x => x.level | none => 0

/-- The threads that hold pull tasks and have no interrupt. -/
def Device.victims (d : Device) : List Nat :=
  (d.scaf.threads.filter fun (k, t) => (t.state == .running || t.state == .pulling) && !t.interrupt && decide (d.levelOf k < 12) &&
    d.domainOk 7 (k / 8)).map (·.1)

/-- Whether a thread is stalled in a lookup or in a FENCE whose command is not done (R384). -/
def Device.stalled (d : Device) (k : Nat) : Bool := ((d.thr k).task.bind d.task).any fun x => x.cmd.isSome || x.stall

/-- The victim: the lowest level, and among equals the latest dispatch; stalled threads only where there is no other (R384). -/
def Device.victim (d : Device) : Option Nat :=
  let live := d.victims.filter fun k => !d.stalled k
  (if live.isEmpty then d.victims else live).foldl (fun best k => match best with
    | none => some k
    | some b =>
      if d.levelOf k < d.levelOf b ∨ (d.levelOf k = d.levelOf b ∧ (d.thr b).stamp < (d.thr k).stamp) then some k else best) none

def Device.isPush (l : Nat) : Bool := decide (12 ≤ l)

/-- A push task that is ready goes to a free thread, or interrupts a pull task, or waits (R383). -/
def Device.pushReady (d : Device) : Device :=
  let waiting := (d.scaf.ready.filter fun p => Device.isPush p.1).foldl (fun n p => n + p.2.length) 0
  let coming := (d.scaf.threads.filter fun p => p.2.interrupt && !p.2.spent).length
  if waiting = 0 || !d.scafRuns then d
  else match d.scaf.freed.find? fun k => d.domainOk 7 (k / 8) && (d.nextLevel (k / 8) Device.isPush).isSome with
    | some k => match d.nextLevel (k / 8) Device.isPush with
      | some l => d.dispatchLevel (k / 8) (k % 8) l
      | none => d
    | none =>
      if waiting ≤ coming then d
      else match d.victim with
        | some k => d.setThr k { d.thr k with interrupt := true }
        | none => d

/-- A thread at an instruction boundary with its interrupt set saves its pull task, which goes to the head of its ready list, and
takes the push task; when none waits any more it goes on (R384). -/
def Device.preemption (d : Device) (e t : Nat) : Device :=
  let k := thrKey e t
  let th := d.thr k
  match th.state, th.interrupt && th.bound, th.task with
  | .running, true, some id => match d.task id with
    | none => d
    | some x =>
      if 12 ≤ x.level || th.spent then d
      else match d.nextLevel e Device.isPush with
        | none => d.setThr k { th with interrupt := false, bound := false }
        | some l =>
          let d := (d.occTask 0x602 e x).unlease 3 id
          let d := d.modTask id fun x => { x with at_ := .ready, ran := x.ran + (d.transit - x.since) }
          let d := (d.setReady x.level (⟨.task id, d.transit⟩ :: d.readyList x.level)).endThread k
          d.dispatchLevel e t l
  | _, _, _ => d

/-- A thread's task is saved and leaves it: YIELD and WAIT of kinds 0 and 1 (R369). The thread is free when the save is done. -/
def Device.saveTask (d : Device) (e t id : Nat) (at_ : TaskAt) : Device :=
  let d := d.modTask id fun x => { x with at_ := at_, ran := x.ran + (d.transit - x.since) }
  (d.setThr (thrKey e t) { d.thr (thrKey e t) with state := .saving, interrupt := false, spent := false, bound := false }).unlease 3 id

def Device.saveDone (d : Device) (e t : Nat) : Device :=
  if (d.thr (thrKey e t)).state == .saving then d.endThread (thrKey e t) else d

/-! ### Timers, signals and ticks (R385 to R387) -/

/-- A timer armed for the first 1 µs boundary at or after the end of the wait; the list is kept by due time, then order of arming. -/
def Device.armTimer (d : Device) (id us : Nat) : Device :=
  let due := ceilDiv (d.transit + 1000 * us) 1000 * 1000
  d.modScaf fun s => { s with
    timers := (s.timers.filter fun t => t.due ≤ due) ++ [⟨due, id⟩] ++ (s.timers.filter fun t => due < t.due) }

def Device.timersDue (d : Device) : Device :=
  let due := d.scaf.timers.filter fun t => t.due ≤ d.transit
  let d := d.modScaf fun s => { s with timers := s.timers.filter fun t => d.transit < t.due }
  due.foldl (fun d t => d.wakeTask t.task) d

/-- A signal wakes every task that waits on it, in the order of their waits, or sets its pending bit (R386). -/
def Device.raiseSignal (d : Device) (n : Nat) : Device :=
  let ws := d.scaf.waiters.filter fun w => w.1 == n
  if ws.isEmpty then
    (if d.scaf.signals.contains n then d else d.modScaf fun s => { s with signals := s.signals ++ [n] })
  else
    let d := d.modScaf fun s => { s with waiters := s.waiters.filter fun w => w.1 ≠ n }
    ws.foldl (fun d w => d.wakeTask w.2) d

/-- Tick n is due every PERIOD µs while enabled; while its previous instance exists it is only counted (R387). -/
def Device.tickTask (d : Device) (n : Nat) : Device :=
  let period := 1000 * max 1 (d.fld (Off.scafTick n) 23 0)
  let last := NMap.getD d.scaf.tickLast n 0
  if !d.flag (Off.scafTick n) 31 ∨ d.transit < last + period then d
  else
    let d := d.modScaf fun s => { s with tickLast := NMap.set s.tickLast n (last + period) }
    let exists_ := (d.scaf.tasks.any fun p => p.2.disp == 128 + n) ||
      d.scaf.ready.any fun p => p.2.any fun i => i.item == .tick n
    if exists_ then d.bump Off.scafTickOver 1
    else match d.dispatchEntry (128 + n) with
      | some (l, _) => if 32768 ≤ d.workListed then d else d.addReady l (.tick n)
      | none => d

/-- The run budget of a thread's task is spent: its interrupt is set for exception BUDGET (R388). -/
def Device.budgetSpent (d : Device) (e t : Nat) : Bool :=
  match (d.thr (thrKey e t)).state, (d.thr (thrKey e t)).task.bind d.task with
  | .running, some x => decide (0 < x.budget) && decide (1000 * x.budget ≤ x.ran + (d.transit - x.since))
  | _, _ => false

/-! ### Automatic gating (R465) -/

/-- In Trim an engine that has held no task for SCAF_IDLE µs is gated while at least 8 others are powered. -/
def Device.scafIdle (d : Device) (e : Nat) : Device :=
  let powered := ((List.range 32).filter fun k => k != e && (d.dom 7 k).state != .stopped).length
  let idle := !(d.scaf.threads.any fun p => p.1 / 8 == e)
  let from_ := NMap.getD d.scaf.idleFrom e 0
  if d.pwrState = 1 ∧ d.flag Off.pwrTrim 30 ∧ idle ∧ 8 ≤ powered ∧ d.domainOk 7 e ∧
      from_ + 1000 * max 1 (d.fld Off.pwrTrim 15 0) ≤ d.transit then
    d.modDom 7 e fun x => { x with state := .stopped }
  else d

/-! ### The end of a task (R69, R381) -/

/-- The snapshot a task's frame takes to egress: bytes 80 to 127 of F with the task's own updates (DEDUCED, log, entry 36). -/
def Task.snapshot (x : Task) : List Byte :=
  match x.f with
  | some b => sliceB (updsApply b x.own) 80 48
  | none => List.replicate 48 0

/-- The frame a task sends: the first FRAME_LEN bytes of its frame copy. A staged edit, a snapshot or one of m8 to m15 that is not
zero takes an aside cell (R216). -/
def Device.taskFrame (d : Device) (id len : Nat) (x : Task) : Frame :=
  let aside := !x.edits.isEmpty || x.snapshot.any (· != 0) || (List.range 8).any fun j => x.regs.mN (8 + j) != 0
  let cells := cellsOf len + b2n aside
  { Frame.blank (x.regs.mN 0 % 1024) (d.sram (pageBase id + 0x40) len) with
    done := true, cells := cells, prov := cells, rxTransit := x.rxTransit, rxTime := x.rxTime, arrTb0 := x.arrTb0
    arrTransit := x.arrTransit, granted := true, m := x.regs.m, base := x.base, edits := x.edits, mirror := x.mirror
    pipe := pipeOf (x.regs.mN 0 % 1024), place := .pass, snap := x.snapshot }

/-- The frame of a task takes its disposition: internal ports, egress targets, or a discard. -/
def Device.disposeTask (d : Device) (f : Nat) : Device :=
  match d.frame f with
  | none => d
  | some x =>
    let d := match x.mirror with
      | some (p, aux) => d.makeMirror f p aux x.pipe x.snap
      | none => d
    let m3 := x.mN 3
    if forwards m3 then d.forwardOwn f x.pipe x.snap
    else if m3 / 2 ^ 30 = 0 ∧ 513 ≤ m3 % 2 ^ 16 ∧ m3 % 2 ^ 16 ≤ 515 then d.toInternal f (m3 % 2 ^ 16)
    else d.discardFrame f (x.mN 7 % 256)

def Device.endTask (d : Device) (id : Nat) : Device :=
  match d.task id with
  | none => d
  | some x =>
    let len := leNat (d.sram (pageBase id) 2)
    let m3 := x.regs.mN 3
    let fr := d.taskFrame id len x
    let d := d.taskGone id
    if x.frameless || m3 / 2 ^ 30 == 3 then d
    else if m3 / 2 ^ 30 = 0 ∧ m3 % 2 ^ 16 = 517 then d.occIng 0x106 fr (x.regs.mN 7 % 256)
    else if len < 64 ∨ 16383 < len then d.bump Off.scafEmitBad 1
    else if !d.admitScaf fr.cells then (d.bump Off.bufScafDrop 1).occIng 0x106 fr (x.regs.mN 7 % 256)
    else
      let f := d.buf.nextFrame
      ((d.addFrame fr).takeAside f).disposeTask f

end Sys2Proof.Machine
end

