-- ==== Sys2Proof/Machine/Init.lean ====
section
/-! DEFINITION. The block right after a cold reset: every register at its reset value, everything else empty or 0 (R442, R469,
R488). Host memory, SRAM and the render store's regions read as 0 before anything is written (assumption log, entry 1). -/

namespace Sys2Proof.Machine

def Power.reset : Power :=
  { flash := [], running := none, held := none, latched := 0, draining := false, portsDown := false, phase := .waits, kind := .cold,
    boot := [], tiles := [], awaiting := [], switch := none, flashOp := none, warned := false, alive := false, hb := false,
    thermtrip := false, squelch := true, lwSpans := [], tioHeld := none, heldAt := 0, data := [], wakeAddr := 0, wakeStatus := 0,
    recovery := [], islandFrom := 0, stopUntil := none, codeWait := none, lostDies := [], s5At := none, identity := [] }

def Device.reset : Device :=
  { regs := []
    hawk := { seq := 0, slots := [], log := [], logNext := 0 }
    fault := { doms := [], leases := [], waiting := [], stops := [], stopping := false }
    seats := []
    perf := { occ := [], written := [], frozen := false, freezeNext := none, enNow := [], snapNext := false, snapAt := none,
              waiting := [] }
    telem := { open_ := [], walks := [], last := [], templates := 0, sampleSec := 0, sampleCount := 0 }
    plumb := { transit := 0, tbs := [], tio := [], ppsOff := none, ppsSec := 0, ppsBase := 0, ppsSeen := none, ppsLost := false, integ := 0,
               inLock := 0, lastOffsetAt := 0, offsetGap := 0, aon := [], alarmFired := false, pdelaySeq := 0, pdelaySec := 0 }
    coats := { slots := [], cur := none, staged := [], pending := none, verifying := none, egress := [], egOrder := [],
               settling := [], old := [], order := [], stagedAddrs := [], logFull := false, damaged := [], images := [] }
    pipes := { q := [], reload := [] }
    ctxs := []
    ectxs := []
    buf := { frames := [], copies := [], nextFrame := 0, nextCopy := 0, voqs := [], contract := 65536, recirc := 16384, scaf := 8192, headroom := [], drain := [],
             asserted := [], repl := [] }
    ports := []
    scheds := []
    quotes := []
    spread := { groups := [], floats := [], holdOrder := [], twins := [], gens := [] }
    flow := { render := [], skim := [], runs := [], lodge := [], absent := [], learn := [], tokens := [], wbq := [],
              installs := (0, 0), soft := [], walk := 0, changed := [], held := [], moved := 0, evicted := 0, stuck := 0,
              masks := [], tuning := ⟨10, 1, 15, 1200, 2000000⟩, ghosts := [], nextGhost := 2 ^ 26, fullMs := none }
    rstore := { chans := [], nextReq := 0, bytes := [], lastReq := [], writeRef := [], portErr := [], poison := [] }
    scaf := { sram := [], tasks := [], threads := [], ready := [], timers := [], signals := [], waiters := [], tickLast := [],
              freed := List.range 256, stamp := 0, idleFrom := [], codeLo := 0, idxOver := false, micro := [], patch := [] }
    spans := []
    pwr := Power.reset
    jtag := ⟨.reset, .idcode, []⟩
    freeCtr := 0 }

end Sys2Proof.Machine
end

