-- ==== Sys2Proof/Machine/State.lean ====
section
/-! DEFINITION. The state of the block with its queue of waiting commands, the state after reset, and the ways a command could end
other than in a next state. -/

namespace Sys2Proof.Machine

/-- The AQ7102 and the commands that wait for it, first in, first out. -/
structure State where
  dev : Device
  pending : List Instr
deriving DecidableEq, Repr

/-- Right after a cold reset, with no command waiting (R469). -/
def State.reset : State := ⟨Device.reset, []⟩

/-- Nothing that a command can meet stops the block, and no rule of the spec describes such a stop: there is no fault. -/
inductive Fault where
deriving DecidableEq, Repr

/-- Why a command could be turned away. -/
inductive Refusal where
  /-- Raised by the arm of a command that has no meaning yet; safe, since nothing follows from it. No arm raises it. -/
  | notModelled (mnemonic : String)
deriving DecidableEq, Repr

end Sys2Proof.Machine
end

