-- ==== Sys2Proof/Machine/Lath.lean ====
section
/-! DEFINITION. Lath spans: enabling spans, channels and maps, the lane receivers, containers and streams, the sender, defects and
protection (R314 to R334). -/

namespace Sys2Proof.Machine

/-! ### The span and its lanes (R314) -/

def Device.spanFirst (d : Device) (s : Nat) : Nat := d.fld (Off.lathCtl s) 8 0

def Device.spanLanes (d : Device) (s : Nat) : List Nat := (List.range (d.spanL s)).map (d.spanFirst s + ·)

def spanSource (s : Nat) : Nat := 320 + s

/-- The working span of the protection group of `s`, itself where it is the working span or in no group (R332). -/
def Device.working (d : Device) (s : Nat) : Nat := (d.protects s).getD s

/-- The protect span of a working span's group. -/
def Device.partner (d : Device) (w : Nat) : Option Nat :=
  if d.flag (Off.lathApsCtl w) 31 then some (d.fld (Off.lathApsCtl w) 28 24) else none

/-! ### Defects (R330) -/

/-- LOS on a lane of the span (R296). -/
def Device.spanLos (d : Device) (s : Nat) : Bool := (d.spanLanes s).any fun l => d.flag (Off.laneStatus l) 4

/-- Whether a defect marked F holds. -/
def Device.spanFailed (d : Device) (s : Nat) : Bool :=
  let v := d.reg (Off.lathStatus s)
  d.spanLos s || bits v 15 8 != 0 || bits v 23 16 != 0 || bit v 25 || bit v 26 || bit v 30 ||
    (bit v 29 && d.flag (Off.lathCtl s) 28)

/-- UP follows the defects; the group's port is flushed when it goes down (R236, R330, R332). -/
def Device.showSpan (d : Device) (s : Nat) : Device :=
  let w := d.working s
  let before := d.groupUp w
  let d := d.setFlag (Off.lathStatus s) 31 (d.spanEn s && !d.spanFailed s)
  if before && !d.groupUp w then d.flushPort (d.spanFirst w) else d

/-- The event of a defect that is set or cleared; the two words that name the defects have no layout in the spec and are free
values (R330, R437). -/
def Device.defectEvent (d : Device) (s : Nat) (set : Bool) : Device :=
  let (d, a) := d.free 5
  let (d, b) := d.free 5
  d.raise (spanSource s) (if set then Sev.warn else Sev.info) Cause.spanDefect a b

/-- A defect bit of LATH_STATUS set or cleared, with its event (R330). -/
def Device.setDefect (d : Device) (s n : Nat) (v : Bool) : Device :=
  if d.flag (Off.lathStatus s) n == v then d
  else ((d.setFlag (Off.lathStatus s) n v).defectEvent s v).showSpan s

/-- The clearing of LW once LOS or LOF has been declared and cleared. -/
def Device.lwClear (d : Device) (s : Nat) : Device :=
  let bad := d.spanLos s || d.fld (Off.lathStatus s) 15 8 != 0
  if !d.flag (Off.lathStatus s) 30 then d
  else if bad then d.modSpan s fun x => { x with losSeen := true }
  else if (d.span s).losSeen then d.setDefect s 30 false else d

/-- LW is declared, with its own event (R330, R331, R437). -/
def Device.lwSet (d : Device) (s : Nat) : Device :=
  if d.flag (Off.lathStatus s) 30 then d
  else
    let d := (d.setDefect s 30 true).modSpan s fun x => { x with losSeen := false }
    let (d, a) := d.free 5
    let (d, b) := d.free 5
    d.raise (spanSource s) Sev.warn Cause.lwReceived a b

/-! ### Received containers (R322 to R325, R330, R333) -/

/-- A frame received whole on a span: its FCS is checked, and a good one is admitted and joins pipeline FIRST / 16 under the working
span's port number, with the arrival class of its stream (R314, R324, R325). Its readings are those of its first word, which came
`ago` × 2^−16 ns before now (R343). -/
def Device.spanFrame (d : Device) (w cls : Nat) (b : List Byte) (ago : Nat) : Device :=
  let p := d.spanFirst w
  if b.length < 5 || leNat (b.drop (b.length - 4)) != crc32 (b.take (b.length - 4)) then
    (d.bump (Off.lathRxFcsErr w) 1).occPort 0x005 1 (some cls) p
  else
    let d := d.bump (Off.lathRxFrames w) 1
    let d := (d.occPort 0x001 1 (some cls) p).occPort 0x002 b.length (some cls) p
    let f := d.buf.nextFrame
    let (x, bad) := d.strip p b false (some cls)
    (d.takeIn { x with rxTransit := x.rxTransit - ago, rxTime := x.rxTime - ago } bad).frameWhole f

/-- Whether a lath word's CRC-16 is right (R322). -/
def wordOk (w : DWord) : Bool := w.toNat % 65536 == lathCrc w.toNat

/-- The bytes of stream words. -/
def wordBytes (l : List DWord) : List Byte := l.flatMap fun w => bytesBE 8 w.toNat

/-- The frames at the front of a stream; `fuel` bounds their number by the words held. A header whose CRC fails discards the stream
until its next FIRST (R324). -/
def Device.takeFrames (d : Device) (w ch : Nat) : Nat → Device
  | 0 => d
  | fuel + 1 =>
    let x := NMap.getD (d.span w).rx ch ⟨true, []⟩
    let put (d : Device) (y : RxStream) : Device := d.modSpan w fun q => { q with rx := NMap.set q.rx ch y }
    match x.words with
    | [] => d
    | (_, h) :: t =>
      if !wordOk h then put ((d.bump (Off.lathHdrErr w) 1).bump (Off.lathRxFcsErr w) 1) ⟨true, []⟩
      else
        let len := h.toNat / 2 ^ 50
        let n := ceilDiv len 8
        if len = 0 then (put d ⟨false, t⟩).takeFrames w ch fuel
        else if t.length < n then d
        else
          let cls := if ch = 0 then bits h.toNat 49 47 else 7
          let ago := d.transit * 65536 - (t.headD (0, 0)).1
          ((put d ⟨false, t.drop n⟩).spanFrame w cls ((wordBytes ((t.take n).map (·.2))).take len) ago).takeFrames w ch fuel

/-- A stream discards what it holds until its next FIRST; a frame of which a part has come is lost as one with a bad FCS (R324). -/
def Device.dropStream (d : Device) (w ch : Nat) : Device :=
  let x := NMap.getD (d.span w).rx ch ⟨true, []⟩
  let d := if x.words.isEmpty then d else d.bump (Off.lathRxFcsErr w) 1
  d.modSpan w fun q => { q with rx := NMap.set q.rx ch ⟨true, []⟩ }

/-- One slot of a span container (R323, R324): its words after any lane headers, with their times. -/
def Device.takeSlot (d : Device) (w : Nat) (words : List (Nat × DWord)) : Device :=
  match words with
  | [] => d
  | (_, sw) :: pay =>
    let ch := sw.toNat / 2 ^ 58
    if !wordOk sw then (d.bump (Off.lathHdrErr w) 1).dropStream w ch
    else
      let first := bits sw.toNat 56 46
      let x := NMap.getD (d.span w).rx ch ⟨true, []⟩
      let new := if x.skip then (if first < pay.length then some (pay.drop first) else none) else some (x.words ++ pay)
      match new with
      | none => d
      | some ws =>
        (d.modSpan w fun q => { q with rx := NMap.set q.rx ch ⟨false, ws⟩ }).takeFrames w ch (ws.length + 1)

/-- The words of slot j of a span container of L lanes after its lane headers. -/
def slotWords {α : Type} (l j : Nat) (c : List α) : List α :=
  let ws := (c.drop (16 * l * j)).take (16 * l)
  if j = 0 then ws.drop l else ws

/-- The words of a span container of L lanes with the times of their arrival: 2,560 L words in 1,638.4 ns (R315, R321). -/
def RxContainer.timed (c : RxContainer) (l : Nat) : List (Nat × DWord) :=
  (List.range c.words.length).zipWith (fun k w => (c.ended - (2560 * l - k) * 4194304 / (100 * l), w)) c.words

/-- LW of the slot words of a container, delivered or not: in 2 in a row it is declared (R330). -/
def Device.lookLw (d : Device) (s : Nat) (c : List DWord) : Device :=
  (List.range 160).foldl (fun d j =>
    match slotWords (d.spanL s) j c with
    | [] => d
    | sw :: _ =>
      let run := if wordOk sw && bit sw.toNat 57 then (d.span s).lwRun + 1 else 0
      let d := d.modSpan s fun q => { q with lwRun := run }
      if 2 ≤ run then d.lwSet s else d) d

/-- A span container is delivered: its slots in order. One that does not follow the last one delivered ends every stream's unfinished
frames (R333). -/
def Device.deliverOne (d : Device) (s w : Nat) (c : RxContainer) : Device :=
  let follows := match (d.span w).last with | some n => (n + 1) % 2 ^ 32 == c.seq | none => true
  let d := if follows then d else (NMap.keys (d.span w).rx).foldl (fun d ch => d.dropStream w ch) d
  let d := (List.range 160).foldl (fun d j => d.takeSlot w (slotWords (d.spanL s) j (c.timed (d.spanL s)))) d
  d.modSpan w fun q => { q with last := some c.seq }

/-- Whether container number `a` comes after `b`, modulo 2^32. -/
def seqAfter (a b : Nat) : Bool := a != b && decide ((a + 2 ^ 32 - b) % 2 ^ 32 < 2 ^ 31)

/-- The span whose containers a group delivers: the working or, with SEL = 1, the protect span (R332). -/
def Device.selected (d : Device) (w : Nat) : Nat :=
  match d.partner w with
  | some p => if d.flag (Off.lathApsStatus w) 31 then p else w
  | none => w

/-- Every container the selected span holds that comes after the last one delivered is delivered, in order; a failed span delivers
nothing (R330, R333). -/
def Device.deliverHeld (d : Device) (w : Nat) : Device :=
  let s := d.selected w
  if !d.spanUp s then d
  else (d.span s).kept.foldl (fun d c =>
    let fresh := match (d.span w).last with | some m => seqAfter c.seq m | none => true
    if fresh then d.deliverOne s w c else d) d

/-- CSEQ of a lane container's header. -/
def headSeq (c : List DWord) : Nat := (c.headD 0).toNat / 2 ^ 32

/-- A lane container has arrived, `more` words before the end of the lath frame it ends in: a header whose CRC fails declares LOA
(R322). -/
def Device.laneContainer (d : Device) (s lane : Nat) (c : List DWord) (more : Nat) : Device :=
  if !wordOk (c.headD 0) then (d.modSpan s fun q => { q with goodCont := 0 }).setDefect s 25 true
  else d.modSpan s fun q => { q with
    waiting := q.waiting ++ [⟨lane, headSeq c, c, d.transit * 65536 - more * 4194304 / 100⟩] }

/-- The span words of L lane containers: span word k is word ⌊k / L⌋ of lane k mod L (R322). -/
def interleave (l : Nat) (cs : List (List DWord)) : List DWord :=
  (List.range (2560 * l)).map fun k => (cs.getD (k % l) []).getD (k / l) 0

/-- The waiting containers of one CSEQ, by lane, where every lane has one. -/
def Device.containerSet (d : Device) (s n : Nat) : Option (List RxContainer) :=
  (List.range (d.spanL s)).mapM fun i => (d.span s).waiting.find? fun c => c.lane == i && c.seq == n

/-- The first complete set of lane containers of one CSEQ (R322). -/
def Device.firstSet (d : Device) (s : Nat) : Option (List RxContainer) :=
  (d.span s).waiting.findSome? fun c => d.containerSet s c.seq

/-- The newest waiting container of each lane, where every lane has one. -/
def Device.newestHeads (d : Device) (s : Nat) : Option (List RxContainer) :=
  (List.range (d.spanL s)).mapM fun i => ((d.span s).waiting.filter fun c => c.lane == i).getLast?

/-- The containers of a list that came after one of its members. -/
def behind (c : RxContainer) (l : List RxContainer) : List RxContainer := (l.dropWhile (· ≠ c)).drop 1

/-- The waiting containers once a set is taken: on each lane those after it. -/
def afterSet (hs waiting : List RxContainer) : List RxContainer :=
  hs.flatMap fun h => behind h (waiting.filter fun c => c.lane == h.lane)

/-- The lanes' newest containers differ in CSEQ: twice in a row declares LOA. A lane keeps its last two, so that it comes into step again
after it has lost one (R322, R330). -/
def Device.containersDiffer (d : Device) (s : Nat) (hs : List RxContainer) : Device :=
  if (d.span s).compared = hs.map (·.seq) then d
  else
    let d := d.modSpan s fun q => { q with
      badCseq := q.badCseq + 1
      goodCont := 0
      compared := hs.map (·.seq)
      waiting := hs.flatMap fun h => let l := q.waiting.filter fun c => c.lane == h.lane; l.drop (l.length - 2) }
    if 2 ≤ (d.span s).badCseq then d.setDefect s 25 true else d

/-- All lane containers of one CSEQ have arrived: the span container is assembled, kept with the last 8, and delivered if its span is
the selected one. CSEQ values that differ in 2 consecutive containers declare LOA, and 16 assembled in a row clear it (R322,
R330, R333). -/
def Device.containerAssemble (d : Device) (s : Nat) : Device :=
  match d.firstSet s with
  | some hs =>
    let c : RxContainer := ⟨0, (hs.map (·.seq)).headD 0, interleave (d.spanL s) (hs.map (·.words)), (hs.map (·.ended)).foldl max 0⟩
    let d := d.modSpan s fun q => { q with
      waiting := afterSet hs q.waiting
      compared := []
      badCseq := 0
      goodCont := q.goodCont + 1
      kept := (q.kept ++ [c]).drop (q.kept.length - 7) }
    let d := (if 16 ≤ (d.span s).goodCont then d.setDefect s 25 false else d).lookLw s c.words
    d.deliverHeld (d.working s)
  | none => match d.newestHeads s with
    | some hs => d.containersDiffer s hs
    | none => d

/-! ### Protection (R332 to R334) -/

/-- The requests of a group's own: the command of its frames, span states, WTR and DNR, highest first by code (R334). -/
def Device.apsLocal (d : Device) (w p : Nat) : Nat :=
  let x := d.span w
  let cmd := x.apsCmd
  [if [15, 13, 7].contains cmd then cmd else 0, if d.spanUp p then 0 else 14, if d.spanUp w then 0 else 11,
    if d.flag (Off.lathStatus p) 27 then 10 else 0, if d.flag (Off.lathStatus w) 27 then 9 else 0,
    if x.wtr.isSome then 5 else 0, if x.dnr then 1 else 0].foldl max 0

/-- The codes of R334 that select the protect span. -/
def apsProtect (r : Nat) : Bool := [13, 11, 9, 7, 5, 1].contains r

def apsCodes : List Nat := [15, 14, 13, 11, 10, 9, 7, 5, 1, 0]

/-- The request in force: the local one, or in bidirectional mode the far one where it is higher. -/
def Device.apsRequest (d : Device) (w : Nat) : Nat :=
  let v := d.reg (Off.lathApsStatus w)
  if d.flag (Off.lathApsCtl w) 30 && decide (bits v 30 27 < bits v 26 23) then bits v 26 23 else bits v 30 27

/-- The selector turns to the other span, and resumes with the container that follows the last one delivered in full; those the new
span no longer holds are lost (R333). -/
def Device.apsTurn (d : Device) (w : Nat) (sel : Bool) : Device :=
  let d := (d.setFlag (Off.lathApsStatus w) 31 sel).bump (Off.lathApsSwitch w) 1
  let (d, a) := d.free 5
  let d := d.raise (spanSource w) Sev.info Cause.apsSwitch a (b2n sel)
  let held := (d.span (d.selected w)).kept
  let d := match (d.span w).last, held with
    | some n, c :: _ =>
      let next := (n + 1) % 2 ^ 32
      if seqAfter c.seq next then d.bump (Off.lathApsLost w) ((c.seq + 2 ^ 32 - next) % 2 ^ 32) else d
    | _, _ => d
  d.deliverHeld w

/-- A look at a group: SF-W or SD-W that has cleared leaves WTR or DNR behind, and the selector follows the highest request. -/
def Device.apsLook (d : Device) (s : Nat) : Device :=
  let w := d.working s
  match d.partner w with
  | none => d
  | some p =>
    if !(d.spanEn w && d.spanEn p) then d
    else
      let old := d.fld (Off.lathApsStatus w) 30 27
      let bad := !d.spanUp w || d.flag (Off.lathStatus w) 27
      let cleared := !bad && (d.span w).wasBad
      let d := d.modSpan w fun q => { q with wasBad := bad }
      let d := if bad then d.modSpan w fun q => { q with wtr := none, dnr := false }
        else if cleared then
          if d.flag (Off.lathApsCtl w) 29 then
            d.modSpan w fun q => { q with wtr := some (d.transit + 1000000000 * max 1 (d.fld (Off.lathApsCtl w) 15 0)) }
          else d.modSpan w fun q => { q with dnr := true }
        else d
      let now := d.apsLocal w p
      let d := if now = old then d else d.setFld (Off.lathApsStatus w) 30 27 now
      let sel := apsProtect (d.apsRequest w)
      if d.flag (Off.lathApsStatus w) 31 == sel then d else d.apsTurn w sel

/-- Loss of signal, loss of lock or a return of signal on a lane, with the span defect LOS of a span lane (R296, R330). -/
def Device.laneSignal (d : Device) (l : Nat) (f : Device → Nat → Device) : Device :=
  let was := d.flag (Off.laneStatus l) 4
  let d := f d l
  if d.flag (Off.laneStatus l) 4 == was then d
  else match (d.listed (Off.lathCtl 0) 0x4000 32).find? fun s => d.spanEn s && (d.spanLanes s).contains l with
    | some s => (((d.defectEvent s (!was)).showSpan s).lwClear s).apsLook s
    | none => d

/-- The wait-to-restore timer has expired: NR (R334). -/
def Device.wtrExpiry (d : Device) (w : Nat) : Device :=
  match (d.span w).wtr with
  | some t => if t ≤ d.transit then (d.modSpan w fun q => { q with wtr := none }).apsLook w else d
  | none => d

end Sys2Proof.Machine
end

