-- ==== Sys2Proof/Machine/LathLine.lean ====
section
/-! DEFINITION. The lath frame on the line: scrambling, the lane receivers with alignment, pointer and overhead, the sender with its
slots, and the periods and writes of a span (R314 to R321, R326 to R331). -/

namespace Sys2Proof.Machine

/-! ### The scrambler and BIP-32 (R317) -/

/-- Bits of the generator x^58 + x^39 + 1, first bit first, from 58 held bits `st` whose most significant is the oldest; all ones
first gives ones (DEDUCED, assumption log, entry 30). -/
def scrambleWord (st : Nat) : Nat × Nat :=
  (List.range 64).foldl (fun (acc : Nat × Nat) _ =>
    let out := b2n (acc.2.testBit 57)
    let new := b2n (acc.2.testBit 57 != acc.2.testBit 38)
    (acc.1 * 2 + out, acc.2 * 2 % 2 ^ 58 + new)) (0, st)

/-- Words added to the generator's sequence, from its state. -/
def scrambleFrom : Nat → List DWord → List DWord
  | _, [] => []
  | st, w :: t => (w ^^^ BitVec.ofNat 64 (scrambleWord st).1) :: scrambleFrom (scrambleWord st).2 t

/-- A lath frame scrambled or descrambled: word 0 never is. -/
def scramble (f : List DWord) : List DWord := f.take 1 ++ scrambleFrom (2 ^ 58 - 1) (f.drop 1)

/-- BIP-32 over words 1 to 2,569 of a frame as sent: bit j is the even parity of bit j of every word. -/
def bip32 (f : List DWord) : Nat := ((f.drop 1).foldl (fun (a : DWord) w => a ^^^ w) 0).toNat % 2 ^ 32

def faw : Nat := 0xF6F62828F6284C53

/-- The number of bits in which two numbers differ. -/
def bitsDiffer (n a b : Nat) : Nat := popcount n (a ^^^ b)

/-- The majority of three 2-bit copies; none where no two agree. -/
def majority3 (a b c : Nat) : Option Nat := if a = b ∨ a = c then some a else if b = c then some b else none

/-! ### Pointer and stuffing (R319, R320) -/

/-- The first location that carries a container word. -/
def stuffFirst (st : Nat) : Nat := if st = 1 then 2 else if st = 2 then 0 else 1

/-- The number of container words in a frame. -/
def stuffCount (st : Nat) : Nat := if st = 1 then 2559 else if st = 2 then 2561 else 2560

/-- The pointer of a frame whose next container starts `n` container words on. -/
def pointerFor (st n : Nat) : Nat := if n < stuffCount st then stuffFirst st + n else 0xFFF

/-- The words from the next frame's first location to the next container's start. -/
def startAfter (st n : Nat) : Nat := (n + 2 * 2560 - stuffCount st) % 2560

/-- The container words of a frame: location 0 is word 9. -/
def frameWords (st : Nat) (f : List DWord) : List DWord := (f.drop (9 + stuffFirst st)).take (stuffCount st)

/-! ### One lane's receiver (R318 to R320) -/

def LaneRx.reset : LaneRx := ⟨false, [], 0, 0, 0, 0, 0, none, none, none, 0⟩

def Device.lane (d : Device) (s i : Nat) : LaneRx := NMap.getD (d.span s).lanes i LaneRx.reset

def Device.modLane (d : Device) (s i : Nat) (f : LaneRx → LaneRx) : Device :=
  d.modSpan s fun x => { x with lanes := NMap.set x.lanes i (f (d.lane s i)) }

def Device.inLop (d : Device) (s i : Nat) : Bool := d.flag (Off.lathStatus s) (16 + i)

/-- HUNT: an exact match at a phase opens a candidate or counts for it, another drops it; the third makes IN_FRAME. Answers whether
the lane is in frame now. -/
def Device.hunt (d : Device) (s i phase : Nat) (word : DWord) : Device :=
  let x := d.lane s i
  let exact := word.toNat == faw
  let n := NMap.getD x.cands phase 0
  if !exact then d.modLane s i fun y => { y with cands := NMap.del y.cands phase }
  else if n = 2 then
    let d := d.modLane s i fun y => { y with
      inFrame := true, cands := [], phase := phase, errRun := 0, since := d.transit, toStart := none, part := none, bip := none }
    d.setDefect s i false
  else if n = 0 ∧ 64 ≤ x.cands.length then d
  else d.modLane s i fun y => { y with cands := NMap.set y.cands phase (n + 1) }

/-- IN_FRAME: the FAW is checked; the fourth errored one in a row makes OOF. -/
def Device.checkFaw (d : Device) (s i : Nat) (word : DWord) : Device :=
  let run := if 2 < bitsDiffer 64 word.toNat faw then (d.lane s i).errRun + 1 else 0
  if run < 4 then d.modLane s i fun y => { y with errRun := run }
  else
    let d := d.modLane s i fun y => { y with
      inFrame := false, cands := [], errRun := 0, since := d.transit, toStart := none, part := none, bip := none }
    d.setDefect s i true

/-- Container words are delivered to the container being collected, from the next container's start on; complete containers go on. -/
def Device.collect (d : Device) (s i : Nat) (start : Nat) (ws : List DWord) : Device :=
  let x := d.lane s i
  let head := ws.take start
  let d := match x.part with
    | some p => if (p ++ head).length = 2560 then d.laneContainer s i (p ++ head) (ws.length - start) else d
    | none => d
  let rest := ws.drop start
  if ws.length ≤ start then d.modLane s i fun y => { y with
    part := y.part.bind fun p => if (p ++ head).length = 2560 then none else some (p ++ head) }
  else
    let d := if 2560 ≤ rest.length then d.laneContainer s i (rest.take 2560) (rest.length - 2560) else d
    d.modLane s i fun y => { y with part := some (rest.drop (if 2560 ≤ rest.length then 2560 else 0)) }

/-- The pointer of a frame: a valid one lets the words through in NORM, 8 invalid ones in a row make LOP, and 3 pointers that agree
under the STUFF codes end it. A receiver new in frame takes the first pointer as it stands, and a
frame whose STUFF is not valid is read as NONE (DESIGN CHOICE, assumption log, entry 31). -/
def Device.pointer (d : Device) (s i : Nat) (f : List DWord) : Device :=
  let x := d.lane s i
  let w2 := (f.getD 2 0).toNat
  let ptr := bits w2 63 52
  let maj := majority3 (bits w2 51 50) (bits w2 49 48) (bits w2 47 46)
  let st := match maj with | some v => if v = 3 then 0 else v | none => 0
  let okStuff := match maj with | some v => v != 3 | none => false
  let d := if okStuff && st = 1 then d.bump (Off.lathStuffInc s) 1 else if okStuff && st = 2 then d.bump (Off.lathStuffDec s) 1 else d
  let shown := if stuffFirst st ≤ ptr ∧ ptr < stuffFirst st + stuffCount st then some (ptr - stuffFirst st) else none
  let predicted := x.toStart.map (pointerFor st)
  if d.inLop s i then
    let agrees := okStuff && predicted == some ptr
    let run := if agrees then x.goodPtr + 1 else if okStuff && shown.isSome then 1 else 0
    let next := if agrees then x.toStart.map (startAfter st) else shown.map (startAfter st)
    let d := d.modLane s i fun y => { y with goodPtr := run, toStart := next, part := none, badPtr := 0 }
    if 3 ≤ run then d.setDefect s (16 + i) false else d
  else
    let valid := okStuff && (predicted == some ptr || (predicted.isNone && shown.isSome))
    let bad := if valid then 0 else x.badPtr + 1
    let start := if x.toStart.isSome then x.toStart else shown
    let d := match start with
      | some n => (d.collect s i n (frameWords st f)).modLane s i fun y => { y with toStart := some (startAfter st n) }
      | none => d
    let d := d.modLane s i fun y => { y with badPtr := bad, goodPtr := 0 }
    if 8 ≤ bad then (d.modLane s i fun y => { y with part := none, toStart := none }).setDefect s (16 + i) true else d

/-- The overhead that only lane 0 carries: APS, RDI, LW and the trace (R316, R330, R334). -/
def Device.overhead0 (d : Device) (s : Nat) (f : List DWord) : Device :=
  let w3 := (f.getD 3 0).toNat
  let w4 := (f.getD 4 0).toNat
  let fcnt := (f.getD 1 0).toNat / 2 ^ 56
  -- the far request, read from the protect span only
  let d := match d.protects s with
    | none => d
    | some w =>
      let r := w3 / 2 ^ 60
      if !apsCodes.contains r then d
      else
        let x := d.span w
        let run := if x.farSeen = r then x.farRun + 1 else 1
        let d := d.modSpan w fun q => { q with farSeen := r, farRun := run }
        if 2 ≤ run then d.setFld (Off.lathApsStatus w) 26 23 r else d
  -- RDI over three frames either way
  let rdi := bit w4 63
  let run := if rdi == d.flag (Off.lathStatus s) 28 then 0 else (d.span s).rdiRun + 1
  let d := d.modSpan s fun q => { q with rdiRun := if run = 3 then 0 else run }
  let d := if run = 3 then d.setDefect s 28 rdi else d
  let d := if majority3 (b2n (bit w4 62)) (b2n (bit w4 61)) (b2n (bit w4 60)) = some 1 then d.lwSet s else d
  -- the trace, complete with the second frame of a multiframe
  let bytes := bytesBE 8 (f.getD 6 0).toNat
  let d := d.modSpan s fun q => { q with trace := patchB q.trace (8 * (fcnt % 2)) bytes }
  if fcnt % 2 = 0 then d
  else
    let t := (d.span s).trace
    let d := (List.range 4).foldl (fun d n => d.setReg (Off.lathTraceRx s n) (fieldBE t (4 * n) 4)) d
    let same := (List.range 4).all fun n => d.reg (Off.lathTraceExp s n) == fieldBE t (4 * n) 4
    let x := d.span s
    let d := d.modSpan s fun q => { q with timRun := if same then 0 else x.timRun + 1, timGood := if same then x.timGood + 1 else 0 }
    if 3 ≤ (d.span s).timRun then d.setDefect s 29 true else if 3 ≤ (d.span s).timGood then d.setDefect s 29 false else d

/-- The BIP-32 of the previous frame against word 5; the errors found are sent back as REI (R316). -/
def Device.checkBip (d : Device) (s i : Nat) (raw f : List DWord) : Device :=
  let errs := match (d.lane s i).bip with
    | some b => bitsDiffer 32 b ((f.getD 5 0).toNat / 2 ^ 32)
    | none => 0
  let d := (d.bump (Off.lathBipErr s) errs).modSpan s fun q => { q with bipPeriod := q.bipPeriod + errs }
  d.modLane s i fun y => { y with rei := errs, bip := some (bip32 raw) }

/-- A lath frame is received on lane `i` of a span at bit phase `phase`: its 2,570 words as sent, word 0 as received before FEC
decoding, and its uncorrectable codewords (R315, R318 to R320, R330). LOF clears once IN_FRAME has held for LOF_CLEAR. A span under recovery takes and
sends nothing (R447). -/
def Device.lathFrameReceive (d : Device) (s i phase : Nat) (raw : List DWord) (uncorr : Nat) : Device :=
  if !d.spanEn s || d.spanL s ≤ i || raw.length ≠ 2570 || !d.domainOk 8 s then d
  else
    let d := (d.bump (Off.lathFecUncorr s) uncorr).modSpan s fun q => { q with uncMs := q.uncMs + uncorr }
    let w0 := raw.headD 0
    let d := if (d.lane s i).inFrame then (if phase = (d.lane s i).phase then d.checkFaw s i w0 else d) else d.hunt s i phase w0
    let x := d.lane s i
    if !x.inFrame || phase ≠ x.phase then d
    else
      let f := scramble raw
      let d := d.checkBip s i raw f
      let d := if i = 0 then d.overhead0 s f else d
      let d := d.pointer s i f
      let hold := 1000000 * max 1 (d.fld (Off.lathDefCfg s) 23 16)
      let d := if d.flag (Off.lathStatus s) (8 + i) && decide (x.since + hold ≤ d.transit) then
          (d.setDefect s (8 + i) false).lwClear s else d
      d.apsLook s

/-! ### Periods and LOF (R330) -/

/-- OOF has held for LOF_SET on a lane: LOF. -/
def Device.lof (d : Device) (s i : Nat) : Device :=
  if d.spanEn s && decide (i < d.spanL s) && d.flag (Off.lathStatus s) i &&
      decide ((d.lane s i).since + 10000 * max 1 (d.fld (Off.lathDefCfg s) 31 24) ≤ d.transit) then
    ((d.setDefect s (8 + i) true).lwClear s).apsLook s
  else d

/-- A millisecond of codeword counting ends: SF. -/
def Device.sfPeriod (d : Device) (s : Nat) : Device :=
  if !d.spanEn s then d
  else
    let over_ := decide (d.fld (Off.lathDefCfg s) 15 8 < (d.span s).uncMs)
    let d := d.modSpan s fun q => { q with uncMs := 0, sfClean := if over_ then 0 else q.sfClean + 1 }
    let d := if over_ then d.setDefect s 26 true else if 10 ≤ (d.span s).sfClean then d.setDefect s 26 false else d
    d.apsLook s

/-- 100 ms of BIP-32 counting end: SD. -/
def Device.sdPeriod (d : Device) (s : Nat) : Device :=
  if !d.spanEn s then d
  else
    let over_ := decide (16 * d.fld (Off.lathDefCfg s) 7 0 < (d.span s).bipPeriod)
    let d := d.modSpan s fun q => { q with bipPeriod := 0, sdClean := if over_ then 0 else q.sdClean + 1 }
    let d := if over_ then d.setDefect s 27 true else if 10 ≤ (d.span s).sdClean then d.setDefect s 27 false else d
    d.apsLook s

/-! ### The sender (R319 to R324, R326, R327, R329, R331) -/

/-- Idle word: a header with LEN = 0 (R324). -/
def idleWord : DWord := withCrc 0

/-- `n` payload words of a stream, with the offset of the first frame header among them: what is left of the frame being sent, then
whole frames, then idle words. -/
def takeStream : Nat → Nat → List StreamWord → Nat → Option Nat → List DWord × List StreamWord × Nat × Option Nat
  | 0, left, q, _, first => ([], q, left, first)
  | n + 1, left, q, at_, first =>
    match left, q with
    | k + 1, h :: t => let (o, q', l, f) := takeStream n k t (at_ + 1) first; (h.word :: o, q', l, f)
    | _, [] => let (o, q', l, f) := takeStream n 0 [] (at_ + 1) (first.or (some at_)); (idleWord :: o, q', l, f)
    | 0, h :: t =>
      let (o, q', l, f) := takeStream n (ceilDiv (h.word.toNat / 2 ^ 50) 8) t (at_ + 1) (first.or (some at_)); (h.word :: o, q', l, f)

/-- Slot j of the next span container, with the last word flag where level S5 has been entered (R323, R327, R331). -/
def Device.fillSlot (d : Device) (s j : Nat) : Device × List DWord :=
  let l := d.spanL s
  let n := slotPayload l j
  let ch := d.slotChannel s j
  let x := d.span s
  let (ws, q, left, first) := takeStream n (NMap.getD x.txLeft ch 0) (NMap.getD x.tx ch []) 0 none
  let d := d.modSpan s fun y => { y with tx := NMap.set y.tx ch q, txLeft := NMap.set y.txLeft ch left }
  (d, withCrc (ch * 2 ^ 58 + b2n (decide (5 ≤ d.shed)) * 2 ^ 57 + first.getD 0x7FF * 2 ^ 46) :: ws)

/-- The words of the next span container: lane headers and 160 slots (R322, R323). -/
def Device.fillContainer (d : Device) (s : Nat) : Device × List DWord :=
  let heads := (List.range (d.spanL s)).map fun i =>
    withCrc ((d.span s).cseq * 2 ^ 32 + i * 2 ^ 29 + d.fld (Off.lathCtl s) 30 29 * 2 ^ 27)
  (List.range 160).foldl (fun (acc : Device × List DWord) j =>
    let (d, ws) := acc.1.fillSlot s j
    (d, acc.2 ++ ws)) (d, heads)

/-- The lane container of lane i (R322). -/
def laneOf (l i : Nat) (c : List DWord) : List DWord := (List.range 2560).map fun k => c.getD (k * l + i) 0

/-- The stuff of a lane whose queue holds `n` words at the frame's opportunity (R319): a queue of less than a frame's words is low, one of
more is high, and one of just as many is low or not, and a high one stuffed or not, as `want` has it (DESIGN CHOICE, log, entry
112). -/
def stuffFor (want n : Nat) : Nat :=
  if n < 2560 then 1 else if n = 2560 then (if want = 1 then 1 else 0) else if want = 2 then 2 else 0

/-- The overhead words 1 to 8 of a lane's next frame (R316, R330, R331, R334). -/
def Device.overheadWords (d : Device) (s i st ptr : Nat) : List DWord :=
  let w := d.working s
  let x := d.span s
  let zero (v : Nat) : DWord := if i = 0 then BitVec.ofNat 64 v else 0
  let aps := if (d.partner w).isSome then
      d.fld (Off.lathApsStatus w) 30 27 * 2 ^ 60 + b2n (d.flag (Off.lathApsStatus w) 31) * 2 ^ 59 +
        b2n (d.flag (Off.lathApsCtl w) 30) * 2 ^ 58 + b2n (d.flag (Off.lathApsCtl w) 29) * 2 ^ 57 else 0
  let lw := b2n (decide (5 ≤ d.shed))
  [BitVec.ofNat 64 (x.fcnt * 2 ^ 56 + i * 2 ^ 53 + d.fld (Off.lathCtl s) 30 29 * 2 ^ 51),
    BitVec.ofNat 64 (ptr * 2 ^ 52 + st * 2 ^ 50 + st * 2 ^ 48 + st * 2 ^ 46), zero aps,
    zero (b2n (d.spanFailed s) * 2 ^ 63 + lw * 7 * 2 ^ 60),
    BitVec.ofNat 64 (NMap.getD x.bipTx i 0 * 2 ^ 32 + (d.lane s i).rei % 2 ^ 32),
    zero (fieldBE x.traceTx (8 * (x.fcnt % 2)) 8), 0, 0]

/-- A lane sends one lath frame from its queue (R316 to R321). -/
def Device.sendLathFrame (d : Device) (s i want : Nat) : Device :=
  let q := NMap.getD (d.span s).txq i []
  let st := stuffFor want q.length
  let n := q.length % 2560
  let ptr := pointerFor st n
  let body := q.take (stuffCount st)
  let f := BitVec.ofNat 64 faw :: (d.overheadWords s i st ptr ++ (if st = 2 then body else if st = 0 then 0 :: body else [0, 0] ++ body))
  let raw := scramble f
  d.modSpan s fun x => { x with
    txq := NMap.set x.txq i (q.drop (stuffCount st))
    bipTx := NMap.set x.bipTx i (bip32 raw)
    out := NMap.set x.out i raw }

/-- The lanes of one span take their containers and send their frames; the trace is latched with a multiframe's first frame. -/
def Device.sendOn (d : Device) (s : Nat) (c : List DWord) (stuffs : List Nat) : Device :=
  let l := d.spanL s
  let d := d.modSpan s fun x => { x with
    txq := (List.range l).foldl (fun m i => NMap.set m i (NMap.getD m i [] ++ laneOf l i c)) x.txq
    traceTx := if x.fcnt % 2 = 0 then (List.range 4).flatMap fun n => bytesBE 4 (d.reg (Off.lathTraceTx s n)) else x.traceTx }
  let d := (List.range l).foldl (fun d i => d.sendLathFrame s i (stuffs.getD i 0)) d
  d.modSpan s fun x => { x with fcnt := (x.fcnt + 1) % 256 }

/-- The channels' buckets gain RATE words up to BURST (R326). -/
def Device.channelRefill (d : Device) (s : Nat) : Device :=
  (List.range 63).foldl (fun d k =>
    let v := d.reg (Off.lathChanCfg s k)
    if bit v 31 then d.modSpan s fun x => { x with tokens := NMap.set x.tokens (k + 1) (min (bits v 15 0) (NMap.getD x.tokens (k + 1) 0 + bits v 30 16)) }
    else d) d

/-- Every 1,638.4 ns a span container is produced, and each lane sends a frame with the stuff its queue asks for; a group's working
span produces it once for both spans (R321, R327, R332). -/
def Device.containerSend (d : Device) (s : Nat) (stuffs : List Nat) : Device :=
  if !d.spanEn s || (d.protects s).isSome || d.pwr.squelch || !d.domainOk 8 s then d
  else
    let d := ((d.channelRefill s).modSpan s fun x => { x with apsCmd := d.fld (Off.lathApsCtl s) 23 20 }).apsLook s
    let (d, c) := d.fillContainer s
    let d := d.modSpan s fun x => { x with cseq := (x.cseq + 1) % 2 ^ 32 }
    let d := d.sendOn s c stuffs
    match d.partner s with
    | some p => if d.spanEn p && d.spanL p == d.spanL s && d.domainOk 8 p then d.sendOn p c stuffs else d
    | none => d

/-! ### Writes (R314, R328, R329) -/

/-- Whether the registers of a span let it be enabled (R314). -/
def Device.spanOk (d : Device) (s : Nat) : Bool :=
  let ls := d.spanLanes s
  d.spanFirst s % d.spanL s == 0 &&
    ls.all (fun l => decide (l < 512) && d.fld (Off.laneCtl l) 21 20 == 1 && d.fld (Off.laneCtl l) 23 22 == 1) &&
    !(List.range 32).any fun t => t != s && d.spanEn t && ls.any fun l => (d.spanLanes t).contains l

/-- A refused write of a span: CFG_ERR and an event (R314, R328). -/
def Device.spanRefuse (d : Device) (s off v : Nat) : Device :=
  (d.setFlag (Off.lathCtl s) 27 true).raise (spanSource s) Sev.warn Cause.cfgRefused off v

/-- EN is written 1 on a disabled span: the span starts with every lane in HUNT (R314, R318). -/
def Device.enableSpan (d : Device) (s v : Nat) : Device :=
  if !d.spanOk s then d.spanRefuse s (Off.lathCtl s) v
  else
    let d := (d.setFlag (Off.lathCtl s) 31 true).modSpan s fun _ =>
      { Span.reset with lanes := (List.range (d.spanL s)).map fun i => (i, { LaneRx.reset with since := d.transit }) }
    (((List.range (d.spanL s)).foldl (fun d i => d.setDefect s i true) (d.setReg (Off.lathStatus s) 0)).showSpan s).apsLook s

/-- EN is written 0: the span stops, its defects are cleared (R330), and its port is flushed. -/
def Device.disableSpan (d : Device) (s : Nat) : Device :=
  let d := (d.setFlag (Off.lathCtl s) 31 false).showSpan s
  ((List.range 31).foldl (fun d n => d.setDefect s n false) d).modSpan s fun _ => Span.reset

/-- cap(x, n) of R328. -/
def Device.chanCap (d : Device) (s c x n : Nat) : Nat :=
  ((List.range n).map fun k => let j := (x + k) % 160; if d.slotChannel s j = c then slotPayload (d.spanL s) j else 0).sum

/-- The least n ≥ `n` whose slots hold the words that R328 asks for, up to 1,601. -/
def Device.chanWait (d : Device) (s c b r x : Nat) : Nat → Nat → Nat → Nat
  | 0, n, _ => n
  | fuel + 1, n, have_ =>
    if b + ceilDiv (r * n) 160 ≤ have_ then n
    else
      let j := (x + n) % 160
      d.chanWait s c b r x fuel (n + 1) (have_ + (if d.slotChannel s j = c then slotPayload (d.spanL s) j else 0))

/-- wmax of R328. -/
def Device.chanWmax (d : Device) (s c b r : Nat) : Nat :=
  ((List.range 160).map fun x => d.chanWait s c b r x 1700 1 (d.chanCap s c x 1)).foldl max 0

/-- EN of channel c is written 1: D_c is computed, or the write is refused (R328). -/
def Device.enableChannel (d : Device) (s k v : Nat) : Device :=
  let c := k + 1
  let off := Off.lathChanCfg s k
  let r := d.fld off 30 16
  let b := d.fld off 15 0
  if d.chanCap s c 0 160 < r + 1 then d.spanRefuse s off v
  else
    let w := d.chanWmax s c b r
    if 1600 < w then d.spanRefuse s off v
    else
      -- 40.0 + (wmax + 1) × 10.24 ns, in hundredths, rounded up to 100 ns
      let dc := ceilDiv (4000 + (w + 1) * 1024) 10000
      let fresh := !d.flag off 31
      ((d.setFlag off 31 true).setFld (Off.lathChanD s k) 15 0 dc).modSpan s fun x =>
        { x with tokens := if fresh then NMap.set x.tokens c b else x.tokens }

/-- Whether a map write may be taken: the channels it changes from and to are all disabled, channel 0 counting so (R329). Slot 0
ignores writes. -/
def Device.mapOk (d : Device) (s n v : Nat) : Bool :=
  (List.range 4).all fun j =>
    let old := d.fld (Off.lathMap s n) (8 * j + 5) (8 * j)
    let new := bits v (8 * j + 5) (8 * j)
    let off (c : Nat) : Bool := c == 0 || !d.flag (Off.lathChanCfg s (c - 1)) 31
    (n == 0 && j == 0) || old == new || (off old && off new)

end Sys2Proof.Machine
end

