-- ==== Sys2Proof/Machine/Parse.lean ====
section
/-! DEFINITION. The parser: the header chain, its codes and their order, and the length bound (R121 to R128). -/

namespace Sys2Proof.Machine

/-- What the parser reads of a pass: the window, its base, the frame's data end when the window contains the frame's last
byte (R126), TBL_PARSE_CTL, and the length bound as it stood at the pass's entry. -/
structure ParseIn where
  w : List Byte
  base : Nat
  dataEnd : Option Nat
  stpid : Nat
  ipinip : Bool
  csum : Bool
  bound : Option Nat
deriving DecidableEq, Repr

/-- The conditions of R124 found so far, and the length bound. -/
structure ParseOut where
  pastEnd : Bool := false
  truncated : Bool := false
  badVersion : Bool := false
  conflict : Bool := false
  badCsum : Bool := false
  fragment : Bool := false
  options : Bool := false
  beyond : Bool := false
  bound : Option Nat
deriving DecidableEq, Repr

/-- The code of highest precedence (R124). -/
def ParseOut.code (p : ParseOut) : Nat :=
  if p.pastEnd then 0x07
  else if p.truncated then 0x01
  else if p.badVersion then 0x08
  else if p.conflict then 0x03
  else if p.badCsum then 0x09
  else if p.fragment then 0x04
  else if p.options then 0x05
  else if p.beyond then 0x06
  else 0

/-- The window offset past the last byte the parser can read: the window's end or the data end (R125). -/
def ParseIn.lim (i : ParseIn) : Nat :=
  match i.dataEnd with
  | some e => min 64 (e - i.base)
  | none => 64

/-- Whether the parser can read window bytes `o` to `o + n − 1`. -/
def ParseIn.can (i : ParseIn) (o n : Nat) : Bool := decide (o + n ≤ i.lim)

def ParseIn.rd (i : ParseIn) (o n : Nat) : Nat := fieldBE i.w o n

/-- A chain that needs a byte it cannot read: TRUNCATED when the frame ends within the window, else BEYOND_WINDOW (R124,
R126). -/
def ParseIn.short (i : ParseIn) (p : ParseOut) : ParseOut :=
  if i.dataEnd.isSome then { p with truncated := true } else { p with beyond := true }

/-- A claimed end, as a frame offset, is read: conflicts 3 and 6 of R127, then it is taken into the bound (R128). -/
def ParseIn.claim (i : ParseIn) (p : ParseOut) (e : Nat) : ParseOut :=
  let over1 := match p.bound with | some b => decide (b < e) | none => false
  let over2 := match i.dataEnd with | some d => decide (d < e) | none => false
  { p with
    conflict := p.conflict || over1 || over2
    bound := some (match p.bound with | some b => min b e | none => e) }

/-- A UDP header at `o`; `ipEnd` is the claimed end of its IP header, and of a fragment the lengths are not compared
(R127, condition 4). -/
def ParseIn.udp (i : ParseIn) (p : ParseOut) (o ipEnd : Nat) (frag : Bool) : ParseOut :=
  let p := if i.can (o + 4) 2 then
      let l := i.rd (o + 4) 2
      if l < 8 || (!frag && i.base + o + l != ipEnd) then { p with conflict := true } else p
    else p
  if i.can o 8 then p else i.short p

/-- A TCP header at `o` (R127, condition 5). -/
def ParseIn.tcp (i : ParseIn) (p : ParseOut) (o ipEnd : Nat) : ParseOut :=
  let p := if i.can (o + 12) 1 then
      let n := i.rd (o + 12) 1 / 16
      if n < 5 || decide (ipEnd < i.base + o + 4 * n) then { p with conflict := true } else p
    else p
  if i.can o 20 then p else i.short p

/-- What follows an IP header. -/
inductive Follow where
  | udp | tcp | ip4 | ip6 | done
deriving DecidableEq, Repr

def ParseIn.follow (i : ParseIn) (proto : Nat) : Follow :=
  if proto = 17 then .udp
  else if proto = 6 then .tcp
  else if proto = 4 && i.ipinip then .ip4
  else if proto = 41 && i.ipinip then .ip6
  else .done

/-- The extension headers of an IPv6 header from `o`: the outcome so far, and what follows at which offset, with whether the
header chain was that of a fragment with M = 1 (R123, R124, R127). -/
def ParseIn.exts (i : ParseIn) (ipEnd : Nat) : Nat → ParseOut → Nat → Nat → Bool → ParseOut × Option (Nat × Nat × Bool)
  | 0, p, _, _, _ => (p, none)
  | fuel + 1, p, nh, o, frag =>
    if nh = 0 ∨ nh = 43 ∨ nh = 60 then
      let p := { p with options := true }
      if !i.can (o + 1) 1 then (i.short p, none)
      else
        let n := 8 * (i.rd (o + 1) 1 + 1)
        let p := if ipEnd < i.base + o + n then { p with conflict := true } else p
        if i.can o n then i.exts ipEnd fuel p (i.rd o 1) (o + n) frag else (i.short p, none)
    else if nh = 44 then
      let p := { p with fragment := true }
      let p := if ipEnd < i.base + o + 8 then { p with conflict := true } else p
      if !i.can o 8 then (i.short p, none)
      else if i.rd (o + 2) 2 / 8 ≠ 0 then (p, none)
      else i.exts ipEnd fuel p (i.rd o 1) (o + 8) (frag || bit (i.rd (o + 2) 2) 0)
    else if nh = 59 then (p, none)
    else (p, some (nh, o, frag))

mutual

/-- An IPv4 header at `o` (R123 to R127). A wrong version nibble, an IHL below 5 or a total length short of the header ends the parse
there; a header that also runs past the data end is TRUNCATED, which outranks them (R124). -/
def ParseIn.ip4 (i : ParseIn) : Nat → ParseOut → Nat → ParseOut
  | 0, p, _ => p
  | fuel + 1, p, o =>
    if !i.can o 1 then i.short p
    else
      let ihl := i.rd o 1 % 16
      let ends (p : ParseOut) : ParseOut := if i.can o (4 * ihl) then p else i.short p
      if i.rd o 1 / 16 ≠ 4 then ends { p with badVersion := true } else
      let p := if 5 < ihl then { p with options := true } else p
      let p := if i.can (o + 6) 2 ∧ i.rd (o + 6) 2 % 2 ^ 14 ≠ 0 then { p with fragment := true } else p
      if ihl < 5 ∨ (i.can (o + 2) 2 ∧ i.rd (o + 2) 2 < 4 * ihl) then ends { p with conflict := true }
      else
        let ipEnd := i.base + o + i.rd (o + 2) 2
        let p := if i.can (o + 2) 2 then i.claim p ipEnd else p
        if !i.can o (4 * ihl) then i.short p
        else
          let p := if i.csum && onesSum (sliceB i.w o (4 * ihl)) != 0xFFFF then { p with badCsum := true } else p
          let fo := i.rd (o + 6) 2
          let n := o + 4 * ihl
          if fo % 2 ^ 13 ≠ 0 then p
          else match i.follow (i.rd (o + 9) 1) with
            | .udp => i.udp p n ipEnd (bit fo 13)
            | .tcp => i.tcp p n ipEnd
            | .ip4 => i.ip4 fuel p n
            | .ip6 => i.ip6 fuel p n
            | .done => p

/-- An IPv6 header at `o` (R123 to R127). -/
def ParseIn.ip6 (i : ParseIn) : Nat → ParseOut → Nat → ParseOut
  | 0, p, _ => p
  | fuel + 1, p, o =>
    if !i.can o 1 then i.short p
    else if i.rd o 1 / 16 ≠ 6 then (if i.can o 40 then { p with badVersion := true } else i.short { p with badVersion := true })
    else
      let ipEnd := i.base + o + 40 + i.rd (o + 4) 2
      let p := if i.can (o + 4) 2 then i.claim p ipEnd else p
      if !i.can o 40 then i.short p
      else match i.exts ipEnd 9 p (i.rd (o + 6) 1) (o + 40) false with
        | (p, none) => p
        | (p, some (nh, n, frag)) => match i.follow nh with
          | .udp => i.udp p n ipEnd frag
          | .tcp => i.tcp p n ipEnd
          | .ip4 => i.ip4 fuel p n
          | .ip6 => i.ip6 fuel p n
          | .done => p

end

/-- The most IP headers a window can hold. -/
def ipFuel : Nat := 4

/-- An MPLS label stack from `o` (R123). The payload's version nibble itself names it, so it raises no BAD_VERSION. -/
def ParseIn.mpls (i : ParseIn) : Nat → ParseOut → Nat → ParseOut
  | 0, p, _ => p
  | fuel + 1, p, o =>
    if !i.can o 4 then i.short p
    else if !bit (i.rd (o + 2) 1) 0 then i.mpls fuel p (o + 4)
    else if i.dataEnd = some (i.base + o + 4) then p
    else if !i.can (o + 4) 1 then i.short p
    else match i.rd (o + 4) 1 / 16 with
      | 4 => i.ip4 ipFuel p (o + 4)
      | 6 => i.ip6 ipFuel p (o + 4)
      | _ => p

/-- The offset of the Ethertype after up to two tags; none when it cannot be read. -/
def ParseIn.ethertypeAt (i : ParseIn) (o : Nat) : Nat → Option Nat
  | 0 => if i.can o 2 then some o else none
  | fuel + 1 =>
    if !i.can o 2 then none
    else if i.rd o 2 = 0x8100 ∨ i.rd o 2 = i.stpid then i.ethertypeAt (o + 4) fuel
    else some o

/-- An Ethernet header at window byte 0 (R123). -/
def ParseIn.eth (i : ParseIn) (p : ParseOut) : ParseOut :=
  match i.ethertypeAt 12 2 with
  | none => i.short p
  | some o =>
    let ty := i.rd o 2
    if ty = 0x0800 then i.ip4 ipFuel p (o + 2)
    else if ty = 0x86DD then i.ip6 ipFuel p (o + 2)
    else if ty = 0x8847 ∨ ty = 0x8848 then i.mpls 17 p (o + 2)
    else p

/-- The chain by start kind: ETH, IPV4, IPV6, MPLS, NONE (R122). -/
def ParseIn.start (i : ParseIn) (k : Nat) (p : ParseOut) : ParseOut :=
  match k with
  | 0 => i.eth p
  | 1 => i.ip4 ipFuel p 0
  | 2 => i.ip6 ipFuel p 0
  | 3 => i.mpls 17 p 0
  | _ => p

/-- One parse from a start kind (R121): the code and the length bound. A window base at or beyond the data end leaves
nothing to read. -/
def ParseIn.run (i : ParseIn) (k : Nat) : Nat × Option Nat :=
  if i.dataEnd.any fun e => decide (e ≤ i.base) then (0x07, i.bound)
  else
    let r := i.start k { bound := i.bound }
    (r.code, r.bound)

end Sys2Proof.Machine
end

