-- ==== Sys2Proof/Machine/Line.lean ====
section
/-! DEFINITION. Dravea in line form: the contexts of the stations, slot grants, the step sequencer, the effects of the line
instructions, and the end of a pass (R32 to R75, R80 to R102, R121 to R129, R160 to R163). -/

namespace Sys2Proof.Machine

/-! ### The flow step (R43, R59 to R61, R160 to R163, R173) -/

/-- The result of a flow hit: pinned, stale and the handle (R59). -/
def flowResult (h : Nat) (rec : List Byte) : BitVec 128 :=
  BitVec.ofNat 128 (2 ^ 127 + b2n (recPinned rec) * 2 ^ 125 + b2n (recStale rec) * 2 ^ 124 + h % 2 ^ 26)

/-- The flow step of an ingress frame, in the station its context has entered: F takes the record's values with every update of the
frames before it, and the frame takes its place in the update order. `beyond`: four flow steps on the record come before it in
its station time (R163). A frame that parks, or that the lodge turns away, executes nothing from here on (R61). -/
def Device.flowStep (d : Device) (fr : Nat) (f : FmtL) (key : List Byte) (beyond : Bool) : Device :=
  match NMap.get? d.ctxs fr, d.frame fr with
  | some x, some y =>
    let i : FlowId := ⟨f.tbl.toNat % 16, key⟩
    let out := d.lkfOutcome fr y.parks i (bit x.spaces i.space)
    let d := match out with
      | .hit h => d.occIng 0x201 y h
      | _ => d.occIng 0x202 y i.space
    let results (ws : List Wr) : Device := d.setLine (.ing fr) (ws.foldl Ctx.applyWr x)
    let stopped : Device := d.setLine (.ing fr) { x with stopAt := some x.station }
    match out with
    | .hit h =>
      let b := (d.authCopy h).getD []
      (results (.flowHit h b :: lookupWrs f (flowResult h b))).hitRecord fr h beyond
    | .miss => results (lookupWrs f 0)
    | .park => (stopped.occIng 0x103 y y.port).parkOn fr i
    | .full lim => (stopped.lodgeFull i lim).modFrame fr fun y => { y with punt := some 0x21 }
    | .abort => stopped.modFrame fr fun y => { y with punt := some 0x25 }
  | _, _ => d

/-- The flow lookup whose result returns at station `s`. -/
def Ctx.flowDue (x : Ctx) (s : Nat) : Option (FmtL × List Byte × Bool) :=
  x.pend.findSome? fun p => match p.2 with
    | .lkf f k b => if p.1 = s then some (f, k, b) else none
    | _ => none

/-- A context enters station `s`: the results visible from there are written, and a flow step due there is taken. -/
def Device.arrive (d : Device) (who : Who) (x : Ctx) (s : Nat) : Device :=
  let d := d.setLine who (({ x with station := s }).settleAt s)
  match who, x.flowDue s with
  | .ing fr, some (f, k, b) => d.flowStep fr f k b
  | _, _ => d

/-- A context that executes no more is carried on to station `st`, and its results with it (R56, R61). -/
def Device.carry (d : Device) (who : Who) (st : Nat) : Nat → Device
  | 0 => d
  | n + 1 => match d.lineCtx who with
    | some x => if x.live || decide (st ≤ x.station) then d else (d.arrive who x (x.station + 1)).carry who st n
    | none => d

/-! ### Issuing (R32, R49, R50) -/

/-- The words of the five slots A0, A1, L, S and W of the step word a context stands at (R84). -/
def Device.slots (d : Device) (x : Ctx) : List Nat :=
  match x.word.bind fun i => (d.stationWords x x.station)[i]? with
  | some w => (List.range 5).map (slotWord w.toNat)
  | none => []

/-- The context with the slot that holds an instruction word issued: it executes, the word stands in a slot that has not issued,
its predicate lets it, the instruction stands in such stations, and the loader would take it (R32, R33, R49, R84). -/
def Device.issue (d : Device) (x : Ctx) (q : Pred) (op enc : Nat) : Option Ctx :=
  match ((d.slots x).zipIdx.find? fun w => w.1 == instWord q op enc && !x.issued.contains w.2) with
  | none => none
  | some (_, k) =>
    if x.live && x.regs.executes q && lineAvailable x.egress op && (lineOperands op enc).1.isEmpty &&
        !lateLookup x.egress x.station op then some { x with issued := k :: x.issued } else none

/-- Whether a slot of the step word still has to issue: NEXT and END act when every instruction that executes has issued. -/
def Device.owes (d : Device) (x : Ctx) : Bool :=
  (d.slots x).zipIdx.any fun w => w.1 != emptySlot && !x.issued.contains w.2 && x.regs.executes (wordPred w.1)

/-- A line instruction whose whole effect is results of one latency. -/
def Device.lineResults (d : Device) (who : Who) (q : Pred) (op enc lat : Nat) (f : Ctx → Except Exc (List Wr)) : Device :=
  match (d.lineCtx who).bind fun x => d.issue x q op enc with
  | none => d
  | some x => match f x with
    | .ok ws => d.setLine who { x with pend := x.pend ++ ws.map fun w => (x.station + lat, w) }
    | .error _ => d

/-- A line instruction that changes the device and may have results visible from the next station. -/
def Device.lineDo (d : Device) (who : Who) (q : Pred) (op enc : Nat) (f : Device → Ctx → Device) : Device :=
  match (d.lineCtx who).bind fun x => d.issue x q op enc with
  | none => d
  | some x => f (d.setLine who x) x

def Device.addPend (d : Device) (who : Who) (x : Ctx) (lat : Nat) (ws : List Wr) : Device :=
  d.setLine who { x with pend := x.pend ++ ws.map fun w => (x.station + lat, w) }

/-! ### ADV (R58) -/

/-- ADV moves the base of the next pass. -/
def Device.lineAdv (d : Device) (who : Who) (q : Pred) (f : FmtAV) : Device :=
  d.lineDo who q 0x24 f.enc fun d x => d.setLine who { x with nextBase := advBase x.regs x.nextBase f }

/-! ### Table lookups (R59, R131) -/

/-- The table a context's lookup reads, in the coat it carries, or for an egress LKT in the coat current at egress station 0
(R105). -/
def Device.lookTable (d : Device) (x : Ctx) (n : Nat) : Option Table :=
  (x.tblCoat <|> d.coatAt x.tblSlot).bind fun c => NMap.get? c.tables n

/-- The damaged words of a table instance that the lookups of coat `id` in slot `slot` can read (R147): cells and hash and ternary
words are the instance's, a page directory a slot's, and a trie word is read by the coats whose roots reach it. -/
def Device.badWords (d : Device) (slot id : Nat) (t : Table) : List DamagedWord :=
  ((d.coats.damaged.filter fun w => w.1 == t.defn.num && w.2.1 == t.inst).map (·.2.2)).filter fun w => match w with
    | .page s _ => s == slot
    | .prefix_ _ _ cs | .node _ _ cs => cs.contains id
    | _ => true

/-- What a lookup finds of a table in a coat's view. -/
inductive TableView where
  | unknown | absent | table (t : Table)

/-- The oldest coat whose versions the device stores, live or retired (R138, R141). -/
def Device.oldestStored (d : Device) : Option Coat :=
  let all := d.coats.old ++ d.coats.slots.vals
  all.find? fun c => all.all fun e => coatGe e.id c.id

/-- A table as coat `id`, which was in slot `slot`, sees it. A live coat sees its own. Of a retired coat, hash and ternary entries
stay visible by their coat identifiers as far as they are stored (R138), and a tag or longest-prefix table is read through what its
slot's directory or root holds now (R139); an instance that no live coat defines any more has been freed (R130), and what is read
there is open. -/
def Device.coatTable (d : Device) (slot id n : Nat) : TableView :=
  match (d.coatAt slot).filter fun c => c.id == id with
  | some c => match NMap.get? c.tables n with
    | some t => .table t
    | none => .absent
  | none =>
    let kept (t : Table) : Bool := d.heldCoats.any fun c => (NMap.get? c.tables n).any fun u => u.inst == t.inst
    let own := (d.coats.old.find? fun c => c.id == id).map fun c => NMap.get? c.tables n
    match own with
    | some none => .absent
    | some (some t) => if kept t then .table t else .unknown
    | none =>
      match d.oldestStored.bind fun c => NMap.get? c.tables n with
      | none => .unknown
      | some t =>
        if t.defn.kind = kHash ∨ t.defn.kind = kTern then
          if kept t then .table { t with entries := t.entries.filter fun e => e.from_ == 0 || coatGe id e.from_ } else .unknown
        else match (d.coatAt slot).bind fun c => NMap.get? c.tables n with
          | some u => .table u
          | none => .unknown

def Device.lookup (d : Device) (x : Ctx) (kind : Nat) (f : FmtL) : BitVec 128 :=
  match d.lookTable x f.tbl.toNat with
  | none => 0
  | some t =>
    let key := sliceB x.regs.key f.ko.toNat f.kl.toNat
    let bad := d.badWords x.tblSlot (((x.tblCoat <|> d.coatAt x.tblSlot).map (·.id)).getD 0) t
    if t.defn.kind ≠ kind then 0
    else match kind with
      | 0 => t.lkt bad (((x.regs.get f.ra).toNat % 2 ^ 20 + f.imm.toNat) % 2 ^ 20)
      | 1 => t.lkh bad key
      | 2 => t.lkx bad key
      | _ => t.lkp bad key

/-- LKT, LKH, LKX and LKP: latencies 2, 4, 3 and 5. -/
def Device.lineLookup (d : Device) (who : Who) (q : Pred) (kind : Nat) (f : FmtL) : Device :=
  let lat := match kind with | 0 => 2 | 1 => 4 | 2 => 3 | _ => 5
  d.lineResults who q (0x30 + kind) f.enc lat fun x => .ok (lookupWrs f (d.lookup x kind f))

/-! ### LKF (R43, R59, R60) -/

/-- Whether the skim bank groups of an identity accept work: none is under recovery (R447). -/
def Device.groupsOk (d : Device) (i : FlowId) : Bool :=
  d.domainOk 5 (i.skimBuckets.1 % 32) && d.domainOk 5 (i.skimBuckets.2 % 32)

/-- LKF of an ingress context: the lookup returns at its flow step, four stations on. It waits while a group of its identity is under
recovery. -/
def Device.lineLkf (d : Device) (who : Who) (q : Pred) (f : FmtL) (beyond : Bool) : Device :=
  let key (x : Ctx) : List Byte := sliceB x.regs.key f.ko.toNat f.kl.toNat
  if (d.lineCtx who).all fun x => d.groupsOk ⟨f.tbl.toNat % 16, key x⟩ then
    d.lineDo who q 0x34 f.enc fun d x => d.addPend who x 4 [.lkf f (key x) beyond]
  else d

/-! ### Flow state (R43 to R46, R62) -/

/-- Whether the frames before a frame in the update order of its record have made their updates: none of them executes any more
(R43, R45). -/
def Device.turnCome (d : Device) (who : Who) (x : Ctx) : Bool :=
  match who, x.f with
  | .ing fr, some _ => match (d.frame fr).bind (·.hit) with
    | some h => (((d.runOf h).takeWhile fun e => e.frame != some fr).filterMap (·.frame)).all fun g =>
        match NMap.get? d.ctxs g with | some y => !y.live | none => true
    | none => true
  | _, _ => true

/-- F as an instruction reads it: the values of the flow step, which no frame's own updates reach; the bytes that programs write
hold every update of the frames before it in the update order (R43, R45). In egress stations it is the snapshot. -/
def Device.lineF (d : Device) (who : Who) (x : Ctx) : Option (List Byte) :=
  match who, x.f with
  | .ing fr, some b => match ((d.frame fr).bind (·.hit)).bind fun h => d.viewOf h fr with
    | some v => some (b.take 80 ++ v.drop 80)
    | none => some b
  | _, f => f

/-- FLD: the field of F, 0 when F is invalid. It waits for the frames before it in the update order. -/
def Device.lineFld (d : Device) (who : Who) (q : Pred) (f : FmtFS) : Device :=
  if (d.lineCtx who).all (d.turnCome who) then
    d.lineResults who q 0x40 f.enc 1 fun x =>
      .ok (resultTo f.rd (BitVec.ofNat 64 (match d.lineF who x with | some b => fieldLE b f.foff.toNat f.size | none => 0)))
  else d

/-- A field value of RA, with RB or the next register as the high half of 8 bytes (R62). -/
def pair32 (hi lo : DWord) : Nat := hi.toNat % 2 ^ 32 * 2 ^ 32 + lo.toNat % 2 ^ 32

/-- A program update of the frame's record, where F is valid. -/
def Device.lineUpdate (d : Device) (who : Who) (x : Ctx) (us : List Upd) : Device :=
  match who, x.f with
  | .ing fr, some _ => match (d.frame fr).bind fun y => y.hit with
    | some h => d.frameUpdate h fr us
    | none => d
  | _, _ => d

def Device.lineFst (d : Device) (who : Who) (q : Pred) (f : FmtFS) : Device :=
  d.lineDo who q 0x41 f.enc fun d x =>
    let v := if f.sz = 3 then pair32 (x.regs.get f.rb) (x.regs.get f.rd) else (x.regs.get f.rd).toNat
    d.lineUpdate who x [.put f.foff.toNat (bytesLE f.size v)]

/-- The addend of FADD: IMM, sign-extended, or the registers. -/
def faddValue (r : Regs) (f : FmtFS) : Nat :=
  if f.i then unsigned (8 * f.size) (signed 24 f.imm.toNat)
  else if f.sz = 3 then pair32 (r.get f.rb) (r.get f.rd) else (r.get f.rd).toNat

def Device.lineFadd (d : Device) (who : Who) (q : Pred) (f : FmtFS) : Device :=
  d.lineDo who q 0x42 f.enc fun d x => d.lineUpdate who x [.add f.foff.toNat f.size (faddValue x.regs f)]

/-- FCAS compares at the frame's turn in the update order: its view of the record with its own earlier updates. -/
def Device.lineFcas (d : Device) (who : Who) (q : Pred) (f : FmtFS) : Device :=
  if !(d.lineCtx who).all (d.turnCome who) then d else d.lineDo who q 0x43 f.enc fun d x =>
    let next (b : BitVec 6) : BitVec 6 := b + 1
    let new := if f.sz = 3 then pair32 (x.regs.get (next f.rd)) (x.regs.get f.rd) else (x.regs.get f.rd).toNat % 2 ^ 32
    let want := if f.sz = 3 then pair32 (x.regs.get (next f.rb)) (x.regs.get f.rb) else (x.regs.get f.rb).toNat % 2 ^ 32
    let ok := match who, x.f with
      | .ing fr, some _ => match (d.frame fr).bind fun y => y.hit with
        | some h => d.updatesApply h fr && (match d.viewOwn h fr with | some b => fieldLE b f.foff.toNat f.size == want | none => false)
        | none => false
      | _, _ => false
    let d := if ok then d.lineUpdate who x [.put f.foff.toNat (bytesLE f.size new)] else d
    d.addPend who x 2 [.pred f.pd ok]

/-- The 8 bytes of FSTAMP: seconds low 32 above the nanoseconds. -/
def Device.stampValue (d : Device) (tb : Nat) : Nat := (d.tbNow tb).sec % 2 ^ 32 * 2 ^ 32 + (d.tbNow tb).ns

def Device.lineFstamp (d : Device) (who : Who) (q : Pred) (f : FmtFS) : Device :=
  d.lineDo who q 0x44 f.enc fun d x => d.lineUpdate who x [.put f.foff.toNat (bytesLE 8 (d.stampValue f.tb.toNat))]

/-- FLEARN (R184). -/
def Device.lineFlearn (d : Device) (who : Who) (q : Pred) (f : FmtFL) : Device :=
  d.lineDo who q 0x45 f.enc fun d x =>
    let i : FlowId := ⟨f.space.toNat, sliceB x.regs.key f.ko.toNat f.kl.toNat⟩
    let m0 := x.regs.mN 0
    let (d, refused) := d.learnRequest i (bits m0 13 10) (m0 % 1024) ((x.regs.get f.ra).toNat % 2 ^ 32)
    if refused then d.addPend who x 1 [.learnRefused] else d

/-! ### Edits (R64 to R67) -/

/-- The bytes of PUSH and SETF: IMM, or the registers from RA upward, most significant byte first, taken right-aligned as IMM is
(DEDUCED, assumption log, entry 32). -/
def editBytes (r : Regs) (f : FmtE) : List Byte :=
  let n := f.len.toNat
  if !f.reg then bytesBE n f.imm.toNat
  else
    let w := if isS f.ra then 8 else 4
    let v := (List.range (ceilDiv n w)).foldl (fun acc k =>
      acc * 2 ^ (8 * w) + (r.get (f.ra + BitVec.ofNat 6 k)).toNat % 2 ^ (8 * w)) 0
    bytesBE n v

/-- A new mark takes the place of an earlier one (R347). -/
def addEdit (l : List Edit) (e : Edit) : List Edit :=
  match e.op with
  | .tsi _ _ _ => (l.filter fun x => match x.op with | .tsi _ _ _ => false | _ => true) ++ [e]
  | _ => l ++ [e]

/-- The sequence generator's next number (R283). -/
def Device.nextTwin (d : Device) (g : Nat) : Device × Nat :=
  let n := NMap.getD d.spread.gens g 0
  ({ d with spread := { d.spread with gens := NMap.set d.spread.gens g ((n + 1) % 65536) } }, n)

/-- An edit is staged at its offset in the frame as received, or at egress applied at once; an egress TWIN takes its number and
becomes the tag at once, and an egress SEAM has no effect (R64, R275, R283). -/
def Device.lineEdit (d : Device) (who : Who) (q : Pred) (op enc off : Nat) (e : Ctx → EditOp) : Device :=
  d.lineDo who q op enc fun d x =>
    match who with
    | .ing f => d.modFrame f fun y => { y with edits := addEdit y.edits ⟨x.base + off, e x⟩ }
    | .egr c => match e x with
      | .seam => d
      | .twin g _ => match d.copy c with
        | none => d
        | some y => match d.frame y.frame with
          | none => d
          | some fr =>
            let (d, n) := d.nextTwin g
            d.modCopy c fun z => { z with egEdits := z.egEdits ++ [twinEdit d.sTpid (d.outBytes y fr) n] }
      | o => d.modCopy c fun z => { z with egEdits := addEdit z.egEdits ⟨off, o⟩ }
    | _ => d

def nataOp (f : FmtN) : EditOp :=
  .nata f.kind.toNat f.p ((f.l4.toNat : Int) - f.l3.toNat) f.aoff.toNat f.poff.toNat f.u

def tsiOp (f : FmtT) : EditOp :=
  .tsi f.mode.toNat f.tb.toNat (if f.c then some ((f.coff.toNat : Int) - f.foff.toNat) else none)

/-! ### Forward and queue (R67) -/

/-- m3 written, unless LOCK is set. -/
def m3Wr (r : Regs) (v : Nat) : List Wr := if bit (r.mN 3) 29 then [] else [.reg 35 (BitVec.ofNat 64 v)]

/-- m7[7:0] written with a reason; LOCK protects m3 alone (R67). -/
def m7Wr (r : Regs) (reason : Nat) : List Wr := [.reg 39 (BitVec.ofNat 64 (setBits (r.mN 7) 7 0 reason))]

/-- LOCK with a port target. -/
def lockPort (p : Nat) : Nat := 2 ^ 29 + p

/-- VAL, or RA when REG = 1. -/
def wValue (r : Regs) (f : FmtW) : Nat := if f.reg then (r.get f.ra).toNat else f.val.toNat

/-- A register-sourced reason in 0x60 to 0xFF becomes 0x40 (R38). -/
def runReason (r : Nat) : Nat := if 0x60 ≤ r % 256 then 0x40 else r % 256

def fwdWrs (r : Regs) (f : FmtW) : List Wr :=
  let v := wValue r f % 1024
  if 511 < v then m3Wr r (lockPort 517) ++ m7Wr r 0x26 else m3Wr r v

/-- The spread selector of FWDG (R270). -/
def fwdgSelector (r : Regs) (f : FmtW) : Nat := if f.aux = 0 then selector0 (r.mN 0) (r.mN 4) else r.mN 8 % 1024

def fwdgWrs (r : Regs) (f : FmtW) : List Wr := m3Wr r (2 ^ 30 + fwdgSelector r f * 2 ^ 16 + wValue r f % 256)

def mcastWrs (r : Regs) (f : FmtW) : List Wr := m3Wr r (2 * 2 ^ 30 + wValue r f % 65536)

/-- CLASS: a register value with colour 0b11 writes red. -/
def classWrs (r : Regs) (f : FmtW) : List Wr :=
  let v := wValue r f % 64
  [.reg 34 (BitVec.ofNat 64 (setBits (r.mN 2) 5 0 (if bits v 4 3 = 3 then setBits v 4 3 2 else v)))]

/-- QUOTE, in pass 0 only. -/
def quoteWrs (r : Regs) (f : FmtW) : List Wr :=
  if bits (r.mN 1) 3 2 ≠ 0 then [] else [.reg 37 (BitVec.ofNat 64 (2 ^ 20 + wValue r f % 2 ^ 20))]

def toseatWrs (r : Regs) (f : FmtW) : List Wr :=
  m3Wr r (lockPort (514 + f.val.toNat / 256 % 2)) ++ m7Wr r (f.val.toNat % 256)

def toscafWrs (r : Regs) (f : FmtW) : List Wr :=
  m3Wr r (lockPort 513) ++ m7Wr r (if f.reg then runReason (r.get f.ra).toNat else f.val.toNat % 256)

def dropWrs (r : Regs) (f : FmtW) : List Wr := m3Wr r (lockPort 517) ++ m7Wr r (f.val.toNat % 256)

/-- RECIRC: port 512, or TOSCAF with NEST_DEEP in pass 3 (R67, R102). -/
def recircWrs (r : Regs) : List Wr :=
  if bits (r.mN 1) 3 2 = 3 then m3Wr r (lockPort 513) ++ m7Wr r 0x02 else m3Wr r 512

/-- RECIRC holds its entry point with the frame (R99). -/
def Device.lineRecirc (d : Device) (who : Who) (q : Pred) (f : FmtW) : Device :=
  d.lineDo who q 0x69 f.enc fun d x =>
    let d := d.addPend who x 1 (recircWrs x.regs)
    match who with
    | .ing fr => if bit (x.regs.mN 3) 29 then d else d.modFrame fr fun y => { y with entry := f.val.toNat % 64 }
    | _ => d

/-- MIRROR: one mirror copy, a later one replacing an earlier (R67). -/
def Device.lineMirror (d : Device) (who : Who) (q : Pred) (f : FmtW) : Device :=
  d.lineDo who q 0x65 f.enc fun d _ =>
    let m := some (f.val.toNat % 1024, f.aux.toNat)
    match who with
    | .ing fr => d.modFrame fr fun y => { y with mirror := m }
    | .egr c => d.modCopy c fun y => { y with mirror := m }
    | _ => d

/-! ### Time (R71) -/

/-- One part of a time value: nanosecond count low and high, seconds low 32, nanoseconds in the second. -/
def timePart (t : TimeBase) (part : Nat) : Nat :=
  match part with
  | 0 => t.count % 2 ^ 32
  | 1 => t.count / 2 ^ 32
  | 2 => t.sec % 2 ^ 32
  | _ => t.ns

/-- Time base `n` as a time instruction reads it: as the context entered its station, or as it reads at a thread's issue (R71). -/
def Device.timeAt (d : Device) (who : Who) (n : Nat) : TimeBase :=
  match d.lineCtx who with
  | some x => x.tbs.getD n (d.tbNow n)
  | none => d.tbNow n

/-- A gate as TGATE reads it (R71). -/
def Device.gateAt (d : Device) (who : Who) (p c : Nat) : Bool :=
  match d.lineCtx who with
  | some x => bit (NMap.getD x.gates p 255) c
  | none => d.gateOpen p c

/-- The frame's arrival time in a base: the base as it reads, set back by the TB0 time since the slot grant (DEDUCED, assumption
log, entry 33). -/
def Device.arrivalIn (d : Device) (who : Who) (n arr : Nat) : TimeBase :=
  let ago : Int := (((d.timeAt who 0).count + 2 ^ 64 - arr) % 2 ^ 64 : Nat)
  (d.timeAt who n).advance (-ago * 2 ^ 32)

/-- TB − value as a signed 32-bit number is 0 or more. -/
def timeCmp (now v : Nat) : Bool := decide (0 ≤ signed 32 ((now % 2 ^ 32 + 2 ^ 32 - v % 2 ^ 32) % 2 ^ 32))

def Device.tcmp (d : Device) (who : Who) (r : Regs) (f : FmtTM) : Bool :=
  timeCmp ((d.timeAt who f.tb.toNat).count) (if f.i then f.imm.toNat else (r.get f.ra).toNat)


/-- The arrival time of the frame a context carries. -/
def Device.ctxArrival (d : Device) (who : Who) : Nat :=
  match who with
  | .ing f => match d.frame f with | some x => x.arrTb0 | none => 0
  | .egr c => match (d.copy c).bind fun x => d.frame x.frame with | some x => x.arrTb0 | none => 0
  | .thr _ _ => 0

/-! ### The sequencer (R70, R86 to R89) -/

/-- The window an egress context reads: the copy with the edits made so far (R41). -/
def Device.egressWindow (d : Device) (c : Nat) (old : List Byte) : List Byte :=
  match d.copy c with
  | some x => match d.frame x.frame with
    | some fr => window0 (d.outBytes { x with cut := none } fr)
    | none => old
  | none => old

/-- The frames ahead of a frame in the stations of its pipeline. -/
def Device.ahead (d : Device) (p f : Nat) : List Nat := (d.pipe p).line.takeWhile (· ≠ f)

/-- Whether a flow step at station `s` may be taken: the contexts of a pipeline reach each station in the order in which they
entered, so every frame ahead that still executes has reached it (R80, R101). -/
def Device.inOrder (d : Device) (p f s : Nat) : Bool :=
  (d.ahead p f).all fun g => match NMap.get? d.ctxs g with
    | some y => !y.live || decide (s ≤ y.station)
    | none => true

/-- The group moves one station on: results become visible, a flow step due there is taken after those of the frames ahead, and
the next step word is read. -/
def Device.moveOn (d : Device) (who : Who) (x : Ctx) (next : Option Nat) : Device :=
  let s := x.station + 1
  let go (d : Device) : Device :=
    let d := d.arrive who { x with word := next, issued := [] } s
    match d.lineCtx who with
    | none => d
    | some y => d.readWord who (match who with | .egr c => { y with w := d.egressWindow c y.w } | _ => y)
  match who, x.flowDue s with
  | .ing f, some _ =>
    if d.inOrder x.pipe f s then go ((d.ahead x.pipe f).foldl (fun d g => d.carry (.ing g) s 32) d) else d
  | _, _ => go d

/-- NEXT: the successor that the predicates name, from the step word's own fields (R86). In the last station, or with a
successor the coat does not hold, it is no instruction (R89). -/
def Device.lineNext (d : Device) (who : Who) (f : FmtC) : Device :=
  match d.lineCtx who with
  | none => d
  | some x =>
    match x.word with
    | none => d
    | some i =>
      let w : WInfo := ⟨((d.stationWords x x.station).getD i 0).toNat, []⟩
      let n := b2n (x.regs.pred f.sa) + (if f.b2 then 2 * b2n (x.regs.pred f.sb) else 0)
      let s := w.succ n
      if x.live && w.cword == instWord ⟨0, false⟩ 0x70 f.enc && !d.owes x && decide (x.station < x.last) &&
          decide (s < (d.stationWords x (x.station + 1)).length) then d.moveOn who x (some s) else d

/-- END: no further word (R56, R86). -/
def Device.lineEnd (d : Device) (who : Who) : Device :=
  match d.lineCtx who with
  | none => d
  | some x =>
    let c := x.word.map fun i => slotWord ((d.stationWords x x.station).getD i 0).toNat 5
    if x.live && c == some (instWord ⟨0, false⟩ 0x71 0) && !d.owes x then d.setLine who { x with word := none } else d

/-! ### The slot grant (R37, R47, R90 to R97, R121) -/

/-- The parser's start kind of an entry point in a coat (R122). -/
def Device.startKind (d : Device) (slot e : Nat) : Nat := bits (d.coatReg slot (Off.tblParseStart (e / 8))) (4 * (e % 8) + 3) (4 * (e % 8))

def Device.parseIn (d : Device) (slot : Nat) (x : Frame) (bound : Option Nat) : ParseIn :=
  let ctl := d.coatReg slot Off.tblParseCtl
  { w := sliceB x.bytes x.base 64, base := x.base
    dataEnd := if x.done && decide (x.bytes.length ≤ x.base + 64) then some x.dataEnd else none
    stpid := bits ctl 31 16, ipinip := bit ctl 2, csum := bit ctl 0, bound := bound }

/-- The enabled flow spaces, by bit (R190). -/
def Device.spacesOn (d : Device) : Nat :=
  ((List.range 16).filter fun s => d.spaceEn s).foldl (fun a s => a + 2 ^ s) 0

/-- The frame enters station 0 of its pipeline: hardware metadata, the parser's code and the first step word. At pass 0 it takes the
current coat; a pass that runs again after a park stages its edits and its mirror anew (R61, R65; DEDUCED, log, entry 47); a frame of FRAME_SEND enters at the entry point and with the partition of its command (R421). An entry point that is not valid discards the frame (R92). -/
def Device.enterPass (d : Device) (f : Nat) : Device :=
  match d.frame f with
  | none => d
  | some x =>
    let fresh := !x.granted
    let again := decide (0 < x.parks)
    let slot := if fresh then d.coats.cur.getD 0 else x.mN 1 % 4
    match d.coatAt slot with
    | none => (d.endCheck f).noEntry f
    | some c =>
      let pass := if fresh then 0 else bits (x.mN 1) 3 2
      let entry := if fresh && x.port < 512 then NMap.getD c.pmapI x.port 0 else if again && !fresh then bits (x.mN 1) 9 4 else x.entry
      let bound := if again then x.bound0 else x.lenBound
      let (code, lenBound) := (d.parseIn slot x bound).run (d.startKind slot entry)
      let x := { x with
        granted := true, place := .pass, hit := none, lenBound := lenBound, bound0 := bound
        endChk := if fresh then bit (d.coatReg slot Off.tblParseCtl) 1 else x.endChk
        edits := if again then x.edits0 else x.edits, edits0 := if again then x.edits0 else x.edits
        mirror := if again then x.mirror0 else x.mirror, mirror0 := if again then x.mirror0 else x.mirror
        arrTb0 := if fresh then d.tbCount 0 else x.arrTb0
        arrTransit := if fresh then d.transit else x.arrTransit }
      let part := if x.port < 512 then d.portPart x.port else bits (x.mN 0) 13 10
      let x := if fresh then (x.setM 0 (x.port % 1024 + part % 16 * 2 ^ 10)).setM 6 (d.tbCount 0 % 2 ^ 32) else x
      let x := x.setM 1 (slot + pass * 4 + entry % 64 * 16 + c.id * 2 ^ 10)
      let x := { x with m := setField x.m 7 7 0 code }
      let d := (d.setFrame f x).occIng 0x101 x x.port
      let d := if code = 0 then d else (d.bump (Off.pipeParseFlag x.pipe) 1).occIng 0x105 x code
      match entryAddr c.ien entry with
      | none => (d.endCheck f).noEntry f
      | some a =>
        let r := { Regs.zero with m := x.m }
        let ctx : Ctx := { pipe := x.pipe, egress := false, slot := slot, tblSlot := slot, tblCoat := none, station := 0, word := some a, regs := r,
                           entry := r, w := sliceB x.bytes x.base 64, base := x.base, nextBase := x.base, f := none, pend := [],
                           stopAt := none, issued := [], tbs := [], gates := [], spaces := d.spacesOn }
        let d := d.modPipe x.pipe fun q => { q with line := (q.line.filter fun g => g ≠ f ∧ NMap.has d.ctxs g) ++ [f] }
        ((d.unlease 0 f).lease 0 2 x.pipe f x.cells).readWord (.ing f) ctx

/-- The frame at the head of the priority queue enters (R95, R100). -/
def Device.grantPrio (d : Device) (p f : Nat) : Device :=
  let d := d.modPipe p fun q => { q with prioQ := q.prioQ.drop 1, winPrio := q.winPrio + 1 }
  let re := match d.frame f with | some x => decide (0 < x.parks) | none => false
  let d := if re then d else d.bump (Off.pipeRecirc p) 1
  (d.enterPass f).pipePfc p

/-- One context of the group is filled: from the priority queue while the budget allows, else from the entry queue, else it stays
empty (R95, R96). -/
def Device.fillContext (d : Device) (p : Nat) : Device :=
  let q := d.pipe p
  let held := !q.entryQ.isEmpty && decide (256 ≤ d.reserveCount p)
  let prioOk := q.entryQ.isEmpty || held || decide (q.winPrio < q.prioCtx)
  let d := d.modPipe p fun q => { q with winUsed := q.winUsed + 1 }
  match q.prioQ, prioOk with
  | f :: _, true => d.grantPrio p f
  | _, _ => match q.entryQ, held with
    | f :: _, false => (d.modPipe p fun q => { q with entryQ := q.entryQ.drop 1 }).enterPass f
    | _, _ => d.occ ⟨0x108, 1, none, none, some (1, p), none, none⟩

/-- A group of four contexts enters station 0 of an ingress pipeline; windows are 512 contexts, and PRIO_CTX is taken at the start
of each (R94 to R96, R120). -/
def Device.slotGrant (d : Device) (p : Nat) : Device :=
  if !d.domainOk 2 p || d.pwr.portsDown then d
  else
    let d := d.coatDue
    let d := if 512 ≤ (d.pipe p).winUsed then
        d.modPipe p fun q => { q with winUsed := 0, winPrio := 0, prioCtx := max 4 (d.fld (Off.pipeArb p) 7 0) } else d
    (List.range 4).foldl (fun d _ => d.fillContext p) d

/-! ### The end of a pass (R61, R68, R99, R173) -/

/-- The frame takes its place on the recirculation path (R96, R99). -/
def Device.recirculate (d : Device) (f : Nat) (x : Ctx) : Device :=
  match d.frame f with
  | none => d
  | some y =>
    let d := d.occIng 0x102 y y.port
    let d := match y.hit with | some h => d.endRun h f | none => d
    let d := (({ d with ctxs := NMap.del d.ctxs f }).unlease 0 f).lodgeLeave f
    let d := d.modFrame f fun z =>
      let m1 := vecN x.regs.m 1
      { z with
        m := setField (setField x.regs.m 1 3 2 (bits m1 3 2 + 1)) 3 31 0 (3 * 2 ^ 30)
        base := x.nextBase, place := .recirc, parks := 0, hit := none }
    (d.toRecirc f).modPipe x.pipe fun q => { q with places := q.places ++ [f] }

/-- The first frame of a pipeline that is still in its stations: contexts leave station 23 in the order in which they entered
station 0 (R24, R80). -/
def Device.firstInLine (d : Device) (p : Nat) : Option Nat := (d.pipe p).line.find? fun f => NMap.has d.ctxs f

/-- The end of a pass of a frame whose context `x` has passed the last station (R61, R68, R99). A pass that parks runs again from its entry
values, edits and mirror (DEDUCED, log, entry 47). -/
def Device.passEnd (d : Device) (f : Nat) (x : Ctx) (y : Frame) : Device :=
  let d := if x.stopAt.isSome && y.punt.isNone then d else d.modFrame f fun z => { z with m := x.regs.m }
  if y.killed then (d.endCheck f).finishFrame f
  else match y.punt with
    | some r => (d.endCheck f).puntFrame f r
    | none =>
      if x.stopAt.isSome then
        -- into the lodge: the pass's entry values stand, the locks of the parked pass kept beside them
        let d := match y.hit with | some h => d.endRun h f | none => d
        let d := (({ d with ctxs := NMap.del d.ctxs f }).unlease 0 f)
        (d.modFrame f fun z => { z with place := .lodge, parkM := some x.regs.m }).toRecirc f
      else if x.regs.mN 3 / 2 ^ 30 = 0 ∧ x.regs.mN 3 % 2 ^ 16 = 512 then d.recirculate f x
      else (d.endCheck f).finishFrame f

/-- A frame leaves ingress station 23: it is the first of its pipeline's contexts, executes no more, and the frames before it in
its record's update order have made their updates. Results visible beyond the last station count (R46, R56, R68). What a contained
pipeline passes on is BAD (R447). -/
def Device.passExit (d : Device) (f : Nat) : Device :=
  match NMap.get? d.ctxs f with
  | some x =>
    if x.live || d.firstInLine x.pipe != some f || !d.turnCome (.ing f) x then d
    else
      let d := (if d.domainOk 2 x.pipe then d else d.turnBad f false).carry (.ing f) 32 32
      match NMap.get? d.ctxs f, d.frame f with
      | some x, some y => d.passEnd f x y
      | _, _ => d
  | none => d

/-- Whether the buffer holds the bytes of a recirculating frame's new window, or its end (R99). -/
def Frame.windowHeld (x : Frame) : Bool := x.done || decide (x.base + 64 ≤ x.bytes.length)

/-- A recirculating frame becomes eligible: the buffer holds its new window, or its end, and no frame before it on its pipeline's
recirculation path is as far (R25, R99, R101). -/
def Device.recircEligible (d : Device) (f : Nat) : Device :=
  match d.frame f with
  | some x =>
    let before := (d.pipe x.pipe).places.takeWhile (· ≠ f)
    if x.place != .recirc || !x.windowHeld || before.any (fun g => (d.frame g).any Frame.windowHeld) then d
    else
      let d := d.modFrame f fun x => { x with place := .prio }
      ((d.modPipe x.pipe fun q => { q with places := q.places.filter (· ≠ f), prioQ := q.prioQ ++ [f] }).lease 0 2 x.pipe f x.cells).pipePfc x.pipe
  | none => d

end Sys2Proof.Machine
end

