-- ==== Sys2Proof/Machine/ScafExec.lean ====
section
/-! DEFINITION. The full form: what a scaffold thread does with each instruction, the checks that end in an exception, memory,
control, long instructions, flow commands and flow operations of a task (R32 to R36, R42 to R79, R164, R199, R374, R375,
R385 to R389). -/

namespace Sys2Proof.Machine

/-- How an instruction of a thread ends: with the pc on the next word, at a target, still on itself (R77), in an exception with
the faulting address, in an uncorrectable read at an address (each at once, or after what a long instruction had done), with the
thread given up, or waiting for its command. -/
inductive ThrOut where
  | done (d : Device)
  | jump (d : Device) (pc : Nat)
  | again (d : Device)
  | exc (x : Exc) (addr : Nat)
  | lost (addr : Nat)
  | excAt (d : Device) (x : Exc) (addr : Nat)
  | lostAt (d : Device) (addr : Nat)
  | left (d : Device)
  | wait (d : Device)

/-! ### Exceptions and boundaries (R76, R388, R391, R392) -/

/-- Taking an exception: the pc stays, code, task, pc and address are recorded, the event is raised, and the task is aborted (R76). -/
def Device.taskException (d : Device) (e t id : Nat) (x : Task) (c : Exc) (addr : Nat) : Device :=
  let pc := x.regs.pc.toNat
  let d := d.setReg (Off.scafThrExc e t) (2 ^ 31 + c.code * 2 ^ 16 + id)
  let d := (d.setReg (Off.scafThrEpc e t) (pc % 2 ^ 18)).setReg (Off.scafThrEaddrLo e t) (addr % 2 ^ 32)
  let d := (d.setReg (Off.scafThrEaddrHi e t) (addr / 2 ^ 32 % 2 ^ 32)).bump (Off.scafEngExc e) 1
  let d := (d.occTask 0x604 e x).raiseDom (288 + e) Sev.warn Cause.taskException 7 e (c.code + id * 2 ^ 16) pc
  d.abortTask id

/-- Where the heap begins in a thread's addresses (R374). -/
def heapStart : Nat := 2 ^ 32

/-- The thread's read of an uncorrectable codeword of the heap is counted on its channel, with its event (R198). -/
def Device.heapUe (d : Device) (a : Nat) : Device :=
  match if a < heapStart then none else d.heapAddr (a - heapStart) with
  | none => d
  | some s => match d.locate s with
    | none => d
    | some l =>
      if d.chanFailed l.chan || !d.rstore.poison.contains (s / 16) then d
      else ((d.countUe l.chan 1).bump (Off.rstoreChUe l.chan) 1).raiseDom (256 + l.chan) Sev.fault Cause.ueData 6 l.chan s 2

/-- An uncorrectable read of a thread aborts only its task (R395). -/
def Device.taskLost (d : Device) (e id addr : Nat) : Device :=
  (d.raiseDom (288 + e) Sev.fault Cause.ueData 7 e addr 6).abortTask id

/-- The instruction boundary: a spent budget is exception BUDGET, any other interrupt stops the thread for its pre-emption. -/
def Device.boundary (d : Device) (e t id : Nat) : Device :=
  let k := thrKey e t
  let th := d.thr k
  match d.task id with
  | none => d
  | some x =>
    if th.spent then d.taskException e t id x .budget 0
    else if th.interrupt then d.setThr k { th with bound := true }
    else d

/-- An instruction has completed with a new pc. -/
def Device.thrDone (d : Device) (e t id pc : Nat) (x : Task) : Device :=
  let d := d.modTask id fun x => { x with regs := { x.regs with pc := BitVec.ofNat 64 pc }, stall := false }
  (((d.bump (Off.scafEngInstr e) 1).occTask 0x603 e x)).boundary e t id

/-- A run budget is spent (R388): the thread's interrupt is set, and a thread already at its boundary takes BUDGET there. -/
def Device.budget (d : Device) (e t : Nat) : Device :=
  let k := thrKey e t
  if !d.budgetSpent e t then d
  else
    let th := d.thr k
    let d := d.setThr k { th with interrupt := true, spent := true }
    match th.bound, th.task with
    | true, some id => d.boundary e t id
    | _, _ => d

/-! ### What full form checks before an instruction (R32, R33, R42, R44, R52, R62, R67, R76) -/

/-- The opcodes of the scaffold (R32). -/
def fullAvailable (op : Nat) : Bool :=
  decide (op ≤ 0x11) || decide (0x20 ≤ op ∧ op ≤ 0x24) || decide (0x30 ≤ op ∧ op ≤ 0x34) || decide (0x40 ≤ op ∧ op ≤ 0x45) ||
    decide (0x50 ≤ op ∧ op ≤ 0x56) || decide (0x60 ≤ op ∧ op ≤ 0x63) || op == 0x65 || op == 0x66 || op == 0x68 || op == 0x71 ||
    decide (0x80 ≤ op ∧ op ≤ 0x82) || decide (0x90 ≤ op ∧ op ≤ 0x94) || decide (0x98 ≤ op ∧ op ≤ 0x9B) || op == 0xA0 || op == 0xA1 ||
    decide (0xA8 ≤ op ∧ op ≤ 0xAA)

def excIf (b : Bool) (x : Exc) (rest : Option Exc) : Option Exc := if b then some x else rest

/-- A destination among m0 to m6. -/
def metaDest (n : Nat) : Bool := decide (32 ≤ n ∧ n ≤ 38)

/-- The checks of a flow-state access: alignment, the range of F, and an s register for 8 bytes (R44, R62). -/
def fullFlowErr (op x : Nat) : Option Exc :=
  let n := if op = 0x44 then 8 else 2 ^ bits x 38 37
  let o := bits x 45 39
  let rd := bits x 51 46
  let wide := n == 8 && op != 0x44 && !(op == 0x42 && bits x 24 24 == 1)
  excIf ((op == 0x42 || op == 0x43) && decide (n < 4)) .illegal <|
  excIf (wide && (decide (rd < 48) || (op == 0x43 && decide (bits x 36 31 < 48)))) .register <|
  excIf (o % n != 0) .align <|
  excIf (decide (128 < o + n) || (op != 0x40 && decide (o < 80))) .address none

/-- The checks of PUSH and SETF: the bytes come from as many registers as they need (R65). -/
def fullEditErr (x : Nat) : Option Exc :=
  let len := bits x 45 41
  let reg := bits x 40 40 == 1
  let ra := bits x 39 34
  let n := ceilDiv len (if 48 ≤ ra then 8 else 4)
  excIf (len == 0 || decide (16 < len) || (!reg && decide (4 < len))) .illegal <|
  excIf (reg && (decide (64 < ra + n) || (decide (ra < 48) && decide (48 < ra + n)))) .register none

/-- Bits that a format marks 0 (R52), of the instructions whose operands the line form's rules do not check for full form. -/
def fullReserved (op x : Nat) : Bool :=
  if op = 0x22 then bits x 27 0 != 0
  else if op = 0x23 then bits x 33 0 != 0
  else if op = 0x24 then bits x 36 0 != 0
  else if 0x90 ≤ op ∧ op ≤ 0x94 ∧ op ≠ 0x93 then bits x 44 32 != 0
  else if 0x98 ≤ op ∧ op ≤ 0x9B then bit x 37
  else false

/-- The exception an instruction word takes before it acts (R76). The instructions that the effects themselves check, and those of
full form only, are not listed here. -/
def fullErr (op x : Nat) : Option Exc :=
  if !fullAvailable op || fullReserved op x then some .illegal
  else if 0x40 ≤ op ∧ op ≤ 0x44 then fullFlowErr op x
  else if op = 0x50 ∨ op = 0x52 then fullEditErr x
  else if op = 0x0C ∨ op = 0x0D ∨ op = 0x10 ∨ op = 0x22 ∨ op = 0x23 ∨ 0x90 ≤ op then none
  else
    let cs := (lineOperands op x).1
    excIf (cs.any fun c => c == Code.field || c == Code.reason || (c == Code.range && op / 16 != 5)) .illegal <|
    excIf ((op == 0x80 || op == 0x82) && metaDest (bits x 51 46)) .register none

/-- One instruction of a thread, which stands at its pc in the code bank of its task: only a running thread that stands at no
boundary executes. Outside its code region it takes ADDRESS. A word that is no instruction of full form, or that has a bit set
that its format marks 0, takes ILLEGAL, whichever command comes; when its predicate does not let it execute, the pc advances
instead. NEXT and END must not be predicated; an instruction that does not execute only advances the pc (R48 to R52, R73, R76,
R390). -/
def Device.thrRun (d : Device) (e t : Nat) (q : Pred) (op enc : Nat) (f : Device → Nat → Task → ThrOut) : Device :=
  let th := d.thr (thrKey e t)
  match th.state, th.task.bind fun i => (d.task i).map fun x => (i, x) with
  | .running, some (id, x) =>
    let pc := x.regs.pc.toNat
    let w := d.codeWord x.bank pc
    let wop := bits w 63 56
    let ends := wop == 0x70 || wop == 0x71
    if th.bound || x.cmd.isSome || !d.domainOk 7 e || !d.scafRuns then d
    else if pc < 144 ∨ d.bankLen x.bank ≤ pc then d.taskException e t id x .address pc
    else if ends && wordPred w != ⟨0, false⟩ then d.taskException e t id x .illegal 0
    else if fullErr wop (w % 2 ^ 52) == some .illegal then
      if x.regs.executes (wordPred w) then d.taskException e t id x .illegal 0 else d.thrDone e t id (pc + 1) x
    else if w ≠ instWord q op enc then d
    else if !x.regs.executes q then d.thrDone e t id (pc + 1) x
    else match fullErr op enc with
      | some c => d.taskException e t id x c 0
      | none => match f d id x with
        | .done d => d.thrDone e t id (pc + 1) x
        | .jump d a => d.thrDone e t id a x
        | .again d => d.boundary e t id
        | .exc c a => d.taskException e t id x c a
        | .lost a => (d.heapUe a).taskLost e id a
        | .excAt d c a => d.taskException e t id x c a
        | .lostAt d a => (d.heapUe a).taskLost e id a
        | .left d => (d.bump (Off.scafEngInstr e) 1).occTask 0x603 e x
        | .wait d => d.modTask id fun x => { x with stall := true }
  | _, _ => d

/-! ### Results (R57 to R59, R71) -/

/-- W: 64 bytes of the frame copy at the window base; bytes at and beyond FRAME_LEN read 0 (R40, R379). A frameless task reads zeros
(R380). -/
def Device.taskWindow (d : Device) (id : Nat) (x : Task) : List Byte :=
  let len := leNat (d.sram (pageBase id) 2)
  (List.range 64).map fun i => if x.base + i < len ∧ !x.frameless then (d.sram (pageBase id + 0x40 + x.base + i) 1).headD 0 else 0

/-- A write of an instruction's result, at once; a flow hit makes F valid. -/
def Task.applyWr (x : Task) (w : Wr) : Task :=
  { x with
    regs := x.regs.apply w
    f := match w with | .flowHit _ r => some r | _ => x.f
    hit := match w with | .flowHit h _ => some h | _ => x.hit
    own := match w with | .flowHit _ _ => [] | _ => x.own }

def Device.applyTask (d : Device) (id : Nat) (ws : List Wr) : Device := d.modTask id fun x => ws.foldl Task.applyWr x

/-- An instruction that only computes results from the task's registers and window. -/
def Device.thrResults (d : Device) (e t : Nat) (q : Pred) (op enc : Nat) (f : Device → Task → List Byte → Except Exc (List Wr)) :
    Device :=
  d.thrRun e t q op enc fun d id x => match f d x (d.taskWindow id x) with
    | .ok ws => .done (d.applyTask id ws)
    | .error c => .exc c 0

/-- MOV with X = 1: the special registers sp, pr and pc; writes of pc are ignored (R57). -/
def Device.thrMov (d : Device) (e t : Nat) (q : Pred) (f : FmtA) : Device :=
  d.thrRun e t q 0x0C f.enc fun d id x =>
    if !f.x then match movEff true x.regs f with
      | .ok ws => .done (d.applyTask id ws)
      | .error c => .exc c 0
    else
      let n := f.imm.toNat % 4
      if n = 3 then .exc .illegal 0
      else if f.imm.getLsbD 31 then
        let v := x.regs.get f.ra
        .done (d.modTask id fun x => { x with regs :=
          if n = 0 then { x.regs with sp := v } else if n = 1 then { x.regs with pr := v } else x.regs })
      else if !destOk f.rd then .exc .register 0
      else .done (d.applyTask id [.reg f.rd (if n = 0 then x.regs.sp else if n = 1 then x.regs.pr else x.regs.pc)])

/-- ADV: the window base moves at once (R58). -/
def Device.thrAdv (d : Device) (e t : Nat) (q : Pred) (f : FmtAV) : Device :=
  d.thrRun e t q 0x24 f.enc fun d id x => .done (d.modTask id fun y => { y with base := advBase x.regs x.base f })

/-! ### Lookups (R59, R110, R146, R389) -/

/-- A table lookup: a table that the coat does not define, of another kind, or with another key length is no instruction; one
that is neither SHARED nor of a partition that the task's seat owns with write privilege is PARTITION (R76, R146, R389). A coat that
has retired reads as R138 gives; where nothing of its table is left, the result is open (log, entry 3). -/
def Device.thrLookup (d : Device) (e t : Nat) (q : Pred) (kind : Nat) (f : FmtL) : Device :=
  d.thrRun e t q (0x30 + kind) f.enc fun d id x =>
    match d.coatTable (x.regs.mN 1 % 4) (bits (x.regs.mN 1) 25 10) f.tbl.toNat with
    | .unknown =>
      let (d, a) := d.free 8
      let (d, b) := d.free 8
      .done (d.applyTask id (lookupWrs f (BitVec.ofNat 128 (a + 2 ^ 64 * b))))
    | .absent => .exc .illegal 0
    | .table tb =>
      let key := sliceB x.regs.key f.ko.toNat f.kl.toNat
      let bad := d.badWords (x.regs.mN 1 % 4) (bits (x.regs.mN 1) 25 10) tb
      if tb.defn.kind ≠ kind || (kind ≠ 0 && tb.defn.klen ≠ f.kl.toNat) then .exc .illegal 0
      else if !tb.defn.shared && !d.ownsOr (d.taskSeat x) tb.defn.part 5 then .exc .partition 0
      else
        let r := match kind with
          | 0 => tb.lkt bad (((x.regs.get f.ra).toNat % 2 ^ 20 + f.imm.toNat) % 2 ^ 20)
          | 1 => tb.lkh bad key
          | 2 => tb.lkx bad key
          | _ => tb.lkp bad key
        .done (d.applyTask id (lookupWrs f r))

/-! ### Flow state (R43 to R45, R61, R62, R184, R389) -/

/-- Whether the task's seat may act on a record of a partition. -/
def Device.taskOwns (d : Device) (x : Task) (part : Nat) : Bool := d.ownsOr (d.taskSeat x) part 4

/-- The record is fetched for the task: it waits until the record is there, and reads it in the render store when no way can
take a copy (R61, DEDUCED, log, entry 37). -/
def Device.taskFetch (d : Device) (i : FlowId) : Device × Option Nat :=
  let d := d.issueFetch i
  match d.homeOf i with
  | none => ((d.occ ⟨0x203, 1, none, none, some (8, 0), some i.space, none⟩).addAbsent i, none)
  | some h =>
    let d := d.occFlow 0x203 (some (8, 0)) h
    ((d.fetchInstall h).1, some h)

/-- LKF of a task: it reads a record of any partition (R150). An install that waits for room in the write-back queue holds it (R177). -/
def Device.thrLkf (d : Device) (e t : Nat) (q : Pred) (f : FmtL) : Device :=
  d.thrRun e t q 0x34 f.enc fun d id x =>
    let i : FlowId := ⟨f.tbl.toNat % 16, sliceB x.regs.key f.ko.toNat f.kl.toNat⟩
    let out := d.lkfOutcome d.buf.nextFrame 0 i (d.spaceEn i.space)
    let waits := match out with
      | .hit _ | .miss => false
      | _ => ((d.homeOf i).any fun h => (d.skimAt h).isNone) && d.installWaits i
    let (d, h) : Device × Option Nat := if waits then (d, none) else match out with
      | .hit h => (d, some h)
      | .miss => (d, none)
      | _ => d.taskFetch i
    if waits then .wait d else match h.bind fun h => (d.authCopy h).map fun b => (h, b) with
    | none => .done (d.applyTask id (lookupWrs f 0))
    | some (h, b) =>
      let d := d.update h (d.hitUpds ++ byteUpd x.len)
      .done (d.applyTask id (.flowHit h b :: lookupWrs f (flowResult h b)))

def Device.thrFld (d : Device) (e t : Nat) (q : Pred) (f : FmtFS) : Device :=
  d.thrResults e t q 0x40 f.enc fun _ x _ =>
    .ok (resultTo f.rd (BitVec.ofNat 64 (match x.f with | some b => fieldLE b f.foff.toNat f.size | none => 0)))

/-- The record a task's F names, as it stands now. -/
def Device.taskRecord (d : Device) (x : Task) : Option (Nat × List Byte) :=
  match x.f, x.hit with
  | some b, some h => match d.authCopy h with
    | some c => if recValid c && recId c == recId b then some (h, c) else none
    | none => none
  | _, _ => none

/-- A task's update of its record, applied at once in the update order; none when F is not valid. -/
def Device.taskUpdate (d : Device) (id : Nat) (x : Task) (us : List Byte → List Upd) (ws : List Byte → List Wr)
    (none_ : List Wr) : ThrOut :=
  match d.taskRecord x with
  | none => .done (d.applyTask id none_)
  | some (h, b) =>
    if !d.taskOwns x (d.partOf b) then .exc .partition 0
    else
      let u := us b
      let d := if u.isEmpty then d else (d.update h u).modTask id fun y => { y with own := y.own ++ u }
      .done (d.applyTask id (ws b))

def Device.thrFst (d : Device) (e t : Nat) (q : Pred) (f : FmtFS) : Device :=
  d.thrRun e t q 0x41 f.enc fun d id x =>
    d.taskUpdate id x (fun _ => [.put f.foff.toNat (bytesLE f.size (x.regs.get f.rd).toNat)]) (fun _ => []) []

def Device.thrFadd (d : Device) (e t : Nat) (q : Pred) (f : FmtFS) : Device :=
  d.thrRun e t q 0x42 f.enc fun d id x =>
    let v := if f.i then unsigned (8 * f.size) (signed 24 f.imm.toNat) else (x.regs.get f.rd).toNat
    d.taskUpdate id x (fun _ => [.add f.foff.toNat f.size v]) (fun _ => []) []

def Device.thrFcas (d : Device) (e t : Nat) (q : Pred) (f : FmtFS) : Device :=
  d.thrRun e t q 0x43 f.enc fun d id x =>
    let new := (x.regs.get f.rd).toNat % 2 ^ (8 * f.size)
    let want := (x.regs.get f.rb).toNat % 2 ^ (8 * f.size)
    let ok (b : List Byte) : Bool := fieldLE b f.foff.toNat f.size == want
    d.taskUpdate id x (fun b => if ok b then [.put f.foff.toNat (bytesLE f.size new)] else []) (fun b => [.pred f.pd (ok b)])
      [.pred f.pd false]

def Device.thrFstamp (d : Device) (e t : Nat) (q : Pred) (f : FmtFS) : Device :=
  d.thrRun e t q 0x44 f.enc fun d id x =>
    d.taskUpdate id x (fun _ => [.put f.foff.toNat (bytesLE 8 (d.stampValue f.tb.toNat))]) (fun _ => []) []

def Device.thrFlearn (d : Device) (e t : Nat) (q : Pred) (f : FmtFL) : Device :=
  d.thrRun e t q 0x45 f.enc fun d id x =>
    let i : FlowId := ⟨f.space.toNat, sliceB x.regs.key f.ko.toNat f.kl.toNat⟩
    let m0 := x.regs.mN 0
    let (d, refused) := d.learnRequest i (bits m0 13 10) (m0 % 1024) ((x.regs.get f.ra).toNat % 2 ^ 32)
    .done (if refused then d.applyTask id [.learnRefused] else d)

/-! ### Edits and dispositions (R64, R65, R67, R69) -/

/-- An edit is staged with the task's frame; a frame that would carry more than 8 edits or 64 bytes of growth takes ILLEGAL
(DESIGN CHOICE, log, entry 35). -/
def Device.thrEdit (d : Device) (e t : Nat) (q : Pred) (op enc off : Nat) (o : Task → EditOp) : Device :=
  d.thrRun e t q op enc fun d id x =>
    let es := addEdit x.edits ⟨x.base + off, o x⟩
    if 8 < es.length ∨ 64 < growthOf es then .exc .illegal 0 else .done (d.modTask id fun y => { y with edits := es })

/-- A forward instruction of a task (R69). -/
def Device.thrForward (d : Device) (e t : Nat) (q : Pred) (op enc : Nat) (f : Regs → Except Exc (List Wr)) : Device :=
  d.thrResults e t q op enc fun _ x _ => f x.regs

/-- FWD of a task: a register value above 511 is TARGET (R67, R75, R76). -/
def thrFwdWrs (f : FmtW) (r : Regs) : Except Exc (List Wr) :=
  if f.reg && decide (511 < wValue r f % 1024) then .error .target else .ok (fwdWrs r f)

def Device.thrMirror (d : Device) (e t : Nat) (q : Pred) (f : FmtW) : Device :=
  d.thrRun e t q 0x65 f.enc fun d id _ => .done (d.modTask id fun y => { y with mirror := some (f.val.toNat % 1024, f.aux.toNat) })

/-- An instruction that line form alone has (R32): ILLEGAL in a thread. -/
def Device.thrIllegal (d : Device) (e t : Nat) (q : Pred) (op enc : Nat) : Device :=
  d.thrRun e t q op enc fun _ _ _ => .exc .illegal 0

def Device.thrEnd (d : Device) (e t : Nat) (q : Pred) : Device :=
  d.thrRun e t q 0x71 0 fun d id _ => .left (d.endTask id)

/-! ### Memory (R72, R74, R199, R374) -/

/-- The first address of a run of `n` bytes that a task may not reach, walking over the areas of R374. -/
def Device.badAddr (d : Device) (id : Nat) (write : Bool) : Nat → Nat → Nat → Option Nat
  | 0, a, n => if n = 0 then none else some a
  | fuel + 1, a, n =>
    if n = 0 then none
    else
      let p := pageBase id
      let areas := (if write then [(p, p + 2), (p + 0x40, p + 0x40C0)] else [(p, p + 0x40C0)]) ++
        [(p + 0x4800, p + 0x8000), (0x1400000, 0x2000000), (heapStart, 2 * heapStart)]
      match areas.find? fun r => decide (r.1 ≤ a ∧ a < r.2) with
      | none => some a
      | some (_, hi) =>
        if heapStart ≤ a ∧ ((d.heapAddr (a - heapStart)).isNone ∨ (d.heapAddr (min (a + n) hi - 1 - heapStart)).isNone) then some a
        else if a + n ≤ hi then none
        else d.badAddr id write fuel hi (n - (hi - a))

def Device.memRead (d : Device) (a n : Nat) : List Byte :=
  if a < heapStart then d.sram a n
  else match d.heapAddr (a - heapStart) with
    | some s => d.storeRead s n
    | none => List.replicate n 0

def Device.memWrite (d : Device) (a : Nat) (bs : List Byte) : Device :=
  if a < heapStart then d.setSram a bs
  else match d.heapAddr (a - heapStart) with
    | some s => d.storeWrite s bs
    | none => d

/-- The first store address of a run of heap bytes that reads poisoned, 16-byte codeword by codeword (R199, R212). -/
def Device.poisonedIn (d : Device) (a n : Nat) : Option Nat :=
  if a < heapStart ∨ n = 0 then none
  else (List.range ((a + n - 1) / 16 - a / 16 + 1)).findSome? fun k =>
    let x := (a / 16 + k) * 16
    match d.heapAddr (x - heapStart) with
    | some s => if d.storePoisoned s then some x else none
    | none => none

/-- The bursts a run of heap bytes takes enter the store's queues through port SCAFFOLD (R199, R201). -/
def Device.heapTraffic (d : Device) (e a n : Nat) (write : Bool) : Device :=
  if a < heapStart ∨ n = 0 then d
  else match d.heapAddr (a - heapStart) with
    | some s => d.request 2 (3, e) s write ((s + n - 1) / 32 - s / 32 + 1)
    | none => d

/-- Base plus signed offset, modulo 2^64. -/
def memAddr (r : Regs) (f : FmtM) : Nat := unsigned 64 ((r.get f.ra).toNat + signed 37 f.off.toNat)

/-- A load or store of `n` bytes: its alignment, its region and its areas. -/
def Device.memCheck (d : Device) (id : Nat) (heap write : Bool) (a n : Nat) : Option ThrOut :=
  if a % n ≠ 0 then some (.exc .align a)
  else if (decide (heapStart ≤ a)) != heap then some (.exc .address a)
  else match d.badAddr id write 4 a n with
    | some b => some (.exc .address b)
    | none => (d.poisonedIn a n).map ThrOut.lost

def Device.thrLoad (d : Device) (e t : Nat) (q : Pred) (heap : Bool) (f : FmtM) : Device :=
  d.thrRun e t q (if heap then 0x9A else 0x98) f.enc fun d id x =>
    let n := 2 ^ f.sz.toNat
    let a := memAddr x.regs f
    if heap && f.sz != 3 then .exc .illegal 0
    else match d.memCheck id heap false a n with
      | some o => o
      | none => .done ((d.heapTraffic e a n false).applyTask id <| resultTo f.rd (BitVec.ofNat 64 (leNat (d.memRead a n))))

/-- ST, and STD as an atomic read-modify-write of its codeword (R199). Other threads see it at once (R74; DESIGN CHOICE, log,
entry 78). -/
def Device.thrStore (d : Device) (e t : Nat) (q : Pred) (heap : Bool) (f : FmtM) : Device :=
  d.thrRun e t q (if heap then 0x9B else 0x99) f.enc fun d id x =>
    let n := 2 ^ f.sz.toNat
    let a := memAddr x.regs f
    if heap && f.sz != 3 then .exc .illegal 0
    else match d.memCheck id heap true a n with
      | some o => o
      | none => .done ((d.heapTraffic e a n true).memWrite a (bytesLE n (x.regs.get f.rd).toNat))

/-! ### Control (R73, R375) -/

def Device.regionOk (d : Device) (x : Task) (pc : Nat) : Bool := decide (144 ≤ pc ∧ pc < d.bankLen x.bank)

/-- The target of JMP and CALL. -/
def jumpTarget (r : Regs) (f : FmtJ) : Nat := if f.reg then (r.get f.ra).toNat else f.imm.toNat

def branchTarget (r : Regs) (f : FmtJ) : Nat := unsigned 64 (r.pc.toNat + signed 32 f.imm.toNat)

def Device.goTo (d : Device) (x : Task) (pc : Nat) (g : Device → Device) : ThrOut :=
  if d.regionOk x pc then .jump (g d) pc else .exc .address pc

def Device.thrJmp (d : Device) (e t : Nat) (q : Pred) (f : FmtJ) : Device :=
  d.thrRun e t q 0x90 f.enc fun d _ x => d.goTo x (jumpTarget x.regs f) id

def Device.thrBr (d : Device) (e t : Nat) (q : Pred) (f : FmtJ) : Device :=
  d.thrRun e t q 0x91 f.enc fun d _ x => d.goTo x (branchTarget x.regs f) id

def Device.thrCall (d : Device) (e t : Nat) (q : Pred) (f : FmtJ) : Device :=
  d.thrRun e t q 0x92 f.enc fun d id x =>
    let sp := unsigned 64 (x.regs.sp.toNat - 8)
    if sp % 8 ≠ 0 then .exc .align sp
    else if sp < pageBase id + 0x4800 ∨ pageBase id + 0x8000 < sp + 8 then .exc .stack sp
    else d.goTo x (jumpTarget x.regs f) fun d =>
      (d.setSram sp (bytesLE 8 (x.regs.pc.toNat + 1))).modTask id fun y => { y with regs := { y.regs with sp := BitVec.ofNat 64 sp } }

def Device.thrRet (d : Device) (e t : Nat) (q : Pred) (f : FmtQ) : Device :=
  d.thrRun e t q 0x93 f.enc fun d id x =>
    let sp := x.regs.sp.toNat
    if sp % 8 ≠ 0 then .exc .align sp
    else if sp < pageBase id + 0x4800 ∨ pageBase id + 0x8000 < sp + 8 then .exc .stack sp
    else d.goTo x (leNat (d.sram sp 8)) fun d =>
      d.modTask id fun y => { y with regs := { y.regs with sp := BitVec.ofNat 64 (sp + 8) } }

def Device.thrLoop (d : Device) (e t : Nat) (q : Pred) (f : FmtJ) : Device :=
  d.thrRun e t q 0x94 f.enc fun d id x =>
    let w := widthOf f.ra
    let v := ((x.regs.get f.ra).toNat + 2 ^ w - 1) % 2 ^ w
    let set (d : Device) : Device := d.applyTask id (resultTo f.ra (BitVec.ofNat 64 v))
    if v = 0 then .done (set d) else d.goTo x (branchTarget x.regs f) set

/-! ### WAIT, YIELD and FENCE (R369, R385, R386, R389) -/

/-- The thread is given up with the pc on the next word, and the task joins what it waits for; a spent task takes BUDGET at the boundary
instead (R388). -/
def Device.giveUp (d : Device) (e t id : Nat) (at_ : TaskAt) (f : Device → Device) : ThrOut :=
  if (d.thr (thrKey e t)).spent then .done d
  else .left (f ((d.modTask id fun x => { x with regs := { x.regs with pc := x.regs.pc + 1 } }).saveTask e t id at_))

def Device.yieldTask (d : Device) (e t id : Nat) : ThrOut := d.giveUp e t id .ready fun d => d.wakeTask id

def Device.thrWait (d : Device) (e t : Nat) (q : Pred) (f : FmtQ) : Device :=
  d.thrRun e t q 0xA0 f.enc fun d id _ =>
    match f.kind.toNat with
    | 0 => if f.imm = 0 then d.yieldTask e t id else d.giveUp e t id .delay fun d => d.armTimer id f.imm.toNat
    | 1 =>
      let n := f.imm.toNat % 65536
      if d.scaf.signals.contains n then .done (d.modScaf fun s => { s with signals := s.signals.filter (· ≠ n) })
      else d.giveUp e t id (.signal n) fun d => d.modScaf fun s => { s with waiters := s.waiters ++ [(n, id)] }
    | 2 => .done d
    | _ => .exc .illegal 0

def Device.thrYield (d : Device) (e t : Nat) (q : Pred) (f : FmtQ) : Device :=
  d.thrRun e t q 0xA1 f.enc fun d id _ => d.yieldTask e t id

/-- The COMPLETION of a task's command in its completion area; SEQ and TIME of its header are open (log, entry 3). -/
def Device.taskCompletion (d : Device) (id op status tag : Nat) (result : List Byte) : Device :=
  let (d, a) := d.free 6
  let (d, b) := d.free 6
  d.setSram (pageBase id + 0x4080) (noticeEntry 3 false false false a b (completionBody op status tag 0 0 result))

/-- The locks a task holds after a command: those of its engine's number that it took (R389). -/
def Device.taskLocks (d : Device) (id e op flags status h : Nat) : Device :=
  if status ≠ St.ok then d
  else
    let took := op == 4 && bit flags 0
    let gave := (op == 4 && !bit flags 0 && bit flags 1) || (op == 2 && bit flags 1)
    d.modTask id fun x =>
      let ls := if took then (x.locks.filter (· ≠ h)) ++ [h] else if gave then x.locks.filter (· ≠ h) else x.locks
      { x with locks := ls, lockEngine := if ls.isEmpty then none else some e }

/-- FENCE of KIND 1: the command in the task's command area (R389, R413, R414). On a record of a partition that the task's seat does not
own it is PARTITION (R76, R389); an insert completes with PRIV, as R150 has it. -/
def Device.taskCommand (d : Device) (e id : Nat) (x : Task) : ThrOut :=
  let c := d.sram (pageBase id + 0x4040) 64
  let op := fieldLE c 0 1
  let flags := fieldLE c 1 1
  let tag := fieldLE c 2 2
  let a := fieldLE c 8 8
  if !((1 ≤ op ∧ op ≤ 5) ∨ op = 0x11) then .exc .illegal 0
  else
    let unused := (List.range 48).all fun i =>
      (flowUsed op flags).any (fun u => decide (u.1 ≤ 16 + i ∧ 16 + i < u.1 + u.2)) || c.getD (16 + i) 0 == 0
    let spelt := unused && flags % 128 / 2 ^ flowFlagBits op == 0 && decide (128 ≤ fieldLE c 4 4)
    if !spelt then .done (d.taskCompletion id op St.badParam tag [])
    else match d.badAddr id false 4 a 128, d.badAddr id (op == 4) 4 a 128 with
      | some b, _ | _, some b => .exc .address b
      | none, none => match d.poisonedIn a 128 with
        | some b => .lost b
        | none =>
          if d.flowWaits op flags (d.memRead a 128) then .wait d else
          let (d, r) := d.flowCommand (d.taskIssuer e x) op flags (fun i n => fieldLE c i n) (d.memRead a 128) (16 + e, id)
          let insert := op == 1 || (op == 0x11 && (d.homeOf (recId (d.memRead a 128))).isNone)
          if r.status = St.priv ∧ !insert then .exc .partition 0
          else match r.waits with
          | some q => .wait (d.modTask id fun y => { y with cmd := some ⟨q, (recId (d.memRead a 128)).space, (recId (d.memRead a 128)).key, op, tag, flags, r.handle⟩ })
          | none =>
            let d := match r.out with | some b => d.memWrite a b | none => d
            .done ((d.taskLocks id e op flags r.status r.handle).taskCompletion id op r.status tag r.result)

def Device.thrFence (d : Device) (e t : Nat) (q : Pred) (f : FmtQ) : Device :=
  d.thrRun e t q 0xAA f.enc fun d id x =>
    match f.kind.toNat with
    | 0 => .done d
    | 1 => d.taskCommand e id x
    | 2 => .done (d.raiseSignal (f.imm.toNat % 65536))
    | _ => .exc .illegal 0

/-- The commands of tasks whose quote has ended complete: the record is removed, the completion written, and the thread goes on
(R180, R389). -/
def Device.taskCommandsDone (d : Device) : Device :=
  d.scaf.tasks.foldl (fun d (id, x) => match x.cmd, x.thread? with
    | some c, some k =>
      if (d.quote c.qid).isSome then d
      else
        let i : FlowId := ⟨c.space, c.key⟩
        let home := d.homeOf i
        let d := match home with | some h => (d.occFlow 0x208 (some (3, k / 8)) h).dropRecord i h | none => d
        let d := d.taskCompletion id c.op (if home.isSome then St.ok else St.notFound) c.tag (bytesLE 4 (home.getD c.handle))
        (d.modTask id fun y => { y with cmd := none }).thrDone (k / 8) (k % 8) id (x.regs.pc.toNat + 1) x
    | _, _ => d) d

/-! ### Long instructions (R77 to R79, R392) -/

/-- How far a long instruction over `n` bytes goes this time from `p`: without an interrupt to its end; with one, as many 64-byte units
as were done before the SAMPLE that finds it. Answers the bytes done in all. -/
def longEnd (interrupt : Bool) (units n p : Nat) : Nat := if interrupt then min n (p + 64 * units) else n

/-- What a long instruction leaves in pr, and whether it has completed. -/
def Device.longDone (d : Device) (id n stop : Nat) : ThrOut :=
  let set (v : Nat) : Device := d.modTask id fun y => { y with regs := { y.regs with pr := BitVec.ofNat 64 v } }
  if n ≤ stop then .done (set 0) else .again (set stop)

/-- How a run of units ends: all were done, the instruction has its result, or a unit could not be: an exception with its address, or
an uncorrectable read. -/
inductive UnitEnd where
  | ran | ended | failed (x : Option Exc) (addr : Nat)

/-- The units of bytes [p, stop) in order, each on what the ones before it left (R77). -/
def units {α : Type} (f : α → Nat → Nat → α × UnitEnd) : Nat → α → Nat → Nat → α × UnitEnd
  | 0, s, _, _ => (s, .ran)
  | k + 1, s, p, stop =>
    if stop ≤ p then (s, .ran)
    else match f s p (min 64 (stop - p)) with
      | (s, .ran) => units f k s (p + 64) stop
      | r => r

/-- What keeps a unit from being read or written: an address outside the areas, or a poisoned codeword. -/
def Device.unitErr (d : Device) (id : Nat) (write : Bool) (a n : Nat) : Option UnitEnd :=
  match d.badAddr id write 4 a n with
  | some b => some (.failed (some .address) b)
  | none => if write then none else (d.poisonedIn a n).map fun b => .failed none b

/-- The end of a long instruction after its units. -/
def Device.unitsDone (d : Device) (id n stop : Nat) (r : UnitEnd) : ThrOut :=
  match r with
  | .failed (some c) b => .excAt d c b
  | .failed none b => .lostAt d b
  | .ended => d.longDone id n n
  | .ran => d.longDone id n stop

/-- BLKMV, in descending order when the destination lies above the source and the regions overlap (R78). -/
def Device.thrBlkmv (d : Device) (e t : Nat) (q : Pred) (f : FmtQ) (units : Nat) : Device :=
  d.thrRun e t q 0xA8 f.enc fun d id x =>
    let src := (x.regs.get f.ra).toNat
    let dst := (x.regs.get f.rd).toNat
    let n := (x.regs.get f.rb).toNat
    let p := min n x.regs.pr.toNat
    let stop := longEnd (d.thr (thrKey e t)).interrupt units n p
    let down := decide (src < dst ∧ dst < src + n)
    let (d, r) := Machine.units (fun (d : Device) q m =>
      let at_ := if down then n - q - m else q
      match d.unitErr id false (src + at_) m <|> d.unitErr id true (dst + at_) m with
      | some r => (d, r)
      | none =>
        let d := (d.heapTraffic e (src + at_) m false).heapTraffic e (dst + at_) m true
        (d.memWrite (dst + at_) (d.memRead (src + at_) m), .ran)) (ceilDiv (stop - p) 64) d p stop
    d.unitsDone id n stop r

/-- The first word at a 4-byte aligned address that matches under a mask, among those of a region that end in its bytes [q, q + m)
(alignment by address, DESIGN CHOICE, log, entry 51; words are little-endian like every host word). -/
def Device.scanWord (d : Device) (a q m mask want : Nat) : Option Nat :=
  ((List.range (m + 3)).map fun i => q + i).findSome? fun i =>
    if 3 ≤ i ∧ q < i + 1 ∧ i < q + m ∧ (a + (i - 3)) % 4 = 0 ∧ leNat (d.memRead (a + (i - 3)) 4) &&& mask = want &&& mask
      then some (i - 3) else none

def Device.thrScan (d : Device) (e t : Nat) (q : Pred) (f : FmtQ) (units : Nat) : Device :=
  d.thrRun e t q 0xA9 f.enc fun d id x =>
    let a := (x.regs.get f.ra).toNat
    let n := (x.regs.get f.rb).toNat
    let p := min n x.regs.pr.toNat
    let stop := longEnd (d.thr (thrKey e t)).interrupt units n p
    let (d, r) := Machine.units (fun (d : Device) q m => match d.unitErr id false (a + q) m with
      | some r => (d, r)
      | none =>
        let d := d.heapTraffic e (a + q) m false
        match d.scanWord a q m f.imm.toNat ((x.regs.get f.rd).toNat % 2 ^ 32) with
        | some i => (d.applyTask id (resultTo f.rd (BitVec.ofNat 64 i)), .ended)
        | none => (d, .ran)) (ceilDiv (stop - p) 64) d p stop
    let d := match r with
      | .ran => if n ≤ stop then d.applyTask id (resultTo f.rd (BitVec.ofNat 64 (2 ^ 64 - 1))) else d
      | _ => d
    d.unitsDone id n stop r

/-- The partial result of CSUM over more bytes: the sum, or the CRC register without its final inversion (R79). -/
def csumPart (fn acc : Nat) (l : List Byte) : Nat :=
  match fn with
  | 0 => onesSumFrom acc l
  | 1 => crcRun polyCrc32 acc l
  | _ => crcRun polyCrc32c acc l

/-- CSUM: over the window, or with FN 0b11 over the region at [RA] of RB bytes, RA and RB standing where the format has OFF and LEN
(DEDUCED, log, entry 38). -/
def Device.thrCsum (d : Device) (e t : Nat) (q : Pred) (f : FmtH) (units : Nat) : Device :=
  d.thrRun e t q 0x10 f.enc fun d id x =>
    if f.fn ≠ 3 then match csumEff true (d.taskWindow id x) f with
      | .ok ws => .done (d.applyTask id ws)
      | .error c => .exc c 0
    else
      let a := (x.regs.get f.off).toNat
      let n := (x.regs.get f.len).toNat
      let p := min n x.regs.pr.toNat
      let fn := f.imm.toNat % 4
      if fn = 3 then .exc .illegal 0
      else if !destOk f.rd then .exc .register 0
      else
        let stop := longEnd (d.thr (thrKey e t)).interrupt units n p
        let ((d, acc), r) := Machine.units (fun (s : Device × Nat) q m => match s.1.unitErr id false (a + q) m with
          | some r => (s, r)
          | none => ((s.1.heapTraffic e (a + q) m false, csumPart fn s.2 (s.1.memRead (a + q) m)), .ran))
          (ceilDiv (stop - p) 64) (d, (x.regs.get f.rd).toNat % 2 ^ 32) p stop
        let v := if stop < n ∨ fn = 0 then acc else inv32 acc
        (d.applyTask id [.reg f.rd (BitVec.ofNat 64 v)]).unitsDone id n stop r

end Sys2Proof.Machine
end

