-- ==== Sys2Proof/Machine/Faults.lean ====
section
/-! DEFINITION. Faults: uncorrectable data and its fillers, the requests of the render store that complete, failed channels,
domain faults, reclaims and restarts, escalation, and the leases a seat reads (R27, R85, R147, R188, R198, R212, R239, R298,
R395, R401, R445 to R457). -/

namespace Sys2Proof.Machine

/-! ### Safe stop: its causes (R453, R455, R456) -/

/-- A DOMAIN_FAULT is raised and answers its SEQ. It is stamped at once, also within the HOLDOFF of the last one of its source, since
R430 puts it before every item that its recovery causes (DEDUCED, assumption log, entry 62). -/
def Device.raiseSeq (d : Device) (src sev cause dkind dinst arg0 arg1 : Nat) : Device × Nat :=
  let e : Event := ⟨src, eventCode sev cause, 1, dkind, dinst, arg0, arg1, d.transit⟩
  ((d.stampEvent e).setSlot ⟨e.src, e.code, none, some d.transit⟩, d.hawk.seq)

/-- A safe stop begins: SAFE_STOP is raised, and the escalating error's SEQ recorded. `under`: the SEQ of the fault under
recovery; a cause of R455 has none, and the event gives its own error there. -/
def Device.beginStop (d : Device) (under esc : Nat) : Device :=
  if d.fault.stopping then d
  else
    let d := d.raiseDom 496 Sev.escalated Cause.safeStop 0xC 0 under esc
    let d := (d.setReg Off.faultStopSeqLo (esc % 2 ^ 32)).setReg Off.faultStopSeqHi (esc / 2 ^ 32 % 2 ^ 16)
    { d with fault := { d.fault with stopping := true } }

/-- Recovery goes one step beyond the domain's restart (R453). -/
def Device.escalate (d : Device) (under esc : Nat) : Device :=
  ((d.bump Off.faultEscalations 1).raiseDom 496 Sev.escalated Cause.escalated 0xC 0 under esc).beginStop under esc

/-! ### Records lost (R188) -/

/-- Both copies of a record are removed as "flow aged out": its lodge entry becomes absent, its quote ends, and with `notice` its
LEARN notice goes out. -/
def Device.loseRecord (d : Device) (h : Nat) (keyLost notice : Bool) : Device :=
  match d.authCopy h with
  | none => d
  | some b =>
    let i := recId b
    let d := d.quoteLost i
    let d := if notice then d.ageOut h keyLost else d.removeRecord h
    (d.lodgeRemoved i).closeLodge

/-- An uncorrectable render record: counted and removed. -/
def Device.renderUe (d : Device) (h : Nat) (keyLost : Bool) : Device :=
  let chan := d.recordChannel (h / 8)
  ((d.bump Off.flowRenderUe 1).raiseDom (256 + chan) Sev.fault Cause.ueData 6 chan h 2).loseRecord h keyLost true

/-- An uncorrectable skim copy: a clean one is reloaded from its home, a dirty one lost with its record. -/
def Device.skimUe (d : Device) (p : Nat) : Device :=
  match NMap.get? d.flow.skim p with
  | none => d
  | some c =>
    let g := p / 4 % 32
    let dirty := (d.copyNow p).any recDirty
    let d := (d.bump Off.flowSkimUe 1).raiseDom (224 + g) Sev.fault Cause.ueData 5 g c.handle 1
    if dirty then d.loseRecord c.handle false true
    else match NMap.get? d.flow.render c.handle with
      | some r => (d.requestRead c.handle).modFlow fun w => { w with
          skim := NMap.set w.skim p { c with bytes := asSkim r (recTier c.bytes) } }
      | none => d

/-- A frame leaves the queues of a pipeline. -/
def Pipe.without (f : Nat) (q : Pipe) : Pipe :=
  { q with
    entryQ := q.entryQ.filter (· ≠ f), prioQ := q.prioQ.filter (· ≠ f), places := q.places.filter (· ≠ f)
    line := q.line.filter (· ≠ f) }

/-- A frame is discarded as one with a bad FCS wherever it is before its copies. -/
def Device.discardBad (d : Device) (f : Nat) : Device :=
  match d.frame f with
  | none => d
  | some x =>
    match x.place with
    | .out => d.turnBad f false
    | .pass => match NMap.get? d.ctxs f with
      | some c => d.loseCtx (.ing f) c
      | none => (d.discardTurn f 0x60).leaveStations f
    | _ =>
      let d := { d with
        pipes := { d.pipes with q := d.pipes.q.map (fun (p : Nat × Pipe) => (p.1, p.2.without f)) }
        buf := { d.buf with repl := d.buf.repl.map (fun (p : Nat × List ReplItem) => (p.1, p.2.filter fun i => i.frame ≠ f)) } }
      match x.place with
      | .entry | .recirc | .lodge => (d.discardTurn f 0x60).leaveStations f
      | .prio => ((d.discardTurn f 0x60).leaveStations f).pipePfc x.pipe
      | _ => (d.discardFrame f 0x60).leaveStations f

/-- The frames parked on an entry are discarded, and the entry closes (R188, R448). -/
def Device.loseLodge (d : Device) (i : FlowId) : Device :=
  match d.lodged? i with
  | none => d
  | some e =>
    let d := (d.modFlow fun w => { w with lodge := w.lodge.filter fun e => e.id ≠ i }).unlease 1 (h1 i.input)
    (((e.frames.filter fun p => !p.2).map (·.1)).foldl Device.discardBad d).showLodge

/-! ### Uncorrectable data (R85, R147, R239, R451) -/

/-- A step-word parity fault: the context's frame is lost and counted, and the word is under reload (R85, R120). -/
def Device.stepWordUe (d : Device) (who : Who) : Device :=
  match d.lineCtx who with
  | none => d
  | some x => match x.word.bind (d.storeAddr x x.station) with
    | none => d
    | some a =>
      let (src, kind) := if x.egress then (160 + x.pipe, 3) else (128 + x.pipe, 2)
      let d := ((d.loseCtx who x).bump (Off.pipeReloadDrop x.inst) 1).raiseDom src Sev.fault Cause.ueData kind x.pipe a 4
      let k := (x.inst * 64 + stnOf x.egress x.station, a)
      { d with pipes := { d.pipes with reload := (d.pipes.reload.filter (· ≠ k)) ++ [k] } }

/-- Handling of a data fault in place (R451); a corrected error is counted, and the reader gets good data. -/
def Device.ueData (d : Device) (w : UeWhere) : Device :=
  match w with
  | .cell f c =>
    if !((d.frame f).any fun x => x.chain.contains c || x.asideCell == some c) then d
    else ((d.bump Off.bufCellUe 1).raiseDom (192 + c % 32) Sev.fault Cause.ueData 4 (c % 32) c 0).turnBad f false
  | .skim p => d.skimUe p
  | .render h lost => if (d.authCopy h).isSome then d.renderUe h lost else d
  | .table n inst word =>
    if d.coats.damaged.contains (n, inst, word) then d
    else
      let (d, loc) := d.free 10
      ((d.bump Off.tblEccUe 1).raise 385 Sev.fault Cause.ueData loc 3).modCoats fun c =>
        { c with damaged := c.damaged ++ [(n, inst, word)] }
  | .stepWord who => d.stepWordUe who
  | .lodge s k =>
    let i : FlowId := ⟨s, k⟩
    if (d.lodged? i).isNone then d
    else
      let d := (d.raiseDom (224 + i.group) Sev.fault Cause.ueData 5 i.group (h1 i.input) 5).loseLodge i
      match d.homeOf i with | some h => d.loseRecord h false true | none => d
  | .writeBack h =>
    if (d.queued h).isNone then d
    else match d.authCopy h with
      | some b => ((d.raiseDom (224 + d.groupOf h) Sev.fault Cause.ueData 5 (d.groupOf h) h 5).loseLodge (recId b)).loseRecord h false true
      | none => d
  | .codeword n => d.poisonWord n
  | .cellCorrected f => if (d.frame f).isSome then d.bump Off.bufCellCe 1 else d
  | .skimCorrected => d.bump Off.flowSkimCe 1
  | .tableCorrected => d.bump Off.tblEccCe 1
  | .stepCorrected who => match (d.lineCtx who).bind fun x => x.word.map fun _ => x.inst with
    | some n => d.bump (Off.pipeStepCe n) 1
    | none => d
  | .scaffold e t a => match (d.thr (thrKey e t)).state, (d.thr (thrKey e t)).task with
    | .running, some id => d.taskLost e id a
    | _, _ => d
  | .policer q =>
    if (d.quote q).isNone then d
    else (d.raise 371 Sev.fault Cause.ueData q 7).modQuote q fun x => { x with tokens := 0 }

/-- The good copy of a coat's retained image where a word is to be read: none when both are poisoned there (R198). -/
def goodCopy (p : Coat × Coat) (poison0 poison1 : Bool) : Option Coat :=
  if !poison0 then some p.1 else if !poison1 then some p.2 else none

/-- The word of a station at a step-store address, as an image has it. -/
def Coat.rewriteStep (c im : Coat) (stn a : Nat) : Coat :=
  match (NMap.getD c.addrs stn []).findIdx? (· == a) with
  | none => c
  | some i => match (im.words stn)[i]? with
    | none => c
    | some w =>
      if stn < 32 then { c with isteps := NMap.set c.isteps stn ((c.words stn).set i w) }
      else { c with esteps := NMap.set c.esteps (stn - 32) ((c.words stn).set i w) }

/-- The coats in their slots, and the egress parts in theirs, take what the retained images of their coats give; where one copy was
poisoned, it is rewritten from the other (R85, R147, R195, R198). -/
def Device.fromImages (d : Device) (poison0 poison1 : Bool) (f : Coat → Coat → Coat) : Device :=
  let one (p : Nat × Coat) : Nat × Coat := match (NMap.get? d.coats.images p.2.id).bind fun x => goodCopy x poison0 poison1 with
    | some im => (p.1, f p.2 im)
    | none => p
  d.modCoats fun c => { c with
    slots := c.slots.map one
    egress := c.egress.map one
    images := c.images.map fun p => match goodCopy p.2 poison0 poison1 with | some im => (p.1, (im, im)) | none => p }

/-- Darby finishes the reload of a step word (`station` in STN numbering) from the retained image of its coat. `poison0`, `poison1`:
its two copies are poisoned there; when both are, the fault escalates (R85, R195, R198, R455). -/
def Device.stepReload (d : Device) (inst station addr : Nat) (poison0 poison1 : Bool) : Device :=
  let k := (inst * 64 + station, addr)
  if !d.pipes.reload.contains k || !d.darbyRuns then d
  else if poison0 && poison1 then d.beginStop d.hawk.seq d.hawk.seq
  else
    let d := d.fromImages poison0 poison1 fun c im => c.rewriteStep im station addr
    { d with pipes := { d.pipes with reload := d.pipes.reload.filter (· ≠ k) } }

/-- Darby finishes the rewrite of a damaged table word from the retained image (R147, R195, R198, R455). -/
def Device.tableRewrite (d : Device) (n inst : Nat) (word : DamagedWord) (poison0 poison1 : Bool) : Device :=
  let k := (n, inst, word)
  if !d.coats.damaged.contains k || !d.darbyRuns then d
  else if poison0 && poison1 then d.beginStop d.hawk.seq d.hawk.seq
  else
    let d := d.fromImages poison0 poison1 fun c im => match NMap.get? c.tables n, NMap.get? im.tables n with
      | some t, some u => if t.inst = inst ∧ u.inst = inst then { c with tables := NMap.set c.tables n u } else c
      | _, _ => c
    d.modCoats fun c => { c with damaged := c.damaged.filter (· ≠ k) }

/-! ### Requests that complete, and failed channels (R198, R212) -/

/-- One poisoned codeword at address `a` of a read, by the region that holds it (R198): a record goes as an uncorrectable one; a
codeword of the heap stays poisoned for the threads that read it; of a coat image Darby reads the other copy and rewrites the damaged
one; telemetry staging and host data end the transfer with an error. Of Darby's own area nothing is held here. -/
def Device.poisonedAt (d : Device) (c : Nat) (r : RReq) (keyLost : Bool) (a : Nat) : Device :=
  let raised := d.raiseDom (256 + c) Sev.fault Cause.ueData 6 c a 2
  match d.regionOf a with
  | none => raised
  | some n => match d.fld (Off.rstoreRegion n) 30 28 with
    | 0 => if (d.authCopy (a / 128)).isSome then d.renderUe (a / 128) keyLost else raised
    | 1 => raised.poisonWord (a / 16)
    | 2 => (raised.darbyAccess (d.otherHalf n a) false 1).darbyAccess a true 1
    | 3 => raised
    | _ => raised.portError r.port a 2

/-- A request completes: corrected codewords are counted, and rewritten by the channel itself; the poisoned ones of a read (by their
number within the request) raise events and are handled by region (R198, R213, R500). A thread whose heap read is poisoned takes its
data fault through UE_DATA. KEY_LOST: the key bytes of the record are among the poisoned ones. -/
def Device.requestComplete (d : Device) (c id corrected : Nat) (poisoned : List Nat) : Device :=
  match (d.rchan c).issued.find? fun r => r.id == id with
  | none => d
  | some r =>
    let bad := if r.write then [] else poisoned.filter fun k => decide (k < 2 * r.bursts)
    let d := (d.bump (Off.rstoreChCe c) corrected).reqDone c r
    let d := (d.countUe c bad.length).bump (Off.rstoreChUe c) bad.length
    let keyLost (a : Nat) : Bool := bad.any fun k => (r.addr + 16 * k) / 128 == a / 128 && decide ((r.addr + 16 * k) % 128 < 48)
    bad.foldl (fun d k => d.poisonedAt c r (keyLost (r.addr + 16 * k)) (r.addr + 16 * k)) d

/-- The records of a failed channel are removed, their notices at no more than the learn rate of their space; the rest are counted
(R212). -/
def Device.channelRecords (d : Device) (c : Nat) : Device :=
  ((NMap.keys d.flow.render).filter fun h => d.recordChannel (h / 8) == c).foldl (fun d h => match d.authCopy h with
    | none => d
    | some b =>
      let s := (recId b).space
      let t := d.learnTokens s
      if t < 1000000 then (d.bump Off.flowRenderUe 1).loseRecord h false false
      else (d.modFlow fun w => { w with tokens := NMap.set w.tokens s (t - 1000000, d.transit) }).loseRecord h false true) d

/-- A read that a failed channel does not send returns poisoned data: one outside the records is handled by its region (R198, R212). -/
def Device.poisonedRead (d : Device) (c : Nat) (r : RReq) : Device :=
  match (d.regionOf r.addr).map fun n => d.fld (Off.rstoreRegion n) 30 28 with
  | some 0 | some 1 | none => d
  | some _ => d.poisonedAt c r false r.addr

/-- A queued read of a faulted channel returns poisoned data: a record that is still there goes (R188, R198, R451). -/
def Device.faultedRead (d : Device) (c : Nat) (r : RReq) : Device :=
  match (d.regionOf r.addr).map fun n => d.fld (Off.rstoreRegion n) 30 28 with
  | some 0 => if (d.authCopy (r.addr / 128)).isSome then d.renderUe (r.addr / 128) false else d
  | _ => d.poisonedRead c r

/-- A channel fails: it issues no more commands, the reads in its queues return poisoned data, and the records whose home lies in it go
(R212, R213). -/
def Device.failChannel (d : Device) (c : Nat) : Device :=
  let (d, why) := d.free 11
  let d := (d.setReg Off.rstoreFailed (setBits (d.reg Off.rstoreFailed) c c 1)).modDom 6 c fun x => { x with state := .failed }
  let d := d.setFld (Off.rstoreChStatus c) 2 0 6
  let d := d.raiseDom (256 + c) Sev.fault Cause.domainFailed 6 c why 0
  let reads := ((d.rchan c).queue ++ (d.rchan c).waiting ++ (d.rchan c).issued).filter fun r => !r.write
  let d := (d.modRchan c fun x => { x with queue := [], waiting := [], issued := [] }).channelRecords c
  reads.foldl (fun d r => d.poisonedRead c r) d

/-- A channel that counted more than RSTORE_UE_LIMIT uncorrectable codewords within one second fails. -/
def Device.channelFailed (d : Device) (c : Nat) : Device :=
  if d.chanFailed c || decide (((d.rchan c).ues.map (·.2)).sum ≤ d.fld Off.rstoreUeLimit 15 0) then d
  else d.failChannel c

/-! ### Domain faults (R445 to R449, R451) -/

/-- The event source of a domain (R445). -/
def domSource (kind inst : Nat) : Nat :=
  match kind with
  | 0 => inst | 1 => 64 + inst / 8 | 2 => 128 + inst | 3 => 160 + inst | 4 => 192 + inst | 5 => 224 + inst | 6 => 256 + inst
  | 7 => 288 + inst | 8 => 320 + inst | 9 => 416 + inst | 0xA => 464 | 0xB => 352 | _ => 496

/-- The instances of each domain kind (R445). -/
def domCount (kind : Nat) : Nat :=
  match kind with
  | 0 => 64 | 1 => 512 | 9 => 2 | 0xA | 0xB | 0xC => 1 | _ => if kind ≤ 8 then 32 else 0

/-- One lease is reclaimed (R448). -/
def Device.reclaimOne (d : Device) (l : Lease) : Device :=
  match l.kind with
  | 0 =>
    if 2 ^ 31 ≤ l.index then
      let c := l.index - 2 ^ 31
      match d.copy c with
      | some y => match d.frame y.frame with
        | some _ => if y.stage == .mac || y.stage == .remainder then d.abortCopy c
          else (d.modPort y.port fun r => { r with tx := if r.tx = some c then none else r.tx }).dropCopy c
        | none => d.dropCopy c
      | none => d
    else match (d.frame l.index).map (fun (x : Frame) => x.place) with
      | none => d
      | some .out => d
      | some .pass => (({ d with ctxs := NMap.del d.ctxs l.index }).discardTurn l.index 0x60).leaveStations l.index
      | some _ => d.discardBad l.index
  | 1 => match d.flow.lodge.find? fun e => h1 e.id.input == l.index with
    | some e => d.loseLodge e.id
    | none => d
  | 2 =>
    let d := if (d.authCopy l.index).isSome then d.commandUpdate l.index [.put 59 [0]] else d
    d.modScaf fun s => { s with tasks := s.tasks.map fun (k, x) => (k, x.keepLocks fun h => h ≠ l.index) }
  | 3 => d.abortTask l.index
  | _ => d

/-- Every lease of a holder is reclaimed and counted (R437, R449). The completion slots of Darby keep their commands (R452). -/
def Device.reclaim (d : Device) (kind inst : Nat) : Device :=
  let ls := d.fault.leases.filter fun l => l.dkind == kind && l.dinst == inst && !(l.kind == 4 && kind == 0xA)
  let d := { d with fault := { d.fault with leases := d.fault.leases.filter fun l => !ls.contains l } }
  let d := ls.foldl Device.reclaimOne d
  let n (k : Nat) : Nat := min 4095 (ls.filter fun l => l.kind == k).length
  if ls.isEmpty then d
  else (d.bump Off.faultReclaimed ls.length).raiseDom 497 Sev.info Cause.leaseReclaim kind inst
    (n 0 + n 1 * 2 ^ 12 + n 2 * 2 ^ 24 + n 3 * 2 ^ 36 + n 4 * 2 ^ 48) kind

/-- The tasks that bear an engine's locks without holding a thread of it (R395). -/
def Device.engineTasks (d : Device) (e : Nat) : List Nat :=
  (d.scaf.tasks.filter fun p => p.2.lockEngine == some e || p.2.thread?.any fun k => k / 8 == e).map (·.1)

/-- A seat becomes absent, for link loss, a lost bus-master enable, a missing keepalive or a fault (R400, R401). `declare`: its domain's
fault is declared with it, not yet by a detection; the absence is the whole of it, and the domain runs on (DEDUCED, assumption
log, entry 63). -/
def Device.seatLeaves (d : Device) (s : Nat) (declare : Bool) : Device :=
  if !d.present s then d
  else
    let d := (d.modSeat s fun x => { x with present := false, absentSince := d.transit }).showSeat s
    let d := d.raiseDom (seatSource s) Sev.info Cause.seatAbsent 9 s s 0
    let d := if declare then
        let (d, seq) := d.raiseSeq (seatSource s) Sev.fault Cause.domainFault 9 s 0 0
        d.modDom 9 s fun x => { x with declared := d.transit, faultSeq := seq }
      else d
    (d.reclaim 9 s).ringsOff s

def Device.seatAbsent (d : Device) (s : Nat) : Device := d.seatLeaves s true

/-- What a domain's fault does to what it serves, beside its leases (R27, R298, R395, R451). `frames`: the frames that the faulted
sequencer had at hand, which the sender names: those whose lists pass through a lost link, or at their flow step in the group. -/
def Device.fillDomain (d : Device) (kind inst : Nat) (frames : List Nat) : Device :=
  match kind with
  | 0 => (d.enabledPorts.filter fun p => (d.lanesOf p).any fun l => l / 8 == inst).foldl (fun d p =>
      (d.portDown p true).modPort p fun x => { x with bring := .down, aligned := false }) d
  | 1 => d.portDown inst true
  | 4 => frames.foldl Device.discardBad d
  | 5 =>
    let dirty := (d.flow.skim.filter fun p => (d.copyNow p.1).any recDirty && p.1 / 4 % 32 == inst).map (·.1)
    frames.foldl Device.discardBad (dirty.foldl Device.skimUe d)
  | 6 =>
    let fetched := (d.flow.lodge.filter fun e => e.outcome == .pending).filterMap fun e => d.homeOf e.id
    let hs := ((d.flow.wbq.map (·.1)) ++ fetched).filter fun h => d.recordChannel (h / 8) == inst
    let reads := ((d.rchan inst).queue ++ (d.rchan inst).waiting ++ (d.rchan inst).issued).filter fun r => !r.write
    let d := (hs.foldl (fun d h => d.renderUe h false) d).modRchan inst fun x => { x with
      queue := x.queue.filter fun r => r.write, waiting := x.waiting.filter fun r => r.write, issued := [] }
    reads.foldl (fun d r => d.faultedRead inst r) d
  | 7 => (d.engineTasks inst).foldl Device.abortTask ((d.setFlag (Off.scafEngStatus inst) 1 true).reclaim 7 inst)
  | 8 => (d.spanLanes inst).foldl (fun d l => d.laneSignal l Device.declareLos) d
  | 9 => d.seatLeaves inst false
  | 0xA => d.modCoats fun c => { c with pending := c.pending.map fun p => { p with again := p.cmd.isSome } }
  | 0xB =>
    let d := (List.range 8).foldl (fun d n => d.stepped n 0) d
    if d.servoOn then d.setServo 1 else d
  | _ => d

/-- A contained fault is declared, its leases are reclaimed, and its restart begins (R447, steps 2 to 4). -/
def Device.declareFault (d : Device) (kind inst arg : Nat) (frames : List Nat) : Device :=
  let (d, seq) := d.raiseSeq (domSource kind inst) Sev.fault Cause.domainFault kind inst arg 0
  let d := d.modDom kind inst fun x => { x with state := .faulted, waits := false, declared := d.transit, faultSeq := seq }
  let d := (d.fillDomain kind inst frames).reclaim kind inst
  d.modDom kind inst fun x => { x with state := .restarting }

/-- The domains whose recovery runs: at most 16 (R447). -/
def Device.recovering (d : Device) : Nat :=
  (d.fault.doms.filter fun p => p.2.state == .restarting || (p.2.state == .faulted && !p.2.waits)).length

/-- Restarts of a domain within the last second (R453). -/
def Device.restartsNow (d : Device) (kind inst : Nat) : Nat :=
  ((d.dom kind inst).restarts.filter fun t => decide (d.transit < t + 1000000000)).length

/-- A domain fault (R447, R453 to R455). `transit`: of a Plumb fault, that it affects the transit count. A domain that is held out
of service ignores its faults. -/
def Device.domainFault (d : Device) (kind inst arg : Nat) (transit : Bool) (frames : List Nat) : Device :=
  let x := d.dom kind inst
  if domCount kind ≤ inst || x.state == .failed || x.state == .stopped || d.fault.stopping then d
  else
    let d := d.modDom kind inst fun x => { x with faults := min 65535 (x.faults + 1) }
    let d := if kind = 7 then d.bump (Off.scafEngFaults inst) 1 else d
    let stamp (d : Device) : Device × Nat := d.raiseSeq (domSource kind inst) Sev.fault Cause.domainFault kind inst arg 0
    if kind = 0xC ∨ (kind = 0xB ∧ transit) then let (d, q) := stamp d; d.beginStop q q
    else if x.state != .running then let (d, q) := stamp d; d.escalate x.faultSeq q
    else
      let limit := d.fld Off.faultRepeat 7 0
      if limit ≠ 0 ∧ limit ≤ d.restartsNow kind inst then
        let (d, cause) := d.free 9
        let (d, q) := stamp (d.raiseDom 498 Sev.warn (cause % 2 ^ 14) kind inst kind inst)
        d.escalate x.faultSeq q
      else if 16 ≤ d.recovering then
        let d := d.modDom kind inst fun x => { x with state := .faulted, waits := true }
        { d with fault := { d.fault with waiting := d.fault.waiting ++ [(kind, inst, arg, frames)] } }
      else d.declareFault kind inst arg frames

/-- What a restart leaves in a domain. -/
def Device.afterRestart (d : Device) (kind inst : Nat) : Device :=
  match kind with
  | 0 => (d.enabledPorts.filter fun p => (d.lanesOf p).any fun l => l / 8 == inst).foldl (fun d p => d.bringUpAttempt p false) d
  | 1 => if d.macEn inst then d.bringUpAttempt inst false else d
  | _ => d

/-- A domain's restart completes; the next contained fault takes the free place (R447). -/
def Device.domainRestarted (d : Device) (kind inst : Nat) : Device :=
  let x := d.dom kind inst
  if x.state != .restarting || d.fault.stopping then d
  else
    let d := d.modDom kind inst fun x => { x with
      state := .running, restarts := (x.restarts.filter fun t => decide (d.transit < t + 1000000000)) ++ [d.transit] }
    let d := (d.bump Off.faultRecoveries 1).raiseDom (domSource kind inst) Sev.info Cause.domainRestarted kind inst (d.transit - x.declared) x.faults
    let d := d.afterRestart kind inst
    match d.fault.waiting with
    | (k, i, a, fs) :: rest => ({ d with fault := { d.fault with waiting := rest } }).declareFault k i a fs
    | [] => d

/-- FAULT_STATUS.ACTIVE: domains FAULTED or RESTARTING. A contained fault whose steps 2 to 4 wait is not declared FAULTED yet
(R447). -/
def Device.activeFaults (d : Device) : Nat := d.recovering

/-- The pin FAULT_N is driven low (R443). -/
def Device.faultNLow (d : Device) : Bool := decide (d.activeFaults ≠ 0) || d.flag Off.hawkStatus 0

/-! ### LEASE_QUERY (R450) -/

def leaseRecord (now : Nat) (l : Lease) : List Byte :=
  bytesLE 1 l.kind ++ bytesLE 1 l.dkind ++ bytesLE 2 l.dinst ++ bytesLE 4 l.index ++ bytesLE 4 l.amount ++
    bytesLE 4 (sat32 ((now - l.since) / 1000))

def insertLease (l : Lease) : List Lease → List Lease
  | [] => [l]
  | x :: t => if l.index < x.index then l :: x :: t else x :: insertLease l t

/-- A lease as its record shows it: one of buffer cells by the first cell of its frame and the cells it has (R450). -/
def Device.shownLease (d : Device) (l : Lease) : Lease :=
  if l.kind ≠ 0 then l
  else
    let f := if 2 ^ 31 ≤ l.index then (d.copy (l.index - 2 ^ 31)).map (·.frame) else some l.index
    match f.bind d.frame with
    | some x => { l with index := x.chain.headD 0, amount := x.cells }
    | none => l

/-- The records of a kind and a holder kind, in ascending INDEX from a first one, as many as LEN allows. -/
def Device.leaseQuery (d : Device) (c : CmdEntry) : Device :=
  d.runCmd c 0x13 0 [(16, 1), (17, 1), (20, 4)] 0 none fun d =>
    let k := c.p 16 1
    let h := c.p 17 1
    if !(k ≤ 4 ∨ k = 0xFF) then (d, St.badParam, [])
    else
      let ls := (d.fault.leases.map d.shownLease).filter fun l => (k == 0xFF || l.kind == k) && (h == 0xFF || l.dkind == h) && decide (c.p 20 4 ≤ l.index)
      let out := ((ls.foldl (fun acc l => insertLease l acc) []).take (c.len.toNat / 16)).map (leaseRecord d.transit)
      (d.hostWrite c.seat c.addr.toNat (out.flatMap id), St.ok, bytesLE 4 out.length)

end Sys2Proof.Machine
end

