-- ==== Sys2Proof/Machine/Perf.lean ====
section
/-! DEFINITION. The programmable counters: filters, the tick, overflow and chaining, freeze and snapshots (R497 to
R507). -/

namespace Sys2Proof.Machine

/-- The event codes of R500; every other encoding of PERF_SEL.EVENT is reserved. -/
def perfEvents : List Nat :=
  [0x001, 0x002, 0x003, 0x004, 0x005, 0x006, 0x007, 0x008, 0x101, 0x102, 0x103, 0x104, 0x105, 0x106, 0x108, 0x201,
   0x202, 0x203, 0x204, 0x205, 0x206, 0x207, 0x208, 0x301, 0x302, 0x303, 0x304, 0x305, 0x306, 0x401, 0x402, 0x403,
   0x404, 0x405, 0x406, 0x407, 0x501, 0x502, 0x503, 0x504, 0x601, 0x602, 0x603, 0x604, 0x605, 0x701, 0x702, 0x703,
   0x704, 0x705, 0x706, 0x801, 0x802, 0x803, 0x804, 0x805, 0x806, 0x807]

/-- Whether an occurrence passes the filters of counter n (R498). -/
def Device.perfPass (d : Device) (n : Nat) (o : Occ) : Bool :=
  let filt := d.reg (Off.perfFilt n)
  let part := d.reg (Off.perfPart n)
  let mk := bits filt 19 16
  let operand32 := o.operand.map (· % 2 ^ 32)
  (match o.cls with | some c => bit filt (24 + c) | none => true) &&
  (match o.priv with | some p => bit filt (21 + p) | none => true) &&
  (match o.master with
    | some (k, i) => mk == 0 || (mk == k && (bit filt 10 || !(decide (1 ≤ mk ∧ mk ≤ 3)) || bits filt 15 11 == i))
    | none => true) &&
  (match operand32 with
    | some a => !bit filt 20 || (decide (d.reg (Off.perfRangeLo n) ≤ a) && decide (a ≤ d.reg (Off.perfRangeHi n)))
    | none => true) &&
  (match o.part with | some p => bit part p | none => bit part 16)

def Device.perfEvent (d : Device) (n : Nat) : Nat := d.fld (Off.perfSel n) 11 0

/-- Whether counter n counts the carries of counter n − 1; CHAIN on counter 0 has no effect (R502). -/
def Device.perfChain (d : Device) (n : Nat) : Bool := n != 0 && d.flag (Off.perfSel n) 30

/-- The increment of one tick of a counter from the tick's occurrences (R497, R501). -/
def Device.perfInc (d : Device) (n : Nat) (occ : List Occ) : Nat :=
  ((occ.filter fun o => o.code == d.perfEvent n && d.perfPass n o).map (·.amount)).sum

def Device.perfValue (d : Device) (n : Nat) : Nat := d.reg64 (Off.perfCntLo n) % 2 ^ 48

/-- A counter that passes 2^48 − 1: its OVF bit, its event, and a freeze from the next tick (R502). -/
def Device.perfWrap (d : Device) (n : Nat) : Device :=
  let d := d.setFlag (Off.perfOvf (n / 32)) (n % 32) true
  let d := if d.flag (Off.perfSel n) 28 then d.raise 480 Sev.info Cause.counterOvf n (d.perfEvent n) else d
  if d.flag (Off.perfSel n) 29 then
    { d.setFlag Off.perfCtl 31 true with perf := { d.perf with freezeNext := some true } }
  else d

/-- One counter's part of a tick: it takes a written value, adds the increments, and passes its carry on (R501). `carry`:
counter n − 1 wrapped in this tick. -/
def Device.perfCount (d : Device) (occ : List Occ) (n : Nat) (carry : Bool) : Device × Bool :=
  let base := NMap.getD d.perf.written n (d.perfValue n)
  let on := NMap.getD d.perf.enNow n false && !d.perf.frozen
  let inc := if !on then 0 else if d.perfChain n then b2n carry else d.perfInc n occ
  let total := base + inc
  let d := d.setReg64 (Off.perfCntLo n) (total % 2 ^ 48)
  if total ≥ 2 ^ 48 then (d.perfWrap n, true) else (d, false)

/-- The occurrences that come with the passing of one nanosecond (R500): TIME_NS, CORE_CYCLE, and per port the paused
classes and the sleeping transmit direction. -/
def Device.nsOccs (d : Device) : List Occ :=
  let ports := (d.regs.map (·.1)).filterMap fun off =>
    if Off.portStatus 0 ≤ off ∧ off ≤ Off.portStatus 511 ∧ off % 0x1000 = Off.portStatus 0 % 0x1000 then
      some ((off - Off.portStatus 0) / 0x1000) else none
  let one (code p : Nat) (c : Option Nat) : Occ := ⟨code, 1, c, none, none, some p, some (d.portPart p)⟩
  [Occ.plain 0x801 1, Occ.plain 0x802 (12 * (d.transit + 1) / 5 - 12 * d.transit / 5)] ++
  ports.flatMap fun p =>
    ((List.range 8).filter fun c => bit (d.reg (Off.portStatus p)) (8 + c)).map (fun c => one 0x007 p (some c)) ++
    (if d.flag (Off.portStatus p) 27 then [one 0x008 p none] else []) ++
  d.scaf.threads.filterMap fun (k, t) => (t.task.bind fun i => NMap.get? d.scaf.tasks i).map fun (x : Task) =>
    ⟨0x605, 1, none, none, some (3, k / 8), some x.disp, some (bits (x.regs.mN 0) 13 10)⟩

/-- The register snapshot of all counters into the bank PERF_SNAPn (R504). -/
def Device.snapBank (d : Device) : Device :=
  let d := (List.range 256).foldl (fun d n =>
    if d.perfValue n = 0 ∧ d.reg64 (Off.perfSnapLo n) = 0 then d
    else d.setReg64 (Off.perfSnapLo n) (d.perfValue n)) d
  let d := d.setReg64 Off.perfSnapTimeLo (d.tbCount 0)
  let d := { d with perf := { d.perf with snapNext := false, snapAt := some d.transit } }
  d.raise 481 Sev.info Cause.snapshot (1 + 3 * 2) (d.tbCount 0)

/-- One counting tick (R501, R502): written values, increments and carries of every counter, in order; then freezes,
enables and a register snapshot written before take effect. -/
def Device.counterTick (d : Device) : Device :=
  let occ := d.perf.occ ++ d.nsOccs
  let on := (List.range 256).filter fun n => NMap.getD d.perf.enNow n false || NMap.has d.perf.written n
  let step := fun (x : Device × Option Nat) n =>
    let (d', wrapped) := x.1.perfCount occ n (n != 0 && x.2 == some (n - 1))
    (d', if wrapped then some n else none)
  let d := (on.foldl step (d, none)).1
  let en := (List.range 256).filterMap fun n =>
    if NMap.has d.regs (Off.perfSel n) && d.flag (Off.perfSel n) 31 then some (n, true) else none
  let p := d.perf
  let d := { d with perf := { p with
    occ := [], written := [], enNow := en, frozen := p.freezeNext.getD p.frozen, freezeNext := none } }
  if d.perf.snapNext then d.snapBank else d

/-- A write of PERF_CTL.FREEZE: counting stops or resumes from the next tick (R503). -/
def Device.freeze (d : Device) (on : Bool) : Device :=
  { d.setFlag Off.perfCtl 31 on with perf := { d.perf with freezeNext := some on } }

/-- A write of PERF_CTL.SNAP: a register snapshot at the next tick; one that would start within 1 µs of the last is
ignored and flagged (R504). -/
def Device.snap (d : Device) (seat : Nat) : Device :=
  let near := match d.perf.snapAt with
    | some t => decide (d.transit < t + 1000)
    | none => false
  if d.perf.snapNext || near then d.quietFlag seat Off.perfCtl (2 ^ 30)
  else { d with perf := { d.perf with snapNext := true } }

/-- Whether a seat owns a partition at all (R405). -/
def Device.ownsAny (d : Device) (s : Nat) : Bool := (List.range 16).any fun p => d.owns s p

/-- Whether a seat may read counter n: one that owns no partition may read none (R405); the device owner may read every counter, any
other seat only a counter that
is not GLOBAL and names at least one partition and only partitions it owns. -/
def Device.perfMayRead (d : Device) (s n : Nat) : Bool :=
  d.ownsAny s && (d.isDevOwner s ||
    (decide (s < 2) && !d.flag (Off.perfPart n) 16 && d.fld (Off.perfPart n) 15 0 != 0 &&
      (List.range 16).all fun p => !bit (d.reg (Off.perfPart n)) p || d.owns s p))

/-- The buffer of a PERF_SNAPSHOT as one seat may see it (R505). -/
def Device.snapBuffer (d : Device) (s : Nat) : List Byte :=
  (List.range 256).flatMap fun n =>
    if d.perfMayRead s n then
      bytesLE 8 (d.perfValue n + 2 ^ 48 * b2n (d.flag (Off.perfOvf (n / 32)) (n % 32)) +
        2 ^ 49 * b2n (d.flag (Off.perfSel n) 31))
    else bytesLE 8 0

/-- A skipped snapshot is counted and raises SNAPSHOT (R506, R515); `who`: 0 Seat A, 1 Seat B, 2 export engine. -/
def Device.snapSkip (d : Device) (who : Nat) : Device :=
  (d.bump Off.perfSnapSkip 1).raise 481 Sev.warn Cause.snapshot (who * 2) (d.tbCount 0)

/-- PERF_SNAPSHOT (R504, R506): at once for time 0 or a time already reached, else it waits; a fifth waiting snapshot
completes with BUSY. -/
def Device.perfSnapshot (d : Device) (c : CmdEntry) : Device :=
  d.runHeld c 0x0E 0 [(16, 8)] 2048 none fun d =>
    let s : Nat := c.seat
    let t := c.p 16 8
    if !d.ownsAny s then .inl (d, St.priv, [])
    else if t = 0 ∨ t ≤ d.tbCount 0 then
      if d.shed ≥ 1 then .inl (d.snapSkip s, St.dropped, [])
      else
        let d := d.hostWrite s c.addr.toNat (d.snapBuffer s)
        let d := d.raise 481 Sev.info Cause.snapshot (1 + 2 * s) (d.tbCount 0)
        .inl (d, St.ok, bytesLE 8 (d.tbCount 0))
    else if d.perf.waiting.length ≥ 4 then .inl (d, St.busy, [])
    else
      let d := { d with perf := { d.perf with waiting := d.perf.waiting ++ [SnapReq.mk s c.ring c.addr.toNat t] } }
      let d := d.setFld Off.perfSnapPend 2 0 d.perf.waiting.length
      .inr (d, ⟨0x0E, c.tag.toNat, c.flags.toNat, c.addr.toNat, 0, [], []⟩)

/-- A waiting command snapshot whose time has come is taken, or skipped at shed level S1 or above (R504, R506). -/
def Device.snapFire (d : Device) (q : SnapReq) : Device :=
  let d := { d with perf := { d.perf with waiting := d.perf.waiting.filter (· ≠ q) } }
  let d := d.setFld Off.perfSnapPend 2 0 d.perf.waiting.length
  match d.held q.seat q.ring 0x0E with
  | none => d
  | some o =>
    if d.shed ≥ 1 then (d.snapSkip q.seat).complete q.seat q.ring 0x0E St.dropped o.tag o.flags []
    else
      let d := d.hostWrite q.seat q.addr (d.snapBuffer q.seat)
      let d := d.raise 481 Sev.info Cause.snapshot (1 + 2 * q.seat) (d.tbCount 0)
      d.complete q.seat q.ring 0x0E St.ok o.tag o.flags (bytesLE 8 (d.tbCount 0))

/-- The waiting command snapshots whose time has come (R359, R504). -/
def Device.snapsDue (d : Device) : List SnapReq := d.perf.waiting.filter fun q => decide (q.time ≤ d.tbCount 0)

end Sys2Proof.Machine
end

