-- ==== Sys2Proof/Machine/Telem.lean ====
section
/-! DEFINITION. The export engine: records and messages of the template set, the walks, quote, counter and sample export, and
what is lost (R508 to R515). -/

namespace Sys2Proof.Machine

/-- Export is on and not shed (R508, R514). -/
def Device.telemOn (d : Device) : Bool := d.flag Off.telemCtl 31 && decide (d.shed < 1)

def Device.modTelem (d : Device) (f : Telem → Telem) : Device := { d with telem := f d.telem }

/-! ### Fields (R508, R509) -/

/-- TELEM_EPOCH, signed seconds. -/
def Device.telemEpoch (d : Device) : Int := signed 64 (d.reg64 Off.telemEpochLo)

/-- A dateTimeNanoseconds field of a TB0 count in ns, in the NTP format of RFC 7011 (R508). -/
def Device.ntpTime (d : Device) (ns : Nat) : List Byte :=
  bytesBE 4 (unsigned 32 ((ns / 1000000000 : Nat) + d.telemEpoch)) ++
    bytesBE 4 ((ns % 1000000000 * 2 ^ 33 + 1000000000) / 2000000000)

/-- A field of variable length with the prefix of RFC 7011 (R509). -/
def varField (b : List Byte) : List Byte :=
  (if b.length < 255 then bytesBE 1 b.length else bytesBE 1 255 ++ bytesBE 2 b.length) ++ b

/-- The TB0 time of a seen-time, its second resolved by STAMP against the engine's own reading of the transit count: of the
seconds with the right residue modulo 4, the one nearest to the time STAMP gives (R152, R509). -/
def Device.seenAt (d : Device) (seen stamp : Nat) : Nat :=
  let age := (d.ageTick + 2 ^ 24 - stamp) % 2 ^ 24
  let now := (d.tbNow 0).sec * 1000000000 + (d.tbNow 0).ns
  let approx := now - age * 2 ^ 20
  let ns := seen % 2 ^ 30
  let up := approx / 1000000000 + (seen / 2 ^ 30 + 4 - approx / 1000000000 % 4) % 4
  let hi := up * 1000000000 + ns
  let lo := (up - 4) * 1000000000 + ns
  if up < 4 ∨ hi ≤ approx ∨ hi - approx ≤ approx - lo then hi else lo

/-! ### Records (R509) -/

/-- A FLOW record of the authoritative copy `b` with handle `h`, its state bytes chosen by `mask`. -/
def Device.flowRecord (d : Device) (h mask : Nat) (b : List Byte) : List Byte :=
  bytesBE 1 (recId b).space ++ bytesBE 4 h ++ varField (recId b).key ++ bytesBE 8 (fieldLE b 64 6) ++
    bytesBE 8 (fieldLE b 72 8) ++ d.ntpTime (d.seenAt (fieldLE b 60 4) (recStamp b)) ++ d.ntpTime (d.tbCount 0) ++
    varField (((List.range 48).filter fun j => mask.testBit j).map fun j => b.getD (80 + j) 0)

/-- A QUOTE record; the smallest slack before the first frame is that of R507. -/
def Device.quoteRecord (d : Device) (id : Nat) (q : Quote) : List Byte :=
  bytesBE 4 id ++ bytesBE 4 q.portA ++ bytesBE 4 q.d ++ bytesBE 8 q.accepted ++ bytesBE 8 q.demoted ++
    bytesBE 8 q.discarded ++ bytesBE 8 q.expired ++ bytesBE 4 (unsigned 32 (q.xSlack.getD 0x7FFFFFFF)) ++
    bytesBE 4 q.xResidence ++ d.ntpTime (d.tbCount 0)

def Device.counterRecord (d : Device) (n : Nat) : List Byte :=
  bytesBE 2 n ++ bytesBE 2 (d.perfEvent n) ++ bytesBE 8 (d.perfValue n) ++ d.ntpTime (d.tbCount 0)

/-- A FRAME_SAMPLE record of a mirror copy. -/
def Device.sampleRecord (d : Device) (y : Copy) (fr : Frame) : List Byte :=
  let section_ := clampN 64 256 (d.fld Off.telemSample 24 16)
  bytesBE 4 fr.port ++ bytesBE 1 (vecN y.m 7) ++ bytesBE 2 fr.bytes.length ++ d.ntpTime fr.arrTb0 ++
    varField (fr.bytes.take (min section_ (y.cut.getD section_)))

/-! ### Template records (R509) -/

/-- The fields of the templates in order: enterprise or not, element, bytes (65,535 for a variable length). -/
def templates : List (Nat × List (Bool × Nat × Nat)) :=
  [(256, [(true, 1, 1), (true, 2, 4), (true, 3, 65535), (false, 86, 8), (false, 85, 8), (false, 157, 8), (false, 325, 8),
     (true, 4, 65535)]),
   (257, [(true, 5, 4), (false, 14, 4), (true, 6, 4), (true, 7, 8), (true, 8, 8), (true, 9, 8), (true, 10, 8), (true, 11, 4),
     (true, 12, 4), (false, 325, 8)]),
   (258, [(true, 13, 2), (true, 14, 2), (true, 15, 8), (false, 325, 8)]),
   (259, [(false, 10, 4), (true, 16, 1), (false, 312, 2), (false, 325, 8), (false, 315, 65535)])]

/-- The template set's records. -/
def Device.templateBytes (d : Device) : List Byte :=
  templates.flatMap fun (id, fs) => bytesBE 2 id ++ bytesBE 2 fs.length ++
    fs.flatMap fun (en, e, n) =>
      bytesBE 2 (e + 2 ^ 15 * b2n en) ++ bytesBE 2 n ++ (if en then bytesBE 4 (d.reg Off.telemPen) else [])

/-! ### Messages and frames (R508, R510) -/

def Device.telemPort (d : Device) : Nat := d.fld Off.telemCtl 25 16 % 512

def Device.telemIp6 (d : Device) : Bool := d.flag Off.telemCtl 30

/-- The bytes of an IP packet before its records. -/
def Device.telemHead (d : Device) : Nat := (if d.telemIp6 then 40 else 20) + 8 + 16 + 4

/-- One IPFIX message: its header and exactly one set. -/
def Device.ipfix (d : Device) (setId seq : Nat) (body : List Byte) : List Byte :=
  let exportTime := unsigned 32 (((d.tbNow 0).sec : Int) + d.telemEpoch - 2208988800)
  bytesBE 2 0x000A ++ bytesBE 2 (20 + body.length) ++ bytesBE 4 exportTime ++ bytesBE 4 seq ++
    bytesBE 4 (d.reg Off.telemOdid) ++ bytesBE 2 setId ++ bytesBE 2 (4 + body.length) ++ body

/-- The 4 or 16 bytes of an address in its registers. -/
def Device.telemAddr (d : Device) (off : Nat → Nat) : List Byte :=
  (List.range (if d.telemIp6 then 4 else 1)).flatMap fun n => bytesBE 4 (d.reg (off n))

/-- A UDP datagram with its checksum, over the pseudo-header of its addresses. -/
def Device.telemUdp (d : Device) (msg : List Byte) : List Byte :=
  let ports := bytesBE 2 (d.fld Off.telemUdp 31 16) ++ bytesBE 2 (d.fld Off.telemUdp 15 0)
  let len := bytesBE 2 (8 + msg.length)
  let pseudo := d.telemAddr Off.telemSip ++ d.telemAddr Off.telemDip ++ bytesBE 2 17 ++ len
  let sum := 65535 - onesSum (pseudo ++ ports ++ len ++ msg)
  ports ++ len ++ bytesBE 2 (if sum = 0 then 65535 else sum) ++ msg

/-- The IP packet of a datagram. Fields the spec does not name, type of service, traffic class and flow label, are 0 (PRESUMED,
assumption log, entry 39). -/
def Device.telemIp (d : Device) (udp : List Byte) : List Byte :=
  let addrs := d.telemAddr Off.telemSip ++ d.telemAddr Off.telemDip
  if d.telemIp6 then bytesBE 4 0x60000000 ++ bytesBE 2 udp.length ++ bytesBE 2 0x1140 ++ addrs ++ udp
  else
    let head := bytesBE 2 0x4500 ++ bytesBE 2 (20 + udp.length) ++ bytesBE 4 0x4000 ++ bytesBE 2 0x4011
    head ++ bytesBE 2 (65535 - onesSum (head ++ addrs)) ++ addrs ++ udp

/-- The frame of a message (R508). -/
def Device.telemFrame (d : Device) (msg : List Byte) : List Byte :=
  withFcs (bytesBE 2 (d.fld Off.telemDmacHi 15 0) ++ bytesBE 4 (d.reg Off.telemDmacLo) ++ d.portMac d.telemPort ++
    (if d.flag Off.telemCtl 29 then bytesBE 2 0x8100 ++ bytesBE 2 (d.fld Off.telemVlan 15 0) else []) ++
    bytesBE 2 (if d.telemIp6 then 0x86DD else 0x0800) ++ d.telemIp (d.telemUdp msg))

/-- Each loss counts the message and its records and raises EXPORT_DROP (R514, R515). -/
def Device.telemLose (d : Device) (n seq : Nat) : Device :=
  ((d.bump Off.telemDropMsg 1).bump Off.telemDropRec n).raise 482 Sev.warn Cause.exportDrop n seq

/-- The store traffic of staging a message through port 4: the spec does not say where in the TELEM region it lies (free
value, kind 12). In Doze it makes none (R207). -/
def Device.telemStage (d : Device) (base len : Nat) : Device :=
  let (d, v) := d.free 12
  if d.pwrState = 2 then d else d.request 4 (11, 0) (base + v % 2 ^ 20) true (ceilDiv len 32)

/-- A message of `n` records is sent: its frame enters from port 516 and joins the VOQ of PORT, or the message is lost
(R508, R510, R514). -/
def Device.telemSend (d : Device) (setId n : Nat) (body : List Byte) : Device :=
  let seq := d.reg64 Off.telemRecordsLo % 2 ^ 32
  let b := d.telemFrame (d.ipfix setId seq body)
  let d := d.bump64 Off.telemRecordsLo n
  match d.regionBase 4 with
  | none => d.telemLose n seq
  | some base =>
    let d := d.telemStage base b.length
    if !d.admitScaf (cellsOf b.length) then d.telemLose n seq
    else
      let f := d.buf.nextFrame
      let pipe := pipeOf d.telemPort
      let m := ((zeroM.setIfInBounds 0 516).setIfInBounds 2 (BitVec.ofNat 32 (d.fld Off.telemCtl 28 26))).setIfInBounds 3
        (BitVec.ofNat 32 d.telemPort)
      let x : Frame := { Frame.blank 516 b with
        done := true, cells := cellsOf b.length, prov := cellsOf b.length, arrTb0 := d.tbCount 0, arrTransit := d.transit
        rxTransit := d.transit * 65536, rxTime := d.tbCount 0 * 65536, granted := true, m := m, pipe := pipe, place := .pass
        aside := some false, snap := List.replicate 48 0 }
      ((d.bump Off.telemMsgs 1).addFrame x).forwardOwn f pipe (List.replicate 48 0)

/-- The open message of a template is closed and sent (R510). -/
def Device.telemClose (d : Device) (tid : Nat) : Device :=
  match NMap.get? d.telem.open_ tid with
  | none => d
  | some o =>
    (d.modTelem fun t => { t with open_ := NMap.del t.open_ tid }).telemSend tid o.records.length o.records.flatten

/-- A data record enters the open message of its template, which is closed first when the record would make its IP packet
longer than MTU (R510). -/
def Device.telemAdd (d : Device) (tid : Nat) (rec_ : List Byte) : Device :=
  let limit := clampN 576 9000 (d.fld Off.telemCtl 13 0)
  let size (d : Device) : Nat := match NMap.get? d.telem.open_ tid with
    | some o => o.records.flatten.length
    | none => 0
  let d := if limit < d.telemHead + size d + rec_.length then d.telemClose tid else d
  let o := NMap.getD d.telem.open_ tid ⟨[], d.transit⟩
  d.modTelem fun t => { t with open_ := NMap.set t.open_ tid { o with records := o.records ++ [rec_] } }

/-- FLUSH µs after a message's first record it is closed (R510). -/
def Device.telemFlush (d : Device) (tid : Nat) : Device :=
  match NMap.get? d.telem.open_ tid with
  | none => d
  | some o =>
    if d.telemOn ∧ o.first + 1000 * max 1 (d.fld Off.telemTiming 15 0) ≤ d.transit then d.telemClose tid else d

/-- The template set is sent, in one message with set ID 2 (R510). -/
def Device.templateSet (d : Device) : Device :=
  let d := d.modTelem fun t => { t with templates := d.transit }
  if d.telemOn then d.telemSend 2 0 d.templateBytes else d

/-- TPL_PERIOD seconds after the last template set the next one is sent (R510). -/
def Device.templateDue (d : Device) : Device :=
  if d.flag Off.telemCtl 31 ∧
      d.telem.templates + 1000000000 * max 1 (d.fld Off.telemTiming 31 16) ≤ d.transit then d.templateSet
  else d

/-- Whether a write of TELEM_CTL.EN = 1 is refused: TELEM_PEN is 0 or PORT's MAC_EN is 0 (R510). -/
def Device.exportRefused (d : Device) : Bool := d.reg Off.telemPen == 0 || !d.macEn d.telemPort

/-- A write of TELEM_CTL.EN = 1, the other fields having been written: refused with CFG_ERR when TELEM_PEN is 0 or PORT's
MAC_EN is 0; else export starts with the template set (R510). -/
def Device.telemEnable (d : Device) : Device :=
  if d.exportRefused then d.setFlag Off.telemStatus 0 true
  else (d.setFlag Off.telemCtl 31 true).templateSet

/-! ### What is exported (R511 to R513) -/

/-- A multiple of INTERVAL ms of transit count that export kind `k` has not taken yet. -/
def Device.telemDue (d : Device) (k ctl : Nat) : Bool :=
  let ms := d.transit / 1000000
  d.flag Off.telemCtl 31 && d.flag ctl 31 && ms % max 1 (d.fld ctl 23 0) == 0 && NMap.get? d.telem.last k != some ms

def Device.telemTake (d : Device) (k : Nat) : Device :=
  d.modTelem fun t => { t with last := NMap.set t.last k (d.transit / 1000000) }

/-- A due walk of a flow space starts; while the last one runs it is skipped and counted (R511). -/
def Device.exportWalk (d : Device) (s : Nat) : Device :=
  if !d.telemDue s (Off.telemFspaceCtl s) then d
  else
    let d := d.telemTake s
    if 1 ≤ d.shed then d
    else if NMap.has d.telem.walks s then d.bump Off.telemWalkLate 1
    else
      let w : Walk := ⟨0, d.reg (Off.telemFspaceMaskLo s) + 2 ^ 32 * d.fld (Off.telemFspaceMaskHi s) 15 0, []⟩
      d.modTelem fun t => { t with walks := NMap.set t.walks s w }

/-- The next record a walk reads: its authoritative copy, in handle order. -/
def Device.walkNext (d : Device) (s : Nat) (w : Walk) : Option (Nat × List Byte) :=
  (d.flow.render.map (·.1)).findSome? fun h =>
    if h < w.cursor then none
    else match d.authCopy h with
      | some b =>
        if recValid b ∧ (recId b).space = s ∧ !w.seen.contains (recId b).key then some (h, b) else none
      | none => none

/-- A walk reads one authoritative copy, a render copy through the TELEM port, and exports its FLOW record; it ends when
none is left (R511). In Doze, where only Darby asks the store for anything, it waits (R207). -/
def Device.walkRead (d : Device) (s : Nat) : Device :=
  match d.telemOn, NMap.get? d.telem.walks s with
  | true, some w => match d.walkNext s w with
    | none => d.modTelem fun t => { t with walks := NMap.del t.walks s }
    | some (h, b) => if d.pwrState = 2 then d else
      let d := if (d.skimAt h).isSome then d else d.request 4 (11, 0) (128 * h) false 4
      let d := d.modTelem fun t => { t with
        walks := NMap.set t.walks s ⟨h + 1, w.mask, w.seen ++ [(recId b).key]⟩ }
      d.telemAdd 256 (d.flowRecord h w.mask b)
  | _, _ => d

/-- One QUOTE record for each active quote, whose export measurements then start anew (R512). -/
def Device.quoteExport (d : Device) : Device :=
  if !d.telemDue 16 Off.telemQuote then d
  else
    let d := d.telemTake 16
    if 1 ≤ d.shed then d
    else (d.quotes.filter fun p => p.2.active).foldl (fun d (p : Nat × Quote) =>
      let d := d.telemAdd 257 (d.quoteRecord p.1 p.2)
      { d with quotes := NMap.modify d.quotes p.1 (fun q => { q with xSlack := none, xResidence := 0 }) }) d

/-- An export snapshot and one COUNTER record for each enabled counter; at shed level S1 and above the snapshot is skipped
(R504, R506, R512). -/
def Device.counterExport (d : Device) : Device :=
  if !d.telemDue 17 Off.telemCounter then d
  else
    let d := d.telemTake 17
    if 1 ≤ d.shed then d.snapSkip 2
    else
      let d := d.raise 481 Sev.info Cause.snapshot (1 + 2 * 2) (d.tbCount 0)
      ((List.range 256).filter fun n => d.flag (Off.perfSel n) 31).foldl (fun d n => d.telemAdd 258 (d.counterRecord n)) d

/-- The mirror copy at the head of a pipeline's port-516 queue becomes a FRAME_SAMPLE record, or is discarded and counted:
while sampling or export is off, and beyond RATE in a second (R513, R514). A copy waits until its frame has arrived; that of a
BAD frame is discarded. -/
def Device.frameSample (d : Device) (pipe : Nat) : Device :=
  match d.voq pipe 516 (voqCls 516 0) with
  | [] => d
  | c :: _ => match d.copy c with
    | none => d
    | some y => match d.frame y.frame with
      | none => d.dropCopy c
      | some fr =>
        let sec := d.transit / 1000000000
        let count := if d.telem.sampleSec = sec then d.telem.sampleCount else 0
        if fr.bad then d.dropCopy c
        else if !fr.done then d
        else if !d.telemOn ∨ !d.flag Off.telemSample 31 ∨ 1000 * d.fld Off.telemSample 15 0 ≤ count then
          (d.bump Off.telemSampleSkip 1).dropCopy c
        else
          let d := d.modTelem fun t => { t with sampleSec := sec, sampleCount := count + 1 }
          (d.telemAdd 259 (d.sampleRecord y fr)).dropCopy c

/-- At shed level S1 the staged messages are discarded, counted as lost, and walks end (R514). -/
def Device.telemShed (d : Device) : Device :=
  let d := d.telem.open_.foldl (fun d (p : Nat × OpenMsg) =>
    let seq := d.reg64 Off.telemRecordsLo % 2 ^ 32
    (d.bump64 Off.telemRecordsLo p.2.records.length).telemLose p.2.records.length seq) d
  d.modTelem fun t => { t with open_ := [], walks := [] }

end Sys2Proof.Machine
end

