-- ==== Sys2Proof/Machine/Power.lean ====
section
/-! DEFINITION. Power states and their transitions, resets, shedding, supply, temperature and clocks, wake sources, safe stop and
the flash operations (R28 to R30, R207, R208, R364, R442, R456, R457, R459 to R483, R494, R496). -/

namespace Sys2Proof.Machine

def Device.modPwr (d : Device) (f : Power → Power) : Device := { d with pwr := f d.pwr }

/-! ### Resets and what survives them (R364, R442, R469, R470) -/

/-- Registers whose value the island keeps through every warm start. -/
def islandRegs : List Nat :=
  [Off.hawkStatus, Off.hawkLogOvf, Off.faultCtl, Off.faultResetCause, Off.faultStopSeqLo, Off.faultStopSeqHi, Off.pwrWakeEn,
   Off.pwrWakeSrc, Off.plumbTbAdj 0, Off.plumbAonInc] ++ (List.range 17).map Off.hawkSticky ++
  (List.range 7).flatMap fun i => [Off.plumbTbOfsLo (i + 1), Off.plumbTbOfsLo (i + 1) + 4]

/-- Registers that Sleep keeps beside those: every HAWK and FAULT register (R442), the alarm that may wake the device, the state
a wake asks for, the rates of the other bases (R363, R474), and what shows the quotes, which survive (R250, R268). -/
def sleepReg (off : Nat) : Bool :=
  off / 2 ^ 16 == 0x10 || off / 2 ^ 16 == 0x320 || off == Off.plumbAlarmLo || off == Off.plumbAlarmLo + 4 || off == Off.pwrCtl ||
    off == Off.plumbCtl || off == Off.schedQuoteActive || off == Off.schedFitStatus || ((List.range 8).map Off.plumbTbAdj).contains off

/-- The offsets of TB1 to TB7 from TB0 as they are at the takeover; the island that keeps time already holds them (R362, R364). -/
def Device.takeOver (d : Device) : Device :=
  if d.islandTime then d
  else (List.range 7).foldl (fun d i =>
    d.setReg64 (Off.plumbTbOfsLo (i + 1)) (unsigned 64 ((d.tbCount (i + 1) : Int) - (d.tbCount 0 : Int)))) d

/-- A record as the home holds it after a start: TIER 0b00 (R208, R470). -/
def homeRecord (b : List Byte) : List Byte := updsApply b [tierUpd 0]

/-- The core die loses its state. `asleep`: entry to Sleep, which keeps the quotes and the HAWK and FAULT registers; else a reset
with VAON held (R442, R469, R470). Pins held stay held (R530). What lies outside the device stays: the flash, host memory, messages already sent, the frames
last put on the wires. -/
def Device.coreReset (d : Device) (asleep : Bool) : Device :=
  let d := d.takeOver
  let keep := d.regs.filter fun p => islandRegs.contains p.1 || (asleep && sleepReg p.1)
  let z := Device.reset
  let n := { z with
    regs := keep
    hawk := { d.hawk with slots := if asleep then d.hawk.slots else [] }
    fault := if asleep then d.fault else { z.fault with stops := d.fault.stops }
    seats := d.seats.map fun (p : Nat × Seat) => (p.1, { Seat.reset with hostMem := p.2.hostMem, msix := p.2.msix })
    plumb := { z.plumb with transit := d.plumb.transit,
                            tbs := d.plumb.tbs.map fun (p : Nat × TimeBase) => (p.1, { p.2 with slewLeft := 0, slewing := false })
                            aon := d.plumb.aon,
                            alarmFired := asleep && d.plumb.alarmFired }
    ports := d.ports.map fun (p : Nat × Port) => (p.1, { Port.reset with wire := p.2.wire })
    quotes := if asleep then d.quotes else []
    flow := { z.flow with
      render := d.flow.render.map fun (p : Nat × List Byte) => (p.1, homeRecord p.2)
      soft := if asleep then d.flow.soft else [] }
    rstore := { z.rstore with bytes := d.rstore.bytes, poison := d.rstore.poison }
    pwr := { Power.reset with flash := d.pwr.flash, boot := d.pwr.boot, wakeAddr := d.pwr.wakeAddr, data := d.pwr.data,
                              lwSpans := d.pwr.lwSpans, islandFrom := d.pwr.islandFrom,
                              tioHeld := d.pwr.tioHeld, heldAt := d.pwr.heldAt }
    jtag := d.jtag
    freeCtr := d.freeCtr }
  let n := (List.range 8).foldl (fun n i => n.setFlag (Off.plumbTbStatus i) 3 (d.flag (Off.plumbTbStatus i) 3)) n
  let n := n.setFld Off.pwrSwatch 1 0 d.activeSwatch
  let n := n.setFlag Off.pwrPad 0 d.pwr.tioHeld.isSome
  let n := n.setFlag Off.pwrAon 31 (d.flag Off.pwrAon 31)
  n.setFld Off.pwrStrap 7 5 (d.fld Off.pwrStrap 7 5)

/-- The quotes end with the reset: their records lose QPIN and stand as software set them (R180, R250). -/
def Device.quotePinsEnd (d : Device) : Device :=
  let one (w : Flow) (p : Nat × List Byte) : Nat × List Byte :=
    if recQpin p.2 then
      let s := NMap.getD w.soft p.1 (false, false)
      (p.1, updsApply p.2 [.mask 51 (255 - 16) 0, flagUpd 1 s.1, flagUpd 5 s.2])
    else p
  d.modFlow fun w => { w with render := w.render.map (one w) }

/-- One entry of the event log for each reset, with FAULT_RESET_CAUSE as its cause (R440); its severity and ARG0 are free
values (assumption log, entry 3). -/
def Device.logReset (d : Device) : Device :=
  let (d, sev) := d.free 14
  let (d, arg) := d.free 14
  let (d, seq, time) := d.takeSeq
  d.logEntry ⟨seq, 496, eventCode (sev % 4) (d.fld Off.faultResetCause 3 0), 1, 0xFF, 0, time, arg⟩

/-- A reset with VAON held: FAULT_RESET_CAUSE takes `cause`, quotes end without notices, and a warm start follows from
START_UP (R364, R442, R469). -/
def Device.warmReset (d : Device) (cause : Nat) : Device :=
  let d := (d.quotePinsEnd).coreReset false
  let d := (d.setFld Off.faultResetCause 3 0 cause).logReset
  d.modPwr fun p => { p with kind := .warm }

/-- The island's state is lost as well, and the render store holds no record: a cold start follows (R442, R469). The latch of BROWNOUT,
powered from VAON, stays (R471). -/
def Device.coldReset (d : Device) (cause : Nat) : Device :=
  let z := Device.reset
  ({ z with
    seats := d.seats.map fun (p : Nat × Seat) => (p.1, { Seat.reset with hostMem := p.2.hostMem, msix := p.2.msix })
    ports := d.ports.map fun (p : Nat × Port) => (p.1, { Port.reset with wire := p.2.wire })
    pwr := { Power.reset with flash := d.pwr.flash }
    freeCtr := d.freeCtr }.setFld Off.faultResetCause 3 0 cause).setFlag Off.pwrAon 31 (d.flag Off.pwrAon 31)

/-! ### Requests (R460 to R463, R495) -/

/-- PWR_STATUS shows the transition that runs and the request held. -/
def Device.showPower (d : Device) : Device :=
  let d := (d.setFlag Off.pwrStatus 31 d.pwr.running.isSome).setFlag Off.pwrStatus 30 d.pwr.held.isSome
  d.setFld Off.pwrStatus 29 27 ((d.pwr.held.map (·.state)).getD 0)

/-- ARG0 of POWER_STATE (R495). -/
def Device.powerArg (d : Device) (new old who : Nat) : Nat :=
  new + 16 * old + 256 * ((d.pwr.held.map (·.state)).getD 15) + 4096 * who

/-- POWER_STATE on source 432 for a transition that runs or has ended, with its time so far. -/
def Device.powerEvent (d : Device) (new old who : Nat) : Device :=
  let t := match d.pwr.running with | some t => d.transit - t.since | none => 0
  d.raise 432 Sev.info Cause.powerState (d.powerArg new old who) t

/-- A request completes: its POWER_REQUEST, or PWR_REQ_L.STATUS for Seat L (R463). -/
def Device.powerDone (d : Device) (status : Nat) (r : PwrReq) : Device :=
  match r.ring with
  | some (s, k) => match d.held s k 0x10 with
    | some o => d.complete s k 0x10 status o.tag o.flags []
    | none => d
  | none => if r.who = 2 then d.setFld Off.pwrReqL 15 8 status else d

/-- The running transition's requests complete OK (R463). -/
def Device.runningDone (d : Device) : Device :=
  match d.pwr.running with
  | some t =>
    let none_ : PwrReq := ⟨t.req.state, 3, none⟩
    let d' := (t.req :: t.also).foldl (fun d r => d.powerDone St.ok r) d
    d'.modPwr fun p => { p with running := some { t with req := { none_ with who := t.req.who }, also := [] } }
  | none => d

/-- The start of a wake: the core die is powered and START_UP follows (R469, R471). -/
def Device.wakeStart (d : Device) : Device :=
  (d.setFlag Off.pwrAon 30 false).modPwr fun p => { p with phase := .waits, kind := .wake }

/-- Doze is left: the stacks leave self-refresh and each enabled port's first attempt starts (R467). -/
def Device.leaveDoze (d : Device) : Device :=
  let d := d.setFld Off.rstoreSelfref 1 0 0
  let d := d.modPwr fun p => { p with squelch := false, portsDown := false, draining := false, awaiting := d.enabledPorts }
  d.enabledPorts.foldl (fun d p => if d.mayBringUp p then d.startAttempt p else d) d

/-- A transition starts (R461, R464, R467, R468). -/
def Device.startTrans (d : Device) (r : PwrReq) : Device :=
  let old := d.pwrState
  let d := d.modPwr fun p => { p with running := some ⟨r, [], old, d.transit⟩ }
  let d :=
    if 2 ≤ r.state ∧ old < 2 then d.modPwr fun p => { p with alive := false, draining := true }
    else if r.state < 2 ∧ old = 2 then d.leaveDoze
    else if r.state ≤ 2 ∧ old = 3 then d.wakeStart
    else if 3 ≤ r.state then d.runningDone
    else d
  d.showPower

/-- Whether an entry to Sleep or Off has begun the step that takes down the USB4 links, at which its requests complete (R463, R468). -/
def Device.linksDown (d : Device) (t : Trans) : Bool := decide (3 ≤ t.req.state) && (d.pwr.portsDown || decide (2 ≤ t.old))

/-- A request for a power state (R461). -/
def Device.powerAsk (d : Device) (r : PwrReq) : Device :=
  let d := if r.who = 2 then d.setFld Off.pwrReqL 15 8 0xFF else d
  match d.pwr.running, d.pwr.held with
  | none, _ => if r.state = d.pwrState then d.powerDone St.ok r else d.startTrans r
  | some t, none =>
    if r.state = t.req.state then
      if d.linksDown t then d.powerDone St.ok r else d.modPwr fun p => { p with running := some { t with also := t.also ++ [r] } }
    else ((d.modPwr fun p => { p with held := some r }).showPower).powerEvent t.req.state t.old r.who
  | some t, some h =>
    let d := (d.modPwr fun p => { p with held := some r }).showPower
    let d := (d.powerDone St.busy h).powerEvent t.req.state t.old h.who
    d.powerEvent t.req.state t.old r.who

/-- POWER_REQUEST: the device owner's (R405, R460). -/
def Device.powerRequest (d : Device) (c : CmdEntry) : Device :=
  let ok := d.canTake c.seat c.ring 0x10
  let d := d.runHeld c 0x10 0 [(16, 1)] 0 none fun d =>
    if !d.isDevOwner c.seat then .inl (d, St.priv, [])
    else if 4 < c.p 16 1 then .inl (d, St.badParam, [])
    else .inr (d, ⟨0x10, c.tag.toNat, c.flags.toNat, 0, 0, [], []⟩)
  match ok, d.held c.seat c.ring 0x10 with
  | true, some _ => d.powerAsk ⟨c.p 16 1, c.seat, some (c.seat, c.ring)⟩
  | _, _ => d

/-- Seat L asks for a state by PWR_REQ_L or the wake port's POWER (R460, R463); a state that POWER_REQUEST does not encode is
answered BAD_PARAM. In Off nothing answers (R475). -/
def Device.powerAskL (d : Device) (state : Nat) : Device :=
  if d.pwr.phase = .off then d
  else if 4 < state then d.setFld Off.pwrReqL 15 8 St.badParam
  else d.powerAsk ⟨state, 2, none⟩

/-! ### Entry to Doze, Sleep and Off (R207, R208, R467 to R469, R472) -/

/-- Every frame that is left leaves the device: copies, frames, the lodge, the float contexts and the queues (R467). -/
def Device.clearFrames (d : Device) : Device :=
  let d := (d.buf.copies.map (·.1)).foldl Device.dropCopy d
  let d := (d.buf.frames.map (·.1)).foldl Device.freeFrame d
  let d := { d with
    ctxs := [], ectxs := [], pipes := { d.pipes with q := [] }, buf := { d.buf with repl := [], voqs := [] }
    spread := { d.spread with
      floats := d.spread.floats.map (fun (p : Nat × FloatCtx) => (p.1, { p.2 with held := [], timer := none })), holdOrder := [] }
    flow := { d.flow with lodge := [] }
    fault := { d.fault with leases := d.fault.leases.filter fun l => l.kind != 0 && l.kind != 1 } }
  ((d.flow.runs.map (·.1)).foldl (fun d h =>
    (d.modFlow fun w => { w with runs := NMap.modify w.runs h (fun r => r.map fun e => { e with frame := none }) }).settleRun h) d).showLodge

/-- Tasks and work items are aborted and counted in SCAF_ABORT (R467). -/
def Device.abortScaffold (d : Device) : Device :=
  let items := (d.scaf.ready.flatMap (·.2)).filter fun i => match i.item with | .task _ => false | _ => true
  let d := (d.scaf.tasks.map (·.1)).foldl Device.abortTask d
  (d.bump Off.scafAbort items.length).modScaf fun s => { s with ready := [], timers := [], waiters := [] }

/-- Step 3 of R467: every port goes down and is flushed, transmitters are squelched, parked frames are discarded and scaffold
work is aborted. -/
def Device.portsOff (d : Device) : Device :=
  let d := d.modPwr fun p => { p with squelch := true, portsDown := true, draining := false }
  let d := d.enabledPorts.foldl (fun d p => (d.portDown p true).modPort p fun x => { x with bring := .down, aligned := false }) d
  let d := if d.servoOn then (d.setServo 3).modPlumb fun p => { p with inLock := 0 } else d
  ((d.abortScaffold).clearFrames)

/-- The drain of an entry ends when the buffer is empty or DRAIN µs have passed; an entry to Sleep or Off then completes its
request (R463, R467, R468). -/
def Device.drainEnd (d : Device) : Device :=
  match d.pwr.running with
  | none => d
  | some t =>
    let over_ := d.buf.frames.isEmpty || decide (t.since + 1000 * d.fld Off.pwrCtl 31 16 ≤ d.transit)
    if !d.pwr.draining || !over_ then d
    else
      let d := d.portsOff
      if 3 ≤ t.req.state then d.runningDone else d

/-- Every queued write-back reaches its home, and the channels perform the requests in their queues (R207). -/
def Device.writeBacksOut (d : Device) : Device :=
  (List.range 32).foldl Device.drainChannel ((d.flow.wbq.map (·.1)).foldl Device.writeBack d)

/-- Every skim copy is demoted and written back (R208). -/
def Device.flushSkim (d : Device) : Device :=
  ((d.flow.skim.map (·.1)).foldl (fun d p =>
    let d := d.demote p
    (d.flow.wbq.map (·.1)).foldl Device.writeBack d) d.writeBacksOut).writeBacksOut

/-- The levels the TIO pins drive, as one number. -/
def Device.tioLevels (d : Device) : Nat :=
  (((List.range 16).filter fun k => decide (4 ≤ d.tioMode k ∧ d.tioMode k ≤ 7) && d.tioHigh k).map fun k => 2 ^ k).sum

/-- USB4 disconnect: both seats become absent (R459). -/
def Device.seatsOff (d : Device) : Device := (d.seatAbsent 0).seatAbsent 1

/-- Steps 3 to 6 of R468: the skim store is written back, the stacks enter self-refresh, the pads are held and the dies are
switched off. The island keeps time from here. -/
def Device.enterSleep (d : Device) : Device :=
  let d := (d.seatsOff).flushSkim
  let lv := d.tioLevels
  let run := d.pwr.running
  let held := d.pwr.held
  let latched := d.pwr.latched
  let d := d.coreReset true
  let d := d.modPwr fun p => { p with
    phase := .asleep, running := run, held := held, latched := latched, tioHeld := some lv, heldAt := d.transit, portsDown := true }
  let d := ((d.setFlag Off.pwrPad 0 true).setFlag Off.pwrAon 30 true).setFld Off.rstoreSelfref 1 0 3
  d.raise 453 Sev.info Cause.powerState
    (match run with | some t => d.powerArg t.req.state t.old t.req.who | none => 0) 0

/-- The start of a wake by its sources: WAKE_SRC records them, and the state WAKE_TARGET names is asked for (R460, R474). -/
def Device.wakeBy (d : Device) (srcs : Nat) : Device :=
  let target := d.fld Off.pwrCtl 2 0
  let target := if target ≤ 2 then target else 0
  let d := d.setReg Off.pwrWakeSrc (srcs % 32)
  let d := d.raise 452 Sev.info Cause.powerState (d.powerArg target d.pwrState 3) (srcs % 32)
  d.powerAsk ⟨target, 3, none⟩

/-- The held request starts, or a wake that was latched takes effect (R461, R462). -/
def Device.nextRequest (d : Device) : Device :=
  let latched := d.pwr.latched
  let held := d.pwr.held
  let d := (d.modPwr fun p => { p with held := none, latched := 0 }).showPower
  let d := if d.pwr.phase = .asleep ∧ latched ≠ 0 then d.wakeBy latched else d
  match held with
  | some r => d.powerAsk r
  | none => d

/-- The engines gated in Trim run again (R465). -/
def Device.engineWakeAll (d : Device) : Device :=
  (List.range 32).foldl (fun d e =>
    if (d.dom 7 e).state == .stopped then d.modDom 7 e fun x => { x with state := .running } else d) d

/-- The state a transition leads to is reached (R461): its event and its requests' completion, then the next request. -/
def Device.reached (d : Device) (t : Trans) : Device :=
  let d := d.setFld Off.pwrStatus 26 24 t.req.state
  let d := if t.req.state = 1 then d else d.engineWakeAll
  let d := d.powerEvent t.req.state t.old t.req.who
  let d := if t.req.state ≤ 2 then d.runningDone else d
  ((d.modPwr fun p => { p with running := none }).showPower).nextRequest

/-- A running transition reaches its state (R461, R464, R467 to R469): between Run and Trim at once; to Run or Trim from below
once ALIVE is high; to Doze, Sleep and Off once the ports are down. -/
def Device.transitionComplete (d : Device) : Device :=
  match d.pwr.running with
  | none => d
  | some t =>
    if t.req.state < 2 then
      if t.old < 2 ∨ d.pwr.alive then d.reached t else d
    else if t.req.state = 2 then
      if t.old = 3 then (if d.pwr.phase = .started then d.reached t else d)
      else if d.pwr.portsDown then ((d.writeBacksOut).setFld Off.rstoreSelfref 1 0 3).reached t
      else d
    else if !d.pwr.portsDown then d
    else if t.req.state = 3 then d.enterSleep.reached t
    else
      let d := (d.seatsOff).powerEvent 4 t.old t.req.who
      (d.coldReset 0).modPwr fun p => { p with phase := .off, portsDown := true }

/-! ### Wake sources (R462, R474) -/

/-- A wake source fires: 0 wake port, 1 WAKE_N, 2 TB0 alarm, 3 USB4A, 4 USB4B. From Off only the first two start the device, as a
cold start. -/
def Device.wake (d : Device) (src : Nat) : Device :=
  let enabled := d.flag Off.pwrWakeEn src && decide (src < 5)
  match d.pwr.phase, d.pwr.running with
  | .off, _ =>
    if src < 2 then (d.modPwr fun p => { p with phase := .waits, portsDown := false }).setReg Off.pwrWakeSrc (2 ^ src) else d
  | .asleep, _ => if enabled then d.wakeBy (2 ^ src) else d
  | _, some t =>
    if enabled ∧ t.req.state = 3 then d.modPwr fun p => { p with latched := p.latched ||| 2 ^ src } else d
  | _, none => d

/-- The TB0 alarm's time is reached: it fires once, and wakes the device from Sleep (R359). -/
def Device.alarm (d : Device) : Device := if d.alarmDue then d.alarmFire.wake 2 else d

/-! ### ALIVE and HB (R29, R485) -/

/-- The first attempt of every enabled port has ended: Darby drives ALIVE high, and the device has started (R29, R485). -/
def Device.aliveRise (d : Device) : Device :=
  let up := match d.pwr.phase with
    | .tiles => d.pwr.tiles.length == 64
    | .started => !d.pwr.alive && (match d.pwr.running with | some t => decide (t.req.state < 2) | none => false)
    | _ => false
  if up && d.pwr.awaiting.isEmpty && !d.pwr.portsDown && !d.fault.stopping && d.darbyRuns then
    d.modPwr fun p => { p with alive := true, phase := .started, islandFrom := d.transit }
  else d

/-- Darby's supervision loop toggles HB from step 7 of a start on, while it runs: a Darby that is FAULTED or RESTARTING stops HB
(R29, R485). -/
def Device.hbToggle (d : Device) : Device :=
  if (d.pwr.phase == .tiles || d.pwr.phase == .started) && !d.fault.stopping && d.darbyRuns then
    d.modPwr fun p => { p with hb := !p.hb } else d

/-! ### Safe stop (R456, R457) -/

/-- A safe stop: squelch, ALIVE low, Darby halts; FAULT_RESET_CAUSE is set (R456). Its event, its sequence number and FN_LATCH were
given when it began. HB keeps its level: it has no further edge (R28; DESIGN CHOICE, log, entry 54). -/
def Device.safeStop (d : Device) : Device :=
  if !d.fault.stopping || d.pwr.stopUntil.isSome then d
  else
    let until_ := d.transit + 1000000 * max 1 (d.fld Off.faultCtl 15 0)
    let d := (d.setFld Off.faultResetCause 3 0 3).modPwr fun p => { p with
      squelch := true, alive := false, stopUntil := some until_ }
    { d with fault := { d.fault with stops := d.fault.stops ++ [d.transit] } }

/-- Safe stops within STOP_WINDOW seconds (R457, FAULT_STATUS). -/
def Device.stopsNow (d : Device) : Nat :=
  let w := 1000000000 * max 1 (d.fld Off.faultCtl 27 16)
  (d.fault.stops.filter fun t => decide (d.transit < t + w)).length

/-- STOP_HOLD has passed: the internal reset follows, and the device starts up or, at the STOP_LIMIT-th safe stop of the window,
is held in reset (R456, R457). -/
def Device.stopHoldExpiry (d : Device) : Device :=
  match d.pwr.stopUntil with
  | none => d
  | some t =>
    if d.transit < t then d
    else
      let limit := d.fld Off.faultCtl 31 28
      let hold := limit ≠ 0 ∧ limit ≤ d.stopsNow
      let d := d.warmReset 3
      if hold then (d.setFlag Off.faultStatus 31 true).modPwr fun p => { p with phase := .held } else d

/-! ### RESET_N, brown-out (R471, R536) -/

/-- RESET_N is asserted, or PWRGOOD falls (R536). From Off the start is cold. A device whose THERMTRIP_N is low stays in reset
until its sensors read below 105 °C (R482). -/
def Device.resetN (d : Device) : Device :=
  if d.pwr.phase = .off then d.modPwr fun p => { p with phase := .waits, portsDown := false }
  else
    let hot := d.pwr.thermtrip && decide (signed 16 (d.fld Off.pwrTherm 15 0) ≥ 1050)
    let temp := d.fld Off.pwrTherm 15 0
    let d := (d.warmReset 2).setFlag Off.faultStatus 31 false
    if hot then ((d.setFld Off.pwrTherm 15 0 temp).modPwr fun p => { p with phase := .held, thermtrip := true, latched := 1 }) else d

/-- A brown-out of the island's regulator: Off, and a cold start next (R471). -/
def Device.brownOut (d : Device) : Device :=
  ((d.coldReset 1).setFlag Off.pwrAon 31 true).modPwr fun p => { p with phase := .off, portsDown := true }

/-! ### Shedding (R30, R477 to R480) -/

/-- The last-word frame of a port (R480). -/
def Device.lastWordFrame (d : Device) (p : Nat) : List Byte :=
  withFcs (List.replicate 6 0xFF ++ d.portMac p ++ bytesBE 2 (d.fld Off.pwrLastword 15 0) ++ bytesBE 2 0x4C57 ++ [1, 5] ++
    bytesBE 6 d.hawk.seq ++ bytesBE 8 (d.tbCount 0) ++ bytesBE 28 0)

/-- The copies that a port is putting on the wire, or has pre-empted there. -/
def Device.onWire (d : Device) (p : Nat) : List Nat :=
  (d.buf.copies.filter fun c => c.2.port == p && (c.2.stage == .mac || c.2.stage == .remainder)).map (·.1)

/-- The last word of R30: each enabled port ends its frame in progress with an error termination and sends one if LW_EN is set, each
enabled span flags it, and each present seat is given a LAST_WORD notice. -/
def Device.lastWord (d : Device) : Device :=
  let d := d.enabledPorts.foldl (fun d p =>
    let d := (d.onWire p).foldl Device.endWire d
    if d.flag (Off.portCfg p) 20 then d.sendOwn p (d.lastWordFrame p) else d) d
  let d := d.modPwr fun p => { p with lwSpans := (List.range 32).filter d.spanEn }
  (List.range 2).foldl (fun d s =>
    if d.present s then (d.notice s (d.fld (Off.seatCtl s) 5 3) 7 [5] none).1 else d) d

/-- What overrides every request: the running transition stops and the held request completes with BUSY (R462). -/
def Device.powerOverride (d : Device) : Device :=
  let d := match d.pwr.held with | some h => d.powerDone St.busy h | none => d
  (d.modPwr fun p => { p with running := none, held := none, draining := false }).showPower

/-- Shed level S5 is entered: the last word; the squelch and the internal reset follow within 100 ns, in which a span sends LW (R30, R331,
R477). -/
def Device.shedS5 (d : Device) : Device :=
  if d.pwr.s5At.isSome then d else d.powerOverride.lastWord.modPwr fun p => { p with s5At := some (d.transit + 100) }

/-- The 100 ns of the last word are over: squelch and internal reset (R28, R30, R477). -/
def Device.s5Over (d : Device) : Device :=
  match d.pwr.s5At with
  | some t => if t ≤ d.transit then d.warmReset 4 else d
  | none => d

/-- Whether a tile carries a quoted flow (R477). -/
def Device.tileQuoted (d : Device) (t : Nat) : Bool :=
  let on (p : Nat) : Bool := p / 8 == t
  d.quotes.any (fun q => q.2.active && (on q.2.inPort || on q.2.portA || (q.2.portB.map on).getD false)) ||
    (List.range 32).any (fun s => d.spanEn s && (d.spanLanes s).any on &&
      (List.range 256).any fun c => d.flag (Off.lathChanCfg s c) 31) ||
    (d.flag Off.plumbServoCtl 31 && on (d.fld Off.plumbServoCtl 26 17))

/-- The shed gate of a tile: PWR_GATE_TILE keeps it. -/
def gateTileOff (t : Nat) : Nat := if t < 32 then Off.pwrGateTileLo else Off.pwrGateTileHi

/-- The tiles whose gate is not as S3 and above ask: gated where the tile carries no quoted flow (R477). -/
def Device.tilesMoved (d : Device) : List Nat :=
  if d.shed < 3 then [] else (List.range 64).filter fun t => d.flag (gateTileOff t) (t % 32) == d.tileQuoted t

/-- The gate of a tile follows its quoted flows; a gated tile has its ports down and flushed (R477). -/
def Device.gateTile (d : Device) (t : Nat) : Device :=
  if d.tileQuoted t then d.setFlag (gateTileOff t) (t % 32) false
  else
    let d := d.setFlag (gateTileOff t) (t % 32) true
    (d.enabledPorts.filter fun p => p / 8 == t).foldl (fun d p =>
      (d.portDown p true).modPort p fun x => { x with bring := .down, aligned := false }) d

/-- S3: every tile that carries no quoted flow is gated. A tile that gains or loses its quoted flows under S3 follows at the next tick
(R477; DEDUCED, log, entry 129). -/
def Device.gateTiles (d : Device) : Device := d.tilesMoved.foldl Device.gateTile d

/-- A change of the shed level, with its event; what depends on the level follows it (R477, R478). -/
def Device.setShed (d : Device) (level vcore : Nat) : Device :=
  let old := d.shed
  let d := (d.setFld Off.pwrShedStatus 31 29 level).setFld Off.pwrShedStatus 15 0 vcore
  let d := d.setFld Off.pwrShedStatus 28 26 (max level (d.fld Off.pwrShedStatus 28 26))
  let d := d.raise 433 (if old < level then Sev.warn else Sev.info) Cause.shedLevel level vcore
  let d := if old < 1 ∧ 1 ≤ level then d.telemShed else d
  let d := if old < 3 ∧ 3 ≤ level then d.gateTiles
    else if 3 ≤ old ∧ level < 3 then (d.setReg Off.pwrGateTileLo 0).setReg Off.pwrGateTileHi 0 else d
  d.enabledPorts.foldl (fun d p => (d.showPfc p).tags p) d

/-- The threshold of a level in steps of 0.25 % below SET (R476, PWR_SHED_THR). -/
def Device.shedThr (d : Device) (level : Nat) : Nat := d.fld Off.pwrShedThr (6 * level - 1) (6 * level - 6)

/-- Levels are judged in Run, Trim and Doze (R477). -/
def Device.shedJudged (d : Device) : Bool := d.pwr.phase == .tiles || d.pwr.phase == .started

/-- VCORE (in 0.1 mV) has stayed below a threshold for 1 µs (R478). -/
def Device.shedEnter (d : Device) (level vcore : Nat) : Device :=
  let set := 10 * d.fld Off.pwrVcore 31 16
  if !d.shedJudged || decide (level ≤ d.shed) || decide (5 < level) || decide (set * (400 - d.shedThr level) ≤ 400 * vcore) then d
  else
    let d := d.setShed level vcore
    if level = 5 then d.shedS5 else d

/-- VCORE has stayed above the threshold of the present level plus 1 % of SET for 100 µs (R478). -/
def Device.shedLeave (d : Device) (vcore : Nat) : Device :=
  let l := d.shed
  let set := 10 * d.fld Off.pwrVcore 31 16
  if l = 0 ∨ 5 ≤ l ∨ 400 * vcore ≤ set * (404 - d.shedThr l) then d else d.setShed (l - 1) vcore

/-- The nominal voltages of the monitored rails in mV (R533): VSRAM, VLANE, VLANE_HV, VDDQ. -/
def railNominal (rail : Nat) : Option Nat :=
  match rail with
  | 1 => some 750 | 2 => some 750 | 3 => some 1200 | 4 => some 1100 | _ => none

/-- A supply monitor finds a rail at `mv`: SUPPLY at 5 % below nominal or lower (R479). `deep`: it has stayed 8 % or more below nominal for 1 µs. Rails 6 and up are VIO
banks. -/
def Device.supply (d : Device) (rail mv : Nat) (deep : Bool) : Device :=
  let warned := d.raise (434 + min rail 6) Sev.warn Cause.supply rail mv
  match railNominal rail with
  | some n =>
    if 95 * n < 100 * mv then d
    else if deep ∧ 100 * mv ≤ 92 * n ∧ d.shedJudged then 
      if d.pwr.s5At.isSome then warned else (warned.setShed 5 (d.fld Off.pwrShedStatus 15 0)).shedS5
    else warned
  | none => warned

/-! ### Temperature (R481, R482) -/

/-- The hottest sensor reads `temp`, in 0.1 °C (R481, R482). -/
def Device.thermal (d : Device) (sensor : Nat) (temp : Int) : Device :=
  let d := d.setFld Off.pwrTherm 15 0 (unsigned 16 temp)
  let warn : Int := 10 * d.fld Off.pwrTherm 23 16
  if d.pwr.thermtrip then
    if temp < 1050 ∧ d.pwr.latched = 1 then d.modPwr fun p => { p with phase := .waits, thermtrip := false, latched := 0 } else d
  else if warn ≤ temp ∧ !d.pwr.warned then
    (d.modPwr fun p => { p with warned := true }).raise 441 Sev.warn Cause.thermal sensor (unsigned 64 temp)
  else if temp ≤ warn - 20 then d.modPwr fun p => { p with warned := false }
  else d

/-- A sensor reaches 125 °C: THERMTRIP_N low, squelch, reset, and the device is held in reset (R482). -/
def Device.thermTrip (d : Device) (sensor : Nat) (temp : Int) : Device :=
  if temp < 1250 ∨ d.pwr.phase = .off then d
  else
    let d := d.raise 442 Sev.fault Cause.thermal sensor (unsigned 64 temp)
    let d := (d.powerOverride).warmReset 5
    (d.setFld Off.pwrTherm 15 0 (unsigned 16 temp)).modPwr fun p => { p with phase := .held, thermtrip := true }

/-! ### Clocks (R483) -/

/-- A clock is declared lost or comes back: 0 core REFCLK, 1 AONCLK, 2 + d the REFCLK of lane die d. -/
def Device.clock (d : Device) (which : Nat) (lost : Bool) : Device :=
  let src := if which < 2 then 443 else 442 + which
  let d := d.raise src (if lost then Sev.warn else Sev.info) Cause.clock which (b2n (!lost))
  if !lost then
    let d := d.modPwr fun p => { p with lostDies := p.lostDies.filter fun n => decide (n + 2 ≠ which) }
    (d.enabledPorts.filter fun p => p / 64 + 2 == which).foldl (fun d p => d.bringUpAttempt p false) d
  else if which = 0 then d.domainFault 0xC 0 0 false []
  else if which = 1 then
    if d.pwr.phase = .asleep then
      ((List.range 8).foldl (fun d n => d.setFlag (Off.plumbTbStatus n) 3 false) d).wakeBy 0
    else d
  else
    let d := d.modPwr fun p => { p with lostDies := if p.lostDies.contains (which - 2) then p.lostDies else p.lostDies ++ [which - 2] }
    (List.range 8).foldl (fun d k => d.domainFault 0 (8 * (which - 2) + k) 0 false []) d

/-! ### Flash operations (R494, R496) -/

/-- Whether a range of flash touches the extent of the active swatch, as the valid directory names it. -/
def Device.touchesActive (d : Device) (a n : Nat) : Bool :=
  match d.swatchEntry d.activeSwatch with
  | some e => decide (a < e.off + e.len) && decide (e.off < a + n)
  | none => false

/-- The bytes an operation covers: 4 KiB for ERASE, 256 otherwise. Address bits below that are taken as 0 (DESIGN CHOICE,
assumption log, entry 44). -/
def flashSpan (op a : Nat) : Nat × Nat := if op = 1 then (a / 4096 * 4096, 4096) else (a / 256 * 256, 256)

/-- A write of DARBY_FLASH_CMD.OP: ignored and flagged while BUSY; an ERASE or PROGRAM of the active swatch is refused. -/
def Device.flashCmd (d : Device) (seat v : Nat) : Device :=
  let op := v % 4
  if d.flag Off.darbyFlashCmd 31 then d.quietFlag seat Off.darbyFlashCmd v
  else if op = 0 then d
  else
    let (a, n) := flashSpan op (d.fld Off.darbyFlashAddr 27 0)
    if op < 3 ∧ d.touchesActive a n then d.setFld Off.darbyFlashCmd 30 28 1
    else (d.setFlag Off.darbyFlashCmd 31 true).modPwr fun p => { p with flashOp := some ⟨op, a⟩ }

def Device.flashWrite (d : Device) (a : Nat) (bs : List Byte) : Device :=
  d.modPwr fun p => { p with flash := Mem.writeN 0xFF p.flash a bs }

/-- Flash cells after programming: a 1 becomes 0 and no 0 becomes 1 (PRESUMED of NOR flash, assumption log, entry 45). -/
def Device.flashProgram (d : Device) (a : Nat) (bs : List Byte) : Device :=
  d.flashWrite a (List.zipWith (fun x y => x &&& y) (d.flashBytes a bs.length) bs)

/-- An event of the xSPI controller or of Darby for which the spec names no cause and no arguments: free values (assumption log,
entry 3). -/
def Device.raiseOpen (d : Device) (src sev : Nat) : Device :=
  let (d, c) := d.free 13
  let (d, a) := d.free 13
  let (d, b) := d.free 13
  d.raise src sev (c % 2 ^ 14) a b

/-- A flash operation finishes: its effect, or STATUS 2 when the flash failed, or 3 when what was programmed reads back
otherwise (R496). -/
def Device.flashDone (d : Device) (err : Bool) : Device :=
  match d.pwr.flashOp with
  | none => d
  | some o =>
    let d := (d.setFlag Off.darbyFlashCmd 31 false).modPwr fun p => { p with flashOp := none }
    if err then (d.setFld Off.darbyFlashCmd 30 28 2).raiseOpen 468 Sev.warn
    else
      let buf := (List.range 64).flatMap fun n => bytesLE 4 (d.reg (Off.darbyFlashBuf n))
      let d := d.setFld Off.darbyFlashCmd 30 28 0
      if o.op = 1 then d.flashWrite o.addr (List.replicate 4096 0xFF)
      else if o.op = 2 then
        let d := d.flashProgram o.addr buf
        if d.flashBytes o.addr 256 = buf then d else d.setFld Off.darbyFlashCmd 30 28 3
      else (List.range 64).foldl (fun d n => d.setReg (Off.darbyFlashBuf n) (d.flashN (o.addr + 4 * n) 4)) d

end Sys2Proof.Machine
end

