-- ==== Sys2Proof/Machine/RegViews.lean ====
section
/-! DEFINITION. What the read-only registers show that are computed from the rest of the state (R120, R148, R190, R241, R268,
R286, R366, R397, R441, R446, R458, R465, R496, R499, R521). -/

namespace Sys2Proof.Machine

/-- The instance of a replicated register that an offset names: `base` is the offset of instance 0. -/
def instOf (base stride count off : Nat) : Option Nat :=
  if base ≤ off ∧ off < base + stride * count ∧ (off - base) % stride = 0 then some ((off - base) / stride) else none

/-! ### Gated blocks and stopped domains (R446, R465) -/

/-- A lane that keeps its ingress pipeline powered: its span receives, or its port is up and its receive direction is awake. -/
def Device.laneAwake (d : Device) (l : Nat) : Bool :=
  (match d.portOfLane l with | some p => d.portUp p && !d.rxAsleep p | none => false) ||
    ((List.range 32).any fun s => d.spanEn s && (d.spanLanes s).contains l && !d.flag (Off.laneStatus l) 4)

/-- Whether Trim gates ingress pipeline i. -/
def Device.ingressGated (d : Device) (i : Nat) : Bool :=
  let q := d.pipe i
  !((List.range 16).any fun k => d.laneAwake (16 * i + k)) && q.entryQ.isEmpty && q.prioQ.isEmpty &&
    !(d.flow.lodge.any fun e => e.frames.any fun f => (d.frame f.1).any fun x => pipeOf (x.mN 0 % 1024) == i)

/-- Whether Trim gates egress pipeline i: every transmit direction of its ports sleeps. -/
def Device.egressGated (d : Device) (i : Nat) : Bool :=
  (List.range 16).all fun k => !d.macEn (16 * i + k) || d.txAsleep (16 * i + k)

/-- Whether a pipeline of the two kinds is gated: in Doze every one is, in Trim by its condition (R465, R467). -/
def Device.pipeGated (d : Device) (egress : Bool) (i : Nat) : Bool :=
  d.pwrState == 2 ||
    (d.pwrState == 1 && d.flag Off.pwrTrim 31 && if egress then d.egressGated i else d.ingressGated i)

def Device.gateBits (d : Device) (egress : Bool) : Nat :=
  ((List.range 32).map fun i => if d.pipeGated egress i then 2 ^ i else 0).sum

/-- The transmit domain of a tile is gated by shedding, or while the transmit directions of all its lanes in use sleep (R287, R299,
R477). -/
def Device.tileGated (d : Device) (t : Nat) : Bool :=
  d.flag (gateTileOff t) (t % 32) ||
    (let ls := (List.range 8).map (8 * t + ·)
     ls.any (fun l => d.flag (Off.laneStatus l) 2) && ls.all fun l => d.flag (Off.laneStatus l) 2 || !d.laneUsed l)

def Device.tileBits (d : Device) (t0 : Nat) : Nat := ((List.range 32).map fun i => if d.tileGated (t0 + i) then 2 ^ i else 0).sum

/-- Whether a domain that runs no recovery is disabled or gated, by configuration or power state (R446): an unused tile, a port without
MAC_EN, a gated pipeline or engine, a channel that does not run, a span without EN; in Doze also buffer, skim store and scaffold. -/
def Device.domStopped (d : Device) (kind inst : Nat) : Bool :=
  match kind with
  | 0 => d.tileGated inst || !((List.range 8).any fun k => d.laneUsed (8 * inst + k))
  | 1 => !d.macEn inst
  | 2 => d.pipeGated false inst
  | 3 => d.pipeGated true inst
  | 4 | 5 => d.pwrState == 2
  | 6 => !d.flag (Off.rstoreChStatus inst) 0
  | 7 => d.pwrState == 2 || (d.dom 7 inst).state == .stopped
  | 8 => !d.spanEn inst
  | _ => false

/-! ### Pipelines, coats and tables -/

def Device.curId (d : Device) : Nat := (d.curCoat.map (·.id)).getD 0

def Device.liveSlots (d : Device) : Nat := (d.coats.slots.keys.map fun s => 2 ^ s).sum

/-- Whether the core runs: from step 7 of start-up until the next stop (R120, R397, R485). -/
def Device.coreRuns (d : Device) : Bool := d.pwr.phase == .tiles || d.pwr.phase == .started

/-- PIPE_STATUS of an instance; pipelines 32 and up are the egress ones. -/
def Device.pipeStatus (d : Device) (i : Nat) : Nat :=
  let x := d.dom (if i < 32 then 2 else 3) (i % 32)
  let reloading := d.pipes.reload.any fun p => p.1 / 64 == i
  d.curId * 2 ^ 16 + d.liveSlots * 2 ^ 8 + d.coats.cur.getD 0 * 2 ^ 4 + 4 * b2n reloading +
    2 * b2n (x.state == .faulted || x.state == .restarting) +
    b2n (d.coreRuns && x.state == .running && !d.pipeGated (decide (32 ≤ i)) (i % 32))

def Device.coatStatus (d : Device) : Nat :=
  d.curId * 2 ^ 16 + b2n d.staging * 2 ^ 9 + d.fld Off.coatStatus 8 7 * 2 ^ 7 + b2n d.coats.pending.isSome * 2 ^ 6 +
    d.liveSlots * 4 + d.coats.cur.getD 0

def Device.coatSlotWord (d : Device) (s : Nat) : Nat :=
  match d.coatAt s with
  | some c => b2n (decide (d.coats.cur ≠ some s)) * 2 ^ 17 + 2 ^ 16 + c.id
  | none => 0

/-- Free words of a station's step store beside every live and pending coat and the staged words (R104); the base's words are copied at
COAT_COMMIT only (R117). -/
def Device.freeWords (d : Device) (stn : Nat) : Nat :=
  4096 - (d.usedAddrs stn).length - (if d.staging then (NMap.getD d.coats.stagedAddrs stn []).length else 0)

def minList (l : List Nat) : Nat := l.foldl min 4096

def Device.coatFreeMin (d : Device) : Nat :=
  minList ((List.range 8).map fun s => d.freeWords (32 + s)) * 2 ^ 16 + minList ((List.range 24).map d.freeWords)

def Device.viewCoats (d : Device) (off : Nat) : Option Nat :=
  ((instOf (Off.pipeStatus 0) 0x10000 64 off).map d.pipeStatus) <|>
  ((instOf (Off.coatSlot 0) 4 4 off).map d.coatSlotWord) <|>
  ((instOf (Off.coatCarry 0) 4 4 off).map fun s => min (2 ^ 20 - 1) (d.carrying s)) <|>
  (if off = Off.coatStatus then some d.coatStatus
   else if off = Off.coatFreeMin then some d.coatFreeMin
   else if off = Off.tblPoolFree then some (1488 - d.poolPages)
   else if off = Off.tblTernFree then some (96 - d.ternBlocks)
   else if off = Off.tblStageLog then some d.stageLog
   else if off = Off.tblSettle then some (b2n !d.coats.settling.isEmpty)
   else none)

/-! ### Flow state, buffer, scheduling, spread -/

/-- The largest load of any slot of a port's wheel, in units of 4 wire bytes (R268). -/
def Device.peakLoad (d : Device) (p : Nat) : Nat :=
  let slots := (d.quotes.filterMap fun q => (q.2.fitOn p).map Fit.positions).flatten.dedup
  min 65535 (ceilDiv ((slots.map (d.slotLoad p)).foldl max 0) 4)

def Device.calPeak (d : Device) (p : Nat) : Nat :=
  min 65535 (d.quotes.filter fun q => d.quoteActive q.1 && (q.2.fitOn p).isSome).length * 2 ^ 16 + d.peakLoad p

/-- Live members `n` to `n + 31` of a group as bits; the members of a group that is not enabled are not live. -/
def Device.liveBits (d : Device) (g n : Nat) : Nat :=
  if d.groupEn g then ((List.range 32).map fun i => if n + i < d.nmemb g && d.memberLive g (n + i) then 2 ^ i else 0).sum else 0

def Device.gateEntry (d : Device) (p : Nat) : Nat :=
  NMap.getD (d.sched p).admin (d.fld (Off.schedGateIdx p) 7 0) (0xFF * 2 ^ 24 + 1000000)

def Device.viewTraffic (d : Device) (off : Nat) : Option Nat :=
  ((instOf (Off.bufPortAllow 0) 0x40 512 off).map d.allowance) <|>
  ((instOf (Off.bufPortCuse 0) 0x40 512 off).map fun p => d.acctUse (.contract p)) <|>
  ((instOf (Off.schedPortCtl 0) 0x100 512 off).map fun p => setBits (d.reg (Off.schedPortCtl p)) 7 7 1) <|>
  ((instOf (Off.schedCalPeak 0) 0x100 512 off).map d.calPeak) <|>
  ((instOf (Off.schedGateData 0) 0x100 512 off).map d.gateEntry) <|>
  ((instOf (Off.spreadGrpLiveLo 0) 0x200 256 off).map fun g => d.liveBits g 0) <|>
  ((instOf (Off.spreadGrpLiveHi 0) 0x200 256 off).map fun g => d.liveBits g 32) <|>
  (if off = Off.flowSkimUsed then some d.flow.skim.length
   else if off = Off.flowPinned then some d.pinnedCount
   else if off = Off.bufSharedSize then some d.sharedSize
   else if off = Off.bufFree then some d.sharedFree
   else if off = Off.spreadFloatUse then some d.heldCount
   else none)

/-! ### Time -/

/-- COUNT of a pin's captures; EDGE is read from the seat's shadow. -/
def Device.tioWord (d : Device) (k : Nat) : Nat :=
  setBits (d.reg (Off.plumbTioCtl k)) 15 11 (d.tio k).fifo.length

def Device.viewTime (d : Device) (off : Nat) : Option Nat :=
  ((instOf (Off.plumbTbSecLo 0) 0x40 8 off).map fun n => (d.tbNow n).sec % 2 ^ 32) <|>
  ((instOf (Off.plumbTbSecHi 0) 0x40 8 off).map fun n => (d.tbNow n).sec / 2 ^ 32 % 2 ^ 16) <|>
  ((instOf (Off.plumbTbNs 0) 0x40 8 off).map fun n => (d.tbNow n).ns) <|>
  ((instOf (Off.plumbTbFrac 0) 0x40 8 off).map fun n => (d.tbNow n).frac) <|>
  ((instOf (Off.plumbTioCtl 0) 0x20 16 off).map d.tioWord) <|>
  (if off = Off.plumbTransitLo then some (d.transit % 2 ^ 32)
   else if off = Off.plumbTransitHi then some (d.transit / 2 ^ 32 % 2 ^ 32)
   else none)

/-! ### Scaffold -/

def ThrState.code : ThrState → Nat
  | .free => 0 | .running => 1 | .pulling => 3 | .saving => 4

/-- THR_STATE of hardware thread k: a running thread whose lookup or command is not done reads as in microword wait (R391, R397). -/
def Device.thrWord (d : Device) (k : Nat) : Nat :=
  let x := d.thr k
  let t := x.task.bind d.task
  (if x.state == .running && d.stalled k then 2 else x.state.code) * 2 ^ 29 + b2n x.interrupt * 2 ^ 28 + ((t.map (·.level)).getD 0) * 2 ^ 24 + ((t.map (·.bank)).getD 0) * 2 ^ 23 +
    x.task.getD 0

/-- The pc of the task on hardware thread k. -/
def Device.thrPc (d : Device) (k : Nat) : Nat :=
  (((d.thr k).task.bind d.task).map fun t => t.regs.pc.toNat % 2 ^ 18).getD 0

/-- ENG_STATUS of an engine (R397). -/
def Device.engWord (d : Device) (e : Nat) : Nat :=
  let x := d.dom 7 e
  setBits (setBits (d.reg (Off.scafEngStatus e)) 2 2 (b2n (x.state == .restarting))) 0 0 (b2n (d.coreRuns && x.state == .running))

/-- The register at place `at_` of the hardware threads' sets: thread 8 × engine + thread. -/
def thrOf (at_ off : Nat) : Option Nat :=
  let x := off - at_
  if at_ ≤ off ∧ x / 0x1000 < 32 ∧ x % 0x1000 / 0x40 < 8 ∧ x % 0x40 = 0 then some (8 * (x / 0x1000) + x % 0x1000 / 0x40) else none

def Device.viewScaf (d : Device) (off : Nat) : Option Nat :=
  ((thrOf (Off.scafThrState 0 0) off).map d.thrWord) <|>
  ((thrOf (Off.scafThrPc 0 0) off).map d.thrPc) <|>
  ((instOf (Off.scafEngStatus 0) 0x1000 32 off).map d.engWord) <|>
  (if off = Off.scafTasks then some d.scaf.tasks.length
   else if off = Off.scafWork then some (min 65535 d.workListed)
   else if off = Off.scafCodeCtl then some (setBits (d.reg off) 29 29 (b2n d.bankDraining))
   else none)

/-! ### Hawk and faults -/

/-- The 32 bytes of a log entry (R440). -/
def LogEntry.bytes (x : LogEntry) : List Byte :=
  bytesLE 6 x.seq ++ bytesLE 2 x.src ++ bytesLE 2 x.code ++ bytesLE 2 x.count ++ bytesLE 1 x.dkind ++ bytesLE 1 0 ++
    bytesLE 2 x.dinst ++ bytesLE 8 x.time ++ bytesLE 8 x.arg0

/-- Word w of entry n of the log; an entry that holds nothing reads 0. -/
def Device.logWord (d : Device) (n w : Nat) : Nat :=
  let len := d.hawk.log.length
  let oldest := (d.hawk.logNext + 256 - len) % 256
  match d.hawk.log[(n + 256 - oldest) % 256]? with
  | some x => fieldLE x.bytes (4 * w) 4
  | none => 0

def DomState.code : DomState → Nat
  | .running => 0 | .faulted => 1 | .restarting => 2 | .failed => 3 | .stopped => 4

/-- The state that the indexed domain shows: one whose recovery waits for its place still shows RUNNING (R446, R447). -/
def Device.domShown (d : Device) (kind inst : Nat) : DomState :=
  let x := d.dom kind inst
  if x.waits then .running else if x.state == .running && d.domStopped kind inst then .stopped else x.state

/-- FAULT_DOM_STATE of the domain that FAULT_DOM_IDX names (R446, R458). -/
def Device.domWord (d : Device) : Nat :=
  let kind := d.fld Off.faultDomIdx 19 16
  let inst := d.fld Off.faultDomIdx 8 0
  let x := d.dom kind inst
  let n := (x.restarts.filter fun t => decide (d.transit < t + 1000000000)).length
  (d.domShown kind inst).code * 2 ^ 29 + min 255 n * 2 ^ 16 + min 65535 x.faults

def Device.viewHawk (d : Device) (off : Nat) : Option Nat :=
  ((instOf (Off.hawkLogW 0 0) 4 2048 off).map fun i => d.logWord (i / 8) (i % 8)) <|>
  (if off = Off.hawkSeqLo then some (d.hawk.seq % 2 ^ 32)
   else if off = Off.hawkSeqHi then some (d.hawk.seq / 2 ^ 32)
   else if off = Off.hawkLogCtl then some (d.hawk.logNext * 2 ^ 16 + d.hawk.log.length)
   else if off = Off.faultStatus then
     some (setBits (setBits (d.reg off) 23 16 (min 255 d.stopsNow)) 15 0 (min 65535 d.activeFaults))
   else if off = Off.faultDomState then some d.domWord
   else none)

/-! ### Power (R496) -/

def Device.viewPower (d : Device) (off : Nat) : Option Nat :=
  if off = Off.pwrVcore then some (d.fld off 31 16 * 2 ^ 16 + Config.vcoreReq.toNat)
  else if off = Off.pwrGatePipeLo then some (d.gateBits false)
  else if off = Off.pwrGatePipeHi then some (d.gateBits true)
  else if off = Off.pwrGateTileLo then some (d.tileBits 0)
  else if off = Off.pwrGateTileHi then some (d.tileBits 32)
  else if off = Off.pwrGateScaf then some ((List.range 32).map fun e => if (d.dom 7 e).state == .stopped then 2 ^ e else 0).sum
  else if off = Off.devSerialLo then some (Config.serial.toNat % 2 ^ 32)
  else if off = Off.devSerialHi then some (Config.serial.toNat / 2 ^ 32)
  else none

/-- What a register shows: what is computed from the state, else what the register file holds. -/
def Device.view (d : Device) (off : Nat) : Nat :=
  (d.viewCoats off <|> d.viewTraffic off <|> d.viewTime off <|> d.viewScaf off <|> d.viewHawk off <|> d.viewPower off).getD (d.reg off)

end Sys2Proof.Machine
end

