-- ==== Sys2Proof/Machine/RegAccess.lean ====
section
/-! DEFINITION. Register access through BAR0: privilege, access types, change classes, reserved encodings, pairs and shadows
(R8 to R12, R399, R404, R405, R444, R475, R518 to R525), and what the write of each register does beside setting its
fields. -/

namespace Sys2Proof.Machine

/-- Who writes: a seat (0 A, 1 B, 2 L), or Darby applying a swatch, which no privilege and no running block holds back (R493). -/
structure Writer where
  seat : Nat
  force : Bool
deriving DecidableEq, Repr

/-- Where a seat's own copy of DEV_SCRATCH or of an IND register is kept. -/
def ownOff (s off : Nat) : Nat := off + 2 ^ 26 * (s + 1)

/-- The IND range, of which each of seats A and B has its own set (R522). -/
def isInd (off : Nat) : Bool := decide (Off.indAddr ≤ off)

/-! ### Privilege (R403 to R405, R428, R475) -/

/-- The seat whose own registers hold an offset (R428). -/
def seatRegOf (off : Nat) : Option Nat :=
  if Off.seatCtl 0 ≤ off ∧ off < Off.seatCtl 0 + 0x1000 * 2 then some ((off - Off.seatCtl 0) / 0x1000) else none

/-- What Seat L may write (R440, R443, R475): PWR_REQ_L, PWR_VCORE.SET, HAWK_LOG_CTL.CLEAR and FN_LATCH; and DEV_SCRATCH (R521). -/
def boardMayWrite (off : Nat) : Bool :=
  [Off.pwrReqL, Off.pwrVcore, Off.hawkLogCtl, Off.hawkStatus, Off.devScratch].contains off

/-- Whether a seat may write a register (R405). A span belongs to the partition of its span port; a SHARED space to no partition
alone, so that its registers need the device owner. -/
def Device.mayWrite (d : Device) (s off : Nat) : Bool :=
  if 2 ≤ s then boardMayWrite off
  else if off = Off.devScratch ∨ isInd off then true
  else match portOf off, spaceOf off, spanRegOf off, seatRegOf off with
    | some p, _, _, _ => d.owns s (d.portPart p)
    | _, some n, _, _ => if d.flag (Off.flowSpaceCtl n) 30 then d.isDevOwner s else d.owns s (d.fld (Off.flowSpaceCtl n) 29 26)
    | _, _, some x, _ => d.owns s (d.portPart (d.spanFirst x))
    | _, _, _, some t => s == t || d.isDevOwner s
    | _, _, _, _ => d.isDevOwner s

/-! ### Quiet fields (R12) -/

def Device.laneFree (d : Device) (l : Nat) : Bool :=
  (d.portOfLane l).isNone && !((List.range 32).any fun s => d.spanEn s && (d.spanLanes s).contains l)

/-- Whether no active quote names a port (R268). -/
def Device.calendarStopped (d : Device) (p : Nat) : Bool := !(d.quotes.any fun q => d.quoteActive q.1 && q.2.names p)

/-- Whether the block that owns a Quiet field is stopped. -/
def Device.stoppedFor (d : Device) (off : Nat) (f : Field) : Bool :=
  match portOf off, spaceOf off, spanRegOf off with
  | some p, _, _ => if off = Off.schedCal p then d.calendarStopped p else !d.macEn p
  | _, some n, _ => !d.spaceEn n
  | _, _, some s =>
    if off = Off.lathApsCtl s then !d.spanEn s && (!d.flag off 31 || !d.spanEn (d.fld off 28 24))
    else match instOf (Off.lathChanCfg s 0) 8 63 off with
      | some k => !d.flag (Off.lathChanCfg s k) 31
      | none => !d.spanEn s
  | _, _, _ =>
    let inSet (base stride count : Nat) (ok : Nat → Bool) : Option Bool :=
      if base ≤ off ∧ off < base + stride * count then some (ok ((off - base) / stride)) else none
    ((inSet (Off.rstoreChStatus 0) 0x100 32 fun c => d.flag (Off.rstoreChStatus c) 1) <|>
     (inSet (Off.spreadGrpCtl 0) 0x200 256 fun g => !d.groupEn g) <|>
     (inSet (Off.laneCtl 0) 0x1000 512 d.laneFree) <|>
     (inSet (Off.plumbTioCtl 0) 0x20 16 fun k => d.tioMode k == 0) <|>
     (inSet (Off.scafTick 0) 4 16 fun n => !d.flag (Off.scafTick n) 31) <|>
     (inSet (Off.seatPortPart 0) 4 64 fun k => !d.macEn (8 * k + f.lo / 4)) <|>
     (inSet (Off.seatCrBaseLo 0 0) 0x20 8 fun r => !d.crEnabled 0 r) <|>
     (inSet (Off.seatNrBaseLo 0 0) 0x20 8 fun r => !d.nrEnabled 0 r) <|>
     (inSet (Off.seatCrBaseLo 1 0) 0x20 8 fun r => !d.crEnabled 1 r) <|>
     (inSet (Off.seatNrBaseLo 1 0) 0x20 8 fun r => !d.nrEnabled 1 r) <|>
     (inSet (Off.perfSel 0) 0x20 256 fun n => !d.flag (Off.perfSel n) 31) <|>
     (if off = Off.plumbServoCtl then some (!d.flag off 31)
      else if off = Off.scafCodeLen0 then some (d.bankActive != 0 && !d.bankDraining)
      else if off = Off.scafCodeLen1 then some (d.bankActive != 1 && !d.bankDraining)
      else if off = Off.scafPushPages then some d.scaf.tasks.isEmpty
      else if Off.telemCtl ≤ off ∧ off < Off.telemFspaceCtl 0 then some (!d.flag Off.telemCtl 31)
      else none)).getD true

/-! ### Writing fields (R8, R11, R12) -/

/-- The encodings a field takes: all but the listed reserved ones, and for PERF_SEL.EVENT only those of R500. -/
def Field.takes (f : Field) (off x : Nat) : Bool :=
  if f.lo = 0 ∧ f.hi = 11 ∧ (instOf (Off.perfSel 0) 0x20 256 off).isSome then perfEvents.contains x else !f.resv.contains x

/-- One field of a written register: the new register value, and whether a Quiet field was written outside Quiet (R12, R444). -/
def fieldWrite (off v : Nat) (open_ boot : Field → Bool) (acc : Nat × Bool) (f : Field) : Nat × Bool :=
  let x := bits v f.hi f.lo
  let o := bits acc.1 f.hi f.lo
  match f.acc, f.chg with
  | .rw1c, _ => (setBits acc.1 f.hi f.lo (o - (o &&& x)), acc.2)
  | .rw, .live => if f.takes off x then (setBits acc.1 f.hi f.lo x, acc.2) else acc
  | .rw, .quiet =>
    if !open_ f then (acc.1, true) else if f.takes off x then (setBits acc.1 f.hi f.lo x, acc.2) else acc
  | .rw, .boot => if boot f ∧ f.takes off x then (setBits acc.1 f.hi f.lo x, acc.2) else acc
  | _, _ => acc

/-- The value of a register after a write of `v`, fields in `skip` (by their low bit) left out, and whether the write is flagged
under R12. A write of a register writes each of its fields, so a Quiet field that is outside Quiet is flagged whatever its value
(DEDUCED; log, entry 69). -/
def Device.newValue (d : Device) (w : Writer) (off v : Nat) (r : RegDef) (skip : List Nat) : Nat × Bool :=
  let fs := r.fields.filter fun f => !skip.contains f.lo
  let open_ (f : Field) : Bool := w.force || d.stoppedFor off f
  fs.foldl (fieldWrite off v open_ (fun _ => w.force)) (d.reg off, false)

/-- The Boot-class fields of a write wait for the next swatch load or reset; until then a read shows the value in effect (DESIGN CHOICE:
R12 does not say what it shows; log, entry 68). -/
def Device.bootWrite (d : Device) (w : Writer) (off v : Nat) (r : RegDef) : Device :=
  let fs := r.fields.filter fun f => f.chg == .boot && f.acc == .rw
  if w.force || fs.isEmpty then d
  else
    let old := NMap.getD d.pwr.boot off (d.reg off)
    let new := fs.foldl (fun a f => if f.takes off (bits v f.hi f.lo) then setBits a f.hi f.lo (bits v f.hi f.lo) else a) old
    d.modPwr fun p => { p with boot := NMap.set p.boot off new }

/-- A write handled by its fields alone. -/
def Device.plainWrite (d : Device) (w : Writer) (off v : Nat) (skip : List Nat) : Device :=
  match regDef? off with
  | none => d
  | some r =>
    let (n, ignored) := d.newValue w off v r skip
    let d := (d.setReg off n).bootWrite w off v r
    if ignored then d.quietFlag w.seat off v else d

/-- Both halves of a pair at once (R10); `off` is that of the HI half. -/
def Device.plainPair (d : Device) (w : Writer) (off lo hi : Nat) : Device :=
  match regDef? (off - 4), regDef? off with
  | some a, some b =>
    let (x, i) := d.newValue w (off - 4) lo a []
    let (y, j) := d.newValue w off hi b []
    let d := (d.setReg (off - 4) x).setReg off y
    if i || j then d.quietFlag w.seat off hi else d
  | _, _ => d

/-! ### Registers whose write does more -/

/-- What a write of a register does. -/
inductive Role where
  | plain | coat | tap (l : Nat) | portCfg (p : Nat) | headroom (p : Nat) | pool | lathCtl (s : Nat) | lathAps (s : Nat)
  | chanCfg (s k : Nat) | lathMap (s n : Nat) | grpCtl (g : Nat) | telemCtl | shedThr | plumbCtl | owner | seatCtl (t : Nat)
  | keepalive (t : Nat) | claim (t : Nat) | nrCtl (t r : Nat) | hawkRaise | logCtl | reqL | flash | perfCtl | perfCnt (n : Nat)
  | tbCmd (n : Nat) | tbAdj (n : Nat) | tbOfs (n : Nat) | alarm | servoCtl | tioCtl (k : Nat) | codeCtl | codeIdx | codeData
  | signal | tick (n : Nat) | gateCtl (p : Nat) | gateAdmin (p : Nat) | gateData (p : Nat) | pipeArb
deriving DecidableEq, Repr

def roleTraffic (off : Nat) : Option Role :=
  ((instOf (Off.laneTxTap 0) 0x1000 512 off).map Role.tap) <|>
  ((instOf (Off.portCfg 0) 0x1000 512 off).map Role.portCfg) <|>
  ((instOf (Off.bufPortHeadroom 0) 0x40 512 off).map Role.headroom) <|>
  ((instOf (Off.lathCtl 0) 0x4000 32 off).map Role.lathCtl) <|>
  ((instOf (Off.lathApsCtl 0) 0x4000 32 off).map Role.lathAps) <|>
  ((spanRegOf off).bind fun s => (instOf (Off.lathChanCfg s 0) 8 63 off).map (Role.chanCfg s)) <|>
  ((spanRegOf off).bind fun s => (instOf (Off.lathMap s 0) 4 40 off).map (Role.lathMap s)) <|>
  ((instOf (Off.spreadGrpCtl 0) 0x200 256 off).map Role.grpCtl) <|>
  ((instOf (Off.schedGateCtl 0) 0x100 512 off).map Role.gateCtl) <|>
  ((instOf (Off.schedGateBaseHi 0) 0x100 512 off).map Role.gateAdmin) <|>
  ((instOf (Off.schedGateCycle 0) 0x100 512 off).map Role.gateAdmin) <|>
  ((instOf (Off.schedGateLen 0) 0x100 512 off).map Role.gateAdmin) <|>
  ((instOf (Off.schedGateData 0) 0x100 512 off).map Role.gateData) <|>
  ((instOf (Off.pipeArb 0) 0x10000 32 off).map fun _ => Role.pipeArb)

def roleRest (off : Nat) : Option Role :=
  ((instOf (Off.seatCtl 0) 0x1000 2 off).map Role.seatCtl) <|>
  ((instOf (Off.seatKeepalive 0) 0x1000 2 off).map Role.keepalive) <|>
  ((instOf (Off.seatClaim 0) 0x1000 2 off).map Role.claim) <|>
  ((instOf (Off.seatNrCtl 0 0) 0x20 8 off).map (Role.nrCtl 0)) <|>
  ((instOf (Off.seatNrCtl 1 0) 0x20 8 off).map (Role.nrCtl 1)) <|>
  ((instOf (Off.perfCntHi 0) 0x20 256 off).map Role.perfCnt) <|>
  ((instOf (Off.plumbTbCmd 0) 0x40 8 off).map Role.tbCmd) <|>
  ((instOf (Off.plumbTbAdj 0) 0x40 8 off).map Role.tbAdj) <|>
  ((instOf (Off.plumbTbOfsHi 0) 0x40 8 off).map Role.tbOfs) <|>
  ((instOf (Off.plumbTioCtl 0) 0x20 16 off).map Role.tioCtl) <|>
  ((instOf (Off.scafTick 0) 4 16 off).map Role.tick)

/-- The role of a register, of a pair by its HI half. -/
def roleOf (off : Nat) : Role :=
  if isCoatReg off then .coat
  else if off = Off.bufPoolContract ∨ off = Off.bufPoolRecirc ∨ off = Off.bufPoolScaf then .pool
  else if off = Off.telemCtl then .telemCtl
  else if off = Off.pwrShedThr then .shedThr
  else if off = Off.plumbCtl then .plumbCtl
  else if off = Off.seatOwner then .owner
  else if off = Off.hawkRaise then .hawkRaise
  else if off = Off.hawkLogCtl then .logCtl
  else if off = Off.pwrReqL then .reqL
  else if off = Off.darbyFlashCmd then .flash
  else if off = Off.perfCtl then .perfCtl
  else if off = Off.plumbAlarmHi then .alarm
  else if off = Off.plumbServoCtl then .servoCtl
  else if off = Off.scafCodeCtl then .codeCtl
  else if off = Off.scafCodeIdx then .codeIdx
  else if off = Off.scafCodeDataHi then .codeData
  else if off = Off.scafSignal then .signal
  else ((roleTraffic off) <|> (roleRest off)).getD .plain

/-- A write of a Coat-class register joins what the seat has staged (R12, R106, R117). -/
def Device.stageReg (d : Device) (s off v : Nat) : Device :=
  (d.modCoats fun c => { c with staged := c.staged ++ [(s, .creg off v)] }).retainImages

/-- A pool size or headroom value: refused when it would leave the shared pool below 65,536 cells (R219). -/
def Device.writePool (d : Device) (w : Writer) (off v : Nat) : Device :=
  let n := d.plainWrite w off v []
  if n.poolsOk then n.poolsMoved
  else (d.setFlag Off.bufStatus 0 true).raise 192 Sev.warn Cause.cfgRefused off v

/-- PORT_CFG: its fields, then MAC_EN (R219, R289). A swatch that changes the Quiet fields of a running port takes it down first
(R493). -/
def Device.writePortCfg (d : Device) (w : Writer) (p v : Nat) : Device :=
  let off := Off.portCfg p
  let differ := bits v 30 21 != d.fld off 30 21 || bits v 13 0 != d.fld off 13 0
  let d := if w.force && d.macEn p && differ then d.disablePort p else d
  let d := d.plainWrite w off v [31]
  match bit v 31, d.macEn p with
  | true, false => d.enablePort p v
  | false, true => d.disablePort p
  | _, _ => d

/-- LATH_CTL: its fields, then EN (R314). -/
def Device.writeLathCtl (d : Device) (w : Writer) (s v : Nat) : Device :=
  let off := Off.lathCtl s
  let d := d.plainWrite w off v [31]
  match bit v 31, d.spanEn s with
  | true, false => d.enableSpan s v
  | false, true => d.disableSpan s
  | true, true => (d.showSpan s).apsLook s
  | false, false => d

/-- LATH_CHAN_CFG: RATE and BURST, then EN (R328). -/
def Device.writeChanCfg (d : Device) (w : Writer) (s k v : Nat) : Device :=
  let off := Off.lathChanCfg s k
  let d := d.plainWrite w off v [31]
  if bit v 31 then d.enableChannel s k v else d.setFlag off 31 false

/-- A map register: taken whole or ignored and flagged; slot 0 keeps channel 0 (R329). -/
def Device.writeLathMap (d : Device) (w : Writer) (s n v : Nat) : Device :=
  let off := Off.lathMap s n
  if w.force || d.mapOk s n v then d.plainWrite w off v (if n = 0 then [0] else []) else d.quietFlag w.seat off v

/-- LATH_APS_CTL: the fields of a group may be written only while both spans are disabled, those of the group as it is and as it would be
(R335); CMD takes effect with the next frame. -/
def Device.writeApsCtl (d : Device) (w : Writer) (s v : Nat) : Device :=
  let off := Off.lathApsCtl s
  if !w.force && bit v 31 && d.spanEn (bits v 28 24) && !d.spanEn s then (d.plainWrite w off v [31, 30, 29, 24]).quietFlag w.seat off v
  else d.plainWrite w off v []

/-- SPREAD_GRP_CTL: its fields, then EN; EN = 1 for a spray group whose members' rates differ is ignored, and of an enabled group the
whole write with it (R274, R275). -/
def Device.writeGrpCtl (d : Device) (w : Writer) (g v : Nat) : Device :=
  let off := Off.spreadGrpCtl g
  let n := d.plainWrite w off v [31]
  if bit v 31 && n.groupSpray g && !n.ratesEqual g then (if d.groupEn g then d else n).groupRefuse g v
  else
    let moved := n.groupStreams g ≠ d.groupStreams g ∨ n.nmemb g ≠ d.nmemb g
    let n := if moved then n.resetGroup g else n
    match bit v 31, n.groupEn g with
    | true, false => (n.setFlag off 31 true).resetGroup g
    | false, true => n.setFlag off 31 false
    | _, _ => n

/-- TELEM_CTL: its fields, then EN (R510). -/
def Device.writeTelemCtl (d : Device) (w : Writer) (v : Nat) : Device :=
  let d := d.plainWrite w Off.telemCtl v [31]
  match bit v 31, d.flag Off.telemCtl 31 with
  | true, false => d.telemEnable
  | true, true => if d.exportRefused then d.setFlag Off.telemStatus 0 true else d
  | false, true => d.setFlag Off.telemCtl 31 false
  | _, _ => d

/-- Whether the six-bit thresholds ascend strictly from S1 to S5 (R496). -/
def shedThrOk (v : Nat) : Bool := (List.range 4).all fun i => decide (bits v (6 * i + 5) (6 * i) < bits v (6 * i + 11) (6 * i + 6))

def Device.writeShedThr (d : Device) (w : Writer) (v : Nat) : Device :=
  if shedThrOk v then d.plainWrite w Off.pwrShedThr v [] else d.raise 433 Sev.warn Cause.cfgRefused Off.pwrShedThr v

/-- PLUMB_CTL: TCLK_SRC chooses the source of the time clock (R336); MULTI waits for a start (R342). -/
def Device.writePlumbCtl (d : Device) (w : Writer) (v : Nat) : Device :=
  (d.plainWrite w Off.plumbCtl v []).setFlag Off.plumbStatus 0 (bit v 30)

/-- SEAT_OWNER: the swatch names the device owner at start-up; later a write hands its role over (R406). -/
def Device.writeOwner (d : Device) (v : Nat) : Device :=
  if v % 4 = 3 then d
  else if d.pwr.phase = .waits then d.nameOwner (v % 4)
  else if v % 4 = d.devOwner then d else d.setOwner (v % 4)

/-- SEAT_CTL: OBSERVER is the device owner's to write (R428). -/
def Device.writeSeatCtl (d : Device) (w : Writer) (t v : Nat) : Device :=
  let off := Off.seatCtl t
  let may := w.force || d.isDevOwner w.seat
  let change := bit v 31 != d.flag off 31
  let d := if may then d.setFlag off 31 (bit v 31) else d
  let d := d.plainWrite w off v [31]
  if change && !may then d.privRefuse w.seat off v else d

/-- SEAT_NR_CTL: a ring that becomes enabled starts its first pass, at entry 0 with PHASE 1 (R410). -/
def Device.writeNrCtl (d : Device) (w : Writer) (t r v : Nat) : Device :=
  let off := Off.seatNrCtl t r
  let was := d.flag off 31
  let d := d.plainWrite w off v []
  if !was && d.flag off 31 then
    let d := (d.setFld (Off.seatNrTail t r) 15 0 0).setFld (Off.seatNrHead t r) 15 0 0
    d.modNring t r fun n => { n with phase := true, lost := false, since := 0 }
  else d

/-- HAWK_RAISE: a software event; severity ESCALATED is raised as WARN (R435). -/
def Device.softwareEvent (d : Device) (v : Nat) : Device :=
  let code := v % 2 ^ 16
  let code := if eventSev code = Sev.escalated then eventCode Sev.warn (code % 2 ^ 14) else code
  d.raiseEvent ⟨512 + bits v 20 16, code, 1, 0xFF, 0, d.reg64 Off.hawkRaiseArgLo, 0, d.transit⟩

/-- HAWK_LOG_CTL.CLEAR: the event log is empty (R440). -/
def Device.clearLog (d : Device) : Device := { d with hawk := { d.hawk with log := [] } }

/-- PERF_CTL: FREEZE and SNAP (R503, R504). -/
def Device.writePerfCtl (d : Device) (w : Writer) (v : Nat) : Device :=
  let d := d.freeze (bit v 31)
  if bit v 30 then d.snap w.seat else d

/-- PLUMB_TB_CMD (R340). -/
def Device.tbCommand (d : Device) (s n v : Nat) : Device :=
  match v % 4 with
  | 1 => (d.tbSet s n).gatesStepped
  | 2 => (d.tbAdd n).gatesStepped
  | 3 => (d.tbSlew n).gatesStepped
  | _ => d

/-- PLUMB_SERVO_CTL: a servo that is switched off is FREE, with its integrator at 0 (R352). -/
def Device.writeServoCtl (d : Device) (w : Writer) (v : Nat) : Device :=
  let was := d.flag Off.plumbServoCtl 31
  let d := d.plainWrite w Off.plumbServoCtl v []
  if was && !bit v 31 then (d.setServo 0).modPlumb fun p => { p with integ := 0, inLock := 0 }
  else if !was && bit v 31 then d.modPlumb fun p => { p with integ := 0, inLock := 0, lastOffsetAt := p.transit }
  else d

/-- PLUMB_TIO_CTL: a write of MODE starts the pin afresh (R355, R356). -/
def Device.writeTioCtl (d : Device) (w : Writer) (k v : Nat) : Device :=
  let d := d.plainWrite w (Off.plumbTioCtl k) v []
  if v % 16 < 8 then d.tioArm k else d

/-- SCAF_CODE_CTL: CODE_ERR is cleared by 1, SWITCH asks for the other bank (R372). -/
def Device.writeCodeCtl (d : Device) (w : Writer) (v : Nat) : Device :=
  let d := d.plainWrite w Off.scafCodeCtl v []
  if bit v 31 then d.switchCode w.seat else d

/-- SCAF_TICK: a tick that becomes enabled counts its period from now (R387). -/
def Device.writeTick (d : Device) (w : Writer) (n v : Nat) : Device :=
  let was := d.flag (Off.scafTick n) 31
  let d := d.plainWrite w (Off.scafTick n) v []
  if !was && bit v 31 then d.modScaf fun s => { s with tickLast := NMap.set s.tickLast n d.transit } else d

/-- An ignored write of the admin list while one is pending: flagged under R12, and refused on source 370 (R265, R436). -/
def Device.gateBusy (d : Device) (w : Writer) (p off v : Nat) : Device :=
  (d.quietFlag w.seat off v).raise 370 Sev.warn Cause.cfgRefused p v

/-- SCHED_GATE_CTL: EN = 0 opens every gate at once; TB belongs to the admin list; COMMIT makes it pending (R264, R265). -/
def Device.writeGateCtl (d : Device) (w : Writer) (p v : Nat) : Device :=
  let off := Off.schedGateCtl p
  let busy := d.flag off 29 && bits v 28 26 != d.fld off 28 26
  let d := d.plainWrite w off v (if d.flag off 29 then [26] else [])
  let d := if bit v 31 then d else d.modSched p fun s => { s with oper := none }
  let d := d.gatesMoved p
  let d := if busy then d.gateBusy w p off v else d
  if bit v 30 then d.gateCommit p else d

/-- A write of the list's registers while none is pending; `f` is the write. -/
def Device.gateWrite (d : Device) (w : Writer) (p off v : Nat) (f : Device → Device) : Device :=
  if d.flag (Off.schedGateCtl p) 29 then d.gateBusy w p off v else f d

/-- The admin entry that SCHED_GATE_IDX names. -/
def Device.writeGateEntry (d : Device) (p v : Nat) : Device :=
  d.modSched p fun s => { s with admin := NMap.set s.admin (d.fld (Off.schedGateIdx p) 7 0) v }

/-- The learn bucket of a space is credited at the old rate before FLOW_SPACE_LEARN changes (R184). -/
def Device.beforeWrite (d : Device) (off : Nat) : Device :=
  match instOf (Off.flowSpaceLearn 0) 0x40 16 off with
  | some s => d.modFlow fun w => { w with tokens := NMap.set w.tokens s (d.learnTokens s, d.transit) }
  | none => d

/-- Registers of the buffer, and of ports, can move the reserves and the pause thresholds (R218, R219, R224); a write of PORT_SLEEP
starts the idle time anew (R302). -/
def Device.afterWrite (d : Device) (off : Nat) : Device :=
  let d := match instOf (Off.portSleep 0) 0x1000 512 off with
    | some p => d.notIdle p
    | none => d
  if (0x1C00000 ≤ off ∧ off < 0x1C18000) ∨ (0x2400000 ≤ off ∧ off < 0x2600000) then d.poolsMoved else d

/-- What a write of a register that is no half of a pair does. -/
def Device.writeRole (d : Device) (w : Writer) (off v : Nat) : Device :=
  match roleOf off with
  | .coat => d.stageReg w.seat off v
  | .tap l => d.writeTaps l v
  | .portCfg p => d.writePortCfg w p v
  | .headroom _ => d.writePool w off v
  | .pool => d.writePool w off v
  | .lathCtl s => d.writeLathCtl w s v
  | .lathAps s => d.writeApsCtl w s v
  | .chanCfg s k => d.writeChanCfg w s k v
  | .lathMap s n => d.writeLathMap w s n v
  | .grpCtl g => d.writeGrpCtl w g v
  | .telemCtl => d.writeTelemCtl w v
  | .shedThr => d.writeShedThr w v
  | .plumbCtl => d.writePlumbCtl w v
  | .owner => d.writeOwner v
  | .seatCtl t => d.writeSeatCtl w t v
  | .keepalive t => d.keepalive t
  | .claim t => if bit v 0 && w.seat == t then d.claim t else d
  | .nrCtl t r => d.writeNrCtl w t r v
  | .hawkRaise => d.softwareEvent v
  | .logCtl => if bit v 31 then d.clearLog else d
  | .reqL => d.powerAskL (v % 8)
  | .flash => d.flashCmd w.seat v
  | .perfCtl => d.writePerfCtl w v
  | .tbCmd n => d.tbCommand w.seat n v
  | .tbAdj n => d.setAdj n (signed 32 v)
  | .servoCtl => d.writeServoCtl w v
  | .tioCtl k => d.writeTioCtl w k v
  | .codeCtl => d.writeCodeCtl w v
  | .codeIdx => (d.plainWrite w off v []).modScaf fun s => { s with idxOver := false }
  | .signal => d.raiseSignal (v % 2 ^ 16)
  | .tick n => d.writeTick w n v
  | .gateCtl p => d.writeGateCtl w p v
  | .gateAdmin p => d.gateWrite w p off v fun d => d.plainWrite w off v []
  | .gateData p => d.gateWrite w p off v fun d => d.writeGateEntry p v
  | .pipeArb => d.plainWrite w off (setBits v 7 0 (max 4 (v % 256))) []
  | .plain | .perfCnt _ | .tbOfs _ | .alarm | .codeData => d.plainWrite w off v []

/-- A write of a register that is no half of a pair. -/
def Device.writeOne (d : Device) (w : Writer) (off v : Nat) : Device := ((d.beforeWrite off).writeRole w off v).afterWrite off

/-- A write of both halves of a pair; `off` is that of the HI half (R10). -/
def Device.writePair (d : Device) (w : Writer) (off lo hi : Nat) : Device :=
  match roleOf off with
  | .perfCnt n => { d with perf := { d.perf with written := NMap.set d.perf.written n (lo + hi % 2 ^ 16 * 2 ^ 32) } }
  | .codeData => (d.modScaf fun s => { s with codeLo := lo }).storeCode w.seat hi
  | .gateAdmin p => d.gateWrite w p off hi fun d => d.plainPair w off lo hi
  | .tbOfs n => if d.multi || n == 0 then d else (d.plainPair w off lo hi).ppsAgain n
  | .alarm => (d.plainPair w off lo hi).modPlumb fun p => { p with alarmFired := false }
  | _ => d.plainPair w off lo hi

/-! ### Access by a seat -/

/-- Registers that the island answers for while the core die is off or in reset: those the register tables mark island (R366,
R428, R458, R475, R496). -/
def islandReach (off : Nat) : Bool :=
  [Off.plumbAonInc, Off.seatIslandStatus, Off.hawkStatus, Off.hawkSeqLo, Off.hawkSeqHi, Off.hawkLogCtl, Off.hawkLogOvf, Off.faultCtl,
   Off.faultStatus, Off.faultResetCause, Off.faultStopSeqLo, Off.faultStopSeqHi, Off.pwrWakeEn, Off.pwrWakeSrc, Off.pwrSwatch,
   Off.pwrAon].contains off ||
    (instOf (Off.hawkSticky 0) 4 17 off).isSome || (instOf (Off.hawkLogW 0 0) 4 2048 off).isSome

/-- Whether a seat's access reaches a register: in Sleep and while the device is held in reset only Seat L's to island
registers, in Off none (R459, R475). -/
def Device.reaches (d : Device) (s off : Nat) : Bool :=
  match d.pwr.phase with
  | .off => false
  | .asleep => s == 2 && islandReach off
  | .held => s == 2 && islandReach off
  | _ => true

/-- Where a register of an access is kept: a seat's own copy, or the one of the device. -/
def placeOf (s off : Nat) : Nat := if off = Off.devScratch ∨ isInd off then ownOff s off else off

def Device.setHeld (d : Device) (s off v : Nat) : Device := d.modSeat s fun x => { x with heldLo := NMap.set x.heldLo off v }

/-- A pair's HI half is written: the LO half last written by the seat, or the present one where none is held, goes with it
(R10). -/
def Device.pairHi (d : Device) (s off v : Nat) : Device :=
  let held := NMap.get? (d.seat s).heldLo (off - 4)
  let lo := held.getD (if off = Off.scafCodeDataHi then d.scaf.codeLo else d.reg (off - 4))
  (d.modSeat s fun x => { x with heldLo := NMap.del x.heldLo (off - 4) }).writePair ⟨s, false⟩ off lo v

/-- A 32-bit write by a seat to a register outside the IND range (R399, R405, R10, R519). -/
def Device.writeReg (d : Device) (s off v : Nat) : Device :=
  match regDef? off with
  | none => d
  | some r =>
    let d := d.occSeat 0x702 s off (d.regPart off)
    if !d.mayWrite s off then d.privRefuse s off v
    else if off = Off.devScratch then d.setReg (ownOff s off) v
    else match r.half with
      | .lo => d.setHeld s off v
      | .hi => d.pairHi s off v
      | .single => d.writeOne ⟨s, false⟩ off v

/-- Accesses refused so far under R405 or R12. -/
def Device.refusals (d : Device) : Nat := (d.perf.occ.filter fun o => o.code == 0x703).length

/-- A write of IND_DATA: CFG_ERR, or the broadcast to its instances in ascending order (R523). BUSY is clear again when the
command ends. -/
def Device.broadcast (d : Device) (s v : Nat) : Device :=
  let a := d.reg (ownOff s Off.indAddr)
  let st := d.reg (ownOff s Off.indStride)
  let n := d.reg (ownOff s Off.indCount)
  let status := ownOff s Off.indStatus
  if n = 0 ∨ 4096 < n ∨ 0x3F00000 ≤ a + st * (n - 1) then d.setFlag status 30 true
  else
    let before := d.refusals
    let d := (List.range n).foldl (fun d k => d.writeReg s (a + st * k) v) d
    d.setFld status 15 0 (min 65535 (d.refusals - before))

/-- A write to a seat's IND set (R522). -/
def Device.writeInd (d : Device) (s off v : Nat) : Device :=
  match regDef? off with
  | none => d
  | some r =>
    let d := d.occSeat 0x702 s off none
    if 2 ≤ s then d
    else if off = Off.indData then d.broadcast s v
    else
      let at_ := ownOff s off
      d.setReg at_ (r.fields.foldl (fieldWrite off v (fun _ => true) (fun _ => true)) (d.reg at_, false)).1

/-- A 32-bit write to BAR0 by a seat. Unassigned offsets and offsets that are no multiple of 4 ignore it (R399, R519). -/
def Device.busWrite (d : Device) (s off v : Nat) : Device :=
  if !d.reaches s off then d
  else if isInd off then d.writeInd s off v
  else d.writeReg s off v

/-! ### Reads (R8, R10, R341, R357, R441, R499) -/

def Device.shadow? (d : Device) (s off : Nat) : Option Nat := NMap.get? (d.seat s).shadow off

def Device.setShadow (d : Device) (s off v : Nat) : Device := d.modSeat s fun x => { x with shadow := NMap.set x.shadow off v }

/-- The counter whose value or snapshot an offset names (R499). -/
def perfCounterOf (off : Nat) : Option Nat :=
  (instOf (Off.perfCntLo 0) 0x20 256 off) <|> (instOf (Off.perfCntHi 0) 0x20 256 off) <|>
    (if Off.perfSnapLo 0 ≤ off ∧ off < Off.perfSnapLo 0 + 8 * 256 then some ((off - Off.perfSnapLo 0) / 8) else none)

/-- PRIV_ERR of a seat's read (R499). -/
def Device.readRefused (d : Device) (s : Nat) : Device := if s < 2 then d.setFlag (Off.seatStatus s) 1 true else d

/-- Bits of PERF_OVF word w that a seat may read. -/
def Device.ovfMask (d : Device) (s w : Nat) : Nat := ((List.range 32).map fun i => if d.perfMayRead s (32 * w + i) then 2 ^ i else 0).sum

/-- Bits that a read returns: WO fields and bits outside any field read 0 (R8). -/
def readMask (r : RegDef) : Nat :=
  ((r.fields.filter fun f => f.acc != .wo && f.acc != .rsv).map fun f => (2 ^ (f.hi + 1 - f.lo) - 1) * 2 ^ f.lo).sum

/-- The RC fields of a read register clear (R8). -/
def Device.clearRc (d : Device) (off : Nat) (r : RegDef) : Device :=
  let fs := r.fields.filter fun f => f.acc == .rc
  if fs.isEmpty then d else d.setReg off (fs.foldl (fun v f => setBits v f.hi f.lo 0) (d.reg off))

/-- A free value for a field the spec gives no rule for: the island's draw (kind 15), the micro-address of a thread that holds a task, where
its sequencer holds none (kind 16). -/
def Device.freeField (d : Device) (off v : Nat) : Device × Nat :=
  if off = Off.pwrAon then let (d, x) := d.free 15; (d, setBits v 7 0 x)
  else match thrOf (Off.scafThrUpc 0 0) off with
  | some k =>
    if (d.thr k).state == .free then (d, 0)
    else match (NMap.get? d.scaf.micro k).bind Micro.upc with
      | some u => (d, u % 2 ^ 15)
      | none => let (d, x) := d.free 16; (d, x % 2 ^ 15)
  | none => (d, v)

/-- The value a read shows: the shadow where the seat has one, else the register, with the RC fields cleared. A shadow holds until
the seat's next read of LO (R10; DESIGN CHOICE, log, entry 66). -/
def Device.readValue (d : Device) (s off : Nat) (r : RegDef) : Device × Nat :=
  match d.shadow? s off, instOf (Off.plumbTioCtl 0) 0x20 16 off with
  | sh, some _ => (d.clearRc off r, setBits (d.view off &&& readMask r) 9 9 (sh.getD 0))
  | some v, none => (d, v)
  | none, none =>
    let v := if off = Off.devWhoami then s else if off = Off.devScratch then d.reg (ownOff s off) else d.view off
    let (d, v) := d.freeField off (v &&& readMask r)
    (d.clearRc off r, v)

/-- TIO_CAP_LO: the oldest capture leaves the FIFO, its high half and edge going to the seat's shadow (R357). -/
def Device.readCapture (d : Device) (s k : Nat) : Device × Nat :=
  let (v, rising, rest) : Nat × Bool × List (Nat × Bool) := match (d.tio k).fifo with
    | (v, e) :: rest => (v, e, rest)
    | [] => (0, false, [])
  let d := d.setTio k { d.tio k with fifo := rest }
  ((d.setShadow s (Off.plumbTioCapHi k) (v / 2 ^ 32)).setShadow s (Off.plumbTioCtl k) (b2n rising), v % 2 ^ 32)

/-- SEC_LO of a base: SEC_HI, NS and FRAC of the same tick go to the seat's shadow (R341). -/
def Device.readSecLo (d : Device) (s n : Nat) : Device × Nat :=
  let t := d.tbNow n
  let d := d.setShadow s (Off.plumbTbSecHi n) (t.sec / 2 ^ 32 % 2 ^ 16)
  ((d.setShadow s (Off.plumbTbNs n) t.ns).setShadow s (Off.plumbTbFrac n) t.frac, t.sec % 2 ^ 32)

/-- Word 0 of a log entry: the whole entry goes to the seat's shadow (R441). -/
def Device.readLog0 (d : Device) (s n : Nat) : Device × Nat :=
  ((List.range 7).foldl (fun e i => e.setShadow s (Off.hawkLogW n (i + 1)) (d.logWord n (i + 1))) d, d.logWord n 0)

/-- The LO half of a pair: the HI half goes to the seat's shadow (R10). -/
def Device.readPairLo (d : Device) (s off : Nat) (r : RegDef) : Device × Nat :=
  let (d, v) := d.readValue s off r
  (d.setShadow s (off + 4) (d.view (off + 4)), v)

/-- A read by a seat of a register outside the IND range. -/
def Device.readReg (d : Device) (s off : Nat) : Device × Nat :=
  match regDef? off with
  | none => (d, 0)
  | some r =>
    let d := d.occSeat 0x701 s off (d.regPart off)
    match perfCounterOf off, instOf (Off.perfOvf 0) 4 8 off with
    | some n, _ =>
      if !d.perfMayRead s n then (d.readRefused s, 0)
      else if r.half = .lo then d.readPairLo s off r else d.readValue s off r
    | none, some w =>
      let m := d.ovfMask s w
      ((if m = 2 ^ 32 - 1 then d else d.readRefused s), d.reg off &&& m)
    | none, none =>
      match instOf (Off.plumbTioCapLo 0) 0x20 16 off, instOf (Off.plumbTbSecLo 0) 0x40 8 off, instOf (Off.hawkLogW 0 0) 0x20 256 off with
      | some k, _, _ => d.readCapture s k
      | _, some n, _ => d.readSecLo s n
      | _, _, some n => d.readLog0 s n
      | _, _, _ => if r.half = .lo then d.readPairLo s off r else d.readValue s off r

/-- A read by a seat: IND_DATA reads the register that IND_ADDR names (R522). Seat L has no IND set. -/
def Device.busValue (d : Device) (s off : Nat) : Device × Nat :=
  if !d.reaches s off then (d, 0)
  else if !isInd off then d.readReg s off
  else if 2 ≤ s then (d, 0)
  else if off = Off.indData then
    let a := d.reg (ownOff s Off.indAddr)
    if isInd a then (d, d.reg (ownOff s a)) else d.readReg s a
  else ((d.occSeat 0x701 s off none), d.reg (ownOff s off))

/-- A read by a seat; the value returned stands in the seat's place of `pwr.data`. -/
def Device.busRead (d : Device) (s off : Nat) : Device :=
  let (d, v) := d.busValue s off
  d.modPwr fun p => { p with data := NMap.set p.data s v }

end Sys2Proof.Machine
end

