-- ==== Sys2Proof/Machine/Servo.lean ====
section
/-! DEFINITION. What Darby does on the servo's port and with its offsets (R351, R352). -/

namespace Sys2Proof.Machine

/-- SERVO_CTL.SOURCE: 0 PTP, 1 PPS. -/
def Device.servoPps (d : Device) : Bool := d.flag Off.plumbServoCtl 30

def Device.servoPort (d : Device) : Nat := d.fld Off.plumbServoCtl 26 17

/-- Once per second the servo sends its Pdelay_Req (R351). -/
def Device.pdelayReqSend (d : Device) : Device :=
  let p := d.servoPort
  if !d.servoOn || d.servoPps || !d.portUp p || d.txAsleep p || d.transit < d.plumb.pdelaySec + 1000000000 then d
  else
    let d := d.sendOwn p (Config.ptpFrame 0 p d.plumb.pdelaySeq)
    d.modPlumb fun q => { q with pdelaySeq := (q.pdelaySeq + 1) % 65536, pdelaySec := q.transit }

/-- The partner's Pdelay_Req on the servo port is counted and answered (R351). -/
def Device.pdelayReq (d : Device) (p : Nat) (b : List Byte) : Device :=
  if !d.rxOpen p || !d.isServoFrame p b then d
  else match (d.disarm p).macOwn p b with
    | (d, true) => d.sendOwn p (Config.ptpFrame 1 p (fieldBE b 44 2))
    | (d, false) => d

/-- The servo takes an offset: from a Sync and its Follow_Up the one Darby finds, or that of a PPS capture not yet taken
(R351). Their frames disarm the direction they came by (R305). While the lanes are gated for Doze the servo stays in holdover (R352,
R360). -/
def Device.takeOffset (d : Device) (ptp : Int) : Device :=
  if !d.servoOn || d.pwr.portsDown then d
  else if !d.servoPps then
    (if d.portUp d.servoPort then ((d.disarm d.servoPort).servoOffset ptp).gatesStepped else d)
  else match d.plumb.ppsSeen with
    | some t => if d.plumb.lastOffsetAt < t then (d.servoOffset d.ppsOffset).gatesStepped else d
    | none => d

/-- LOSS sync intervals have passed with no offset, or LOSS seconds with no edge on PPS_IN (R352). The sync interval is the time between
the last two offsets (DEDUCED, log 120). -/
def Device.servoLoss (d : Device) : Bool :=
  let loss := max 1 (d.fld Off.plumbServoLim 7 0)
  if d.servoPps then decide (d.plumb.ppsSeen.getD 0 + 1000000000 * loss ≤ d.transit)
  else decide (d.plumb.lastOffsetAt + d.plumb.offsetGap * loss ≤ d.transit)

/-- From LOCKED the servo goes to HOLDOVER when offsets have stopped (R352). -/
def Device.holdover (d : Device) : Device :=
  if d.servoOn && d.servoState == 2 && d.servoLoss then (d.setServo 3).modPlumb fun p => { p with inLock := 0 } else d

end Sys2Proof.Machine
end

