-- ==== Sys2Proof/Machine/Startup.lean ====
section
/-! DEFINITION. Start-up: straps, the choice and the check of a swatch, the render bring-up, the application of a swatch, tiles
(R195, R210, R211, R363, R364, R470, R473, R484 to R491). -/

namespace Sys2Proof.Machine

/-! ### The check of a swatch (R195, R488, R489) -/

/-- The pairs of the REGISTERS section of a swatch. -/
def Device.swatchPairs (d : Device) (n : Nat) : List (Nat × Nat) :=
  match d.swatchSection n 0x0104 with
  | none => []
  | some (a, s) => (List.range (min s.count (s.len / 8))).map fun i => (d.flashN (a + 8 * i) 4, d.flashN (a + 8 * i + 4) 4)

/-- The value a swatch gives a register: that of its last pair, else the reset value. -/
def pairValue (pairs : List (Nat × Nat)) (off : Nat) : Nat :=
  match (pairs.filter fun p => p.1 == off).getLast? with
  | some p => p.2
  | none => (regReset off).toNat

/-- The RECORD region lies at store address 0 and has 8 GiB (R195). -/
def recordRegionOk (pairs : List (Nat × Nat)) : Bool :=
  let rs := ((List.range 8).map fun n => pairValue pairs (Off.rstoreRegion n)).filter fun v => bit v 31 && bits v 30 28 == 0
  !rs.isEmpty && rs.all fun v => bits v 14 0 == 0 && bits v 25 22 == 13

/-- The partition that a swatch gives a port. -/
def pairPart (pairs : List (Nat × Nat)) (p : Nat) : Nat := bits (pairValue pairs (Off.seatPortPart (p / 8))) (4 * (p % 8) + 3) (4 * (p % 8))

def swatchMandatory : List Nat := [0x0101, 0x0102, 0x0103, 0x0104, 0x0105, 0x0107]

/-- The header of the image that a directory entry names (R488); its length is the one the directory gives (DEDUCED, log, entry
105). -/
def Device.swatchHeaderOk (d : Device) (e : SwatchEntry) : Bool :=
  let b := d.flashBytes e.off e.len
  let f := fieldLE b
  decide (e.off % 65536 = 0 ∧ 64 ≤ e.len ∧ e.len ≤ 60 * 2 ^ 20) && f 0 4 == 0x48545753 && f 4 2 == 1 && f 6 2 == 64 &&
    f 8 4 == e.len && f 12 4 == 0x47517102 && decide (f 16 1 ≤ 0xC0) && f 17 1 == 0 && decide (6 ≤ f 18 2 ∧ f 18 2 ≤ 16) &&
    allZero (sliceB b 40 24) && f 20 4 == crc32c (patchB b 20 [0, 0, 0, 0]) && e.crc == crc32c b

def Staged.isRecord : Staged → Bool
  | .record _ _ => true
  | _ => false

/-- The items of the COAT section of a swatch; none when it is no complete image in the format of R114. -/
def Device.swatchItems (d : Device) (n : Nat) : Option (List Staged) :=
  match parseImage (d.sectionBytes n 0x0105) with
  | .error _ => none
  | .ok (part, items) => if part then none else some items

/-- The coat of a swatch before its table records. -/
def Device.swatchFrame (d : Device) (items : List Staged) : Coat :=
  (items.filter fun s => !s.isRecord).foldl (Coat.stage d.stageBase d.otherCoats) d.stageBase

/-- The loader rules of R118 over the coat of a swatch, under the partitions the swatch gives the ports. -/
def Device.swatchCoatOk (d : Device) (n : Nat) : Bool :=
  match d.swatchItems n with
  | none => false
  | some items =>
    let c := d.swatchFrame items
    let all := d.heldCoats ++ [c]
    (c.fails (pairPart (d.swatchPairs n))).isEmpty && !c.dupDefs && d.wordsFit c stnList &&
      decide (poolUse all TableDef.pages ≤ 1488) && decide (poolUse all TableDef.rows ≤ 96)

/-- Whether a swatch is valid (R489). -/
def Device.swatchValid (d : Device) (n : Nat) : Bool :=
  match d.swatchEntry n with
  | none => false
  | some e =>
    e.present && d.swatchHeaderOk e &&
      swatchMandatory.all (fun ty => (d.swatchSections e.off).any fun s => s.ty == ty && decide (s.off + s.len ≤ e.len)) &&
      (Config.firmwareOf (d.sectionBytes n 0x0101)).1.toNat / 2 ^ 24 == 2 && recordRegionOk (d.swatchPairs n) && d.swatchCoatOk n

/-- The first valid swatch from one on, in the order of R491. -/
def Device.chooseSwatch (d : Device) (first : Nat) : Option Nat :=
  ((List.range 4).map fun i => (first + i) % 4).find? d.swatchValid

/-! ### The coat of a swatch -/

/-- Table records enter a coat in order, up to the first refused one. -/
def Device.addRecords (d : Device) (c : Coat) : List Staged → Device × Coat
  | .record b _ :: t =>
    let (d, v) := d.free 3
    match c.applyRecord d.otherCoats v b with
    | .ok c => d.addRecords c t
    | .error _ => (d, c)
  | _ => (d, c)

/-- Each word of a coat takes an address of its station's step store (R104). -/
def Device.addrsOf (d : Device) (c : Coat) : Device × NMap (List Nat) :=
  stnList.foldl (fun (acc : Device × NMap (List Nat)) stn =>
    let (d, l) := acc.1.takeAddrs (acc.1.usedAddrs stn) (c.words stn).length
    (d, if l.isEmpty then acc.2 else NMap.set acc.2 stn l)) (d, [])

/-- The coat of a swatch becomes the pending coat, to be current at once (R485, R493). -/
def Device.pendSwatchCoat (d : Device) (n : Nat) : Device :=
  match d.swatchItems n with
  | none => d
  | some items =>
    let (d, c) := d.addRecords (d.swatchFrame items) (items.filter Staged.isRecord)
    let (d, addrs) := d.addrsOf c
    d.modCoats fun x => { x with pending := some ⟨{ c with addrs := addrs }, d.tbCount 0, none, none, [], false⟩ }

/-! ### REGISTERS (R488, R493) -/

/-- The writer of a swatch: Darby. -/
def swatchWriter : Writer := ⟨3, true⟩

/-- The Boot-class fields of a value wait for the next start; the rest of the value, with those fields as they are (R493). -/
def Device.holdBoot (d : Device) (off v : Nat) : Device × Nat :=
  match regDef? off with
  | none => (d, v)
  | some r =>
    let fs := r.fields.filter fun f => f.chg == .boot && f.acc == .rw
    (d.bootWrite ⟨3, false⟩ off v r, fs.foldl (fun a f => setBits a f.hi f.lo (bits (d.reg off) f.hi f.lo)) v)

/-- The pairs of REGISTERS in order. A LO half is held for its HI half (R10). `live`: at run time, when Boot-class fields wait.
Coat-class registers go with the coat. -/
def Device.applyPairs (live : Bool) : List (Nat × Nat) → Option (Nat × Nat) → Device → Device
  | [], _, d => d
  | (off, v) :: t, held, d =>
    match regDef? off with
    | none => d.applyPairs live t held
    | some r =>
      if isCoatReg off then d.applyPairs live t held
      else
        let (d, v) := if live then d.holdBoot off v else (d, v)
        match r.half with
        | .lo => d.applyPairs live t (some (off, v))
        | .hi =>
          let lo := match held with
            | some (o, x) => if o + 4 = off then x else d.reg (off - 4)
            | none => d.reg (off - 4)
          (d.writePair swatchWriter off lo v).applyPairs live t none
        | .single => (d.writeOne swatchWriter off v).applyPairs live t held

/-- The Boot-class fields written before the start take effect; the other fields of their registers stand as they are (R12). -/
def Device.takeBoot (d : Device) : Device :=
  (d.pwr.boot.foldl (fun d (p : Nat × Nat) => match regDef? p.1 with
    | none => d
    | some r => d.setReg p.1 ((r.fields.filter fun f => f.chg == .boot && f.acc == .rw).foldl
        (fun a f => setBits a f.hi f.lo (bits p.2 f.hi f.lo)) (d.reg p.1))) d).modPwr fun p => { p with boot := [] }

/-! ### Render bring-up (R210, R211) -/

/-- Whether a calibration block is good (R210). -/
def calBlockOk (b : List Byte) : Bool :=
  let f := fieldLE b
  decide (2064 ≤ b.length) && f 0 4 == 0x4C414352 && f 4 2 == 1 && f 6 1 == 32 && f 7 1 == 2 && f 8 4 == crc32c (sliceB b 16 2048)

/-- The entry of a set and a channel, if it is valid. -/
def calEntry (b : List Byte) (set c : Nat) : Option (List Byte) :=
  let e := sliceB b (16 + 1024 * set + 32 * c) 32
  if calBlockOk b ∧ fieldLE e 24 1 % 2 = 1 then some e else none

/-- The codes of an entry go into the channel's delay-code registers, and the write reference code into the mode register of the
channel's stack (R209, R210). -/
def Device.loadCodes (d : Device) (c : Nat) (e : List Byte) : Device :=
  let f (i : Nat) : Nat := fieldLE e i 1
  let groups (o : Nat) : Nat := ((List.range 5).map fun g => f (o + g) % 64 * 2 ^ (6 * g)).sum
  let d := (d.setReg (Off.rstoreDlyCa c) (f 0 % 128)).setReg (Off.rstoreVref c) (f 1 % 128 + f 2 % 128 * 2 ^ 8)
  let d := (d.setReg (Off.rstoreDlyWr0 c) (groups 4)).setReg (Off.rstoreDlyWr1 c) (groups 9)
  let d := (d.setReg (Off.rstoreDlyRd0 c) (groups 14)).setReg (Off.rstoreDlyRd1 c) (groups 19)
  d.modRstore fun r => { r with writeRef := NMap.set r.writeRef (c / 16) (f 3) }

/-- One channel: set 0, then set 1, each where its entry is valid. `bad0`, `bad1`: the pattern check fails under the set. -/
def Device.calibrate (d : Device) (b : List Byte) (c : Nat) (bad0 bad1 : Bool) : Device :=
  let status := Off.rstoreChStatus c
  let run (d : Device) (set : Nat) : Device := d.setReg status (setBits (d.reg status) 3 0 (1 + 8 * set))
  let second (d : Device) : Device := match calEntry b 1 c with
    | some e => if bad1 then (d.loadCodes c e).failChannel c else run (d.loadCodes c e) 1
    | none => d.failChannel c
  match calEntry b 0 c with
  | some e => if bad0 then second (d.loadCodes c e) else run (d.loadCodes c e) 0
  | none => second d

/-! ### The steps of a start (R363, R364, R470, R473, R484, R485, R490, R491) -/

/-- The straps; WAKEADDR is sampled at the island's power-on reset only (R484). -/
def Device.sampleStraps (d : Device) (s : Straps) : Device :=
  let d := (d.setFld Off.pwrStrap 1 0 s.swatch.toNat).setFlag Off.pwrStrap 4 s.bootsrc
  let d := d.setFlag Off.pwrStrap 8 s.testmode
  if d.pwr.kind = .cold then d.setFld Off.pwrStrap 7 5 s.wakeaddr.toNat else d

/-- Time: from 0 at a cold start; else TB0 and the transit count go on and the other bases resume by their offsets (R363, R364).
PLUMB_STATUS shows the time clock's source, which PLUMB_CTL chooses (R336). -/
def Device.startTime (d : Device) : Device :=
  let d := d.setFlag Off.plumbStatus 0 (d.flag Off.plumbCtl 30)
  match d.pwr.kind with
  | .cold => d.modPlumb fun p => { p with transit := 0, tbs := [] }
  | k =>
    let base := d.tb 0
    let d := (List.range 7).foldl (fun d i => d.setTb (i + 1) (base.advance (d.tbOfs (i + 1) * 2 ^ 32))) d
    if k = .warm then d.setFlag Off.plumbStatus 2 true else d

/-- The recovery loader runs in place of the rest of the start (R486). -/
def Device.toRecovery (d : Device) : Device := d.modPwr fun p => { p with phase := .recovery }

/-- The swatch is loaded and made active; the firmware's versions and match registers are shown, its patch words
stored (R393, R485, R491), and the endpoints take their identity (R398). MC_PATCH_VER gives the number of match registers in use (R394). -/
def Device.loadSwatch (d : Device) (n first : Nat) : Device :=
  let d := d.setFld Off.pwrSwatch 1 0 n
  let d := if n = first then d else d.setFlag Off.pwrSwatch 30 true
  let d := d.raiseOpen 467 Sev.info
  let fw := d.sectionBytes n 0x0101
  let d := (d.setReg Off.darbyFwVer (Config.firmwareOf fw).1.toNat).setReg Off.mcPatchVer
    (setBits (setBits (Config.firmwareOf fw).2.toNat 15 8 ((List.range 32).filter fun i => (Config.matchOf fw i).getLsbD 31).length) 7 0 0)
  let d := d.modPwr fun p => { p with identity := (d.sectionBytes n 0x0107).take 6 }
  let d := d.modScaf fun s => { s with patch := (List.range 2048).map (Config.patchOf fw) }
  ((List.range 32).foldl (fun d i => d.setReg (Off.mcMatch i) (setBits (Config.matchOf fw i).toNat 30 25 0)) d).raiseOpen 470 Sev.info

/-- The records are cleared at a cold start, and where VDDQ left its limits; with them goes the quote table that the render store
held (R250, R470). -/
def Device.clearStore (d : Device) (kept : Bool) : Device :=
  if kept && d.pwr.kind != .cold then d
  else
    let d := if d.pwr.kind = .cold then d else d.setFlag Off.pwrStatus 23 true
    { d with quotes := [], flow := { d.flow with render := [], soft := [] }, rstore := { d.rstore with bytes := [], poison := [] } }

/-- Code bank 0 is loaded and active; without a section it is empty (R371, R488). -/
def Device.loadBank (d : Device) (n b : Nat) : Device :=
  match d.swatchSection n 0x0106 with
  | none => d
  | some (a, s) =>
    let d := d.setSram (0x200000 * b) (d.flashBytes a (8 * min s.count 262144))
    d.setReg (if b = 0 then Off.scafCodeLen0 else Off.scafCodeLen1) s.count

/-- Each space's COUNT shows the valid records that the store holds (R190). -/
def Device.recount (d : Device) : Device :=
  (List.range 16).foldl (fun d s => d.setReg (Off.flowSpaceCount s)
    (d.flow.render.filter fun p => recValid p.2 && (recId p.2).space == s).length) d

/-- Pinned and quote-pinned records are installed again; the time this takes is before forwarding (R208). -/
def Device.installPinned (d : Device) : Device :=
  ((d.flow.render.filter fun p => recPinned p.2 || recQpin p.2).map (·.1)).foldl (fun d h =>
    let d := d.modFlow fun w => { w with installs := (d.transit / 1000, 0) }
    (d.makeResident h).getD d) d

/-- The edges of a pin that fell due while it was held are not produced and are counted in SKIP (R473). -/
def Device.heldEdges (d : Device) (k : Nat) : Device :=
  let now := d.tioNow k
  let hold := now - (d.transit - d.pwr.heldAt) * 2 ^ 16
  let m := d.tioMode k
  if m = 4 ∨ m = 6 ∨ m = 7 then
    if (d.tio k).fired ∨ d.tioStart k < hold ∨ now ≤ d.tioStart k then d
    else
      let d := d.setTio k { d.tio k with fired := true, next := none }
      d.setFld (Off.plumbTioCtl k) 31 16 (min 65535 (d.fld (Off.plumbTioCtl k) 31 16 + 1))
  else if m ≠ 5 then d
  else
    let n := d.tioIndex k now - d.tioIndex k hold
    d.setFld (Off.plumbTioCtl k) 31 16 (min 65535 (d.fld (Off.plumbTioCtl k) 31 16 + n))

/-- The pads are released (R473); ARG1 of the event on source 453 is 1. -/
def Device.releasePads (d : Device) : Device :=
  if d.pwr.tioHeld.isNone then d
  else
    let arg := match d.pwr.running with | some t => d.powerArg t.req.state t.old t.req.who | none => 0
    let d := ((List.range 16).foldl Device.heldEdges d).setFlag Off.pwrPad 0 false
    (d.modPwr fun p => { p with tioHeld := none }).raise 453 Sev.info Cause.powerState arg 1

/-- Step 7 ends: HB starts; tiles are calibrated next, unless the wake leads to Doze, in which the servo holds over (R352, R464, R485).
The tile PLLs are then taken as calibrated for the bring-up on leaving Doze (DEDUCED, log, entry 130). -/
def Device.startDone (d : Device) : Device :=
  let doze := match d.pwr.running with | some t => t.req.state == 2 | none => false
  if doze then
    let d := if d.servoOn then d.setServo 3 else d
    (d.setFld Off.rstoreSelfref 1 0 3).modPwr fun p => { p with phase := .started, portsDown := true, squelch := true, awaiting := [], tiles := List.range 64 }
  else d.modPwr fun p => { p with phase := .tiles, portsDown := false, squelch := false, tiles := [], awaiting := d.enabledPorts }

/-- Steps 4 to 7 under a chosen swatch. `bad0`, `bad1`: the render channels whose pattern check fails under set 0 and set 1. -/
def Device.startUnder (d : Device) (n first : Nat) (kept : Bool) (bad0 bad1 : List Nat) : Device :=
  let d := d.loadSwatch n first
  let pairs := d.swatchPairs n
  let d := d.takeBoot
  let isRegion (o : Nat) : Bool := (instOf (Off.rstoreRegion 0) 4 8 o).isSome
  let d := (pairs.filter fun p => isRegion p.1).foldl (fun d p => d.setReg p.1 (coatRegValue p.1 (d.reg p.1) p.2)) d
  let d := (d.clearStore kept).recount
  let cal := d.sectionBytes n 0x0102
  let d := (List.range 32).foldl (fun d c => d.calibrate cal c (bad0.contains c) (bad1.contains c)) d
  let d := (d.applyPairs false pairs none).takeMasks
  let d := (List.range 512).foldl Device.loadTaps d
  let d := ((d.loadBank n 0).pendSwatchCoat n).coatDue
  let d := if d.pwr.kind = .cold then d else d.installPinned
  let d := if d.pwr.kind = .warm ∧ d.servoOn then d.setServo 1 else d
  (d.releasePads.setFld Off.rstoreSelfref 1 0 0).startDone

/-- A start from Off by a wake source raises POWER_STATE on source 452 (R474; DEDUCED, log, entry 132). -/
def Device.offWake (d : Device) : Device :=
  if d.reg Off.pwrWakeSrc = 0 then d
  else d.raise 452 Sev.info Cause.powerState (d.powerArg 0 4 3) (d.reg Off.pwrWakeSrc)

/-- A start runs up to the calibration of the tiles (R485). -/
def Device.startUp (d : Device) (s : Straps) (kept : Bool) (bad0 bad1 : List Nat) : Device :=
  if d.pwr.phase != .waits then d
  else
    let d := (d.sampleStraps s).startTime
    let d := if d.pwr.kind = .cold then d.logReset.offWake else d
    let first := if d.pwr.kind = .cold then s.swatch.toNat else d.activeSwatch
    if s.testmode then d.modPwr fun p => { p with phase := .test }
    else if s.bootsrc then d.toRecovery
    else match d.chooseSwatch first with
      | none => d.toRecovery
      | some n => d.startUnder n first kept bad0 bad1

/-- A tile's PLL is calibrated: its enabled ports begin their first attempt (R485). -/
def Device.tileCalibrated (d : Device) (t : Nat) : Device :=
  if d.pwr.phase != .tiles || decide (64 ≤ t) || d.pwr.tiles.contains t then d
  else
    let d := d.modPwr fun p => { p with tiles := p.tiles ++ [t] }
    (d.enabledPorts.filter fun p => p / 8 == t && (d.port p).bring == .down && d.mayBringUp p).foldl Device.startAttempt d

end Sys2Proof.Machine
end

