-- ==== Sys2Proof/Machine/Switching.lean ====
section
/-! DEFINITION. Swatch switches at run time, the island swatch, actions at a TB0 time, the recovery loader and the wake port (R359,
R371, R372, R422 to R427, R474, R475, R492, R493). -/

namespace Sys2Proof.Machine

/-! ### The switch (R493) -/

/-- The Quiet fields that a pair of REGISTERS changes while their block runs. -/
def Device.quietMoves (d : Device) (p : Nat × Nat) : List Field :=
  match regDef? p.1 with
  | some r => r.fields.filter fun f =>
      f.chg == .quiet && f.acc == .rw && bits p.2 f.hi f.lo != bits (d.reg p.1) f.hi f.lo && !d.stoppedFor p.1 f
  | none => []

/-- The port that owns a Quiet field: of a port's register, of its partition, or of a lane that it uses. -/
def Device.portOfField (d : Device) (off : Nat) (f : Field) : Option Nat :=
  portOf off <|>
    (if Off.seatPortPart 0 ≤ off ∧ off < Off.seatPortPart 0 + 256 then some (8 * ((off - Off.seatPortPart 0) / 4) + f.lo / 4) else none) <|>
    (if Off.laneCtl 0 ≤ off ∧ off < Off.laneCtl 0 + 0x1000 * 512 then d.portOfLane ((off - Off.laneCtl 0) / 0x1000) else none)

/-- The enabled ports that own a Quiet field which a pair changes. -/
def Device.portMoves (d : Device) (p : Nat × Nat) : List Nat := ((d.quietMoves p).filterMap (d.portOfField p.1)).filter d.macEn

/-- The field that starts and stops the block, other than a port, that owns the Quiet fields of a register: its register, high and low
bit. -/
def Device.blockCtl (d : Device) (off : Nat) : List (Nat × Nat × Nat) :=
  let in_ (base stride count : Nat) (f : Nat → Nat × Nat × Nat) : List (Nat × Nat × Nat) :=
    if base ≤ off ∧ off < base + stride * count then [f ((off - base) / stride)] else []
  let en (o : Nat) : Nat × Nat × Nat := (o, 31, 31)
  let span : List (Nat × Nat × Nat) := match spanRegOf off with
    | some s => match instOf (Off.lathChanCfg s 0) 8 63 off with
      | some k => [en (Off.lathChanCfg s k)]
      | none => [en (Off.lathCtl s)]
    | none => []
  let lane : List (Nat × Nat × Nat) :=
    if Off.laneCtl 0 ≤ off ∧ off < Off.laneCtl 0 + 0x1000 * 512 then
      ((List.range 32).filter fun s => d.spanEn s && (d.spanLanes s).contains ((off - Off.laneCtl 0) / 0x1000)).map fun s => en (Off.lathCtl s)
    else []
  span ++ lane ++ in_ (Off.flowSpaceCtl 0) 0x40 16 (fun n => en (Off.flowSpaceCtl n)) ++
    in_ (Off.spreadGrpCtl 0) 0x200 256 (fun g => en (Off.spreadGrpCtl g)) ++
    in_ (Off.plumbTioCtl 0) 0x20 16 (fun k => (Off.plumbTioCtl k, 3, 0)) ++ in_ (Off.scafTick 0) 4 16 (fun n => en (Off.scafTick n)) ++
    (List.range 2).flatMap (fun s => in_ (Off.seatCrBaseLo s 0) 0x20 8 (fun r => en (Off.seatCrCtl s r)) ++
      in_ (Off.seatNrBaseLo s 0) 0x20 8 (fun r => en (Off.seatNrCtl s r))) ++
    in_ (Off.perfSel 0) 0x20 256 (fun n => en (Off.perfSel n)) ++ in_ Off.plumbServoCtl 4 1 (fun _ => en Off.plumbServoCtl) ++
    (if Off.telemCtl ≤ off ∧ off < Off.telemFspaceCtl 0 then [en Off.telemCtl] else [])

/-- The running blocks that a switch stops: each with the value its enable has. -/
def Device.blockMoves (d : Device) (pairs : List (Nat × Nat)) : List ((Nat × Nat × Nat) × Nat) :=
  let all := (pairs.filter fun p => (d.quietMoves p).any fun f => (d.portOfField p.1 f).isNone).flatMap fun p => d.blockCtl p.1
  (all.dedup.filter fun b => d.fld b.1 b.2.1 b.2.2 != 0).map fun b => (b, d.fld b.1 b.2.1 b.2.2)

/-- Darby writes the enable of a block; no write-1-to-clear bit of the register is cleared with it. -/
def Device.writeEnable (d : Device) (b : Nat × Nat × Nat) (x : Nat) : Device :=
  let keep := match regDef? b.1 with
    | some r => (r.fields.filter fun f => f.acc == .rw).foldl (fun a f => setBits a f.hi f.lo (bits (d.reg b.1) f.hi f.lo)) 0
    | none => 0
  d.writeOne swatchWriter b.1 (setBits keep b.2.1 b.2.2 x)

/-- The registers of a swatch at run time: each running block with a Quiet field that changes is stopped, written and restarted; a port
goes down and is brought up again. A block whose enable REGISTERS writes stands as that says (DEDUCED, log, entry 131). -/
def Device.switchRegs (d : Device) (pairs : List (Nat × Nat)) : Device :=
  let ports := (pairs.flatMap d.portMoves).dedup
  let blocks := d.blockMoves pairs
  let d := ports.foldl (fun d p => (d.portDown p true).modPort p fun x => { x with bring := .down, aligned := false }) d
  let d := blocks.foldl (fun d b => d.writeEnable b.1 0) d
  let d := d.applyPairs true pairs none
  let d := (blocks.filter fun b => !pairs.any fun p => p.1 == b.1.1).foldl (fun d b => d.writeEnable b.1 b.2) d
  (ports.filter fun p => d.macEn p && d.mayBringUp p).foldl Device.startAttempt d

/-- The quotes whose flow fails R21 under the coat of a swatch are released. -/
def Device.releaseFailing (d : Device) (n : Nat) : Device :=
  match d.swatchItems n with
  | none => d
  | some items =>
    let c := d.swatchFrame items
    ((d.quotes.filter fun q => q.2.active && (c.pathCheck [] q.2.inPort q.2.space).isSome).map (·.1)).foldl
      (fun d q => d.startRelease q 0 0xFFFF none) d

/-- The code of a swatch goes into the inactive bank, which becomes active, once that bank has drained. -/
def Device.codeLoad (d : Device) : Device :=
  match d.pwr.codeWait with
  | none => d
  | some n =>
    if d.bankDraining then d
    else
      let d := d.modPwr fun p => { p with codeWait := none }
      (d.loadBank n (1 - d.bankActive)).switchCode 3

/-- The requests of SWATCH_SELECT end with a status; PWR_SWATCH shows that no switch is pending. -/
def Device.endSwitch (d : Device) (status : Nat) : Device :=
  match d.pwr.switch with
  | none => d
  | some w =>
    let d := (d.modPwr fun p => { p with switch := none }).setFlag Off.pwrSwatch 31 false
    match w.ring with
    | some (s, r) => match d.held s r 0x0F with
      | some o => d.complete s r 0x0F status o.tag o.flags []
      | none => d
    | none => d

/-- An applied switch is done once its coat is current (R492). -/
def Device.switchDone (d : Device) : Device :=
  match d.pwr.switch with
  | some w => if w.applied && d.coats.pending.isNone then d.endSwitch St.ok else d
  | none => d

/-- The switch is made: the swatch becomes active, so that a port it restarts takes its taps (R291); REGISTERS, coat, code; and the island's bits are those of this switch (R425, R493). -/
def Device.makeSwitch (d : Device) (w : Switch) : Device :=
  let n := w.swatch
  let d := ((d.releaseFailing n).setFld Off.pwrSwatch 1 0 n).switchRegs (d.swatchPairs n)
  let d := d.pendSwatchCoat n
  let code := if (d.swatchSection n 0x0106).isSome then some n else none
  let d := d.modPwr fun p => { p with switch := some { w with applied := true }, islandFrom := d.transit, codeWait := code }
  let d := d.setReg Off.seatIslandStatus (b2n w.ring.isNone)
  ((d.raiseOpen 467 Sev.info).codeLoad.coatDue).switchDone

/-- A checked switch whose time has come is made, once no coat is pending or being verified (R359, R492). -/
def Device.switchDue (d : Device) : Device :=
  match d.pwr.switch with
  | some w =>
    if w.checked && !w.applied && decide (w.time ≤ d.tbCount 0) && d.coats.pending.isNone && d.coats.verifying.isNone then d.makeSwitch w
    else d
  | none => d

/-! ### SWATCH_SELECT (R492) -/

/-- SWATCH_SELECT is taken: refused at once, or its check begins. -/
def Device.swatchSelect (d : Device) (c : CmdEntry) : Device :=
  d.runHeld c 0x0F 0 [(16, 1), (24, 8)] 0 none fun d =>
    if !d.isDevOwner c.seat then .inl (d, St.priv, [])
    else if 3 < c.p 16 1 then .inl (d, St.badParam, [])
    else if d.pwr.switch.isSome || d.coats.pending.isSome || d.coats.verifying.isSome then .inl (d, St.busy, [])
    else
      let n := c.p 16 1
      let d := (d.setFlag Off.pwrSwatch 31 true).setFld Off.pwrSwatch 3 2 n
      let d := d.modPwr fun p => { p with switch := some ⟨some (c.seat.val, c.ring.val), n, c.p 24 8, false, false⟩ }
      .inr (d, ⟨0x0F, c.tag.toNat, c.flags.toNat, 0, 0, [], []⟩)

/-- The check of the selected swatch ends: VERIFY, or the switch waits for its time when that is at least 10 µs away, or is made at
once. -/
def Device.swatchCheckEnd (d : Device) : Device :=
  match d.pwr.switch with
  | none => d
  | some w =>
    if w.checked then d
    else if !d.swatchValid w.swatch then d.endSwitch St.verify
    else
      let t := if w.time ≠ 0 ∧ d.tbCount 0 + 10000 ≤ w.time then w.time else 0
      (d.modPwr fun p => { p with switch := some { w with checked := true, time := t } }).switchDue

/-! ### Actions at a TB0 time (R359) -/

/-- The ports whose pending gate list has reached its change time (R265). -/
def Device.gatesDue (d : Device) : List Nat :=
  (d.scheds.filter fun q => match q.2.pend with | some g => decide (g.change ≤ d.tbCount g.tb) | none => false).map (·.1)

/-- Whether the pending coat has reached its commit time (R108). -/
def Device.coatTime (d : Device) : Bool :=
  match d.coats.pending with | some p => decide (p.time ≤ d.tbCount 0) | none => false

/-- Whether a checked switch has reached its time (R492). -/
def Device.switchTime (d : Device) : Bool :=
  match d.pwr.switch with | some w => w.checked && !w.applied && decide (w.time ≤ d.tbCount 0) | none => false

/-- The pins with an edge in the current tick (R354). -/
def Device.pinsDue (d : Device) : List Nat :=
  (List.range 16).filter fun k => match (d.tio k).next with | some t => decide (t < d.tioNow k + 2 ^ 16) | none => false

/-- The timed actions due now that stand before place `n` of R359's table, in its order, each with its own place: 2 the coat, 3 gate
lists, 4 snapshots, 5 a swatch switch, 6 pins and PPS_OUT. -/
def Device.dueBefore (d : Device) (n : Nat) : Device :=
  let d := if 2 < n ∧ d.coatTime then d.coatDue.switchDone else d
  let d := if 3 < n then d.gatesDue.foldl Device.gateChange d else d
  let d := if 4 < n then d.snapsDue.foldl Device.snapFire d else d
  let d := if 5 < n ∧ d.switchTime then d.switchDue else d
  if 6 < n then (d.pinsDue.foldl Device.tioEdge d).ppsPulse else d

/-- The actions of R359 whose TB0 time has come and that have no row of their own: the pending coat, snapshots, a swatch switch;
gate lists stand between them, and the code that waited for its bank follows. -/
def Device.timeTrigger (d : Device) : Device :=
  ((d.coatDue.switchDone.dueBefore 5).switchDue).codeLoad

/-! ### The island swatch (R422 to R425) -/

/-- An owning seat: it owns a partition or is the device owner. -/
def Device.owningSeat (d : Device) (s : Nat) : Bool := d.devOwner == s || (List.range 16).any fun k => d.fld (Off.seatPart k) 1 0 == s

/-- Whether an owning seat is present. -/
def Device.ownerPresent (d : Device) : Bool := [0, 1].any fun s => d.present s && d.owningSeat s

/-- The time of the island rule is counted from the moment the last present owning seat went, or ceased to be one (R422). -/
def Device.islandTrack (d before : Device) : Device :=
  if before.ownerPresent && !d.ownerPresent then d.modPwr fun p => { p with islandFrom := d.transit } else d

/-- Whether the island rule applies now. -/
def Device.islandDue (d : Device) : Bool :=
  d.flag Off.seatIsland 31 && !d.flag Off.seatIslandStatus 0 && d.activeSwatch != 3 && d.pwr.phase == .started && !d.ownerPresent &&
    decide (d.pwr.islandFrom + 1000000000 * max 1 (d.fld Off.seatIsland 23 16) ≤ d.transit) &&
    (match d.pwr.switch with | some w => !w.applied | none => true)

/-- The island is entered: swatch 3 is applied once no coat is pending, or no switch is made where it is not valid. -/
def Device.island (d : Device) : Device :=
  if !d.islandDue then d
  else
    let ok := d.swatchValid 3
    let d := d.setFld Off.seatIslandStatus 1 0 (if ok then 1 else 3)
    let d := d.raise 420 Sev.info Cause.island 0 (b2n (!ok))
    if !ok then d
    else
      let d := d.endSwitch St.busy
      let d := (d.setFlag Off.pwrSwatch 31 true).setFld Off.pwrSwatch 3 2 3
      (d.modPwr fun p => { p with switch := some ⟨none, 3, 0, true, false⟩ }).switchDue

/-! ### The recovery loader (R426, R427) -/

/-- The status of a request: 16 bytes and the data that follow. -/
def Device.recAnswer (d : Device) (op status done crc : Nat) (data : List Byte) : Device :=
  let d := d.modPwr fun p => { p with
    recovery := bytesLE 2 0x4447 ++ bytesLE 1 op ++ bytesLE 1 status ++ bytesLE 4 done ++ bytesLE 4 crc ++ bytesLE 4 0 ++ data }
  d.raise 421 Sev.info Cause.loader 0 op

/-- The form of a request: the magic, byte 3, the limits of its OP, and a CRC of 0 for any OP but WRITE. Flash has at most 2^28
bytes. -/
def recReqOk (op : Nat) (q : RecReq) : Bool :=
  q.magic == 0x4447 && q.rsv == 0 && (op == 2 || q.crc == 0) && decide (q.addr.toNat + q.len.toNat ≤ 2 ^ 28) &&
    (match op with
    | 1 => q.addr.toNat % 4096 == 0 && q.len.toNat % 4096 == 0
    | 2 => decide (q.len.toNat ≤ 65536)
    | 3 => decide (q.len.toNat ≤ 65536)
    | _ => true)

/-- A request: `f` is the effect of a well-formed one. `err`: the flash fails. -/
def Device.recRequest (d : Device) (op : Nat) (q : RecReq) (err : Bool) (f : Device → Device) : Device :=
  if d.pwr.phase != .recovery then d
  else if !recReqOk op q then d.recAnswer op 1 0 0 []
  else if err then (d.recAnswer op 3 0 0 []).raiseOpen 468 Sev.warn
  else f d

def Device.recErase (d : Device) (q : RecReq) (err : Bool) : Device :=
  d.recRequest 1 q err fun d =>
    (d.flashWrite q.addr.toNat (List.replicate q.len.toNat 0xFF)).recAnswer 1 0 q.len.toNat 0 []

/-- WRITE: the CRC is checked, the data programmed and read back. -/
def Device.recWrite (d : Device) (q : RecReq) (data : List Byte) (err : Bool) : Device :=
  let data := fitB q.len.toNat data
  d.recRequest 2 q (err && crc32c data == q.crc.toNat) fun d =>
    if crc32c data ≠ q.crc.toNat then d.recAnswer 2 2 0 0 []
    else
      let d := d.flashProgram q.addr.toNat data
      let back := d.flashBytes q.addr.toNat q.len.toNat
      d.recAnswer 2 (if back = data then 0 else 4) q.len.toNat (crc32c back) []

def Device.recRead (d : Device) (q : RecReq) (err : Bool) : Device :=
  d.recRequest 3 q err fun d =>
    let b := d.flashBytes q.addr.toNat q.len.toNat
    d.recAnswer 3 0 q.len.toNat (crc32c b) b

/-- IDENT: DEV_IDENT, DEV_STEPPING, the JEDEC identifier, zeros. -/
def Device.recIdent (d : Device) (q : RecReq) : Device :=
  d.recRequest 4 q false fun d =>
    let b := bytesLE 4 (d.reg Off.devIdent) ++ bytesLE 4 (d.reg Off.devStepping) ++ bytesLE 3 Config.jedec.toNat ++ bytesLE 5 0
    d.recAnswer 4 0 16 (crc32c b) b

/-- RESET: the device restarts and samples the straps again. -/
def Device.recReset (d : Device) (q : RecReq) : Device :=
  d.recRequest 5 q false fun d =>
    let d := d.recAnswer 5 0 0 0 []
    let answer := d.pwr.recovery
    (d.warmReset 6).modPwr fun p => { p with recovery := answer }

/-! ### The wake port (R474, R475) -/

/-- An address match on the wake port wakes the device where SMB is enabled, and starts it from Off; in Off every data byte is
NACKed. -/
def Device.wakePort (d : Device) (f : Device → Device) : Device := if d.pwr.phase = .off then d.wake 0 else f (d.wake 0)

def Device.wakePortAddr (d : Device) (a : Nat) : Device := d.wakePort fun d => d.modPwr fun p => { p with wakeAddr := a }

/-- DATA: a write (`some`) or a read of the register at ADDR, which then advances by 4. -/
def Device.wakePortData (d : Device) (v : Option Nat) : Device :=
  d.wakePort fun d =>
    let a := d.pwr.wakeAddr
    let d := match v with
      | some x => d.busWrite 2 a x
      | none => d.busRead 2 a
    d.modPwr fun p => { p with wakeAddr := (a + 4) % 2 ^ 32 }

def Device.wakePortPower (d : Device) (state : Nat) : Device := d.wakePort fun d => d.powerAskL state

/-- Whether the registers outside the island can be reached. -/
def Device.registersUp (d : Device) : Bool :=
  match d.pwr.phase with
  | .asleep | .held | .off => false
  | _ => true

def Device.wakePortStatus (d : Device) : Device :=
  d.wakePort fun d => d.modPwr fun p => { p with
    wakeStatus := d.pwrState + 8 * b2n p.running.isSome + 16 * b2n p.held.isSome + 32 * b2n d.registersUp }

end Sys2Proof.Machine
end

