-- ==== Sys2Proof/Machine/Actions.lean ====
section
/-! DEFINITION. How a command acts on the state: the block changes, the queue does not; and the accesses, releases and presence that
several commands share. -/

namespace Sys2Proof.Machine

/-- A command acts on the block alone. -/
def State.act (s : State) (f : Device → Device) : Host.Outcome State Fault Refusal := .next { s with dev := f s.dev }

/-- A seat writes a register; a write that leaves the device without an owning seat starts the island's wait (R8, R422). -/
def Device.regWrite (d : Device) (s off v : Nat) : Device := (d.busWrite s off v).islandTrack d

/-- A doorbell write, where the registers can be reached (R408). -/
def Device.ringBell (d : Device) (f : Device → Device) : Device := if d.registersUp then f d else d

/-- D has passed since a quote's policer was removed (R249). -/
def Device.releaseWait (d : Device) (qid : Nat) : Device :=
  match d.endQuote qid with
  | (d, some (q, r)) => (d.quoteEnded qid q r).taskCommandsDone
  | (d, none) => d

/-- HOLDOFF has passed since a pair's last event: the event merged in its slot is stamped (R434). -/
def Device.holdoffExpiry (d : Device) (src code : Nat) : Device :=
  match d.slot? src code with
  | some ⟨_, _, some w, some t⟩ =>
    if t + 1000 * d.fld Off.hawkCtl 15 0 ≤ d.transit then (d.stampEvent w).setSlot ⟨src, code, none, some d.transit⟩ else d
  | _ => d

/-- A seat's link is up and its keepalive written: present once start-up has reached the tiles (R400, R485). -/
def Device.seatComes (d : Device) (s link : Nat) : Device :=
  match d.pwr.phase with
  | .tiles | .started => d.seatPresent s link
  | _ => d

end Sys2Proof.Machine
end

