-- ==== Sys2Proof/Machine/CmdBoard.lean ====
section
/-! DEFINITION. The wake port and the recovery loader (R427, R475). -/

namespace Sys2Proof.Machine

/-- WAKE_PORT_ADDR (R475). -/
def execWakePortAddr (addr : BitVec 32) (s : State) : Host.Outcome State Fault Refusal :=
  s.act fun d => d.wakePortAddr addr.toNat

/-- WAKE_PORT_DATA (R475). -/
def execWakePortData (write : Option (BitVec 32)) (s : State) : Host.Outcome State Fault Refusal :=
  s.act fun d => (d.wakePortData (write.map BitVec.toNat)).islandTrack d

/-- WAKE_PORT_POWER (R475). -/
def execWakePortPower (state : BitVec 8) (s : State) : Host.Outcome State Fault Refusal :=
  s.act fun d => d.wakePortPower state.toNat

/-- WAKE_PORT_STATUS (R475). -/
def execWakePortStatus (s : State) : Host.Outcome State Fault Refusal :=
  s.act fun d => d.wakePortStatus

/-- RECOVERY_ERASE (R427). -/
def execRecoveryErase (q : RecReq) (err : Bool) (s : State) : Host.Outcome State Fault Refusal :=
  s.act fun d => d.recErase q err

/-- RECOVERY_WRITE (R427). -/
def execRecoveryWrite (q : RecReq) (data : List Byte) (err : Bool) (s : State) : Host.Outcome State Fault Refusal :=
  s.act fun d => d.recWrite q data err

/-- RECOVERY_READ (R427). -/
def execRecoveryRead (q : RecReq) (err : Bool) (s : State) : Host.Outcome State Fault Refusal :=
  s.act fun d => d.recRead q err

/-- RECOVERY_IDENT (R427). -/
def execRecoveryIdent (q : RecReq) (s : State) : Host.Outcome State Fault Refusal :=
  s.act fun d => d.recIdent q

/-- RECOVERY_RESET (R427). -/
def execRecoveryReset (q : RecReq) (s : State) : Host.Outcome State Fault Refusal :=
  s.act fun d => d.recReset q

end Sys2Proof.Machine
end

