-- ==== Sys2Proof/Machine/CmdCoat.lean ====
section
/-! DEFINITION. Coats, settling, reloads of damaged words, and quotes in time (R85, R107 to R113, R141, R147, R247, R249). -/

namespace Sys2Proof.Machine

/-- COAT_CURRENT (R108). -/
def execCoatCurrent (s : State) : Host.Outcome State Fault Refusal :=
  s.act fun d => d.coatDue.switchDone

/-- COAT_RETIRED (R109). -/
def execCoatRetired (slot : Fin 4) (s : State) : Host.Outcome State Fault Refusal :=
  s.act fun d => (d.retire slot).switchDone

/-- VERIFY_COMPLETE (R107). -/
def execVerifyComplete (s : State) : Host.Outcome State Fault Refusal :=
  s.act fun d => d.verifyComplete

/-- SETTLED (R141). -/
def execSettled (s : State) : Host.Outcome State Fault Refusal :=
  s.act fun d => d.settled.switchDone

/-- EGEN_WAIT_EXPIRY (R113). -/
def execEgenWaitExpiry (s : State) : Host.Outcome State Fault Refusal :=
  s.act fun d => d.egenExpiry.switchDone

/-- STEP_WORD_RELOAD (R85). -/
def execStepWordReload (inst : Fin 64) (station : Nat) (addr : Nat) (poison : ImagePoison)
    (s : State) : Host.Outcome State Fault Refusal :=
  s.act fun d => d.stepReload inst station addr poison.first poison.second

/-- TABLE_WORD_REWRITE (R147). -/
def execTableWordRewrite (num : Nat) (inst : Nat) (word : DamagedWord) (poison : ImagePoison)
    (s : State) : Host.Outcome State Fault Refusal :=
  s.act fun d => d.tableRewrite num inst word poison.first poison.second

/-- QUOTE_ACTIVE (R247). -/
def execQuoteActive (qid : Nat) (s : State) : Host.Outcome State Fault Refusal :=
  s.act fun d => d.quoteBecomesActive qid

/-- RELEASE_WAIT (R249). -/
def execReleaseWait (qid : Nat) (s : State) : Host.Outcome State Fault Refusal :=
  s.act fun d => d.releaseWait qid

end Sys2Proof.Machine
end

