-- ==== Sys2Proof/Machine/Dravea.lean ====
section
/-! DEFINITION. A Dravea instruction in whichever form its executor has: line form for a context, full form for a thread (R32). -/

namespace Sys2Proof.Machine

/-- The effect in full form, or the one in line form. -/
def byForm (who : Who) (full : Nat → Nat → Device) (line : Device) : Device :=
  match who with
  | .thr e t => full e t
  | .ing _ | .egr _ => line

/-- An instruction that only computes results of one latency from the registers and the window. -/
def Device.compute (d : Device) (who : Who) (q : Pred) (op enc lat : Nat)
    (f : Bool → Regs → List Byte → Except Exc (List Wr)) : Device :=
  byForm who (fun e t => d.thrResults e t q op enc fun _ x w => f true x.regs w)
    (d.lineResults who q op enc lat fun x => f false x.regs x.w)

/-- An edit at an offset from the window base. -/
def Device.edit (d : Device) (who : Who) (q : Pred) (op enc off : Nat) (o : Regs → EditOp) : Device :=
  byForm who (fun e t => d.thrEdit e t q op enc off fun x => o x.regs) (d.lineEdit who q op enc off fun x => o x.regs)

/-- A forward instruction of format W. -/
def Device.forwardBy (d : Device) (who : Who) (q : Pred) (op : Nat) (f : FmtW) (line : Regs → List Wr)
    (full : Regs → Except Exc (List Wr)) : Device :=
  byForm who (fun e t => d.thrForward e t q op f.enc full) (d.lineResults who q op f.enc 1 fun x => .ok (line x.regs))

/-- The TB0 time at which the frame of an executor arrived (R71). -/
def Device.arrivalOf (d : Device) (who : Who) : Nat :=
  match who with
  | .thr e t => match ((d.thr (thrKey e t)).task).bind d.task with | some x => x.arrTb0 | none => 0
  | .ing _ | .egr _ => d.ctxArrival who

end Sys2Proof.Machine
end

