-- ==== Sys2Proof/Machine/CmdDravea.lean ====
section
/-! DEFINITION. The Dravea instructions that line form and full form share, and those of line form only (R57 to R71, R86, R135, R136,
R160, R184, R199, R227, R270, R274, R283, R347). -/

namespace Sys2Proof.Machine

/-- ADD (R57). -/
def execAdd (who : Who) (q : Pred) (f : FmtA) (s : State) : Host.Outcome State Fault Refusal :=
  s.act fun d => d.compute who q 0x00 f.enc 1 fun full r _ => aluEff .add full r f

/-- SUB (R57). -/
def execSub (who : Who) (q : Pred) (f : FmtA) (s : State) : Host.Outcome State Fault Refusal :=
  s.act fun d => d.compute who q 0x01 f.enc 1 fun full r _ => aluEff .sub full r f

/-- AND (R57). -/
def execAnd (who : Who) (q : Pred) (f : FmtA) (s : State) : Host.Outcome State Fault Refusal :=
  s.act fun d => d.compute who q 0x02 f.enc 1 fun full r _ => aluEff .and full r f

/-- OR (R57). -/
def execOr (who : Who) (q : Pred) (f : FmtA) (s : State) : Host.Outcome State Fault Refusal :=
  s.act fun d => d.compute who q 0x03 f.enc 1 fun full r _ => aluEff .or full r f

/-- XOR (R57). -/
def execXor (who : Who) (q : Pred) (f : FmtA) (s : State) : Host.Outcome State Fault Refusal :=
  s.act fun d => d.compute who q 0x04 f.enc 1 fun full r _ => aluEff .xor full r f

/-- SHL (R57). -/
def execShl (who : Who) (q : Pred) (f : FmtA) (s : State) : Host.Outcome State Fault Refusal :=
  s.act fun d => d.compute who q 0x05 f.enc 1 fun full r _ => aluEff .shl full r f

/-- SHR (R57). -/
def execShr (who : Who) (q : Pred) (f : FmtA) (s : State) : Host.Outcome State Fault Refusal :=
  s.act fun d => d.compute who q 0x06 f.enc 1 fun full r _ => aluEff .shr full r f

/-- ROT (R57). -/
def execRot (who : Who) (q : Pred) (f : FmtA) (s : State) : Host.Outcome State Fault Refusal :=
  s.act fun d => d.compute who q 0x07 f.enc 1 fun full r _ => aluEff .rot full r f

/-- MIN (R57). -/
def execMin (who : Who) (q : Pred) (f : FmtA) (s : State) : Host.Outcome State Fault Refusal :=
  s.act fun d => d.compute who q 0x08 f.enc 1 fun full r _ => aluEff .min full r f

/-- MAX (R57). -/
def execMax (who : Who) (q : Pred) (f : FmtA) (s : State) : Host.Outcome State Fault Refusal :=
  s.act fun d => d.compute who q 0x09 f.enc 1 fun full r _ => aluEff .max full r f

/-- CMP (R57). -/
def execCmp (who : Who) (q : Pred) (f : FmtP) (s : State) : Host.Outcome State Fault Refusal :=
  s.act fun d => d.compute who q 0x0A f.enc 1 fun full r _ => cmpEff full r f

/-- TST (R57). -/
def execTst (who : Who) (q : Pred) (f : FmtP) (s : State) : Host.Outcome State Fault Refusal :=
  s.act fun d => d.compute who q 0x0B f.enc 1 fun full r _ => tstEff full r f

/-- MOV (R57). -/
def execMov (who : Who) (q : Pred) (f : FmtA) (s : State) : Host.Outcome State Fault Refusal :=
  s.act fun d => byForm who (fun e t => d.thrMov e t q f) (d.lineResults who q 0x0C f.enc 1 fun x => movEff false x.regs f)

/-- MOVI (R57). -/
def execMovi (who : Who) (q : Pred) (f : FmtA) (s : State) : Host.Outcome State Fault Refusal :=
  s.act fun d => d.compute who q 0x0D f.enc 1 fun full r _ => moviEff full r f

/-- SEL (R57). -/
def execSel (who : Who) (q : Pred) (f : FmtA) (s : State) : Host.Outcome State Fault Refusal :=
  s.act fun d => d.compute who q 0x0E f.enc 1 fun full r _ => selEff full r f

/-- HASH (R57). -/
def execHash (who : Who) (q : Pred) (f : FmtH) (s : State) : Host.Outcome State Fault Refusal :=
  s.act fun d => d.compute who q 0x0F f.enc 2 fun full r _ => hashEff full r f

/-- CSUM (R57). -/
def execCsum (who : Who) (q : Pred) (f : FmtH) (units : Nat) (s : State) : Host.Outcome State Fault Refusal :=
  s.act fun d => byForm who (fun e t => d.thrCsum e t q f units) (d.lineResults who q 0x10 f.enc 2 fun x => csumEff false x.w f)

/-- POPC (R57). -/
def execPopc (who : Who) (q : Pred) (f : FmtA) (s : State) : Host.Outcome State Fault Refusal :=
  s.act fun d => d.compute who q 0x11 f.enc 1 fun full r _ => popcEff full r f

/-- EXT (R58). -/
def execExt (who : Who) (q : Pred) (f : FmtX) (s : State) : Host.Outcome State Fault Refusal :=
  s.act fun d => d.compute who q 0x20 f.enc 1 fun full r w => extEff full r w f

/-- EXTM (R58). -/
def execExtm (who : Who) (q : Pred) (f : FmtXM) (s : State) : Host.Outcome State Fault Refusal :=
  s.act fun d => d.compute who q 0x21 f.enc 1 fun full r _ => extmEff full r f

/-- INS (R58). -/
def execIns (who : Who) (q : Pred) (f : FmtXI) (s : State) : Host.Outcome State Fault Refusal :=
  s.act fun d => d.compute who q 0x22 f.enc 1 fun full r _ => insEff full r f

/-- KEYB (R58). -/
def execKeyb (who : Who) (q : Pred) (f : FmtKB) (s : State) : Host.Outcome State Fault Refusal :=
  s.act fun d => d.compute who q 0x23 f.enc 1 fun full r w => keybEff full r w f

/-- ADV (R58). -/
def execAdv (who : Who) (q : Pred) (f : FmtAV) (s : State) : Host.Outcome State Fault Refusal :=
  s.act fun d => byForm who (fun e t => d.thrAdv e t q f) (d.lineAdv who q f)

/-- LKT (R59). -/
def execLkt (who : Who) (q : Pred) (f : FmtL) (s : State) : Host.Outcome State Fault Refusal :=
  s.act fun d => byForm who (fun e t => d.thrLookup e t q 0 f) (d.lineLookup who q 0 f)

/-- LKH (R59). -/
def execLkh (who : Who) (q : Pred) (f : FmtL) (s : State) : Host.Outcome State Fault Refusal :=
  s.act fun d => byForm who (fun e t => d.thrLookup e t q 1 f) (d.lineLookup who q 1 f)

/-- LKX (R135). -/
def execLkx (who : Who) (q : Pred) (f : FmtL) (s : State) : Host.Outcome State Fault Refusal :=
  s.act fun d => byForm who (fun e t => d.thrLookup e t q 2 f) (d.lineLookup who q 2 f)

/-- LKP (R136). -/
def execLkp (who : Who) (q : Pred) (f : FmtL) (s : State) : Host.Outcome State Fault Refusal :=
  s.act fun d => byForm who (fun e t => d.thrLookup e t q 3 f) (d.lineLookup who q 3 f)

/-- LKF (R160). -/
def execLkf (who : Who) (q : Pred) (f : FmtL) (beyond : Bool) (s : State) : Host.Outcome State Fault Refusal :=
  s.act fun d => byForm who (fun e t => d.thrLkf e t q f) (d.lineLkf who q f beyond)

/-- FLD (R62). -/
def execFld (who : Who) (q : Pred) (f : FmtFS) (s : State) : Host.Outcome State Fault Refusal :=
  s.act fun d => byForm who (fun e t => d.thrFld e t q f) (d.lineFld who q f)

/-- FST (R62). -/
def execFst (who : Who) (q : Pred) (f : FmtFS) (s : State) : Host.Outcome State Fault Refusal :=
  s.act fun d => byForm who (fun e t => d.thrFst e t q f) (d.lineFst who q f)

/-- FADD (R62). -/
def execFadd (who : Who) (q : Pred) (f : FmtFS) (s : State) : Host.Outcome State Fault Refusal :=
  s.act fun d => byForm who (fun e t => d.thrFadd e t q f) (d.lineFadd who q f)

/-- FCAS (R62). -/
def execFcas (who : Who) (q : Pred) (f : FmtFS) (s : State) : Host.Outcome State Fault Refusal :=
  s.act fun d => byForm who (fun e t => d.thrFcas e t q f) (d.lineFcas who q f)

/-- FSTAMP (R62). -/
def execFstamp (who : Who) (q : Pred) (f : FmtFS) (s : State) : Host.Outcome State Fault Refusal :=
  s.act fun d => byForm who (fun e t => d.thrFstamp e t q f) (d.lineFstamp who q f)

/-- FLEARN (R184). -/
def execFlearn (who : Who) (q : Pred) (f : FmtFL) (s : State) : Host.Outcome State Fault Refusal :=
  s.act fun d => byForm who (fun e t => d.thrFlearn e t q f) (d.lineFlearn who q f)

/-- PUSH (R64). -/
def execPush (who : Who) (q : Pred) (f : FmtE) (s : State) : Host.Outcome State Fault Refusal :=
  s.act fun d => d.edit who q 0x50 f.enc f.woff.toNat fun r => .push (editBytes r f)

/-- POP (R64). -/
def execPop (who : Who) (q : Pred) (f : FmtE) (s : State) : Host.Outcome State Fault Refusal :=
  s.act fun d => d.edit who q 0x51 f.enc f.woff.toNat fun _ => .pop f.len.toNat

/-- SETF (R64). -/
def execSetf (who : Who) (q : Pred) (f : FmtE) (s : State) : Host.Outcome State Fault Refusal :=
  s.act fun d => d.edit who q 0x52 f.enc f.woff.toNat fun r => .setf (editBytes r f)

/-- NATA (R66). -/
def execNata (who : Who) (q : Pred) (f : FmtN) (s : State) : Host.Outcome State Fault Refusal :=
  s.act fun d => d.edit who q 0x53 f.enc f.l3.toNat fun _ => nataOp f

/-- TSI (R347). -/
def execTsi (who : Who) (q : Pred) (f : FmtT) (s : State) : Host.Outcome State Fault Refusal :=
  s.act fun d => d.edit who q 0x54 f.enc f.foff.toNat fun _ => tsiOp f

/-- SEAM (R274). -/
def execSeam (who : Who) (q : Pred) (f : FmtG) (s : State) : Host.Outcome State Fault Refusal :=
  s.act fun d => d.edit who q 0x55 f.enc 0 fun _ => .seam

/-- TWIN (R283). -/
def execTwin (who : Who) (q : Pred) (f : FmtG) (s : State) : Host.Outcome State Fault Refusal :=
  s.act fun d => d.edit who q 0x56 f.enc 0 fun _ => .twin f.gen.toNat 0

/-- FWD (R67). -/
def execFwd (who : Who) (q : Pred) (f : FmtW) (s : State) : Host.Outcome State Fault Refusal :=
  s.act fun d => d.forwardBy who q 0x60 f (fun r => fwdWrs r f) fun r => thrFwdWrs f r

/-- FWDG (R270). -/
def execFwdg (who : Who) (q : Pred) (f : FmtW) (s : State) : Host.Outcome State Fault Refusal :=
  s.act fun d => d.forwardBy who q 0x61 f (fun r => fwdgWrs r f) fun r => .ok (fwdgWrs r f)

/-- MCAST (R67). -/
def execMcast (who : Who) (q : Pred) (f : FmtW) (s : State) : Host.Outcome State Fault Refusal :=
  s.act fun d => d.forwardBy who q 0x62 f (fun r => mcastWrs r f) fun r => .ok (mcastWrs r f)

/-- CLASS (R67). -/
def execClass (who : Who) (q : Pred) (f : FmtW) (s : State) : Host.Outcome State Fault Refusal :=
  s.act fun d => d.forwardBy who q 0x63 f (fun r => classWrs r f) fun r => .ok (classWrs r f)

/-- QUOTE (R67). -/
def execQuote (who : Who) (q : Pred) (f : FmtW) (s : State) : Host.Outcome State Fault Refusal :=
  s.act fun d => d.forwardBy who q 0x64 f (fun r => quoteWrs r f) fun r => .ok (quoteWrs r f)

/-- MIRROR (R227). -/
def execMirror (who : Who) (q : Pred) (f : FmtW) (s : State) : Host.Outcome State Fault Refusal :=
  s.act fun d => byForm who (fun e t => d.thrMirror e t q f) (d.lineMirror who q f)

/-- TOSEAT (R67). -/
def execToseat (who : Who) (q : Pred) (f : FmtW) (s : State) : Host.Outcome State Fault Refusal :=
  s.act fun d => d.forwardBy who q 0x66 f (fun r => toseatWrs r f) fun r => .ok (toseatWrs r f)

/-- TOSCAF (R67). -/
def execToscaf (who : Who) (q : Pred) (f : FmtW) (s : State) : Host.Outcome State Fault Refusal :=
  s.act fun d => d.forwardBy who q 0x67 f (fun r => toscafWrs r f) fun r => .ok (toscafWrs r f)

/-- DROP (R67). -/
def execDrop (who : Who) (q : Pred) (f : FmtW) (s : State) : Host.Outcome State Fault Refusal :=
  s.act fun d => d.forwardBy who q 0x68 f (fun r => dropWrs r f) fun r => .ok (dropWrs r f)

/-- RECIRC (R99). -/
def execRecirc (who : Who) (q : Pred) (f : FmtW) (s : State) : Host.Outcome State Fault Refusal :=
  s.act fun d => byForm who (fun e t => d.thrIllegal e t q 0x69 f.enc) (d.lineRecirc who q f)

/-- NEXT (R86). -/
def execNext (who : Who) (q : Pred) (f : FmtC) (s : State) : Host.Outcome State Fault Refusal :=
  s.act fun d => byForm who (fun e t => d.thrIllegal e t q 0x70 f.enc) (if q.pi = 0 ∧ !q.ps then d.lineNext who f else d)

/-- END (R70). -/
def execEnd (who : Who) (q : Pred) (s : State) : Host.Outcome State Fault Refusal :=
  s.act fun d => byForm who (fun e t => d.thrEnd e t q) (if q.pi = 0 ∧ !q.ps then d.lineEnd who else d)

/-- TNOW (R71). -/
def execTnow (who : Who) (q : Pred) (f : FmtTM) (s : State) : Host.Outcome State Fault Refusal :=
  s.act fun d =>
    d.compute who q 0x80 f.encRd 1
      fun _ _ _ => .ok [.reg f.rd (BitVec.ofNat 64 (timePart (d.timeAt who f.tb.toNat) f.part.toNat))]

/-- TCMP (R71). -/
def execTcmp (who : Who) (q : Pred) (f : FmtTM) (s : State) : Host.Outcome State Fault Refusal :=
  s.act fun d => d.compute who q 0x81 f.encRd 1 fun _ r _ => .ok [.pred f.pd (d.tcmp who r f)]

/-- TSTAMP (R71). -/
def execTstamp (who : Who) (q : Pred) (f : FmtTM) (s : State) : Host.Outcome State Fault Refusal :=
  s.act fun d =>
    d.compute who q 0x82 f.encRd 1
      fun _ _ _ => .ok [.reg f.rd (BitVec.ofNat 64 (timePart (d.arrivalIn who f.tb.toNat (d.arrivalOf who)) f.part.toNat))]

/-- TGATE (R71). -/
def execTgate (who : Who) (q : Pred) (f : FmtTM) (s : State) : Host.Outcome State Fault Refusal :=
  s.act fun d =>
    d.compute who q 0x83 f.encRd 1 fun _ r _ => .ok [.pred f.pd (d.gateAt who ((r.get f.ra).toNat % 1024) (f.imm.toNat % 8))]

end Sys2Proof.Machine
end

