-- ==== Sys2Proof/Machine/CmdFault.lean ====
section
/-! DEFINITION. Data faults, domain faults and safe stops (R447, R451, R456). -/

namespace Sys2Proof.Machine

/-- UE_DATA (R451). -/
def execUeData (at_ : UeWhere) (s : State) : Host.Outcome State Fault Refusal :=
  s.act fun d => d.ueData at_

/-- DOMAIN_FAULT (R447). -/
def execDomainFault (kind : Nat) (inst : Nat) (arg : Nat) (transit : Bool) (frames : List Nat)
    (s : State) : Host.Outcome State Fault Refusal :=
  s.act fun d => (d.domainFault kind inst arg transit frames).islandTrack d

/-- DOMAIN_RESTARTED (R447). -/
def execDomainRestarted (kind : Nat) (inst : Nat) (s : State) : Host.Outcome State Fault Refusal :=
  s.act fun d => d.domainRestarted kind inst

/-- SAFE_STOP (R456). -/
def execSafeStop (s : State) : Host.Outcome State Fault Refusal :=
  s.act fun d => d.safeStop

/-- STOP_HOLD_EXPIRY (R456). -/
def execStopHoldExpiry (s : State) : Host.Outcome State Fault Refusal :=
  s.act fun d => d.stopHoldExpiry

end Sys2Proof.Machine
end

