-- ==== Sys2Proof/Machine/CmdFrame.lean ====
section
/-! DEFINITION. Frames at ingress: arrival, slot grants, the end of a pass, recirculation, replication and the lodge (R93 to R102,
R129, R170 to R173, R217, R235). -/

namespace Sys2Proof.Machine

/-- FRAME_RECEIVE (R217). -/
def execFrameReceive (port : Fin 512) (bytes : List Byte) (pre : Bool) (s : State) : Host.Outcome State Fault Refusal :=
  s.act fun d => d.frameReceive port bytes pre

/-- HEADER_WINDOW (R95). -/
def execHeaderWindow (frame : Nat) (more : List Byte) (s : State) : Host.Outcome State Fault Refusal :=
  s.act fun d => d.headerWindow frame more

/-- FRAME_END (R129). -/
def execFrameEnd (frame : Nat) (rest : List Byte) (fragErr : Bool) (s : State) : Host.Outcome State Fault Refusal :=
  s.act fun d => d.frameEnd frame rest fragErr

/-- SLOT_GRANT (R93). -/
def execSlotGrant (pipe : Fin 32) (s : State) : Host.Outcome State Fault Refusal :=
  s.act fun d => (d.slotGrant pipe).switchDone

/-- PASS_EXIT (R93). -/
def execPassExit (frame : Nat) (s : State) : Host.Outcome State Fault Refusal :=
  s.act fun d => d.passExit frame

/-- RECIRC_ELIGIBLE (R99). -/
def execRecircEligible (frame : Nat) (s : State) : Host.Outcome State Fault Refusal :=
  s.act fun d => d.recircEligible frame

/-- REPLICATOR_EXPAND (R235). -/
def execReplicatorExpand (pipe : Fin 32) (s : State) : Host.Outcome State Fault Refusal :=
  s.act fun d => d.replExpand pipe

/-- FETCH_RETURN (R170). -/
def execFetchReturn (space : Fin 16) (key : List Byte) (s : State) : Host.Outcome State Fault Refusal :=
  s.act fun d => d.fetchReturn ⟨space, key⟩

/-- RE_ENTRY (R96). -/
def execReEntry (frame : Nat) (s : State) : Host.Outcome State Fault Refusal :=
  s.act fun d => d.reEntry frame

/-- PARK_LIMIT (R172). -/
def execParkLimit (space : Fin 16) (key : List Byte) (s : State) : Host.Outcome State Fault Refusal :=
  s.act fun d => d.parkLimit ⟨space, key⟩

end Sys2Proof.Machine
end

