-- ==== Sys2Proof/Machine/CmdFullForm.lean ====
section
/-! DEFINITION. The Dravea instructions of full form only (R73, R78, R385, R389). -/

namespace Sys2Proof.Machine

/-- JMP (R73). -/
def execJmp (engine : Fin 32) (thread : Fin 8) (q : Pred) (f : FmtJ) (s : State) : Host.Outcome State Fault Refusal :=
  s.act fun d => d.thrJmp engine thread q f

/-- BR (R73). -/
def execBr (engine : Fin 32) (thread : Fin 8) (q : Pred) (f : FmtJ) (s : State) : Host.Outcome State Fault Refusal :=
  s.act fun d => d.thrBr engine thread q f

/-- CALL (R73). -/
def execCall (engine : Fin 32) (thread : Fin 8) (q : Pred) (f : FmtJ) (s : State) : Host.Outcome State Fault Refusal :=
  s.act fun d => d.thrCall engine thread q f

/-- RET (R73). -/
def execRet (engine : Fin 32) (thread : Fin 8) (q : Pred) (f : FmtQ) (s : State) : Host.Outcome State Fault Refusal :=
  s.act fun d => d.thrRet engine thread q f

/-- LOOP (R73). -/
def execLoop (engine : Fin 32) (thread : Fin 8) (q : Pred) (f : FmtJ) (s : State) : Host.Outcome State Fault Refusal :=
  s.act fun d => d.thrLoop engine thread q f

/-- LD (R73). -/
def execLd (engine : Fin 32) (thread : Fin 8) (q : Pred) (f : FmtM) (s : State) : Host.Outcome State Fault Refusal :=
  s.act fun d => d.thrLoad engine thread q false f

/-- ST (R73). -/
def execSt (engine : Fin 32) (thread : Fin 8) (q : Pred) (f : FmtM) (s : State) : Host.Outcome State Fault Refusal :=
  s.act fun d => d.thrStore engine thread q false f

/-- LDD (R73). -/
def execLdd (engine : Fin 32) (thread : Fin 8) (q : Pred) (f : FmtM) (s : State) : Host.Outcome State Fault Refusal :=
  s.act fun d => d.thrLoad engine thread q true f

/-- STD (R199). -/
def execStd (engine : Fin 32) (thread : Fin 8) (q : Pred) (f : FmtM) (s : State) : Host.Outcome State Fault Refusal :=
  s.act fun d => d.thrStore engine thread q true f

/-- WAIT (R385). -/
def execWait (engine : Fin 32) (thread : Fin 8) (q : Pred) (f : FmtQ) (s : State) : Host.Outcome State Fault Refusal :=
  s.act fun d => d.thrWait engine thread q f

/-- YIELD (R73). -/
def execYield (engine : Fin 32) (thread : Fin 8) (q : Pred) (f : FmtQ) (s : State) : Host.Outcome State Fault Refusal :=
  s.act fun d => d.thrYield engine thread q f

/-- BLKMV (R78). -/
def execBlkmv (engine : Fin 32) (thread : Fin 8) (q : Pred) (f : FmtQ) (units : Nat)
    (s : State) : Host.Outcome State Fault Refusal :=
  s.act fun d => d.thrBlkmv engine thread q f units

/-- SCAN (R73). -/
def execScan (engine : Fin 32) (thread : Fin 8) (q : Pred) (f : FmtQ) (units : Nat)
    (s : State) : Host.Outcome State Fault Refusal :=
  s.act fun d => d.thrScan engine thread q f units

/-- FENCE (R389). -/
def execFence (engine : Fin 32) (thread : Fin 8) (q : Pred) (f : FmtQ) (s : State) : Host.Outcome State Fault Refusal :=
  s.act fun d => d.thrFence engine thread q f

end Sys2Proof.Machine
end

