-- ==== Sys2Proof/Machine/HostFrames.lean ====
section
/-! DEFINITION. Frames to and from hosts: FRAME_SEND and FRAME_IN (R420, R421). -/

namespace Sys2Proof.Machine

/-! ### FRAME_SEND (R421) -/

/-- PARAM of FRAME_SEND. -/
structure SendReq where
  pipeline : Bool
  cls : Nat
  target : Nat
  entry : Nat
  part : Nat
deriving DecidableEq, Repr

def sendFields (c : CmdEntry) : SendReq := ⟨c.p 16 1 == 1, c.p 17 1, c.p 18 2, c.p 20 1, c.p 21 1⟩

/-- The operands a FRAME_SEND may have. -/
def sendParamsOk (c : CmdEntry) : Bool :=
  let q := sendFields c
  decide (c.p 16 1 ≤ 1 ∧ q.cls < 8 ∧ q.target < 512 ∧ q.entry < 64 ∧ q.part < 16 ∧ 64 ≤ c.len.toNat ∧ c.len.toNat ≤ 16383)

/-- The entry point is owned by the partition of the command, or SHARED, in the current coat (R116). -/
def Device.sendEntryOk (d : Device) (q : SendReq) : Bool :=
  match d.curCoat with
  | none => false
  | some c => (validEntries c.ien).any fun (e, _, part, shared) => e == q.entry && (shared || part == q.part)

/-- The partition that a FRAME_SEND names: PARTITION in PIPELINE mode, that of TARGET in DIRECT mode (R405). -/
def Device.sendPart (d : Device) (q : SendReq) : Nat := if q.pipeline then q.part else d.portPart q.target

def Device.sendPriv (d : Device) (s : Nat) (q : SendReq) : Bool :=
  d.ownsOr s (d.sendPart q) 7 && (!q.pipeline || d.sendEntryOk q)

/-- The cells a FRAME_SEND takes: those of its bytes, and in PIPELINE mode one for the aside until the end of its passes
(R216, R217). -/
def sendCells (c : CmdEntry) : Nat := cellsOf c.len.toNat + b2n (sendFields c).pipeline

/-- The frame of a FRAME_SEND, its FCS written over the last 4 bytes. -/
def Device.sendFrameOf (d : Device) (c : CmdEntry) : Frame :=
  let q := sendFields c
  let len := c.len.toNat
  let body := fitB (len - 4) c.buf
  let m0 := zeroM.setIfInBounds 0 (BitVec.ofNat 32 (514 + c.seat.val + if q.pipeline then q.part * 2 ^ 10 else 0))
  let m := if q.pipeline then
      (m0.setIfInBounds 2 (BitVec.ofNat 32 q.cls)).setIfInBounds 3 (BitVec.ofNat 32 (3 * 2 ^ 30))
    else m0
  { Frame.blank (514 + c.seat.val) (body ++ bytesLE 4 (crc32 body)) with
    done := true, arrClass := q.cls, cells := sendCells c, prov := sendCells c, rxTransit := d.transit * 65536
    rxTime := d.tbCount 0 * 65536, arrTb0 := d.tbCount 0, arrTransit := d.transit, m := m, entry := q.entry
    pipe := pipeOf q.target, place := .pass, aside := if q.pipeline then none else some false, snap := List.replicate 48 0
    sender := if bit c.flags.toNat 0 then some (c.seat.val, c.ring.val) else none }

/-- DIRECT: the frame joins the VOQ of its target. Its registers but m0 stay zero. -/
def Device.sendDirect (d : Device) (f : Nat) (q : SendReq) : Device :=
  let n := d.buf.nextCopy
  let m := match d.frame f with | some x => x.m | none => zeroM
  ((d.joinPort f (pipeOf q.target) q.target q.cls none none none (List.replicate 48 0)).modCopy n
    (fun y => { y with m := m })).releaseFrame f

/-- The frame of a FRAME_SEND enters. -/
def Device.sendEnter (d : Device) (c : CmdEntry) : Device :=
  let q := sendFields c
  let f := d.buf.nextFrame
  let d := d.addFrame (d.sendFrameOf c)
  if q.pipeline then d.joinEntry f else d.sendDirect f q

/-- The checks of a FRAME_SEND: its status unless the frame may enter. -/
def Device.sendCheck (d : Device) (c : CmdEntry) : Option Nat :=
  if !sendParamsOk c then some St.badParam
  else if !d.sendPriv c.seat.val (sendFields c) then some St.priv
  else if d.pwr.draining || d.pwr.portsDown || !d.admitScaf (sendCells c) then some St.dropped
  else none

/-- A frame the reserve cannot take is counted as the frames from the scaffold are (R221). -/
def Device.sendRefused (d : Device) (c : CmdEntry) : Device :=
  if d.pwr.draining || d.pwr.portsDown then d else
  if !d.admitScaf (sendCells c) then d.bump Off.bufScafDrop 1 else d

/-- FRAME_SEND. Without TS it completes once the frame is in the buffer; with TS when the frame has left (R421). -/
def Device.frameSend (d : Device) (c : CmdEntry) : Device :=
  let used := [(16, 1), (17, 1), (18, 2), (20, 1), (21, 1)]
  let s := c.seat.val
  let r := c.ring.val
  let took := d.canTake s r 0x12
  let d := d.runHeld c 0x12 1 used 0 (some (d.sendPart (sendFields c))) fun d => match d.sendCheck c with
    | some st => .inl (if st = St.dropped then d.sendRefused c else d, st, [])
    | none =>
      if bit c.flags.toNat 0 then .inr (d, ⟨0x12, c.tag.toNat, c.flags.toNat, 0, 0, [], []⟩)
      else .inl (d.sendEnter c, St.ok, [])
  if took && (d.held s r 0x12).isSome then d.sendEnter c else d

/-! ### FRAME_IN (R420) -/

/-- The body of a FRAME_IN notice. -/
def frameInBody (y : Copy) (fr : Frame) (wrote : Nat) : List Byte :=
  let m := vecN y.m
  bytesLE 1 (m 7 % 256) ++ bytesLE 1 (b2n (decide (wrote < fr.bytes.length)) + 2 * (m 2 % 8)) ++ bytesLE 2 fr.port ++
    bytesLE 2 fr.bytes.length ++ bytesLE 2 wrote ++ bytesLE 8 (fr.rxTime / 65536) ++ bytesLE 4 (m 4) ++
    bytesLE 2 (bits (m 1) 25 10) ++ bytesLE 1 (bits (m 0) 13 10)

/-- The complete frame at the head of a pipeline's queue for a seat is written into the buffer of its notice's entry, and the
notice is written; a BAD frame, and one whose notice is dropped, is discarded (R410, R420). -/
def Device.frameIn (d : Device) (s pipe : Nat) : Device :=
  match d.voq pipe (514 + s) (voqCls (514 + s) 0) with
  | [] => d
  | c :: _ => match d.copy c with
    | none => d
    | some y => match d.frame y.frame with
      | none => d.dropCopy c
      | some fr =>
        if fr.bad then d.dropCopy c
        else if !fr.done then d
        else
          let r := d.fld (Off.seatCtl s) 14 12
          let size := 2 ^ (11 + d.fld (Off.seatNrCtl s r) 1 0)
          let wrote := min fr.bytes.length size
          let a := d.reg64 (Off.seatNrFrameBaseLo s r) + size * d.fld (Off.seatNrTail s r) 15 0
          let (d, ok) := d.notice s r 6 (frameInBody y fr wrote) none
          let d := if ok then d.hostWrite s a (fr.bytes.take wrote) else d
          d.dropCopy c

end Sys2Proof.Machine
end

