-- ==== Sys2Proof/Machine/CmdHost.lean ====
section
/-! DEFINITION. The host commands of the command rings (R106, R142, R165, R247, R413 to R421, R450, R460, R492, R504). -/

namespace Sys2Proof.Machine

/-- FLOW_INSERT (R165). -/
def execFlowInsert (c : CmdEntry) (s : State) : Host.Outcome State Fault Refusal :=
  s.act fun d => d.ringFlow c 0x01

/-- FLOW_UPDATE (R165). -/
def execFlowUpdate (c : CmdEntry) (s : State) : Host.Outcome State Fault Refusal :=
  s.act fun d => d.ringFlow c 0x02

/-- FLOW_REMOVE (R165). -/
def execFlowRemove (c : CmdEntry) (s : State) : Host.Outcome State Fault Refusal :=
  s.act fun d => d.ringFlow c 0x03

/-- FLOW_READ (R165). -/
def execFlowRead (c : CmdEntry) (s : State) : Host.Outcome State Fault Refusal :=
  s.act fun d => d.ringFlow c 0x04

/-- FLOW_PIN (R179). -/
def execFlowPin (c : CmdEntry) (s : State) : Host.Outcome State Fault Refusal :=
  s.act fun d => d.ringFlow c 0x05

/-- SHADOW_REWRITE (R165). -/
def execShadowRewrite (c : CmdEntry) (s : State) : Host.Outcome State Fault Refusal :=
  s.act fun d => d.ringFlow c 0x11

/-- TABLE_WRITE (R142). -/
def execTableWrite (c : CmdEntry) (s : State) : Host.Outcome State Fault Refusal :=
  s.act fun d => d.tableWrite c

/-- TABLE_READ (R145). -/
def execTableRead (c : CmdEntry) (s : State) : Host.Outcome State Fault Refusal :=
  s.act fun d => d.tableRead c

/-- COAT_STAGE (R106). -/
def execCoatStage (c : CmdEntry) (s : State) : Host.Outcome State Fault Refusal :=
  s.act fun d => d.coatStage c

/-- COAT_COMMIT (R107). -/
def execCoatCommit (c : CmdEntry) (s : State) : Host.Outcome State Fault Refusal :=
  s.act fun d => d.coatCommit c

/-- COAT_ABANDON (R106). -/
def execCoatAbandon (c : CmdEntry) (s : State) : Host.Outcome State Fault Refusal :=
  s.act fun d => d.coatAbandon c

/-- QUOTE_REQUEST (R247). -/
def execQuoteRequest (c : CmdEntry) (s : State) : Host.Outcome State Fault Refusal :=
  s.act fun d => d.quoteRequest c

/-- QUOTE_RELEASE (R249). -/
def execQuoteRelease (c : CmdEntry) (s : State) : Host.Outcome State Fault Refusal :=
  s.act fun d => d.quoteRelease c

/-- QUOTE_QUERY (R414). -/
def execQuoteQuery (c : CmdEntry) (s : State) : Host.Outcome State Fault Refusal :=
  s.act fun d => d.quoteQuery c

/-- PERF_SNAPSHOT (R504). -/
def execPerfSnapshot (c : CmdEntry) (s : State) : Host.Outcome State Fault Refusal :=
  s.act fun d => d.perfSnapshot c

/-- SWATCH_SELECT (R492). -/
def execSwatchSelect (c : CmdEntry) (s : State) : Host.Outcome State Fault Refusal :=
  s.act fun d => d.swatchSelect c

/-- POWER_REQUEST (R460). -/
def execPowerRequest (c : CmdEntry) (s : State) : Host.Outcome State Fault Refusal :=
  s.act fun d => d.powerRequest c

/-- FRAME_SEND (R421). -/
def execFrameSend (c : CmdEntry) (s : State) : Host.Outcome State Fault Refusal :=
  s.act fun d => d.frameSend c

/-- LEASE_QUERY (R450). -/
def execLeaseQuery (c : CmdEntry) (s : State) : Host.Outcome State Fault Refusal :=
  s.act fun d => d.leaseQuery c

/-- BARRIER (R417). -/
def execBarrier (c : CmdEntry) (s : State) : Host.Outcome State Fault Refusal :=
  s.act fun d => d.barrier c

end Sys2Proof.Machine
end

