-- ==== Sys2Proof/Machine/CmdLath.lean ====
section
/-! DEFINITION. Lath frames, containers and protection (R318 to R334). -/

namespace Sys2Proof.Machine

/-- LATH_FRAME_RECEIVE (R318). -/
def execLathFrameReceive (span : Fin 32) (lane : Nat) (phase : Nat) (words : List DWord) (uncorr : Nat)
    (s : State) : Host.Outcome State Fault Refusal :=
  s.act fun d => d.lathFrameReceive span lane phase words uncorr

/-- CONTAINER_ASSEMBLE (R322). -/
def execContainerAssemble (span : Fin 32) (s : State) : Host.Outcome State Fault Refusal :=
  s.act fun d => (d.containerAssemble span).apsLook span

/-- CONTAINER_SEND (R321). -/
def execContainerSend (span : Fin 32) (stuffs : List Nat) (s : State) : Host.Outcome State Fault Refusal :=
  s.act fun d => d.containerSend span stuffs

/-- SF_PERIOD (R330). -/
def execSfPeriod (span : Fin 32) (s : State) : Host.Outcome State Fault Refusal :=
  s.act fun d => d.sfPeriod span

/-- SD_PERIOD (R330). -/
def execSdPeriod (span : Fin 32) (s : State) : Host.Outcome State Fault Refusal :=
  s.act fun d => d.sdPeriod span

/-- LOF (R330). -/
def execLof (span : Fin 32) (lane : Nat) (s : State) : Host.Outcome State Fault Refusal :=
  s.act fun d => d.lof span lane

/-- WTR (R334). -/
def execWtr (span : Fin 32) (s : State) : Host.Outcome State Fault Refusal :=
  s.act fun d => d.wtrExpiry span

end Sys2Proof.Machine
end

