-- ==== Sys2Proof/Machine/CmdLink.lean ====
section
/-! DEFINITION. Port bring-up, signal, sleep, preemption verification, spread members and float contexts (R276, R281, R285, R293 to
R305, R310). -/

namespace Sys2Proof.Machine

/-- BRING_UP_ATTEMPT (R293). -/
def execBringUpAttempt (port : Fin 512) (fallback : Bool) (s : State) : Host.Outcome State Fault Refusal :=
  s.act fun d => d.bringUpAttempt port fallback

/-- ATTEMPT_END (R293). -/
def execAttemptEnd (port : Fin 512) (good : Bool) (lanes : List Nat) (s : State) : Host.Outcome State Fault Refusal :=
  s.act fun d => d.attemptEnd port good lanes

/-- RETRY (R295). -/
def execRetry (port : Fin 512) (s : State) : Host.Outcome State Fault Refusal :=
  s.act fun d => d.retry port

/-- LOSS_OF_SIGNAL (R296). -/
def execLossOfSignal (lane : Fin 512) (s : State) : Host.Outcome State Fault Refusal :=
  s.act fun d => d.laneSignal lane Device.lossOfSignal

/-- LOSS_OF_LOCK (R296). -/
def execLossOfLock (lane : Fin 512) (s : State) : Host.Outcome State Fault Refusal :=
  s.act fun d => d.laneSignal lane Device.lossOfLock

/-- SIGNAL_RETURN (R296). -/
def execSignalReturn (lane : Fin 512) (s : State) : Host.Outcome State Fault Refusal :=
  s.act fun d => d.laneSignal lane Device.signalReturn

/-- FAULT_ORDERED_SET (R297). -/
def execFaultOrderedSet (port : Fin 512) (fault : Bool) (aligned : Bool) (s : State) : Host.Outcome State Fault Refusal :=
  s.act fun d => d.faultOrderedSet port fault aligned

/-- HELLO_SEND (R301). -/
def execHelloSend (port : Fin 512) (s : State) : Host.Outcome State Fault Refusal :=
  s.act fun d => d.helloSend port

/-- HELLO (R301). -/
def execHello (port : Fin 512) (bytes : List Byte) (s : State) : Host.Outcome State Fault Refusal :=
  s.act fun d => if fieldBE bytes 17 1 = 1 then d.sleepReceive port bytes else d

/-- HELLO_EXPIRY (R301). -/
def execHelloExpiry (port : Fin 512) (s : State) : Host.Outcome State Fault Refusal :=
  s.act fun d => d.helloExpiry port

/-- SLEEP_ENTRY (R302). -/
def execSleepEntry (port : Fin 512) (s : State) : Host.Outcome State Fault Refusal :=
  s.act fun d => d.sleepEntry port

/-- SLEEP (R305). -/
def execSleep (port : Fin 512) (bytes : List Byte) (s : State) : Host.Outcome State Fault Refusal :=
  s.act fun d => if fieldBE bytes 17 1 = 1 then d else d.sleepReceive port bytes

/-- TX_WAKE (R303). -/
def execTxWake (port : Fin 512) (s : State) : Host.Outcome State Fault Refusal :=
  s.act fun d => d.txWake port

/-- TX_AWAKE (R303). -/
def execTxAwake (port : Fin 512) (s : State) : Host.Outcome State Fault Refusal :=
  s.act fun d => d.txAwake port

/-- LANE_REFRESH (R304). -/
def execLaneRefresh (port : Fin 512) (s : State) : Host.Outcome State Fault Refusal :=
  s.act fun d => d.laneRefresh port

/-- RX_NO_RETURN (R305). -/
def execRxNoReturn (port : Fin 512) (s : State) : Host.Outcome State Fault Refusal :=
  s.act fun d => d.rxNoReturn port

/-- VERIFY_SEND (R310). -/
def execVerifySend (port : Fin 512) (s : State) : Host.Outcome State Fault Refusal :=
  s.act fun d => d.verifySend port

/-- VERIFY_FAIL (R310). -/
def execVerifyFail (port : Fin 512) (s : State) : Host.Outcome State Fault Refusal :=
  s.act fun d => d.verifyFail port

/-- MEMBER_EXCLUDED (R276). -/
def execMemberExcluded (group : Fin 256) (n : MemberErrors) (s : State) : Host.Outcome State Fault Refusal :=
  s.act fun d => d.excludeMember group n.member n.uncorr

/-- MEMBER_READMITTED (R276). -/
def execMemberReadmitted (group : Fin 256) (n : Fin 64) (s : State) : Host.Outcome State Fault Refusal :=
  s.act fun d => d.readmitMember group n

/-- GAP_TIMER (R281). -/
def execGapTimer (ctx : Nat) (s : State) : Host.Outcome State Fault Refusal :=
  s.act fun d => d.gapDue ctx

/-- TWIN_RESET (R285). -/
def execTwinReset (ctx : Nat) (s : State) : Host.Outcome State Fault Refusal :=
  s.act fun d => d.twinReset ctx

/-- RX_AWAKE (R305). -/
def execRxAwake (port : Fin 512) (s : State) : Host.Outcome State Fault Refusal :=
  s.act fun d => d.rxAwake port

/-- VERIFY_ANSWERED (R310). -/
def execVerifyAnswered (port : Fin 512) (s : State) : Host.Outcome State Fault Refusal :=
  s.act fun d => d.verifyAnswered port

/-- COEFFICIENT_REQUEST (R294). -/
def execCoefficientRequest (lane : Fin 512) (coef : Fin 4) (up : Bool) (s : State) : Host.Outcome State Fault Refusal :=
  s.act fun d => d.coefficientRequest lane coef up

end Sys2Proof.Machine
end

