-- ==== Sys2Proof/Machine/CmdPower.lean ====
section
/-! DEFINITION. Power states, shedding, supplies, temperature, clocks, reset and start-up (R29, R461 to R485, R492, R496, R536). -/

namespace Sys2Proof.Machine

/-- TRANSITION_COMPLETE (R461). -/
def execTransitionComplete (s : State) : Host.Outcome State Fault Refusal :=
  s.act fun d => d.transitionComplete

/-- DRAIN_TIMEOUT (R467). -/
def execDrainTimeout (s : State) : Host.Outcome State Fault Refusal :=
  s.act fun d => d.drainEnd

/-- SHED_ENTER (R478). -/
def execShedEnter (level : Nat) (vcore : Nat) (s : State) : Host.Outcome State Fault Refusal :=
  s.act fun d => d.shedEnter level vcore

/-- SHED_LEAVE (R478). -/
def execShedLeave (vcore : Nat) (s : State) : Host.Outcome State Fault Refusal :=
  s.act fun d => d.shedLeave vcore

/-- SUPPLY (R479). -/
def execSupply (rail : Nat) (mv : Nat) (deep : Bool) (s : State) : Host.Outcome State Fault Refusal :=
  s.act fun d => d.supply rail mv deep

/-- BROWN_OUT (R471). -/
def execBrownOut (s : State) : Host.Outcome State Fault Refusal :=
  s.act fun d => d.brownOut

/-- THERMAL (R481). -/
def execThermal (sensor : Fin 40) (temp : Int) (s : State) : Host.Outcome State Fault Refusal :=
  s.act fun d => d.thermal sensor temp

/-- THERMTRIP_N (R482). -/
def execThermtripN (sensor : Fin 40) (temp : Int) (s : State) : Host.Outcome State Fault Refusal :=
  s.act fun d => d.thermTrip sensor temp

/-- CLOCK (R483). -/
def execClock (which : Fin 10) (lost : Bool) (s : State) : Host.Outcome State Fault Refusal :=
  s.act fun d => d.clock which lost

/-- RESET_N (R536). -/
def execResetN (s : State) : Host.Outcome State Fault Refusal :=
  s.act fun d => d.resetN

/-- WAKE (R474). -/
def execWake (src : Fin 5) (s : State) : Host.Outcome State Fault Refusal :=
  s.act fun d => d.wake src

/-- START_UP (R485). -/
def execStartUp (straps : Straps) (kept : Bool) (bad0 : List Nat) (bad1 : List Nat)
    (s : State) : Host.Outcome State Fault Refusal :=
  s.act fun d => d.startUp straps kept bad0 bad1

/-- TILE_CALIBRATED (R485). -/
def execTileCalibrated (tile : Fin 64) (s : State) : Host.Outcome State Fault Refusal :=
  s.act fun d => d.tileCalibrated tile

/-- ALIVE (R29). -/
def execAlive (s : State) : Host.Outcome State Fault Refusal :=
  s.act fun d => d.aliveRise

/-- HB_TOGGLE (R29). -/
def execHbToggle (s : State) : Host.Outcome State Fault Refusal :=
  s.act fun d => d.hbToggle

/-- FLASH_DONE (R496). -/
def execFlashDone (err : Bool) (s : State) : Host.Outcome State Fault Refusal :=
  s.act fun d => d.flashDone err

/-- SWATCH_CHECK_END (R492). -/
def execSwatchCheckEnd (s : State) : Host.Outcome State Fault Refusal :=
  s.act fun d => d.swatchCheckEnd

end Sys2Proof.Machine
end

