-- ==== Sys2Proof/Machine/CmdRegister.lean ====
section
/-! DEFINITION. Register access (R8 to R11, R219, R289, R290, R314, R328, R336, R340, R341, R357, R371, R372, R386, R405 to R408,
R435, R440, R460, R494 to R496, R523). -/

namespace Sys2Proof.Machine

/-- REGISTER_WRITE (R8). -/
def execRegisterWrite (seat : Fin 3) (off : BitVec 26) (v : BitVec 32) (s : State) : Host.Outcome State Fault Refusal :=
  s.act fun d => d.regWrite seat off.toNat v.toNat

/-- RC_READ (R8). -/
def execRcRead (seat : Fin 3) (off : BitVec 26) (s : State) : Host.Outcome State Fault Refusal :=
  s.act fun d => d.busRead seat off.toNat

/-- PAIR_LO_READ (R10). -/
def execPairLoRead (seat : Fin 3) (off : BitVec 26) (s : State) : Host.Outcome State Fault Refusal :=
  s.act fun d => d.busRead seat off.toNat

/-- PAIR_LO_WRITE (R10). -/
def execPairLoWrite (seat : Fin 3) (off : BitVec 26) (v : BitVec 32) (s : State) : Host.Outcome State Fault Refusal :=
  s.act fun d => d.regWrite seat off.toNat v.toNat

/-- PAIR_HI_WRITE (R10). -/
def execPairHiWrite (seat : Fin 3) (off : BitVec 26) (v : BitVec 32) (s : State) : Host.Outcome State Fault Refusal :=
  s.act fun d => d.regWrite seat off.toNat v.toNat

/-- TB_SEC_LO_READ (R341). -/
def execTbSecLoRead (seat : Fin 3) (base : Fin 8) (s : State) : Host.Outcome State Fault Refusal :=
  s.act fun d => d.busRead seat (Off.plumbTbSecLo base)

/-- TIO_CAP_LO_READ (R357). -/
def execTioCapLoRead (seat : Fin 3) (pin : Fin 16) (s : State) : Host.Outcome State Fault Refusal :=
  s.act fun d => d.busRead seat (Off.plumbTioCapLo pin)

/-- LOG_WORD0_READ (R441). -/
def execLogWord0Read (seat : Fin 3) (entry : Fin 256) (s : State) : Host.Outcome State Fault Refusal :=
  s.act fun d => d.busRead seat (Off.hawkLogW entry 0)

/-- MAC_EN_WRITE (R289). -/
def execMacEnWrite (seat : Fin 3) (port : Fin 512) (v : BitVec 32) (s : State) : Host.Outcome State Fault Refusal :=
  s.act fun d => d.regWrite seat (Off.portCfg port) v.toNat

/-- TAP_WRITE (R290). -/
def execTapWrite (seat : Fin 3) (lane : Fin 512) (v : BitVec 32) (s : State) : Host.Outcome State Fault Refusal :=
  s.act fun d => d.regWrite seat (Off.laneTxTap lane) v.toNat

/-- POOL_WRITE (R219). -/
def execPoolWrite (seat : Fin 3) (off : BitVec 26) (v : BitVec 32) (s : State) : Host.Outcome State Fault Refusal :=
  s.act fun d => d.regWrite seat off.toNat v.toNat

/-- SPAN_ENABLE (R314). -/
def execSpanEnable (seat : Fin 3) (span : Fin 32) (v : BitVec 32) (s : State) : Host.Outcome State Fault Refusal :=
  s.act fun d => d.regWrite seat (Off.lathCtl span) v.toNat

/-- CHANNEL_ENABLE (R328). -/
def execChannelEnable (seat : Fin 3) (span : Fin 32) (chan : Fin 63) (v : BitVec 32)
    (s : State) : Host.Outcome State Fault Refusal :=
  s.act fun d => d.regWrite seat (Off.lathChanCfg span chan) v.toNat

/-- MAP_WRITE (R329). -/
def execMapWrite (seat : Fin 3) (span : Fin 32) (n : Fin 40) (v : BitVec 32) (s : State) : Host.Outcome State Fault Refusal :=
  s.act fun d => d.regWrite seat (Off.lathMap span n) v.toNat

/-- GROUP_ENABLE (R274). -/
def execGroupEnable (seat : Fin 3) (group : Fin 256) (v : BitVec 32) (s : State) : Host.Outcome State Fault Refusal :=
  s.act fun d => d.regWrite seat (Off.spreadGrpCtl group) v.toNat

/-- EXPORT_ENABLE (R510). -/
def execExportEnable (seat : Fin 3) (v : BitVec 32) (s : State) : Host.Outcome State Fault Refusal :=
  s.act fun d => d.regWrite seat Off.telemCtl v.toNat

/-- SHED_THR_WRITE (R496). -/
def execShedThrWrite (seat : Fin 3) (v : BitVec 32) (s : State) : Host.Outcome State Fault Refusal :=
  s.act fun d => d.regWrite seat Off.pwrShedThr v.toNat

/-- TCLK_SRC_WRITE (R336). -/
def execTclkSrcWrite (seat : Fin 3) (v : BitVec 32) (s : State) : Host.Outcome State Fault Refusal :=
  s.act fun d => d.regWrite seat Off.plumbCtl v.toNat

/-- OWNER_HANDOVER (R406). -/
def execOwnerHandover (seat : Fin 3) (v : BitVec 32) (s : State) : Host.Outcome State Fault Refusal :=
  s.act fun d => d.regWrite seat Off.seatOwner v.toNat

/-- CLAIM (R406). -/
def execClaim (seat : Fin 2) (v : BitVec 32) (s : State) : Host.Outcome State Fault Refusal :=
  s.act fun d => d.regWrite seat (Off.seatClaim seat) v.toNat

/-- KEEPALIVE (R400). -/
def execKeepalive (seat : Fin 2) (v : BitVec 32) (s : State) : Host.Outcome State Fault Refusal :=
  s.act fun d => d.regWrite seat (Off.seatKeepalive seat) v.toNat

/-- COMMAND_DOORBELL (R408). -/
def execCommandDoorbell (seat : Fin 2) (ring : Fin 8) (v : BitVec 32) (s : State) : Host.Outcome State Fault Refusal :=
  s.act fun d => d.ringBell fun d => d.cmdDoorbell seat ring v.toNat

/-- NOTICE_DOORBELL (R408). -/
def execNoticeDoorbell (seat : Fin 2) (ring : Fin 8) (v : BitVec 32) (s : State) : Host.Outcome State Fault Refusal :=
  s.act fun d => d.ringBell fun d => d.noticeDoorbell seat ring v.toNat

/-- IND_DATA_WRITE (R523). -/
def execIndDataWrite (seat : Fin 3) (v : BitVec 32) (s : State) : Host.Outcome State Fault Refusal :=
  s.act fun d => d.regWrite seat Off.indData v.toNat

/-- SCAF_CODE_DATA_HI_WRITE (R371). -/
def execScafCodeDataHiWrite (seat : Fin 3) (v : BitVec 32) (s : State) : Host.Outcome State Fault Refusal :=
  s.act fun d => d.regWrite seat Off.scafCodeDataHi v.toNat

/-- SWITCH (R372). -/
def execSwitch (seat : Fin 3) (s : State) : Host.Outcome State Fault Refusal :=
  s.act fun d => d.regWrite seat Off.scafCodeCtl (2 ^ 31)

/-- SIGNAL (R386). -/
def execSignal (seat : Fin 3) (v : BitVec 32) (s : State) : Host.Outcome State Fault Refusal :=
  s.act fun d => d.regWrite seat Off.scafSignal v.toNat

/-- COMMIT (R265). -/
def execCommit (seat : Fin 3) (port : Fin 512) (s : State) : Host.Outcome State Fault Refusal :=
  s.act fun d => d.regWrite seat (Off.schedGateCtl port) (setBits (d.reg (Off.schedGateCtl port)) 30 30 1)

/-- FREEZE (R503). -/
def execFreeze (seat : Fin 3) (on : Bool) (s : State) : Host.Outcome State Fault Refusal :=
  s.act fun d => d.regWrite seat Off.perfCtl (2 ^ 31 * b2n on)

/-- SNAP (R504). -/
def execSnap (seat : Fin 3) (s : State) : Host.Outcome State Fault Refusal :=
  s.act fun d => d.regWrite seat Off.perfCtl (setBits (d.reg Off.perfCtl) 30 30 1)

/-- HAWK_RAISE (R435). -/
def execHawkRaise (seat : Fin 3) (v : BitVec 32) (s : State) : Host.Outcome State Fault Refusal :=
  s.act fun d => d.regWrite seat Off.hawkRaise v.toNat

/-- LOG_CLEAR (R440). -/
def execLogClear (seat : Fin 3) (s : State) : Host.Outcome State Fault Refusal :=
  s.act fun d => d.regWrite seat Off.hawkLogCtl (2 ^ 31)

/-- PWR_REQ_L_WRITE (R460). -/
def execPwrReqLWrite (seat : Fin 3) (v : BitVec 32) (s : State) : Host.Outcome State Fault Refusal :=
  s.act fun d => d.regWrite seat Off.pwrReqL v.toNat

/-- TB_SET (R340). -/
def execTbSet (seat : Fin 3) (base : Fin 8) (s : State) : Host.Outcome State Fault Refusal :=
  s.act fun d => d.regWrite seat (Off.plumbTbCmd base) 1

/-- TB_ADD (R340). -/
def execTbAdd (seat : Fin 3) (base : Fin 8) (s : State) : Host.Outcome State Fault Refusal :=
  s.act fun d => d.regWrite seat (Off.plumbTbCmd base) 2

/-- TB_SLEW (R340). -/
def execTbSlew (seat : Fin 3) (base : Fin 8) (s : State) : Host.Outcome State Fault Refusal :=
  s.act fun d => d.regWrite seat (Off.plumbTbCmd base) 3

/-- SLEW_END (R340). -/
def execSlewEnd (base : Fin 8) (s : State) : Host.Outcome State Fault Refusal :=
  s.act fun d => d.slewDone base

/-- FLASH_ERASE (R494). -/
def execFlashErase (seat : Fin 3) (s : State) : Host.Outcome State Fault Refusal :=
  s.act fun d => d.regWrite seat Off.darbyFlashCmd 1

/-- FLASH_PROGRAM (R494). -/
def execFlashProgram (seat : Fin 3) (s : State) : Host.Outcome State Fault Refusal :=
  s.act fun d => d.regWrite seat Off.darbyFlashCmd 2

/-- FLASH_READ (R496). -/
def execFlashRead (seat : Fin 3) (s : State) : Host.Outcome State Fault Refusal :=
  s.act fun d => d.regWrite seat Off.darbyFlashCmd 3

end Sys2Proof.Machine
end

