-- ==== Sys2Proof/Machine/CmdScaffold.lean ====
section
/-! DEFINITION. Scaffold work, threads, timers and ticks (R369, R376 to R388, R465). -/

namespace Sys2Proof.Machine

/-- PUNT_ARRIVAL (R376). -/
def execPuntArrival (pipe : Fin 32) (s : State) : Host.Outcome State Fault Refusal :=
  s.act fun d => d.puntArrival pipe

/-- DISPATCH (R379). -/
def execDispatch (engine : Fin 32) (thread : Fin 8) (s : State) : Host.Outcome State Fault Refusal :=
  s.act fun d => d.dispatch engine thread

/-- FRAME_COPY_DONE (R379). -/
def execFrameCopyDone (engine : Fin 32) (thread : Fin 8) (s : State) : Host.Outcome State Fault Refusal :=
  s.act fun d => d.copyDone engine thread

/-- PUSH_READY (R383). -/
def execPushReady (s : State) : Host.Outcome State Fault Refusal :=
  s.act fun d => d.pushReady

/-- PREEMPTION (R384). -/
def execPreemption (engine : Fin 32) (thread : Fin 8) (s : State) : Host.Outcome State Fault Refusal :=
  s.act fun d => d.preemption engine thread

/-- CONTEXT_SAVE_DONE (R369). -/
def execContextSaveDone (engine : Fin 32) (thread : Fin 8) (s : State) : Host.Outcome State Fault Refusal :=
  s.act fun d => d.saveDone engine thread

/-- TIMER_DUE (R385). -/
def execTimerDue (s : State) : Host.Outcome State Fault Refusal :=
  s.act fun d => d.timersDue

/-- TICK_TASK (R387). -/
def execTickTask (n : Fin 16) (s : State) : Host.Outcome State Fault Refusal :=
  s.act fun d => d.tickTask n

/-- PULL_AGE (R377). -/
def execPullAge (level : Fin 16) (s : State) : Host.Outcome State Fault Refusal :=
  s.act fun d => d.pullAge level

/-- BUDGET (R388). -/
def execBudget (engine : Fin 32) (thread : Fin 8) (s : State) : Host.Outcome State Fault Refusal :=
  s.act fun d => d.budget engine thread

/-- SCAF_IDLE (R465). -/
def execScafIdle (engine : Fin 32) (s : State) : Host.Outcome State Fault Refusal :=
  s.act fun d => d.scafIdle engine

end Sys2Proof.Machine
end

