-- ==== Sys2Proof/Machine/CmdSeat.lean ====
section
/-! DEFINITION. Seats, notices, frames for the host, the island and event holdoff (R400, R401, R411, R420, R422, R434). -/

namespace Sys2Proof.Machine

/-- SEAT_ABSENT (R401). -/
def execSeatAbsent (seat : Fin 2) (s : State) : Host.Outcome State Fault Refusal :=
  s.act fun d => (d.seatAbsent seat).islandTrack d

/-- SEAT_PRESENT (R400). -/
def execSeatPresent (seat : Fin 2) (link : Fin 4) (s : State) : Host.Outcome State Fault Refusal :=
  s.act fun d => d.seatComes seat link

/-- COALESCE_TIMER (R411). -/
def execCoalesceTimer (seat : Fin 2) (ring : Fin 8) (s : State) : Host.Outcome State Fault Refusal :=
  s.act fun d => d.coalesceTimer seat ring

/-- FRAME_IN (R420). -/
def execFrameIn (seat : Fin 2) (pipe : Fin 32) (s : State) : Host.Outcome State Fault Refusal :=
  s.act fun d => d.frameIn seat pipe

/-- ISLAND (R422). -/
def execIsland (s : State) : Host.Outcome State Fault Refusal :=
  s.act fun d => d.island

/-- HOLDOFF_EXPIRY (R434). -/
def execHoldoffExpiry (src : Nat) (code : Nat) (s : State) : Host.Outcome State Fault Refusal :=
  s.act fun d => d.holdoffExpiry src code

end Sys2Proof.Machine
end

