-- ==== Sys2Proof/Machine/CmdStore.lean ====
section
/-! DEFINITION. The flow store and the render store in time (R155, R161, R177 to R186, R198 to R212). -/

namespace Sys2Proof.Machine

/-- SANDER_VISIT (R181). -/
def execSanderVisit (handle : Nat) (s : State) : Host.Outcome State Fault Refusal :=
  s.act fun d => d.sanderVisit handle

/-- WALK_END (R186). -/
def execWalkEnd (s : State) : Host.Outcome State Fault Refusal :=
  s.act fun d => d.walkEnd

/-- WRITE_BACK_PERIOD (R155). -/
def execWriteBackPeriod (s : State) : Host.Outcome State Fault Refusal :=
  s.act fun d => d.writeBackPeriod

/-- WRITE_BACK_COMPLETE (R177). -/
def execWriteBackComplete (handle : Nat) (s : State) : Host.Outcome State Fault Refusal :=
  s.act fun d => d.writeBack handle

/-- TUNE_INTERVAL (R178). -/
def execTuneInterval (s : State) : Host.Outcome State Fault Refusal :=
  s.act fun d => d.tuneInterval

/-- ABSENT_EXPIRY (R161). -/
def execAbsentExpiry (space : Fin 16) (key : List Byte) (s : State) : Host.Outcome State Fault Refusal :=
  s.act fun d => d.absentExpiry ⟨space, key⟩

/-- LEARN_WINDOW_EXPIRY (R184). -/
def execLearnWindowExpiry (space : Fin 16) (key : List Byte) (s : State) : Host.Outcome State Fault Refusal :=
  s.act fun d => d.learnExpiry ⟨space, key⟩

/-- COMMAND_OPPORTUNITY (R203). -/
def execCommandOpportunity (channel : Fin 32) (pc : Fin 2) (busy : List Nat) (s : State) : Host.Outcome State Fault Refusal :=
  s.act fun d => d.commandOpportunity channel pc busy

/-- REQUEST_COMPLETE (R198). -/
def execRequestComplete (channel : Fin 32) (id : Nat) (corrected : Nat) (poisoned : List Nat)
    (s : State) : Host.Outcome State Fault Refusal :=
  s.act fun d => d.requestComplete channel id corrected poisoned

/-- DRAM_REFRESH (R206). -/
def execDramRefresh (channel : Fin 32) (bank : BankRefresh) (s : State) : Host.Outcome State Fault Refusal :=
  s.act fun d => d.dramRefresh channel bank.bank bank.hot

/-- CHANNEL_FAILED (R212). -/
def execChannelFailed (channel : Fin 32) (s : State) : Host.Outcome State Fault Refusal :=
  s.act fun d => d.channelFailed channel

/-- SELF_REFRESH_IDLE (R207). -/
def execSelfRefreshIdle (stack : Fin 2) (s : State) : Host.Outcome State Fault Refusal :=
  s.act fun d => d.selfRefreshIdle stack

end Sys2Proof.Machine
end

