-- ==== Sys2Proof/Machine/CmdTelem.lean ====
section
/-! DEFINITION. Counters and the telemetry export (R501, R510 to R513). -/

namespace Sys2Proof.Machine

/-- COUNTER_TICK (R501). -/
def execCounterTick (s : State) : Host.Outcome State Fault Refusal :=
  s.act fun d => d.counterTick

/-- EXPORT_WALK (R511). -/
def execExportWalk (space : Fin 16) (s : State) : Host.Outcome State Fault Refusal :=
  s.act fun d => d.exportWalk space

/-- QUOTE_EXPORT (R512). -/
def execQuoteExport (s : State) : Host.Outcome State Fault Refusal :=
  s.act fun d => d.quoteExport

/-- COUNTER_EXPORT (R512). -/
def execCounterExport (s : State) : Host.Outcome State Fault Refusal :=
  s.act fun d => d.counterExport

/-- TEMPLATE_SEND (R510). -/
def execTemplateSend (s : State) : Host.Outcome State Fault Refusal :=
  s.act fun d => d.templateDue

/-- FLUSH_TIMER (R510). -/
def execFlushTimer (template : Nat) (s : State) : Host.Outcome State Fault Refusal :=
  s.act fun d => d.telemFlush template

/-- FRAME_SAMPLE (R513). -/
def execFrameSample (pipe : Fin 32) (s : State) : Host.Outcome State Fault Refusal :=
  s.act fun d => d.frameSample pipe

/-- WALK_READ (R511). -/
def execWalkRead (space : Fin 16) (s : State) : Host.Outcome State Fault Refusal :=
  s.act fun d => d.walkRead space

end Sys2Proof.Machine
end

