-- ==== Sys2Proof/Machine/CmdTime.lean ====
section
/-! DEFINITION. Time bases, TIO pins, PPS, the alarm and the servo (R336 to R361, R365). -/

namespace Sys2Proof.Machine

/-- TICK (R339). -/
def execTick (s : State) : Host.Outcome State Fault Refusal :=
  s.act fun d => d.tick.gateTiles.s5Over

/-- TIME_TRIGGER (R359). -/
def execTimeTrigger (s : State) : Host.Outcome State Fault Refusal :=
  s.act fun d => d.timeTrigger

/-- TIO_EDGE (R354), after the actions of the same tick that R359 places first. -/
def execTioEdge (pin : Fin 16) (s : State) : Host.Outcome State Fault Refusal :=
  s.act fun d => (d.dueBefore 6).tioEdge pin

/-- TIO_CAPTURE (R357). -/
def execTioCapture (pin : Fin 16) (rising : Bool) (s : State) : Host.Outcome State Fault Refusal :=
  s.act fun d => d.tioCapture pin rising

/-- PPS_OUT (R358), after the actions of the same tick that R359 places first. -/
def execPpsOut (s : State) : Host.Outcome State Fault Refusal :=
  s.act fun d => (d.dueBefore 6).ppsPulse

/-- PPS_IN (R358). -/
def execPpsIn (s : State) : Host.Outcome State Fault Refusal :=
  s.act fun d => d.ppsIn

/-- ALARM (R359), after the actions of the same tick that R359 places first. -/
def execAlarm (s : State) : Host.Outcome State Fault Refusal :=
  s.act fun d => (d.dueBefore 7).alarm

/-- TREF_LOST (R336). -/
def execTrefLost (s : State) : Host.Outcome State Fault Refusal :=
  s.act fun d => d.trefLost

/-- SERVO_OFFSET (R351). -/
def execServoOffset (value : Int) (s : State) : Host.Outcome State Fault Refusal :=
  s.act fun d => d.takeOffset value

/-- PDELAY_REQ_SEND (R351). -/
def execPdelayReqSend (s : State) : Host.Outcome State Fault Refusal :=
  s.act fun d => d.pdelayReqSend

/-- HOLDOVER (R352). -/
def execHoldover (s : State) : Host.Outcome State Fault Refusal :=
  s.act fun d => d.holdover

/-- AON_MEASURE (R361). -/
def execAonMeasure (count : BitVec 32) (s : State) : Host.Outcome State Fault Refusal :=
  s.act fun d => d.aonMeasure count.toNat

/-- PDELAY_REQ (R351). -/
def execPdelayReq (port : Fin 512) (bytes : List Byte) (s : State) : Host.Outcome State Fault Refusal :=
  s.act fun d => d.pdelayReq port bytes

/-- PPS_LOST (R365). -/
def execPpsLost (s : State) : Host.Outcome State Fault Refusal :=
  s.act fun d => d.ppsLost

end Sys2Proof.Machine
end

