-- ==== Sys2Proof/Machine/CmdTraffic.lean ====
section
/-! DEFINITION. Egress, scheduling, gates and pauses (R64, R222, R236, R238, R242, R255, R257, R262 to R265, R309, R347). -/

namespace Sys2Proof.Machine

/-- TRANSMIT_OPPORTUNITY (R242). -/
def execTransmitOpportunity (port : Fin 512) (stream : Nat) (s : State) : Host.Outcome State Fault Refusal :=
  s.act fun d => d.transmitOpportunity port stream

/-- EGRESS_PASS_START (R64). -/
def execEgressPassStart (copy : Nat) (s : State) : Host.Outcome State Fault Refusal :=
  s.act fun d => d.egressStart copy

/-- MAC_PRESENT (R347). -/
def execMacPresent (copy : Nat) (s : State) : Host.Outcome State Fault Refusal :=
  s.act fun d => d.macPresent copy

/-- TRANSMIT_COMPLETE (R222). -/
def execTransmitComplete (port : Fin 512) (stream : Nat) (s : State) : Host.Outcome State Fault Refusal :=
  s.act fun d => d.transmitComplete port stream

/-- CALENDAR_SLOT (R255). -/
def execCalendarSlot (port : Fin 512) (s : State) : Host.Outcome State Fault Refusal :=
  s.act fun d => d.calendarSlot port

/-- POLICER_REFILL (R257). -/
def execPolicerRefill (s : State) : Host.Outcome State Fault Refusal :=
  s.act fun d => d.policerRefill

/-- BUCKET_REFILL (R262). -/
def execBucketRefill (port : Fin 512) (s : State) : Host.Outcome State Fault Refusal :=
  s.act fun d => d.refillPort port

/-- GATE_ENTRY_END (R264). -/
def execGateEntryEnd (port : Fin 512) (s : State) : Host.Outcome State Fault Refusal :=
  s.act fun d => d.gateEntryEnd port

/-- GATE_CHANGE (R265). -/
def execGateChange (port : Fin 512) (s : State) : Host.Outcome State Fault Refusal :=
  s.act fun d => (d.dueBefore 3).gateChange port

/-- PFC_RECEIVE (R309). -/
def execPfcReceive (port : Fin 512) (bytes : List Byte) (s : State) : Host.Outcome State Fault Refusal :=
  s.act fun d => d.pfcReceive port bytes

/-- PAUSE_EXPIRY (R309). -/
def execPauseExpiry (port : Fin 512) (cls : Fin 8) (s : State) : Host.Outcome State Fault Refusal :=
  s.act fun d => d.pauseExpiry port cls

/-- PFC_REFRESH (R309). -/
def execPfcRefresh (port : Fin 512) (s : State) : Host.Outcome State Fault Refusal :=
  s.act fun d => d.pfcRefresh port

/-- WATCHDOG_TRIP (R238). -/
def execWatchdogTrip (port : Fin 512) (cls : Fin 8) (s : State) : Host.Outcome State Fault Refusal :=
  s.act fun d => d.watchdogTrip port cls

/-- WATCHDOG_DISARM (R238). -/
def execWatchdogDisarm (port : Fin 512) (cls : Fin 8) (s : State) : Host.Outcome State Fault Refusal :=
  s.act fun d => d.watchdogDisarm port cls

/-- FLUSH_COMPLETE (R236). -/
def execFlushComplete (port : Fin 512) (s : State) : Host.Outcome State Fault Refusal :=
  s.act fun d => d.flushComplete port

end Sys2Proof.Machine
end

