-- ==== Sys2Proof/Machine/Dispatch.lean ====
section
/-! DEFINITION. One arm for each command. -/

namespace Sys2Proof.Machine

def exec (i : Instr) (s : State) : Host.Outcome State Fault Refusal :=
  match i with
  | .registerWrite seat off v => Sys2Proof.Machine.execRegisterWrite seat off v s
  | .rcRead seat off => Sys2Proof.Machine.execRcRead seat off s
  | .pairLoRead seat off => Sys2Proof.Machine.execPairLoRead seat off s
  | .pairLoWrite seat off v => Sys2Proof.Machine.execPairLoWrite seat off v s
  | .pairHiWrite seat off v => Sys2Proof.Machine.execPairHiWrite seat off v s
  | .tbSecLoRead seat base => Sys2Proof.Machine.execTbSecLoRead seat base s
  | .tioCapLoRead seat pin => Sys2Proof.Machine.execTioCapLoRead seat pin s
  | .logWord0Read seat entry => Sys2Proof.Machine.execLogWord0Read seat entry s
  | .macEnWrite seat port v => Sys2Proof.Machine.execMacEnWrite seat port v s
  | .tapWrite seat lane v => Sys2Proof.Machine.execTapWrite seat lane v s
  | .poolWrite seat off v => Sys2Proof.Machine.execPoolWrite seat off v s
  | .spanEnable seat span v => Sys2Proof.Machine.execSpanEnable seat span v s
  | .channelEnable seat span chan v => Sys2Proof.Machine.execChannelEnable seat span chan v s
  | .mapWrite seat span n v => Sys2Proof.Machine.execMapWrite seat span n v s
  | .groupEnable seat group v => Sys2Proof.Machine.execGroupEnable seat group v s
  | .exportEnable seat v => Sys2Proof.Machine.execExportEnable seat v s
  | .shedThrWrite seat v => Sys2Proof.Machine.execShedThrWrite seat v s
  | .tclkSrcWrite seat v => Sys2Proof.Machine.execTclkSrcWrite seat v s
  | .ownerHandover seat v => Sys2Proof.Machine.execOwnerHandover seat v s
  | .claim seat v => Sys2Proof.Machine.execClaim seat v s
  | .keepalive seat v => Sys2Proof.Machine.execKeepalive seat v s
  | .commandDoorbell seat ring v => Sys2Proof.Machine.execCommandDoorbell seat ring v s
  | .noticeDoorbell seat ring v => Sys2Proof.Machine.execNoticeDoorbell seat ring v s
  | .indDataWrite seat v => Sys2Proof.Machine.execIndDataWrite seat v s
  | .scafCodeDataHiWrite seat v => Sys2Proof.Machine.execScafCodeDataHiWrite seat v s
  | .switch seat => Sys2Proof.Machine.execSwitch seat s
  | .signal seat v => Sys2Proof.Machine.execSignal seat v s
  | .commit seat port => Sys2Proof.Machine.execCommit seat port s
  | .freeze seat on => Sys2Proof.Machine.execFreeze seat on s
  | .snap seat => Sys2Proof.Machine.execSnap seat s
  | .hawkRaise seat v => Sys2Proof.Machine.execHawkRaise seat v s
  | .logClear seat => Sys2Proof.Machine.execLogClear seat s
  | .pwrReqLWrite seat v => Sys2Proof.Machine.execPwrReqLWrite seat v s
  | .tbSet seat base => Sys2Proof.Machine.execTbSet seat base s
  | .tbAdd seat base => Sys2Proof.Machine.execTbAdd seat base s
  | .tbSlew seat base => Sys2Proof.Machine.execTbSlew seat base s
  | .slewEnd base => Sys2Proof.Machine.execSlewEnd base s
  | .flashErase seat => Sys2Proof.Machine.execFlashErase seat s
  | .flashProgram seat => Sys2Proof.Machine.execFlashProgram seat s
  | .flashRead seat => Sys2Proof.Machine.execFlashRead seat s
  | .flowInsert c => Sys2Proof.Machine.execFlowInsert c s
  | .flowUpdate c => Sys2Proof.Machine.execFlowUpdate c s
  | .flowRemove c => Sys2Proof.Machine.execFlowRemove c s
  | .flowRead c => Sys2Proof.Machine.execFlowRead c s
  | .flowPin c => Sys2Proof.Machine.execFlowPin c s
  | .shadowRewrite c => Sys2Proof.Machine.execShadowRewrite c s
  | .tableWrite c => Sys2Proof.Machine.execTableWrite c s
  | .tableRead c => Sys2Proof.Machine.execTableRead c s
  | .coatStage c => Sys2Proof.Machine.execCoatStage c s
  | .coatCommit c => Sys2Proof.Machine.execCoatCommit c s
  | .coatAbandon c => Sys2Proof.Machine.execCoatAbandon c s
  | .quoteRequest c => Sys2Proof.Machine.execQuoteRequest c s
  | .quoteRelease c => Sys2Proof.Machine.execQuoteRelease c s
  | .quoteQuery c => Sys2Proof.Machine.execQuoteQuery c s
  | .perfSnapshot c => Sys2Proof.Machine.execPerfSnapshot c s
  | .swatchSelect c => Sys2Proof.Machine.execSwatchSelect c s
  | .powerRequest c => Sys2Proof.Machine.execPowerRequest c s
  | .frameSend c => Sys2Proof.Machine.execFrameSend c s
  | .leaseQuery c => Sys2Proof.Machine.execLeaseQuery c s
  | .barrier c => Sys2Proof.Machine.execBarrier c s
  | .wakePortAddr addr => Sys2Proof.Machine.execWakePortAddr addr s
  | .wakePortData write => Sys2Proof.Machine.execWakePortData write s
  | .wakePortPower state => Sys2Proof.Machine.execWakePortPower state s
  | .wakePortStatus => Sys2Proof.Machine.execWakePortStatus s
  | .recoveryErase q err => Sys2Proof.Machine.execRecoveryErase q err s
  | .recoveryWrite q data err => Sys2Proof.Machine.execRecoveryWrite q data err s
  | .recoveryRead q err => Sys2Proof.Machine.execRecoveryRead q err s
  | .recoveryIdent q => Sys2Proof.Machine.execRecoveryIdent q s
  | .recoveryReset q => Sys2Proof.Machine.execRecoveryReset q s
  | .frameReceive port bytes pre => Sys2Proof.Machine.execFrameReceive port bytes pre s
  | .headerWindow frame more => Sys2Proof.Machine.execHeaderWindow frame more s
  | .frameEnd frame rest fragErr => Sys2Proof.Machine.execFrameEnd frame rest fragErr s
  | .slotGrant pipe => Sys2Proof.Machine.execSlotGrant pipe s
  | .add who q f => Sys2Proof.Machine.execAdd who q f s
  | .sub who q f => Sys2Proof.Machine.execSub who q f s
  | .and who q f => Sys2Proof.Machine.execAnd who q f s
  | .or who q f => Sys2Proof.Machine.execOr who q f s
  | .xor who q f => Sys2Proof.Machine.execXor who q f s
  | .shl who q f => Sys2Proof.Machine.execShl who q f s
  | .shr who q f => Sys2Proof.Machine.execShr who q f s
  | .rot who q f => Sys2Proof.Machine.execRot who q f s
  | .min who q f => Sys2Proof.Machine.execMin who q f s
  | .max who q f => Sys2Proof.Machine.execMax who q f s
  | .cmp who q f => Sys2Proof.Machine.execCmp who q f s
  | .tst who q f => Sys2Proof.Machine.execTst who q f s
  | .mov who q f => Sys2Proof.Machine.execMov who q f s
  | .movi who q f => Sys2Proof.Machine.execMovi who q f s
  | .sel who q f => Sys2Proof.Machine.execSel who q f s
  | .hash who q f => Sys2Proof.Machine.execHash who q f s
  | .csum who q f units => Sys2Proof.Machine.execCsum who q f units s
  | .popc who q f => Sys2Proof.Machine.execPopc who q f s
  | .ext who q f => Sys2Proof.Machine.execExt who q f s
  | .extm who q f => Sys2Proof.Machine.execExtm who q f s
  | .ins who q f => Sys2Proof.Machine.execIns who q f s
  | .keyb who q f => Sys2Proof.Machine.execKeyb who q f s
  | .adv who q f => Sys2Proof.Machine.execAdv who q f s
  | .lkt who q f => Sys2Proof.Machine.execLkt who q f s
  | .lkh who q f => Sys2Proof.Machine.execLkh who q f s
  | .lkx who q f => Sys2Proof.Machine.execLkx who q f s
  | .lkp who q f => Sys2Proof.Machine.execLkp who q f s
  | .lkf who q f beyond => Sys2Proof.Machine.execLkf who q f beyond s
  | .fld who q f => Sys2Proof.Machine.execFld who q f s
  | .fst who q f => Sys2Proof.Machine.execFst who q f s
  | .fadd who q f => Sys2Proof.Machine.execFadd who q f s
  | .fcas who q f => Sys2Proof.Machine.execFcas who q f s
  | .fstamp who q f => Sys2Proof.Machine.execFstamp who q f s
  | .flearn who q f => Sys2Proof.Machine.execFlearn who q f s
  | .push who q f => Sys2Proof.Machine.execPush who q f s
  | .pop who q f => Sys2Proof.Machine.execPop who q f s
  | .setf who q f => Sys2Proof.Machine.execSetf who q f s
  | .nata who q f => Sys2Proof.Machine.execNata who q f s
  | .tsi who q f => Sys2Proof.Machine.execTsi who q f s
  | .seam who q f => Sys2Proof.Machine.execSeam who q f s
  | .twin who q f => Sys2Proof.Machine.execTwin who q f s
  | .fwd who q f => Sys2Proof.Machine.execFwd who q f s
  | .fwdg who q f => Sys2Proof.Machine.execFwdg who q f s
  | .mcast who q f => Sys2Proof.Machine.execMcast who q f s
  | .class_ who q f => Sys2Proof.Machine.execClass who q f s
  | .quote who q f => Sys2Proof.Machine.execQuote who q f s
  | .mirror who q f => Sys2Proof.Machine.execMirror who q f s
  | .toseat who q f => Sys2Proof.Machine.execToseat who q f s
  | .toscaf who q f => Sys2Proof.Machine.execToscaf who q f s
  | .drop who q f => Sys2Proof.Machine.execDrop who q f s
  | .recirc who q f => Sys2Proof.Machine.execRecirc who q f s
  | .next who q f => Sys2Proof.Machine.execNext who q f s
  | .end_ who q => Sys2Proof.Machine.execEnd who q s
  | .tnow who q f => Sys2Proof.Machine.execTnow who q f s
  | .tcmp who q f => Sys2Proof.Machine.execTcmp who q f s
  | .tstamp who q f => Sys2Proof.Machine.execTstamp who q f s
  | .tgate who q f => Sys2Proof.Machine.execTgate who q f s
  | .jmp engine thread q f => Sys2Proof.Machine.execJmp engine thread q f s
  | .br engine thread q f => Sys2Proof.Machine.execBr engine thread q f s
  | .call engine thread q f => Sys2Proof.Machine.execCall engine thread q f s
  | .ret engine thread q f => Sys2Proof.Machine.execRet engine thread q f s
  | .loop engine thread q f => Sys2Proof.Machine.execLoop engine thread q f s
  | .ld engine thread q f => Sys2Proof.Machine.execLd engine thread q f s
  | .st engine thread q f => Sys2Proof.Machine.execSt engine thread q f s
  | .ldd engine thread q f => Sys2Proof.Machine.execLdd engine thread q f s
  | .std engine thread q f => Sys2Proof.Machine.execStd engine thread q f s
  | .wait engine thread q f => Sys2Proof.Machine.execWait engine thread q f s
  | .yield_ engine thread q f => Sys2Proof.Machine.execYield engine thread q f s
  | .blkmv engine thread q f units => Sys2Proof.Machine.execBlkmv engine thread q f units s
  | .scan engine thread q f units => Sys2Proof.Machine.execScan engine thread q f units s
  | .fence engine thread q f => Sys2Proof.Machine.execFence engine thread q f s
  | .passExit frame => Sys2Proof.Machine.execPassExit frame s
  | .recircEligible frame => Sys2Proof.Machine.execRecircEligible frame s
  | .replicatorExpand pipe => Sys2Proof.Machine.execReplicatorExpand pipe s
  | .fetchReturn space key => Sys2Proof.Machine.execFetchReturn space key s
  | .reEntry frame => Sys2Proof.Machine.execReEntry frame s
  | .parkLimit space key => Sys2Proof.Machine.execParkLimit space key s
  | .transmitOpportunity port stream => Sys2Proof.Machine.execTransmitOpportunity port stream s
  | .egressPassStart copy => Sys2Proof.Machine.execEgressPassStart copy s
  | .macPresent copy => Sys2Proof.Machine.execMacPresent copy s
  | .transmitComplete port stream => Sys2Proof.Machine.execTransmitComplete port stream s
  | .calendarSlot port => Sys2Proof.Machine.execCalendarSlot port s
  | .policerRefill => Sys2Proof.Machine.execPolicerRefill s
  | .bucketRefill port => Sys2Proof.Machine.execBucketRefill port s
  | .gateEntryEnd port => Sys2Proof.Machine.execGateEntryEnd port s
  | .gateChange port => Sys2Proof.Machine.execGateChange port s
  | .pfcReceive port bytes => Sys2Proof.Machine.execPfcReceive port bytes s
  | .pauseExpiry port cls => Sys2Proof.Machine.execPauseExpiry port cls s
  | .pfcRefresh port => Sys2Proof.Machine.execPfcRefresh port s
  | .watchdogTrip port cls => Sys2Proof.Machine.execWatchdogTrip port cls s
  | .watchdogDisarm port cls => Sys2Proof.Machine.execWatchdogDisarm port cls s
  | .flushComplete port => Sys2Proof.Machine.execFlushComplete port s
  | .bringUpAttempt port fallback => Sys2Proof.Machine.execBringUpAttempt port fallback s
  | .attemptEnd port good lanes => Sys2Proof.Machine.execAttemptEnd port good lanes s
  | .retry port => Sys2Proof.Machine.execRetry port s
  | .lossOfSignal lane => Sys2Proof.Machine.execLossOfSignal lane s
  | .lossOfLock lane => Sys2Proof.Machine.execLossOfLock lane s
  | .signalReturn lane => Sys2Proof.Machine.execSignalReturn lane s
  | .faultOrderedSet port fault aligned => Sys2Proof.Machine.execFaultOrderedSet port fault aligned s
  | .helloSend port => Sys2Proof.Machine.execHelloSend port s
  | .hello port bytes => Sys2Proof.Machine.execHello port bytes s
  | .helloExpiry port => Sys2Proof.Machine.execHelloExpiry port s
  | .sleepEntry port => Sys2Proof.Machine.execSleepEntry port s
  | .sleep_ port bytes => Sys2Proof.Machine.execSleep port bytes s
  | .txWake port => Sys2Proof.Machine.execTxWake port s
  | .txAwake port => Sys2Proof.Machine.execTxAwake port s
  | .laneRefresh port => Sys2Proof.Machine.execLaneRefresh port s
  | .rxNoReturn port => Sys2Proof.Machine.execRxNoReturn port s
  | .verifySend port => Sys2Proof.Machine.execVerifySend port s
  | .verifyFail port => Sys2Proof.Machine.execVerifyFail port s
  | .memberExcluded group n => Sys2Proof.Machine.execMemberExcluded group n s
  | .memberReadmitted group n => Sys2Proof.Machine.execMemberReadmitted group n s
  | .gapTimer ctx => Sys2Proof.Machine.execGapTimer ctx s
  | .twinReset ctx => Sys2Proof.Machine.execTwinReset ctx s
  | .lathFrameReceive span lane phase words uncorr => Sys2Proof.Machine.execLathFrameReceive span lane phase words uncorr s
  | .containerAssemble span => Sys2Proof.Machine.execContainerAssemble span s
  | .containerSend span stuffs => Sys2Proof.Machine.execContainerSend span stuffs s
  | .sfPeriod span => Sys2Proof.Machine.execSfPeriod span s
  | .sdPeriod span => Sys2Proof.Machine.execSdPeriod span s
  | .lof span lane => Sys2Proof.Machine.execLof span lane s
  | .wtr span => Sys2Proof.Machine.execWtr span s
  | .tick => Sys2Proof.Machine.execTick s
  | .coatCurrent => Sys2Proof.Machine.execCoatCurrent s
  | .coatRetired slot => Sys2Proof.Machine.execCoatRetired slot s
  | .verifyComplete => Sys2Proof.Machine.execVerifyComplete s
  | .settled => Sys2Proof.Machine.execSettled s
  | .egenWaitExpiry => Sys2Proof.Machine.execEgenWaitExpiry s
  | .stepWordReload inst station addr poison => Sys2Proof.Machine.execStepWordReload inst station addr poison s
  | .tableWordRewrite num inst word poison => Sys2Proof.Machine.execTableWordRewrite num inst word poison s
  | .quoteActive qid => Sys2Proof.Machine.execQuoteActive qid s
  | .releaseWait qid => Sys2Proof.Machine.execReleaseWait qid s
  | .timeTrigger => Sys2Proof.Machine.execTimeTrigger s
  | .tioEdge pin => Sys2Proof.Machine.execTioEdge pin s
  | .tioCapture pin rising => Sys2Proof.Machine.execTioCapture pin rising s
  | .ppsOut => Sys2Proof.Machine.execPpsOut s
  | .ppsIn => Sys2Proof.Machine.execPpsIn s
  | .alarm => Sys2Proof.Machine.execAlarm s
  | .trefLost => Sys2Proof.Machine.execTrefLost s
  | .servoOffset value => Sys2Proof.Machine.execServoOffset value s
  | .pdelayReqSend => Sys2Proof.Machine.execPdelayReqSend s
  | .holdover => Sys2Proof.Machine.execHoldover s
  | .aonMeasure count => Sys2Proof.Machine.execAonMeasure count s
  | .puntArrival pipe => Sys2Proof.Machine.execPuntArrival pipe s
  | .dispatch engine thread => Sys2Proof.Machine.execDispatch engine thread s
  | .frameCopyDone engine thread => Sys2Proof.Machine.execFrameCopyDone engine thread s
  | .pushReady => Sys2Proof.Machine.execPushReady s
  | .preemption engine thread => Sys2Proof.Machine.execPreemption engine thread s
  | .contextSaveDone engine thread => Sys2Proof.Machine.execContextSaveDone engine thread s
  | .timerDue => Sys2Proof.Machine.execTimerDue s
  | .tickTask n => Sys2Proof.Machine.execTickTask n s
  | .pullAge level => Sys2Proof.Machine.execPullAge level s
  | .budget engine thread => Sys2Proof.Machine.execBudget engine thread s
  | .sanderVisit handle => Sys2Proof.Machine.execSanderVisit handle s
  | .walkEnd => Sys2Proof.Machine.execWalkEnd s
  | .writeBackPeriod => Sys2Proof.Machine.execWriteBackPeriod s
  | .writeBackComplete handle => Sys2Proof.Machine.execWriteBackComplete handle s
  | .tuneInterval => Sys2Proof.Machine.execTuneInterval s
  | .absentExpiry space key => Sys2Proof.Machine.execAbsentExpiry space key s
  | .learnWindowExpiry space key => Sys2Proof.Machine.execLearnWindowExpiry space key s
  | .commandOpportunity channel pc busy => Sys2Proof.Machine.execCommandOpportunity channel pc busy s
  | .requestComplete channel id corrected poisoned => Sys2Proof.Machine.execRequestComplete channel id corrected poisoned s
  | .dramRefresh channel bank => Sys2Proof.Machine.execDramRefresh channel bank s
  | .channelFailed channel => Sys2Proof.Machine.execChannelFailed channel s
  | .seatAbsent seat => Sys2Proof.Machine.execSeatAbsent seat s
  | .seatPresent seat link => Sys2Proof.Machine.execSeatPresent seat link s
  | .coalesceTimer seat ring => Sys2Proof.Machine.execCoalesceTimer seat ring s
  | .frameIn seat pipe => Sys2Proof.Machine.execFrameIn seat pipe s
  | .island => Sys2Proof.Machine.execIsland s
  | .holdoffExpiry src code => Sys2Proof.Machine.execHoldoffExpiry src code s
  | .ueData at_ => Sys2Proof.Machine.execUeData at_ s
  | .domainFault kind inst arg transit frames => Sys2Proof.Machine.execDomainFault kind inst arg transit frames s
  | .domainRestarted kind inst => Sys2Proof.Machine.execDomainRestarted kind inst s
  | .safeStop => Sys2Proof.Machine.execSafeStop s
  | .stopHoldExpiry => Sys2Proof.Machine.execStopHoldExpiry s
  | .transitionComplete => Sys2Proof.Machine.execTransitionComplete s
  | .drainTimeout => Sys2Proof.Machine.execDrainTimeout s
  | .shedEnter level vcore => Sys2Proof.Machine.execShedEnter level vcore s
  | .shedLeave vcore => Sys2Proof.Machine.execShedLeave vcore s
  | .supply rail mv deep => Sys2Proof.Machine.execSupply rail mv deep s
  | .brownOut => Sys2Proof.Machine.execBrownOut s
  | .thermal sensor temp => Sys2Proof.Machine.execThermal sensor temp s
  | .thermtripN sensor temp => Sys2Proof.Machine.execThermtripN sensor temp s
  | .clock which lost => Sys2Proof.Machine.execClock which lost s
  | .resetN => Sys2Proof.Machine.execResetN s
  | .wake src => Sys2Proof.Machine.execWake src s
  | .startUp straps kept bad0 bad1 => Sys2Proof.Machine.execStartUp straps kept bad0 bad1 s
  | .tileCalibrated tile => Sys2Proof.Machine.execTileCalibrated tile s
  | .alive => Sys2Proof.Machine.execAlive s
  | .hbToggle => Sys2Proof.Machine.execHbToggle s
  | .counterTick => Sys2Proof.Machine.execCounterTick s
  | .exportWalk space => Sys2Proof.Machine.execExportWalk space s
  | .quoteExport => Sys2Proof.Machine.execQuoteExport s
  | .counterExport => Sys2Proof.Machine.execCounterExport s
  | .templateSend => Sys2Proof.Machine.execTemplateSend s
  | .flushTimer template => Sys2Proof.Machine.execFlushTimer template s
  | .frameSample pipe => Sys2Proof.Machine.execFrameSample pipe s
  | .rxAwake port => Sys2Proof.Machine.execRxAwake port s
  | .verifyAnswered port => Sys2Proof.Machine.execVerifyAnswered port s
  | .coefficientRequest lane coef up => Sys2Proof.Machine.execCoefficientRequest lane coef up s
  | .pdelayReq port bytes => Sys2Proof.Machine.execPdelayReq port bytes s
  | .ppsLost => Sys2Proof.Machine.execPpsLost s
  | .selfRefreshIdle stack => Sys2Proof.Machine.execSelfRefreshIdle stack s
  | .scafIdle engine => Sys2Proof.Machine.execScafIdle engine s
  | .flashDone err => Sys2Proof.Machine.execFlashDone err s
  | .swatchCheckEnd => Sys2Proof.Machine.execSwatchCheckEnd s
  | .walkRead space => Sys2Proof.Machine.execWalkRead space s

end Sys2Proof.Machine
end

