-- ==== Sys2Proof/Machine/Jtag.lean ====
section
/-! DEFINITION. The test access port (R532): the controller of IEEE 1149.1, IDCODE and BYPASS, and what acts only with TESTMODE = 1. The
table has no command for its pins (assumption log, entry 60). -/

namespace Sys2Proof.Machine

/-- The controller's next state at a rising edge of TCK (IEEE 1149.1). -/
def Tap.next (t : Tap) (tms : Bool) : Tap :=
  match t, tms with
  | .reset, true => .reset
  | .reset, false => .idle
  | .idle, true => .selectDr
  | .idle, false => .idle
  | .selectDr, true => .selectIr
  | .selectDr, false => .captureDr
  | .captureDr, true => .exit1Dr
  | .captureDr, false => .shiftDr
  | .shiftDr, true => .exit1Dr
  | .shiftDr, false => .shiftDr
  | .exit1Dr, true => .updateDr
  | .exit1Dr, false => .pauseDr
  | .pauseDr, true => .exit2Dr
  | .pauseDr, false => .pauseDr
  | .exit2Dr, true => .updateDr
  | .exit2Dr, false => .shiftDr
  | .updateDr, true => .selectDr
  | .updateDr, false => .idle
  | .selectIr, true => .reset
  | .selectIr, false => .captureIr
  | .captureIr, true => .exit1Ir
  | .captureIr, false => .shiftIr
  | .shiftIr, true => .exit1Ir
  | .shiftIr, false => .shiftIr
  | .exit1Ir, true => .updateIr
  | .exit1Ir, false => .pauseIr
  | .pauseIr, true => .exit2Ir
  | .pauseIr, false => .pauseIr
  | .exit2Ir, true => .updateIr
  | .exit2Ir, false => .shiftIr
  | .updateIr, true => .selectDr
  | .updateIr, false => .idle

/-- IDCODE: version 0x2, part 0x7102, manufacturer code 0x2D3, and the 1 that IEEE 1149.1 puts in bit 0. -/
def jtagIdcode : Nat := 0x2 * 2 ^ 28 + 0x7102 * 2 ^ 12 + 0x2D3 * 2 + 1

/-- An instruction by its number. -/
def JtagInstr.of (n : Nat) : JtagInstr :=
  match n with
  | 0 => .idcode
  | 2 => .extest
  | 3 => .intest
  | 4 => .acTest
  | _ => .bypass

/-- Whether the part runs manufacturing test: the strap TESTMODE as sampled (R484). -/
def Device.testMode (d : Device) : Bool := d.flag Off.pwrStrap 8

/-- Whether an instruction acts: IDCODE and BYPASS at any time, the others only with TESTMODE = 1. -/
def Device.jtagActs (d : Device) (i : JtagInstr) : Bool :=
  match i with
  | .idcode | .bypass => true
  | .extest | .intest | .acTest => d.testMode

/-- The data register that an instruction puts between TDI and TDO, as captured: IDCODE's 32 bits, least significant first, or the one
0 of BYPASS. The boundary register of the others is not described; one that does not act is in BYPASS (DEDUCED, entry 60). -/
def jtagCapture (i : JtagInstr) : List Bool :=
  match i with
  | .idcode => (List.range 32).map (jtagIdcode.testBit ·)
  | .bypass | .extest | .intest | .acTest => [false]

/-- A rising edge of TCK with TMS and TDI: the bit on TDO, and the controller afterwards. -/
def Device.jtagClock (d : Device) (tms tdi : Bool) : Device × Bool :=
  let j := d.jtag
  let tdo := j.shift.head?.getD false
  let j' : Jtag := match j.tap with
    | .captureDr => { j with shift := jtagCapture j.instr }
    | .captureIr => { j with shift := [true, false] }
    | .shiftDr | .shiftIr => { j with shift := j.shift.drop 1 ++ [tdi] }
    | .updateIr => { j with instr := JtagInstr.of (Config.jtagCode j.shift) }
    | .reset => { j with instr := .idcode }
    | _ => j
  ({ d with jtag := { j' with tap := j.tap.next tms } }, tdo)

/-- Rising edges of TCK one after another, TMS and TDI at each: the block afterwards, and the bits on TDO. -/
def Device.jtagClocks (d : Device) : List (Bool × Bool) → Device × List Bool
  | [] => (d, [])
  | (tms, tdi) :: rest =>
    let (d, out) := d.jtagClock tms tdi
    let (d, outs) := d.jtagClocks rest
    (d, out :: outs)

/-- TRST_N low puts the controller into Test-Logic-Reset, with IDCODE in force. -/
def Device.jtagReset (d : Device) : Device := { d with jtag := ⟨.reset, .idcode, []⟩ }

end Sys2Proof.Machine
end

