-- ==== Sys2Proof/Machine/Micro.lean ====
section
/-! DEFINITION. The microcode of the scaffold's engines (R390 to R395): microwords and their two formats, micro-registers, micro-flags,
conditions, the micro-stack, and the sequencer. The content of the ROM is no part of the spec: the instruction commands run the
routine of an instruction as a whole, and no command of the table runs one microword (assumption log, entry 59). -/

namespace Sys2Proof.Machine

/-! ### Microwords (R391) -/

/-- The micro-operations of format U. -/
inductive UOp where
  | uadd | usub | uand | uor | uxor | ushl | ushr | usar | umov | uldi | ucmp | uiwf | uld | ust | uldd | ustd
  | ulook | uflow | uedit | udisp | utime | uspec | ublk
deriving DecidableEq, Repr

/-- The micro-operations of format B. -/
inductive BOp where
  | jump | ucall | uret | waitc | eoi | exc | sample
deriving DecidableEq, Repr

/-- The conditions. -/
inductive MicroCond where
  | always | zSet | zClear | cSet | cClear | nSet | nClear | sramDone | heapDone | flowDone | unitDone | commandDone | interrupt
deriving DecidableEq, Repr

/-- A microword of either format. -/
inductive MicroWord where
  | u (op : UOp) (wait : Bool) (dst srcA srcB sel : Nat)
  | b (op : BOp) (wait : Bool) (cond : MicroCond) (target arg : Nat)
deriving DecidableEq, Repr

def UOp.of (n : Nat) : Option UOp :=
  [UOp.uadd, .usub, .uand, .uor, .uxor, .ushl, .ushr, .usar, .umov, .uldi, .ucmp, .uiwf, .uld, .ust, .uldd, .ustd,
    .ulook, .uflow, .uedit, .udisp, .utime, .uspec, .ublk][n]?

def BOp.of (n : Nat) : Option BOp := [BOp.jump, .ucall, .uret, .waitc, .eoi, .exc, .sample][n]?

def MicroCond.of (n : Nat) : Option MicroCond :=
  [MicroCond.always, .zSet, .zClear, .cSet, .cClear, .nSet, .nClear, .sramDone, .heapDone, .flowDone, .unitDone, .commandDone,
    .interrupt][n]?

/-- Whether a number names a micro-register. -/
def microReg (n : Nat) : Bool := decide (n ≤ 0x53)

/-- A microword read from its 32 bits; none for a reserved operation, condition or micro-register, and for WAITC with T = 0. -/
def decodeMicro (w : Nat) : Option MicroWord :=
  let op := bits w 31 27
  if op < 0x18 then
    let dst := bits w 25 19
    let a := bits w 18 12
    let b := bits w 11 5
    if microReg dst && microReg a && microReg b then (UOp.of op).map fun o => .u o (bit w 26) dst a b (w % 32) else none
  else match BOp.of (op - 0x18), MicroCond.of (bits w 25 22) with
    | some o, some c => if o == .waitc && !bit w 26 then none else some (.b o (bit w 26) c (bits w 21 7) (w % 128))
    | _, _ => none

/-! ### Micro-registers and flags -/

def Micro.idle : Micro := { upc := none, temps := Vector.replicate 16 0, z := false, c := false, n := false, stack := [] }

/-- A micro-register: a register of R34, a temporary, sp, pc, pr, or the instruction word. -/
def microGet (r : Regs) (m : Micro) (iw n : Nat) : DWord :=
  if n < 0x40 then r.get (BitVec.ofNat 6 n)
  else if n < 0x50 then m.temps[n - 0x40]?.getD 0
  else if n = 0x50 then r.sp
  else if n = 0x51 then r.pc
  else if n = 0x52 then r.pr
  else BitVec.ofNat 64 iw

/-- A micro-register written; the instruction word is read-only. -/
def microSet (r : Regs) (m : Micro) (n : Nat) (x : DWord) : Regs × Micro :=
  if n < 0x40 then (r.set (BitVec.ofNat 6 n) x, m)
  else if n < 0x50 then (r, { m with temps := m.temps.setIfInBounds (n - 0x40) x })
  else if n = 0x50 then ({ r with sp := x }, m)
  else if n = 0x51 then ({ r with pc := x }, m)
  else if n = 0x52 then ({ r with pr := x }, m)
  else (r, m)

/-- The result of one of the eight operations that set the micro-flags, with its number; a shift by 64 or more is open. -/
def microAlu (op : UOp) (a b : DWord) : DWord :=
  let n := b.toNat
  match op with
  | .uadd => a + b
  | .usub => a - b
  | .uand => a &&& b
  | .uor => a ||| b
  | .uxor => a ^^^ b
  | .ushl => if n < 64 then a <<< n else Config.microWide 5 a b
  | .ushr => if n < 64 then a >>> n else Config.microWide 6 a b
  | .usar => if n < 64 then a.sshiftRight n else Config.microWide 7 a b
  | _ => a - b

/-- The micro-flags of an operation: Z and N from its result; C is the carry of UADD, and open for the others. -/
def microFlags (m : Micro) (op : UOp) (a b : DWord) : Micro :=
  let x := microAlu op a b
  let c := match op with
    | .uadd => decide (2 ^ 64 ≤ a.toNat + b.toNat)
    | .usub => Config.microCarry 1 a b
    | .uand => Config.microCarry 2 a b
    | .uor => Config.microCarry 3 a b
    | .uxor => Config.microCarry 4 a b
    | .ushl => Config.microCarry 5 a b
    | .ushr => Config.microCarry 6 a b
    | .usar => Config.microCarry 7 a b
    | _ => Config.microCarry 10 a b
  { m with z := x == 0, n := x.getLsbD 63, c := c }

/-- What the conditions ask of the thread: which of its accesses, lookups, flow operations, block unit and command are done, and its
interrupt. -/
structure MicroEnv where
  sramDone : Bool
  heapDone : Bool
  flowDone : Bool
  unitDone : Bool
  commandDone : Bool
  interrupt : Bool
deriving DecidableEq, Repr

def MicroCond.holds (c : MicroCond) (m : Micro) (e : MicroEnv) : Bool :=
  match c with
  | .always => true
  | .zSet => m.z
  | .zClear => !m.z
  | .cSet => m.c
  | .cClear => !m.c
  | .nSet => m.n
  | .nClear => !m.n
  | .sramDone => e.sramDone
  | .heapDone => e.heapDone
  | .flowDone => e.flowDone
  | .unitDone => e.unitDone
  | .commandDone => e.commandDone
  | .interrupt => e.interrupt

/-! ### One microword -/

/-- What a microword does: the thread goes on with new registers, reads or writes memory, issues what its instruction word describes,
waits, ends its instruction (with the pc on the next word or unchanged), takes an exception, or overflows the micro-stack. -/
inductive MicroOut where
  | go (r : Regs) (m : Micro)
  | load (a n dst : Nat)
  | store (a n : Nat) (x : DWord)
  | issue (op : UOp) (sel : Nat)
  | wait
  | endInstr (advance : Bool)
  | exception (code : Nat)
  | overflow
deriving DecidableEq, Repr

/-- The next micro-address. -/
def Micro.next (m : Micro) : Micro := { m with upc := m.upc.map (· + 1) }

/-- A microword of format U; `tb` gives a part of a time base. -/
def microU (tb : Nat → Nat → Nat) (iw : Nat) (r : Regs) (m : Micro) (op : UOp) (dst srcA srcB sel : Nat) : MicroOut :=
  let a := microGet r m iw srcA
  let b := microGet r m iw srcB
  let put (m : Micro) (x : DWord) : MicroOut :=
    let (r, m) := microSet r m dst x
    .go r m.next
  match op with
  | .uadd | .usub | .uand | .uor | .uxor | .ushl | .ushr | .usar => put (microFlags m op a b) (microAlu op a b)
  | .umov => put m a
  | .uldi => put m (BitVec.ofNat 64 sel)
  | .ucmp => .go r (microFlags m .ucmp a b).next
  | .uiwf => put m (Config.microField sel (BitVec.ofNat 64 iw))
  | .uld | .uldd => .load a.toNat (2 ^ (sel % 4)) dst
  | .ust | .ustd => .store a.toNat (2 ^ (sel % 4)) b
  | .utime => put m (BitVec.ofNat 64 (tb (sel % 8) (sel / 8 % 4)))
  | .ulook | .uflow | .uedit | .udisp | .uspec | .ublk => .issue op sel

/-- A microword of format B: with T = 1 it waits until its condition holds; with T = 0 it acts only if the condition holds. -/
def microB (e : MicroEnv) (r : Regs) (m : Micro) (op : BOp) (wait : Bool) (cond : MicroCond) (target arg : Nat) : MicroOut :=
  if !cond.holds m e then (if wait then .wait else .go r m.next)
  else match op with
  | .jump => .go r { m with upc := some target }
  | .ucall => if 8 ≤ m.stack.length then .overflow
    else .go r { m with stack := (m.upc.getD 0 + 1) :: m.stack, upc := some target }
  | .uret => match m.stack with
    | [] => .overflow
    | u :: rest => .go r { m with stack := rest, upc := some u }
  | .waitc => .go r m.next
  | .eoi => .endInstr (!bit arg 0)
  | .exc => .exception (arg % 16)
  | .sample => if e.interrupt then .endInstr false else .go r m.next

/-! ### The sequencer (R390, R392, R393, R395) -/

def Device.micro (d : Device) (k : Nat) : Micro := (NMap.get? d.scaf.micro k).getD Micro.idle

def Device.setMicro (d : Device) (k : Nat) (m : Micro) : Device := d.modScaf fun s => { s with micro := NMap.set s.micro k m }

/-- The patch word that a valid match register puts in a ROM word's place. -/
def Device.patched (d : Device) (u : Nat) : Option Nat :=
  ((List.range 32).find? fun i => d.flag (Off.mcMatch i) 31 && d.fld (Off.mcMatch i) 24 11 == u).map fun i => d.fld (Off.mcMatch i) 10 0

/-- Where the sequencer fetches for a micro-address: at a ROM word that a match register names, the patch word; patch code goes on from
there until it returns to ROM with JUMP (R393). -/
def Device.microPlace (d : Device) (u : Nat) : Nat :=
  if u < 0x4000 then (match d.patched u with | some n => 0x4000 + n | none => u) else u

/-- The ROM (R390): words 0 to 255 are the entry vector, each a JUMP to the routine for its opcode; reserved opcodes have that of ILLEGAL.
Which micro-address a routine has is free. -/
def romWord (u : Nat) : Nat :=
  if u < 256 then 0x18 * 2 ^ 27 + (Config.microRom (2 ^ 15 + if fullAvailable u then u else 256)).toNat % 2 ^ 14 * 2 ^ 7
  else (Config.microRom u).toNat

/-- The microword at the place the sequencer fetches; none where the micro-address is reserved. -/
def Device.microFetch (d : Device) (u : Nat) : Option Nat :=
  if u < 0x4000 then some (romWord u)
  else if u < 0x4800 then some (d.scaf.patch[u - 0x4000]?.getD 0).toNat
  else none

/-- The exception a code names (R76, R388). -/
def Exc.ofCode (n : Nat) : Option Exc := [Exc.illegal, .register, .align, .address, .stack, .partition, .target, .budget].find? (·.code == n)

/-- The engine faults on a micro-stack overflow and on a fetch from a reserved address (R395). -/
def Device.engineFault (d : Device) (e u : Nat) : Device := d.domainFault 7 e u false []

/-- Applying a microword's outcome. The model's memory accesses, lookups and commands are complete at once. -/
def Device.microApply (d : Device) (e t id : Nat) (x : Task) (m : Micro) (o : MicroOut) : Device :=
  let k := thrKey e t
  match o with
  | .go r m => (d.modTask id fun y => { y with regs := r }).setMicro k m
  | .load a n dst =>
    match d.memCheck id (decide (heapStart ≤ a)) false a n with
    | some (.exc c b) => d.taskException e t id x c b
    | some (.lost b) => (d.heapUe b).taskLost e id b
    | _ =>
      let (r, m) := microSet x.regs m dst (BitVec.ofNat 64 (leNat (d.memRead a n)))
      ((d.heapTraffic e a n false).modTask id fun y => { y with regs := r }).setMicro k m.next
  | .store a n v =>
    match d.memCheck id (decide (heapStart ≤ a)) true a n with
    | some (.exc c b) => d.taskException e t id x c b
    | some (.lost b) => (d.heapUe b).taskLost e id b
    | _ => ((d.heapTraffic e a n true).memWrite a (bytesLE n v.toNat)).setMicro k m.next
  | .issue _ _ => d.setMicro k m.next
  | .wait => d
  | .endInstr adv =>
    let d := d.setMicro k { m with upc := none, stack := [] }
    if adv then d.thrDone e t id (x.regs.pc.toNat + 1) x else d.boundary e t id
  | .exception c => match Exc.ofCode c with
    | some c => d.taskException e t id x c 0
    | none => d
  | .overflow => d.engineFault e (m.upc.getD 0)

/-- One step of the sequencer for a thread. At an instruction boundary it evaluates PS and PI, and enters the routine of the opcode
through the entry vector or passes the instruction over; within a routine it executes one microword. -/
def Device.microStep (d : Device) (e t : Nat) : Device :=
  let k := thrKey e t
  let th := d.thr k
  let m := d.micro k
  match th.state, th.task.bind fun i => (d.task i).map fun x => (i, x) with
  | .running, some (id, x) =>
    let iw := d.codeWord x.bank x.regs.pc.toNat
    if th.bound || !d.domainOk 7 e then d
    else match m.upc with
      | none =>
        if x.regs.executes (wordPred iw) then d.setMicro k { m with upc := some (bits iw 63 56), stack := [] }
        else d.thrDone e t id (x.regs.pc.toNat + 1) x
      | some u =>
        let u := d.microPlace u
        let m := { m with upc := some u }
        match d.microFetch u with
        | none => d.engineFault e u
        | some w => match decodeMicro w with
          | none => d
          | some (.u op _ dst a b sel) =>
            d.microApply e t id x m (microU (fun n p => timePart (d.tbNow n) p) iw x.regs m op dst a b sel)
          | some (.b op wait cond target arg) =>
            d.microApply e t id x m
              (microB ⟨true, true, true, true, x.cmd.isNone, th.interrupt⟩ x.regs m op wait cond target arg)
  | _, _ => d

end Sys2Proof.Machine
end

