-- ==== Sys2Proof/WellFormed.lean ====
section
/-! DEFINITION. Which commands are well formed: what an operand's type does not already say about it. -/

namespace Sys2Proof

/-- A host command entry: its 48 PARAM bytes, and as many buffer bytes as its LEN says where the device can read them (R413). -/
def CmdEntry.wf (c : CmdEntry) : Bool := c.param.length == 48 && (!c.dmaOk || c.buf.length == c.len.toNat)

/-- A flow key has 1 to 48 bytes (R152). -/
def keyWf (key : List Byte) : Bool := decide (1 ≤ key.length ∧ key.length ≤ 48)

def DamagedWord.wf : DamagedWord → Bool
  | .cell _ _ | .page _ _ => true
  | .entry key mask => keyWf key && mask.length == key.length
  | .prefix_ key plen coats | .node key plen coats => keyWf key && decide (plen ≤ 8 * key.length) && !coats.isEmpty

def UeWhere.wf : UeWhere → Bool
  | .table _ _ word => word.wf
  | .lodge space key => decide (space < 16) && keyWf key
  | _ => true

/-- A command that the outside world or the block can send. -/
def Instr.wf : Instr → Bool
  | .flowInsert c | .flowUpdate c | .flowRemove c | .flowRead c | .flowPin c | .shadowRewrite c | .tableWrite c | .tableRead c
  | .coatStage c | .coatCommit c | .coatAbandon c | .quoteRequest c | .quoteRelease c | .quoteQuery c | .perfSnapshot c
  | .swatchSelect c | .powerRequest c | .frameSend c | .leaseQuery c | .barrier c => c.wf
  | .recoveryWrite q data _ => data.length == q.len.toNat
  | .frameReceive _ bytes _ => !bytes.isEmpty
  | .lathFrameReceive _ lane _ words _ => decide (lane < 16) && words.length == 2570
  | .lof _ lane => decide (lane < 16)
  | .attemptEnd _ _ lanes => lanes.all fun l => decide (l < 512)
  | .fetchReturn _ key | .parkLimit _ key | .absentExpiry _ key | .learnWindowExpiry _ key => keyWf key
  | .tableWordRewrite _ _ word _ => word.wf
  | .ueData at_ => at_.wf
  | .startUp _ _ bad0 bad1 => (bad0 ++ bad1).all fun c => decide (c < 32)
  | _ => true

end Sys2Proof
end

