-- ==== Sys2Proof/Safety.lean ====
section
/-! DEFINITION. What counts as a sound state: memories and maps in the one form they have; and the words that statements about commands
use. -/

namespace Sys2Proof.Machine

/-- The register file and the byte memories are in canonical form: addresses rising, nothing listed that reads so anyway. -/
def Device.canonical (d : Device) : Bool :=
  DMap.wf regReset d.regs && Mem.wf 0 d.scaf.sram && Mem.wf 0 d.rstore.bytes && Mem.wf 0xFF d.pwr.flash &&
    d.seats.all fun p => Mem.wf 0 p.2.hostMem

/-- Every map is listed by rising keys. -/
def Device.sorted (d : Device) : Bool :=
  NMap.sortedFrom 0 d.seats && NMap.sortedFrom 0 d.coats.slots && NMap.sortedFrom 0 d.coats.egress && NMap.sortedFrom 0 d.pipes.q &&
    NMap.sortedFrom 0 d.ctxs && NMap.sortedFrom 0 d.ectxs && NMap.sortedFrom 0 d.buf.frames && NMap.sortedFrom 0 d.buf.copies &&
    NMap.sortedFrom 0 d.buf.voqs && NMap.sortedFrom 0 d.ports && NMap.sortedFrom 0 d.scheds && NMap.sortedFrom 0 d.quotes &&
    NMap.sortedFrom 0 d.flow.render && NMap.sortedFrom 0 d.flow.skim && NMap.sortedFrom 0 d.scaf.tasks &&
    NMap.sortedFrom 0 d.scaf.threads && NMap.sortedFrom 0 d.spans && NMap.sortedFrom 0 d.plumb.tbs && NMap.sortedFrom 0 d.rstore.chans

/-- A state is sound: canonical memories, sorted maps, and well-formed commands waiting. -/
def State.sound (s : State) : Bool := s.dev.canonical && s.dev.sorted && s.pending.all Instr.wf

/-! ### What statements say of a command -/

/-- The command answers a next state, with the same commands waiting and the block as `P` says. -/
def Runs (c : Instr) (d : Device) (w : List Instr) (P : Device → Prop) : Prop := ∃ t, exec c ⟨d, w⟩ = .next ⟨t, w⟩ ∧ P t

/-- A seat's write reaches a register and the seat has the privilege to write it (R405, R459). -/
def Device.mayReach (d : Device) (s off : Nat) : Bool := d.reaches s off && d.mayWrite s off

/-- A register whose fields that software sets are all Live RW. -/
def plainRw (r : RegDef) : Bool := r.fields.all fun f => match f.acc with | .rw => f.chg == .live | .rw1c => false | _ => true

/-- A register whose read does nothing beside what its fields say, and whose value no free value fills. -/
def plainRead (off : Nat) : Bool :=
  (perfCounterOf off).isNone && (instOf (Off.perfOvf 0) 4 8 off).isNone && (instOf (Off.plumbTioCapLo 0) 0x20 16 off).isNone &&
    (instOf (Off.plumbTbSecLo 0) 0x40 8 off).isNone && (instOf (Off.hawkLogW 0 0) 0x20 256 off).isNone &&
    (instOf (Off.plumbTioCtl 0) 0x20 16 off).isNone && off != Off.devWhoami && off != Off.devScratch && off != Off.pwrAon &&
    (thrOf (Off.scafThrUpc 0 0) off).isNone

/-- The fields of a register after a write of `v` (R8, R11): an RW field takes its bits unless they are reserved, and every other
field stays. -/
def fieldsTaken (r : RegDef) (off v old new : Nat) : Bool :=
  r.fields.all fun f => bits new f.hi f.lo ==
    (if f.acc == .rw && f.takes off (bits v f.hi f.lo) then bits v f.hi f.lo else bits old f.hi f.lo)

/-- A command at the head of a ring can be taken and is spelt as its OP asks (R408, R409, R413). -/
def Device.commandReady (d : Device) (c : CmdEntry) (op flagBits : Nat) (used : List (Nat × Nat)) (need : Nat) : Bool :=
  d.canTake c.seat c.ring op && cmdWellSpelt c flagBits used need && (c.dmaOk || c.len.toNat == 0)

/-- No timed action that R359 places before place `n` is due. -/
def Device.noneDueBefore (d : Device) (n : Nat) : Bool :=
  (decide (n ≤ 2) || !d.coatTime) && (decide (n ≤ 3) || d.gatesDue.isEmpty) && (decide (n ≤ 4) || d.snapsDue.isEmpty) &&
    (decide (n ≤ 5) || !d.switchTime) && (decide (n ≤ 6) || (d.pinsDue.isEmpty && !d.ppsDue))

/-- No BARRIER waits in any ring. -/
def Device.noBarrier (d : Device) : Bool :=
  (List.range 16).all fun i => ((d.seat (i / 8)).cring (i % 8)).out.all fun o => o.op != 0x14

/-- One more command of the ring has completed, and the ring holds none. -/
def ringDone (d t : Device) (s r : Nat) : Bool :=
  ((t.seat s).cring r).done == ((d.seat s).cring r).done + 1 && ((t.seat s).cring r).out.isNone

/-- The ring holds a command until an event completes it; no more of its commands have completed. -/
def ringHolds (d t : Device) (s r : Nat) (o : OutCmd) : Bool :=
  ((t.seat s).cring r).done == ((d.seat s).cring r).done && ((t.seat s).cring r).out == some o

/-- The context of a line executor with an instruction of its step word issued (R32, R49, R84). -/
def Device.issues (d : Device) (who : Who) (q : Pred) (op enc : Nat) : Option Ctx := (d.lineCtx who).bind fun x => d.issue x q op enc

/-- A context with results on their way, visible `lat` stations on (R53). -/
def Ctx.sends (x : Ctx) (lat : Nat) (ws : List Wr) : Ctx := { x with pend := x.pend ++ ws.map fun w => (x.station + lat, w) }

/-- A context with the results that become visible after its station written, in the order of the stations (R46). -/
def Ctx.settleRest (x : Ctx) : Ctx :=
  ((List.range 33).filter fun s => decide (x.station < s)).foldl (fun x s => x.settleAt s) x

/-- No flow lookup of the context is still to return. -/
def Ctx.noFlowDue (x : Ctx) : Bool := x.pend.all fun p => match p.2 with | .lkf _ _ _ => false | _ => true

/-- The sources of an ALU instruction in line form, 32 bits wide (R35, R57). -/
def aluA (r : Regs) (f : FmtA) : Word := (r.get f.ra).truncate 32
def aluB (r : Regs) (f : FmtA) : Word := if f.i then f.imm else (r.get f.rb).truncate 32

/-- An instruction of format A names registers of line form, and no destination among m0 to m6 (R34, R36). -/
def lineRegs (f : FmtA) : Bool := !isS f.rd && !isS f.ra && (f.i || !isS f.rb) && destOk f.rd

/-- The task of a running thread that stands at an instruction word of its code bank and has run within its budget: nothing stops it
(R76, R388, R390). -/
def Device.threadOn (d : Device) (e t word : Nat) : Option (Nat × Task) :=
  let th := d.thr (thrKey e t)
  match th.task.bind fun i => (d.task i).map fun x => (i, x) with
  | none => none
  | some (id, x) =>
    if th.state == .running && !th.bound && !th.spent && x.cmd.isNone && d.domainOk 7 e && d.scafRuns && d.regionOk x x.regs.pc.toNat &&
        d.codeWord x.bank x.regs.pc.toNat == word then some (id, x) else none

/-- The same where the instruction executes and no check of its word fails (R48, R49). -/
def Device.threadAt (d : Device) (e t : Nat) (q : Pred) (op enc : Nat) : Option (Nat × Task) :=
  (d.threadOn e t (instWord q op enc)).bind fun p => if p.2.regs.executes q && (fullErr op enc).isNone then some p else none

/-- The registers of a task after an instruction that has completed with registers `r`: the pc on the next word (R73). -/
def Task.nextRegs (x : Task) (r : Regs) : Regs := { r with pc := BitVec.ofNat 64 (x.regs.pc.toNat + 1) }

/-- A task has the registers `r`. -/
def Device.taskRegs (d : Device) (id : Nat) (r : Regs) : Prop := (d.task id).map (fun y => y.regs) = some r

/-- A thread took an exception: code, task and pc stand in its registers, and the task has ended (R76). -/
def Device.took (t : Device) (e k id : Nat) (x : Task) (c : Exc) : Bool :=
  t.reg (Off.scafThrExc e k) == (2 ^ 31 + c.code * 2 ^ 16 + id) % 2 ^ 32 && t.reg (Off.scafThrEpc e k) == x.regs.pc.toNat % 2 ^ 18 &&
    (t.task id).isNone

/-- The bytes of an answer of the recovery loader (R427). -/
def recoveryBytes (op status done crc : Nat) (data : List Byte) : List Byte :=
  bytesLE 2 0x4447 ++ bytesLE 1 op ++ bytesLE 1 status ++ bytesLE 4 done ++ bytesLE 4 crc ++ bytesLE 4 0 ++ data

/-- The image that a command's buffer holds. -/
def cmdImage (c : CmdEntry) (n : Nat) : List Byte := fitB n c.buf

/-! ### What commands leave as it was -/

/-- Every byte of a memory outside the `n` bytes at `lo` reads as before. -/
def memKept (dflt : Byte) (m m' : Mem) (lo n : Nat) : Prop := ∀ a, (a < lo ∨ lo + n ≤ a) → Mem.read dflt m' a = Mem.read dflt m a

/-- Every byte of the scaffold SRAM, of the render store, of the flash and of host memory reads as before. -/
def Device.memoryKept (d t : Device) : Prop :=
  memKept 0 d.scaf.sram t.scaf.sram 0 0 ∧ memKept 0 d.rstore.bytes t.rstore.bytes 0 0 ∧ memKept 0xFF d.pwr.flash t.pwr.flash 0 0 ∧
    ∀ s, memKept 0 (d.seat s).hostMem (t.seat s).hostMem 0 0

/-- Every register but those that `mine` picks reads as before. -/
def Device.regsKept (d t : Device) (mine : Nat → Bool) : Prop := ∀ o, mine o = false → t.reg o = d.reg o

/-- The registers of the lanes and the ports. -/
def linkReg (o : Nat) : Bool := decide (Off.laneCtl 0 ≤ o ∧ o < Off.portCfg 512)

/-- Every 64-byte unit of a region, counted from its start or, for a copy in descending order, from its end, can be read or written. -/
def Device.unitsGood (d : Device) (id : Nat) (write down : Bool) (a n : Nat) : Bool :=
  (List.range ((n + 63) / 64)).all fun k =>
    let m := min 64 (n - 64 * k)
    (d.unitErr id write (a + (if down then n - 64 * k - m else 64 * k)) m).isNone

/-- Every entry of a map but that of one key is as before. -/
def keptAside {α : Type} (m m' : NMap α) (k : Nat) : Prop := ∀ j, j ≠ k → NMap.get? m' j = NMap.get? m j

/-- Every containment domain of another kind is as before. -/
def Device.domsKept (d t : Device) (kind : Nat) : Prop := ∀ k n, k ≠ kind → n < 1024 → t.dom k n = d.dom k n

/-- Every task has the registers it had. -/
def Device.taskRegsKept (d t : Device) : Prop := ∀ i, (t.task i).map (fun x => x.regs) = (d.task i).map fun x => x.regs

/-- A line instruction that computes changes nothing but the context of its executor. -/
def Device.lineKept (d t : Device) (who : Who) : Prop :=
  match who with
  | .ing f => t = { d with ctxs := t.ctxs } ∧ keptAside d.ctxs t.ctxs f
  | .egr c => t = { d with ectxs := t.ectxs } ∧ keptAside d.ectxs t.ectxs c
  | .thr _ _ => True

/-- A thread's instruction that computes changes nothing but its task, its thread and the counts of instructions. -/
def Device.threadKept (d t : Device) (e id : Nat) : Prop :=
  t = { d with regs := t.regs, perf := t.perf, scaf := t.scaf } ∧ keptAside d.scaf.tasks t.scaf.tasks id ∧
    d.regsKept t (fun o => o == Off.scafEngInstr e) ∧ t.scaf.sram = d.scaf.sram

/-- The commands whose steps are stated to keep every memory and the register file in their one form: those that write the memories and
those whose frames are stated, a tick with no S5 about to end and PPS_OUT with no earlier action of R359 due. -/
def Device.keepsForm (d : Device) (c : Instr) : Bool :=
  match c with
  | .tick => d.pwr.s5At.all fun x => decide (d.transit + 40 < x)
  | .ppsOut => d.noneDueBefore 6
  | .st _ _ _ _ | .std _ _ _ _ | .flashDone _ | .recoveryErase _ _ | .recoveryWrite _ _ _ | .recoveryRead _ _ | .recoveryIdent _
  | .commandDoorbell _ _ _ | .noticeDoorbell _ _ _ | .quoteActive _ | .selfRefreshIdle _ | .policerRefill | .bucketRefill _
  | .watchdogDisarm _ _ | .txWake _ | .laneRefresh _ | .verifySend _ | .contextSaveDone _ _ | .absentExpiry _ _
  | .learnWindowExpiry _ _ | .dramRefresh _ _ | .coalesceTimer _ _ | .alive | .hbToggle | .scafIdle _ | .exportWalk _ | .safeStop
  | .bringUpAttempt _ _ | .retry _ | .signalReturn _ | .txAwake _ | .rxAwake _ | .coefficientRequest _ _ _ | .pauseExpiry _ _
  | .helloExpiry _ | .writeBackPeriod | .writeBackComplete _ | .commandOpportunity _ _ _ | .calendarSlot _ | .timerDue
  | .pullAge _ | .tickTask _ | .tileCalibrated _ | .holdoffExpiry _ _ | .thermal _ _ | .seatPresent _ _ => true
  | _ => false

end Sys2Proof.Machine
end

