-- ==== Sys2Proof/Certificates/Slice0/Obligations.lean ====
section
/-! DEFINITION. The statements for the provers. `Runs c d w P` says that the command c, taken with the block at d and the commands w
waiting, answers a next state with the same commands waiting and the block as P says. -/

open Sys2Proof Sys2Proof.Machine

/-- A read returns the fields that read, clears the RC fields and, of a LO half, shadows the HI half; a write by a seat with
  the privilege takes the live RW fields; a LO half is held until its HI half is written, and then both take effect; a
  broadcast to no instance sets CFG_ERR, and one to an instance without privilege counts the refusal. -/
def Obligations.RegisterAccess : Prop :=
  (∀ (seat : Fin 3) (off : BitVec 26) (v : BitVec 32) (r : RegDef) (d : Device) (w : List Instr), d.mayReach seat off.toNat =
    true → isInd off.toNat = false → off.toNat ≠ Off.devScratch → regDef? off.toNat = some r → r.half = .single → roleOf
    off.toNat = .plain → plainRw r = true → Runs (.registerWrite seat off v) d w fun t => fieldsTaken r off.toNat v.toNat
    (d.reg off.toNat) (t.reg off.toNat) = true) ∧
  (∀ (seat : Fin 3) (off : BitVec 26) (r : RegDef) (d : Device) (w : List Instr), d.reaches seat off.toNat = true → isInd
    off.toNat = false → regDef? off.toNat = some r → r.half = .single → plainRead off.toNat = true → d.shadow? seat off.toNat
    = none → d.view off.toNat = d.reg off.toNat → Runs (.rcRead seat off) d w fun t => NMap.getD t.pwr.data seat 0 = d.reg
    off.toNat &&& readMask r ∧ (r.fields.all fun f => f.acc != .rc || bits (t.reg off.toNat) f.hi f.lo == 0) = true) ∧
  (∀ (seat : Fin 3) (off : BitVec 26) (r : RegDef) (d : Device) (w : List Instr), d.reaches seat off.toNat = true → isInd
    off.toNat = false → regDef? off.toNat = some r → r.half = .lo → plainRead off.toNat = true → d.shadow? seat off.toNat =
    none → d.view off.toNat = d.reg off.toNat → d.view (off.toNat + 4) = d.reg (off.toNat + 4) → Runs (.pairLoRead seat off)
    d w fun t => NMap.getD t.pwr.data seat 0 = d.reg off.toNat &&& readMask r ∧ t.shadow? seat (off.toNat + 4) = some (d.reg
    (off.toNat + 4))) ∧
  (∀ (seat : Fin 3) (off : BitVec 26) (v : BitVec 32) (r : RegDef) (d : Device) (w : List Instr), d.mayReach seat off.toNat =
    true → isInd off.toNat = false → regDef? off.toNat = some r → r.half = .lo → Runs (.pairLoWrite seat off v) d w fun t =>
    NMap.get? (t.seat seat).heldLo off.toNat = some v.toNat ∧ t.reg off.toNat = d.reg off.toNat) ∧
  (∀ (seat : Fin 3) (off : BitVec 26) (v : BitVec 32) (lo hi : RegDef) (x : Nat) (d : Device) (w : List Instr), d.mayReach
    seat off.toNat = true → isInd off.toNat = false → regDef? off.toNat = some hi → hi.half = .hi → roleOf off.toNat = .plain
    → regDef? (off.toNat - 4) = some lo → plainRw lo = true → plainRw hi = true → NMap.get? (d.seat seat).heldLo (off.toNat -
    4) = some x → Runs (.pairHiWrite seat off v) d w fun t => fieldsTaken lo (off.toNat - 4) x (d.reg (off.toNat - 4)) (t.reg
    (off.toNat - 4)) = true ∧ fieldsTaken hi off.toNat v.toNat (d.reg off.toNat) (t.reg off.toNat) = true ∧ NMap.get? (t.seat
    seat).heldLo (off.toNat - 4) = none) ∧
  (∀ (seat : Fin 3) (v : BitVec 32) (d : Device) (w : List Instr), d.reaches seat Off.indData = true → (seat : Nat) < 2 →
    d.reg (ownOff seat Off.indCount) = 1 → d.reg (ownOff seat Off.indAddr) = Off.devScratch → Runs (.indDataWrite seat v) d w
    fun t => t.reg (ownOff seat Off.devScratch) = v.toNat ∧ t.fld (ownOff seat Off.indStatus) 15 0 = 0) ∧
  (∀ (seat : Fin 3) (v : BitVec 32) (d : Device) (w : List Instr), d.reaches seat Off.indData = true → (seat : Nat) < 2 →
    d.reg (ownOff seat Off.indCount) = 0 → Runs (.indDataWrite seat v) d w fun t => t.flag (ownOff seat Off.indStatus) 30 =
    true)

/-- SEC_LO of a time base, the low half of a capture and word 0 of a log entry are returned, and what belongs to the same
  instant goes to the reading seat's shadow; the capture leaves its FIFO. -/
def Obligations.ShadowedReads : Prop :=
  (∀ (seat : Fin 3) (base : Fin 8) (d : Device) (w : List Instr), d.reaches seat (Off.plumbTbSecLo base) = true → Runs
    (.tbSecLoRead seat base) d w fun t => NMap.getD t.pwr.data seat 0 = (d.tbNow base).sec % 2 ^ 32 ∧ t.shadow? seat
    (Off.plumbTbSecHi base) = some ((d.tbNow base).sec / 2 ^ 32 % 2 ^ 16) ∧ t.shadow? seat (Off.plumbTbNs base) = some
    (d.tbNow base).ns ∧ t.shadow? seat (Off.plumbTbFrac base) = some (d.tbNow base).frac) ∧
  (∀ (seat : Fin 3) (pin : Fin 16) (x : Nat) (up : Bool) (rest : List (Nat × Bool)) (d : Device) (w : List Instr), d.reaches
    seat (Off.plumbTioCapLo pin) = true → (d.tio pin).fifo = (x, up) :: rest → Runs (.tioCapLoRead seat pin) d w fun t =>
    NMap.getD t.pwr.data seat 0 = x % 2 ^ 32 ∧ t.shadow? seat (Off.plumbTioCapHi pin) = some (x / 2 ^ 32) ∧ t.shadow? seat
    (Off.plumbTioCtl pin) = some (b2n up) ∧ (t.tio pin).fifo = rest) ∧
  (∀ (seat : Fin 3) (entry : Fin 256) (d : Device) (w : List Instr), d.reaches seat (Off.hawkLogW entry 0) = true → Runs
    (.logWord0Read seat entry) d w fun t => NMap.getD t.pwr.data seat 0 = d.logWord entry 0 ∧ ((List.range 7).all fun i =>
    t.shadow? seat (Off.hawkLogW entry (i + 1)) == some (d.logWord entry (i + 1))) = true)

/-- MAC_EN of 1 is taken where the port's mode is one of those listed and the pool allows it, and refused with CFG_ERR where
  the mode is not; EN of a span, of a channel, of a spread group and of the export is taken or refused by its rule, and
  EN of 0 is always taken; a map register is taken whole where the channels it changes are disabled. -/
def Obligations.EnableWrites : Prop :=
  (∀ (seat : Fin 3) (port : Fin 512) (v : BitVec 32) (d : Device) (w : List Instr), d.mayReach seat (Off.portCfg port) = true
    → d.macEn port = true → bit v.toNat 31 = false → Runs (.macEnWrite seat port v) d w fun t => t.macEn port = false ∧
    (t.port port).bring = .off) ∧
  (∀ (seat : Fin 3) (port : Fin 512) (v : BitVec 32) (d : Device) (w : List Instr), d.canonical = true → d.mayReach seat
    (Off.portCfg port) = true → d.macEn port = false → bit v.toNat 31 = true → bits v.toNat 30 21 = d.fld (Off.portCfg port)
    30 21 → bits v.toNat 13 0 = d.fld (Off.portCfg port) 13 0 → d.portModeOk port = true → (d.setFlag (Off.portCfg port) 31
    true).poolsOk = true → Runs (.macEnWrite seat port v) d w fun t => t.macEn port = true ∧ (t.port port).bring = .down) ∧
  (∀ (seat : Fin 3) (port : Fin 512) (v : BitVec 32) (d : Device) (w : List Instr), d.mayReach seat (Off.portCfg port) = true
    → d.macEn port = false → bit v.toNat 31 = true → bits v.toNat 30 21 = d.fld (Off.portCfg port) 30 21 → bits v.toNat 13 0
    = d.fld (Off.portCfg port) 13 0 → d.portModeOk port = false → Runs (.macEnWrite seat port v) d w fun t => t.macEn port =
    false ∧ t.flag (Off.portStatus port) 24 = true) ∧
  (∀ (seat : Fin 3) (span : Fin 32) (v : BitVec 32) (d : Device) (w : List Instr), d.mayReach seat (Off.lathCtl span) = true
    → d.spanEn span = true → bit v.toNat 31 = false → Runs (.spanEnable seat span v) d w fun t => t.spanEn span = false ∧
    t.reg (Off.lathStatus span) = 0) ∧
  (∀ (seat : Fin 3) (span : Fin 32) (v : BitVec 32) (d : Device) (w : List Instr), d.mayReach seat (Off.lathCtl span) = true
    → d.spanEn span = false → bit v.toNat 31 = true → bits v.toNat 30 29 = d.fld (Off.lathCtl span) 30 29 → bits v.toNat 8 0
    = d.fld (Off.lathCtl span) 8 0 → d.spanOk span = true → Runs (.spanEnable seat span v) d w fun t => t.spanEn span = true) ∧
  (∀ (seat : Fin 3) (span : Fin 32) (v : BitVec 32) (d : Device) (w : List Instr), d.mayReach seat (Off.lathCtl span) = true
    → d.spanEn span = false → bit v.toNat 31 = true → bits v.toNat 30 29 = d.fld (Off.lathCtl span) 30 29 → bits v.toNat 8 0
    = d.fld (Off.lathCtl span) 8 0 → d.spanOk span = false → Runs (.spanEnable seat span v) d w fun t => t.spanEn span =
    false ∧ t.flag (Off.lathCtl span) 27 = true) ∧
  (∀ (seat : Fin 3) (span : Fin 32) (chan : Fin 63) (v : BitVec 32) (d : Device) (w : List Instr), d.mayReach seat
    (Off.lathChanCfg span chan) = true → d.flag (Off.lathChanCfg span chan) 31 = true → bit v.toNat 31 = false → Runs
    (.channelEnable seat span chan v) d w fun t => t.flag (Off.lathChanCfg span chan) 31 = false) ∧
  (∀ (seat : Fin 3) (span : Fin 32) (chan : Fin 63) (v : BitVec 32) (x : Nat) (d : Device) (w : List Instr), d.mayReach seat
    (Off.lathChanCfg span chan) = true → d.flag (Off.lathChanCfg span chan) 31 = false → bit v.toNat 31 = true → bits v.toNat
    30 0 = d.fld (Off.lathChanCfg span chan) 30 0 → d.fld (Off.lathChanCfg span chan) 30 16 + 1 ≤ d.chanCap span (chan.val +
    1) 0 160 → d.chanWmax span (chan.val + 1) (d.fld (Off.lathChanCfg span chan) 15 0) (d.fld (Off.lathChanCfg span chan) 30
    16) = x → x ≤ 1600 → Runs (.channelEnable seat span chan v) d w fun t => t.flag (Off.lathChanCfg span chan) 31 = true ∧
    t.fld (Off.lathChanD span chan) 15 0 = ceilDiv (4000 + (x + 1) * 1024) 10000) ∧
  (∀ (seat : Fin 3) (group : Fin 256) (v : BitVec 32) (d : Device) (w : List Instr), d.mayReach seat (Off.spreadGrpCtl group)
    = true → d.groupEn group = true → bit v.toNat 31 = false → Runs (.groupEnable seat group v) d w fun t => t.groupEn group
    = false) ∧
  (∀ (seat : Fin 3) (group : Fin 256) (v : BitVec 32) (d : Device) (w : List Instr), d.mayReach seat (Off.spreadGrpCtl group)
    = true → d.groupEn group = false → bit v.toNat 31 = true → bit v.toNat 30 = false → Runs (.groupEnable seat group v) d w
    fun t => t.groupEn group = true ∧ (t.group group).streams = []) ∧
  (∀ (seat : Fin 3) (v : BitVec 32) (d : Device) (w : List Instr), d.mayReach seat Off.telemCtl = true → d.flag Off.telemCtl
    31 = true → bit v.toNat 31 = false → Runs (.exportEnable seat v) d w fun t => t.flag Off.telemCtl 31 = false) ∧
  (∀ (seat : Fin 3) (v : BitVec 32) (d : Device) (w : List Instr), d.mayReach seat Off.telemCtl = true → d.flag Off.telemCtl
    31 = false → bit v.toNat 31 = true → bits v.toNat 30 0 = d.fld Off.telemCtl 30 0 → d.reg Off.telemPen ≠ 0 → d.macEn
    d.telemPort = true → Runs (.exportEnable seat v) d w fun t => t.flag Off.telemCtl 31 = true) ∧
  (∀ (seat : Fin 3) (v : BitVec 32) (d : Device) (w : List Instr), d.mayReach seat Off.telemCtl = true → d.flag Off.telemCtl
    31 = false → bit v.toNat 31 = true → d.reg Off.telemPen = 0 → Runs (.exportEnable seat v) d w fun t => t.flag
    Off.telemCtl 31 = false ∧ t.flag Off.telemStatus 0 = true) ∧
  (∀ (seat : Fin 3) (span : Fin 32) (n : Fin 40) (v : BitVec 32) (d : Device) (w : List Instr), d.mayReach seat (Off.lathMap
    span n) = true → d.mapOk span n v.toNat = true → 0 < (n : Nat) → Runs (.mapWrite seat span n v) d w fun t => ((List.range
    4).all fun j => t.fld (Off.lathMap span n) (8 * j + 5) (8 * j) == bits v.toNat (8 * j + 5) (8 * j)) = true)

/-- The transmit taps, the pool sizes and the shed thresholds are taken within their limits and otherwise left as they were;
  TCLK_SRC chooses the source of the time clock; the device owner hands its role over or a seat claims it; the keepalive
  is noted; the gate list becomes pending; a software event is numbered and sets its sticky bit; the event log empties;
  Seat L asks for a power state. -/
def Obligations.GuardedWrites : Prop :=
  (∀ (seat : Fin 3) (lane : Fin 512) (v : BitVec 32) (d : Device) (w : List Instr), d.mayReach seat (Off.laneTxTap lane) =
    true → d.portOfLane lane = none → tapsOk (bits v.toNat 20 16) (bits v.toNat 14 8) (bits v.toNat 4 0) = true → Runs
    (.tapWrite seat lane v) d w fun t => t.fld (Off.laneTxTap lane) 20 16 = bits v.toNat 20 16 ∧ t.fld (Off.laneTxTap lane)
    14 8 = bits v.toNat 14 8 ∧ t.fld (Off.laneTxTap lane) 4 0 = bits v.toNat 4 0) ∧
  (∀ (seat : Fin 3) (lane : Fin 512) (v : BitVec 32) (d : Device) (w : List Instr), d.mayReach seat (Off.laneTxTap lane) =
    true → tapsOk (bits v.toNat 20 16) (bits v.toNat 14 8) (bits v.toNat 4 0) = false → Runs (.tapWrite seat lane v) d w fun
    t => t.reg (Off.laneTxTap lane) = d.reg (Off.laneTxTap lane) ∧ t.flag (Off.laneStatus lane) 1 = true) ∧
  (∀ (seat : Fin 3) (off : BitVec 26) (v : BitVec 32) (d : Device) (w : List Instr), [Off.bufPoolContract, Off.bufPoolRecirc,
    Off.bufPoolScaf].contains off.toNat = true → d.mayReach seat off.toNat = true → (d.setFld off.toNat 19 0 (v.toNat % 2 ^
    20)).poolsOk = true → Runs (.poolWrite seat off v) d w fun t => t.fld off.toNat 19 0 = v.toNat % 2 ^ 20) ∧
  (∀ (seat : Fin 3) (off : BitVec 26) (v : BitVec 32) (d : Device) (w : List Instr), [Off.bufPoolContract, Off.bufPoolRecirc,
    Off.bufPoolScaf].contains off.toNat = true → d.mayReach seat off.toNat = true → (d.setFld off.toNat 19 0 (v.toNat % 2 ^
    20)).poolsOk = false → Runs (.poolWrite seat off v) d w fun t => t.reg off.toNat = d.reg off.toNat ∧ t.flag Off.bufStatus
    0 = true) ∧
  (∀ (seat : Fin 3) (v : BitVec 32) (d : Device) (w : List Instr), d.mayReach seat Off.pwrShedThr = true → shedThrOk v.toNat
    = true → Runs (.shedThrWrite seat v) d w fun t => t.fld Off.pwrShedThr 29 0 = bits v.toNat 29 0) ∧
  (∀ (seat : Fin 3) (v : BitVec 32) (d : Device) (w : List Instr), d.mayReach seat Off.pwrShedThr = true → shedThrOk v.toNat
    = false → Runs (.shedThrWrite seat v) d w fun t => t.reg Off.pwrShedThr = d.reg Off.pwrShedThr) ∧
  (∀ (seat : Fin 3) (v : BitVec 32) (d : Device) (w : List Instr), d.mayReach seat Off.plumbCtl = true → Runs (.tclkSrcWrite
    seat v) d w fun t => t.flag Off.plumbCtl 30 = bit v.toNat 30 ∧ t.flag Off.plumbStatus 0 = bit v.toNat 30) ∧
  (∀ (seat : Fin 3) (v : BitVec 32) (d : Device) (w : List Instr), d.mayReach seat Off.seatOwner = true → d.pwr.phase =
    .started → v.toNat % 4 < 3 → v.toNat % 4 ≠ d.devOwner → Runs (.ownerHandover seat v) d w fun t => t.devOwner = v.toNat %
    4 ∧ t.flag (Off.seatStatus 0) 2 = decide (v.toNat % 4 = 0) ∧ t.flag (Off.seatStatus 1) 2 = decide (v.toNat % 4 = 1)) ∧
  (∀ (seat : Fin 2) (v : BitVec 32) (d : Device) (w : List Instr), d.mayReach seat (Off.seatClaim seat) = true → bit v.toNat
    0 = true → d.claimOk = true → Runs (.claim seat v) d w fun t => t.devOwner = seat) ∧
  (∀ (seat : Fin 2) (v : BitVec 32) (d : Device) (w : List Instr), d.mayReach seat (Off.seatKeepalive seat) = true → Runs
    (.keepalive seat v) d w fun t => (t.seat seat).lastKeep = some d.transit) ∧
  (∀ (seat : Fin 3) (port : Fin 512) (d : Device) (w : List Instr), d.mayReach seat (Off.schedGateCtl port) = true → d.flag
    (Off.schedGateCtl port) 29 = false → Runs (.commit seat port) d w fun t => t.flag (Off.schedGateCtl port) 29 = true ∧
    (t.sched port).pend = some (d.adminList port)) ∧
  (∀ (seat : Fin 3) (on : Bool) (d : Device) (w : List Instr), d.mayReach seat Off.perfCtl = true → Runs (.freeze seat on) d
    w fun t => t.flag Off.perfCtl 31 = on ∧ t.perf.freezeNext = some on) ∧
  (∀ (seat : Fin 3) (d : Device) (w : List Instr), d.mayReach seat Off.perfCtl = true → d.perf.snapNext = false →
    d.perf.snapAt = none → Runs (.snap seat) d w fun t => t.perf.snapNext = true) ∧
  (∀ (seat : Fin 3) (v : BitVec 32) (d : Device) (w : List Instr), d.mayReach seat Off.hawkRaise = true → bits v.toNat 15 14
    < 3 → d.slot? (512 + bits v.toNat 20 16) (v.toNat % 2 ^ 16) = none → Runs (.hawkRaise seat v) d w fun t => t.hawk.seq =
    (d.hawk.seq + 1) % 2 ^ 48 ∧ t.flag (Off.hawkSticky 16) (bits v.toNat 20 16) = true) ∧
  (∀ (seat : Fin 3) (d : Device) (w : List Instr), d.mayReach seat Off.hawkLogCtl = true → Runs (.logClear seat) d w fun t =>
    t.hawk.log = []) ∧
  (∀ (seat : Fin 3) (v : BitVec 32) (d : Device) (w : List Instr), d.mayReach seat Off.pwrReqL = true → d.pwr.phase =
    .started → d.pwr.running = none → d.pwrState < 2 → v.toNat % 8 < 3 → v.toNat % 8 ≠ d.pwrState → Runs (.pwrReqLWrite seat
    v) d w fun t => t.pwr.running = some ⟨⟨v.toNat % 8, 2, none⟩, [], d.pwrState, d.transit⟩ ∧ t.fld Off.pwrReqL 15 8 = 0xFF)

/-- SET, ADD and SLEW of a base that counts by itself do what R340 says: SET takes SEC and NS with FRAC 0, ADD adds the
  signed delta at once, SLEW adds it gradually; a command ends a running slew at once, and a slew ends when its whole
  delta has been added. -/
def Obligations.TimeBaseCommands : Prop :=
  (∀ (seat : Fin 3) (base : Fin 8) (d : Device) (w : List Instr), d.mayReach seat (Off.plumbTbCmd base) = true → (base : Nat)
    = 0 ∨ d.multi = true → d.fld (Off.plumbTbSetNs base) 29 0 < 1000000000 → Runs (.tbSet seat base) d w fun t => (t.tb
    base).sec = d.reg64 (Off.plumbTbSetSecLo base) % 2 ^ 48 ∧ (t.tb base).ns = d.fld (Off.plumbTbSetNs base) 29 0 ∧ (t.tb
    base).frac = 0 ∧ (t.tb base).slewing = false ∧ t.flag (Off.plumbTbStatus base) 0 = true ∧ t.flag (Off.plumbTbStatus base)
    3 = true) ∧
  (∀ (seat : Fin 3) (base : Fin 8) (d : Device) (w : List Instr), d.mayReach seat (Off.plumbTbCmd base) = true → (base : Nat)
    = 0 ∨ d.multi = true → (d.tb base).frac < 2 ^ 32 → Runs (.tbAdd seat base) d w fun t => (((t.tb base).sec * 1000000000 +
    (t.tb base).ns : Nat) : Int) = (((d.tb base).sec * 1000000000 + (d.tb base).ns : Nat) + signed 64 (d.reg64
    (Off.plumbTbDeltaLo base))) % (2 ^ 48 * 1000000000) ∧ (t.tb base).slewing = false ∧ t.flag (Off.plumbTbStatus base) 0 =
    true) ∧
  (∀ (seat : Fin 3) (base : Fin 8) (d : Device) (w : List Instr), d.mayReach seat (Off.plumbTbCmd base) = true → (base : Nat)
    = 0 ∨ d.multi = true → Runs (.tbSlew seat base) d w fun t => (t.tb base).slewing = true ∧ (t.tb base).slewLeft = signed
    64 (d.reg64 (Off.plumbTbDeltaLo base)) * 2 ^ 32 ∧ (t.tb base).sec = (d.tb base).sec ∧ (t.tb base).ns = (d.tb base).ns ∧
    t.flag (Off.plumbTbStatus base) 1 = true) ∧
  (∀ (base : Fin 8) (d : Device) (w : List Instr), (d.tb base).slewing = true → (d.tb base).slewLeft = 0 → Runs (.slewEnd
    base) d w fun t => (t.tb base).slewing = false ∧ t.flag (Off.plumbTbStatus base) 1 = false ∧ (t.tb base).ns = (d.tb
    base).ns)

/-- A code word goes to the inactive bank and the index moves on; SWITCH makes the other bank active when its check passes; a
  signal nobody waits for becomes pending; a flash operation that is allowed sets BUSY. -/
def Obligations.CodeSignalsFlash : Prop :=
  (∀ (seat : Fin 3) (v : BitVec 32) (x : Nat) (d : Device) (w : List Instr), d.mayReach seat Off.scafCodeDataHi = true →
    d.bankDraining = false → d.scaf.idxOver = false → NMap.get? (d.seat seat).heldLo (Off.scafCodeDataHi - 4) = some x → Runs
    (.scafCodeDataHiWrite seat v) d w fun t => Mem.readN 0 t.scaf.sram (0x200000 * (1 - d.bankActive) + 8 * d.fld
    Off.scafCodeIdx 17 0) 8 = bytesLE 4 x ++ bytesLE 4 v.toNat ∧ t.fld Off.scafCodeIdx 17 0 = (d.fld Off.scafCodeIdx 17 0 +
    1) % 2 ^ 18) ∧
  (∀ (seat : Fin 3) (d : Device) (w : List Instr), d.mayReach seat Off.scafCodeCtl = true → d.bankOk (1 - d.bankActive) =
    true → d.bankDraining = false → Runs (.switch seat) d w fun t => t.bankActive = 1 - d.bankActive) ∧
  (∀ (seat : Fin 3) (d : Device) (w : List Instr), d.mayReach seat Off.scafCodeCtl = true → d.bankOk (1 - d.bankActive) =
    false → Runs (.switch seat) d w fun t => t.bankActive = d.bankActive ∧ t.flag Off.scafCodeCtl 28 = true) ∧
  (∀ (seat : Fin 3) (v : BitVec 32) (d : Device) (w : List Instr), d.mayReach seat Off.scafSignal = true →
    (d.scaf.waiters.all fun x => x.1 != v.toNat % 2 ^ 16) = true → Runs (.signal seat v) d w fun t => t.scaf.signals.contains
    (v.toNat % 2 ^ 16) = true) ∧
  (∀ (seat : Fin 3) (d : Device) (w : List Instr), d.mayReach seat Off.darbyFlashCmd = true → d.flag Off.darbyFlashCmd 31 =
    false → d.touchesActive (d.fld Off.darbyFlashAddr 27 0 / 4096 * 4096) 4096 = false → Runs (.flashErase seat) d w fun t =>
    t.flag Off.darbyFlashCmd 31 = true ∧ t.pwr.flashOp = some ⟨1, d.fld Off.darbyFlashAddr 27 0 / 4096 * 4096⟩) ∧
  (∀ (seat : Fin 3) (d : Device) (w : List Instr), d.mayReach seat Off.darbyFlashCmd = true → d.flag Off.darbyFlashCmd 31 =
    false → d.touchesActive (d.fld Off.darbyFlashAddr 27 0 / 256 * 256) 256 = false → Runs (.flashProgram seat) d w fun t =>
    t.flag Off.darbyFlashCmd 31 = true ∧ t.pwr.flashOp = some ⟨2, d.fld Off.darbyFlashAddr 27 0 / 256 * 256⟩) ∧
  (∀ (seat : Fin 3) (d : Device) (w : List Instr), d.mayReach seat Off.darbyFlashCmd = true → d.flag Off.darbyFlashCmd 31 =
    false → Runs (.flashRead seat) d w fun t => t.flag Off.darbyFlashCmd 31 = true ∧ t.pwr.flashOp = some ⟨3, d.fld
    Off.darbyFlashAddr 27 0 / 256 * 256⟩)

/-- FLOW_INSERT puts a valid record with the image's bytes 80 to 127 into the render store; FLOW_UPDATE writes the bytes its
  mask selects; FLOW_REMOVE frees both copies; FLOW_READ with LOCK takes the lock; FLOW_PIN clears PINNED and sets NOAGE;
  SHADOW_REWRITE of a record that is present rewrites KLEN, the partition and the static bytes; each completes with one
  COMPLETION of its ring. -/
def Obligations.FlowCommands : Prop :=
  (∀ (c : CmdEntry) (d : Device) (w : List Instr), d.commandReady c 0x01 (flowFlagBits 0x01) (flowUsed 0x01 c.flags.toNat)
    128 = true → imageOk (cmdImage c 128) = true → d.spaceEn (recId (cmdImage c 128)).space = true → c.flags.toNat % 8 = 0 →
    d.ownsOr c.seat (d.insertPart (recId (cmdImage c 128)).space (cmdImage c 128)) 4 = true → d.homeOf (recId (cmdImage c
    128)) = none → (d.insertRecord (recId (cmdImage c 128)) (d.insertPart (recId (cmdImage c 128)).space (cmdImage c 128))
    (sliceB (cmdImage c 128) 80 48) false false false).isSome = true → Runs (.flowInsert c) d w fun t => ringDone d t c.seat
    c.ring = true ∧ ((t.homeOf (recId (cmdImage c 128))).any fun h => (NMap.get? t.flow.render h).any fun b => recValid b &&
    recId b == recId (cmdImage c 128) && sliceB b 80 48 == sliceB (cmdImage c 128) 80 48) = true) ∧
  (∀ (c : CmdEntry) (h : Nat) (b : List Byte) (d : Device) (w : List Instr), d.commandReady c 0x02 (flowFlagBits 0x02)
    (flowUsed 0x02 c.flags.toNat) 128 = true → imageOk (cmdImage c 128) = true → d.spaceEn (recId (cmdImage c 128)).space =
    true → d.homeOf (recId (cmdImage c 128)) = some h → d.authCopy h = some b → d.ownsOr c.seat (d.partOf b) 4 = true →
    lockedElse b (ringIssuer c.seat) = false → c.flags.toNat % 4 = 0 → Runs (.flowUpdate c) d w fun t => ringDone d t c.seat
    c.ring = true ∧ t.authCopy h = some (updsApply b (maskedPuts (c.p 16 6) (sliceB (cmdImage c 128) 80 48)))) ∧
  (∀ (c : CmdEntry) (h : Nat) (b : List Byte) (d : Device) (w : List Instr), d.commandReady c 0x03 (flowFlagBits 0x03)
    (flowUsed 0x03 c.flags.toNat) 128 = true → imageOk (cmdImage c 128) = true → d.spaceEn (recId (cmdImage c 128)).space =
    true → d.homeOf (recId (cmdImage c 128)) = some h → d.authCopy h = some b → d.ownsOr c.seat (d.partOf b) 4 = true →
    lockedElse b (ringIssuer c.seat) = false → d.quoteOf (recId (cmdImage c 128)) = none → Runs (.flowRemove c) d w fun t =>
    ringDone d t c.seat c.ring = true ∧ NMap.get? t.flow.render h = none ∧ t.skimAt h = none) ∧
  (∀ (c : CmdEntry) (h : Nat) (b : List Byte) (d : Device) (w : List Instr), d.commandReady c 0x04 (flowFlagBits 0x04)
    (flowUsed 0x04 c.flags.toNat) 128 = true → imageOk (cmdImage c 128) = true → d.spaceEn (recId (cmdImage c 128)).space =
    true → d.homeOf (recId (cmdImage c 128)) = some h → d.authCopy h = some b → d.ownsOr c.seat (d.partOf b) 4 = true →
    lockedElse b (ringIssuer c.seat) = false → b.length = 128 → c.flags.toNat % 8 = 1 → Runs (.flowRead c) d w fun t =>
    ringDone d t c.seat c.ring = true ∧ (t.authCopy h).map recLease = some (128 + 33 + c.seat.val)) ∧
  (∀ (c : CmdEntry) (h : Nat) (b : List Byte) (d : Device) (w : List Instr), d.commandReady c 0x05 (flowFlagBits 0x05)
    (flowUsed 0x05 c.flags.toNat) 128 = true → imageOk (cmdImage c 128) = true → d.spaceEn (recId (cmdImage c 128)).space =
    true → d.homeOf (recId (cmdImage c 128)) = some h → d.authCopy h = some b → d.ownsOr c.seat (d.partOf b) 4 = true →
    lockedElse b (ringIssuer c.seat) = false → recQpin b = false → c.flags.toNat % 4 = 2 → Runs (.flowPin c) d w fun t =>
    ringDone d t c.seat c.ring = true ∧ t.authCopy h = some (updsApply b [flagUpd 1 false, flagUpd 5 true])) ∧
  (∀ (c : CmdEntry) (h : Nat) (b : List Byte) (d : Device) (w : List Instr), d.commandReady c 0x11 (flowFlagBits 0x11)
    (flowUsed 0x11 c.flags.toNat) 128 = true → imageOk (cmdImage c 128) = true → d.spaceEn (recId (cmdImage c 128)).space =
    true → d.homeOf (recId (cmdImage c 128)) = some h → d.authCopy h = some b → d.ownsOr c.seat (d.partOf b) 4 = true →
    lockedElse b (ringIssuer c.seat) = false → d.flag (Off.flowSpaceCtl (recId (cmdImage c 128)).space) 30 = false → Runs
    (.shadowRewrite c) d w fun t => ringDone d t c.seat c.ring = true ∧ t.authCopy h = some (updsApply b ([.put 49
    [BitVec.ofNat 8 (recId (cmdImage c 128)).key.length], .put 50 [BitVec.ofNat 8 ((recId (cmdImage c 128)).space + 16 *
    d.partOf b)]] ++ maskedPuts (NMap.getD d.flow.masks (recId (cmdImage c 128)).space 0) (sliceB (cmdImage c 128) 80 48))))

/-- A staged piece joins its ring's image; a COAT_COMMIT of the device owner starts verification; COAT_ABANDON drops the
  seat's staged content; QUOTE_REQUEST that passes every check makes the quote with the fitted bound; QUOTE_RELEASE
  removes the policer and waits D; a snapshot for a later time waits; SWATCH_SELECT starts its check; POWER_REQUEST
  starts a transition; a query writes its result into host memory; BARRIER waits for what it noted. -/
def Obligations.DarbyCommands : Prop :=
  (∀ (c : CmdEntry) (d : Device) (w : List Instr), d.commandReady c 0x06 1 [] 96 = true → bit c.flags.toNat 0 = true →
    d.isDevOwner c.seat = true → d.coats.verifying = none → d.stageLog < 4194304 → (d.stagedCoat.applyRepl (cmdImage c
    96)).isOk = true → Runs (.tableWrite c) d w fun t => ringDone d t c.seat c.ring = true ∧ t.coats.staged = d.coats.staged
    ++ [((c.seat : Nat), Staged.replEntry (cmdImage c 96))]) ∧
  (∀ (c : CmdEntry) (v : Coat) (x : List Byte) (d : Device) (w : List Instr), d.commandReady c 0x07 2 [(16, 1)] 96 = true →
    c.flags.toNat = 2 ^ 7 → c.p 16 1 < 4 → d.coatAt (c.p 16 1) = some v → v.readRecord (cmdImage c 96) = .ok x → d.noBarrier
    = true → Runs (.tableRead c) d w fun t => ringDone d t c.seat c.ring = true ∧ (t.seat c.seat).hostMem = Mem.writeN 0
    (d.seat c.seat).hostMem c.addr.toNat x) ∧
  (∀ (c : CmdEntry) (d : Device) (w : List Instr), d.commandReady c 0x08 1 [(16, 8)] 0 = true → bit c.flags.toNat 0 = false →
    c.len.toNat % 16 = 0 → c.len.toNat ≤ 1048576 → c.p 20 4 ≤ 67108864 → c.p 16 4 = ((d.seat c.seat).cring
    c.ring).pieces.length → c.p 16 4 + c.len.toNat ≤ c.p 20 4 → Runs (.coatStage c) d w fun t => ringDone d t c.seat c.ring =
    true ∧ ((t.seat c.seat).cring c.ring).pieces = ((d.seat c.seat).cring c.ring).pieces ++ cmdImage c c.len.toNat) ∧
  (∀ (c : CmdEntry) (d : Device) (w : List Instr), d.commandReady c 0x09 1 [(16, 8)] 0 = true → d.isDevOwner c.seat = true →
    d.staging = true → d.coats.pending = none → d.coats.verifying = none → Runs (.coatCommit c) d w fun t => ringHolds d t
    c.seat c.ring ⟨0x09, c.tag.toNat, c.flags.toNat, 0, 0, [], []⟩ = true ∧ t.coats.verifying = some ⟨c.seat, c.ring, c.p 16
    8, bit c.flags.toNat 0⟩) ∧
  (∀ (c : CmdEntry) (d : Device) (w : List Instr), d.commandReady c 0x0A 0 [] 0 = true → d.coats.verifying = none → Runs
    (.coatAbandon c) d w fun t => ringDone d t c.seat c.ring = true ∧ t.coats.staged = d.coats.staged.filter fun s => s.1 ≠
    (c.seat : Nat)) ∧
  (∀ (c : CmdEntry) (h : Nat) (fits : List Fit) (claim : Nat) (d : Device) (w : List Instr), d.commandReady c 0x0B 0 [(16,
    26)] 128 = true → imageOk (cmdImage c 128) = true → d.quoteCheck c.seat (recId (cmdImage c 128)) (QuoteReq.of c) = .ok
    (h, fits, claim) → (d.quotePin h).isSome = true → Runs (.quoteRequest c) d w fun t => ringDone d t c.seat c.ring = true ∧
    ((t.quote (c.p 16 4)).any fun q => q.active && q.d == boundOf fits && q.claim == claim && q.b == c.p 30 4 && q.rate ==
    c.p 34 5 && q.lmax == c.p 28 2) = true) ∧
  (∀ (c : CmdEntry) (q : Quote) (d : Device) (w : List Instr), d.commandReady c 0x0C 0 [(16, 4)] 0 = true → d.quote (c.p 16
    4) = some q → q.active = true → (((q.inPort :: q.portA :: q.portB.toList).map d.portPart) ++ (((d.homeOf ⟨q.space,
    q.key⟩).bind d.authCopy).map d.partOf).toList).all (fun p => d.ownsOr c.seat p 6) = true → Runs (.quoteRelease c) d w fun
    t => ringHolds d t c.seat c.ring ⟨0x0C, c.tag.toNat, c.flags.toNat, 0, 0, [c.p 16 4], []⟩ = true ∧ ((t.quote (c.p 16
    4)).any fun x => !x.active && x.release == some ⟨d.transit + q.d, 0, 0xFFFF, [((c.seat : Nat), (c.ring : Nat))]⟩) = true) ∧
  (∀ (c : CmdEntry) (q : Quote) (d : Device) (w : List Instr), d.commandReady c 0x0D 0 [(16, 4)] 128 = true → d.quote (c.p 16
    4) = some q → bit c.flags.toNat 7 = true → d.noBarrier = true → Runs (.quoteQuery c) d w fun t => ringDone d t c.seat
    c.ring = true ∧ (t.seat c.seat).hostMem = Mem.writeN 0 (d.seat c.seat).hostMem c.addr.toNat ((q.refill (d.transit /
    1000)).image (c.p 16 4))) ∧
  (∀ (c : CmdEntry) (d : Device) (w : List Instr), d.commandReady c 0x0E 0 [(16, 8)] 2048 = true → d.ownsAny c.seat = true →
    d.tbCount 0 < c.p 16 8 → d.perf.waiting.length < 4 → Runs (.perfSnapshot c) d w fun t => ringHolds d t c.seat c.ring
    ⟨0x0E, c.tag.toNat, c.flags.toNat, c.addr.toNat, 0, [], []⟩ = true ∧ t.perf.waiting = d.perf.waiting ++ [⟨c.seat, c.ring,
    c.addr.toNat, c.p 16 8⟩] ∧ t.fld Off.perfSnapPend 2 0 = d.perf.waiting.length + 1) ∧
  (∀ (c : CmdEntry) (d : Device) (w : List Instr), d.commandReady c 0x0F 0 [(16, 1), (24, 8)] 0 = true → d.isDevOwner c.seat
    = true → c.p 16 1 ≤ 3 → d.pwr.switch = none → d.coats.pending = none → d.coats.verifying = none → Runs (.swatchSelect c)
    d w fun t => ringHolds d t c.seat c.ring ⟨0x0F, c.tag.toNat, c.flags.toNat, 0, 0, [], []⟩ = true ∧ t.pwr.switch = some
    ⟨some ((c.seat : Nat), (c.ring : Nat)), c.p 16 1, c.p 24 8, false, false⟩ ∧ t.flag Off.pwrSwatch 31 = true ∧ t.fld
    Off.pwrSwatch 3 2 = c.p 16 1) ∧
  (∀ (c : CmdEntry) (d : Device) (w : List Instr), d.commandReady c 0x10 0 [(16, 1)] 0 = true → d.isDevOwner c.seat = true →
    d.pwr.running = none → d.pwrState < 2 → c.p 16 1 < 3 → c.p 16 1 ≠ d.pwrState → Runs (.powerRequest c) d w fun t =>
    ringHolds d t c.seat c.ring ⟨0x10, c.tag.toNat, c.flags.toNat, 0, 0, [], []⟩ = true ∧ t.pwr.running = some ⟨⟨c.p 16 1,
    c.seat, some ((c.seat : Nat), (c.ring : Nat))⟩, [], d.pwrState, d.transit⟩) ∧
  (∀ (c : CmdEntry) (d : Device) (w : List Instr), d.commandReady c 0x12 1 [(16, 1), (17, 1), (18, 2), (20, 1), (21, 1)] 0 =
    true → d.sendCheck c = none → (sendFields c).pipeline = true → bit c.flags.toNat 0 = true → Runs (.frameSend c) d w fun t
    => ringHolds d t c.seat c.ring ⟨0x12, c.tag.toNat, c.flags.toNat, 0, 0, [], []⟩ = true ∧ ((t.frame d.buf.nextFrame).any
    fun x => x.bytes == (d.sendFrameOf c).bytes) = true) ∧
  (∀ (c : CmdEntry) (d : Device) (w : List Instr), d.commandReady c 0x13 0 [(16, 1), (17, 1), (20, 4)] 0 = true → c.p 16 1 ≤
    3 → bit c.flags.toNat 7 = true → d.noBarrier = true → Runs (.leaseQuery c) d w fun t => ringDone d t c.seat c.ring = true
    ∧ (t.seat c.seat).hostMem = Mem.writeN 0 (d.seat c.seat).hostMem c.addr.toNat (((((d.fault.leases.filter fun l => l.kind
    == c.p 16 1 && (c.p 17 1 == 0xFF || l.dkind == c.p 17 1) && decide (c.p 20 4 ≤ l.index)).foldl (fun acc l => insertLease
    l acc) []).take (c.len.toNat / 16)).map (leaseRecord d.transit)).flatMap id)) ∧
  (∀ (c : CmdEntry) (d : Device) (w : List Instr), d.commandReady c 0x14 0 [(16, 2)] 0 = true → (d.barrierNotes (c.p 16 2)
    (ringIndex c.seat c.ring)).all (fun x => decide (x.2 ≤ ((d.seat (x.1 / 8)).cring (x.1 % 8)).done)) = true → Runs
    (.barrier c) d w fun t => ringDone d t c.seat c.ring = true) ∧
  (∀ (c : CmdEntry) (d : Device) (w : List Instr), d.commandReady c 0x14 0 [(16, 2)] 0 = true → (d.barrierNotes (c.p 16 2)
    (ringIndex c.seat c.ring)).all (fun x => decide (x.2 ≤ ((d.seat (x.1 / 8)).cring (x.1 % 8)).done)) = false → Runs
    (.barrier c) d w fun t => ringHolds d t c.seat c.ring ⟨0x14, c.tag.toNat, c.flags.toNat, 0, 0, [], d.barrierNotes (c.p 16
    2) (ringIndex c.seat c.ring)⟩ = true)

/-- In a started device with no transition, ADDR sets the address, DATA reads or writes the register there as Seat L and
  advances it by 4, POWER of a new state below Sleep starts a transition for Seat L, and STATUS is returned as the device
  stands. -/
def Obligations.WakePort : Prop :=
  (∀ (addr : BitVec 32) (d : Device) (w : List Instr), d.pwr.phase = .started → d.pwr.running = none → Runs (.wakePortAddr
    addr) d w fun t => t.pwr.wakeAddr = addr.toNat) ∧
  (∀ (d : Device) (w : List Instr), d.pwr.phase = .started → d.pwr.running = none → Runs (.wakePortData (none)) d w fun t =>
    t.pwr.wakeAddr = (d.pwr.wakeAddr + 4) % 2 ^ 32 ∧ NMap.getD t.pwr.data 2 0 = (d.busValue 2 d.pwr.wakeAddr).2) ∧
  (∀ (v : BitVec 32) (d : Device) (w : List Instr), d.pwr.phase = .started → d.pwr.running = none → d.pwr.wakeAddr =
    Off.devScratch → Runs (.wakePortData (some v)) d w fun t => t.pwr.wakeAddr = (d.pwr.wakeAddr + 4) % 2 ^ 32 ∧ t.reg
    (ownOff 2 Off.devScratch) = v.toNat) ∧
  (∀ (state : BitVec 8) (d : Device) (w : List Instr), d.pwr.phase = .started → d.pwr.running = none → d.pwrState < 2 →
    state.toNat < 3 → state.toNat ≠ d.pwrState → Runs (.wakePortPower state) d w fun t => t.pwr.running = some ⟨⟨state.toNat,
    2, none⟩, [], d.pwrState, d.transit⟩ ∧ t.flag Off.pwrStatus 31 = true ∧ t.fld Off.pwrReqL 15 8 = 0xFF) ∧
  (∀ (d : Device) (w : List Instr), d.pwr.phase = .started → d.pwr.running = none → Runs .wakePortStatus d w fun t =>
    t.pwr.wakeStatus = d.pwrState + 16 * b2n d.pwr.held.isSome + 32)

/-- ERASE leaves 0xFF in its range; WRITE programs and reads back and returns the CRC; READ returns the data and its CRC;
  IDENT returns DEV_IDENT, DEV_STEPPING and the JEDEC identifier; RESET answers and restarts the device with the reset
  cause of a recovery reset; a malformed request answers BAD_REQ and a flash error FLASH_ERR. -/
def Obligations.RecoveryLoader : Prop :=
  (∀ (q : RecReq) (d : Device) (w : List Instr), d.pwr.phase = .recovery → recReqOk 1 q = true → Runs (.recoveryErase q
    (false)) d w fun t => t.pwr.recovery = recoveryBytes 1 0 q.len.toNat (0) ([]) ∧ t.flashBytes q.addr.toNat q.len.toNat =
    List.replicate q.len.toNat 0xFF) ∧
  (∀ (q : RecReq) (d : Device) (w : List Instr), d.pwr.phase = .recovery → recReqOk 1 q = true → Runs (.recoveryErase q
    (true)) d w fun t => t.pwr.recovery = recoveryBytes 1 3 0 (0) ([]) ∧ t.pwr.flash = d.pwr.flash) ∧
  (∀ (q : RecReq) (err : Bool) (d : Device) (w : List Instr), d.pwr.phase = .recovery → recReqOk 1 q = false → Runs
    (.recoveryErase q err) d w fun t => t.pwr.recovery = recoveryBytes 1 1 0 (0) ([]) ∧ t.pwr.flash = d.pwr.flash) ∧
  (∀ (q : RecReq) (data : List Byte) (d : Device) (w : List Instr), d.pwr.phase = .recovery → recReqOk 2 q = true →
    data.length = q.len.toNat → crc32c data = q.crc.toNat → d.flashBytes q.addr.toNat q.len.toNat = List.replicate
    q.len.toNat 0xFF → Runs (.recoveryWrite q data (false)) d w fun t => t.pwr.recovery = recoveryBytes 2 0 q.len.toNat
    (crc32c data) ([]) ∧ t.flashBytes q.addr.toNat q.len.toNat = data) ∧
  (∀ (q : RecReq) (data : List Byte) (err : Bool) (d : Device) (w : List Instr), d.pwr.phase = .recovery → recReqOk 2 q =
    true → data.length = q.len.toNat → crc32c data ≠ q.crc.toNat → Runs (.recoveryWrite q data err) d w fun t =>
    t.pwr.recovery = recoveryBytes 2 2 0 (0) ([]) ∧ t.pwr.flash = d.pwr.flash) ∧
  (∀ (q : RecReq) (d : Device) (w : List Instr), d.pwr.phase = .recovery → recReqOk 3 q = true → Runs (.recoveryRead q
    (false)) d w fun t => t.pwr.recovery = recoveryBytes 3 0 q.len.toNat (crc32c (d.flashBytes q.addr.toNat q.len.toNat))
    (d.flashBytes q.addr.toNat q.len.toNat)) ∧
  (∀ (q : RecReq) (d : Device) (w : List Instr), d.pwr.phase = .recovery → recReqOk 4 q = true → Runs (.recoveryIdent q) d w
    fun t => t.pwr.recovery = recoveryBytes 4 0 16 (crc32c (bytesLE 4 (d.reg Off.devIdent) ++ bytesLE 4 (d.reg
    Off.devStepping) ++ bytesLE 3 Config.jedec.toNat ++ bytesLE 5 0)) (bytesLE 4 (d.reg Off.devIdent) ++ bytesLE 4 (d.reg
    Off.devStepping) ++ bytesLE 3 Config.jedec.toNat ++ bytesLE 5 0)) ∧
  (∀ (q : RecReq) (d : Device) (w : List Instr), d.pwr.phase = .recovery → recReqOk 5 q = true → Runs (.recoveryReset q) d w
    fun t => t.pwr.recovery = recoveryBytes 5 0 0 (0) ([]) ∧ t.pwr.kind = .warm ∧ t.pwr.phase = .waits ∧ t.pwr.flash =
    d.pwr.flash ∧ t.fld Off.faultResetCause 3 0 = 6)

/-- The first bytes of a frame give a new frame of the port, with the tags the port removes removed and its receipt time; a
  whole header window puts the frame at the end of its pipeline's entry queue; the last byte counts a good frame and its
  bytes, or a bad FCS, a frame whose fragments failed, an oversize frame or a runt. -/
def Obligations.FrameReception : Prop :=
  (∀ (port : Fin 512) (bytes : List Byte) (pre : Bool) (d : Device) (w : List Instr), d.portUp port = true → d.flag
    (Off.portStatus port) 26 = false → isMacControl bytes = false → isSleepFrame bytes = false → d.isServoFrame port bytes =
    false → d.receiving port pre = false → (pre && !d.flag (Off.portStatus port) 29) = false → Runs (.frameReceive port bytes
    pre) d w fun t => t.buf.nextFrame = d.buf.nextFrame + 1 ∧ ((t.frame d.buf.nextFrame).any fun x => x.port == port.val &&
    x.bytes == (d.strip port bytes pre none).1.bytes && !x.done && x.rxTransit == d.rxTransitFx port && x.arrClass ==
    d.arrivalClass port x.bytes) = true) ∧
  (∀ (f : Nat) (more : List Byte) (x : Frame) (d : Device) (w : List Instr), d.frame f = some x → x.done = false → x.place =
    .rx → 64 < x.bytes.length + more.length → Runs (.headerWindow f more) d w fun t => ((t.frame f).any fun y => y.place ==
    .entry) = true ∧ (t.pipe x.pipe).entryQ = (d.pipe x.pipe).entryQ ++ [f]) ∧
  (∀ (f : Nat) (rest : List Byte) (fragErr : Bool) (x : Frame) (d : Device) (w : List Instr), d.frame f = some x → x.done =
    false → x.port < 512 → d.rxVerdict x.port (wireBytes (x.bytes ++ rest) x.removed) fragErr = .good → Runs (.frameEnd f
    rest fragErr) d w fun t => t.reg64 (Off.portRxFramesLo x.port) = (d.reg64 (Off.portRxFramesLo x.port) + 1) % 2 ^ 64 ∧
    t.reg64 (Off.portRxBytesLo x.port) = (d.reg64 (Off.portRxBytesLo x.port) + (wireBytes (x.bytes ++ rest)
    x.removed).length) % 2 ^ 64) ∧
  (∀ (f : Nat) (rest : List Byte) (x : Frame) (d : Device) (w : List Instr), d.frame f = some x → x.done = false → x.port <
    512 → d.rxVerdict x.port (wireBytes (x.bytes ++ rest) x.removed) false = .badFcs → Runs (.frameEnd f rest (false)) d w
    fun t => t.reg (Off.portRxFcsErr x.port) = sat32 (d.reg (Off.portRxFcsErr x.port) + 1)) ∧
  (∀ (f : Nat) (rest : List Byte) (fragErr : Bool) (x : Frame) (d : Device) (w : List Instr), d.frame f = some x → x.done =
    false → x.port < 512 → d.rxVerdict x.port (wireBytes (x.bytes ++ rest) x.removed) fragErr = .oversize → Runs (.frameEnd f
    rest fragErr) d w fun t => t.reg (Off.portRxOversize x.port) = sat32 (d.reg (Off.portRxOversize x.port) + 1)) ∧
  (∀ (f : Nat) (rest : List Byte) (fragErr : Bool) (x : Frame) (d : Device) (w : List Instr), d.frame f = some x → x.done =
    false → x.port < 512 → d.rxVerdict x.port (wireBytes (x.bytes ++ rest) x.removed) fragErr = .runt → Runs (.frameEnd f
    rest fragErr) d w fun t => t.reg (Off.portRxRunt x.port) = sat32 (d.reg (Off.portRxRunt x.port) + 1)) ∧
  (∀ (f : Nat) (rest : List Byte) (x : Frame) (d : Device) (w : List Instr), d.frame f = some x → x.done = false → x.port <
    512 → Runs (.frameEnd f rest (true)) d w fun t => t.reg (Off.portRxFragErr x.port) = sat32 (d.reg (Off.portRxFragErr
    x.port) + 1))

/-- A slot grant takes the first frame of an otherwise empty pipeline into station 0 under the current coat, with the arrival
  time of the grant and its window; at the end of the pass the frame has left the stations, and a frame whose m3 names
  port 512 takes a recirculation place with its pass number raised, a parked one goes to the lodge; a recirculating frame
  whose window has arrived, and the first parked frame of an entry whose fetch has returned, join the priority queue. -/
def Obligations.PassEntryAndExit : Prop :=
  (∀ (pipe : Fin 32) (f s a : Nat) (x : Frame) (k : Coat) (d : Device) (w : List Instr), d.domainOk 2 pipe = true →
    d.pwr.portsDown = false → d.coats.pending = none → d.pwr.switch = none → d.pipes.reload = [] → (d.pipe pipe).prioQ = [] →
    (d.pipe pipe).entryQ = [f] → d.reserveCount pipe < 256 → d.frame f = some x → x.granted = false → x.parks = 0 → x.port <
    512 → x.pipe = pipe.val → d.coats.cur = some s → s < 4 → d.coatAt s = some k → k.id < 2 ^ 22 → entryAddr k.ien (NMap.getD
    k.pmapI x.port 0) = some a → Runs (.slotGrant pipe) d w fun t => (t.pipe pipe).entryQ = [] ∧ ((t.frame f).any fun y =>
    y.granted && y.place == .pass && y.mN 1 % 4 == s && bits (y.mN 1) 3 2 == 0 && bits (y.mN 1) 31 10 == k.id && y.arrTb0 ==
    d.tbCount 0) = true ∧ ((NMap.get? t.ctxs f).any fun c => c.station == 0 && c.word == some a && c.slot == s && c.w ==
    sliceB x.bytes x.base 64) = true) ∧
  (∀ (f : Nat) (x : Ctx) (y : Frame) (d : Device) (w : List Instr), NMap.get? d.ctxs f = some x → d.frame f = some y →
    y.place = .pass → x.live = false → y.seam = none → d.firstInLine x.pipe = some f → d.turnCome (.ing f) x = true → Runs
    (.passExit f) d w fun t => NMap.get? t.ctxs f = none) ∧
  (∀ (f : Nat) (x : Ctx) (y : Frame) (d : Device) (w : List Instr), NMap.get? d.ctxs f = some x → d.frame f = some y → x.live
    = false → y.killed = false → y.punt = none → x.stopAt = none → d.firstInLine x.pipe = some f → d.turnCome (.ing f) x =
    true → x.noFlowDue = true → x.settleRest.regs.mN 3 / 2 ^ 30 = 0 → x.settleRest.regs.mN 3 % 2 ^ 16 = 512 → Runs (.passExit
    f) d w fun t => ((t.frame f).any fun z => z.place == .recirc && bits (z.mN 1) 3 2 == (bits (x.settleRest.regs.mN 1) 3 2 +
    1) % 4 && z.mN 3 == 3 * 2 ^ 30 && z.base == x.settleRest.nextBase) = true ∧ (t.pipe x.pipe).places = (d.pipe
    x.pipe).places ++ [f]) ∧
  (∀ (f : Nat) (x : Ctx) (y : Frame) (d : Device) (w : List Instr), NMap.get? d.ctxs f = some x → d.frame f = some y → x.live
    = false → y.killed = false → y.punt = none → x.stopAt.isSome = true → d.firstInLine x.pipe = some f → d.turnCome (.ing f)
    x = true → x.noFlowDue = true → Runs (.passExit f) d w fun t => ((t.frame f).any fun z => z.place == .lodge && z.m == y.m
    && z.base == y.base) = true) ∧
  (∀ (f : Nat) (x : Frame) (d : Device) (w : List Instr), d.frame f = some x → x.place = .recirc → x.done = true ∨ x.base +
    64 ≤ x.bytes.length → (((d.pipe x.pipe).places.takeWhile (· ≠ f)).any fun g => (d.frame g).any Frame.windowHeld) = false
    → Runs (.recircEligible f) d w fun t => ((t.frame f).any fun z => z.place == .prio) = true ∧ (t.pipe x.pipe).prioQ =
    (d.pipe x.pipe).prioQ ++ [f] ∧ (t.pipe x.pipe).places = (d.pipe x.pipe).places.filter (· ≠ f)) ∧
  (∀ (f : Nat) (x : Frame) (e : LodgeEntry) (d : Device) (w : List Instr), d.frame f = some x → d.nextReturn f = some e →
    x.place = .lodge → d.reserveCount x.pipe < 160 → Runs (.reEntry f) d w fun t => ((t.frame f).any fun z => z.place ==
    .prio) = true ∧ (t.pipe x.pipe).prioQ = (d.pipe x.pipe).prioQ ++ [f])

/-- The replicator makes a copy on the port that its list's last entry names and gives up the frame; a fetch of an identity
  that has no record puts the identity into the absent cache; an entry at its park limit closes. -/
def Obligations.ReplicationAndLodge : Prop :=
  (∀ (pipe : Fin 32) (it : ReplItem) (rest : List ReplItem) (x : Frame) (e : BitVec 16) (d : Device) (w : List Instr),
    NMap.getD d.buf.repl pipe [] = it :: rest → d.frame it.frame = some x → (d.replList (x.mN 1 % 4) it.group).drop it.next =
    [e] → e.getLsbD 13 = false → (e.toNat % 1024 = x.port → e.getLsbD 14 = true) → d.descriptors < 1048576 → d.targetUp
    (e.toNat % 1024) = true → it.cls ≠ 7 → it.quote = none → Runs (.replicatorExpand pipe) d w fun t => NMap.getD t.buf.repl
    pipe [] = rest ∧ t.buf.nextCopy = d.buf.nextCopy + 1 ∧ ((t.copy d.buf.nextCopy).any fun c => c.port == e.toNat % 1024 &&
    c.cls == it.cls && c.frame == it.frame && c.edits == x.edits) = true) ∧
  (∀ (space : Fin 16) (key : List Byte) (e : LodgeEntry) (d : Device) (w : List Instr), d.lodged? ⟨space, key⟩ = some e →
    e.outcome = .pending → d.homeOf ⟨space, key⟩ = none → Runs (.fetchReturn space key) d w fun t => (t.flow.absent.any fun a
    => a.1 == ⟨space, key⟩) = true ∧ t.homeOf ⟨space, key⟩ = none) ∧
  (∀ (space : Fin 16) (key : List Byte) (e : LodgeEntry) (d : Device) (w : List Instr), d.lodged? ⟨space, key⟩ = some e →
    e.limit ≤ d.transit → (e.frames.any fun p => !p.2) = true → Runs (.parkLimit space key) d w fun t => t.lodged? ⟨space,
    key⟩ = none)

/-- At a transmit opportunity of a free Ethernet port the head, or the granted frame, that the scheduler picks takes the
  port, and on a span its stream; a selected copy enters egress station 0 with its metadata and the snapshot, and one
  that is past its deadline there is discarded and counted; a copy whose program has ended is presented to the MAC at
  this time; a copy whose last byte has left is gone and its frame counted, and the wire has carried it with its FCS; on
  a span a whole frame joins its stream, and is counted when its words are in containers. -/
def Obligations.Transmission : Prop :=
  (∀ (port : Fin 512) (stream : Nat) (c i h : Nat) (x : Copy) (d : Device) (w : List Instr), d.domainOk 3 (pipeOf port) =
    true → d.pwr.squelch = false → d.spanOf port = none → (stream : Nat) = 0 → (port : Nat) < 512 → d.txReady port = true →
    (d.port port).tx = none → ((((d.countHolds port).calendarSlot port).expireHeads port).tags port).pick port = some (.head
    c i h) → ((((d.countHolds port).calendarSlot port).expireHeads port).tags port).copy h = some x → ((((d.countHolds
    port).calendarSlot port).expireHeads port).tags port).deqDrop x = none → x.port = port.val → Runs (.transmitOpportunity
    port stream) d w fun t => (t.port port).tx = some h ∧ ((t.copy h).any fun y => y.stage == .selected) = true) ∧
  (∀ (port : Fin 512) (stream : Nat) (h : Nat) (x : Copy) (d : Device) (w : List Instr), d.domainOk 3 (pipeOf port) = true →
    d.pwr.squelch = false → d.spanOf port = none → (stream : Nat) = 0 → (port : Nat) < 512 → d.txReady port = true → (d.port
    port).tx = none → ((((d.countHolds port).calendarSlot port).expireHeads port).tags port).pick port = some (.grant h) →
    ((((d.countHolds port).calendarSlot port).expireHeads port).tags port).copy h = some x → ((((d.countHolds
    port).calendarSlot port).expireHeads port).tags port).deqDrop x = none → x.port = port.val → Runs (.transmitOpportunity
    port stream) d w fun t => (t.port port).tx = some h ∧ ((t.copy h).any fun y => y.stage == .selected) = true) ∧
  (∀ (port : Fin 512) (stream : Nat) (s c i h : Nat) (x : Copy) (d : Device) (w : List Instr), d.domainOk 3 (pipeOf port) =
    true → d.pwr.squelch = false → d.spanOf port = some s → (stream : Nat) ≤ 63 → d.targetUp port = true → d.streamBusy s
    port stream = false → (((d.countHolds port).expireHeads port).tags port).pickSpan port stream = some (.head c i h) →
    (((d.countHolds port).expireHeads port).tags port).copy h = some x → (((d.countHolds port).expireHeads port).tags
    port).deqDrop x = none → Runs (.transmitOpportunity port stream) d w fun t => ((t.copy h).any fun y => y.stage ==
    .selected) = true) ∧
  (∀ (copy : Nat) (x : Copy) (fr : Frame) (i : Nat) (d : Device) (w : List Instr), d.copy copy = some x → d.frame x.frame =
    some fr → x.stage = .selected → d.domainOk 3 (pipeOf x.port) = true → d.egressWord x = some i → d.pipes.reload = [] →
    x.quote.all (fun _ => !d.deadlinePassed x.deadline) = true → Runs (.egressPassStart copy) d w fun t => ((t.copy copy).any
    fun y => y.stage == .egress) = true ∧ NMap.get? t.ectxs copy = some
    { d.egressCtx x fr with tbs := (List.range 8).map d.tbNow, gates := d.gateShot }) ∧
  (∀ (copy : Nat) (x : Copy) (q : Nat) (d : Device) (w : List Instr), d.copy copy = some x → (d.frame x.frame).isSome = true
    → x.stage = .selected → d.domainOk 3 (pipeOf x.port) = true → x.quote = some q → d.deadlinePassed x.deadline = true →
    Runs (.egressPassStart copy) d w fun t => t.copy copy = none ∧ t.reg (Off.schedQExpired x.port) = sat32 (d.reg
    (Off.schedQExpired x.port) + 1)) ∧
  (∀ (copy : Nat) (x : Copy) (fr : Frame) (d : Device) (w : List Instr), d.copy copy = some x → d.frame x.frame = some fr →
    x.stage = .egress → d.egressDone copy = true → d.txReady x.port = true → d.spanOf x.port = none → x.mirror = none ∨ copy
    < d.buf.nextCopy → fr.bad = false → d.egressDrop copy = none → d.domainOk 3 (pipeOf x.port) = true → d.pwr.squelch =
    false → d.gateOpen x.port x.cls = true → Runs (.macPresent copy) d w fun t => ((t.copy copy).any fun y => y.stage == .mac
    && y.presentAt == some d.transit && y.txTime == (d.txTimeFx x.port (d.fld (Off.plumbPortTs x.port) 2 0) / 65536).toNat %
    2 ^ 64) = true ∧ NMap.get? t.ectxs copy = none) ∧
  (∀ (port : Fin 512) (stream : Nat) (c : Nat) (x : Copy) (fr : Frame) (d : Device) (w : List Instr), d.spanOf port = none →
    d.pwr.squelch = false → d.inFlight port stream = some c → d.copy c = some x → d.frame x.frame = some fr → x.stage = .mac
    → fr.done = true → Runs (.transmitComplete port stream) d w fun t => t.copy c = none ∧ ((d.port port).pfcDue = 0 →
    (t.port port).wire = withFcs (d.outBytes x fr) ∧ t.reg64 (Off.portTxFramesLo port) = (d.reg64 (Off.portTxFramesLo port) +
    1) % 2 ^ 64 ∧ t.reg64 (Off.portTxBytesLo port) = (d.reg64 (Off.portTxBytesLo port) + (withFcs (d.outBytes x fr)).length)
    % 2 ^ 64)) ∧
  (∀ (port : Fin 512) (stream : Nat) (s c : Nat) (x : Copy) (d : Device) (w : List Instr), d.spanOf port = some s →
    d.pwr.squelch = false → d.lastSent port stream = some c → d.copy c = some x → (d.frame x.frame).any (fun fr => fr.done) =
    true → Runs (.transmitComplete port stream) d w fun t => t.copy c = none ∧ t.reg (Off.lathTxFrames s) = sat32 (d.reg
    (Off.lathTxFrames s) + 1)) ∧
  (∀ (copy : Nat) (x : Copy) (fr : Frame) (d : Device) (w : List Instr), d.copy copy = some x → d.frame x.frame = some fr →
    x.stage = .egress → d.egressDone copy = true → (d.spanOf x.port).isSome = true → fr.done = true → fr.bad = false →
    x.mirror = none ∨ copy < d.buf.nextCopy → d.egressDrop copy = none → d.domainOk 3 (pipeOf x.port) = true → d.pwr.squelch
    = false → Runs (.macPresent copy) d w fun t => ((t.copy copy).any fun y => y.stage == .mac && y.presentAt == some
    d.transit) = true ∧ NMap.get? t.ectxs copy = none)

/-- A calendar slot begins with the grants of the quotes reserved in it; every active policer is refilled to the microsecond;
  an enabled class bucket takes RATE for each 125 ns up to its burst; a gate that closes preempts the preemptable frame
  of its class, and a gate that moves empties a RESET bucket; a pending gate list comes into force at its time. -/
def Obligations.ShapingAndGates : Prop :=
  (∀ (port : Fin 512) (d : Device) (w : List Instr), (d.sched port).slot ≠ d.slotNow port → Runs (.calendarSlot port) d w fun
    t => (t.sched port).slot = d.slotNow port ∧ (t.sched port).grants = (d.slotQuotes port (d.slotNow port)).foldl (fun m (k,
    f) => NMap.set m k (f.f, f.grant)) []) ∧
  (∀ (q : Nat) (x : Quote) (d : Device) (w : List Instr), d.quote q = some x → x.active = true → Runs .policerRefill d w fun
    t => t.quote q = some (x.refill (d.transit / 1000))) ∧
  (∀ (port : Fin 512) (d : Device) (w : List Instr), (d.sched port).refilled < d.transit / 125 → Runs (.bucketRefill port) d
    w fun t => (t.sched port).refilled = d.transit / 125 ∧ ((List.range 7).all fun c => !t.bucketOn port c || (t.tokensOf
    port c == (let v := min ((t.burstOf port c : Int) * 65536) (d.tokensOf port c + ((d.transit / 125 - (d.sched
    port).refilled : Nat) : Int) * (NMap.getD (t.sched port).shape c 0 % 2 ^ 21 : Nat) * 1024); if bit (NMap.getD (t.sched
    port).shape c 0) 30 && !d.classWaits port c then min v 0 else v))) = true) ∧
  (∀ (port : Fin 512) (g : GateList) (c : Nat) (x : Copy) (d : Device) (w : List Instr), (d.sched port).oper = some g →
    d.flag (Off.schedGateCtl port) 31 = true → (d.sched port).gateSt ≠ d.gates port → d.preemptable port = some c → d.copy c
    = some x → bit (g.statesAt (d.tbCount g.tb)) x.cls = false → Runs (.gateEntryEnd port) d w fun t => (t.port port).tx =
    none ∧ (t.port port).remainder = some c ∧ ((t.copy c).any fun y => y.stage == .remainder) = true) ∧
  (∀ (port : Fin 512) (g : GateList) (c : Nat) (d : Device) (w : List Instr), (d.sched port).oper = some g → d.flag
    (Off.schedGateCtl port) 31 = true → c < 7 → bit (d.sched port).gateSt c ≠ bit (d.gates port) c → d.bucketOn port c = true
    → bit (NMap.getD (d.sched port).shape c 0) 30 = true → Runs (.gateEntryEnd port) d w fun t => t.tokensOf port c = min
    (d.tokensOf port c) 0) ∧
  (∀ (port : Fin 512) (g : GateList) (d : Device) (w : List Instr), (d.sched port).pend = some g → g.change ≤ d.tbCount g.tb
    → d.flag (Off.schedGateCtl port) 31 = true → Runs (.gateChange port) d w fun t => (t.sched port).oper = some g ∧ (t.sched
    port).pend = none ∧ t.flag (Off.schedGateCtl port) 29 = false)

/-- A PFC frame pauses the classes that it names and the port honours until their time has passed, and a time of 0 ends the
  pause; a PAUSE frame is counted and ignored; a pause ends at its time; classes that stay asserted are sent again; the
  watchdog trips for a class paused for LIMIT with a frame waiting, and is disarmed after 1 ms without a pause; the end
  of a flush lets the port come up. -/
def Obligations.FlowControl : Prop :=
  (∀ (port : Fin 512) (bytes : List Byte) (c : Nat) (d : Device) (w : List Instr), d.rxOpen port = true → isMacControl bytes
    = true → d.rxVerdict port bytes false = .good → fieldBE bytes 14 2 = 0x0101 → c < 7 → bit (fieldBE bytes 16 2 % 256) c =
    true → bit (d.fld (Off.portPfc port) 14 8) c = true → 0 < fieldBE bytes (18 + 2 * c) 2 → Runs (.pfcReceive port bytes) d
    w fun t => t.flag (Off.portStatus port) (8 + c) = true ∧ NMap.get? (t.port port).pauseEnd c = some (d.transit + ceilDiv
    (fieldBE bytes (18 + 2 * c) 2 * 512) (max 1 (d.portRate port)))) ∧
  (∀ (port : Fin 512) (bytes : List Byte) (c : Nat) (d : Device) (w : List Instr), d.rxOpen port = true → isMacControl bytes
    = true → d.rxVerdict port bytes false = .good → fieldBE bytes 14 2 = 0x0101 → c < 7 → bit (fieldBE bytes 16 2 % 256) c =
    true → bit (d.fld (Off.portPfc port) 14 8) c = true → fieldBE bytes (18 + 2 * c) 2 = 0 → Runs (.pfcReceive port bytes) d
    w fun t => t.flag (Off.portStatus port) (8 + c) = false) ∧
  (∀ (port : Fin 512) (bytes : List Byte) (d : Device) (w : List Instr), d.rxOpen port = true → isMacControl bytes = true →
    d.rxVerdict port bytes false = .good → fieldBE bytes 14 2 = 1 → Runs (.pfcReceive port bytes) d w fun t => t.reg
    (Off.portPauseIgnored port) = sat32 (d.reg (Off.portPauseIgnored port) + 1)) ∧
  (∀ (port : Fin 512) (cls : Fin 8) (x : Nat) (d : Device) (w : List Instr), NMap.get? (d.port port).pauseEnd cls = some x →
    x ≤ d.transit → d.flag (Off.portStatus port) (8 + cls.val) = true → Runs (.pauseExpiry port cls) d w fun t => t.flag
    (Off.portStatus port) (8 + cls.val) = false ∧ NMap.get? (t.port port).pauseEnd cls = none) ∧
  (∀ (port : Fin 512) (c : Nat) (d : Device) (w : List Instr), d.pwr.squelch = false → d.portUp port = true → c < 8 → bit
    (d.fld (Off.portStatus port) 7 0) c = true → NMap.getD (d.port port).pfcSent c 0 + d.fld (Off.portPfc port) 31 16 * 256 /
    max 1 (d.portRate port) ≤ d.transit → Runs (.pfcRefresh port) d w fun t => NMap.get? (t.port port).pfcSent c = some
    d.transit ∧ t.reg (Off.portPfcTx port) = sat32 (d.reg (Off.portPfcTx port) + 1)) ∧
  (∀ (port : Fin 512) (cls : Fin 8) (x : Nat) (d : Device) (w : List Instr), NMap.get? (d.port port).pauseFrom cls = some x →
    x ≤ d.transit → d.flag Off.bufWd 31 = true → d.classWaits port cls = true → (d.port port).wd.contains cls.val = false →
    Runs (.watchdogTrip port cls) d w fun t => (t.port port).wd = (d.port port).wd ++ [cls.val]) ∧
  (∀ (port : Fin 512) (cls : Fin 8) (d : Device) (w : List Instr), (d.port port).wd.contains cls.val = true → bit (d.fld
    (Off.portStatus port) 15 8) cls = false → NMap.getD (d.port port).unpaused cls 0 + 1000000 ≤ d.transit → Runs
    (.watchdogDisarm port cls) d w fun t => (t.port port).wd.contains cls.val = false) ∧
  (∀ (port : Fin 512) (d : Device) (w : List Instr), (d.port port).flushing = true → Runs (.flushComplete port) d w fun t =>
    (t.port port).flushing = false) ∧
  (∀ (port : Fin 512) (d : Device) (w : List Instr), (d.port port).flushing = true → d.macEn port = true → d.portUp port =
    false → (d.port port).bring = .up → (d.port port).aligned = true → (d.port port).faultSet = false → (d.lanesOf port).all
    (fun l => d.flag (Off.laneStatus l) 0) = true → Runs (.flushComplete port) d w fun t => t.portUp port = true)

/-- An attempt starts on a port that is down and counts on each of its lanes, and falls back to training; a good end in time
  locks the lanes, a bad or late one holds the port; a held port tries again after its backoff; a lane that loses signal
  or lock sets its flag, counts, and takes its port down; the return of the signal clears the flag; a fault ordered set
  takes the port down and its end lets it come up; a coefficient request of the partner steps a tap within its limits, is
  answered as at the limit beyond them, and as not supported for another coefficient. -/
def Obligations.BringUp : Prop :=
  (∀ (port : Fin 512) (d : Device) (w : List Instr), (d.port port).bring = .down → d.mayBringUp port = true → Runs
    (.bringUpAttempt port (false)) d w fun t => (t.port port).bring = .adapt ∧ (t.port port).since = d.transit ∧ ((d.lanesOf
    port).all fun l => t.reg (Off.laneRetrain l) == sat32 (d.reg (Off.laneRetrain l) + 1)) = true) ∧
  (∀ (port : Fin 512) (d : Device) (w : List Instr), (d.port port).bring = .adapt → d.canTrain port = true → Runs
    (.bringUpAttempt port (true)) d w fun t => (t.port port).bring = .train ∧ (t.port port).since = d.transit) ∧
  (∀ (port : Fin 512) (lanes : List Nat) (d : Device) (w : List Instr), ((d.port port).bring = .adapt ∧ d.transit ≤ (d.port
    port).since + 20000000) ∨ ((d.port port).bring = .train ∧ d.transit ≤ (d.port port).since + 500000000) → Runs
    (.attemptEnd port (true) lanes) d w fun t => (t.port port).bring = .up ∧ ((d.lanesOf port).all fun l => t.flag
    (Off.laneStatus l) 0) = true) ∧
  (∀ (port : Fin 512) (good : Bool) (lanes : List Nat) (d : Device) (w : List Instr), good = false ∨ (d.port port).since +
    (if (d.port port).bring = .adapt then 20000000 else 500000000) < d.transit → (d.port port).bring = .train ∨ ((d.port
    port).bring = .adapt ∧ d.canTrain port = false) → Runs (.attemptEnd port good lanes) d w fun t => (t.port port).bring =
    .held ∧ (t.port port).since = d.transit ∧ t.flag (Off.portStatus port) 30 = true ∧ ((d.lanesOf port).all fun l => t.flag
    (Off.laneStatus l) 7 == lanes.contains l) = true) ∧
  (∀ (port : Fin 512) (good : Bool) (lanes : List Nat) (d : Device) (w : List Instr), good = false ∨ (d.port port).since +
    (if (d.port port).bring = .adapt then 20000000 else 500000000) < d.transit → (d.port port).bring = .adapt → d.canTrain
    port = true → Runs (.attemptEnd port good lanes) d w fun t => t = d) ∧
  (∀ (port : Fin 512) (d : Device) (w : List Instr), d.mayBringUp port = true → (d.port port).bring = .held → (d.port
    port).since + 2 ^ d.fld (Off.laneStatus port) 11 8 * 1000000000 ≤ d.transit → Runs (.retry port) d w fun t => (t.port
    port).bring = .adapt) ∧
  (∀ (lane : Fin 512) (d : Device) (w : List Instr), (d.portOfLane lane).isSome = true ∨ d.laneAssigned lane = true →
    (d.portOfLane lane).all (fun p => !d.rxAsleep p && ((d.port p).rxArmed.isNone || !d.portUp p)) = true → d.flag
    (Off.laneStatus lane) 4 = false → Runs (.lossOfSignal lane) d w fun t => t.flag (Off.laneStatus lane) 4 = true ∧ t.flag
    (Off.laneStatus lane) 0 = false ∧ t.reg (Off.laneLosCnt lane) = sat32 (d.reg (Off.laneLosCnt lane) + 1) ∧ (d.portOfLane
    lane).all (fun p => !t.portUp p) = true) ∧
  (∀ (lane : Fin 512) (p : Nat) (d : Device) (w : List Instr), d.portOfLane lane = some p → d.rxAsleep p = false → (d.port
    p).rxArmed.isSome = true → d.portUp p = true → Runs (.lossOfSignal lane) d w fun t => t.rxAsleep p = true ∧ (t.port
    p).rxAsleepAt = some d.transit ∧ t.portUp p = true) ∧
  (∀ (lane : Fin 512) (d : Device) (w : List Instr), d.laneAssigned lane = true → (d.portOfLane lane).all (fun p =>
    !d.rxAsleep p || (d.port p).rxAsleepAt.isNone) = true → Runs (.lossOfLock lane) d w fun t => t.flag (Off.laneStatus lane)
    5 = true ∧ t.flag (Off.laneStatus lane) 0 = false ∧ t.reg (Off.laneLolCnt lane) = sat32 (d.reg (Off.laneLolCnt lane) + 1)
    ∧ (d.portOfLane lane).all (fun p => !t.portUp p) = true) ∧
  (∀ (lane : Fin 512) (d : Device) (w : List Instr), Runs (.signalReturn lane) d w fun t => t.flag (Off.laneStatus lane) 4 =
    false ∧ (d.portOfLane lane).all (fun p => !d.rxAsleep p || (t.port p).rxAsleepAt.isNone) = true) ∧
  (∀ (port : Fin 512) (fault : Bool) (aligned : Bool) (d : Device) (w : List Instr), d.macEn port = true → fault = true ∨
    aligned = false → Runs (.faultOrderedSet port fault aligned) d w fun t => t.portUp port = false ∧ (t.port port).faultSet
    = fault) ∧
  (∀ (port : Fin 512) (d : Device) (w : List Instr), d.macEn port = true → d.portUp port = false → (d.port port).bring = .up
    → (d.port port).flushing = false → (d.lanesOf port).all (fun l => d.flag (Off.laneStatus l) 0) = true → Runs
    (.faultOrderedSet port (false) (true)) d w fun t => t.portUp port = true ∧ (t.port port).faultSet = false) ∧
  (∀ (lane : Fin 512) (coef : Fin 4) (up : Bool) (p : Nat) (o a b c : Int) (d : Device) (w : List Instr), d.portOfLane lane =
    some p → (d.port p).bring = .train → o = (if up then 1 else -1) → coef ≠ 3 → a = (d.fld (Off.laneTxTap lane) 20 16 : Int)
    - (if coef = 0 then o else 0) → b = (d.fld (Off.laneTxTap lane) 14 8 : Int) + (if coef = 1 then o else 0) → c = (d.fld
    (Off.laneTxTap lane) 4 0 : Int) - (if coef = 2 then o else 0) → Runs (.coefficientRequest lane coef up) d w fun t => if 0
    ≤ a ∧ 0 ≤ b ∧ 0 ≤ c ∧ tapsOk a.toNat b.toNat c.toNat = true then (t.fld (Off.laneTxTap lane) 20 16 : Int) = a ∧ (t.fld
    (Off.laneTxTap lane) 14 8 : Int) = b ∧ (t.fld (Off.laneTxTap lane) 4 0 : Int) = c ∧ (t.port p).reply = 1 else t.reg
    (Off.laneTxTap lane) = d.reg (Off.laneTxTap lane) ∧ (t.port p).reply = 3) ∧
  (∀ (lane : Fin 512) (up : Bool) (p : Nat) (d : Device) (w : List Instr), d.portOfLane lane = some p → (d.port p).bring =
    .train → Runs (.coefficientRequest lane (3) up) d w fun t => t.reg (Off.laneTxTap lane) = d.reg (Off.laneTxTap lane) ∧
    (t.port p).reply = 2)

/-- A HELLO is sent once per second and counted; a received HELLO makes the partner's parameters current for 3 s; the sleep
  conditions held for IDLE send three SLEEP frames, one by one, and after the third the transmit direction sleeps, while
  a condition that ends cancels the entry; it wakes within 2 µs, after 1 µs of quiet, when the conditions end, at its
  refresh, or for a HELLO of its own; a received SLEEP arms the receive direction, which wakes when the signal is back,
  and declares loss of signal when it does not return. -/
def Obligations.LaneSleep : Prop :=
  (∀ (port : Fin 512) (d : Device) (w : List Instr), d.txReady port = true → (d.port port).helloAt.all (fun x => decide (x +
    1000000000 ≤ d.transit)) = true → Runs (.helloSend port) d w fun t => (t.port port).wire = d.sleepFrame port 1 (b2n
    (d.flag (Off.portSleep port) 30) + 2 * b2n (d.flag (Off.portSleep port) 31)) (d.sleepRefreshMs port) 0 ∧ (t.port
    port).helloAt = some d.transit ∧ t.reg (Off.portSleepTx port) = sat32 (d.reg (Off.portSleepTx port) + 1)) ∧
  (∀ (port : Fin 512) (bytes : List Byte) (d : Device) (w : List Instr), d.rxOpen port = true → isSleepFrame bytes = true →
    d.rxVerdict port bytes false = .good → fieldBE bytes 14 2 = 0x4C53 → fieldBE bytes 16 1 = 1 → fieldBE bytes 17 1 = 1 →
    Runs (.hello port bytes) d w fun t => t.flag (Off.portStatus port) 28 = bit (fieldBE bytes 18 1) 0 ∧ (t.port port).peer =
    some (d.transit + 3000000000, fieldBE bytes 18 1, fieldBE bytes 20 2) ∧ t.reg (Off.portSleepRx port) = sat32 (d.reg
    (Off.portSleepRx port) + 1)) ∧
  (∀ (port : Fin 512) (d : Device) (w : List Instr), d.portUp port = true → d.txAsleep port = true → d.pwr.squelch = false →
    (d.port port).txWakeAt = none → (d.port port).helloAt.all (fun x => decide (x + 1000000000 ≤ d.transit)) = true → Runs
    (.helloSend port) d w fun t => (t.port port).txWakeAt = some (max d.transit ((d.port port).idleFrom + 1000) + 2000)) ∧
  (∀ (port : Fin 512) (x : Nat) (k : Nat × Nat) (d : Device) (w : List Instr), (d.port port).peer = some (x, k) → x ≤
    d.transit → Runs (.helloExpiry port) d w fun t => t.flag (Off.portStatus port) 28 = false ∧ (t.port port).peer = none ∧
    (d.txAsleep port = true → (d.port port).txWakeAt = none → d.pwr.squelch = false → (t.port port).txWakeAt = some (max
    d.transit ((d.port port).idleFrom + 1000) + 2000))) ∧
  (∀ (port : Fin 512) (d : Device) (w : List Instr), d.pwr.squelch = false → d.sleepOk port = true → d.txAsleep port = false
    → (d.port port).txWakeAt = none → (d.port port).sleepCopies ≠ 0 ∨ (d.port port).idleFrom + 1000 * d.sleepIdleUs port ≤
    d.transit → Runs (.sleepEntry port) d w fun t => (t.port port).wire = d.sleepFrame port 2 0 (d.sleepR port) ((d.port
    port).sleepCopies + 1) ∧ t.reg (Off.portSleepTx port) = sat32 (d.reg (Off.portSleepTx port) + 1) ∧ (if (d.port
    port).sleepCopies < 2 then (t.port port).sleepCopies = (d.port port).sleepCopies + 1 ∧ t.txAsleep port = false else
    t.flag (Off.portStatus port) 27 = true ∧ (t.port port).txAsleep = true ∧ (t.port port).sleepRefresh = d.transit + 1000000
    * d.sleepR port)) ∧
  (∀ (port : Fin 512) (d : Device) (w : List Instr), d.sleepOk port = false → (d.port port).sleepCopies ≠ 0 → Runs
    (.sleepEntry port) d w fun t => (t.port port).sleepCopies = 0 ∧ t.txAsleep port = d.txAsleep port) ∧
  (∀ (port : Fin 512) (bytes : List Byte) (d : Device) (w : List Instr), d.rxOpen port = true → isSleepFrame bytes = true →
    d.rxVerdict port bytes false = .good → fieldBE bytes 14 2 = 0x4C53 → fieldBE bytes 16 1 = 1 → fieldBE bytes 17 1 = 2 →
    Runs (.sleep_ port bytes) d w fun t => (t.port port).rxArmed = some (fieldBE bytes 20 2) ∧ t.reg (Off.portSleepRx port) =
    sat32 (d.reg (Off.portSleepRx port) + 1)) ∧
  (∀ (port : Fin 512) (d : Device) (w : List Instr), d.sleepOk port = false → d.pwr.squelch = false → d.txAsleep port = true
    → (d.port port).txWakeAt = none → Runs (.txWake port) d w fun t => (t.port port).txWakeAt = some (max d.transit ((d.port
    port).idleFrom + 1000) + 2000)) ∧
  (∀ (port : Fin 512) (d : Device) (w : List Instr), (d.port port).sleepRefresh ≠ 0 → (d.port port).sleepRefresh ≤ d.transit
    → d.pwr.squelch = false → d.txAsleep port = true → (d.port port).txWakeAt = none → Runs (.laneRefresh port) d w fun t =>
    (t.port port).txWakeAt = some (max d.transit ((d.port port).idleFrom + 1000) + 2000) ∧ (t.port port).sleepRefresh = 0) ∧
  (∀ (port : Fin 512) (x : Nat) (d : Device) (w : List Instr), (d.port port).txWakeAt = some x → x ≤ d.transit →
    d.pwr.squelch = false → Runs (.txAwake port) d w fun t => t.flag (Off.portStatus port) 27 = false ∧ (t.port
    port).txAsleep = false ∧ (t.port port).txWakeAt = none) ∧
  (∀ (port : Fin 512) (d : Device) (w : List Instr), d.rxAsleep port = true → (d.port port).rxAsleepAt = none → Runs
    (.rxAwake port) d w fun t => t.rxAsleep port = false ∧ (t.port port).rxArmed = none) ∧
  (∀ (port : Fin 512) (x : Nat) (d : Device) (w : List Instr), (d.port port).rxAsleepAt = some x → x + 2 * (d.port
    port).rxArmed.getD 1 * 1000000 ≤ d.transit → Runs (.rxNoReturn port) d w fun t => t.rxAsleep port = false ∧ ((d.lanesOf
    port).all fun l => t.flag (Off.laneStatus l) 4) = true)

/-- A verify frame is sent up to three times 10 ms apart and its answer makes preemption active, or after three the port is
  marked; a member whose port counts more than EXCL_LIMIT uncorrectable codewords in a millisecond is excluded, and
  readmitted once its port has been up for READMIT ms; the gap timer of a float context moves its expected number to the
  first held one and past those that follow; a recovery context that has accepted nothing for its time takes any number
  next. -/
def Obligations.VerificationAndSpread : Prop :=
  (∀ (port : Fin 512) (d : Device) (w : List Instr), d.verifying? port = true → d.txReady port = true → (d.port
    port).verifySent < 3 → ((d.port port).verifySent = 0 ∨ (d.port port).verifyAt + 10000000 ≤ d.transit) → Runs (.verifySend
    port) d w fun t => (t.port port).verifySent = (d.port port).verifySent + 1 ∧ (t.port port).verifyAt = d.transit ∧ (t.port
    port).wire = verifyFrame) ∧
  (∀ (port : Fin 512) (d : Device) (w : List Instr), d.verifying? port = true → (d.port port).verifySent ≠ 0 → Runs
    (.verifyAnswered port) d w fun t => t.flag (Off.portStatus port) 29 = true ∧ (t.port port).verified = true) ∧
  (∀ (port : Fin 512) (d : Device) (w : List Instr), d.verifying? port = true → (d.port port).verifySent = 3 → (d.port
    port).verifyAt + 10000000 ≤ d.transit → Runs (.verifyFail port) d w fun t => t.flag (Off.portStatus port) 25 = true) ∧
  (∀ (group : Fin 256) (n : MemberErrors) (d : Device) (w : List Instr), (n.member : Nat) < d.nmemb group → d.fld
    (Off.spreadGrpExcl group) 15 0 < n.uncorr → Runs (.memberExcluded group n) d w fun t => NMap.get? (t.group
    group).excluded n.member = some d.transit ∧ t.memberLive group n.member = false ∧ t.reg (Off.portFecUncorr (d.member
    group n.member)) = sat32 (d.reg (Off.portFecUncorr (d.member group n.member)) + n.uncorr)) ∧
  (∀ (group : Fin 256) (n : Fin 64) (x : Nat) (d : Device) (w : List Instr), NMap.get? (d.group group).excluded n = some x →
    d.portUp (d.member group n) = true → x + 1000000 * max 1 (d.fld (Off.spreadGrpExcl group) 31 16) ≤ d.transit → Runs
    (.memberReadmitted group n) d w fun t => NMap.has (t.group group).excluded n = false) ∧
  (∀ (ctx : Nat) (c : FloatCtx) (x k f : Nat) (rest : List (Nat × Nat)) (d : Device) (w : List Instr), NMap.get?
    d.spread.floats ctx = some c → c.timer = some x → x ≤ d.transit → heldByDistance c.held c.expect = (k, f) :: rest → Runs
    (.gapTimer ctx) d w fun t => ((NMap.get? t.spread.floats ctx).any fun y => y.expect == (floatRun 1024 c.held ((c.expect +
    k) % 65536)).2.2 && y.held == (floatRun 1024 c.held ((c.expect + k) % 65536)).2.1) = true ∧ (0 < k → t.reg
    Off.spreadFloatGapCnt = sat32 (d.reg Off.spreadFloatGapCnt + k))) ∧
  (∀ (ctx : Nat) (c : TwinCtx) (d : Device) (w : List Instr), NMap.get? d.spread.twins ctx = some c → c.takeAny = false →
    c.lastAt + 1000000 * max 1 (d.fld (Off.spreadTwinProf c.prof) 15 0) ≤ d.transit → Runs (.twinReset ctx) d w fun t =>
    ((NMap.get? t.spread.twins ctx).any fun y => y.takeAny && y.hist.isEmpty) = true ∧ t.reg Off.spreadTwinReset = sat32
    (d.reg Off.spreadTwinReset + 1))

/-- A received frame adds its uncorrectable codewords, and the third exact alignment word in a row at a phase puts the lane
  in frame; the lane containers of one number become a span container; each 1,638.4 ns every lane sends a frame that
  begins with the alignment word and the counters move on; too many codewords in a millisecond declare SF, too many BIP
  errors in 100 ms SD, ten clean periods clear them, and out of frame for LOF_SET declares LOF; the wait to restore ends. -/
def Obligations.LathFramesAndDefects : Prop :=
  (∀ (span : Fin 32) (lane : Nat) (phase : Nat) (words : List DWord) (uncorr : Nat) (d : Device) (w : List Instr), d.spanEn
    span = true → d.domainOk 8 span = true → lane < d.spanL span → words.length = 2570 → Runs (.lathFrameReceive span lane
    phase words uncorr) d w fun t => t.reg (Off.lathFecUncorr span) = sat32 (d.reg (Off.lathFecUncorr span) + uncorr) ∧
    (t.span span).uncMs = (d.span span).uncMs + uncorr) ∧
  (∀ (span : Fin 32) (lane : Nat) (phase : Nat) (words : List DWord) (uncorr : Nat) (d : Device) (w : List Instr), d.spanEn
    span = true → d.domainOk 8 span = true → lane < d.spanL span → words.length = 2570 → (d.lane span lane).inFrame = false →
    NMap.getD (d.lane span lane).cands phase 0 = 2 → words.headD 0 = BitVec.ofNat 64 faw → Runs (.lathFrameReceive span lane
    phase words uncorr) d w fun t => (t.lane span lane).inFrame = true ∧ (t.lane span lane).phase = phase ∧ t.flag
    (Off.lathStatus span) lane = false) ∧
  (∀ (span : Fin 32) (h : RxContainer) (hs : List RxContainer) (d : Device) (w : List Instr), d.firstSet span = some (h ::
    hs) → Runs (.containerAssemble span) d w fun t => (t.span span).kept = ((d.span span).kept ++ [(⟨0, h.seq, interleave
    (d.spanL span) ((h :: hs).map fun c => c.words), hs.foldl (fun n c => max n c.ended) h.ended⟩ : RxContainer)]).drop
    ((d.span span).kept.length - 7) ∧ (t.span span).badCseq = 0 ∧ (t.span span).goodCont = (d.span span).goodCont + 1) ∧
  (∀ (span : Fin 32) (stuffs : List Nat) (d : Device) (w : List Instr), d.spanEn span = true → d.domainOk 8 span = true →
    d.protects span = none → d.pwr.squelch = false → d.partner span ≠ some span.val → Runs (.containerSend span stuffs) d w
    fun t => (t.span span).cseq = ((d.span span).cseq + 1) % 2 ^ 32 ∧ (t.span span).fcnt = ((d.span span).fcnt + 1) % 256 ∧
    ((List.range (d.spanL span)).all fun i => (NMap.getD (t.span span).out i []).head? == some (BitVec.ofNat 64 faw)) = true) ∧
  (∀ (span : Fin 32) (d : Device) (w : List Instr), d.spanEn span = true → d.fld (Off.lathDefCfg span) 15 8 < (d.span
    span).uncMs → Runs (.sfPeriod span) d w fun t => t.flag (Off.lathStatus span) 26 = true ∧ (t.span span).uncMs = 0) ∧
  (∀ (span : Fin 32) (d : Device) (w : List Instr), d.spanEn span = true → (d.span span).uncMs ≤ d.fld (Off.lathDefCfg span)
    15 8 → 9 ≤ (d.span span).sfClean → Runs (.sfPeriod span) d w fun t => t.flag (Off.lathStatus span) 26 = false ∧ (t.span
    span).uncMs = 0) ∧
  (∀ (span : Fin 32) (d : Device) (w : List Instr), d.spanEn span = true → 16 * d.fld (Off.lathDefCfg span) 7 0 < (d.span
    span).bipPeriod → Runs (.sdPeriod span) d w fun t => t.flag (Off.lathStatus span) 27 = true ∧ (t.span span).bipPeriod =
    0) ∧
  (∀ (span : Fin 32) (d : Device) (w : List Instr), d.spanEn span = true → (d.span span).bipPeriod ≤ 16 * d.fld
    (Off.lathDefCfg span) 7 0 → 9 ≤ (d.span span).sdClean → Runs (.sdPeriod span) d w fun t => t.flag (Off.lathStatus span)
    27 = false ∧ (t.span span).bipPeriod = 0) ∧
  (∀ (span : Fin 32) (lane : Nat) (d : Device) (w : List Instr), d.spanEn span = true → lane < d.spanL span → d.flag
    (Off.lathStatus span) lane = true → (d.lane span lane).since + 10000 * max 1 (d.fld (Off.lathDefCfg span) 31 24) ≤
    d.transit → Runs (.lof span lane) d w fun t => t.flag (Off.lathStatus span) (8 + lane) = true) ∧
  (∀ (span : Fin 32) (x : Nat) (d : Device) (w : List Instr), (d.span span).wtr = some x → x ≤ d.transit → (d.span
    span).wasBad = false → Runs (.wtr span) d w fun t => (t.span span).wtr = none)

/-- A tick adds 1 to the transit count and 2^32 plus ADJ and the slew to time base 0, or in the island 40 and AON_INC; a
  snapshot whose time has come completes; a scheduled edge of a pin is produced and the next one scheduled; an edge on a
  capturing pin goes into its FIFO or is lost; PPS_OUT gives its pulse at a whole second and PPS_IN is captured; the
  alarm fires once; a lost reference and a lost PPS are noted; the oscillator's mean enters AON_INC. -/
def Obligations.TimeBases : Prop :=
  (∀ (d : Device) (w : List Instr), d.pwr.phase ≠ .off → d.islandTime = false → d.tilesMoved = [] → (d.pwr.s5At.all fun x =>
    d.transit + 1 < x) = true → Runs .tick d w fun t => t.transit = (d.transit + 1) % 2 ^ 64 ∧ ((List.range 8).all fun n =>
    (n != 0 && !d.multi) || ((t.tb n).count == ((d.tb n).advance (2 ^ 32 + signed 32 (d.reg (Off.plumbTbAdj n)) + clampI
    (-d.slewRate n) (d.slewRate n) (d.tb n).slewLeft)).count && (t.tb n).slewLeft == (d.tb n).slewLeft - clampI (-d.slewRate
    n) (d.slewRate n) (d.tb n).slewLeft)) = true) ∧
  (∀ (d : Device) (w : List Instr), d.pwr.phase ≠ .off → d.islandTime = true → d.tilesMoved = [] → (d.pwr.s5At.all fun x =>
    d.transit + 40 < x) = true → Runs .tick d w fun t => t.transit = (d.transit + 40) % 2 ^ 64 ∧ t.tb 0 = (d.tb 0).advance
    (40 * 2 ^ 32 + signed 32 (d.reg Off.plumbAonInc))) ∧
  (∀ (q : SnapReq) (o : OutCmd) (d : Device) (w : List Instr), d.coats.pending = none → d.pwr.switch = none → d.pwr.codeWait
    = none → d.gatesDue = [] → d.perf.waiting = [q] → q.time ≤ d.tbCount 0 → d.held q.seat q.ring 0x0E = some o → d.noBarrier
    = true → Runs .timeTrigger d w fun t => t.perf.waiting = [] ∧ t.fld Off.perfSnapPend 2 0 = 0 ∧ ringDone d t q.seat q.ring
    = true) ∧
  (∀ (pin : Fin 16) (x : Nat) (d : Device) (w : List Instr), (d.tio pin).next = some x → x < d.tioNow pin + 2 ^ 16 →
    d.pwr.tioHeld = none → d.noneDueBefore 6 = true → Runs (.tioEdge pin) d w fun t => (t.tio pin).placed = some ((x + 4096)
    / 8192 * 8192) ∧ (t.tio pin).level = (d.tioMode pin != 7) ∧ (t.tio pin).fired = (d.tioMode pin != 5) ∧ ((d.tioMode pin =
    4 ∨ d.tioMode pin = 5) → (t.tio pin).offAt = some (d.transit + max 1 (d.reg (Off.plumbTioWidth pin))))) ∧
  (∀ (pin : Fin 16) (rising : Bool) (d : Device) (w : List Instr), (d.tioMode pin = 3 ∨ (d.tioMode pin = 1 ∧ rising = true) ∨
    (d.tioMode pin = 2 ∧ rising = false)) → (d.tio pin).fifo.length < 16 → Runs (.tioCapture pin rising) d w fun t => (t.tio
    pin).fifo = (d.tio pin).fifo ++ [(d.tbCount (d.tioBase pin), rising)]) ∧
  (∀ (pin : Fin 16) (rising : Bool) (d : Device) (w : List Instr), (d.tioMode pin = 3 ∨ (d.tioMode pin = 1 ∧ rising = true) ∨
    (d.tioMode pin = 2 ∧ rising = false)) → 16 ≤ (d.tio pin).fifo.length → Runs (.tioCapture pin rising) d w fun t => (t.tio
    pin).fifo = (d.tio pin).fifo ∧ t.flag (Off.plumbTioCtl pin) 10 = true) ∧
  (∀ (d : Device) (w : List Instr), d.flag Off.plumbPps 31 = true → (d.tbNow d.plumb.ppsBase).ns < 2 → (d.tbNow
    d.plumb.ppsBase).sec ≠ d.plumb.ppsSec → d.pwr.tioHeld = none → d.noneDueBefore 6 = true → Runs .ppsOut d w fun t =>
    t.plumb.ppsSec = (d.tbNow d.plumb.ppsBase).sec ∧ t.plumb.ppsOff = some (d.transit + 1000 * max 1 (d.fld Off.plumbPps 15
    0))) ∧
  (∀ (d : Device) (w : List Instr), Runs .ppsIn d w fun t => t.reg64 Off.plumbPpsCapLo = d.tbCount (d.fld Off.plumbServoCtl
    29 27) % 2 ^ 64 ∧ t.plumb.ppsSeen = some d.transit ∧ t.plumb.ppsLost = false) ∧
  (∀ (x : Nat) (d : Device) (w : List Instr), d.plumb.ppsSeen = some x → d.plumb.ppsLost = false → x + 2000000000 ≤ d.transit
    → Runs .ppsLost d w fun t => t.plumb.ppsLost = true) ∧
  (∀ (d : Device) (w : List Instr), d.reg64 Off.plumbAlarmLo ≠ 0 → d.reg64 Off.plumbAlarmLo ≤ d.tbCount 0 →
    d.plumb.alarmFired = false → d.noneDueBefore 7 = true → Runs .alarm d w fun t => t.plumb.alarmFired = true) ∧
  (∀ (d : Device) (w : List Instr), d.flag Off.plumbStatus 0 = true → Runs .trefLost d w fun t => t.flag Off.plumbStatus 0 =
    false ∧ t.flag Off.plumbStatus 1 = true) ∧
  (∀ (count : BitVec 32) (d : Device) (w : List Instr), d.pwr.phase ≠ .off → d.islandTime = false → Runs (.aonMeasure count)
    d w fun t => t.plumb.aon = (count.toNat :: d.plumb.aon).take 16 ∧ t.reg Off.plumbAonInc = unsigned 32 (clampI (-aonLimit)
    aonLimit ((((count.toNat :: d.plumb.aon).take 16).map fun c => signed 32 c).sum / (((count.toNat :: d.plumb.aon).take
    16).length : Int))))

/-- An offset, of a Sync and its Follow_Up or of a PPS capture not yet taken, enters the control law within STEP_THR and
  steps the base beyond it; it counts toward lock, and moves the state; in Doze nothing is taken; the servo sends its
  Pdelay_Req once per second and answers the partner's; from LOCKED it holds over when offsets or edges stop for LOSS. -/
def Obligations.Servo : Prop :=
  (∀ (value : Int) (o : Int) (d : Device) (w : List Instr), d.servoOn = true → d.pwr.portsDown = false → (d.servoPps = false
    ∧ d.portUp d.servoPort = true ∧ o = value) ∨ (d.servoPps = true ∧ (d.plumb.ppsSeen.any fun x => decide
    (d.plumb.lastOffsetAt < x)) = true ∧ o = d.ppsOffset) → o.natAbs ≤ d.fld Off.plumbServoLim 31 16 → Runs (.servoOffset
    value) d w fun t => t.plumb.integ = clampI (-256000000) 256000000 (d.plumb.integ + d.fld Off.plumbServoGain 15 0 * o) ∧
    t.reg (Off.plumbTbAdj d.servoBase) = unsigned 32 ((2 * clampI (-256000000) 256000000 (-((d.fld Off.plumbServoGain 31 16 :
    Int) * o + clampI (-256000000) 256000000 (d.plumb.integ + d.fld Off.plumbServoGain 15 0 * o))) * 2 ^ 32 + 256000000000) /
    512000000000) ∧ t.tb d.servoBase = d.tb d.servoBase) ∧
  (∀ (value : Int) (o : Int) (d : Device) (w : List Instr), d.servoOn = true → d.pwr.portsDown = false → (d.servoPps = false
    ∧ d.portUp d.servoPort = true ∧ o = value) ∨ (d.servoPps = true ∧ (d.plumb.ppsSeen.any fun x => decide
    (d.plumb.lastOffsetAt < x)) = true ∧ o = d.ppsOffset) → d.fld Off.plumbServoLim 31 16 < o.natAbs → Runs (.servoOffset
    value) d w fun t => t.flag (Off.plumbTbStatus d.servoBase) 0 = true ∧ (if d.servoBase = 0 ∨ d.multi = true then t.tb
    d.servoBase = (d.tb d.servoBase).advance (-o * 2 ^ 32) else t.reg64 (Off.plumbTbOfsLo d.servoBase) = unsigned 64 (d.tbOfs
    d.servoBase - o))) ∧
  (∀ (value : Int) (o : Int) (n : Nat) (d : Device) (w : List Instr), d.servoOn = true → d.pwr.portsDown = false →
    (d.servoPps = false ∧ d.portUp d.servoPort = true ∧ o = value) ∨ (d.servoPps = true ∧ (d.plumb.ppsSeen.any fun x =>
    decide (d.plumb.lastOffsetAt < x)) = true ∧ o = d.ppsOffset) → n = (if o.natAbs ≤ d.fld Off.plumbServoLim 15 8 then
    d.plumb.inLock + 1 else 0) → Runs (.servoOffset value) d w fun t => t.plumb.lastOffsetAt = d.transit ∧ t.plumb.inLock = n
    ∧ t.servoState = (if 16 ≤ n then 2 else if d.servoState = 0 ∨ d.servoState = 3 then 1 else d.servoState)) ∧
  (∀ (value : Int) (d : Device) (w : List Instr), d.pwr.portsDown = true → Runs (.servoOffset value) d w fun t => t = d) ∧
  (∀ (d : Device) (w : List Instr), d.pwr.squelch = false → d.servoOn = true → d.servoPps = false → d.portUp d.servoPort =
    true → d.txAsleep d.servoPort = false → d.plumb.pdelaySec + 1000000000 ≤ d.transit → Runs .pdelayReqSend d w fun t =>
    (t.port d.servoPort).wire = Config.ptpFrame 0 d.servoPort d.plumb.pdelaySeq ∧ t.plumb.pdelaySeq = (d.plumb.pdelaySeq + 1)
    % 65536 ∧ t.plumb.pdelaySec = d.transit) ∧
  (∀ (port : Fin 512) (bytes : List Byte) (d : Device) (w : List Instr), d.pwr.squelch = false → d.rxOpen port = true →
    d.isServoFrame port bytes = true → d.rxVerdict port bytes false = .good → Runs (.pdelayReq port bytes) d w fun t =>
    (t.port port).wire = Config.ptpFrame 1 port (fieldBE bytes 44 2) ∧ t.reg64 (Off.portRxFramesLo port) = (d.reg64
    (Off.portRxFramesLo port) + 1) % 2 ^ 64) ∧
  (∀ (d : Device) (w : List Instr), d.servoOn = true → d.servoState = 2 → (if d.servoPps = true then d.plumb.ppsSeen.getD 0 +
    1000000000 * max 1 (d.fld Off.plumbServoLim 7 0) ≤ d.transit else d.plumb.lastOffsetAt + d.plumb.offsetGap * max 1 (d.fld
    Off.plumbServoLim 7 0) ≤ d.transit) → Runs .holdover d w fun t => t.servoState = 3 ∧ t.plumb.inLock = 0)

/-- A committed coat that verifies becomes pending with its commit time and one that does not is refused; a pending coat
  whose time has come takes a free slot and is current; a draining coat that no frame carries retires; settling gives the
  younger coats the settled log; after COAT_EGEN_WAIT the copies of the oldest unused egress slot are void; a reloaded
  step word and a rewritten table word leave their lists; a quote that begins to police is counted and a released one
  ends. -/
def Obligations.CoatLife : Prop :=
  (∀ (v : Verifying) (e : Device) (x : Nat) (d : Device) (w : List Instr), d.darbyRuns = true → d.coats.verifying = some v →
    e = (if d.wordsFit d.stagedCoat stnList then d.placeWords d.stagedCoat stnList else d) → e.verify = none →
    e.quoteConflict e.stagedCoat = none → e.commitTime v = some x → Runs .verifyComplete d w fun t => t.coats.verifying =
    none ∧ t.coats.staged = [] ∧ ((t.coats.pending).any fun p => p.time == x && p.coat.id == d.stagedCoat.id && p.cmd == some
    v) = true) ∧
  (∀ (v : Verifying) (e : Device) (d : Device) (w : List Instr), d.darbyRuns = true → d.coats.verifying = some v → e = (if
    d.wordsFit d.stagedCoat stnList then d.placeWords d.stagedCoat stnList else d) → e.verify.isSome = true → Runs
    .verifyComplete d w fun t => t.coats.verifying = none ∧ t.coats.pending = d.coats.pending ∧ t.coats.staged =
    d.coats.staged) ∧
  (∀ (p : PendingCoat) (s : Nat) (d : Device) (w : List Instr), d.pwr.switch = none → d.darbyRuns = true → d.coats.pending =
    some p → p.time ≤ d.tbCount 0 → p.again = false → freeKey d.coats.slots 4 = some s → d.settleHolds = false → (freeKey
    d.freeEgress.coats.egress 8).isSome = true → Runs .coatCurrent d w fun t => t.coats.cur = some s ∧ t.coats.pending = none
    ∧ t.coats.order = d.coats.order ++ [s] ∧ ((t.coatAt s).map fun c => c.id) = some p.coat.id ∧ t.reg64 Off.coatTimeLo =
    d.tbCount 0 % 2 ^ 64) ∧
  (∀ (slot : Fin 4) (c : Coat) (d : Device) (w : List Instr), d.pwr.switch = none → d.coats.pending = none → d.coatAt slot =
    some c → d.coats.cur ≠ some slot.val → d.carrying slot = 0 → Runs (.coatRetired slot) d w fun t => t.coatAt slot = none ∧
    t.coats.old = d.coats.old ++ [c] ∧ (t.coats.settling = if d.coats.order.head? = some slot.val then d.coats.settling ++
    ((t.coats.order.head?.bind d.coatAt).map fun x => (x.id, x.commit)).toList else d.coats.settling)) ∧
  (∀ (i x : Nat) (rest : List (Nat × Nat)) (d : Device) (w : List Instr), d.pwr.switch = none → d.coats.pending = none →
    d.coats.settling = (i, x) :: rest → d.darbyRuns = true → Runs .settled d w fun t => t.coats.settling = rest ∧ t.coats.old
    = (d.coats.old.filter fun c => coatGe c.id i).map (Coat.settle i) ∧ t.coats.slots = d.coats.slots.map fun (k, v) => (k,
    v.settle i)) ∧
  (∀ (p : PendingCoat) (x e : Nat) (d : Device) (w : List Instr), d.pwr.switch = none → d.coats.pending = some p →
    p.waitEgDue = some x → x ≤ d.transit → d.freeEgress.coats.egOrder.find? (fun e => !d.coats.slots.vals.any fun c =>
    c.egSlot == e) = some e → Runs .egenWaitExpiry d w fun t => (t.buf.copies.keys = d.buf.copies.keys ∧
    d.freeEgress.buf.copies.all fun (k, c) => t.copy k == some (if c.egen = e ∧ (c.stage = .queued ∨ c.inStations = true)
    then { c with egen := if c.stage = .queued then 8 else 9 + d.freeEgress.coats.egress.keys.foldl max 8 } else c)) ∧
    (t.coats.egOrder = d.freeEgress.coats.egOrder.filter (· ≠ e) ∨ t.coats.egOrder.dropLast =
    d.freeEgress.coats.egOrder.filter (· ≠ e))) ∧
  (∀ (inst : Fin 64) (station : Nat) (addr : Nat) (poison : ImagePoison) (d : Device) (w : List Instr), (poison.first &&
    poison.second) = false → d.darbyRuns = true → d.pipes.reload.contains (inst.val * 64 + station, addr) = true → Runs
    (.stepWordReload inst station addr poison) d w fun t => t.pipes.reload = d.pipes.reload.filter fun x => x ≠ (inst.val *
    64 + station, addr)) ∧
  (∀ (num : Nat) (inst : Nat) (word : DamagedWord) (poison : ImagePoison) (d : Device) (w : List Instr), (poison.first &&
    poison.second) = false → d.darbyRuns = true → d.coats.damaged.contains (num, inst, word) = true → Runs (.tableWordRewrite
    num inst word poison) d w fun t => t.coats.damaged = d.coats.damaged.filter fun x => x ≠ (num, inst, word)) ∧
  (∀ (qid : Nat) (d : Device) (w : List Instr), d.quoteActive qid = true → Runs (.quoteActive qid) d w fun t => t.reg
    Off.schedQuoteActive = (d.quotes.filter fun q => d.quoteActive q.1).length % 2 ^ 32) ∧
  (∀ (qid : Nat) (q : Quote) (r : Release) (d : Device) (w : List Instr), d.quote qid = some q → q.release = some r → r.due ≤
    d.transit → d.darbyRuns = true → d.fault.stopping = false → Runs (.releaseWait qid) d w fun t => t.quote qid = none)

/-- An ALU instruction that issues computes in 32 bits from RA and IMM or RB, and its result is visible one station on: sum,
  difference, bit operations, shifts, rotation, the smaller, the larger, a move, an immediate, a selection by a
  predicate, and the number of ones. -/
def Obligations.LineAlu : Prop :=
  (∀ (who : Who) (q : Pred) (f : FmtA) (x : Ctx) (d : Device) (w : List Instr), d.issues who q 0x00 f.enc = some x → lineRegs
    f = true → Runs (.add who q f) d w fun t => t.lineCtx who = some (x.sends 1 [.reg f.rd (BitVec.zeroExtend 64 (aluA x.regs
    f + aluB x.regs f))])) ∧
  (∀ (who : Who) (q : Pred) (f : FmtA) (x : Ctx) (d : Device) (w : List Instr), d.issues who q 0x01 f.enc = some x → lineRegs
    f = true → Runs (.sub who q f) d w fun t => t.lineCtx who = some (x.sends 1 [.reg f.rd (BitVec.zeroExtend 64 (aluA x.regs
    f - aluB x.regs f))])) ∧
  (∀ (who : Who) (q : Pred) (f : FmtA) (x : Ctx) (d : Device) (w : List Instr), d.issues who q 0x02 f.enc = some x → lineRegs
    f = true → Runs (.and who q f) d w fun t => t.lineCtx who = some (x.sends 1 [.reg f.rd (BitVec.zeroExtend 64 (aluA x.regs
    f &&& aluB x.regs f))])) ∧
  (∀ (who : Who) (q : Pred) (f : FmtA) (x : Ctx) (d : Device) (w : List Instr), d.issues who q 0x03 f.enc = some x → lineRegs
    f = true → Runs (.or who q f) d w fun t => t.lineCtx who = some (x.sends 1 [.reg f.rd (BitVec.zeroExtend 64 (aluA x.regs
    f ||| aluB x.regs f))])) ∧
  (∀ (who : Who) (q : Pred) (f : FmtA) (x : Ctx) (d : Device) (w : List Instr), d.issues who q 0x04 f.enc = some x → lineRegs
    f = true → Runs (.xor who q f) d w fun t => t.lineCtx who = some (x.sends 1 [.reg f.rd (BitVec.zeroExtend 64 (aluA x.regs
    f ^^^ aluB x.regs f))])) ∧
  (∀ (who : Who) (q : Pred) (f : FmtA) (x : Ctx) (d : Device) (w : List Instr), d.issues who q 0x05 f.enc = some x → lineRegs
    f = true → Runs (.shl who q f) d w fun t => t.lineCtx who = some (x.sends 1 [.reg f.rd (BitVec.zeroExtend 64 (aluA x.regs
    f <<< ((aluB x.regs f).toNat % 64)))])) ∧
  (∀ (who : Who) (q : Pred) (f : FmtA) (x : Ctx) (d : Device) (w : List Instr), d.issues who q 0x06 f.enc = some x → lineRegs
    f = true → Runs (.shr who q f) d w fun t => t.lineCtx who = some (x.sends 1 [.reg f.rd (BitVec.zeroExtend 64 (if f.x then
    BitVec.sshiftRight (aluA x.regs f) ((aluB x.regs f).toNat % 64) else aluA x.regs f >>> ((aluB x.regs f).toNat % 64)))])) ∧
  (∀ (who : Who) (q : Pred) (f : FmtA) (x : Ctx) (d : Device) (w : List Instr), d.issues who q 0x07 f.enc = some x → lineRegs
    f = true → Runs (.rot who q f) d w fun t => t.lineCtx who = some (x.sends 1 [.reg f.rd (BitVec.zeroExtend 64
    (BitVec.rotateRight (aluA x.regs f) ((aluB x.regs f).toNat % 32)))])) ∧
  (∀ (who : Who) (q : Pred) (f : FmtA) (x : Ctx) (d : Device) (w : List Instr), d.issues who q 0x08 f.enc = some x → lineRegs
    f = true → Runs (.min who q f) d w fun t => t.lineCtx who = some (x.sends 1 [.reg f.rd (BitVec.zeroExtend 64 (if f.x then
    (if BitVec.sle (aluA x.regs f) (aluB x.regs f) then aluA x.regs f else aluB x.regs f) else (if aluA x.regs f ≤ aluB
    x.regs f then aluA x.regs f else aluB x.regs f)))])) ∧
  (∀ (who : Who) (q : Pred) (f : FmtA) (x : Ctx) (d : Device) (w : List Instr), d.issues who q 0x09 f.enc = some x → lineRegs
    f = true → Runs (.max who q f) d w fun t => t.lineCtx who = some (x.sends 1 [.reg f.rd (BitVec.zeroExtend 64 (if f.x then
    (if BitVec.sle (aluA x.regs f) (aluB x.regs f) then aluB x.regs f else aluA x.regs f) else (if aluA x.regs f ≤ aluB
    x.regs f then aluB x.regs f else aluA x.regs f)))])) ∧
  (∀ (who : Who) (q : Pred) (f : FmtA) (x : Ctx) (d : Device) (w : List Instr), d.issues who q 0x0C f.enc = some x → lineRegs
    f = true → Runs (.mov who q f) d w fun t => t.lineCtx who = some (x.sends 1 [.reg f.rd (BitVec.zeroExtend 64 (aluA x.regs
    f))])) ∧
  (∀ (who : Who) (q : Pred) (f : FmtA) (x : Ctx) (d : Device) (w : List Instr), d.issues who q 0x0D f.enc = some x → isS f.rd
    = false → destOk f.rd = true → f.x = false → Runs (.movi who q f) d w fun t => t.lineCtx who = some (x.sends 1 [.reg f.rd
    (BitVec.zeroExtend 64 f.imm)])) ∧
  (∀ (who : Who) (q : Pred) (f : FmtA) (x : Ctx) (d : Device) (w : List Instr), d.issues who q 0x0E f.enc = some x → lineRegs
    f = true → isS f.rb = false → f.i = false → Runs (.sel who q f) d w fun t => t.lineCtx who = some (x.sends 1 [.reg f.rd
    (if x.regs.pred (BitVec.truncate 3 f.imm) then x.regs.get f.ra else x.regs.get f.rb)])) ∧
  (∀ (who : Who) (q : Pred) (f : FmtA) (x : Ctx) (d : Device) (w : List Instr), d.issues who q 0x11 f.enc = some x → isS f.rd
    = false → (f.i || !isS f.rb) = true → destOk f.rd = true → Runs (.popc who q f) d w fun t => t.lineCtx who = some
    (x.sends 1 [.reg f.rd (BitVec.ofNat 64 ((List.range 32).filter fun i => (aluB x.regs f).getLsbD i).length)]))

/-- CMP and TST write their predicate one station on; HASH and CSUM write their value two stations on; EXT and EXTM take bits
  of the window, of K or of a lookup slot, INS puts bits into a register, KEYB puts bytes into K, and ADV moves the base
  of the next pass. -/
def Obligations.LineTestsAndBytes : Prop :=
  (∀ (who : Who) (q : Pred) (f : FmtP) (x : Ctx) (d : Device) (w : List Instr), d.issues who q 0x0A f.enc = some x → isS f.ra
    = false → (f.i || !isS f.rb) = true → f.cond = 2 → Runs (.cmp who q f) d w fun t => t.lineCtx who = some (x.sends 1
    [.pred f.pd (decide ((x.regs.get f.ra).toNat % 2 ^ 32 < (if f.i then f.imm.toNat else (x.regs.get f.rb).toNat) % 2 ^
    32))])) ∧
  (∀ (who : Who) (q : Pred) (f : FmtP) (x : Ctx) (d : Device) (w : List Instr), d.issues who q 0x0A f.enc = some x → isS f.ra
    = false → (f.i || !isS f.rb) = true → f.cond = 6 → Runs (.cmp who q f) d w fun t => t.lineCtx who = some (x.sends 1
    [.pred f.pd (BitVec.slt (BitVec.ofNat 32 (x.regs.get f.ra).toNat) (BitVec.ofNat 32 (if f.i then f.imm.toNat else
    (x.regs.get f.rb).toNat)))])) ∧
  (∀ (who : Who) (q : Pred) (f : FmtP) (x : Ctx) (d : Device) (w : List Instr), d.issues who q 0x0A f.enc = some x → isS f.ra
    = false → (f.i || !isS f.rb) = true → Runs (.cmp who q f) d w fun t => t.lineCtx who = some (x.sends 1 [.pred f.pd
    (cmpTest f.cond (x.regs.get f.ra).toNat (if f.i then f.imm.toNat else (x.regs.get f.rb).toNat))])) ∧
  (∀ (who : Who) (q : Pred) (f : FmtP) (x : Ctx) (d : Device) (w : List Instr), d.issues who q 0x0B f.enc = some x → isS f.ra
    = false → (f.i || !isS f.rb) = true → f.cond = 0 → Runs (.tst who q f) d w fun t => t.lineCtx who = some (x.sends 1
    [.pred f.pd (BitVec.ofNat 32 (x.regs.get f.ra).toNat &&& BitVec.ofNat 32 (if f.i then f.imm.toNat else (x.regs.get
    f.rb).toNat) != 0)])) ∧
  (∀ (who : Who) (q : Pred) (f : FmtH) (x : Ctx) (d : Device) (w : List Instr), d.issues who q 0x0F f.enc = some x → isS f.rd
    = false → destOk f.rd = true → f.off.toNat + f.len.toNat ≤ 48 → f.len ≠ 0 → (f.fn.toNat < 2 → f.imm = 0) → Runs (.hash
    who q f) d w fun t => t.lineCtx who = some (x.sends 2 [.reg f.rd (BitVec.ofNat 64 (if f.fn = 0 then h1 (sliceB x.regs.key
    f.off.toNat f.len.toNat) else if f.fn = 1 then h2 (sliceB x.regs.key f.off.toNat f.len.toNat) else if f.fn = 2 then
    crc32cWith f.imm.toNat (sliceB x.regs.key f.off.toNat f.len.toNat) else spreadHash (sliceB x.regs.key f.off.toNat
    f.len.toNat)))])) ∧
  (∀ (who : Who) (q : Pred) (f : FmtH) (units : Nat) (x : Ctx) (d : Device) (w : List Instr), d.issues who q 0x10 f.enc =
    some x → isS f.rd = false → destOk f.rd = true → f.off.toNat + csumLen f ≤ 64 → f.fn ≠ 3 → (f.fn = 0 → csumLen f % 2 = 0)
    → Runs (.csum who q f units) d w fun t => t.lineCtx who = some (x.sends 2 [.reg f.rd (BitVec.ofNat 64 (if f.fn = 0 then
    onesSum (sliceB x.w f.off.toNat (csumLen f)) else if f.fn = 1 then crc32With f.imm.toNat (sliceB x.w f.off.toNat (csumLen
    f)) else crc32cWith f.imm.toNat (sliceB x.w f.off.toNat (csumLen f))))])) ∧
  (∀ (who : Who) (q : Pred) (f : FmtX) (x : Ctx) (d : Device) (w : List Instr), d.issues who q 0x20 f.enc = some x → isS f.rd
    = false → destOk f.rd = true → (!f.reg || !isS f.ra) = true → f.bit.toNat + f.len1.toNat + 1 ≤ (if f.srcK then 384 else
    512) → Runs (.ext who q f) d w fun t => t.lineCtx who = some (x.sends 1 [.reg f.rd (BitVec.ofNat 64 (bitField (if f.srcK
    then x.regs.key else x.w) (f.bit.toNat + (if f.reg then 8 * ((x.regs.get f.ra).toNat % 64) else 0)) (f.len1.toNat +
    1)))])) ∧
  (∀ (who : Who) (q : Pred) (f : FmtXM) (x : Ctx) (d : Device) (w : List Instr), d.issues who q 0x21 f.enc = some x → isS
    f.rd = false → destOk f.rd = true → f.bit.toNat + f.len1.toNat + 1 ≤ 128 → Runs (.extm who q f) d w fun t => t.lineCtx
    who = some (x.sends 1 [.reg f.rd (BitVec.ofNat 64 (bits (x.regs.k[f.ks.toNat]?.getD 0).toNat (f.bit.toNat + f.len1.toNat)
    f.bit.toNat))])) ∧
  (∀ (who : Who) (q : Pred) (f : FmtXI) (x : Ctx) (d : Device) (w : List Instr), d.issues who q 0x22 f.enc = some x → isS
    f.rd = false → isS f.ra = false → destOk f.rd = true → f.pos.toNat + f.len1.toNat + 1 ≤ 32 → Runs (.ins who q f) d w fun
    t => t.lineCtx who = some (x.sends 1 [.reg f.rd (BitVec.ofNat 64 (setBits (x.regs.get f.rd).toNat (f.pos.toNat +
    f.len1.toNat) f.pos.toNat ((x.regs.get f.ra).toNat % 2 ^ (f.len1.toNat + 1))))])) ∧
  (∀ (who : Who) (q : Pred) (f : FmtKB) (x : Ctx) (d : Device) (w : List Instr), d.issues who q 0x23 f.enc = some x →
    f.srcReg = false → 0 < f.len.toNat → f.len.toNat ≤ 16 → f.koff.toNat + f.len.toNat ≤ 48 → Runs (.keyb who q f) d w fun t
    => t.lineCtx who = some (x.sends 1 [.key f.koff.toNat (sliceB x.w f.woff.toNat f.len.toNat)])) ∧
  (∀ (who : Who) (q : Pred) (f : FmtKB) (x : Ctx) (d : Device) (w : List Instr), d.issues who q 0x23 f.enc = some x →
    f.srcReg = true → isS f.woff = false → 0 < f.len.toNat → f.len.toNat ≤ 4 → f.koff.toNat + f.len.toNat ≤ 48 → Runs (.keyb
    who q f) d w fun t => t.lineCtx who = some (x.sends 1 [.key f.koff.toNat (bytesBE f.len.toNat (x.regs.get
    f.woff).toNat)])) ∧
  (∀ (who : Who) (q : Pred) (f : FmtAV) (x : Ctx) (d : Device) (w : List Instr), d.issues who q 0x24 f.enc = some x → Runs
    (.adv who q f) d w fun t => t.lineCtx who = some
    { x with nextBase := min 16383 (x.nextBase + f.bytes.toNat + (if f.reg then (x.regs.get f.ra).toNat % 2 ^ 16 else 0)) })

/-- A table lookup writes its slot and its hit predicate after its latency, 2, 4, 3 or 5 stations; a flow lookup returns four
  stations on, at the flow step: where the record has a skim copy F becomes the record and the slot its handle, where it
  misses the slot is zero, and a frame that parks executes nothing from there on. -/
def Obligations.LineLookups : Prop :=
  (∀ (who : Who) (q : Pred) (f : FmtL) (x : Ctx) (d : Device) (w : List Instr), d.issues who q 0x30 f.enc = some x → Runs
    (.lkt who q f) d w fun t => t.lineCtx who = some (x.sends 2 (.kslot f.kd (d.lookup x 0 f) :: (if f.hp = 0 then [] else
    [.pred f.hp ((d.lookup x 0 f).getLsbD 127)])))) ∧
  (∀ (who : Who) (q : Pred) (f : FmtL) (x : Ctx) (d : Device) (w : List Instr), d.issues who q 0x31 f.enc = some x → Runs
    (.lkh who q f) d w fun t => t.lineCtx who = some (x.sends 4 (.kslot f.kd (d.lookup x 1 f) :: (if f.hp = 0 then [] else
    [.pred f.hp ((d.lookup x 1 f).getLsbD 127)])))) ∧
  (∀ (who : Who) (q : Pred) (f : FmtL) (x : Ctx) (d : Device) (w : List Instr), d.issues who q 0x32 f.enc = some x → Runs
    (.lkx who q f) d w fun t => t.lineCtx who = some (x.sends 3 (.kslot f.kd (d.lookup x 2 f) :: (if f.hp = 0 then [] else
    [.pred f.hp ((d.lookup x 2 f).getLsbD 127)])))) ∧
  (∀ (who : Who) (q : Pred) (f : FmtL) (x : Ctx) (d : Device) (w : List Instr), d.issues who q 0x33 f.enc = some x → Runs
    (.lkp who q f) d w fun t => t.lineCtx who = some (x.sends 5 (.kslot f.kd (d.lookup x 3 f) :: (if f.hp = 0 then [] else
    [.pred f.hp ((d.lookup x 3 f).getLsbD 127)])))) ∧
  (∀ (q : Pred) (f : FmtL) (beyond : Bool) (fr : Nat) (x : Ctx) (d : Device) (w : List Instr), d.issues (.ing fr) q 0x34
    f.enc = some x → d.groupsOk ⟨f.tbl.toNat % 16, sliceB x.regs.key f.ko.toNat f.kl.toNat⟩ = true → Runs (.lkf (.ing fr) q f
    beyond) d w fun t => t.lineCtx (.ing fr) = some (x.sends 4 [.lkf f (sliceB x.regs.key f.ko.toNat f.kl.toNat) beyond])) ∧
  (∀ (f : FmtC) (fr i : Nat) (x : Ctx) (g : FmtL) (key : List Byte) (beyond : Bool) (y : Frame) (h : Nat) (d : Device) (w :
    List Instr), d.lineCtx (.ing fr) = some x → x.word = some i → x.live = true → (⟨((d.stationWords x x.station).getD i
    0).toNat, []⟩ : WInfo).cword = instWord ⟨0, false⟩ 0x70 f.enc → d.owes x = false → x.station < x.last →
    (⟨((d.stationWords x x.station).getD i 0).toNat, []⟩ : WInfo).succ (b2n (x.regs.pred f.sa) + (if f.b2 then 2 * b2n
    (x.regs.pred f.sb) else 0)) < (d.stationWords x (x.station + 1)).length → d.pipes.reload = [] → x.flowDue (x.station + 1)
    = some (g, key, beyond) → d.ahead x.pipe fr = [] → d.frame fr = some y → d.lkfOutcome fr y.parks ⟨g.tbl.toNat % 16, key⟩
    (bit x.spaces (g.tbl.toNat % 16)) = .hit h → Runs (.next (.ing fr) (⟨0, false⟩) f) d w fun t => ((t.frame fr).map fun z
    => z.hit) = some (some h) ∧ ((t.lineCtx (.ing fr)).any fun z => z.f == d.authCopy h && z.station == x.station + 1 &&
    z.regs.k[g.kd.toNat]?.getD 0 == flowResult h ((d.authCopy h).getD [])) = true) ∧
  (∀ (f : FmtC) (fr i : Nat) (x : Ctx) (g : FmtL) (key : List Byte) (beyond : Bool) (y : Frame) (d : Device) (w : List
    Instr), d.lineCtx (.ing fr) = some x → x.word = some i → x.live = true → (⟨((d.stationWords x x.station).getD i 0).toNat,
    []⟩ : WInfo).cword = instWord ⟨0, false⟩ 0x70 f.enc → d.owes x = false → x.station < x.last → (⟨((d.stationWords x
    x.station).getD i 0).toNat, []⟩ : WInfo).succ (b2n (x.regs.pred f.sa) + (if f.b2 then 2 * b2n (x.regs.pred f.sb) else 0))
    < (d.stationWords x (x.station + 1)).length → d.pipes.reload = [] → x.flowDue (x.station + 1) = some (g, key, beyond) →
    d.ahead x.pipe fr = [] → d.frame fr = some y → d.lkfOutcome fr y.parks ⟨g.tbl.toNat % 16, key⟩ (bit x.spaces (g.tbl.toNat
    % 16)) = .miss → (x.settleAt (x.station + 1)).f = none → Runs (.next (.ing fr) (⟨0, false⟩) f) d w fun t => ((t.lineCtx
    (.ing fr)).any fun z => z.f == none && z.regs.k[g.kd.toNat]?.getD 1 == 0) = true) ∧
  (∀ (f : FmtC) (fr i : Nat) (x : Ctx) (g : FmtL) (key : List Byte) (beyond : Bool) (y : Frame) (d : Device) (w : List
    Instr), d.lineCtx (.ing fr) = some x → x.word = some i → x.live = true → (⟨((d.stationWords x x.station).getD i 0).toNat,
    []⟩ : WInfo).cword = instWord ⟨0, false⟩ 0x70 f.enc → d.owes x = false → x.station < x.last → (⟨((d.stationWords x
    x.station).getD i 0).toNat, []⟩ : WInfo).succ (b2n (x.regs.pred f.sa) + (if f.b2 then 2 * b2n (x.regs.pred f.sb) else 0))
    < (d.stationWords x (x.station + 1)).length → d.pipes.reload = [] → x.flowDue (x.station + 1) = some (g, key, beyond) →
    d.ahead x.pipe fr = [] → d.frame fr = some y → d.lkfOutcome fr y.parks ⟨g.tbl.toNat % 16, key⟩ (bit x.spaces (g.tbl.toNat
    % 16)) = .park → Runs (.next (.ing fr) (⟨0, false⟩) f) d w fun t => ((t.lineCtx (.ing fr)).any fun z => z.stopAt == some
    (x.station + 1)) = true ∧ ((t.lodged? ⟨g.tbl.toNat % 16, key⟩).any fun e => e.frames.contains (fr, false)) = true)

/-- FLD reads a field of F, 0 where F is not valid; FST, FADD and FSTAMP add their change to the frame's place in the update
  order of its record, FCAS where its comparison holds; a learn request within the space's budget is counted and noticed,
  and a refused one writes its reason. -/
def Obligations.LineFlowState : Prop :=
  (∀ (who : Who) (q : Pred) (f : FmtFS) (x : Ctx) (d : Device) (w : List Instr), d.issues who q 0x40 f.enc = some x → destOk
    f.rd = true → d.turnCome who x = true → Runs (.fld who q f) d w fun t => t.lineCtx who = some (x.sends 1 [.reg f.rd
    (BitVec.ofNat 64 (match d.lineF who x with | some b => fieldLE b f.foff.toNat (2 ^ f.sz.toNat) | none => 0))])) ∧
  (∀ (q : Pred) (f : FmtFS) (fr : Nat) (x : Ctx) (y : Frame) (h : Nat) (e : RunEntry) (d : Device) (w : List Instr), d.issues
    (.ing fr) q 0x41 f.enc = some x → x.f.isSome = true → d.frame fr = some y → y.hit = some h → (d.runOf h).filter (fun e =>
    e.frame == some fr) = [e] → e.beyond = false → Runs (.fst (.ing fr) q f) d w fun t => ((t.runOf h).filter fun e =>
    e.frame == some fr) =
    [{ e with upds := e.upds ++ [.put f.foff.toNat (bytesLE (2 ^ f.sz.toNat) (if f.sz = 3 then (x.regs.get f.rb).toNat % 2 ^ 32 * 2 ^ 32 + (x.regs.get f.rd).toNat % 2 ^ 32 else (x.regs.get f.rd).toNat))] }]) ∧
  (∀ (q : Pred) (f : FmtFS) (fr : Nat) (x : Ctx) (y : Frame) (h : Nat) (e : RunEntry) (d : Device) (w : List Instr), d.issues
    (.ing fr) q 0x42 f.enc = some x → x.f.isSome = true → d.frame fr = some y → y.hit = some h → (d.runOf h).filter (fun e =>
    e.frame == some fr) = [e] → e.beyond = false → f.i = true → Runs (.fadd (.ing fr) q f) d w fun t => ((t.runOf h).filter
    fun e => e.frame == some fr) =
    [{ e with upds := e.upds ++ [.add f.foff.toNat (2 ^ f.sz.toNat) (unsigned (8 * 2 ^ f.sz.toNat) (signed 24 f.imm.toNat))] }]) ∧
  (∀ (q : Pred) (f : FmtFS) (fr : Nat) (x : Ctx) (y : Frame) (h : Nat) (e : RunEntry) (d : Device) (w : List Instr), d.issues
    (.ing fr) q 0x43 f.enc = some x → x.f.isSome = true → d.frame fr = some y → y.hit = some h → (d.runOf h).filter (fun e =>
    e.frame == some fr) = [e] → e.beyond = false → f.sz = 2 → d.turnCome (.ing fr) x = true → (d.viewOwn h fr).any (fun b =>
    fieldLE b f.foff.toNat 4 == (x.regs.get f.rb).toNat % 2 ^ 32) = true → Runs (.fcas (.ing fr) q f) d w fun t => ((t.runOf
    h).filter fun e => e.frame == some fr) =
    [{ e with upds := e.upds ++ [.put f.foff.toNat (bytesLE 4 ((x.regs.get f.rd).toNat % 2 ^ 32))] }] ∧ t.lineCtx (.ing fr) =
    some (x.sends 2 [.pred f.pd true])) ∧
  (∀ (q : Pred) (f : FmtFS) (fr : Nat) (x : Ctx) (d : Device) (w : List Instr), d.issues (.ing fr) q 0x43 f.enc = some x →
    x.f = none → Runs (.fcas (.ing fr) q f) d w fun t => t.lineCtx (.ing fr) = some (x.sends 2 [.pred f.pd false]) ∧ t.flow =
    d.flow) ∧
  (∀ (q : Pred) (f : FmtFS) (fr : Nat) (x : Ctx) (y : Frame) (h : Nat) (e : RunEntry) (d : Device) (w : List Instr), d.issues
    (.ing fr) q 0x44 f.enc = some x → x.f.isSome = true → d.frame fr = some y → y.hit = some h → (d.runOf h).filter (fun e =>
    e.frame == some fr) = [e] → e.beyond = false → Runs (.fstamp (.ing fr) q f) d w fun t => ((t.runOf h).filter fun e =>
    e.frame == some fr) =
    [{ e with upds := e.upds ++ [.put f.foff.toNat (bytesLE 8 ((d.tbNow f.tb.toNat).sec % 2 ^ 32 * 2 ^ 32 + (d.tbNow f.tb.toNat).ns))] }]) ∧
  (∀ (who : Who) (q : Pred) (f : FmtFL) (x : Ctx) (d : Device) (w : List Instr), d.issues who q 0x45 f.enc = some x →
    (d.flow.learn.any fun a => a.1 == ⟨f.space.toNat, sliceB x.regs.key f.ko.toNat f.kl.toNat⟩ && decide (d.transit < a.2)) =
    false → (d.flow.learn.filter fun a => decide (d.transit < a.2)).length < 16384 → 1000000 ≤ d.learnTokens f.space.toNat →
    Runs (.flearn who q f) d w fun t => (t.flow.learn.any fun a => a.1 == ⟨f.space.toNat, sliceB x.regs.key f.ko.toNat
    f.kl.toNat⟩) = true ∧ t.reg Off.flowLearnSent = sat32 (d.reg Off.flowLearnSent + 1)) ∧
  (∀ (who : Who) (q : Pred) (f : FmtFL) (x : Ctx) (d : Device) (w : List Instr), d.issues who q 0x45 f.enc = some x →
    (d.flow.learn.any fun a => a.1 == ⟨f.space.toNat, sliceB x.regs.key f.ko.toNat f.kl.toNat⟩ && decide (d.transit < a.2)) =
    false → d.learnTokens f.space.toNat < 1000000 → Runs (.flearn who q f) d w fun t => t.lineCtx who = some (x.sends 1
    [.learnRefused]) ∧ t.reg Off.flowLearnRefused = sat32 (d.reg Off.flowLearnRefused + 1))

/-- At ingress an edit is staged with its frame at its offset from the window base, after the earlier ones, a mark in the
  place of an earlier mark; at egress it is made on the copy. -/
def Obligations.LineEdits : Prop :=
  (∀ (q : Pred) (f : FmtE) (fr : Nat) (x : Ctx) (y : Frame) (d : Device) (w : List Instr), d.issues (.ing fr) q 0x50 f.enc =
    some x → d.frame fr = some y → Runs (.push (.ing fr) q f) d w fun t => ((t.frame fr).map fun z => z.edits) = some
    (y.edits ++ [⟨x.base + f.woff.toNat, .push (editBytes x.regs f)⟩])) ∧
  (∀ (q : Pred) (f : FmtE) (k : Nat) (x : Ctx) (y : Copy) (d : Device) (w : List Instr), d.issues (.egr k) q 0x50 f.enc =
    some x → d.copy k = some y → Runs (.push (.egr k) q f) d w fun t => ((t.copy k).map fun z => z.egEdits) = some (y.egEdits
    ++ [⟨f.woff.toNat, .push (editBytes x.regs f)⟩])) ∧
  (∀ (q : Pred) (f : FmtE) (fr : Nat) (x : Ctx) (y : Frame) (d : Device) (w : List Instr), d.issues (.ing fr) q 0x51 f.enc =
    some x → d.frame fr = some y → Runs (.pop (.ing fr) q f) d w fun t => ((t.frame fr).map fun z => z.edits) = some (y.edits
    ++ [⟨x.base + f.woff.toNat, .pop f.len.toNat⟩])) ∧
  (∀ (q : Pred) (f : FmtE) (fr : Nat) (x : Ctx) (y : Frame) (d : Device) (w : List Instr), d.issues (.ing fr) q 0x52 f.enc =
    some x → d.frame fr = some y → Runs (.setf (.ing fr) q f) d w fun t => ((t.frame fr).map fun z => z.edits) = some
    (y.edits ++ [⟨x.base + f.woff.toNat, .setf (editBytes x.regs f)⟩])) ∧
  (∀ (q : Pred) (f : FmtN) (fr : Nat) (x : Ctx) (y : Frame) (d : Device) (w : List Instr), d.issues (.ing fr) q 0x53 f.enc =
    some x → d.frame fr = some y → Runs (.nata (.ing fr) q f) d w fun t => ((t.frame fr).map fun z => z.edits) = some
    (y.edits ++ [⟨x.base + f.l3.toNat, .nata f.kind.toNat f.p ((f.l4.toNat : Int) - f.l3.toNat) f.aoff.toNat f.poff.toNat
    f.u⟩])) ∧
  (∀ (q : Pred) (f : FmtT) (fr : Nat) (x : Ctx) (y : Frame) (d : Device) (w : List Instr), d.issues (.ing fr) q 0x54 f.enc =
    some x → d.frame fr = some y → Runs (.tsi (.ing fr) q f) d w fun t => ((t.frame fr).map fun z => z.edits) = some
    ((y.edits.filter fun e => match e.op with | .tsi _ _ _ => false | _ => true) ++ [⟨x.base + f.foff.toNat, .tsi
    f.mode.toNat f.tb.toNat (if f.c then some ((f.coff.toNat : Int) - f.foff.toNat) else none)⟩])) ∧
  (∀ (q : Pred) (f : FmtG) (fr : Nat) (x : Ctx) (y : Frame) (d : Device) (w : List Instr), d.issues (.ing fr) q 0x55 f.enc =
    some x → d.frame fr = some y → Runs (.seam (.ing fr) q f) d w fun t => ((t.frame fr).map fun z => z.edits) = some
    (y.edits ++ [⟨x.base + 0, .seam⟩])) ∧
  (∀ (q : Pred) (f : FmtG) (fr : Nat) (x : Ctx) (y : Frame) (d : Device) (w : List Instr), d.issues (.ing fr) q 0x56 f.enc =
    some x → d.frame fr = some y → Runs (.twin (.ing fr) q f) d w fun t => ((t.frame fr).map fun z => z.edits) = some
    (y.edits ++ [⟨x.base + 0, .twin f.gen.toNat 0⟩]))

/-- While LOCK is 0, one station on: FWD names a port, or acts as DROP with 0x26 on a register value above 511; FWDG names a
  group with its selector; MCAST a list; TOSEAT locks ports 514 and 515, TOSCAF 513 and DROP 517; RECIRC names port 512
  and holds its entry point, and in pass 3 acts as TOSCAF with 0x02. With LOCK set m3 stands. TOSEAT, TOSCAF, DROP and a
  bad FWD write their reason. CLASS writes m2[5:0] with colour 0b11 as red, QUOTE m5 in pass 0, MIRROR the mirror of the
  frame or of the copy. A task has the same effects on its registers at once. -/
def Obligations.LineForwarding : Prop :=
  (∀ (who : Who) (q : Pred) (f : FmtW) (x : Ctx) (d : Device) (w : List Instr), d.issues who q 0x60 f.enc = some x → Runs
    (.fwd who q f) d w fun t => t.lineCtx who = some (x.sends 1 (if (if f.reg then (x.regs.get f.ra).toNat else f.val.toNat)
    % 1024 ≤ 511 then (if bit (x.regs.mN 3) 29 then [] else [.reg 35 (BitVec.ofNat 64 ((if f.reg then (x.regs.get f.ra).toNat
    else f.val.toNat) % 1024))]) else ((if bit (x.regs.mN 3) 29 then [] else [.reg 35 (BitVec.ofNat 64 (2 ^ 29 + 517))]) ++
    [.reg 39 (BitVec.ofNat 64 (setBits (x.regs.mN 7) 7 0 (0x26)))])))) ∧
  (∀ (who : Who) (q : Pred) (f : FmtW) (x : Ctx) (d : Device) (w : List Instr), d.issues who q 0x61 f.enc = some x → Runs
    (.fwdg who q f) d w fun t => t.lineCtx who = some (x.sends 1 (if bit (x.regs.mN 3) 29 then [] else [.reg 35 (BitVec.ofNat
    64 (2 ^ 30 + (if f.aux = 0 then selector0 (x.regs.mN 0) (x.regs.mN 4) else x.regs.mN 8 % 1024) * 2 ^ 16 + (if f.reg then
    (x.regs.get f.ra).toNat else f.val.toNat) % 256))]))) ∧
  (∀ (who : Who) (q : Pred) (f : FmtW) (x : Ctx) (d : Device) (w : List Instr), d.issues who q 0x62 f.enc = some x → Runs
    (.mcast who q f) d w fun t => t.lineCtx who = some (x.sends 1 (if bit (x.regs.mN 3) 29 then [] else [.reg 35
    (BitVec.ofNat 64 (2 * 2 ^ 30 + (if f.reg then (x.regs.get f.ra).toNat else f.val.toNat) % 65536))]))) ∧
  (∀ (who : Who) (q : Pred) (f : FmtW) (x : Ctx) (d : Device) (w : List Instr), d.issues who q 0x63 f.enc = some x → Runs
    (.class_ who q f) d w fun t => t.lineCtx who = some (x.sends 1 [.reg 34 (BitVec.ofNat 64 (setBits (x.regs.mN 2) 5 0 (if
    bits ((if f.reg then (x.regs.get f.ra).toNat else f.val.toNat) % 64) 4 3 = 3 then setBits ((if f.reg then (x.regs.get
    f.ra).toNat else f.val.toNat) % 64) 4 3 2 else (if f.reg then (x.regs.get f.ra).toNat else f.val.toNat) % 64)))])) ∧
  (∀ (who : Who) (q : Pred) (f : FmtW) (x : Ctx) (d : Device) (w : List Instr), d.issues who q 0x64 f.enc = some x → bits
    (x.regs.mN 1) 3 2 = 0 → Runs (.quote who q f) d w fun t => t.lineCtx who = some (x.sends 1 [.reg 37 (BitVec.ofNat 64 (2 ^
    20 + (if f.reg then (x.regs.get f.ra).toNat else f.val.toNat) % 2 ^ 20))])) ∧
  (∀ (who : Who) (q : Pred) (f : FmtW) (x : Ctx) (d : Device) (w : List Instr), d.issues who q 0x64 f.enc = some x → bits
    (x.regs.mN 1) 3 2 ≠ 0 → Runs (.quote who q f) d w fun t => t.lineCtx who = some (x.sends 1 [])) ∧
  (∀ (q : Pred) (f : FmtW) (fr : Nat) (x : Ctx) (y : Frame) (d : Device) (w : List Instr), d.issues (.ing fr) q 0x65 f.enc =
    some x → d.frame fr = some y → Runs (.mirror (.ing fr) q f) d w fun t => ((t.frame fr).map fun z => z.mirror) = some
    (some (f.val.toNat % 1024, f.aux.toNat))) ∧
  (∀ (q : Pred) (f : FmtW) (k : Nat) (x : Ctx) (y : Copy) (d : Device) (w : List Instr), d.issues (.egr k) q 0x65 f.enc =
    some x → d.copy k = some y → Runs (.mirror (.egr k) q f) d w fun t => ((t.copy k).map fun z => z.mirror) = some (some
    (f.val.toNat % 1024, f.aux.toNat))) ∧
  (∀ (q : Pred) (f : FmtW) (engine : Fin 32) (thread : Fin 8) (id : Nat) (x : Task) (d : Device) (w : List Instr), d.threadAt
    engine thread q 0x65 f.enc = some (id, x) → Runs (.mirror (.thr engine thread) q f) d w fun t => ((t.task id).map fun y
    => (y.mirror, y.regs)) = some (some (f.val.toNat % 1024, f.aux.toNat), x.nextRegs x.regs)) ∧
  (∀ (who : Who) (q : Pred) (f : FmtW) (x : Ctx) (d : Device) (w : List Instr), d.issues who q 0x66 f.enc = some x → Runs
    (.toseat who q f) d w fun t => t.lineCtx who = some (x.sends 1 ((if bit (x.regs.mN 3) 29 then [] else [.reg 35
    (BitVec.ofNat 64 (2 ^ 29 + 514 + f.val.toNat / 256 % 2))]) ++ [.reg 39 (BitVec.ofNat 64 (setBits (x.regs.mN 7) 7 0
    (f.val.toNat % 256)))]))) ∧
  (∀ (who : Who) (q : Pred) (f : FmtW) (x : Ctx) (d : Device) (w : List Instr), d.issues who q 0x67 f.enc = some x → Runs
    (.toscaf who q f) d w fun t => t.lineCtx who = some (x.sends 1 ((if bit (x.regs.mN 3) 29 then [] else [.reg 35
    (BitVec.ofNat 64 (2 ^ 29 + 513))]) ++ [.reg 39 (BitVec.ofNat 64 (setBits (x.regs.mN 7) 7 0 (if f.reg then (if 0x60 ≤
    (x.regs.get f.ra).toNat % 256 then 0x40 else (x.regs.get f.ra).toNat % 256) else f.val.toNat % 256)))]))) ∧
  (∀ (who : Who) (q : Pred) (f : FmtW) (x : Ctx) (d : Device) (w : List Instr), d.issues who q 0x68 f.enc = some x → Runs
    (.drop who q f) d w fun t => t.lineCtx who = some (x.sends 1 ((if bit (x.regs.mN 3) 29 then [] else [.reg 35
    (BitVec.ofNat 64 (2 ^ 29 + 517))]) ++ [.reg 39 (BitVec.ofNat 64 (setBits (x.regs.mN 7) 7 0 (f.val.toNat % 256)))]))) ∧
  (∀ (q : Pred) (f : FmtW) (fr : Nat) (x : Ctx) (y : Frame) (d : Device) (w : List Instr), d.issues (.ing fr) q 0x69 f.enc =
    some x → d.frame fr = some y → Runs (.recirc (.ing fr) q f) d w fun t => t.lineCtx (.ing fr) = some (x.sends 1 (if bits
    (x.regs.mN 1) 3 2 = 3 then ((if bit (x.regs.mN 3) 29 then [] else [.reg 35 (BitVec.ofNat 64 (2 ^ 29 + 513))]) ++ [.reg 39
    (BitVec.ofNat 64 (setBits (x.regs.mN 7) 7 0 (0x02)))]) else (if bit (x.regs.mN 3) 29 then [] else [.reg 35 (BitVec.ofNat
    64 (512))]))) ∧ (bit (x.regs.mN 3) 29 = false → bits (x.regs.mN 1) 3 2 ≠ 3 → ((t.frame fr).map fun z => z.entry) = some
    (f.val.toNat % 64))) ∧
  (∀ (q : Pred) (f : FmtW) (engine : Fin 32) (thread : Fin 8) (id : Nat) (x : Task) (d : Device) (w : List Instr), d.threadAt
    engine thread q 0x60 f.enc = some (id, x) → (f.reg = true → (if f.reg then (x.regs.get f.ra).toNat else f.val.toNat) %
    1024 ≤ 511) → Runs (.fwd (.thr engine thread) q f) d w fun t => t.taskRegs id (x.nextRegs (if (if f.reg then (x.regs.get
    f.ra).toNat else f.val.toNat) % 1024 ≤ 511 then (if bit (x.regs.mN 3) 29 then x.regs else x.regs.set 35 (BitVec.ofNat 64
    ((if f.reg then (x.regs.get f.ra).toNat else f.val.toNat) % 1024))) else (if bit (x.regs.mN 3) 29 then x.regs else
    x.regs.set 35 (BitVec.ofNat 64 (2 ^ 29 + 517))).set 39 (BitVec.ofNat 64 (setBits (x.regs.mN 7) 7 0 0x26))))) ∧
  (∀ (q : Pred) (f : FmtW) (engine : Fin 32) (thread : Fin 8) (id : Nat) (x : Task) (d : Device) (w : List Instr), d.threadAt
    engine thread q 0x60 f.enc = some (id, x) → f.reg = true → 511 < (if f.reg then (x.regs.get f.ra).toNat else f.val.toNat)
    % 1024 → Runs (.fwd (.thr engine thread) q f) d w fun t => t.task id = none ∧ t.reg (Off.scafThrExc engine thread) = 2 ^
    31 + 7 * 2 ^ 16 + id) ∧
  (∀ (q : Pred) (f : FmtW) (engine : Fin 32) (thread : Fin 8) (id : Nat) (x : Task) (d : Device) (w : List Instr), d.threadAt
    engine thread q 0x61 f.enc = some (id, x) → Runs (.fwdg (.thr engine thread) q f) d w fun t => t.taskRegs id (x.nextRegs
    (if bit (x.regs.mN 3) 29 then x.regs else x.regs.set 35 (BitVec.ofNat 64 (2 ^ 30 + (if f.aux = 0 then selector0
    (x.regs.mN 0) (x.regs.mN 4) else x.regs.mN 8 % 1024) * 2 ^ 16 + (if f.reg then (x.regs.get f.ra).toNat else f.val.toNat)
    % 256))))) ∧
  (∀ (q : Pred) (f : FmtW) (engine : Fin 32) (thread : Fin 8) (id : Nat) (x : Task) (d : Device) (w : List Instr), d.threadAt
    engine thread q 0x62 f.enc = some (id, x) → Runs (.mcast (.thr engine thread) q f) d w fun t => t.taskRegs id (x.nextRegs
    (if bit (x.regs.mN 3) 29 then x.regs else x.regs.set 35 (BitVec.ofNat 64 (2 * 2 ^ 30 + (if f.reg then (x.regs.get
    f.ra).toNat else f.val.toNat) % 65536))))) ∧
  (∀ (q : Pred) (f : FmtW) (engine : Fin 32) (thread : Fin 8) (id : Nat) (x : Task) (d : Device) (w : List Instr), d.threadAt
    engine thread q 0x63 f.enc = some (id, x) → Runs (.class_ (.thr engine thread) q f) d w fun t => t.taskRegs id
    (x.nextRegs (x.regs.set 34 (BitVec.ofNat 64 (setBits (x.regs.mN 2) 5 0 (if bits ((if f.reg then (x.regs.get f.ra).toNat
    else f.val.toNat) % 64) 4 3 = 3 then setBits ((if f.reg then (x.regs.get f.ra).toNat else f.val.toNat) % 64) 4 3 2 else
    (if f.reg then (x.regs.get f.ra).toNat else f.val.toNat) % 64)))))) ∧
  (∀ (q : Pred) (f : FmtW) (engine : Fin 32) (thread : Fin 8) (id : Nat) (x : Task) (d : Device) (w : List Instr), d.threadAt
    engine thread q 0x66 f.enc = some (id, x) → Runs (.toseat (.thr engine thread) q f) d w fun t => t.taskRegs id
    (x.nextRegs ((if bit (x.regs.mN 3) 29 then x.regs else x.regs.set 35 (BitVec.ofNat 64 (2 ^ 29 + 514 + f.val.toNat / 256 %
    2))).set 39 (BitVec.ofNat 64 (setBits (x.regs.mN 7) 7 0 (f.val.toNat % 256)))))) ∧
  (∀ (q : Pred) (f : FmtW) (engine : Fin 32) (thread : Fin 8) (id : Nat) (x : Task) (d : Device) (w : List Instr), d.threadAt
    engine thread q 0x68 f.enc = some (id, x) → Runs (.drop (.thr engine thread) q f) d w fun t => t.taskRegs id (x.nextRegs
    ((if bit (x.regs.mN 3) 29 then x.regs else x.regs.set 35 (BitVec.ofNat 64 (2 ^ 29 + 517))).set 39 (BitVec.ofNat 64
    (setBits (x.regs.mN 7) 7 0 (f.val.toNat % 256))))))

/-- When every instruction of its step word has issued, NEXT moves the context to the successor that the predicates name in
  the next station, with the results due there visible, and END ends the program; the time instructions read a time base
  as it was when the context entered its station, compare with it, read the arrival time of the frame, and read a gate of
  that moment. -/
def Obligations.SequencerAndTime : Prop :=
  (∀ (who : Who) (f : FmtC) (x : Ctx) (i k : Nat) (d : Device) (w : List Instr), d.lineCtx who = some x → x.word = some i →
    x.live = true → (⟨((d.stationWords x x.station).getD i 0).toNat, []⟩ : WInfo).cword = instWord ⟨0, false⟩ 0x70 f.enc →
    d.owes x = false → x.station < x.last → x.flowDue (x.station + 1) = none → k = (⟨((d.stationWords x x.station).getD i
    0).toNat, []⟩ : WInfo).succ (b2n (x.regs.pred f.sa) + (if f.b2 then 2 * b2n (x.regs.pred f.sb) else 0)) → k <
    (d.stationWords x (x.station + 1)).length → d.pipes.reload = [] → Runs (.next who (⟨0, false⟩) f) d w fun t =>
    ((t.lineCtx who).any fun y => y.station == x.station + 1 && y.word == some k && y.issued == [] && y.regs == (x.settleAt
    (x.station + 1)).regs && y.tbs == (List.range 8).map d.tbNow) = true) ∧
  (∀ (who : Who) (x : Ctx) (i : Nat) (d : Device) (w : List Instr), d.lineCtx who = some x → x.word = some i → x.live = true
    → slotWord ((d.stationWords x x.station).getD i 0).toNat 5 = instWord ⟨0, false⟩ 0x71 0 → d.owes x = false → Runs (.end_
    who (⟨0, false⟩)) d w fun t => t.lineCtx who = some { x with word := none }) ∧
  (∀ (who : Who) (q : Pred) (f : FmtTM) (x : Ctx) (b : TimeBase) (d : Device) (w : List Instr), d.issues who q 0x80 f.encRd =
    some x → x.tbs[f.tb.toNat]? = some b → f.part = 0 → Runs (.tnow who q f) d w fun t => t.lineCtx who = some (x.sends 1
    [.reg f.rd (BitVec.ofNat 64 (b.count % 2 ^ 32))])) ∧
  (∀ (who : Who) (q : Pred) (f : FmtTM) (x : Ctx) (b : TimeBase) (d : Device) (w : List Instr), d.issues who q 0x80 f.encRd =
    some x → x.tbs[f.tb.toNat]? = some b → f.part = 1 → Runs (.tnow who q f) d w fun t => t.lineCtx who = some (x.sends 1
    [.reg f.rd (BitVec.ofNat 64 (b.count / 2 ^ 32))])) ∧
  (∀ (who : Who) (q : Pred) (f : FmtTM) (x : Ctx) (b : TimeBase) (d : Device) (w : List Instr), d.issues who q 0x80 f.encRd =
    some x → x.tbs[f.tb.toNat]? = some b → f.part = 2 → Runs (.tnow who q f) d w fun t => t.lineCtx who = some (x.sends 1
    [.reg f.rd (BitVec.ofNat 64 (b.sec % 2 ^ 32))])) ∧
  (∀ (who : Who) (q : Pred) (f : FmtTM) (x : Ctx) (b : TimeBase) (d : Device) (w : List Instr), d.issues who q 0x80 f.encRd =
    some x → x.tbs[f.tb.toNat]? = some b → f.part = 3 → Runs (.tnow who q f) d w fun t => t.lineCtx who = some (x.sends 1
    [.reg f.rd (BitVec.ofNat 64 b.ns)])) ∧
  (∀ (who : Who) (q : Pred) (f : FmtTM) (x : Ctx) (b : TimeBase) (d : Device) (w : List Instr), d.issues who q 0x81 f.encRd =
    some x → x.tbs[f.tb.toNat]? = some b → Runs (.tcmp who q f) d w fun t => t.lineCtx who = some (x.sends 1 [.pred f.pd
    (!BitVec.slt (BitVec.ofNat 32 b.count - BitVec.ofNat 32 (if f.i then f.imm.toNat else (x.regs.get f.ra).toNat)) 0)])) ∧
  (∀ (q : Pred) (f : FmtTM) (fr : Nat) (x : Ctx) (y : Frame) (d : Device) (w : List Instr), d.issues (.ing fr) q 0x82 f.encRd
    = some x → d.frame fr = some y → f.tb = 0 → f.part = 0 → Runs (.tstamp (.ing fr) q f) d w fun t => t.lineCtx (.ing fr) =
    some (x.sends 1 [.reg f.rd (BitVec.ofNat 64 ((d.arrivalIn (.ing fr) 0 y.arrTb0).count % 2 ^ 32))])) ∧
  (∀ (who : Who) (q : Pred) (f : FmtTM) (x : Ctx) (g : Nat) (d : Device) (w : List Instr), d.issues who q 0x83 f.encRd = some
    x → NMap.get? x.gates ((x.regs.get f.ra).toNat % 1024) = some g → Runs (.tgate who q f) d w fun t => t.lineCtx who = some
    (x.sends 1 [.pred f.pd (bit g (f.imm.toNat % 8))])) ∧
  (∀ (who : Who) (q : Pred) (f : FmtTM) (x : Ctx) (d : Device) (w : List Instr), d.issues who q 0x83 f.encRd = some x →
    NMap.get? x.gates ((x.regs.get f.ra).toNat % 1024) = none → Runs (.tgate who q f) d w fun t => t.lineCtx who = some
    (x.sends 1 [.pred f.pd true]))

/-- JMP goes to IMM or RA and BR to pc plus IMM, inside the code region or with exception ADDRESS; CALL puts the return
  address under the stack pointer and RET takes it from there; LOOP counts RA down and branches while it is not 0. -/
def Obligations.ThreadControl : Prop :=
  (∀ (engine : Fin 32) (thread : Fin 8) (q : Pred) (f : FmtJ) (id : Nat) (x : Task) (d : Device) (w : List Instr), d.threadAt
    engine thread q 0x90 f.enc = some (id, x) → d.regionOk x (if f.reg then (x.regs.get f.ra).toNat else f.imm.toNat) = true
    → Runs (.jmp engine thread q f) d w fun t => t.taskRegs id
    { x.regs with pc := BitVec.ofNat 64 (if f.reg then (x.regs.get f.ra).toNat else f.imm.toNat) }) ∧
  (∀ (engine : Fin 32) (thread : Fin 8) (q : Pred) (f : FmtJ) (id : Nat) (x : Task) (d : Device) (w : List Instr), d.threadAt
    engine thread q 0x90 f.enc = some (id, x) → d.regionOk x (if f.reg then (x.regs.get f.ra).toNat else f.imm.toNat) = false
    → Runs (.jmp engine thread q f) d w fun t => t.took engine thread id x .address = true) ∧
  (∀ (engine : Fin 32) (thread : Fin 8) (q : Pred) (f : FmtJ) (id : Nat) (x : Task) (d : Device) (w : List Instr), d.threadAt
    engine thread q 0x91 f.enc = some (id, x) → d.regionOk x (x.regs.pc + BitVec.signExtend 64 f.imm).toNat = true → Runs
    (.br engine thread q f) d w fun t => t.taskRegs id
    { x.regs with pc := BitVec.ofNat 64 (x.regs.pc + BitVec.signExtend 64 f.imm).toNat }) ∧
  (∀ (engine : Fin 32) (thread : Fin 8) (q : Pred) (f : FmtJ) (id : Nat) (x : Task) (d : Device) (w : List Instr), d.threadAt
    engine thread q 0x92 f.enc = some (id, x) → (x.regs.sp - 8).toNat % 8 = 0 → pageBase id + 0x4800 ≤ (x.regs.sp - 8).toNat
    → (x.regs.sp - 8).toNat + 8 ≤ pageBase id + 0x8000 → d.regionOk x (if f.reg then (x.regs.get f.ra).toNat else
    f.imm.toNat) = true → Runs (.call engine thread q f) d w fun t => t.taskRegs id
    { x.regs with pc := BitVec.ofNat 64 (if f.reg then (x.regs.get f.ra).toNat else f.imm.toNat), sp := x.regs.sp - 8 } ∧
    t.sram (x.regs.sp - 8).toNat 8 = bytesLE 8 (x.regs.pc.toNat + 1)) ∧
  (∀ (engine : Fin 32) (thread : Fin 8) (q : Pred) (f : FmtJ) (id : Nat) (x : Task) (d : Device) (w : List Instr), d.threadAt
    engine thread q 0x92 f.enc = some (id, x) → (x.regs.sp - 8).toNat % 8 ≠ 0 → Runs (.call engine thread q f) d w fun t =>
    t.took engine thread id x .align = true) ∧
  (∀ (engine : Fin 32) (thread : Fin 8) (q : Pred) (f : FmtJ) (id : Nat) (x : Task) (d : Device) (w : List Instr), d.threadAt
    engine thread q 0x92 f.enc = some (id, x) → (x.regs.sp - 8).toNat % 8 = 0 → (x.regs.sp - 8).toNat < pageBase id + 0x4800
    → Runs (.call engine thread q f) d w fun t => t.took engine thread id x .stack = true) ∧
  (∀ (engine : Fin 32) (thread : Fin 8) (q : Pred) (f : FmtQ) (id : Nat) (x : Task) (d : Device) (w : List Instr), d.threadAt
    engine thread q 0x93 f.enc = some (id, x) → x.regs.sp.toNat % 8 = 0 → pageBase id + 0x4800 ≤ x.regs.sp.toNat →
    x.regs.sp.toNat + 8 ≤ pageBase id + 0x8000 → d.regionOk x (leNat (d.sram x.regs.sp.toNat 8)) = true → Runs (.ret engine
    thread q f) d w fun t => t.taskRegs id
    { x.regs with pc := BitVec.ofNat 64 (leNat (d.sram x.regs.sp.toNat 8)), sp := BitVec.ofNat 64 (x.regs.sp.toNat + 8) }) ∧
  (∀ (engine : Fin 32) (thread : Fin 8) (q : Pred) (f : FmtJ) (id : Nat) (x : Task) (d : Device) (w : List Instr), d.threadAt
    engine thread q 0x94 f.enc = some (id, x) → destOk f.ra = true → isS f.ra = true → x.regs.get f.ra ≠ 1 → d.regionOk x
    (x.regs.pc + BitVec.signExtend 64 f.imm).toNat = true → Runs (.loop engine thread q f) d w fun t => t.taskRegs id
    { x.regs.set f.ra (x.regs.get f.ra - 1) with pc := BitVec.ofNat 64 (x.regs.pc + BitVec.signExtend 64 f.imm).toNat }) ∧
  (∀ (engine : Fin 32) (thread : Fin 8) (q : Pred) (f : FmtJ) (id : Nat) (x : Task) (d : Device) (w : List Instr), d.threadAt
    engine thread q 0x94 f.enc = some (id, x) → destOk f.ra = true → x.regs.get f.ra = 1 → Runs (.loop engine thread q f) d w
    fun t => t.taskRegs id (x.nextRegs (x.regs.set f.ra 0)))

/-- LD and LDD load and ST and STD store 2^SZ bytes at RA plus OFF in the task's areas or in the heap; a misaligned address
  takes ALIGN and a destination among m0 to m6 REGISTER; BLKMV copies a region, SCAN finds the first matching word, and
  CSUM of a region sums it, each ending with pr 0. -/
def Obligations.ThreadMemory : Prop :=
  (∀ (engine : Fin 32) (thread : Fin 8) (q : Pred) (f : FmtM) (id : Nat) (x : Task) (d : Device) (w : List Instr), d.threadAt
    engine thread q 0x98 f.enc = some (id, x) → destOk f.rd = true → (x.regs.get f.ra + BitVec.signExtend 64 f.off).toNat % 2
    ^ f.sz.toNat = 0 → (x.regs.get f.ra + BitVec.signExtend 64 f.off).toNat < heapStart → d.badAddr id false 4 (x.regs.get
    f.ra + BitVec.signExtend 64 f.off).toNat (2 ^ f.sz.toNat) = none → Runs (.ld engine thread q f) d w fun t => t.taskRegs
    id (x.nextRegs (x.regs.set f.rd (BitVec.ofNat 64 (leNat (d.sram (x.regs.get f.ra + BitVec.signExtend 64 f.off).toNat (2 ^
    f.sz.toNat))))))) ∧
  (∀ (engine : Fin 32) (thread : Fin 8) (q : Pred) (f : FmtM) (id : Nat) (x : Task) (d : Device) (w : List Instr), d.threadAt
    engine thread q 0x98 f.enc = some (id, x) → destOk f.rd = true → (x.regs.get f.ra + BitVec.signExtend 64 f.off).toNat % 2
    ^ f.sz.toNat ≠ 0 → Runs (.ld engine thread q f) d w fun t => t.took engine thread id x .align = true) ∧
  (∀ (engine : Fin 32) (thread : Fin 8) (q : Pred) (f : FmtM) (id : Nat) (x : Task) (d : Device) (w : List Instr), d.threadAt
    engine thread q 0x98 f.enc = some (id, x) → destOk f.rd = false → (x.regs.get f.ra + BitVec.signExtend 64 f.off).toNat %
    2 ^ f.sz.toNat = 0 → (x.regs.get f.ra + BitVec.signExtend 64 f.off).toNat < heapStart → d.badAddr id false 4 (x.regs.get
    f.ra + BitVec.signExtend 64 f.off).toNat (2 ^ f.sz.toNat) = none → Runs (.ld engine thread q f) d w fun t => t.taskRegs
    id (x.nextRegs x.regs)) ∧
  (∀ (engine : Fin 32) (thread : Fin 8) (q : Pred) (f : FmtM) (id : Nat) (x : Task) (d : Device) (w : List Instr), d.threadAt
    engine thread q 0x99 f.enc = some (id, x) → (x.regs.get f.ra + BitVec.signExtend 64 f.off).toNat % 2 ^ f.sz.toNat = 0 →
    (x.regs.get f.ra + BitVec.signExtend 64 f.off).toNat < heapStart → d.badAddr id true 4 (x.regs.get f.ra +
    BitVec.signExtend 64 f.off).toNat (2 ^ f.sz.toNat) = none → Runs (.st engine thread q f) d w fun t => t.taskRegs id
    (x.nextRegs x.regs) ∧ t.sram (x.regs.get f.ra + BitVec.signExtend 64 f.off).toNat (2 ^ f.sz.toNat) = bytesLE (2 ^
    f.sz.toNat) (x.regs.get f.rd).toNat) ∧
  (∀ (engine : Fin 32) (thread : Fin 8) (q : Pred) (f : FmtM) (id : Nat) (x : Task) (d : Device) (w : List Instr), d.threadAt
    engine thread q 0x9A f.enc = some (id, x) → f.sz = 3 → destOk f.rd = true → (x.regs.get f.ra + BitVec.signExtend 64
    f.off).toNat % 8 = 0 → heapStart ≤ (x.regs.get f.ra + BitVec.signExtend 64 f.off).toNat → d.badAddr id false 4
    (x.regs.get f.ra + BitVec.signExtend 64 f.off).toNat 8 = none → d.poisonedIn (x.regs.get f.ra + BitVec.signExtend 64
    f.off).toNat 8 = none → Runs (.ldd engine thread q f) d w fun t => t.taskRegs id (x.nextRegs (x.regs.set f.rd
    (BitVec.ofNat 64 (leNat (d.memRead (x.regs.get f.ra + BitVec.signExtend 64 f.off).toNat 8)))))) ∧
  (∀ (engine : Fin 32) (thread : Fin 8) (q : Pred) (f : FmtM) (id : Nat) (x : Task) (d : Device) (w : List Instr), d.threadAt
    engine thread q 0x9B f.enc = some (id, x) → f.sz = 3 → (x.regs.get f.ra + BitVec.signExtend 64 f.off).toNat % 8 = 0 →
    heapStart ≤ (x.regs.get f.ra + BitVec.signExtend 64 f.off).toNat → d.badAddr id true 4 (x.regs.get f.ra +
    BitVec.signExtend 64 f.off).toNat 8 = none → d.poisonedIn (x.regs.get f.ra + BitVec.signExtend 64 f.off).toNat 8 = none →
    Runs (.std engine thread q f) d w fun t => t.taskRegs id (x.nextRegs x.regs) ∧ t.memRead (x.regs.get f.ra +
    BitVec.signExtend 64 f.off).toNat 8 = bytesLE 8 (x.regs.get f.rd).toNat) ∧
  (∀ (engine : Fin 32) (thread : Fin 8) (q : Pred) (f : FmtQ) (units : Nat) (id : Nat) (x : Task) (d : Device) (w : List
    Instr), d.threadAt engine thread q 0xA8 f.enc = some (id, x) → (d.thr (thrKey engine thread)).interrupt = false →
    x.regs.pr = 0 → d.unitsGood id true (decide ((x.regs.get f.ra).toNat < (x.regs.get f.rd).toNat ∧ (x.regs.get f.rd).toNat
    < (x.regs.get f.ra).toNat + (x.regs.get f.rb).toNat)) (x.regs.get f.rd).toNat (x.regs.get f.rb).toNat = true →
    d.unitsGood id false (decide ((x.regs.get f.ra).toNat < (x.regs.get f.rd).toNat ∧ (x.regs.get f.rd).toNat < (x.regs.get
    f.ra).toNat + (x.regs.get f.rb).toNat)) (x.regs.get f.ra).toNat (x.regs.get f.rb).toNat = true → (x.regs.get f.ra).toNat
    + (x.regs.get f.rb).toNat ≤ heapStart → (x.regs.get f.rd).toNat + (x.regs.get f.rb).toNat ≤ heapStart → Runs (.blkmv
    engine thread q f units) d w fun t => t.taskRegs id (x.nextRegs { x.regs with pr := 0 }) ∧ t.sram (x.regs.get f.rd).toNat
    (x.regs.get f.rb).toNat = d.sram (x.regs.get f.ra).toNat (x.regs.get f.rb).toNat) ∧
  (∀ (engine : Fin 32) (thread : Fin 8) (q : Pred) (f : FmtQ) (units : Nat) (id i : Nat) (x : Task) (d : Device) (w : List
    Instr), d.threadAt engine thread q 0xA9 f.enc = some (id, x) → (d.thr (thrKey engine thread)).interrupt = false →
    x.regs.pr = 0 → destOk f.rd = true → d.unitsGood id false false (x.regs.get f.ra).toNat (x.regs.get f.rb).toNat = true →
    d.scanWord (x.regs.get f.ra).toNat 0 (x.regs.get f.rb).toNat f.imm.toNat ((x.regs.get f.rd).toNat % 2 ^ 32) = some i → i
    < 2 ^ 64 → Runs (.scan engine thread q f units) d w fun t => t.taskRegs id (x.nextRegs
    { x.regs.set f.rd (BitVec.ofNat 64 i) with pr := 0 })) ∧
  (∀ (engine : Fin 32) (thread : Fin 8) (q : Pred) (f : FmtQ) (units : Nat) (id : Nat) (x : Task) (d : Device) (w : List
    Instr), d.threadAt engine thread q 0xA9 f.enc = some (id, x) → (d.thr (thrKey engine thread)).interrupt = false →
    x.regs.pr = 0 → destOk f.rd = true → d.unitsGood id false false (x.regs.get f.ra).toNat (x.regs.get f.rb).toNat = true →
    d.scanWord (x.regs.get f.ra).toNat 0 (x.regs.get f.rb).toNat f.imm.toNat ((x.regs.get f.rd).toNat % 2 ^ 32) = none → Runs
    (.scan engine thread q f units) d w fun t => t.taskRegs id (x.nextRegs
    { x.regs.set f.rd (BitVec.ofNat 64 (2 ^ 64 - 1)) with pr := 0 })) ∧
  (∀ (q : Pred) (f : FmtH) (units : Nat) (engine : Fin 32) (thread : Fin 8) (id : Nat) (x : Task) (d : Device) (w : List
    Instr), d.threadAt engine thread q 0x10 f.enc = some (id, x) → f.fn = 3 → f.imm.toNat % 4 = 0 → destOk f.rd = true →
    (d.thr (thrKey engine thread)).interrupt = false → x.regs.pr = 0 → d.unitsGood id false false (x.regs.get f.off).toNat
    (x.regs.get f.len).toNat = true → Runs (.csum (.thr engine thread) q f units) d w fun t => t.taskRegs id (x.nextRegs
    { x.regs.set f.rd (BitVec.ofNat 64 (onesSumFrom ((x.regs.get f.rd).toNat % 2 ^ 32) (d.memRead (x.regs.get f.off).toNat (x.regs.get f.len).toNat))) with pr := 0 }))

/-- With an s destination an ALU instruction of a thread computes in 64 bits at once, and the pc moves to the next word; MOVI
  with X = 1 keeps RD[31:0]; a thread's END ends its task and frees the thread. -/
def Obligations.ThreadAlu : Prop :=
  (∀ (q : Pred) (f : FmtA) (engine : Fin 32) (thread : Fin 8) (id : Nat) (x : Task) (d : Device) (w : List Instr), d.threadAt
    engine thread q 0x00 f.enc = some (id, x) → isS f.rd = true → Runs (.add (.thr engine thread) q f) d w fun t =>
    t.taskRegs id (x.nextRegs (x.regs.set f.rd (x.regs.get f.ra + (if f.i then BitVec.zeroExtend 64 f.imm else x.regs.get
    f.rb))))) ∧
  (∀ (q : Pred) (f : FmtA) (engine : Fin 32) (thread : Fin 8) (id : Nat) (x : Task) (d : Device) (w : List Instr), d.threadAt
    engine thread q 0x01 f.enc = some (id, x) → isS f.rd = true → Runs (.sub (.thr engine thread) q f) d w fun t =>
    t.taskRegs id (x.nextRegs (x.regs.set f.rd (x.regs.get f.ra - (if f.i then BitVec.zeroExtend 64 f.imm else x.regs.get
    f.rb))))) ∧
  (∀ (q : Pred) (f : FmtA) (engine : Fin 32) (thread : Fin 8) (id : Nat) (x : Task) (d : Device) (w : List Instr), d.threadAt
    engine thread q 0x02 f.enc = some (id, x) → isS f.rd = true → Runs (.and (.thr engine thread) q f) d w fun t =>
    t.taskRegs id (x.nextRegs (x.regs.set f.rd (x.regs.get f.ra &&& (if f.i then BitVec.zeroExtend 64 f.imm else x.regs.get
    f.rb))))) ∧
  (∀ (q : Pred) (f : FmtA) (engine : Fin 32) (thread : Fin 8) (id : Nat) (x : Task) (d : Device) (w : List Instr), d.threadAt
    engine thread q 0x03 f.enc = some (id, x) → isS f.rd = true → Runs (.or (.thr engine thread) q f) d w fun t => t.taskRegs
    id (x.nextRegs (x.regs.set f.rd (x.regs.get f.ra ||| (if f.i then BitVec.zeroExtend 64 f.imm else x.regs.get f.rb))))) ∧
  (∀ (q : Pred) (f : FmtA) (engine : Fin 32) (thread : Fin 8) (id : Nat) (x : Task) (d : Device) (w : List Instr), d.threadAt
    engine thread q 0x04 f.enc = some (id, x) → isS f.rd = true → Runs (.xor (.thr engine thread) q f) d w fun t =>
    t.taskRegs id (x.nextRegs (x.regs.set f.rd (x.regs.get f.ra ^^^ (if f.i then BitVec.zeroExtend 64 f.imm else x.regs.get
    f.rb))))) ∧
  (∀ (q : Pred) (f : FmtA) (engine : Fin 32) (thread : Fin 8) (id : Nat) (x : Task) (d : Device) (w : List Instr), d.threadAt
    engine thread q 0x05 f.enc = some (id, x) → isS f.rd = true → Runs (.shl (.thr engine thread) q f) d w fun t =>
    t.taskRegs id (x.nextRegs (x.regs.set f.rd (x.regs.get f.ra <<< ((if f.i then BitVec.zeroExtend 64 f.imm else x.regs.get
    f.rb).toNat % 64))))) ∧
  (∀ (q : Pred) (f : FmtA) (engine : Fin 32) (thread : Fin 8) (id : Nat) (x : Task) (d : Device) (w : List Instr), d.threadAt
    engine thread q 0x06 f.enc = some (id, x) → isS f.rd = true → Runs (.shr (.thr engine thread) q f) d w fun t =>
    t.taskRegs id (x.nextRegs (x.regs.set f.rd (if f.x then BitVec.sshiftRight (x.regs.get f.ra) ((if f.i then
    BitVec.zeroExtend 64 f.imm else x.regs.get f.rb).toNat % 64) else x.regs.get f.ra >>> ((if f.i then BitVec.zeroExtend 64
    f.imm else x.regs.get f.rb).toNat % 64))))) ∧
  (∀ (q : Pred) (f : FmtA) (engine : Fin 32) (thread : Fin 8) (id : Nat) (x : Task) (d : Device) (w : List Instr), d.threadAt
    engine thread q 0x07 f.enc = some (id, x) → isS f.rd = true → Runs (.rot (.thr engine thread) q f) d w fun t =>
    t.taskRegs id (x.nextRegs (x.regs.set f.rd (BitVec.rotateRight (x.regs.get f.ra) ((if f.i then BitVec.zeroExtend 64 f.imm
    else x.regs.get f.rb).toNat % 64))))) ∧
  (∀ (q : Pred) (f : FmtA) (engine : Fin 32) (thread : Fin 8) (id : Nat) (x : Task) (d : Device) (w : List Instr), d.threadAt
    engine thread q 0x08 f.enc = some (id, x) → isS f.rd = true → Runs (.min (.thr engine thread) q f) d w fun t =>
    t.taskRegs id (x.nextRegs (x.regs.set f.rd (if f.x then (if BitVec.sle (x.regs.get f.ra) (if f.i then BitVec.zeroExtend
    64 f.imm else x.regs.get f.rb) then x.regs.get f.ra else (if f.i then BitVec.zeroExtend 64 f.imm else x.regs.get f.rb))
    else (if x.regs.get f.ra ≤ (if f.i then BitVec.zeroExtend 64 f.imm else x.regs.get f.rb) then x.regs.get f.ra else (if
    f.i then BitVec.zeroExtend 64 f.imm else x.regs.get f.rb)))))) ∧
  (∀ (q : Pred) (f : FmtA) (engine : Fin 32) (thread : Fin 8) (id : Nat) (x : Task) (d : Device) (w : List Instr), d.threadAt
    engine thread q 0x09 f.enc = some (id, x) → isS f.rd = true → Runs (.max (.thr engine thread) q f) d w fun t =>
    t.taskRegs id (x.nextRegs (x.regs.set f.rd (if f.x then (if BitVec.sle (x.regs.get f.ra) (if f.i then BitVec.zeroExtend
    64 f.imm else x.regs.get f.rb) then (if f.i then BitVec.zeroExtend 64 f.imm else x.regs.get f.rb) else x.regs.get f.ra)
    else (if x.regs.get f.ra ≤ (if f.i then BitVec.zeroExtend 64 f.imm else x.regs.get f.rb) then (if f.i then
    BitVec.zeroExtend 64 f.imm else x.regs.get f.rb) else x.regs.get f.ra))))) ∧
  (∀ (q : Pred) (f : FmtA) (engine : Fin 32) (thread : Fin 8) (id : Nat) (x : Task) (d : Device) (w : List Instr), d.threadAt
    engine thread q 0x0C f.enc = some (id, x) → isS f.rd = true → f.x = false → Runs (.mov (.thr engine thread) q f) d w fun
    t => t.taskRegs id (x.nextRegs (x.regs.set f.rd (x.regs.get f.ra)))) ∧
  (∀ (q : Pred) (f : FmtA) (engine : Fin 32) (thread : Fin 8) (id : Nat) (x : Task) (d : Device) (w : List Instr), d.threadAt
    engine thread q 0x0D f.enc = some (id, x) → isS f.rd = true → f.x = true → Runs (.movi (.thr engine thread) q f) d w fun
    t => t.taskRegs id (x.nextRegs (x.regs.set f.rd (BitVec.ofNat 64 (f.imm.toNat * 2 ^ 32 + (x.regs.get f.rd).toNat % 2 ^
    32))))) ∧
  (∀ (engine : Fin 32) (thread : Fin 8) (id : Nat) (x : Task) (d : Device) (w : List Instr), d.threadAt engine thread ⟨0,
    false⟩ 0x71 0 = some (id, x) → x.at_ = .thread engine thread → Runs (.end_ (.thr engine thread) (⟨0, false⟩)) d w fun t
    => t.task id = none ∧ (t.thr (thrKey engine thread)).state = .free)

/-- WAIT of a time saves the task on the delay list with the pc on the next word, WAIT of a signal takes a pending one or
  saves the task until it comes, WAIT of kind 2 goes on; YIELD puts the task at the tail of its ready list; FENCE
  completes, raises a signal and wakes those who wait on it, or carries out the task's command: one that names no flow
  command is ILLEGAL, a misspelt one completes with BAD_PARAM, and a read of a record with OK. -/
def Obligations.ThreadWaits : Prop :=
  (∀ (engine : Fin 32) (thread : Fin 8) (q : Pred) (f : FmtQ) (id : Nat) (x : Task) (d : Device) (w : List Instr), d.threadAt
    engine thread q 0xA0 f.enc = some (id, x) → f.kind = 0 → f.imm ≠ 0 → Runs (.wait engine thread q f) d w fun t => (t.thr
    (thrKey engine thread)).state = .saving ∧ ((t.task id).any fun y => y.at_ == .delay && y.regs == x.nextRegs x.regs) =
    true ∧ (t.scaf.timers.any fun m => m.task == id) = true) ∧
  (∀ (engine : Fin 32) (thread : Fin 8) (q : Pred) (f : FmtQ) (id : Nat) (x : Task) (d : Device) (w : List Instr), d.threadAt
    engine thread q 0xA0 f.enc = some (id, x) → f.kind = 0 → f.imm = 0 → Runs (.wait engine thread q f) d w fun t => (t.thr
    (thrKey engine thread)).state = .saving ∧ ((t.task id).any fun y => y.at_ == .ready && y.regs == x.nextRegs x.regs) =
    true ∧ t.readyList x.level = d.readyList x.level ++ [⟨.task id, d.transit⟩]) ∧
  (∀ (engine : Fin 32) (thread : Fin 8) (q : Pred) (f : FmtQ) (id : Nat) (x : Task) (d : Device) (w : List Instr), d.threadAt
    engine thread q 0xA0 f.enc = some (id, x) → f.kind = 1 → d.scaf.signals.contains (f.imm.toNat % 65536) = true → Runs
    (.wait engine thread q f) d w fun t => t.taskRegs id (x.nextRegs x.regs) ∧ t.scaf.signals.contains (f.imm.toNat % 65536)
    = false) ∧
  (∀ (engine : Fin 32) (thread : Fin 8) (q : Pred) (f : FmtQ) (id : Nat) (x : Task) (d : Device) (w : List Instr), d.threadAt
    engine thread q 0xA0 f.enc = some (id, x) → f.kind = 1 → d.scaf.signals.contains (f.imm.toNat % 65536) = false → Runs
    (.wait engine thread q f) d w fun t => (t.thr (thrKey engine thread)).state = .saving ∧ ((t.task id).any fun y => y.at_
    == (.signal (f.imm.toNat % 65536)) && y.regs == x.nextRegs x.regs) = true ∧ t.scaf.waiters = d.scaf.waiters ++
    [(f.imm.toNat % 65536, id)]) ∧
  (∀ (engine : Fin 32) (thread : Fin 8) (q : Pred) (f : FmtQ) (id : Nat) (x : Task) (d : Device) (w : List Instr), d.threadAt
    engine thread q 0xA0 f.enc = some (id, x) → f.kind = 2 → Runs (.wait engine thread q f) d w fun t => t.taskRegs id
    (x.nextRegs x.regs)) ∧
  (∀ (engine : Fin 32) (thread : Fin 8) (q : Pred) (f : FmtQ) (id : Nat) (x : Task) (d : Device) (w : List Instr), d.threadAt
    engine thread q 0xA1 f.enc = some (id, x) → Runs (.yield_ engine thread q f) d w fun t => (t.thr (thrKey engine
    thread)).state = .saving ∧ ((t.task id).any fun y => y.at_ == .ready && y.regs == x.nextRegs x.regs) = true ∧ t.readyList
    x.level = d.readyList x.level ++ [⟨.task id, d.transit⟩]) ∧
  (∀ (engine : Fin 32) (thread : Fin 8) (q : Pred) (f : FmtQ) (id : Nat) (x : Task) (d : Device) (w : List Instr), d.threadAt
    engine thread q 0xAA f.enc = some (id, x) → f.kind = 0 → Runs (.fence engine thread q f) d w fun t => t.taskRegs id
    (x.nextRegs x.regs)) ∧
  (∀ (engine : Fin 32) (thread : Fin 8) (q : Pred) (f : FmtQ) (id : Nat) (x : Task) (d : Device) (w : List Instr), d.threadAt
    engine thread q 0xAA f.enc = some (id, x) → f.kind = 2 → (d.scaf.waiters.filter fun w => w.1 == f.imm.toNat % 65536) = []
    → Runs (.fence engine thread q f) d w fun t => t.taskRegs id (x.nextRegs x.regs) ∧ t.scaf.signals.contains (f.imm.toNat %
    65536) = true) ∧
  (∀ (engine : Fin 32) (thread : Fin 8) (q : Pred) (f : FmtQ) (id : Nat) (x : Task) (d : Device) (w : List Instr), d.threadAt
    engine thread q 0xAA f.enc = some (id, x) → f.kind = 2 → (d.scaf.waiters.filter fun w => w.1 == f.imm.toNat % 65536) ≠ []
    → Runs (.fence engine thread q f) d w fun t => t.taskRegs id (x.nextRegs x.regs) ∧ t.scaf.waiters = d.scaf.waiters.filter
    fun w => w.1 ≠ f.imm.toNat % 65536) ∧
  (∀ (engine : Fin 32) (thread : Fin 8) (q : Pred) (f : FmtQ) (id : Nat) (x : Task) (d : Device) (w : List Instr), d.threadAt
    engine thread q 0xAA f.enc = some (id, x) → f.kind = 1 → [1, 2, 3, 4, 5, 0x11].contains (leNat (d.sram (pageBase id +
    0x4040) 1)) = false → Runs (.fence engine thread q f) d w fun t => t.took engine thread id x .illegal = true) ∧
  (∀ (engine : Fin 32) (thread : Fin 8) (q : Pred) (f : FmtQ) (id : Nat) (x : Task) (d : Device) (w : List Instr), d.threadAt
    engine thread q 0xAA f.enc = some (id, x) → f.kind = 1 → [1, 2, 3, 4, 5, 0x11].contains (leNat (d.sram (pageBase id +
    0x4040) 1)) = true → leNat (d.sram (pageBase id + 0x4044) 4) < 128 → Runs (.fence engine thread q f) d w fun t =>
    t.taskRegs id (x.nextRegs x.regs) ∧ leNat (t.sram (pageBase id + 0x4091) 1) = St.badParam) ∧
  (∀ (engine : Fin 32) (thread : Fin 8) (q : Pred) (f : FmtQ) (id a h : Nat) (x : Task) (d : Device) (w : List Instr),
    d.threadAt engine thread q 0xAA f.enc = some (id, x) → f.kind = 1 → d.sram (pageBase id + 0x4040) 2 = [4, 0] → 128 ≤
    leNat (d.sram (pageBase id + 0x4044) 4) → d.sram (pageBase id + 0x4050) 48 = List.replicate 48 0 → a = leNat (d.sram
    (pageBase id + 0x4048) 8) → d.badAddr id false 4 a 128 = none → d.badAddr id true 4 a 128 = none → d.poisonedIn a 128 =
    none → imageOk (d.memRead a 128) = true → d.spaceEn (recId (d.memRead a 128)).space = true → d.homeOf (recId (d.memRead a
    128)) = some h → (d.authCopy h).isSome = true → Runs (.fence engine thread q f) d w fun t => t.taskRegs id (x.nextRegs
    x.regs) ∧ t.sram (pageBase id + 0x4090) 2 = [4, 0])

/-- The head of a port-513 queue joins the list of its dispatch level, or is counted where its index names no entry; the
  first free thread takes the head of the highest list: a saved task goes on, a tick or a punt becomes a new task; a
  copied frame stands in its task's page; a ready push task interrupts a victim; a thread at its boundary gives its task
  up for a push task; a saved thread is free; an item that has waited moves up. -/
def Obligations.ScaffoldWork : Prop :=
  (∀ (pipe : Fin 32) (c l a : Nat) (rest : List Nat) (y : Copy) (d : Device) (w : List Instr), d.voq pipe 513 (voqCls 513 0)
    = c :: rest → d.copy c = some y → d.dispatchEntry (vecN y.m 7 % 256) = some (l, a) → vecN y.m 7 % 256 < 128 → (d.shed < 2
    ∨ 12 ≤ l) → d.workListed < 32768 → Runs (.puntArrival pipe) d w fun t => t.readyList l = d.readyList l ++ [⟨.punt c (vecN
    y.m 7 % 256), d.transit⟩] ∧ ((t.copy c).any fun z => z.stage == .selected) = true) ∧
  (∀ (pipe : Fin 32) (c : Nat) (rest : List Nat) (y : Copy) (d : Device) (w : List Instr), d.voq pipe 513 (voqCls 513 0) = c
    :: rest → d.copy c = some y → (d.frame y.frame).isSome = true → d.dispatchEntry (vecN y.m 7 % 256) = none ∨ 128 ≤ vecN
    y.m 7 % 256 → Runs (.puntArrival pipe) d w fun t => t.copy c = none ∧ t.reg Off.scafNoEntry = sat32 (d.reg
    Off.scafNoEntry + 1)) ∧
  (∀ (pipe : Fin 32) (c l a : Nat) (rest : List Nat) (y : Copy) (d : Device) (w : List Instr), d.voq pipe 513 (voqCls 513 0)
    = c :: rest → d.copy c = some y → (d.frame y.frame).isSome = true → d.dispatchEntry (vecN y.m 7 % 256) = some (l, a) →
    vecN y.m 7 % 256 < 128 → 2 ≤ d.shed → l < 12 → Runs (.puntArrival pipe) d w fun t => t.copy c = none ∧ t.reg
    Off.scafShedDrop = sat32 (d.reg Off.scafShedDrop + 1)) ∧
  (∀ (engine : Fin 32) (thread : Fin 8) (l id since : Nat) (rest : List ReadyItem) (d : Device) (w : List Instr), d.scafRuns
    = true → d.domainOk 7 engine = true → d.scaf.freed.contains (thrKey engine thread) = true → ((d.scaf.freed.find? fun k =>
    d.domainOk 7 (k / 8)) = some (thrKey engine thread) ∨ (d.task id).any (fun y => y.lockEngine.isSome) = true) →
    (d.nextLevel engine fun _ => true) = some l → d.readyList l = ⟨.task id, since⟩ :: rest → Runs (.dispatch engine thread)
    d w fun t => (t.thr (thrKey engine thread)).state = .running ∧ (t.thr (thrKey engine thread)).task = some id ∧
    t.readyList l = rest ∧ ((t.task id).any fun y => y.at_ == .thread engine thread) = true) ∧
  (∀ (engine : Fin 32) (thread : Fin 8) (l id since n k a : Nat) (rest : List ReadyItem) (d : Device) (w : List Instr),
    d.scafRuns = true → d.domainOk 7 engine = true → (d.scaf.freed.find? fun k => d.domainOk 7 (k / 8)) = some (thrKey engine
    thread) → (d.nextLevel engine fun _ => true) = some l → d.readyList l = ⟨.tick n, since⟩ :: rest → d.freePage l = some id
    → d.dispatchEntry (128 + n) = some (k, a) → Runs (.dispatch engine thread) d w fun t => (t.thr (thrKey engine
    thread)).state = .running ∧ (t.thr (thrKey engine thread)).task = some id ∧ t.readyList l = rest ∧ ((t.task id).any fun y
    => y.frameless && y.regs.pc.toNat == a % 2 ^ 64 && y.regs.sp.toNat == pageBase id + 0x8000 && y.level == k && y.disp ==
    128 + n) = true) ∧
  (∀ (engine : Fin 32) (thread : Fin 8) (l id since c n k a : Nat) (y : Copy) (fr : Frame) (rest : List ReadyItem) (d :
    Device) (w : List Instr), d.scafRuns = true → d.domainOk 7 engine = true → (d.scaf.freed.find? fun k => d.domainOk 7 (k /
    8)) = some (thrKey engine thread) → (d.nextLevel engine fun _ => true) = some l → d.readyList l = ⟨.punt c n, since⟩ ::
    rest → d.copy c = some y → d.frame y.frame = some fr → fr.bad = false → d.dispatchEntry n = some (k, a) → d.freePage l =
    some id → Runs (.dispatch engine thread) d w fun t => (t.thr (thrKey engine thread)).state = .pulling ∧ (t.thr (thrKey
    engine thread)).task = some id ∧ t.readyList l = rest ∧ ((t.task id).any fun z => z.frame == some c && z.level == k &&
    z.disp == n && z.regs.pc.toNat == a % 2 ^ 64) = true) ∧
  (∀ (engine : Fin 32) (thread : Fin 8) (id c : Nat) (x : Task) (y : Copy) (fr : Frame) (d : Device) (w : List Instr), (d.thr
    (thrKey engine thread)).state = .pulling → (d.thr (thrKey engine thread)).task = some id → d.task id = some x → x.frame =
    some c → d.copy c = some y → d.frame y.frame = some fr → fr.bad = false → fr.done = true → Runs (.frameCopyDone engine
    thread) d w fun t => (t.thr (thrKey engine thread)).state = .running ∧ t.sram (pageBase id + 0x40) fr.bytes.length =
    fr.bytes ∧ t.copy c = none ∧ ((t.task id).any fun z => z.at_ == .thread engine thread && z.len == fr.bytes.length) =
    true) ∧
  (∀ (engine : Fin 32) (thread : Fin 8) (id c : Nat) (x : Task) (y : Copy) (d : Device) (w : List Instr), (d.thr (thrKey
    engine thread)).state = .pulling → (d.thr (thrKey engine thread)).task = some id → d.task id = some x → x.frame = some c
    → d.copy c = some y → (d.frame y.frame).any (fun fr => fr.bad) = true → Runs (.frameCopyDone engine thread) d w fun t =>
    t.task id = none ∧ t.copy c = none) ∧
  (∀ (k l id since : Nat) (rest : List ReadyItem) (d : Device) (w : List Instr), d.scafRuns = true → d.scaf.freed.find? (fun
    k => d.domainOk 7 (k / 8) && (d.nextLevel (k / 8) Device.isPush).isSome) = some k → d.nextLevel (k / 8) Device.isPush =
    some l → d.readyList l = ⟨.task id, since⟩ :: rest → (d.task id).isSome = true → Runs .pushReady d w fun t => (t.thr
    k).state = .running ∧ (t.thr k).task = some id ∧ t.readyList l = rest) ∧
  (∀ (k : Nat) (d : Device) (w : List Instr), d.scafRuns = true → (d.scaf.threads.filter fun p => p.2.interrupt &&
    !p.2.spent).length < (d.scaf.ready.filter fun p => Device.isPush p.1).foldl (fun n p => n + p.2.length) 0 →
    d.scaf.freed.find? (fun k => d.domainOk 7 (k / 8) && (d.nextLevel (k / 8) Device.isPush).isSome) = none → d.victim = some
    k → Runs .pushReady d w fun t => (t.thr k).interrupt = true) ∧
  (∀ (engine : Fin 32) (thread : Fin 8) (id l j since : Nat) (x : Task) (rest : List ReadyItem) (d : Device) (w : List
    Instr), (d.thr (thrKey engine thread)).state = .running → (d.thr (thrKey engine thread)).interrupt = true → (d.thr
    (thrKey engine thread)).bound = true → (d.thr (thrKey engine thread)).spent = false → (d.thr (thrKey engine thread)).task
    = some id → d.task id = some x → x.level < 12 → d.nextLevel engine Device.isPush = some l → d.readyList l = ⟨.task j,
    since⟩ :: rest → (d.task j).isSome = true → Runs (.preemption engine thread) d w fun t => (t.thr (thrKey engine
    thread)).state = .running ∧ (t.thr (thrKey engine thread)).task = some j ∧ t.readyList l = rest ∧ t.readyList x.level =
    ⟨.task id, d.transit⟩ :: d.readyList x.level) ∧
  (∀ (engine : Fin 32) (thread : Fin 8) (id : Nat) (x : Task) (d : Device) (w : List Instr), (d.thr (thrKey engine
    thread)).state = .running → (d.thr (thrKey engine thread)).interrupt = true → (d.thr (thrKey engine thread)).bound = true
    → (d.thr (thrKey engine thread)).spent = false → (d.thr (thrKey engine thread)).task = some id → d.task id = some x →
    x.level < 12 → (d.nextLevel engine Device.isPush).isSome = true → (d.scaf.ready.any fun p => p.2.any fun r => r.item ==
    .task id) = false → Runs (.preemption engine thread) d w fun t => ((t.task id).any fun y => y.at_ == .ready && y.regs ==
    x.regs && y.ran == x.ran + (d.transit - x.since)) = true ∧ t.readyList x.level = ⟨.task id, d.transit⟩ :: d.readyList
    x.level) ∧
  (∀ (engine : Fin 32) (thread : Fin 8) (id : Nat) (x : Task) (d : Device) (w : List Instr), (d.thr (thrKey engine
    thread)).state = .running → (d.thr (thrKey engine thread)).interrupt = true → (d.thr (thrKey engine thread)).bound = true
    → (d.thr (thrKey engine thread)).spent = false → (d.thr (thrKey engine thread)).task = some id → d.task id = some x →
    x.level < 12 → d.nextLevel engine Device.isPush = none → Runs (.preemption engine thread) d w fun t => (t.thr (thrKey
    engine thread)).interrupt = false ∧ (t.thr (thrKey engine thread)).task = some id) ∧
  (∀ (engine : Fin 32) (thread : Fin 8) (d : Device) (w : List Instr), (d.thr (thrKey engine thread)).state = .saving → Runs
    (.contextSaveDone engine thread) d w fun t => (t.thr (thrKey engine thread)).state = .free ∧ t.scaf.freed.contains
    (thrKey engine thread) = true) ∧
  (∀ (level : Fin 16) (i : Nat) (x : ReadyItem) (d : Device) (w : List Instr), d.fld Off.scafPullAge 15 0 ≠ 0 → (level : Nat)
    < 11 → i = (d.readyList level).findIdx (fun x => decide (x.since + 1000000 * d.fld Off.scafPullAge 15 0 ≤ d.transit)) →
    (d.readyList level)[i]? = some x → Runs (.pullAge level) d w fun t => t.readyList level = (d.readyList level).eraseIdx i
    ∧ t.readyList (level.val + 1) = d.readyList (level.val + 1) ++ [⟨x.item, d.transit⟩])

/-- A due timer puts its task on its ready list; an enabled tick is listed every period, or counted while its last instance
  exists; a spent budget sets the thread's interrupt, and at the boundary ends the task with BUDGET; in Trim an idle
  engine is gated. -/
def Obligations.ScaffoldTime : Prop :=
  (∀ (m : Timer) (x : Task) (d : Device) (w : List Instr), m ∈ d.scaf.timers → m.due ≤ d.transit → d.task m.task = some x →
    Runs .timerDue d w fun t => ((t.readyList x.level).any fun i => i.item == .task m.task) = true ∧ t.scaf.timers =
    d.scaf.timers.filter fun m => d.transit < m.due) ∧
  (∀ (n : Fin 16) (l a : Nat) (d : Device) (w : List Instr), d.flag (Off.scafTick n) 31 = true → NMap.getD d.scaf.tickLast n
    0 + 1000 * max 1 (d.fld (Off.scafTick n) 23 0) ≤ d.transit → (d.scaf.tasks.any fun p => p.2.disp == 128 + n.val) = false
    → (d.scaf.ready.any fun p => p.2.any fun i => i.item == .tick n) = false → d.dispatchEntry (128 + n.val) = some (l, a) →
    d.workListed < 32768 → Runs (.tickTask n) d w fun t => t.readyList l = d.readyList l ++ [⟨.tick n, d.transit⟩] ∧
    NMap.getD t.scaf.tickLast n 0 = NMap.getD d.scaf.tickLast n 0 + 1000 * max 1 (d.fld (Off.scafTick n) 23 0)) ∧
  (∀ (n : Fin 16) (d : Device) (w : List Instr), d.flag (Off.scafTick n) 31 = true → NMap.getD d.scaf.tickLast n 0 + 1000 *
    max 1 (d.fld (Off.scafTick n) 23 0) ≤ d.transit → (d.scaf.tasks.any fun p => p.2.disp == 128 + n.val) = true ∨
    (d.scaf.ready.any fun p => p.2.any fun i => i.item == .tick n) = true → Runs (.tickTask n) d w fun t => t.reg
    Off.scafTickOver = sat32 (d.reg Off.scafTickOver + 1)) ∧
  (∀ (engine : Fin 32) (thread : Fin 8) (d : Device) (w : List Instr), d.budgetSpent engine thread = true → (d.thr (thrKey
    engine thread)).bound = false → Runs (.budget engine thread) d w fun t => (t.thr (thrKey engine thread)).interrupt = true
    ∧ (t.thr (thrKey engine thread)).spent = true) ∧
  (∀ (engine : Fin 32) (thread : Fin 8) (id : Nat) (x : Task) (d : Device) (w : List Instr), d.budgetSpent engine thread =
    true → (d.thr (thrKey engine thread)).bound = true → (d.thr (thrKey engine thread)).task = some id → d.task id = some x →
    Runs (.budget engine thread) d w fun t => t.took engine thread id x .budget = true) ∧
  (∀ (engine : Fin 32) (d : Device) (w : List Instr), d.pwrState = 1 → d.flag Off.pwrTrim 30 = true → (d.scaf.threads.any fun
    p => p.1 / 8 == engine.val) = false → 8 ≤ ((List.range 32).filter fun k => k != engine.val && (d.dom 7 k).state !=
    .stopped).length → d.domainOk 7 engine = true → NMap.getD d.scaf.idleFrom engine 0 + 1000 * max 1 (d.fld Off.pwrTrim 15
    0) ≤ d.transit → Runs (.scafIdle engine) d w fun t => (t.dom 7 engine).state = .stopped)

/-- At a visit of the sander a record idle for the age timeout is marked STALE and one stale for the age interval is removed
  and counted; below shed level S1 its HEAT is halved and an idle copy leaves for the write-back queue; a visit to an
  empty slot, or to the store beyond the records, reads its 128 bytes; a walk ends with the next walk number and takes
  the digest masks; at the write-back period every dirty skim copy is written home and is clean; a queued copy reaches
  its home with TIER 0 and DIRTY 0; the threshold T moves one step at a tuning interval; an identity leaves the absent
  cache or the learn filter at its time and no other does. -/
def Obligations.FlowUpkeep : Prop :=
  (∀ (handle : Nat) (b : List Byte) (d : Device) (w : List Instr), handle < 2 ^ 26 → d.skimAt handle = none → d.queued handle
    = none → d.runOf handle = [] → NMap.get? d.flow.render handle = some b → (recPinned b || recNoage b) = false → min
    7967232 (d.fld (Off.flowSpaceAge (recId b).space) 22 0) ≠ 0 → recStale b = false → min 7967232 (d.fld (Off.flowSpaceAge
    (recId b).space) 22 0) ≤ (d.ageTick + 2 ^ 24 - recStamp b) % 2 ^ 24 → 1 ≤ d.shed → Runs (.sanderVisit handle) d w fun t
    => NMap.get? t.flow.render handle = some (updsApply b [flagUpd 3 true, .put 70 (bytesLE 2 (d.ageTick % 2 ^ 16))])) ∧
  (∀ (handle : Nat) (b : List Byte) (d : Device) (w : List Instr), handle < 2 ^ 26 → d.authCopy handle = some b → (recPinned
    b || recNoage b) = false → min 7967232 (d.fld (Off.flowSpaceAge (recId b).space) 22 0) ≠ 0 → recStale b = true → max 1
    (d.fld (Off.flowSpaceAgeint (recId b).space) 14 0) ≤ (d.ageTick + 2 ^ 16 - fieldLE b 70 2) % 2 ^ 16 → d.flag
    (Off.flowSpaceCtl (recId b).space) 23 = false → Runs (.sanderVisit handle) d w fun t => t.authCopy handle = none ∧ t.reg
    Off.flowAged = sat32 (d.reg Off.flowAged + 1)) ∧
  (∀ (handle : Nat) (b : List Byte) (d : Device) (w : List Instr), handle < 2 ^ 26 → d.skimAt handle = none → d.queued handle
    = none → d.runOf handle = [] → NMap.get? d.flow.render handle = some b → d.fld (Off.flowSpaceAge (recId b).space) 22 0 =
    0 → d.shed = 0 → d.pwrState ≠ 2 → recHeat b ≠ 0 → Runs (.sanderVisit handle) d w fun t => NMap.get? t.flow.render handle
    = some (updsApply b [.mask 51 0xF0 (recHeat b / 2)])) ∧
  (∀ (handle : Nat) (b : List Byte) (p : Nat) (c : SkimCopy) (d : Device) (w : List Instr), handle < 2 ^ 26 → d.authCopy
    handle = some b → d.fld (Off.flowSpaceAge (recId b).space) 22 0 = 0 → d.shed = 0 → d.pwrState ≠ 2 → recHeat b = 0 →
    d.skimAt handle = some p → NMap.get? d.flow.skim p = some c → d.displaceable p = true → d.fld Off.flowDemote 15 0 ≤
    d.copyAge p → d.wbqRoom = true → Runs (.sanderVisit handle) d w fun t => t.flow.wbq = d.flow.wbq ++ [(c.handle, c.bytes)]
    ∧ NMap.get? t.flow.skim p = none) ∧
  (∀ (handle : Nat) (l : StoreLoc) (d : Device) (w : List Instr), 2 ^ 26 ≤ handle ∨ d.authCopy handle = none → d.shed = 0 →
    d.pwrState ≠ 2 → d.locate (128 * handle) = some l → d.chanFailed l.chan = false → Runs (.sanderVisit handle) d w fun t =>
    t.flow.moved = d.flow.moved + 128 ∧ (((t.rchan l.chan).queue ++ (t.rchan l.chan).waiting).any fun r => r.port == 3 &&
    r.addr == 128 * handle && !r.write && r.bursts == 4) = true) ∧
  (∀ (d : Device) (w : List Instr), d.shed = 0 → d.pwrState ≠ 2 → Runs .walkEnd d w fun t => t.flow.walk = (d.flow.walk + 1)
    % 2 ^ 32 ∧ t.flow.changed = [] ∧ ((List.range 16).all fun s => NMap.getD t.flow.masks s 0 == d.reg (Off.flowSpaceDmaskLo
    s) + 2 ^ 32 * d.fld (Off.flowSpaceDmaskHi s) 15 0) = true) ∧
  (∀ (p : Nat) (c : SkimCopy) (d : Device) (w : List Instr), d.pwrState ≠ 2 → NMap.sortedFrom 0 d.flow.skim = true →
    NMap.get? d.flow.skim p = some c → (d.flow.skim.all fun y => y.1 == p || y.2.handle != c.handle) = true → recDirty
    c.bytes = true → Runs .writeBackPeriod d w fun t => NMap.get? t.flow.skim p = some
    { c with bytes := updsApply c.bytes [flagUpd 4 false] } ∧ NMap.get? t.flow.render c.handle = some (updsApply c.bytes
    [tierUpd 1, flagUpd 4 false])) ∧
  (∀ (handle : Nat) (b : List Byte) (d : Device) (w : List Instr), d.queued handle = some b → Runs (.writeBackComplete
    handle) d w fun t => NMap.get? t.flow.render handle = some (updsApply b [tierUpd 0, flagUpd 4 false]) ∧ t.queued handle =
    none) ∧
  (∀ (u : Tuning) (d : Device) (w : List Instr), d.flow.tuning = u → d.shed = 0 → u.budget * 1000000 * u.interval <
    d.flow.moved → u.tmin < d.threshT → Runs .tuneInterval d w fun t => t.threshT = d.threshT - 1 ∧ t.flow.moved = 0 ∧
    t.flow.evicted = 0 ∧ t.flow.tuning = d.tuningNow) ∧
  (∀ (u : Tuning) (d : Device) (w : List Instr), d.flow.tuning = u → d.shed = 0 → 4 * d.flow.moved < u.budget * 1000000 *
    u.interval * 3 → u.evictMax * u.interval < d.flow.evicted * 1000 → d.threshT < u.tmax → u.tmax ≤ 15 → Runs .tuneInterval
    d w fun t => t.threshT = d.threshT + 1) ∧
  (∀ (space : Fin 16) (key : List Byte) (d : Device) (w : List Instr), Runs (.absentExpiry space key) d w fun t => ∀ a ∈
    d.flow.absent, a ∈ t.flow.absent ↔ ¬ (a.1 = ⟨space, key⟩ ∧ a.2 ≤ d.transit)) ∧
  (∀ (space : Fin 16) (key : List Byte) (d : Device) (w : List Instr), Runs (.learnWindowExpiry space key) d w fun t => ∀ a ∈
    d.flow.learn, a ∈ t.flow.learn ↔ ¬ (a.1 = ⟨space, key⟩ ∧ a.2 ≤ d.transit))

/-- At a command opportunity of a running channel the request that the controller picks leaves the queue and opens its row; a
  completed request leaves the channel and its corrected and uncorrectable codewords are counted; a refresh closes the
  row, makes one postponed refresh up and shows whether the stack is hot, or is postponed while a class-0 request waits
  and fewer than 8 are; a channel with more uncorrectable codewords in a second than the limit fails; an idle stack in
  Doze goes back to self-refresh. -/
def Obligations.RenderChannels : Prop :=
  (∀ (channel : Fin 32) (pc : Fin 2) (busy : List Nat) (r : RReq) (d : Device) (w : List Instr), d.flag (Off.rstoreChStatus
    channel) 0 = true → d.domainOk 6 channel = true → (d.rchan channel).waiting = [] → d.pickReq channel pc busy = some r →
    Runs (.commandOpportunity channel pc busy) d w fun t => (t.rchan channel).issued = (d.rchan channel).issued ++ [r] ∧
    (t.rchan channel).queue = (d.rchan channel).queue.filter (fun q => q.id ≠ r.id) ∧ ((d.locate r.addr).all fun l =>
    NMap.get? (t.rchan channel).rows l.bank == some l.row) = true) ∧
  (∀ (channel : Fin 32) (id : Nat) (corrected : Nat) (poisoned : List Nat) (r : RReq) (d : Device) (w : List Instr), (d.rchan
    channel).issued.find? (fun r => r.id == id) = some r → poisoned = [] → Runs (.requestComplete channel id corrected
    poisoned) d w fun t => (t.rchan channel).issued = (d.rchan channel).issued.filter (fun r => r.id ≠ id) ∧ t.reg
    (Off.rstoreChCe channel) = sat32 (d.reg (Off.rstoreChCe channel) + corrected)) ∧
  (∀ (channel : Fin 32) (id : Nat) (corrected : Nat) (poisoned : List Nat) (r : RReq) (k : Nat) (d : Device) (w : List
    Instr), (d.rchan channel).issued.find? (fun r => r.id == id) = some r → poisoned = [k] → r.write = false → k < 2 *
    r.bursts → (d.regionOf (r.addr + 16 * k)).map (fun n => d.fld (Off.rstoreRegion n) 30 28) ≠ some 0 → Runs
    (.requestComplete channel id corrected poisoned) d w fun t => t.reg (Off.rstoreChUe channel) = sat32 (d.reg
    (Off.rstoreChUe channel) + 1)) ∧
  (∀ (channel : Fin 32) (bank : BankRefresh) (d : Device) (w : List Instr), d.bankWaited channel bank.bank = true → NMap.getD
    (d.rchan channel).postponed bank.bank 0 < 8 → Runs (.dramRefresh channel bank) d w fun t => NMap.getD (t.rchan
    channel).postponed bank.bank 0 = NMap.getD (d.rchan channel).postponed bank.bank 0 + 1) ∧
  (∀ (channel : Fin 32) (bank : BankRefresh) (d : Device) (w : List Instr), d.bankWaited channel bank.bank = false ∨ 8 ≤
    NMap.getD (d.rchan channel).postponed bank.bank 0 → Runs (.dramRefresh channel bank) d w fun t => NMap.get? (t.rchan
    channel).rows bank.bank = none ∧ NMap.getD (t.rchan channel).postponed bank.bank 0 = NMap.getD (d.rchan
    channel).postponed bank.bank 0 - 1 ∧ t.flag (Off.rstoreChStatus channel) 4 = bank.hot) ∧
  (∀ (channel : Fin 32) (d : Device) (w : List Instr), d.chanFailed channel = false → d.fld Off.rstoreUeLimit 15 0 <
    ((d.rchan channel).ues.map (·.2)).sum → Runs (.channelFailed channel) d w fun t => t.chanFailed channel = true ∧ t.fld
    (Off.rstoreChStatus channel) 2 0 = 6 ∧ (t.rchan channel).queue = [] ∧ (t.rchan channel).issued = []) ∧
  (∀ (stack : Fin 2) (d : Device) (w : List Instr), d.pwrState = 2 → NMap.getD d.rstore.lastReq stack 0 + 100000 ≤ d.transit
    → Runs (.selfRefreshIdle stack) d w fun t => t.flag Off.rstoreSelfref stack = true)

/-- A seat that loses its link, its bus mastering or its keepalive is absent from that time, the fault of its domain declared
  and its rings disabled and empty; one whose link is up and whose keepalive is current becomes present; the coalescing
  time sends the ring's message; a BAD or delivered frame leaves the queue to the seat; the island rule asks for swatch
  3, or shows that it is not valid; a merged event is stamped when HOLDOFF has passed. -/
def Obligations.SeatPresence : Prop :=
  (∀ (seat : Fin 2) (d : Device) (w : List Instr), d.present seat = true → Runs (.seatAbsent seat) d w fun t => t.present
    seat = false ∧ (t.seat seat).absentSince = d.transit ∧ (t.dom 9 seat).declared = d.transit ∧ ((List.range 8).all fun r =>
    !t.flag (Off.seatCrCtl seat r) 31 && !t.flag (Off.seatNrCtl seat r) 31 && t.fld (Off.seatCrHead seat r) 15 0 == 0 &&
    t.fld (Off.seatCrTail seat r) 15 0 == 0 && t.fld (Off.seatNrHead seat r) 15 0 == 0 && t.fld (Off.seatNrTail seat r) 15 0
    == 0) = true) ∧
  (∀ (seat : Fin 2) (link : Fin 4) (d : Device) (w : List Instr), (d.pwr.phase = .tiles ∨ d.pwr.phase = .started) → d.present
    seat = false → link.val ≠ 0 → d.keepaliveOk seat = true → d.domainOk 9 seat = true → Runs (.seatPresent seat link) d w
    fun t => t.present seat = true ∧ (t.seat seat).link = link.val) ∧
  (∀ (seat : Fin 2) (ring : Fin 8) (d : Device) (w : List Instr), d.fld (Off.seatNrCoalesce seat ring) 15 0 ≠ 0 → ((d.seat
    seat).nring ring).since ≠ 0 → ((d.seat seat).nring ring).first + 1000 * d.fld (Off.seatNrCoalesce seat ring) 15 0 ≤
    d.transit → d.fld (Off.seatNrHead seat ring) 15 0 ≠ d.fld (Off.seatNrTail seat ring) 15 0 → Runs (.coalesceTimer seat
    ring) d w fun t => NMap.getD (t.seat seat).msix (d.fld (Off.seatNrCtl seat ring) 13 8) 0 = NMap.getD (d.seat seat).msix
    (d.fld (Off.seatNrCtl seat ring) 13 8) 0 + 1 ∧ ((t.seat seat).nring ring).since = 0) ∧
  (∀ (seat : Fin 2) (pipe : Fin 32) (c : Nat) (cs : List Nat) (y : Copy) (fr : Frame) (d : Device) (w : List Instr), d.voq
    pipe (514 + seat.val) (voqCls (514 + seat.val) 0) = c :: cs → d.copy c = some y → d.frame y.frame = some fr → fr.bad =
    true ∨ fr.done = true → Runs (.frameIn seat pipe) d w fun t => t.copy c = none) ∧
  (∀ (d : Device) (w : List Instr), d.islandDue = true → d.coats.pending.isSome = true → Runs .island d w fun t => if
    d.swatchValid 3 = true then t.fld Off.seatIslandStatus 1 0 = 1 ∧ t.pwr.switch = some ⟨none, 3, 0, true, false⟩ else t.fld
    Off.seatIslandStatus 1 0 = 3 ∧ t.pwr.switch = d.pwr.switch) ∧
  (∀ (d : Device) (w : List Instr), d.islandDue = true → d.swatchValid 3 = false → Runs .island d w fun t => t.fld
    Off.seatIslandStatus 1 0 = 3 ∧ t.pwr.switch = d.pwr.switch) ∧
  (∀ (src : Nat) (code : Nat) (a b x : Nat) (ev : Event) (d : Device) (w : List Instr), d.slot? src code = some ⟨a, b, some
    ev, some x⟩ → x + 1000 * d.fld Off.hawkCtl 15 0 ≤ d.transit → Runs (.holdoffExpiry src code) d w fun t => t.slot? src
    code = some ⟨src, code, none, some d.transit⟩)

/-- A bad cell turns its frame BAD, a dirty skim copy is lost with its record and a clean one reloaded, a table word is
  listed for rewriting, a policer's bucket is emptied and a thread's poisoned read aborts its task; a domain fault in a
  running domain is contained, declared and put under restart, waits when 16 recover, and stops the device for Darby or
  when the limit is reached; a restart returns the domain to RUNNING; the safe stop squelches and lowers ALIVE, and HB
  keeps its level; the reset follows at STOP_HOLD, or the device is held. -/
def Obligations.FaultsAndStops : Prop :=
  (∀ (frame cell : Nat) (d : Device) (w : List Instr), ((d.frame frame).any fun y => y.chain.contains cell || y.asideCell ==
    some cell) = true → Runs (.ueData (.cell frame cell)) d w fun t => t.reg Off.bufCellUe = sat32 (d.reg Off.bufCellUe + 1)
    ∧ ((t.frame frame).all fun y => y.bad) = true) ∧
  (∀ (place : Nat) (c : SkimCopy) (b : List Byte) (d : Device) (w : List Instr), NMap.get? d.flow.skim place = some c →
    (d.copyNow place).any recDirty = false → NMap.get? d.flow.render c.handle = some b → Runs (.ueData (.skim place)) d w fun
    t => t.reg Off.flowSkimUe = sat32 (d.reg Off.flowSkimUe + 1) ∧ NMap.get? t.flow.skim place = some
    { c with bytes := asSkim b (recTier c.bytes) }) ∧
  (∀ (place : Nat) (c : SkimCopy) (d : Device) (w : List Instr), NMap.get? d.flow.skim place = some c → (d.copyNow place).any
    recDirty = true → Runs (.ueData (.skim place)) d w fun t => t.authCopy c.handle = none) ∧
  (∀ (num inst : Nat) (word : DamagedWord) (d : Device) (w : List Instr), d.coats.damaged.contains (num, inst, word) = false
    → Runs (.ueData (.table num inst word)) d w fun t => t.coats.damaged = d.coats.damaged ++ [(num, inst, word)] ∧ t.reg
    Off.tblEccUe = sat32 (d.reg Off.tblEccUe + 1)) ∧
  (∀ (qid : Nat) (d : Device) (w : List Instr), (d.quote qid).isSome = true → Runs (.ueData (.policer qid)) d w fun t =>
    (t.quote qid).map (fun q => q.tokens) = some 0) ∧
  (∀ (engine : Fin 32) (thread : Fin 8) (addr id : Nat) (d : Device) (w : List Instr), (d.thr (thrKey engine thread)).state =
    .running → (d.thr (thrKey engine thread)).task = some id → Runs (.ueData (.scaffold engine thread addr)) d w fun t =>
    t.task id = none) ∧
  (∀ (kind : Nat) (inst : Nat) (arg : Nat) (transit : Bool) (frames : List Nat) (d : Device) (w : List Instr),
    d.fault.stopping = false → inst < domCount kind → kind ≠ 0xC → (kind = 0xB → transit = false) → (d.dom kind inst).state =
    .running → d.recovering < 16 → d.fld Off.faultRepeat 7 0 = 0 ∨ d.restartsNow kind inst < d.fld Off.faultRepeat 7 0 → Runs
    (.domainFault kind inst arg transit frames) d w fun t => (t.dom kind inst).state = .restarting ∧ (t.dom kind inst).faults
    = min 65535 ((d.dom kind inst).faults + 1) ∧ (t.dom kind inst).declared = d.transit) ∧
  (∀ (kind : Nat) (inst : Nat) (arg : Nat) (transit : Bool) (frames : List Nat) (d : Device) (w : List Instr),
    d.fault.stopping = false → inst < domCount kind → kind ≠ 0xC → (kind = 0xB → transit = false) → (d.dom kind inst).state =
    .running → 16 ≤ d.recovering → d.fld Off.faultRepeat 7 0 = 0 ∨ d.restartsNow kind inst < d.fld Off.faultRepeat 7 0 → Runs
    (.domainFault kind inst arg transit frames) d w fun t => (t.dom kind inst).state = .faulted ∧ t.fault.waiting =
    d.fault.waiting ++ [(kind, inst, arg, frames)]) ∧
  (∀ (kind : Nat) (inst : Nat) (arg : Nat) (transit : Bool) (frames : List Nat) (d : Device) (w : List Instr),
    d.fault.stopping = false → inst < domCount kind → (d.dom kind inst).state ≠ .failed → (d.dom kind inst).state ≠ .stopped
    → (kind = 0xC ∨ kind = 0xB ∧ transit = true ∨ (d.dom kind inst).state ≠ .running ∨ (d.fld Off.faultRepeat 7 0 ≠ 0 ∧ d.fld
    Off.faultRepeat 7 0 ≤ d.restartsNow kind inst)) → Runs (.domainFault kind inst arg transit frames) d w fun t =>
    t.fault.stopping = true) ∧
  (∀ (kind : Nat) (inst : Nat) (d : Device) (w : List Instr), d.fault.stopping = false → (d.dom kind inst).state =
    .restarting → d.fault.waiting = [] → Runs (.domainRestarted kind inst) d w fun t => (t.dom kind inst).state = .running ∧
    t.reg Off.faultRecoveries = sat32 (d.reg Off.faultRecoveries + 1)) ∧
  (∀ (d : Device) (w : List Instr), d.fault.stopping = true → d.pwr.stopUntil = none → Runs .safeStop d w fun t => t.fld
    Off.faultResetCause 3 0 = 3 ∧ t.pwr.squelch = true ∧ t.pwr.alive = false ∧ t.pwr.hb = d.pwr.hb ∧ t.pwr.stopUntil = some
    (d.transit + 1000000 * max 1 (d.fld Off.faultCtl 15 0))) ∧
  (∀ (x : Nat) (d : Device) (w : List Instr), d.pwr.stopUntil = some x → x ≤ d.transit → d.fld Off.faultCtl 31 28 = 0 ∨
    d.stopsNow < d.fld Off.faultCtl 31 28 → Runs .stopHoldExpiry d w fun t => t.pwr.phase = .waits ∧ t.pwr.kind = .warm ∧
    t.fld Off.faultResetCause 3 0 = 3) ∧
  (∀ (x : Nat) (d : Device) (w : List Instr), d.pwr.stopUntil = some x → x ≤ d.transit → d.fld Off.faultCtl 31 28 ≠ 0 → d.fld
    Off.faultCtl 31 28 ≤ d.stopsNow → Runs .stopHoldExpiry d w fun t => t.pwr.phase = .held ∧ t.flag Off.faultStatus 31 =
    true)

/-- A transition completes when its condition holds, with STATE showing the new state, and the request that was held starts;
  a latched wake follows the entry to Sleep at once; a drain ends with every port down and squelched; a wake source
  starts the device from Off, begins a wake from Sleep, or is latched during an entry; RESET_N gives a warm start with
  its cause, or a start from Off; a lost AONCLK clears VALID in Sleep, and a lost core clock stops the device. -/
def Obligations.PowerStates : Prop :=
  (∀ (x : Trans) (d : Device) (w : List Instr), d.pwr.running = some x → x.req.state < 2 → (x.old < 2 ∨ d.pwr.alive = true) →
    d.pwr.phase ≠ .asleep → Runs .transitionComplete d w fun t => t.fld Off.pwrStatus 26 24 = x.req.state ∧ t.pwr.held = none
    ∧ (t.pwr.running.map fun y => y.req.state) = (d.pwr.held.bind fun h => if h.state = x.req.state then none else some
    h.state)) ∧
  (∀ (x : Trans) (d : Device) (w : List Instr), d.pwr.running = some x → x.req.state = 2 → x.old ≠ 3 → d.pwr.portsDown = true
    → d.pwr.phase ≠ .asleep → Runs .transitionComplete d w fun t => t.fld Off.pwrStatus 26 24 = 2 ∧ (d.pwr.held.all (fun h =>
    decide (2 ≤ h.state)) = true → t.fld Off.rstoreSelfref 1 0 = 3) ∧ t.pwr.held = none ∧ (t.pwr.running.map fun y =>
    y.req.state) = (d.pwr.held.bind fun h => if h.state = x.req.state then none else some h.state)) ∧
  (∀ (x : Trans) (d : Device) (w : List Instr), d.pwr.running = some x → x.req.state = 2 → x.old = 3 → d.pwr.phase = .started
    → Runs .transitionComplete d w fun t => t.fld Off.pwrStatus 26 24 = 2 ∧ t.pwr.held = none ∧ (t.pwr.running.map fun y =>
    y.req.state) = (d.pwr.held.bind fun h => if h.state = x.req.state then none else some h.state)) ∧
  (∀ (x : Trans) (d : Device) (w : List Instr), d.pwr.running = some x → x.req.state = 3 → d.pwr.portsDown = true →
    d.pwr.held = none → d.pwr.latched = 0 → Runs .transitionComplete d w fun t => t.pwr.phase = .asleep ∧ t.pwr.running =
    none ∧ t.fld Off.pwrStatus 26 24 = 3 ∧ t.flag Off.pwrPad 0 = true) ∧
  (∀ (x : Trans) (d : Device) (w : List Instr), d.pwr.running = some x → x.req.state = 3 → d.pwr.portsDown = true →
    d.pwr.latched ≠ 0 → Runs .transitionComplete d w fun t => t.pwr.phase = .waits ∧ t.reg Off.pwrWakeSrc = d.pwr.latched %
    32) ∧
  (∀ (x : Trans) (d : Device) (w : List Instr), d.pwr.running = some x → 4 ≤ x.req.state → d.pwr.portsDown = true → Runs
    .transitionComplete d w fun t => t.pwr.phase = .off ∧ t.pwr.kind = .cold) ∧
  (∀ (x : Trans) (d : Device) (w : List Instr), d.pwr.running = some x → d.pwr.draining = true → (d.buf.frames.isEmpty = true
    ∨ x.since + 1000 * d.fld Off.pwrCtl 31 16 ≤ d.transit) → Runs .drainTimeout d w fun t => t.pwr.portsDown = true ∧
    t.pwr.squelch = true ∧ t.pwr.draining = false) ∧
  (∀ (src : Fin 5) (d : Device) (w : List Instr), d.pwr.phase = .off → src.val < 2 → Runs (.wake src) d w fun t =>
    t.pwr.phase = .waits ∧ t.pwr.portsDown = false) ∧
  (∀ (src : Fin 5) (d : Device) (w : List Instr), d.pwr.phase = .asleep → d.flag Off.pwrWakeEn src = true → Runs (.wake src)
    d w fun t => t.reg Off.pwrWakeSrc = 2 ^ src.val) ∧
  (∀ (src : Fin 5) (x : Trans) (d : Device) (w : List Instr), d.pwr.phase ≠ .off → d.pwr.phase ≠ .asleep → d.pwr.running =
    some x → x.req.state = 3 → d.flag Off.pwrWakeEn src = true → Runs (.wake src) d w fun t => t.pwr.latched = d.pwr.latched
    ||| 2 ^ src.val) ∧
  (∀ (d : Device) (w : List Instr), d.pwr.phase = .off → Runs .resetN d w fun t => t.pwr.phase = .waits ∧ t.pwr.portsDown =
    false) ∧
  (∀ (d : Device) (w : List Instr), d.pwr.phase ≠ .off → d.pwr.thermtrip = false ∨ signed 16 (d.fld Off.pwrTherm 15 0) < 1050
    → Runs .resetN d w fun t => t.pwr.phase = .waits ∧ t.pwr.kind = .warm ∧ t.fld Off.faultResetCause 3 0 = 2 ∧ t.flag
    Off.faultStatus 31 = false) ∧
  (∀ (d : Device) (w : List Instr), d.pwr.phase ≠ .off → d.pwr.thermtrip = true → signed 16 (d.fld Off.pwrTherm 15 0) ≥ 1050
    → Runs .resetN d w fun t => t.pwr.phase = .held ∧ t.pwr.thermtrip = true ∧ t.pwr.latched = 1) ∧
  (∀ (which : Fin 10) (lost : Bool) (d : Device) (w : List Instr), which.val = 0 → lost = true → d.fault.stopping = false →
    (d.dom 0xC 0).state = .running → Runs (.clock which lost) d w fun t => t.fault.stopping = true) ∧
  (∀ (which : Fin 10) (lost : Bool) (d : Device) (w : List Instr), which.val = 1 → lost = true → d.pwr.phase = .asleep → Runs
    (.clock which lost) d w fun t => ((List.range 8).all fun n => !t.flag (Off.plumbTbStatus n) 3) = true) ∧
  (∀ (which : Fin 10) (lost : Bool) (d : Device) (w : List Instr), which.val = 1 → lost = true → d.pwr.phase ≠ .asleep → Runs
    (.clock which lost) d w fun t => t.pwr = d.pwr ∧ t.fault = d.fault) ∧
  (∀ (which : Fin 10) (lost : Bool) (d : Device) (w : List Instr), lost = false → Runs (.clock which lost) d w fun t =>
    t.fault = d.fault ∧ ∀ n, n ∈ t.pwr.lostDies → n ∈ d.pwr.lostDies ∧ n + 2 ≠ which.val) ∧
  (∀ (which : Fin 10) (lost : Bool) (d : Device) (w : List Instr), 2 ≤ which.val → lost = true → d.fault.stopping = false →
    (d.dom 0 (8 * (which.val - 2))).state = .running → Runs (.clock which lost) d w fun t => (t.dom 0 (8 * (which.val -
    2))).faults = min 65535 ((d.dom 0 (8 * (which.val - 2))).faults + 1) ∧ t.pwr.lostDies.contains (which.val - 2) = true)

/-- A shed level is entered below its threshold and left one at a time above it, and PWR_SHED_STATUS shows level and voltage;
  level 5 and a deep undervoltage of a core rail end every request with the last word, and 100 ns later reset the device
  with cause 4; at S3 and above the gate of each tile follows its quoted flows at a tick (entry 129); a brown-out of the
  island leads to Off and a cold start; the temperature is shown, WARN is given once until it has fallen by 2 °C, and 125
  °C trips. -/
def Obligations.SheddingAndSupplies : Prop :=
  (∀ (level : Nat) (vcore : Nat) (d : Device) (w : List Instr), d.shedJudged = true → d.shed < level → level < 5 → 400 *
    vcore < (10 * d.fld Off.pwrVcore 31 16) * (400 - d.shedThr level) → vcore < 65536 → Runs (.shedEnter level vcore) d w fun
    t => t.shed = level ∧ t.fld Off.pwrShedStatus 15 0 = vcore) ∧
  (∀ (level : Nat) (vcore : Nat) (d : Device) (w : List Instr), d.shedJudged = true → d.shed < level → level = 5 → d.pwr.s5At
    = none → 400 * vcore < (10 * d.fld Off.pwrVcore 31 16) * (400 - d.shedThr level) → Runs (.shedEnter level vcore) d w fun
    t => t.shed = 5 ∧ t.pwr.s5At = some (d.transit + 100) ∧ t.pwr.running = none ∧ t.pwr.held = none ∧ t.pwr.draining =
    false) ∧
  (∀ (x : Nat) (d : Device) (w : List Instr), d.pwr.phase ≠ .off → d.pwr.s5At = some x → x ≤ d.transit + 1 → d.transit + 40 <
    2 ^ 64 → Runs .tick d w fun t => t.fld Off.faultResetCause 3 0 = 4 ∧ t.pwr.kind = .warm ∧ t.pwr.phase = .waits ∧
    t.pwr.squelch = true) ∧
  (∀ (n : Nat) (d : Device) (w : List Instr), d.pwr.phase ≠ .off → (d.pwr.s5At.all fun x => d.transit + 40 < x) = true → n ∈
    d.tilesMoved → Runs .tick d w fun t => t.flag (gateTileOff n) (n % 32) = !d.tileQuoted n) ∧
  (∀ (vcore : Nat) (d : Device) (w : List Instr), d.shed ≠ 0 → d.shed < 5 → (10 * d.fld Off.pwrVcore 31 16) * (404 -
    d.shedThr d.shed) < 400 * vcore → Runs (.shedLeave vcore) d w fun t => t.shed = d.shed - 1) ∧
  (∀ (rail : Nat) (mv : Nat) (deep : Bool) (n : Nat) (d : Device) (w : List Instr), railNominal rail = some n → deep = true →
    100 * mv ≤ 92 * n → d.shedJudged = true → d.pwr.s5At = none → Runs (.supply rail mv deep) d w fun t => t.shed = 5 ∧
    t.pwr.s5At = some (d.transit + 100) ∧ t.pwr.running = none ∧ t.pwr.held = none ∧ t.pwr.draining = false) ∧
  (∀ (rail : Nat) (mv : Nat) (deep : Bool) (d : Device) (w : List Instr), deep = false ∨ d.shedJudged = false ∨
    d.pwr.s5At.isSome = true ∨ (railNominal rail).all (fun n => decide (92 * n < 100 * mv)) = true → Runs (.supply rail mv
    deep) d w fun t => t.pwr = d.pwr ∧ t.shed = d.shed) ∧
  (∀ (d : Device) (w : List Instr), Runs .brownOut d w fun t => t.pwr.phase = .off ∧ t.flag Off.pwrAon 31 = true ∧ t.pwr.kind
    = .cold ∧ t.fld Off.faultResetCause 3 0 = 1) ∧
  (∀ (sensor : Fin 40) (temp : Int) (d : Device) (w : List Instr), d.pwr.thermtrip = false → d.pwr.warned = false → 10 *
    (d.fld Off.pwrTherm 23 16 : Int) ≤ temp → Runs (.thermal sensor temp) d w fun t => t.pwr.warned = true ∧ t.fld
    Off.pwrTherm 15 0 = unsigned 16 temp) ∧
  (∀ (sensor : Fin 40) (temp : Int) (d : Device) (w : List Instr), d.pwr.thermtrip = false → temp ≤ 10 * (d.fld Off.pwrTherm
    23 16 : Int) - 20 → Runs (.thermal sensor temp) d w fun t => t.pwr.warned = false ∧ t.fld Off.pwrTherm 15 0 = unsigned 16
    temp) ∧
  (∀ (sensor : Fin 40) (temp : Int) (d : Device) (w : List Instr), d.pwr.thermtrip = true → d.pwr.latched = 1 → temp < 1050 →
    Runs (.thermal sensor temp) d w fun t => t.pwr.phase = .waits ∧ t.pwr.thermtrip = false) ∧
  (∀ (sensor : Fin 40) (temp : Int) (d : Device) (w : List Instr), d.pwr.thermtrip = true → d.pwr.latched ≠ 1 ∨ 1050 ≤ temp →
    Runs (.thermal sensor temp) d w fun t => t.pwr = d.pwr ∧ t.fld Off.pwrTherm 15 0 = unsigned 16 temp) ∧
  (∀ (sensor : Fin 40) (temp : Int) (d : Device) (w : List Instr), d.pwr.thermtrip = false → 10 * (d.fld Off.pwrTherm 23 16 :
    Int) - 20 < temp → temp < 10 * (d.fld Off.pwrTherm 23 16 : Int) ∨ d.pwr.warned = true → Runs (.thermal sensor temp) d w
    fun t => t.pwr = d.pwr ∧ t.fld Off.pwrTherm 15 0 = unsigned 16 temp) ∧
  (∀ (sensor : Fin 40) (temp : Int) (d : Device) (w : List Instr), 1250 ≤ temp → d.pwr.phase ≠ .off → Runs (.thermtripN
    sensor temp) d w fun t => t.pwr.phase = .held ∧ t.pwr.thermtrip = true ∧ t.fld Off.faultResetCause 3 0 = 5 ∧ t.fld
    Off.pwrTherm 15 0 = unsigned 16 temp)

/-- A start samples the straps and goes to the manufacturing test, the recovery loader, or on under the first valid swatch to
  the calibration of the tiles; a calibrated tile is noted; ALIVE rises when every first attempt has ended, and HB
  toggles; a flash operation erases a sector, programs or reads 256 bytes, or fails with STATUS 2; an invalid selected
  swatch ends the switch, and a valid one waits for its time. -/
def Obligations.StartAndSwatches : Prop :=
  (∀ (straps : Straps) (kept : Bool) (bad0 : List Nat) (bad1 : List Nat) (d : Device) (w : List Instr), d.pwr.phase = .waits
    → straps.testmode = true → Runs (.startUp straps kept bad0 bad1) d w fun t => t.pwr.phase = .test ∧ t.fld Off.pwrStrap 1
    0 = straps.swatch.toNat) ∧
  (∀ (straps : Straps) (kept : Bool) (bad0 : List Nat) (bad1 : List Nat) (d : Device) (w : List Instr), d.pwr.phase = .waits
    → straps.testmode = false → straps.bootsrc = true → Runs (.startUp straps kept bad0 bad1) d w fun t => t.pwr.phase =
    .recovery ∧ t.fld Off.pwrStrap 1 0 = straps.swatch.toNat) ∧
  (∀ (straps : Straps) (kept : Bool) (bad0 : List Nat) (bad1 : List Nat) (e : Device) (d : Device) (w : List Instr),
    d.pwr.phase = .waits → straps.testmode = false → straps.bootsrc = false → e = (let y := (d.sampleStraps
    straps).startTime; if d.pwr.kind = .cold then y.logReset.offWake else y)  → Runs (.startUp straps kept bad0 bad1) d w fun
    t => if (e.chooseSwatch (if d.pwr.kind = .cold then straps.swatch.toNat else e.activeSwatch)).isSome = true then
    t.pwr.phase = .tiles ∨ t.pwr.phase = .started else t.pwr.phase = .recovery) ∧
  (∀ (straps : Straps) (kept : Bool) (bad0 : List Nat) (bad1 : List Nat) (e : Device) (d : Device) (w : List Instr),
    d.pwr.phase = .waits → straps.testmode = false → straps.bootsrc = false → e = (let y := (d.sampleStraps
    straps).startTime; if d.pwr.kind = .cold then y.logReset.offWake else y) → e.chooseSwatch (if d.pwr.kind = .cold then
    straps.swatch.toNat else e.activeSwatch) = none → Runs (.startUp straps kept bad0 bad1) d w fun t => t.pwr.phase =
    .recovery) ∧
  (∀ (tile : Fin 64) (d : Device) (w : List Instr), d.pwr.phase = .tiles → d.pwr.tiles.contains tile.val = false → Runs
    (.tileCalibrated tile) d w fun t => t.pwr.tiles = d.pwr.tiles ++ [tile.val]) ∧
  (∀ (d : Device) (w : List Instr), d.pwr.phase = .tiles → d.pwr.tiles.length = 64 → d.pwr.awaiting = [] → d.pwr.portsDown =
    false → d.fault.stopping = false → d.darbyRuns = true → Runs .alive d w fun t => t.pwr.alive = true ∧ t.pwr.phase =
    .started ∧ t.pwr.islandFrom = d.transit) ∧
  (∀ (d : Device) (w : List Instr), (d.pwr.phase = .tiles ∨ d.pwr.phase = .started) → d.fault.stopping = false → d.darbyRuns
    = true → Runs .hbToggle d w fun t => t.pwr.hb = !d.pwr.hb) ∧
  (∀ (err : Bool) (o : FlashOp) (d : Device) (w : List Instr), d.pwr.flashOp = some o → err = true → Runs (.flashDone err) d
    w fun t => t.fld Off.darbyFlashCmd 30 28 = 2 ∧ t.flag Off.darbyFlashCmd 31 = false ∧ t.pwr.flash = d.pwr.flash ∧
    t.pwr.flashOp = none) ∧
  (∀ (err : Bool) (o : FlashOp) (d : Device) (w : List Instr), d.pwr.flashOp = some o → err = false → o.op = 1 → Runs
    (.flashDone err) d w fun t => t.flashBytes o.addr 4096 = List.replicate 4096 0xFF ∧ t.fld Off.darbyFlashCmd 30 28 = 0 ∧
    t.flag Off.darbyFlashCmd 31 = false) ∧
  (∀ (err : Bool) (o : FlashOp) (n : Nat) (d : Device) (w : List Instr), d.pwr.flashOp = some o → err = false → o.op ≠ 1 →
    o.op ≠ 2 → n < 64 → Runs (.flashDone err) d w fun t => t.reg (Off.darbyFlashBuf n) = d.flashN (o.addr + 4 * n) 4 ∧ t.flag
    Off.darbyFlashCmd 31 = false) ∧
  (∀ (sw : Switch) (d : Device) (w : List Instr), d.pwr.switch = some sw → sw.checked = false → d.swatchValid sw.swatch =
    false → Runs .swatchCheckEnd d w fun t => t.pwr.switch = none ∧ t.flag Off.pwrSwatch 31 = false) ∧
  (∀ (sw : Switch) (d : Device) (w : List Instr), d.pwr.switch = some sw → sw.checked = false → sw.time ≠ 0 → d.tbCount 0 +
    10000 ≤ sw.time → Runs .swatchCheckEnd d w fun t => if d.swatchValid sw.swatch = true then t.pwr.switch = some
    { sw with checked := true } else t.pwr.switch = none ∧ t.flag Off.pwrSwatch 31 = false)

/-- A program operation clears bits of 256 flash bytes and sets none, and shows STATUS 0 when what was programmed reads back,
  else 3. That programming only clears bits is the model's, log entry 45. -/
def Obligations.FlashProgramming : Prop :=
  (∀ (err : Bool) (o : FlashOp) (b : List Byte) (d : Device) (w : List Instr), d.pwr.flashOp = some o → err = false → o.op =
    2 → b = ((List.range 64).flatMap fun n => bytesLE 4 (d.reg (Off.darbyFlashBuf n))) → Runs (.flashDone err) d w fun t =>
    t.flashBytes o.addr 256 = List.zipWith (fun x y => x &&& y) (d.flashBytes o.addr 256) b ∧ t.fld Off.darbyFlashCmd 30 28 =
    (if t.flashBytes o.addr 256 = b then 0 else 3))

/-- At a tick an enabled counter adds the amounts of its event's occurrences modulo 2^48 and a disabled one takes a written
  value; a due walk of a space starts, and is counted late while one runs; each walk reads the next record and exports
  it; due quote and counter exports take their turn, and at shed level S1 a skipped snapshot is counted; templates are
  sent at their period; an open message is closed at FLUSH; a sampled frame is exported within the rate, else counted as
  skipped. -/
def Obligations.CountersAndExport : Prop :=
  (∀ (n : Nat) (d : Device) (w : List Instr), n < 256 → NMap.getD d.perf.enNow n false = true → d.perf.frozen = false →
    NMap.get? d.perf.written n = none → d.perfChain n = false → d.perf.snapNext = false → Runs .counterTick d w fun t =>
    t.perfValue n = (d.perfValue n + d.perfInc n (d.perf.occ ++ d.nsOccs)) % 2 ^ 48 ∧ t.perf.occ = []) ∧
  (∀ (n v : Nat) (d : Device) (w : List Instr), n < 256 → NMap.getD d.perf.enNow n false = false → NMap.get? d.perf.written n
    = some v → d.perf.snapNext = false → Runs .counterTick d w fun t => t.perfValue n = v % 2 ^ 48 ∧ t.perf.written = []) ∧
  (∀ (space : Fin 16) (d : Device) (w : List Instr), d.telemDue space (Off.telemFspaceCtl space) = true → d.shed = 0 →
    NMap.has d.telem.walks space = false → Runs (.exportWalk space) d w fun t => NMap.get? t.telem.walks space = some ⟨0,
    d.reg (Off.telemFspaceMaskLo space) + 2 ^ 32 * d.fld (Off.telemFspaceMaskHi space) 15 0, []⟩) ∧
  (∀ (space : Fin 16) (d : Device) (w : List Instr), d.telemDue space (Off.telemFspaceCtl space) = true → d.shed = 0 →
    NMap.has d.telem.walks space = true → Runs (.exportWalk space) d w fun t => t.reg Off.telemWalkLate = sat32 (d.reg
    Off.telemWalkLate + 1) ∧ NMap.get? t.telem.walks space = NMap.get? d.telem.walks space) ∧
  (∀ (space : Fin 16) (wk : Walk) (h : Nat) (b : List Byte) (d : Device) (w : List Instr), d.telemOn = true → NMap.get?
    d.telem.walks space = some wk → d.walkNext space wk = some (h, b) → d.pwrState ≠ 2 → Runs (.walkRead space) d w fun t =>
    NMap.get? t.telem.walks space = some ⟨h + 1, wk.mask, wk.seen ++ [(recId b).key]⟩ ∧ (NMap.get? t.telem.open_ 256).bind
    (fun o => o.records.getLast?) = some (d.flowRecord h wk.mask b)) ∧
  (∀ (space : Fin 16) (wk : Walk) (d : Device) (w : List Instr), d.telemOn = true → NMap.get? d.telem.walks space = some wk →
    d.walkNext space wk = none → Runs (.walkRead space) d w fun t => NMap.get? t.telem.walks space = none) ∧
  (∀ (qid : Nat) (q : Quote) (d : Device) (w : List Instr), d.telemDue 16 Off.telemQuote = true → d.shed = 0 → d.quote qid =
    some q → q.active = true → Runs .quoteExport d w fun t => t.quote qid = some { q with xSlack := none, xResidence := 0 }) ∧
  (∀ (d : Device) (w : List Instr), d.telemDue 17 Off.telemCounter = true → d.shed = 0 → Runs .counterExport d w fun t =>
    NMap.get? t.telem.last 17 = some (d.transit / 1000000)) ∧
  (∀ (d : Device) (w : List Instr), d.telemDue 17 Off.telemCounter = true → 1 ≤ d.shed → Runs .counterExport d w fun t =>
    t.reg Off.perfSnapSkip = sat32 (d.reg Off.perfSnapSkip + 1)) ∧
  (∀ (d : Device) (w : List Instr), d.flag Off.telemCtl 31 = true → d.telem.templates + 1000000000 * max 1 (d.fld
    Off.telemTiming 31 16) ≤ d.transit → Runs .templateSend d w fun t => t.telem.templates = d.transit) ∧
  (∀ (template : Nat) (o : OpenMsg) (d : Device) (w : List Instr), NMap.get? d.telem.open_ template = some o → d.telemOn =
    true → o.first + 1000 * max 1 (d.fld Off.telemTiming 15 0) ≤ d.transit → Runs (.flushTimer template) d w fun t =>
    NMap.get? t.telem.open_ template = none) ∧
  (∀ (pipe : Fin 32) (c : Nat) (cs : List Nat) (y : Copy) (fr : Frame) (d : Device) (w : List Instr), d.voq pipe 516 (voqCls
    516 0) = c :: cs → d.copy c = some y → d.frame y.frame = some fr → fr.bad = true → Runs (.frameSample pipe) d w fun t =>
    t.copy c = none ∧ t.telem = d.telem) ∧
  (∀ (pipe : Fin 32) (c : Nat) (cs : List Nat) (y : Copy) (fr : Frame) (d : Device) (w : List Instr), d.voq pipe 516 (voqCls
    516 0) = c :: cs → d.copy c = some y → d.frame y.frame = some fr → fr.bad = false → fr.done = true → (d.telemOn = false ∨
    d.flag Off.telemSample 31 = false) → Runs (.frameSample pipe) d w fun t => t.copy c = none ∧ t.reg Off.telemSampleSkip =
    sat32 (d.reg Off.telemSampleSkip + 1)) ∧
  (∀ (pipe : Fin 32) (c : Nat) (cs : List Nat) (y : Copy) (fr : Frame) (d : Device) (w : List Instr), d.voq pipe 516 (voqCls
    516 0) = c :: cs → d.copy c = some y → d.frame y.frame = some fr → fr.bad = false → fr.done = true → d.telemOn = true →
    d.flag Off.telemSample 31 = true → d.telem.sampleSec = d.transit / 1000000000 → d.telem.sampleCount < 1000 * d.fld
    Off.telemSample 15 0 → Runs (.frameSample pipe) d w fun t => t.copy c = none ∧ t.telem.sampleCount = d.telem.sampleCount
    + 1)

/-- A doorbell write is ignored, and DOORBELL_ERR set, when the ring is disabled, the value is 2^LOG2 or above, or it would
  move a notice head past the tail; any other takes effect at once; no other register and nothing else changes. It acts
  while the registers can be reached. -/
def Obligations.Doorbells : Prop :=
  (∀ (seat : Fin 2) (ring : Fin 8) (v : BitVec 32) (d : Device) (w : List Instr), d.registersUp = true → d.crEnabled seat
    ring = true → v.toNat < d.crSize seat ring → Runs (.commandDoorbell seat ring v) d w fun t => t.fld (Off.seatCrTail seat
    ring) 15 0 = v.toNat ∧ t = { d with regs := t.regs } ∧ d.regsKept t (fun o => o == Off.seatCrTail seat ring)) ∧
  (∀ (seat : Fin 2) (ring : Fin 8) (v : BitVec 32) (d : Device) (w : List Instr), d.registersUp = true → (d.crEnabled seat
    ring = false ∨ d.crSize seat ring ≤ v.toNat) → Runs (.commandDoorbell seat ring v) d w fun t => t.flag (Off.seatStatus
    seat) 0 = true ∧ t = { d with regs := t.regs } ∧ d.regsKept t (fun o => o == Off.seatStatus seat)) ∧
  (∀ (seat : Fin 2) (ring : Fin 8) (v : BitVec 32) (d : Device) (w : List Instr), d.registersUp = true → d.nrEnabled seat
    ring = true → v.toNat < d.nrSize seat ring → headWithin (d.nrSize seat ring) (d.fld (Off.seatNrHead seat ring) 15 0)
    (d.fld (Off.seatNrTail seat ring) 15 0) v.toNat = true → Runs (.noticeDoorbell seat ring v) d w fun t => t.fld
    (Off.seatNrHead seat ring) 15 0 = v.toNat ∧ t = { d with regs := t.regs } ∧ d.regsKept t (fun o => o == Off.seatNrHead
    seat ring)) ∧
  (∀ (seat : Fin 2) (ring : Fin 8) (v : BitVec 32) (d : Device) (w : List Instr), d.registersUp = true → (d.nrEnabled seat
    ring = false ∨ d.nrSize seat ring ≤ v.toNat ∨ headWithin (d.nrSize seat ring) (d.fld (Off.seatNrHead seat ring) 15 0)
    (d.fld (Off.seatNrTail seat ring) 15 0) v.toNat = false) → Runs (.noticeDoorbell seat ring v) d w fun t => t.flag
    (Off.seatStatus seat) 0 = true ∧ t = { d with regs := t.regs } ∧ d.regsKept t (fun o => o == Off.seatStatus seat))

/-- A write to an offset that names no register changes nothing, and a read of it gives 0 and changes nothing else: no event
  and no flag. -/
def Obligations.UnassignedOffsets : Prop :=
  (∀ (seat : Fin 3) (off : BitVec 26) (v : BitVec 32) (d : Device) (w : List Instr), isInd off.toNat = false → regDef?
    off.toNat = none → Runs (.registerWrite seat off v) d w fun t => t = d) ∧
  (∀ (seat : Fin 3) (off : BitVec 26) (d : Device) (w : List Instr), isInd off.toNat = false → regDef? off.toNat = none →
    Runs (.rcRead seat off) d w fun t => NMap.getD t.pwr.data seat 1 = 0 ∧ t =
    { d with pwr := { d.pwr with data := t.pwr.data } })

/-- In line form a Dravea instruction whose predicate does not let it execute changes nothing at all; on a thread, but for
  NEXT and END, which take no predicate there, only the pc moves past it, and nothing else of the task, of another thread
  or of memory changes. -/
def Obligations.NonExecutingInstructions : Prop :=
  (∀ (i : Instr) (who : Who) (units : Nat) (beyond : Bool) (word : Nat) (x : Ctx) (d : Device) (w : List Instr),
    i.dravea = some (who, units, beyond, word) → d.lineCtx who = some x → x.regs.executes (wordPred word) = false →
      exec i ⟨d, w⟩ = .next ⟨d, w⟩) ∧
  (∀ (i : Instr) (e : Fin 32) (t : Fin 8) (units : Nat) (beyond : Bool) (word id : Nat) (x : Task) (d : Device) (w : List Instr),
    i.dravea = some (.thr e t, units, beyond, word) → d.threadOn e t word = some (id, x) → bits word 63 56 ≠ 0x70 →
      bits word 63 56 ≠ 0x71 → x.regs.executes (wordPred word) = false →
      Runs i d w fun t => t.taskRegs id (x.nextRegs x.regs) ∧ d.threadKept t e id)

/-- Each of these commands changes one part of the block, named in its clause, and leaves every other part, all of memory
  among them, as it was; a pulse of PPS_OUT with no earlier action of R359 due. -/
def Obligations.FramesOfOnePart : Prop :=
  (∀ (qid : Nat) (d : Device) (w : List Instr), Runs (.quoteActive qid) d w fun t => t = { d with regs := t.regs } ∧
    d.regsKept t (fun o => o == Off.schedQuoteActive || o == Off.schedFitStatus)) ∧
  (∀ (stack : Fin 2) (d : Device) (w : List Instr), Runs (.selfRefreshIdle stack) d w fun t => t = { d with regs := t.regs }
    ∧ d.regsKept t (fun o => o == Off.rstoreSelfref)) ∧
  (∀ (d : Device) (w : List Instr), Runs .policerRefill d w fun t => t = { d with quotes := t.quotes }) ∧
  (∀ (port : Fin 512) (d : Device) (w : List Instr), Runs (.bucketRefill port) d w fun t => keptAside d.scheds t.scheds port
    ∧ t = { d with scheds := t.scheds }) ∧
  (∀ (port : Fin 512) (cls : Fin 8) (d : Device) (w : List Instr), Runs (.watchdogDisarm port cls) d w fun t => keptAside
    d.ports t.ports port ∧ keptAside d.scheds t.scheds port ∧ t = { d with ports := t.ports, scheds := t.scheds }) ∧
  (∀ (port : Fin 512) (d : Device) (w : List Instr), Runs (.txWake port) d w fun t => keptAside d.ports t.ports port ∧ t =
    { d with ports := t.ports }) ∧
  (∀ (port : Fin 512) (d : Device) (w : List Instr), Runs (.laneRefresh port) d w fun t => keptAside d.ports t.ports port ∧ t
    = { d with ports := t.ports }) ∧
  (∀ (port : Fin 512) (d : Device) (w : List Instr), Runs (.verifySend port) d w fun t => keptAside d.ports t.ports port ∧ t
    = { d with ports := t.ports }) ∧
  (∀ (d : Device) (w : List Instr), d.noneDueBefore 6 = true → Runs .ppsOut d w fun t => t =
    { d with plumb := { d.plumb with ppsSec := t.plumb.ppsSec, ppsOff := t.plumb.ppsOff } }) ∧
  (∀ (engine : Fin 32) (thread : Fin 8) (d : Device) (w : List Instr), Runs (.contextSaveDone engine thread) d w fun t => t =
    { d with scaf := t.scaf } ∧ t.scaf.sram = d.scaf.sram) ∧
  (∀ (space : Fin 16) (key : List Byte) (d : Device) (w : List Instr), Runs (.absentExpiry space key) d w fun t => t =
    { d with flow := { d.flow with absent := t.flow.absent } }) ∧
  (∀ (space : Fin 16) (key : List Byte) (d : Device) (w : List Instr), Runs (.learnWindowExpiry space key) d w fun t => t =
    { d with flow := { d.flow with learn := t.flow.learn } }) ∧
  (∀ (channel : Fin 32) (bank : BankRefresh) (d : Device) (w : List Instr), Runs (.dramRefresh channel bank) d w fun t =>
    keptAside d.rstore.chans t.rstore.chans channel ∧ t =
    { d with regs := t.regs, rstore := { d.rstore with chans := t.rstore.chans } } ∧ d.regsKept t (fun o => (List.range
    32).any fun c => o == Off.rstoreChStatus c)) ∧
  (∀ (seat : Fin 2) (ring : Fin 8) (d : Device) (w : List Instr), Runs (.coalesceTimer seat ring) d w fun t => keptAside
    d.seats t.seats seat ∧ (t.seat seat).hostMem = (d.seat seat).hostMem ∧ t = { d with seats := t.seats }) ∧
  (∀ (d : Device) (w : List Instr), Runs .hbToggle d w fun t => t = { d with pwr := { d.pwr with hb := t.pwr.hb } }) ∧
  (∀ (d : Device) (w : List Instr), Runs .alive d w fun t => t =
    { d with pwr := { d.pwr with alive := t.pwr.alive, phase := t.pwr.phase, islandFrom := t.pwr.islandFrom } }) ∧
  (∀ (engine : Fin 32) (d : Device) (w : List Instr), Runs (.scafIdle engine) d w fun t => t =
    { d with fault := { d.fault with doms := t.fault.doms } }) ∧
  (∀ (space : Fin 16) (d : Device) (w : List Instr), Runs (.exportWalk space) d w fun t => t =
    { d with regs := t.regs, telem := { d.telem with last := t.telem.last, walks := t.telem.walks } } ∧ d.regsKept t (fun o
    => o == Off.telemWalkLate)) ∧
  (∀ (d : Device) (w : List Instr), Runs .safeStop d w fun t => t =
    { d with regs := t.regs, pwr := t.pwr, fault := { d.fault with stops := t.fault.stops } } ∧ d.regsKept t (fun o => o ==
    Off.faultResetCause) ∧ t.pwr.flash = d.pwr.flash)

/-- These commands change only their port, the end of a pause the tags of its classes too, and only registers of lanes and
  ports; every other port and part, all of memory among them, stays. -/
def Obligations.FramesOfLinks : Prop :=
  (∀ (port : Fin 512) (fallback : Bool) (d : Device) (w : List Instr), Runs (.bringUpAttempt port fallback) d w fun t => t =
    { d with regs := t.regs, ports := t.ports } ∧ keptAside d.ports t.ports port ∧ d.regsKept t linkReg) ∧
  (∀ (port : Fin 512) (d : Device) (w : List Instr), Runs (.retry port) d w fun t => t =
    { d with regs := t.regs, ports := t.ports } ∧ keptAside d.ports t.ports port ∧ d.regsKept t linkReg) ∧
  (∀ (port : Fin 512) (d : Device) (w : List Instr), Runs (.txAwake port) d w fun t => t =
    { d with regs := t.regs, ports := t.ports } ∧ keptAside d.ports t.ports port ∧ d.regsKept t linkReg) ∧
  (∀ (port : Fin 512) (d : Device) (w : List Instr), Runs (.rxAwake port) d w fun t => t =
    { d with regs := t.regs, ports := t.ports } ∧ keptAside d.ports t.ports port ∧ d.regsKept t linkReg) ∧
  (∀ (port : Fin 512) (cls : Fin 8) (d : Device) (w : List Instr), Runs (.pauseExpiry port cls) d w fun t => t =
    { d with regs := t.regs, ports := t.ports, scheds := t.scheds } ∧ keptAside d.ports t.ports port ∧ d.regsKept t linkReg ∧
    keptAside d.scheds t.scheds port) ∧
  (∀ (port : Fin 512) (d : Device) (w : List Instr), Runs (.helloExpiry port) d w fun t => t =
    { d with regs := t.regs, ports := t.ports } ∧ keptAside d.ports t.ports port ∧ d.regsKept t linkReg) ∧
  (∀ (lane : Fin 512) (d : Device) (w : List Instr), ((List.range 32).any fun s => d.spanEn s && (d.spanLanes s).contains
    lane.val) = false → Runs (.signalReturn lane) d w fun t => t = { d with regs := t.regs, ports := t.ports } ∧ d.regsKept t
    linkReg) ∧
  (∀ (lane : Fin 512) (coef : Fin 4) (up : Bool) (d : Device) (w : List Instr), Runs (.coefficientRequest lane coef up) d w
    fun t => t = { d with regs := t.regs, ports := t.ports } ∧ d.regsKept t linkReg)

/-- In line form an instruction that computes changes only the context of its executor; on a thread an ALU instruction that
  completes changes only its task, its thread and the counts of instructions. Memory stays. -/
def Obligations.FramesOfComputing : Prop :=
  (∀ (who : Who) (q : Pred) (f : FmtA) (d : Device) (w : List Instr), Runs (.add who q f) d w fun t => d.lineKept t who) ∧
  (∀ (who : Who) (q : Pred) (f : FmtA) (d : Device) (w : List Instr), Runs (.sub who q f) d w fun t => d.lineKept t who) ∧
  (∀ (who : Who) (q : Pred) (f : FmtA) (d : Device) (w : List Instr), Runs (.and who q f) d w fun t => d.lineKept t who) ∧
  (∀ (who : Who) (q : Pred) (f : FmtA) (d : Device) (w : List Instr), Runs (.or who q f) d w fun t => d.lineKept t who) ∧
  (∀ (who : Who) (q : Pred) (f : FmtA) (d : Device) (w : List Instr), Runs (.xor who q f) d w fun t => d.lineKept t who) ∧
  (∀ (who : Who) (q : Pred) (f : FmtA) (d : Device) (w : List Instr), Runs (.shl who q f) d w fun t => d.lineKept t who) ∧
  (∀ (who : Who) (q : Pred) (f : FmtA) (d : Device) (w : List Instr), Runs (.shr who q f) d w fun t => d.lineKept t who) ∧
  (∀ (who : Who) (q : Pred) (f : FmtA) (d : Device) (w : List Instr), Runs (.rot who q f) d w fun t => d.lineKept t who) ∧
  (∀ (who : Who) (q : Pred) (f : FmtA) (d : Device) (w : List Instr), Runs (.min who q f) d w fun t => d.lineKept t who) ∧
  (∀ (who : Who) (q : Pred) (f : FmtA) (d : Device) (w : List Instr), Runs (.max who q f) d w fun t => d.lineKept t who) ∧
  (∀ (who : Who) (q : Pred) (f : FmtP) (d : Device) (w : List Instr), Runs (.cmp who q f) d w fun t => d.lineKept t who) ∧
  (∀ (who : Who) (q : Pred) (f : FmtP) (d : Device) (w : List Instr), Runs (.tst who q f) d w fun t => d.lineKept t who) ∧
  (∀ (who : Who) (q : Pred) (f : FmtA) (d : Device) (w : List Instr), Runs (.mov who q f) d w fun t => d.lineKept t who) ∧
  (∀ (who : Who) (q : Pred) (f : FmtA) (d : Device) (w : List Instr), Runs (.movi who q f) d w fun t => d.lineKept t who) ∧
  (∀ (who : Who) (q : Pred) (f : FmtA) (d : Device) (w : List Instr), Runs (.sel who q f) d w fun t => d.lineKept t who) ∧
  (∀ (who : Who) (q : Pred) (f : FmtH) (d : Device) (w : List Instr), Runs (.hash who q f) d w fun t => d.lineKept t who) ∧
  (∀ (who : Who) (q : Pred) (f : FmtA) (d : Device) (w : List Instr), Runs (.popc who q f) d w fun t => d.lineKept t who) ∧
  (∀ (who : Who) (q : Pred) (f : FmtX) (d : Device) (w : List Instr), Runs (.ext who q f) d w fun t => d.lineKept t who) ∧
  (∀ (who : Who) (q : Pred) (f : FmtXM) (d : Device) (w : List Instr), Runs (.extm who q f) d w fun t => d.lineKept t who) ∧
  (∀ (who : Who) (q : Pred) (f : FmtXI) (d : Device) (w : List Instr), Runs (.ins who q f) d w fun t => d.lineKept t who) ∧
  (∀ (who : Who) (q : Pred) (f : FmtKB) (d : Device) (w : List Instr), Runs (.keyb who q f) d w fun t => d.lineKept t who) ∧
  (∀ (who : Who) (q : Pred) (f : FmtTM) (d : Device) (w : List Instr), Runs (.tcmp who q f) d w fun t => d.lineKept t who) ∧
  (∀ (who : Who) (q : Pred) (f : FmtH) (units : Nat) (d : Device) (w : List Instr), Runs (.csum who q f units) d w fun t =>
    d.lineKept t who) ∧
  (∀ (q : Pred) (f : FmtA) (engine : Fin 32) (thread : Fin 8) (id : Nat) (x : Task) (d : Device) (w : List Instr), d.threadAt
    engine thread q 0x00 f.enc = some (id, x) → isS f.rd = true → Runs (.add (.thr engine thread) q f) d w fun t =>
    d.threadKept t engine id) ∧
  (∀ (q : Pred) (f : FmtA) (engine : Fin 32) (thread : Fin 8) (id : Nat) (x : Task) (d : Device) (w : List Instr), d.threadAt
    engine thread q 0x01 f.enc = some (id, x) → isS f.rd = true → Runs (.sub (.thr engine thread) q f) d w fun t =>
    d.threadKept t engine id) ∧
  (∀ (q : Pred) (f : FmtA) (engine : Fin 32) (thread : Fin 8) (id : Nat) (x : Task) (d : Device) (w : List Instr), d.threadAt
    engine thread q 0x02 f.enc = some (id, x) → isS f.rd = true → Runs (.and (.thr engine thread) q f) d w fun t =>
    d.threadKept t engine id) ∧
  (∀ (q : Pred) (f : FmtA) (engine : Fin 32) (thread : Fin 8) (id : Nat) (x : Task) (d : Device) (w : List Instr), d.threadAt
    engine thread q 0x03 f.enc = some (id, x) → isS f.rd = true → Runs (.or (.thr engine thread) q f) d w fun t =>
    d.threadKept t engine id) ∧
  (∀ (q : Pred) (f : FmtA) (engine : Fin 32) (thread : Fin 8) (id : Nat) (x : Task) (d : Device) (w : List Instr), d.threadAt
    engine thread q 0x04 f.enc = some (id, x) → isS f.rd = true → Runs (.xor (.thr engine thread) q f) d w fun t =>
    d.threadKept t engine id) ∧
  (∀ (q : Pred) (f : FmtA) (engine : Fin 32) (thread : Fin 8) (id : Nat) (x : Task) (d : Device) (w : List Instr), d.threadAt
    engine thread q 0x05 f.enc = some (id, x) → isS f.rd = true → Runs (.shl (.thr engine thread) q f) d w fun t =>
    d.threadKept t engine id) ∧
  (∀ (q : Pred) (f : FmtA) (engine : Fin 32) (thread : Fin 8) (id : Nat) (x : Task) (d : Device) (w : List Instr), d.threadAt
    engine thread q 0x06 f.enc = some (id, x) → isS f.rd = true → Runs (.shr (.thr engine thread) q f) d w fun t =>
    d.threadKept t engine id) ∧
  (∀ (q : Pred) (f : FmtA) (engine : Fin 32) (thread : Fin 8) (id : Nat) (x : Task) (d : Device) (w : List Instr), d.threadAt
    engine thread q 0x07 f.enc = some (id, x) → isS f.rd = true → Runs (.rot (.thr engine thread) q f) d w fun t =>
    d.threadKept t engine id) ∧
  (∀ (q : Pred) (f : FmtA) (engine : Fin 32) (thread : Fin 8) (id : Nat) (x : Task) (d : Device) (w : List Instr), d.threadAt
    engine thread q 0x08 f.enc = some (id, x) → isS f.rd = true → Runs (.min (.thr engine thread) q f) d w fun t =>
    d.threadKept t engine id) ∧
  (∀ (q : Pred) (f : FmtA) (engine : Fin 32) (thread : Fin 8) (id : Nat) (x : Task) (d : Device) (w : List Instr), d.threadAt
    engine thread q 0x09 f.enc = some (id, x) → isS f.rd = true → Runs (.max (.thr engine thread) q f) d w fun t =>
    d.threadKept t engine id)

/-- A tick in which no S5 ends and no tile of S3 is to be gated changes only the time bases, the pins' pulses and the
  registers that show offsets; a write-back only the flow stores and the queues of the channels; a command opportunity
  only its channel and the occurrences; a calendar slot only its port's grants; the scaffold's lists leave tasks and
  memory alone. -/
def Obligations.FramesOfTimeAndStores : Prop :=
  (∀ (d : Device) (w : List Instr), d.tilesMoved = [] → (d.pwr.s5At.all fun x => d.transit + 40 < x) = true → Runs .tick d w
    fun t => t = { d with regs := t.regs, plumb := t.plumb } ∧ d.regsKept t (fun o => decide (Off.plumbCtl ≤ o ∧ o <
    Off.plumbTioCtl 0))) ∧
  (∀ (d : Device) (w : List Instr), Runs .writeBackPeriod d w fun t => t =
    { d with regs := t.regs, flow := t.flow, rstore := t.rstore } ∧ t.rstore.bytes = d.rstore.bytes ∧ d.regsKept t (fun o =>
    o == Off.rstoreSelfref) ∧ t.flow.lodge = d.flow.lodge ∧ t.flow.absent = d.flow.absent ∧ t.flow.runs = d.flow.runs) ∧
  (∀ (handle : Nat) (d : Device) (w : List Instr), Runs (.writeBackComplete handle) d w fun t => t =
    { d with regs := t.regs, flow := t.flow, rstore := t.rstore } ∧ t.rstore.bytes = d.rstore.bytes ∧ d.regsKept t (fun o =>
    o == Off.rstoreSelfref) ∧ t.flow.lodge = d.flow.lodge ∧ t.flow.absent = d.flow.absent ∧ t.flow.runs = d.flow.runs) ∧
  (∀ (channel : Fin 32) (pc : Fin 2) (busy : List Nat) (d : Device) (w : List Instr), Runs (.commandOpportunity channel pc
    busy) d w fun t => t = { d with perf := t.perf, rstore := { d.rstore with chans := t.rstore.chans } } ∧ keptAside
    d.rstore.chans t.rstore.chans channel) ∧
  (∀ (port : Fin 512) (d : Device) (w : List Instr), Runs (.calendarSlot port) d w fun t => t =
    { d with perf := t.perf, scheds := t.scheds } ∧ keptAside d.scheds t.scheds port) ∧
  (∀ (d : Device) (w : List Instr), Runs .timerDue d w fun t => t =
    { d with regs := t.regs, fault := { d.fault with doms := t.fault.doms }, scaf := t.scaf } ∧ t.scaf.sram = d.scaf.sram ∧
    d.taskRegsKept t ∧ d.domsKept t 7) ∧
  (∀ (level : Fin 16) (d : Device) (w : List Instr), Runs (.pullAge level) d w fun t => t =
    { d with fault := { d.fault with doms := t.fault.doms }, scaf := { d.scaf with ready := t.scaf.ready } } ∧ d.domsKept t
    7) ∧
  (∀ (n : Fin 16) (d : Device) (w : List Instr), Runs (.tickTask n) d w fun t => t =
    { d with regs := t.regs, fault := { d.fault with doms := t.fault.doms }, scaf := t.scaf } ∧ d.domsKept t 7 ∧ t.scaf.sram
    = d.scaf.sram ∧ t.scaf.tasks = d.scaf.tasks ∧ d.regsKept t (fun o => o == Off.scafTickOver))

/-- A thread's ST changes no byte of the SRAM but the 2^SZ bytes at RA plus OFF, and no other memory; STD no byte of the
  render store but the 8 bytes of its heap address; a flash operation and the recovery loader's WRITE and ERASE no byte
  of the flash but those of their range. -/
def Obligations.FramesOfMemory : Prop :=
  (∀ (engine : Fin 32) (thread : Fin 8) (q : Pred) (f : FmtM) (id : Nat) (x : Task) (d : Device) (w : List Instr), d.threadAt
    engine thread q 0x99 f.enc = some (id, x) → (x.regs.get f.ra + BitVec.signExtend 64 f.off).toNat % 2 ^ f.sz.toNat = 0 →
    (x.regs.get f.ra + BitVec.signExtend 64 f.off).toNat < heapStart → d.badAddr id true 4 (x.regs.get f.ra +
    BitVec.signExtend 64 f.off).toNat (2 ^ f.sz.toNat) = none → Runs (.st engine thread q f) d w fun t => memKept 0
    d.scaf.sram t.scaf.sram (x.regs.get f.ra + BitVec.signExtend 64 f.off).toNat (2 ^ f.sz.toNat) ∧ t.rstore.bytes =
    d.rstore.bytes ∧ t.pwr = d.pwr ∧ t.seats = d.seats) ∧
  (∀ (engine : Fin 32) (thread : Fin 8) (q : Pred) (f : FmtM) (id a : Nat) (x : Task) (d : Device) (w : List Instr),
    d.threadAt engine thread q 0x9B f.enc = some (id, x) → f.sz = 3 → (x.regs.get f.ra + BitVec.signExtend 64 f.off).toNat %
    8 = 0 → d.heapAddr ((x.regs.get f.ra + BitVec.signExtend 64 f.off).toNat - heapStart) = some a → heapStart ≤ (x.regs.get
    f.ra + BitVec.signExtend 64 f.off).toNat → d.badAddr id true 4 (x.regs.get f.ra + BitVec.signExtend 64 f.off).toNat 8 =
    none → d.poisonedIn (x.regs.get f.ra + BitVec.signExtend 64 f.off).toNat 8 = none → Runs (.std engine thread q f) d w fun
    t => memKept 0 d.rstore.bytes t.rstore.bytes a 8 ∧ t.scaf.sram = d.scaf.sram ∧ t.pwr = d.pwr ∧ t.seats = d.seats) ∧
  (∀ (err : Bool) (o : FlashOp) (d : Device) (w : List Instr), d.pwr.flashOp = some o → Runs (.flashDone err) d w fun t =>
    memKept 0xFF d.pwr.flash t.pwr.flash o.addr 4096 ∧ t.scaf.sram = d.scaf.sram ∧ t.rstore.bytes = d.rstore.bytes) ∧
  (∀ (err : Bool) (o : FlashOp) (d : Device) (w : List Instr), d.pwr.flashOp = some o → o.op ≠ 1 → Runs (.flashDone err) d w
    fun t => memKept 0xFF d.pwr.flash t.pwr.flash o.addr 256 ∧ t.scaf.sram = d.scaf.sram ∧ t.rstore.bytes = d.rstore.bytes) ∧
  (∀ (err : Bool) (o : FlashOp) (d : Device) (w : List Instr), d.pwr.flashOp = some o → o.op ≠ 1 → o.op ≠ 2 ∨ err = true →
    Runs (.flashDone err) d w fun t => memKept 0xFF d.pwr.flash t.pwr.flash 0 0 ∧ t.scaf.sram = d.scaf.sram ∧ t.rstore.bytes
    = d.rstore.bytes) ∧
  (∀ (q : RecReq) (err : Bool) (d : Device) (w : List Instr), Runs (.recoveryErase q err) d w fun t => memKept 0xFF
    d.pwr.flash t.pwr.flash q.addr.toNat q.len.toNat ∧ t.scaf.sram = d.scaf.sram ∧ t.rstore.bytes = d.rstore.bytes) ∧
  (∀ (q : RecReq) (data : List Byte) (err : Bool) (d : Device) (w : List Instr), Runs (.recoveryWrite q data err) d w fun t
    => memKept 0xFF d.pwr.flash t.pwr.flash q.addr.toNat q.len.toNat ∧ t.scaf.sram = d.scaf.sram ∧ t.rstore.bytes =
    d.rstore.bytes) ∧
  (∀ (q : RecReq) (err : Bool) (d : Device) (w : List Instr), Runs (.recoveryRead q err) d w fun t => memKept 0xFF
    d.pwr.flash t.pwr.flash 0 0 ∧ t.scaf.sram = d.scaf.sram ∧ t.rstore.bytes = d.rstore.bytes) ∧
  (∀ (q : RecReq) (d : Device) (w : List Instr), Runs (.recoveryIdent q) d w fun t => memKept 0xFF d.pwr.flash t.pwr.flash 0
    0 ∧ t.scaf.sram = d.scaf.sram ∧ t.rstore.bytes = d.rstore.bytes)

/-- With command c at the front of its queue a step is exec of c on the state with the rest of the queue; with an empty queue
  the block idles (log entry 4); exec of every command answers a next state and leaves the queue. -/
def Obligations.StepRunsTheFront : Prop :=
  (∀ (c : Instr) (d : Device) (w : List Instr), step ⟨d, c :: w⟩ = exec c ⟨d, w⟩) ∧
  (∀ d : Device, step ⟨d, []⟩ = .next ⟨d, []⟩) ∧
  (∀ (c : Instr) (d : Device) (w : List Instr), ∃ t, exec c ⟨d, w⟩ = .next ⟨t, w⟩)

/-- At reset the memories, the register file and the maps are in their one form, no command waits, the device waits for a
  start with every transmitter squelched and ALIVE low, no seat is present, every register reads its reset value, and the
  threshold T is 3. The reset values that the spec leaves to the swatch, the firmware or the straps, and the empty maps,
  are the model's, log entries 64 and 65. -/
def Obligations.ResetState : Prop :=
  State.reset.sound = true ∧ State.reset.pending = [] ∧ State.reset.dev.pwr.phase = .waits ∧ State.reset.dev.pwr.alive = false ∧
  (∀ s, State.reset.dev.present s = false) ∧ (∀ o, State.reset.dev.reg o = (regReset o).toNat) ∧ State.reset.dev.threshT = 3

/-- Words written out from R52, and the worked ones of the manual, decode to the instructions they stand for: the key lookup
  and the NEXT of the worked encodings, the unconditional NEXT, the empty slot word, an ADD, an LD, and no instruction
  for an unassigned opcode. -/
def Obligations.DraveaWords : Prop :=
  ∀ f : Nat,
    decodeDravea (.ing f) 0 false 0x3440_2140_3800_0000 =
      some (.lkf (.ing f) ⟨4, false⟩ ⟨2, 0, 5, 0, 14, 0, 0⟩ false) ∧
    decodeDravea (.ing f) 0 false 0x7002_A000_0000_0000 = some (.next (.ing f) ⟨0, false⟩ ⟨1, 2, true⟩) ∧
    decodeDravea (.ing f) 0 false 0x7000_0000_0000_0000 = some (.next (.ing f) ⟨0, false⟩ ⟨0, 0, false⟩) ∧
    decodeDravea (.ing f) 0 false 0x0080_0000_0000_0000 = some (.add (.ing f) ⟨0, true⟩ ⟨0, 0, 0, false, false, 0⟩) ∧
    decodeDravea (.ing f) 0 false 0x0000_C102_0000_0005 = some (.add (.ing f) ⟨0, false⟩ ⟨3, 1, 0, true, false, 5⟩) ∧
    decodeDravea (.thr 2 1) 0 false 0x980C_71C0_0000_0010 = some (.ld 2 1 ⟨0, false⟩ ⟨49, 49, 3, 16⟩) ∧
    decodeDravea (.ing f) 0 false 0x980C_71C0_0000_0010 = none ∧
    decodeDravea (.ing f) 0 false 0xC000_0000_0000_0000 = none

/-- For every Dravea instruction and every value of its operands the decoder reads from its word, with its executor and what
  a run of it carries, that instruction; and the word has 64 bits. No bit of an encoding is dropped. -/
def Obligations.DecodeOfEncode : Prop :=
  ∀ (i : Instr) (who : Who) (units : Nat) (beyond : Bool) (word : Nat),
    i.dravea = some (who, units, beyond, word) → decodeDravea who units beyond word = some i ∧ word < 2 ^ 64

/-- A step whose front command is one of those that keepsForm lists, the stores of threads, the flash and the recovery
  loader, ticks and the upkeep of links, stores and scaffold among them, with no other timed action due, keeps every
  memory and the register file in the one form they have: addresses rising, nothing listed that reads so anyway. That the
  state after reset has it is ResetState. -/
def Obligations.CanonicalKept : Prop :=
  ∀ (c : Instr) (d t : Device) (w w' : List Instr), d.keepsForm c = true → d.canonical = true →
    step ⟨d, c :: w⟩ = .next ⟨t, w'⟩ → t.canonical = true

/-- A word of format U or of format B decodes to its operation, T, operands and ARG for every value of them, and the two
  reserved operations decode to nothing. A condition that does not hold makes a branch wait with T = 1 and pass with T =
  0; where it holds JUMP and UCALL go to TARGET, UCALL pushes the return micro-address and overflows at depth 8, URET
  pops it, EOI ends the instruction and advances the pc unless ARG[0] is 1, EXC takes the exception of ARG[3:0], SAMPLE
  ends the instruction on a set interrupt. The first five operations and UMOV and ULDI write DST, and Z and N follow the
  result. -/
def Obligations.Microwords : Prop :=
  (∀ (op dst a b sel : Nat) (wait : Bool) (o : UOp), UOp.of op = some o → dst ≤ 0x53 → a ≤ 0x53 → b ≤ 0x53 → sel < 32 →
    decodeMicro (op * 2 ^ 27 + b2n wait * 2 ^ 26 + dst * 2 ^ 19 + a * 2 ^ 12 + b * 2 ^ 5 + sel) = some (.u o wait dst a b sel)) ∧
  (∀ (op cond target arg : Nat) (wait : Bool) (o : BOp) (c : MicroCond), BOp.of op = some o → MicroCond.of cond = some c →
    target < 2 ^ 15 → arg < 128 → (o = .waitc → wait = true) →
    decodeMicro ((0x18 + op) * 2 ^ 27 + b2n wait * 2 ^ 26 + cond * 2 ^ 22 + target * 2 ^ 7 + arg) = some (.b o wait c target arg)) ∧
  (∀ word : Nat, bits word 31 27 = 0x17 ∨ bits word 31 27 = 0x1F → decodeMicro word = none) ∧
  (∀ (e : MicroEnv) (r : Regs) (m : Micro) (op : BOp) (wait : Bool) (c : MicroCond) (target arg : Nat), c.holds m e = false →
    microB e r m op wait c target arg = if wait then .wait else .go r m.next) ∧
  (∀ (e : MicroEnv) (r : Regs) (m : Micro) (wait : Bool) (c : MicroCond) (target arg u : Nat), c.holds m e = true → m.upc = some u →
    microB e r m .jump wait c target arg = .go r { m with upc := some target } ∧
    microB e r m .ucall wait c target arg =
      (if m.stack.length < 8 then .go r { m with stack := (u + 1) :: m.stack, upc := some target } else .overflow) ∧
    (∀ (v : Nat) (l : List Nat), m.stack = v :: l → microB e r m .uret wait c target arg = .go r { m with stack := l, upc := some v }) ∧
    microB e r m .eoi wait c target arg = .endInstr (arg % 2 == 0) ∧
    microB e r m .exc wait c target arg = .exception (arg % 16) ∧
    (e.interrupt = true → microB e r m .sample wait c target arg = .endInstr false)) ∧
  (∀ (tb : Nat → Nat → Nat) (iw sel : Nat) (r : Regs) (m : Micro) (i j k : BitVec 6) (op : UOp) (x : DWord),
    (op, x) ∈ [(UOp.uadd, r.get i + r.get j), (.usub, r.get i - r.get j), (.uand, r.get i &&& r.get j), (.uor, r.get i ||| r.get j),
      (.uxor, r.get i ^^^ r.get j), (.umov, r.get i), (.uldi, BitVec.ofNat 64 sel)] →
    ∃ m' : Micro, microU tb iw r m op k.toNat i.toNat j.toNat sel = .go (r.set k x) m' ∧ m'.upc = m.upc.map (· + 1) ∧
      (op ≠ .umov → op ≠ .uldi → m'.z = (x == 0) ∧ m'.n = x.getLsbD 63))

/-- From every state of the block, five edges of TCK with TMS high, then the way to the data register, and 32 edges of
  shifting give IDCODE 0x2710_25A7 on TDO, least significant bit first, whatever TDI is; IDCODE and BYPASS act at any
  time, the other instructions only with TESTMODE = 1. The order of the bits on TDO is that of IEEE 1149.1 (log entry
  60). -/
def Obligations.TestAccessPort : Prop :=
  (∀ (d : Device) (tdi : List Bool), tdi.length = 41 →
    (d.jtagClocks ((List.replicate 5 true ++ [false, true, false, false] ++ List.replicate 32 false).zip tdi)).2.drop 9 =
      (List.range 32).map fun i => Nat.testBit 0x271025A7 i) ∧
  (∀ (d : Device) (i : JtagInstr), d.jtagActs i = true ↔ i = .idcode ∨ i = .bypass ∨ d.flag Off.pwrStrap 8 = true)
end

