-- ==== Sys2Proof/Laws/Maps.lean ====
section
/-! SUPPORT. The laws of maps and byte memories: a read after a write to the same key gives what was written, a write leaves every
other key alone, and every operation keeps the one form. -/

namespace Sys2Proof

variable {α : Type}

/-! ### Partial maps -/

@[simp] theorem NMap.get?_nil (a : Nat) : NMap.get? ([] : NMap α) a = none := rfl

@[simp] theorem NMap.get?_set_self (m : NMap α) (a : Nat) (v : α) : NMap.get? (NMap.set m a v) a = some v := by
  induction m with
  | nil => simp [NMap.set, NMap.get?]
  | cons p t ih =>
    obtain ⟨k, w⟩ := p
    simp only [NMap.set]
    split
    · simp [NMap.get?]
    · split
      · simp [NMap.get?]
      · rename_i h; simp [NMap.get?, h, ih]

theorem NMap.get?_set_other (m : NMap α) {a b : Nat} (v : α) (h : b ≠ a) : NMap.get? (NMap.set m a v) b = NMap.get? m b := by
  induction m with
  | nil => simp [NMap.set, NMap.get?, h]
  | cons p t ih =>
    obtain ⟨k, w⟩ := p
    simp only [NMap.set]
    split
    · simp [NMap.get?, h]
    · split
      · rename_i hk; subst hk; simp [NMap.get?, h]
      · simp [NMap.get?, ih]

@[simp] theorem NMap.get?_del_self (m : NMap α) (a : Nat) : NMap.get? (NMap.del m a) a = none := by
  induction m with
  | nil => rfl
  | cons p t ih =>
    obtain ⟨k, w⟩ := p
    by_cases h : k = a
    · subst h; simpa [NMap.del] using ih
    · have h' : a ≠ k := fun e => h e.symm
      simpa [NMap.del, NMap.get?, h, h'] using ih

theorem NMap.get?_del_other (m : NMap α) {a b : Nat} (h : b ≠ a) : NMap.get? (NMap.del m a) b = NMap.get? m b := by
  induction m with
  | nil => rfl
  | cons p t ih =>
    obtain ⟨k, w⟩ := p
    by_cases hk : k = a
    · subst hk; simpa [NMap.del, NMap.get?, h] using ih
    · have ih' : NMap.get? (t.filter fun p => p.1 ≠ a) b = NMap.get? t b := ih
      simp only [ne_eq, decide_not] at ih'
      simp [NMap.del, NMap.get?, hk, ih']

@[simp] theorem NMap.getD_set_self (m : NMap α) (a : Nat) (v d : α) : NMap.getD (NMap.set m a v) a d = v := by simp [NMap.getD]

theorem NMap.getD_set_other (m : NMap α) {a b : Nat} (v d : α) (h : b ≠ a) :
    NMap.getD (NMap.set m a v) b d = NMap.getD m b d := by simp [NMap.getD, NMap.get?_set_other m v h]

@[simp] theorem NMap.has_set_self (m : NMap α) (a : Nat) (v : α) : NMap.has (NMap.set m a v) a = true := by simp [NMap.has]

/-- Rising keys above a bound rise above any lower one. -/
theorem NMap.sortedFrom_mono {lo lo' : Nat} (h : lo' ≤ lo) : ∀ m : NMap α, sortedFrom lo m = true → sortedFrom lo' m = true
  | [], _ => rfl
  | (k, _) :: t, hs => by
    simp only [sortedFrom, Bool.and_eq_true, decide_eq_true_eq] at hs ⊢
    exact ⟨by omega, hs.2⟩

theorem NMap.sortedFrom_set : ∀ (m : NMap α) (lo a : Nat) (v : α), lo ≤ a → sortedFrom lo m = true → sortedFrom lo (set m a v) = true
  | [], lo, a, v, ha, _ => by simp [set, sortedFrom, ha]
  | (k, w) :: t, lo, a, v, ha, hs => by
    simp only [sortedFrom, Bool.and_eq_true, decide_eq_true_eq] at hs
    obtain ⟨hk, ht⟩ := hs
    simp only [set]
    split
    · rename_i hlt; simp only [sortedFrom, Bool.and_eq_true, decide_eq_true_eq]; exact ⟨ha, by omega, ht⟩
    · split
      · rename_i he; subst he; simp [sortedFrom, hk, ht]
      · simp only [sortedFrom, Bool.and_eq_true, decide_eq_true_eq]
        exact ⟨hk, sortedFrom_set t (k + 1) a v (by omega) ht⟩

theorem NMap.sortedFrom_del : ∀ (m : NMap α) (lo a : Nat), sortedFrom lo m = true → sortedFrom lo (del m a) = true
  | [], _, _, _ => rfl
  | (k, w) :: t, lo, a, hs => by
    simp only [sortedFrom, Bool.and_eq_true, decide_eq_true_eq] at hs
    have ih := sortedFrom_del t (k + 1) a hs.2
    by_cases h : k = a
    · subst h; simpa [del] using sortedFrom_mono (by omega) _ ih
    · have : del ((k, w) :: t) a = (k, w) :: del t a := by simp [del, h]
      rw [this]; simp [sortedFrom, hs.1, ih]

/-- A map whose keys rise above a bound lists nothing below it. -/
theorem NMap.get?_below : ∀ (m : NMap α) (lo a : Nat), sortedFrom lo m = true → a < lo → get? m a = none
  | [], _, _, _, _ => rfl
  | (k, w) :: t, lo, a, hs, ha => by
    simp only [sortedFrom, Bool.and_eq_true, decide_eq_true_eq] at hs
    have : a ≠ k := by omega
    simp [get?, this, get?_below t (k + 1) a hs.2 (by omega)]

/-- Maps with rising keys that read alike are equal: the form is canonical. -/
theorem NMap.ext_sorted : ∀ (m n : NMap α) (lo : Nat), sortedFrom lo m = true → sortedFrom lo n = true →
    (∀ a, get? m a = get? n a) → m = n
  | [], [], _, _, _, _ => rfl
  | [], (k, w) :: t, _, _, _, h => by simpa [get?] using h k
  | (k, w) :: t, [], _, _, _, h => by simpa [get?] using h k
  | (k, w) :: t, (k', w') :: t', lo, hm, hn, h => by
    simp only [sortedFrom, Bool.and_eq_true, decide_eq_true_eq] at hm hn
    have hk : k = k' := by
      rcases Nat.lt_trichotomy k k' with g | g | g
      · have := h k; simp [get?, get?_below t' (k' + 1) k hn.2 (by omega), Nat.ne_of_lt g] at this
      · exact g
      · have := h k'; simp [get?, get?_below t (k + 1) k' hm.2 (by omega), Nat.ne_of_lt g] at this
    subst hk
    have hw : w = w' := by simpa [get?] using h k
    subst hw
    have ht := ext_sorted t t' (k + 1) hm.2 hn.2 fun a => by
      by_cases g : a = k
      · subst g; rw [get?_below t _ _ hm.2 (by omega), get?_below t' _ _ hn.2 (by omega)]
      · simpa [get?, g] using h a
    rw [ht]

theorem NMap.mem_set {m : NMap α} {a : Nat} {v : α} {p : Nat × α} (h : p ∈ NMap.set m a v) : p = (a, v) ∨ p ∈ m := by
  induction m with
  | nil => simpa [NMap.set] using h
  | cons q t ih =>
    obtain ⟨k, w⟩ := q
    simp only [NMap.set] at h
    split at h
    · rcases List.mem_cons.mp h with h | h
      · exact .inl h
      · exact .inr h
    · split at h
      · rcases List.mem_cons.mp h with h | h
        · exact .inl h
        · exact .inr (List.mem_cons_of_mem _ h)
      · rcases List.mem_cons.mp h with h | h
        · exact .inr (h ▸ List.mem_cons_self)
        · exact (ih h).imp id (List.mem_cons_of_mem _)

/-! ### Maps with a default -/

variable [DecidableEq α]

@[simp] theorem DMap.get_put_self (d : Nat → α) (m : NMap α) (a : Nat) (v : α) : DMap.get d (DMap.put d m a v) a = v := by
  unfold DMap.get DMap.put
  split
  · rename_i h; simp [h]
  · simp

theorem DMap.get_put_other (d : Nat → α) (m : NMap α) {a b : Nat} (v : α) (h : b ≠ a) :
    DMap.get d (DMap.put d m a v) b = DMap.get d m b := by
  unfold DMap.get DMap.put
  split
  · rw [NMap.get?_del_other m h]
  · rw [NMap.get?_set_other m v h]

/-- Writing keeps the canonical form. -/
theorem DMap.wf_put (d : Nat → α) (m : NMap α) (a : Nat) (v : α) (h : DMap.wf d m = true) : DMap.wf d (DMap.put d m a v) = true := by
  simp only [DMap.wf, Bool.and_eq_true, List.all_eq_true, decide_eq_true_eq] at h ⊢
  obtain ⟨hs, hd⟩ := h
  unfold DMap.put
  split
  · exact ⟨NMap.sortedFrom_del m 0 a hs, fun p hp => hd p (List.mem_of_mem_filter hp)⟩
  · rename_i hv
    refine ⟨NMap.sortedFrom_set m 0 a v (Nat.zero_le _) hs, fun p hp => ?_⟩
    rcases NMap.mem_set hp with rfl | hp
    · exact hv
    · exact hd p hp

/-! ### Byte memories -/

@[simp] theorem Mem.read_write_self (dflt : Byte) (m : Mem) (a : Nat) (b : Byte) : Mem.read dflt (Mem.write dflt m a b) a = b :=
  DMap.get_put_self _ m a b

theorem Mem.read_write_other (dflt : Byte) (m : Mem) {a c : Nat} (b : Byte) (h : c ≠ a) :
    Mem.read dflt (Mem.write dflt m a b) c = Mem.read dflt m c := DMap.get_put_other _ m b h

theorem Mem.wf_write (dflt : Byte) (m : Mem) (a : Nat) (b : Byte) (h : Mem.wf dflt m = true) : Mem.wf dflt (Mem.write dflt m a b) = true :=
  DMap.wf_put _ m a b h

theorem Mem.wf_writeN (dflt : Byte) : ∀ (bs : List Byte) (m : Mem) (a : Nat), Mem.wf dflt m = true → Mem.wf dflt (Mem.writeN dflt m a bs) = true
  | [], _, _, h => h
  | b :: t, m, a, h => wf_writeN dflt t _ (a + 1) (wf_write dflt m a b h)

/-- A write of bytes leaves every byte outside them alone. -/
theorem Mem.read_writeN_outside (dflt : Byte) : ∀ (bs : List Byte) (m : Mem) (a c : Nat), c < a ∨ a + bs.length ≤ c →
    Mem.read dflt (Mem.writeN dflt m a bs) c = Mem.read dflt m c
  | [], _, _, _, _ => rfl
  | b :: t, m, a, c, h => by
    simp only [List.length_cons] at h
    rw [writeN, read_writeN_outside dflt t _ (a + 1) c (by omega), read_write_other dflt m b (by omega)]

/-- What has been written reads back. -/
theorem Mem.readN_writeN (dflt : Byte) : ∀ (bs : List Byte) (m : Mem) (a : Nat), Mem.readN dflt (Mem.writeN dflt m a bs) a bs.length = bs
  | [], _, _ => rfl
  | b :: t, m, a => by
    simp only [List.length_cons, readN, writeN]
    rw [read_writeN_outside dflt t _ (a + 1) a (by omega), read_write_self, readN_writeN dflt t]

/-- Canonical memories that read alike are equal. -/
theorem DMap.ext_wf (d : Nat → α) (m n : NMap α) (hm : DMap.wf d m = true) (hn : DMap.wf d n = true)
    (h : ∀ a, DMap.get d m a = DMap.get d n a) : m = n := by
  have key : ∀ l : NMap α, DMap.wf d l = true → ∀ a, NMap.get? l a ≠ some (d a) := by
    intro l hl a he
    simp only [DMap.wf, Bool.and_eq_true, List.all_eq_true, decide_eq_true_eq] at hl
    have hmem : ∀ (l : NMap α), NMap.get? l a = some (d a) → (a, d a) ∈ l := by
      intro l
      induction l with
      | nil => intro h; simp at h
      | cons p t ih =>
        obtain ⟨k, w⟩ := p
        intro h
        by_cases g : a = k
        · subst g; simp only [NMap.get?, if_true, Option.some.injEq] at h; subst h; exact List.mem_cons_self
        · simp only [NMap.get?, g, if_false] at h; exact List.mem_cons_of_mem _ (ih h)
    exact hl.2 _ (hmem l he) rfl
  have hs := hm; have hs' := hn
  simp only [DMap.wf, Bool.and_eq_true] at hs hs'
  refine NMap.ext_sorted m n 0 hs.1 hs'.1 fun a => ?_
  have ha := h a
  have k1 := key m hm a
  have k2 := key n hn a
  unfold DMap.get at ha
  cases h1 : NMap.get? m a <;> cases h2 : NMap.get? n a <;> simp_all

end Sys2Proof
end

