-- ==== Sys2Proof/Laws/State.lean ====
section
/-! SUPPORT. What an update of one part of the block leaves alone: one lemma for each field and update, and for the registers as they are
read, so that no proof unfolds a record. -/

namespace Sys2Proof.Machine

/-! ### `setReg` writes `regs` alone -/

@[simp] theorem Device.setReg_hawk (d : Device) (off v : Nat) : (d.setReg off v).hawk = d.hawk := rfl
@[simp] theorem Device.setReg_fault (d : Device) (off v : Nat) : (d.setReg off v).fault = d.fault := rfl
@[simp] theorem Device.setReg_seats (d : Device) (off v : Nat) : (d.setReg off v).seats = d.seats := rfl
@[simp] theorem Device.setReg_perf (d : Device) (off v : Nat) : (d.setReg off v).perf = d.perf := rfl
@[simp] theorem Device.setReg_telem (d : Device) (off v : Nat) : (d.setReg off v).telem = d.telem := rfl
@[simp] theorem Device.setReg_plumb (d : Device) (off v : Nat) : (d.setReg off v).plumb = d.plumb := rfl
@[simp] theorem Device.setReg_coats (d : Device) (off v : Nat) : (d.setReg off v).coats = d.coats := rfl
@[simp] theorem Device.setReg_pipes (d : Device) (off v : Nat) : (d.setReg off v).pipes = d.pipes := rfl
@[simp] theorem Device.setReg_ctxs (d : Device) (off v : Nat) : (d.setReg off v).ctxs = d.ctxs := rfl
@[simp] theorem Device.setReg_ectxs (d : Device) (off v : Nat) : (d.setReg off v).ectxs = d.ectxs := rfl
@[simp] theorem Device.setReg_buf (d : Device) (off v : Nat) : (d.setReg off v).buf = d.buf := rfl
@[simp] theorem Device.setReg_ports (d : Device) (off v : Nat) : (d.setReg off v).ports = d.ports := rfl
@[simp] theorem Device.setReg_scheds (d : Device) (off v : Nat) : (d.setReg off v).scheds = d.scheds := rfl
@[simp] theorem Device.setReg_quotes (d : Device) (off v : Nat) : (d.setReg off v).quotes = d.quotes := rfl
@[simp] theorem Device.setReg_spread (d : Device) (off v : Nat) : (d.setReg off v).spread = d.spread := rfl
@[simp] theorem Device.setReg_flow (d : Device) (off v : Nat) : (d.setReg off v).flow = d.flow := rfl
@[simp] theorem Device.setReg_rstore (d : Device) (off v : Nat) : (d.setReg off v).rstore = d.rstore := rfl
@[simp] theorem Device.setReg_scaf (d : Device) (off v : Nat) : (d.setReg off v).scaf = d.scaf := rfl
@[simp] theorem Device.setReg_spans (d : Device) (off v : Nat) : (d.setReg off v).spans = d.spans := rfl
@[simp] theorem Device.setReg_pwr (d : Device) (off v : Nat) : (d.setReg off v).pwr = d.pwr := rfl
@[simp] theorem Device.setReg_jtag (d : Device) (off v : Nat) : (d.setReg off v).jtag = d.jtag := rfl
@[simp] theorem Device.setReg_freeCtr (d : Device) (off v : Nat) : (d.setReg off v).freeCtr = d.freeCtr := rfl

/-! ### `setFld` writes `regs` alone -/

@[simp] theorem Device.setFld_hawk (d : Device) (off hi lo v : Nat) : (d.setFld off hi lo v).hawk = d.hawk := rfl
@[simp] theorem Device.setFld_fault (d : Device) (off hi lo v : Nat) : (d.setFld off hi lo v).fault = d.fault := rfl
@[simp] theorem Device.setFld_seats (d : Device) (off hi lo v : Nat) : (d.setFld off hi lo v).seats = d.seats := rfl
@[simp] theorem Device.setFld_perf (d : Device) (off hi lo v : Nat) : (d.setFld off hi lo v).perf = d.perf := rfl
@[simp] theorem Device.setFld_telem (d : Device) (off hi lo v : Nat) : (d.setFld off hi lo v).telem = d.telem := rfl
@[simp] theorem Device.setFld_plumb (d : Device) (off hi lo v : Nat) : (d.setFld off hi lo v).plumb = d.plumb := rfl
@[simp] theorem Device.setFld_coats (d : Device) (off hi lo v : Nat) : (d.setFld off hi lo v).coats = d.coats := rfl
@[simp] theorem Device.setFld_pipes (d : Device) (off hi lo v : Nat) : (d.setFld off hi lo v).pipes = d.pipes := rfl
@[simp] theorem Device.setFld_ctxs (d : Device) (off hi lo v : Nat) : (d.setFld off hi lo v).ctxs = d.ctxs := rfl
@[simp] theorem Device.setFld_ectxs (d : Device) (off hi lo v : Nat) : (d.setFld off hi lo v).ectxs = d.ectxs := rfl
@[simp] theorem Device.setFld_buf (d : Device) (off hi lo v : Nat) : (d.setFld off hi lo v).buf = d.buf := rfl
@[simp] theorem Device.setFld_ports (d : Device) (off hi lo v : Nat) : (d.setFld off hi lo v).ports = d.ports := rfl
@[simp] theorem Device.setFld_scheds (d : Device) (off hi lo v : Nat) : (d.setFld off hi lo v).scheds = d.scheds := rfl
@[simp] theorem Device.setFld_quotes (d : Device) (off hi lo v : Nat) : (d.setFld off hi lo v).quotes = d.quotes := rfl
@[simp] theorem Device.setFld_spread (d : Device) (off hi lo v : Nat) : (d.setFld off hi lo v).spread = d.spread := rfl
@[simp] theorem Device.setFld_flow (d : Device) (off hi lo v : Nat) : (d.setFld off hi lo v).flow = d.flow := rfl
@[simp] theorem Device.setFld_rstore (d : Device) (off hi lo v : Nat) : (d.setFld off hi lo v).rstore = d.rstore := rfl
@[simp] theorem Device.setFld_scaf (d : Device) (off hi lo v : Nat) : (d.setFld off hi lo v).scaf = d.scaf := rfl
@[simp] theorem Device.setFld_spans (d : Device) (off hi lo v : Nat) : (d.setFld off hi lo v).spans = d.spans := rfl
@[simp] theorem Device.setFld_pwr (d : Device) (off hi lo v : Nat) : (d.setFld off hi lo v).pwr = d.pwr := rfl
@[simp] theorem Device.setFld_jtag (d : Device) (off hi lo v : Nat) : (d.setFld off hi lo v).jtag = d.jtag := rfl
@[simp] theorem Device.setFld_freeCtr (d : Device) (off hi lo v : Nat) : (d.setFld off hi lo v).freeCtr = d.freeCtr := rfl

/-! ### `setFlag` writes `regs` alone -/

@[simp] theorem Device.setFlag_hawk (d : Device) (off n : Nat) (v : Bool) : (d.setFlag off n v).hawk = d.hawk := rfl
@[simp] theorem Device.setFlag_fault (d : Device) (off n : Nat) (v : Bool) : (d.setFlag off n v).fault = d.fault := rfl
@[simp] theorem Device.setFlag_seats (d : Device) (off n : Nat) (v : Bool) : (d.setFlag off n v).seats = d.seats := rfl
@[simp] theorem Device.setFlag_perf (d : Device) (off n : Nat) (v : Bool) : (d.setFlag off n v).perf = d.perf := rfl
@[simp] theorem Device.setFlag_telem (d : Device) (off n : Nat) (v : Bool) : (d.setFlag off n v).telem = d.telem := rfl
@[simp] theorem Device.setFlag_plumb (d : Device) (off n : Nat) (v : Bool) : (d.setFlag off n v).plumb = d.plumb := rfl
@[simp] theorem Device.setFlag_coats (d : Device) (off n : Nat) (v : Bool) : (d.setFlag off n v).coats = d.coats := rfl
@[simp] theorem Device.setFlag_pipes (d : Device) (off n : Nat) (v : Bool) : (d.setFlag off n v).pipes = d.pipes := rfl
@[simp] theorem Device.setFlag_ctxs (d : Device) (off n : Nat) (v : Bool) : (d.setFlag off n v).ctxs = d.ctxs := rfl
@[simp] theorem Device.setFlag_ectxs (d : Device) (off n : Nat) (v : Bool) : (d.setFlag off n v).ectxs = d.ectxs := rfl
@[simp] theorem Device.setFlag_buf (d : Device) (off n : Nat) (v : Bool) : (d.setFlag off n v).buf = d.buf := rfl
@[simp] theorem Device.setFlag_ports (d : Device) (off n : Nat) (v : Bool) : (d.setFlag off n v).ports = d.ports := rfl
@[simp] theorem Device.setFlag_scheds (d : Device) (off n : Nat) (v : Bool) : (d.setFlag off n v).scheds = d.scheds := rfl
@[simp] theorem Device.setFlag_quotes (d : Device) (off n : Nat) (v : Bool) : (d.setFlag off n v).quotes = d.quotes := rfl
@[simp] theorem Device.setFlag_spread (d : Device) (off n : Nat) (v : Bool) : (d.setFlag off n v).spread = d.spread := rfl
@[simp] theorem Device.setFlag_flow (d : Device) (off n : Nat) (v : Bool) : (d.setFlag off n v).flow = d.flow := rfl
@[simp] theorem Device.setFlag_rstore (d : Device) (off n : Nat) (v : Bool) : (d.setFlag off n v).rstore = d.rstore := rfl
@[simp] theorem Device.setFlag_scaf (d : Device) (off n : Nat) (v : Bool) : (d.setFlag off n v).scaf = d.scaf := rfl
@[simp] theorem Device.setFlag_spans (d : Device) (off n : Nat) (v : Bool) : (d.setFlag off n v).spans = d.spans := rfl
@[simp] theorem Device.setFlag_pwr (d : Device) (off n : Nat) (v : Bool) : (d.setFlag off n v).pwr = d.pwr := rfl
@[simp] theorem Device.setFlag_jtag (d : Device) (off n : Nat) (v : Bool) : (d.setFlag off n v).jtag = d.jtag := rfl
@[simp] theorem Device.setFlag_freeCtr (d : Device) (off n : Nat) (v : Bool) : (d.setFlag off n v).freeCtr = d.freeCtr := rfl

/-! ### `bump` writes `regs` alone -/

@[simp] theorem Device.bump_hawk (d : Device) (off n : Nat) : (d.bump off n).hawk = d.hawk := rfl
@[simp] theorem Device.bump_fault (d : Device) (off n : Nat) : (d.bump off n).fault = d.fault := rfl
@[simp] theorem Device.bump_seats (d : Device) (off n : Nat) : (d.bump off n).seats = d.seats := rfl
@[simp] theorem Device.bump_perf (d : Device) (off n : Nat) : (d.bump off n).perf = d.perf := rfl
@[simp] theorem Device.bump_telem (d : Device) (off n : Nat) : (d.bump off n).telem = d.telem := rfl
@[simp] theorem Device.bump_plumb (d : Device) (off n : Nat) : (d.bump off n).plumb = d.plumb := rfl
@[simp] theorem Device.bump_coats (d : Device) (off n : Nat) : (d.bump off n).coats = d.coats := rfl
@[simp] theorem Device.bump_pipes (d : Device) (off n : Nat) : (d.bump off n).pipes = d.pipes := rfl
@[simp] theorem Device.bump_ctxs (d : Device) (off n : Nat) : (d.bump off n).ctxs = d.ctxs := rfl
@[simp] theorem Device.bump_ectxs (d : Device) (off n : Nat) : (d.bump off n).ectxs = d.ectxs := rfl
@[simp] theorem Device.bump_buf (d : Device) (off n : Nat) : (d.bump off n).buf = d.buf := rfl
@[simp] theorem Device.bump_ports (d : Device) (off n : Nat) : (d.bump off n).ports = d.ports := rfl
@[simp] theorem Device.bump_scheds (d : Device) (off n : Nat) : (d.bump off n).scheds = d.scheds := rfl
@[simp] theorem Device.bump_quotes (d : Device) (off n : Nat) : (d.bump off n).quotes = d.quotes := rfl
@[simp] theorem Device.bump_spread (d : Device) (off n : Nat) : (d.bump off n).spread = d.spread := rfl
@[simp] theorem Device.bump_flow (d : Device) (off n : Nat) : (d.bump off n).flow = d.flow := rfl
@[simp] theorem Device.bump_rstore (d : Device) (off n : Nat) : (d.bump off n).rstore = d.rstore := rfl
@[simp] theorem Device.bump_scaf (d : Device) (off n : Nat) : (d.bump off n).scaf = d.scaf := rfl
@[simp] theorem Device.bump_spans (d : Device) (off n : Nat) : (d.bump off n).spans = d.spans := rfl
@[simp] theorem Device.bump_pwr (d : Device) (off n : Nat) : (d.bump off n).pwr = d.pwr := rfl
@[simp] theorem Device.bump_jtag (d : Device) (off n : Nat) : (d.bump off n).jtag = d.jtag := rfl
@[simp] theorem Device.bump_freeCtr (d : Device) (off n : Nat) : (d.bump off n).freeCtr = d.freeCtr := rfl

/-! ### `setReg64` writes `regs` alone -/

@[simp] theorem Device.setReg64_hawk (d : Device) (off v : Nat) : (d.setReg64 off v).hawk = d.hawk := rfl
@[simp] theorem Device.setReg64_fault (d : Device) (off v : Nat) : (d.setReg64 off v).fault = d.fault := rfl
@[simp] theorem Device.setReg64_seats (d : Device) (off v : Nat) : (d.setReg64 off v).seats = d.seats := rfl
@[simp] theorem Device.setReg64_perf (d : Device) (off v : Nat) : (d.setReg64 off v).perf = d.perf := rfl
@[simp] theorem Device.setReg64_telem (d : Device) (off v : Nat) : (d.setReg64 off v).telem = d.telem := rfl
@[simp] theorem Device.setReg64_plumb (d : Device) (off v : Nat) : (d.setReg64 off v).plumb = d.plumb := rfl
@[simp] theorem Device.setReg64_coats (d : Device) (off v : Nat) : (d.setReg64 off v).coats = d.coats := rfl
@[simp] theorem Device.setReg64_pipes (d : Device) (off v : Nat) : (d.setReg64 off v).pipes = d.pipes := rfl
@[simp] theorem Device.setReg64_ctxs (d : Device) (off v : Nat) : (d.setReg64 off v).ctxs = d.ctxs := rfl
@[simp] theorem Device.setReg64_ectxs (d : Device) (off v : Nat) : (d.setReg64 off v).ectxs = d.ectxs := rfl
@[simp] theorem Device.setReg64_buf (d : Device) (off v : Nat) : (d.setReg64 off v).buf = d.buf := rfl
@[simp] theorem Device.setReg64_ports (d : Device) (off v : Nat) : (d.setReg64 off v).ports = d.ports := rfl
@[simp] theorem Device.setReg64_scheds (d : Device) (off v : Nat) : (d.setReg64 off v).scheds = d.scheds := rfl
@[simp] theorem Device.setReg64_quotes (d : Device) (off v : Nat) : (d.setReg64 off v).quotes = d.quotes := rfl
@[simp] theorem Device.setReg64_spread (d : Device) (off v : Nat) : (d.setReg64 off v).spread = d.spread := rfl
@[simp] theorem Device.setReg64_flow (d : Device) (off v : Nat) : (d.setReg64 off v).flow = d.flow := rfl
@[simp] theorem Device.setReg64_rstore (d : Device) (off v : Nat) : (d.setReg64 off v).rstore = d.rstore := rfl
@[simp] theorem Device.setReg64_scaf (d : Device) (off v : Nat) : (d.setReg64 off v).scaf = d.scaf := rfl
@[simp] theorem Device.setReg64_spans (d : Device) (off v : Nat) : (d.setReg64 off v).spans = d.spans := rfl
@[simp] theorem Device.setReg64_pwr (d : Device) (off v : Nat) : (d.setReg64 off v).pwr = d.pwr := rfl
@[simp] theorem Device.setReg64_jtag (d : Device) (off v : Nat) : (d.setReg64 off v).jtag = d.jtag := rfl
@[simp] theorem Device.setReg64_freeCtr (d : Device) (off v : Nat) : (d.setReg64 off v).freeCtr = d.freeCtr := rfl

/-! ### `modPlumb` writes `plumb` alone -/

@[simp] theorem Device.modPlumb_regs (d : Device) (f : Plumb → Plumb) : (d.modPlumb f).regs = d.regs := rfl
@[simp] theorem Device.modPlumb_hawk (d : Device) (f : Plumb → Plumb) : (d.modPlumb f).hawk = d.hawk := rfl
@[simp] theorem Device.modPlumb_fault (d : Device) (f : Plumb → Plumb) : (d.modPlumb f).fault = d.fault := rfl
@[simp] theorem Device.modPlumb_seats (d : Device) (f : Plumb → Plumb) : (d.modPlumb f).seats = d.seats := rfl
@[simp] theorem Device.modPlumb_perf (d : Device) (f : Plumb → Plumb) : (d.modPlumb f).perf = d.perf := rfl
@[simp] theorem Device.modPlumb_telem (d : Device) (f : Plumb → Plumb) : (d.modPlumb f).telem = d.telem := rfl
@[simp] theorem Device.modPlumb_coats (d : Device) (f : Plumb → Plumb) : (d.modPlumb f).coats = d.coats := rfl
@[simp] theorem Device.modPlumb_pipes (d : Device) (f : Plumb → Plumb) : (d.modPlumb f).pipes = d.pipes := rfl
@[simp] theorem Device.modPlumb_ctxs (d : Device) (f : Plumb → Plumb) : (d.modPlumb f).ctxs = d.ctxs := rfl
@[simp] theorem Device.modPlumb_ectxs (d : Device) (f : Plumb → Plumb) : (d.modPlumb f).ectxs = d.ectxs := rfl
@[simp] theorem Device.modPlumb_buf (d : Device) (f : Plumb → Plumb) : (d.modPlumb f).buf = d.buf := rfl
@[simp] theorem Device.modPlumb_ports (d : Device) (f : Plumb → Plumb) : (d.modPlumb f).ports = d.ports := rfl
@[simp] theorem Device.modPlumb_scheds (d : Device) (f : Plumb → Plumb) : (d.modPlumb f).scheds = d.scheds := rfl
@[simp] theorem Device.modPlumb_quotes (d : Device) (f : Plumb → Plumb) : (d.modPlumb f).quotes = d.quotes := rfl
@[simp] theorem Device.modPlumb_spread (d : Device) (f : Plumb → Plumb) : (d.modPlumb f).spread = d.spread := rfl
@[simp] theorem Device.modPlumb_flow (d : Device) (f : Plumb → Plumb) : (d.modPlumb f).flow = d.flow := rfl
@[simp] theorem Device.modPlumb_rstore (d : Device) (f : Plumb → Plumb) : (d.modPlumb f).rstore = d.rstore := rfl
@[simp] theorem Device.modPlumb_scaf (d : Device) (f : Plumb → Plumb) : (d.modPlumb f).scaf = d.scaf := rfl
@[simp] theorem Device.modPlumb_spans (d : Device) (f : Plumb → Plumb) : (d.modPlumb f).spans = d.spans := rfl
@[simp] theorem Device.modPlumb_pwr (d : Device) (f : Plumb → Plumb) : (d.modPlumb f).pwr = d.pwr := rfl
@[simp] theorem Device.modPlumb_jtag (d : Device) (f : Plumb → Plumb) : (d.modPlumb f).jtag = d.jtag := rfl
@[simp] theorem Device.modPlumb_freeCtr (d : Device) (f : Plumb → Plumb) : (d.modPlumb f).freeCtr = d.freeCtr := rfl
@[simp] theorem Device.reg_modPlumb (d : Device) (f : Plumb → Plumb) (o' : Nat) : (d.modPlumb f).reg o' = d.reg o' := rfl
@[simp] theorem Device.fld_modPlumb (d : Device) (f : Plumb → Plumb) (o' hi' lo' : Nat) : (d.modPlumb f).fld o' hi' lo' = d.fld o' hi' lo' := rfl
@[simp] theorem Device.flag_modPlumb (d : Device) (f : Plumb → Plumb) (o' n' : Nat) : (d.modPlumb f).flag o' n' = d.flag o' n' := rfl
@[simp] theorem Device.modPlumb_plumb (d : Device) (f : Plumb → Plumb) : (d.modPlumb f).plumb = f d.plumb := rfl

/-! ### `setTb` writes `plumb` alone -/

@[simp] theorem Device.setTb_regs (d : Device) (n : Nat) (t : TimeBase) : (d.setTb n t).regs = d.regs := rfl
@[simp] theorem Device.setTb_hawk (d : Device) (n : Nat) (t : TimeBase) : (d.setTb n t).hawk = d.hawk := rfl
@[simp] theorem Device.setTb_fault (d : Device) (n : Nat) (t : TimeBase) : (d.setTb n t).fault = d.fault := rfl
@[simp] theorem Device.setTb_seats (d : Device) (n : Nat) (t : TimeBase) : (d.setTb n t).seats = d.seats := rfl
@[simp] theorem Device.setTb_perf (d : Device) (n : Nat) (t : TimeBase) : (d.setTb n t).perf = d.perf := rfl
@[simp] theorem Device.setTb_telem (d : Device) (n : Nat) (t : TimeBase) : (d.setTb n t).telem = d.telem := rfl
@[simp] theorem Device.setTb_coats (d : Device) (n : Nat) (t : TimeBase) : (d.setTb n t).coats = d.coats := rfl
@[simp] theorem Device.setTb_pipes (d : Device) (n : Nat) (t : TimeBase) : (d.setTb n t).pipes = d.pipes := rfl
@[simp] theorem Device.setTb_ctxs (d : Device) (n : Nat) (t : TimeBase) : (d.setTb n t).ctxs = d.ctxs := rfl
@[simp] theorem Device.setTb_ectxs (d : Device) (n : Nat) (t : TimeBase) : (d.setTb n t).ectxs = d.ectxs := rfl
@[simp] theorem Device.setTb_buf (d : Device) (n : Nat) (t : TimeBase) : (d.setTb n t).buf = d.buf := rfl
@[simp] theorem Device.setTb_ports (d : Device) (n : Nat) (t : TimeBase) : (d.setTb n t).ports = d.ports := rfl
@[simp] theorem Device.setTb_scheds (d : Device) (n : Nat) (t : TimeBase) : (d.setTb n t).scheds = d.scheds := rfl
@[simp] theorem Device.setTb_quotes (d : Device) (n : Nat) (t : TimeBase) : (d.setTb n t).quotes = d.quotes := rfl
@[simp] theorem Device.setTb_spread (d : Device) (n : Nat) (t : TimeBase) : (d.setTb n t).spread = d.spread := rfl
@[simp] theorem Device.setTb_flow (d : Device) (n : Nat) (t : TimeBase) : (d.setTb n t).flow = d.flow := rfl
@[simp] theorem Device.setTb_rstore (d : Device) (n : Nat) (t : TimeBase) : (d.setTb n t).rstore = d.rstore := rfl
@[simp] theorem Device.setTb_scaf (d : Device) (n : Nat) (t : TimeBase) : (d.setTb n t).scaf = d.scaf := rfl
@[simp] theorem Device.setTb_spans (d : Device) (n : Nat) (t : TimeBase) : (d.setTb n t).spans = d.spans := rfl
@[simp] theorem Device.setTb_pwr (d : Device) (n : Nat) (t : TimeBase) : (d.setTb n t).pwr = d.pwr := rfl
@[simp] theorem Device.setTb_jtag (d : Device) (n : Nat) (t : TimeBase) : (d.setTb n t).jtag = d.jtag := rfl
@[simp] theorem Device.setTb_freeCtr (d : Device) (n : Nat) (t : TimeBase) : (d.setTb n t).freeCtr = d.freeCtr := rfl
@[simp] theorem Device.reg_setTb (d : Device) (n : Nat) (t : TimeBase) (o' : Nat) : (d.setTb n t).reg o' = d.reg o' := rfl
@[simp] theorem Device.fld_setTb (d : Device) (n : Nat) (t : TimeBase) (o' hi' lo' : Nat) : (d.setTb n t).fld o' hi' lo' = d.fld o' hi' lo' := rfl
@[simp] theorem Device.flag_setTb (d : Device) (n : Nat) (t : TimeBase) (o' n' : Nat) : (d.setTb n t).flag o' n' = d.flag o' n' := rfl

/-! ### `setTio` writes `plumb` alone -/

@[simp] theorem Device.setTio_regs (d : Device) (k : Nat) (x : TioPin) : (d.setTio k x).regs = d.regs := rfl
@[simp] theorem Device.setTio_hawk (d : Device) (k : Nat) (x : TioPin) : (d.setTio k x).hawk = d.hawk := rfl
@[simp] theorem Device.setTio_fault (d : Device) (k : Nat) (x : TioPin) : (d.setTio k x).fault = d.fault := rfl
@[simp] theorem Device.setTio_seats (d : Device) (k : Nat) (x : TioPin) : (d.setTio k x).seats = d.seats := rfl
@[simp] theorem Device.setTio_perf (d : Device) (k : Nat) (x : TioPin) : (d.setTio k x).perf = d.perf := rfl
@[simp] theorem Device.setTio_telem (d : Device) (k : Nat) (x : TioPin) : (d.setTio k x).telem = d.telem := rfl
@[simp] theorem Device.setTio_coats (d : Device) (k : Nat) (x : TioPin) : (d.setTio k x).coats = d.coats := rfl
@[simp] theorem Device.setTio_pipes (d : Device) (k : Nat) (x : TioPin) : (d.setTio k x).pipes = d.pipes := rfl
@[simp] theorem Device.setTio_ctxs (d : Device) (k : Nat) (x : TioPin) : (d.setTio k x).ctxs = d.ctxs := rfl
@[simp] theorem Device.setTio_ectxs (d : Device) (k : Nat) (x : TioPin) : (d.setTio k x).ectxs = d.ectxs := rfl
@[simp] theorem Device.setTio_buf (d : Device) (k : Nat) (x : TioPin) : (d.setTio k x).buf = d.buf := rfl
@[simp] theorem Device.setTio_ports (d : Device) (k : Nat) (x : TioPin) : (d.setTio k x).ports = d.ports := rfl
@[simp] theorem Device.setTio_scheds (d : Device) (k : Nat) (x : TioPin) : (d.setTio k x).scheds = d.scheds := rfl
@[simp] theorem Device.setTio_quotes (d : Device) (k : Nat) (x : TioPin) : (d.setTio k x).quotes = d.quotes := rfl
@[simp] theorem Device.setTio_spread (d : Device) (k : Nat) (x : TioPin) : (d.setTio k x).spread = d.spread := rfl
@[simp] theorem Device.setTio_flow (d : Device) (k : Nat) (x : TioPin) : (d.setTio k x).flow = d.flow := rfl
@[simp] theorem Device.setTio_rstore (d : Device) (k : Nat) (x : TioPin) : (d.setTio k x).rstore = d.rstore := rfl
@[simp] theorem Device.setTio_scaf (d : Device) (k : Nat) (x : TioPin) : (d.setTio k x).scaf = d.scaf := rfl
@[simp] theorem Device.setTio_spans (d : Device) (k : Nat) (x : TioPin) : (d.setTio k x).spans = d.spans := rfl
@[simp] theorem Device.setTio_pwr (d : Device) (k : Nat) (x : TioPin) : (d.setTio k x).pwr = d.pwr := rfl
@[simp] theorem Device.setTio_jtag (d : Device) (k : Nat) (x : TioPin) : (d.setTio k x).jtag = d.jtag := rfl
@[simp] theorem Device.setTio_freeCtr (d : Device) (k : Nat) (x : TioPin) : (d.setTio k x).freeCtr = d.freeCtr := rfl
@[simp] theorem Device.reg_setTio (d : Device) (k : Nat) (x : TioPin) (o' : Nat) : (d.setTio k x).reg o' = d.reg o' := rfl
@[simp] theorem Device.fld_setTio (d : Device) (k : Nat) (x : TioPin) (o' hi' lo' : Nat) : (d.setTio k x).fld o' hi' lo' = d.fld o' hi' lo' := rfl
@[simp] theorem Device.flag_setTio (d : Device) (k : Nat) (x : TioPin) (o' n' : Nat) : (d.setTio k x).flag o' n' = d.flag o' n' := rfl

/-! ### `modPwr` writes `pwr` alone -/

@[simp] theorem Device.modPwr_regs (d : Device) (f : Power → Power) : (d.modPwr f).regs = d.regs := rfl
@[simp] theorem Device.modPwr_hawk (d : Device) (f : Power → Power) : (d.modPwr f).hawk = d.hawk := rfl
@[simp] theorem Device.modPwr_fault (d : Device) (f : Power → Power) : (d.modPwr f).fault = d.fault := rfl
@[simp] theorem Device.modPwr_seats (d : Device) (f : Power → Power) : (d.modPwr f).seats = d.seats := rfl
@[simp] theorem Device.modPwr_perf (d : Device) (f : Power → Power) : (d.modPwr f).perf = d.perf := rfl
@[simp] theorem Device.modPwr_telem (d : Device) (f : Power → Power) : (d.modPwr f).telem = d.telem := rfl
@[simp] theorem Device.modPwr_plumb (d : Device) (f : Power → Power) : (d.modPwr f).plumb = d.plumb := rfl
@[simp] theorem Device.modPwr_coats (d : Device) (f : Power → Power) : (d.modPwr f).coats = d.coats := rfl
@[simp] theorem Device.modPwr_pipes (d : Device) (f : Power → Power) : (d.modPwr f).pipes = d.pipes := rfl
@[simp] theorem Device.modPwr_ctxs (d : Device) (f : Power → Power) : (d.modPwr f).ctxs = d.ctxs := rfl
@[simp] theorem Device.modPwr_ectxs (d : Device) (f : Power → Power) : (d.modPwr f).ectxs = d.ectxs := rfl
@[simp] theorem Device.modPwr_buf (d : Device) (f : Power → Power) : (d.modPwr f).buf = d.buf := rfl
@[simp] theorem Device.modPwr_ports (d : Device) (f : Power → Power) : (d.modPwr f).ports = d.ports := rfl
@[simp] theorem Device.modPwr_scheds (d : Device) (f : Power → Power) : (d.modPwr f).scheds = d.scheds := rfl
@[simp] theorem Device.modPwr_quotes (d : Device) (f : Power → Power) : (d.modPwr f).quotes = d.quotes := rfl
@[simp] theorem Device.modPwr_spread (d : Device) (f : Power → Power) : (d.modPwr f).spread = d.spread := rfl
@[simp] theorem Device.modPwr_flow (d : Device) (f : Power → Power) : (d.modPwr f).flow = d.flow := rfl
@[simp] theorem Device.modPwr_rstore (d : Device) (f : Power → Power) : (d.modPwr f).rstore = d.rstore := rfl
@[simp] theorem Device.modPwr_scaf (d : Device) (f : Power → Power) : (d.modPwr f).scaf = d.scaf := rfl
@[simp] theorem Device.modPwr_spans (d : Device) (f : Power → Power) : (d.modPwr f).spans = d.spans := rfl
@[simp] theorem Device.modPwr_jtag (d : Device) (f : Power → Power) : (d.modPwr f).jtag = d.jtag := rfl
@[simp] theorem Device.modPwr_freeCtr (d : Device) (f : Power → Power) : (d.modPwr f).freeCtr = d.freeCtr := rfl
@[simp] theorem Device.reg_modPwr (d : Device) (f : Power → Power) (o' : Nat) : (d.modPwr f).reg o' = d.reg o' := rfl
@[simp] theorem Device.fld_modPwr (d : Device) (f : Power → Power) (o' hi' lo' : Nat) : (d.modPwr f).fld o' hi' lo' = d.fld o' hi' lo' := rfl
@[simp] theorem Device.flag_modPwr (d : Device) (f : Power → Power) (o' n' : Nat) : (d.modPwr f).flag o' n' = d.flag o' n' := rfl
@[simp] theorem Device.modPwr_pwr (d : Device) (f : Power → Power) : (d.modPwr f).pwr = f d.pwr := rfl

/-! ### `modCoats` writes `coats` alone -/

@[simp] theorem Device.modCoats_regs (d : Device) (f : Coats → Coats) : (d.modCoats f).regs = d.regs := rfl
@[simp] theorem Device.modCoats_hawk (d : Device) (f : Coats → Coats) : (d.modCoats f).hawk = d.hawk := rfl
@[simp] theorem Device.modCoats_fault (d : Device) (f : Coats → Coats) : (d.modCoats f).fault = d.fault := rfl
@[simp] theorem Device.modCoats_seats (d : Device) (f : Coats → Coats) : (d.modCoats f).seats = d.seats := rfl
@[simp] theorem Device.modCoats_perf (d : Device) (f : Coats → Coats) : (d.modCoats f).perf = d.perf := rfl
@[simp] theorem Device.modCoats_telem (d : Device) (f : Coats → Coats) : (d.modCoats f).telem = d.telem := rfl
@[simp] theorem Device.modCoats_plumb (d : Device) (f : Coats → Coats) : (d.modCoats f).plumb = d.plumb := rfl
@[simp] theorem Device.modCoats_pipes (d : Device) (f : Coats → Coats) : (d.modCoats f).pipes = d.pipes := rfl
@[simp] theorem Device.modCoats_ctxs (d : Device) (f : Coats → Coats) : (d.modCoats f).ctxs = d.ctxs := rfl
@[simp] theorem Device.modCoats_ectxs (d : Device) (f : Coats → Coats) : (d.modCoats f).ectxs = d.ectxs := rfl
@[simp] theorem Device.modCoats_buf (d : Device) (f : Coats → Coats) : (d.modCoats f).buf = d.buf := rfl
@[simp] theorem Device.modCoats_ports (d : Device) (f : Coats → Coats) : (d.modCoats f).ports = d.ports := rfl
@[simp] theorem Device.modCoats_scheds (d : Device) (f : Coats → Coats) : (d.modCoats f).scheds = d.scheds := rfl
@[simp] theorem Device.modCoats_quotes (d : Device) (f : Coats → Coats) : (d.modCoats f).quotes = d.quotes := rfl
@[simp] theorem Device.modCoats_spread (d : Device) (f : Coats → Coats) : (d.modCoats f).spread = d.spread := rfl
@[simp] theorem Device.modCoats_flow (d : Device) (f : Coats → Coats) : (d.modCoats f).flow = d.flow := rfl
@[simp] theorem Device.modCoats_rstore (d : Device) (f : Coats → Coats) : (d.modCoats f).rstore = d.rstore := rfl
@[simp] theorem Device.modCoats_scaf (d : Device) (f : Coats → Coats) : (d.modCoats f).scaf = d.scaf := rfl
@[simp] theorem Device.modCoats_spans (d : Device) (f : Coats → Coats) : (d.modCoats f).spans = d.spans := rfl
@[simp] theorem Device.modCoats_pwr (d : Device) (f : Coats → Coats) : (d.modCoats f).pwr = d.pwr := rfl
@[simp] theorem Device.modCoats_jtag (d : Device) (f : Coats → Coats) : (d.modCoats f).jtag = d.jtag := rfl
@[simp] theorem Device.modCoats_freeCtr (d : Device) (f : Coats → Coats) : (d.modCoats f).freeCtr = d.freeCtr := rfl
@[simp] theorem Device.reg_modCoats (d : Device) (f : Coats → Coats) (o' : Nat) : (d.modCoats f).reg o' = d.reg o' := rfl
@[simp] theorem Device.fld_modCoats (d : Device) (f : Coats → Coats) (o' hi' lo' : Nat) : (d.modCoats f).fld o' hi' lo' = d.fld o' hi' lo' := rfl
@[simp] theorem Device.flag_modCoats (d : Device) (f : Coats → Coats) (o' n' : Nat) : (d.modCoats f).flag o' n' = d.flag o' n' := rfl
@[simp] theorem Device.modCoats_coats (d : Device) (f : Coats → Coats) : (d.modCoats f).coats = f d.coats := rfl

/-! ### `modPipe` writes `pipes` alone -/

@[simp] theorem Device.modPipe_regs (d : Device) (i : Nat) (f : Pipe → Pipe) : (d.modPipe i f).regs = d.regs := rfl
@[simp] theorem Device.modPipe_hawk (d : Device) (i : Nat) (f : Pipe → Pipe) : (d.modPipe i f).hawk = d.hawk := rfl
@[simp] theorem Device.modPipe_fault (d : Device) (i : Nat) (f : Pipe → Pipe) : (d.modPipe i f).fault = d.fault := rfl
@[simp] theorem Device.modPipe_seats (d : Device) (i : Nat) (f : Pipe → Pipe) : (d.modPipe i f).seats = d.seats := rfl
@[simp] theorem Device.modPipe_perf (d : Device) (i : Nat) (f : Pipe → Pipe) : (d.modPipe i f).perf = d.perf := rfl
@[simp] theorem Device.modPipe_telem (d : Device) (i : Nat) (f : Pipe → Pipe) : (d.modPipe i f).telem = d.telem := rfl
@[simp] theorem Device.modPipe_plumb (d : Device) (i : Nat) (f : Pipe → Pipe) : (d.modPipe i f).plumb = d.plumb := rfl
@[simp] theorem Device.modPipe_coats (d : Device) (i : Nat) (f : Pipe → Pipe) : (d.modPipe i f).coats = d.coats := rfl
@[simp] theorem Device.modPipe_ctxs (d : Device) (i : Nat) (f : Pipe → Pipe) : (d.modPipe i f).ctxs = d.ctxs := rfl
@[simp] theorem Device.modPipe_ectxs (d : Device) (i : Nat) (f : Pipe → Pipe) : (d.modPipe i f).ectxs = d.ectxs := rfl
@[simp] theorem Device.modPipe_buf (d : Device) (i : Nat) (f : Pipe → Pipe) : (d.modPipe i f).buf = d.buf := rfl
@[simp] theorem Device.modPipe_ports (d : Device) (i : Nat) (f : Pipe → Pipe) : (d.modPipe i f).ports = d.ports := rfl
@[simp] theorem Device.modPipe_scheds (d : Device) (i : Nat) (f : Pipe → Pipe) : (d.modPipe i f).scheds = d.scheds := rfl
@[simp] theorem Device.modPipe_quotes (d : Device) (i : Nat) (f : Pipe → Pipe) : (d.modPipe i f).quotes = d.quotes := rfl
@[simp] theorem Device.modPipe_spread (d : Device) (i : Nat) (f : Pipe → Pipe) : (d.modPipe i f).spread = d.spread := rfl
@[simp] theorem Device.modPipe_flow (d : Device) (i : Nat) (f : Pipe → Pipe) : (d.modPipe i f).flow = d.flow := rfl
@[simp] theorem Device.modPipe_rstore (d : Device) (i : Nat) (f : Pipe → Pipe) : (d.modPipe i f).rstore = d.rstore := rfl
@[simp] theorem Device.modPipe_scaf (d : Device) (i : Nat) (f : Pipe → Pipe) : (d.modPipe i f).scaf = d.scaf := rfl
@[simp] theorem Device.modPipe_spans (d : Device) (i : Nat) (f : Pipe → Pipe) : (d.modPipe i f).spans = d.spans := rfl
@[simp] theorem Device.modPipe_pwr (d : Device) (i : Nat) (f : Pipe → Pipe) : (d.modPipe i f).pwr = d.pwr := rfl
@[simp] theorem Device.modPipe_jtag (d : Device) (i : Nat) (f : Pipe → Pipe) : (d.modPipe i f).jtag = d.jtag := rfl
@[simp] theorem Device.modPipe_freeCtr (d : Device) (i : Nat) (f : Pipe → Pipe) : (d.modPipe i f).freeCtr = d.freeCtr := rfl
@[simp] theorem Device.reg_modPipe (d : Device) (i : Nat) (f : Pipe → Pipe) (o' : Nat) : (d.modPipe i f).reg o' = d.reg o' := rfl
@[simp] theorem Device.fld_modPipe (d : Device) (i : Nat) (f : Pipe → Pipe) (o' hi' lo' : Nat) : (d.modPipe i f).fld o' hi' lo' = d.fld o' hi' lo' := rfl
@[simp] theorem Device.flag_modPipe (d : Device) (i : Nat) (f : Pipe → Pipe) (o' n' : Nat) : (d.modPipe i f).flag o' n' = d.flag o' n' := rfl

/-! ### `modBuf` writes `buf` alone -/

@[simp] theorem Device.modBuf_regs (d : Device) (f : Buf → Buf) : (d.modBuf f).regs = d.regs := rfl
@[simp] theorem Device.modBuf_hawk (d : Device) (f : Buf → Buf) : (d.modBuf f).hawk = d.hawk := rfl
@[simp] theorem Device.modBuf_fault (d : Device) (f : Buf → Buf) : (d.modBuf f).fault = d.fault := rfl
@[simp] theorem Device.modBuf_seats (d : Device) (f : Buf → Buf) : (d.modBuf f).seats = d.seats := rfl
@[simp] theorem Device.modBuf_perf (d : Device) (f : Buf → Buf) : (d.modBuf f).perf = d.perf := rfl
@[simp] theorem Device.modBuf_telem (d : Device) (f : Buf → Buf) : (d.modBuf f).telem = d.telem := rfl
@[simp] theorem Device.modBuf_plumb (d : Device) (f : Buf → Buf) : (d.modBuf f).plumb = d.plumb := rfl
@[simp] theorem Device.modBuf_coats (d : Device) (f : Buf → Buf) : (d.modBuf f).coats = d.coats := rfl
@[simp] theorem Device.modBuf_pipes (d : Device) (f : Buf → Buf) : (d.modBuf f).pipes = d.pipes := rfl
@[simp] theorem Device.modBuf_ctxs (d : Device) (f : Buf → Buf) : (d.modBuf f).ctxs = d.ctxs := rfl
@[simp] theorem Device.modBuf_ectxs (d : Device) (f : Buf → Buf) : (d.modBuf f).ectxs = d.ectxs := rfl
@[simp] theorem Device.modBuf_ports (d : Device) (f : Buf → Buf) : (d.modBuf f).ports = d.ports := rfl
@[simp] theorem Device.modBuf_scheds (d : Device) (f : Buf → Buf) : (d.modBuf f).scheds = d.scheds := rfl
@[simp] theorem Device.modBuf_quotes (d : Device) (f : Buf → Buf) : (d.modBuf f).quotes = d.quotes := rfl
@[simp] theorem Device.modBuf_spread (d : Device) (f : Buf → Buf) : (d.modBuf f).spread = d.spread := rfl
@[simp] theorem Device.modBuf_flow (d : Device) (f : Buf → Buf) : (d.modBuf f).flow = d.flow := rfl
@[simp] theorem Device.modBuf_rstore (d : Device) (f : Buf → Buf) : (d.modBuf f).rstore = d.rstore := rfl
@[simp] theorem Device.modBuf_scaf (d : Device) (f : Buf → Buf) : (d.modBuf f).scaf = d.scaf := rfl
@[simp] theorem Device.modBuf_spans (d : Device) (f : Buf → Buf) : (d.modBuf f).spans = d.spans := rfl
@[simp] theorem Device.modBuf_pwr (d : Device) (f : Buf → Buf) : (d.modBuf f).pwr = d.pwr := rfl
@[simp] theorem Device.modBuf_jtag (d : Device) (f : Buf → Buf) : (d.modBuf f).jtag = d.jtag := rfl
@[simp] theorem Device.modBuf_freeCtr (d : Device) (f : Buf → Buf) : (d.modBuf f).freeCtr = d.freeCtr := rfl
@[simp] theorem Device.reg_modBuf (d : Device) (f : Buf → Buf) (o' : Nat) : (d.modBuf f).reg o' = d.reg o' := rfl
@[simp] theorem Device.fld_modBuf (d : Device) (f : Buf → Buf) (o' hi' lo' : Nat) : (d.modBuf f).fld o' hi' lo' = d.fld o' hi' lo' := rfl
@[simp] theorem Device.flag_modBuf (d : Device) (f : Buf → Buf) (o' n' : Nat) : (d.modBuf f).flag o' n' = d.flag o' n' := rfl
@[simp] theorem Device.modBuf_buf (d : Device) (f : Buf → Buf) : (d.modBuf f).buf = f d.buf := rfl

/-! ### `setFrame` writes `buf` alone -/

@[simp] theorem Device.setFrame_regs (d : Device) (f : Nat) (x : Frame) : (d.setFrame f x).regs = d.regs := rfl
@[simp] theorem Device.setFrame_hawk (d : Device) (f : Nat) (x : Frame) : (d.setFrame f x).hawk = d.hawk := rfl
@[simp] theorem Device.setFrame_fault (d : Device) (f : Nat) (x : Frame) : (d.setFrame f x).fault = d.fault := rfl
@[simp] theorem Device.setFrame_seats (d : Device) (f : Nat) (x : Frame) : (d.setFrame f x).seats = d.seats := rfl
@[simp] theorem Device.setFrame_perf (d : Device) (f : Nat) (x : Frame) : (d.setFrame f x).perf = d.perf := rfl
@[simp] theorem Device.setFrame_telem (d : Device) (f : Nat) (x : Frame) : (d.setFrame f x).telem = d.telem := rfl
@[simp] theorem Device.setFrame_plumb (d : Device) (f : Nat) (x : Frame) : (d.setFrame f x).plumb = d.plumb := rfl
@[simp] theorem Device.setFrame_coats (d : Device) (f : Nat) (x : Frame) : (d.setFrame f x).coats = d.coats := rfl
@[simp] theorem Device.setFrame_pipes (d : Device) (f : Nat) (x : Frame) : (d.setFrame f x).pipes = d.pipes := rfl
@[simp] theorem Device.setFrame_ctxs (d : Device) (f : Nat) (x : Frame) : (d.setFrame f x).ctxs = d.ctxs := rfl
@[simp] theorem Device.setFrame_ectxs (d : Device) (f : Nat) (x : Frame) : (d.setFrame f x).ectxs = d.ectxs := rfl
@[simp] theorem Device.setFrame_ports (d : Device) (f : Nat) (x : Frame) : (d.setFrame f x).ports = d.ports := rfl
@[simp] theorem Device.setFrame_scheds (d : Device) (f : Nat) (x : Frame) : (d.setFrame f x).scheds = d.scheds := rfl
@[simp] theorem Device.setFrame_quotes (d : Device) (f : Nat) (x : Frame) : (d.setFrame f x).quotes = d.quotes := rfl
@[simp] theorem Device.setFrame_spread (d : Device) (f : Nat) (x : Frame) : (d.setFrame f x).spread = d.spread := rfl
@[simp] theorem Device.setFrame_flow (d : Device) (f : Nat) (x : Frame) : (d.setFrame f x).flow = d.flow := rfl
@[simp] theorem Device.setFrame_rstore (d : Device) (f : Nat) (x : Frame) : (d.setFrame f x).rstore = d.rstore := rfl
@[simp] theorem Device.setFrame_scaf (d : Device) (f : Nat) (x : Frame) : (d.setFrame f x).scaf = d.scaf := rfl
@[simp] theorem Device.setFrame_spans (d : Device) (f : Nat) (x : Frame) : (d.setFrame f x).spans = d.spans := rfl
@[simp] theorem Device.setFrame_pwr (d : Device) (f : Nat) (x : Frame) : (d.setFrame f x).pwr = d.pwr := rfl
@[simp] theorem Device.setFrame_jtag (d : Device) (f : Nat) (x : Frame) : (d.setFrame f x).jtag = d.jtag := rfl
@[simp] theorem Device.setFrame_freeCtr (d : Device) (f : Nat) (x : Frame) : (d.setFrame f x).freeCtr = d.freeCtr := rfl
@[simp] theorem Device.reg_setFrame (d : Device) (f : Nat) (x : Frame) (o' : Nat) : (d.setFrame f x).reg o' = d.reg o' := rfl
@[simp] theorem Device.fld_setFrame (d : Device) (f : Nat) (x : Frame) (o' hi' lo' : Nat) : (d.setFrame f x).fld o' hi' lo' = d.fld o' hi' lo' := rfl
@[simp] theorem Device.flag_setFrame (d : Device) (f : Nat) (x : Frame) (o' n' : Nat) : (d.setFrame f x).flag o' n' = d.flag o' n' := rfl

/-! ### `modFrame` writes `buf` alone -/

@[simp] theorem Device.modFrame_regs (d : Device) (f : Nat) (g : Frame → Frame) : (d.modFrame f g).regs = d.regs := rfl
@[simp] theorem Device.modFrame_hawk (d : Device) (f : Nat) (g : Frame → Frame) : (d.modFrame f g).hawk = d.hawk := rfl
@[simp] theorem Device.modFrame_fault (d : Device) (f : Nat) (g : Frame → Frame) : (d.modFrame f g).fault = d.fault := rfl
@[simp] theorem Device.modFrame_seats (d : Device) (f : Nat) (g : Frame → Frame) : (d.modFrame f g).seats = d.seats := rfl
@[simp] theorem Device.modFrame_perf (d : Device) (f : Nat) (g : Frame → Frame) : (d.modFrame f g).perf = d.perf := rfl
@[simp] theorem Device.modFrame_telem (d : Device) (f : Nat) (g : Frame → Frame) : (d.modFrame f g).telem = d.telem := rfl
@[simp] theorem Device.modFrame_plumb (d : Device) (f : Nat) (g : Frame → Frame) : (d.modFrame f g).plumb = d.plumb := rfl
@[simp] theorem Device.modFrame_coats (d : Device) (f : Nat) (g : Frame → Frame) : (d.modFrame f g).coats = d.coats := rfl
@[simp] theorem Device.modFrame_pipes (d : Device) (f : Nat) (g : Frame → Frame) : (d.modFrame f g).pipes = d.pipes := rfl
@[simp] theorem Device.modFrame_ctxs (d : Device) (f : Nat) (g : Frame → Frame) : (d.modFrame f g).ctxs = d.ctxs := rfl
@[simp] theorem Device.modFrame_ectxs (d : Device) (f : Nat) (g : Frame → Frame) : (d.modFrame f g).ectxs = d.ectxs := rfl
@[simp] theorem Device.modFrame_ports (d : Device) (f : Nat) (g : Frame → Frame) : (d.modFrame f g).ports = d.ports := rfl
@[simp] theorem Device.modFrame_scheds (d : Device) (f : Nat) (g : Frame → Frame) : (d.modFrame f g).scheds = d.scheds := rfl
@[simp] theorem Device.modFrame_quotes (d : Device) (f : Nat) (g : Frame → Frame) : (d.modFrame f g).quotes = d.quotes := rfl
@[simp] theorem Device.modFrame_spread (d : Device) (f : Nat) (g : Frame → Frame) : (d.modFrame f g).spread = d.spread := rfl
@[simp] theorem Device.modFrame_flow (d : Device) (f : Nat) (g : Frame → Frame) : (d.modFrame f g).flow = d.flow := rfl
@[simp] theorem Device.modFrame_rstore (d : Device) (f : Nat) (g : Frame → Frame) : (d.modFrame f g).rstore = d.rstore := rfl
@[simp] theorem Device.modFrame_scaf (d : Device) (f : Nat) (g : Frame → Frame) : (d.modFrame f g).scaf = d.scaf := rfl
@[simp] theorem Device.modFrame_spans (d : Device) (f : Nat) (g : Frame → Frame) : (d.modFrame f g).spans = d.spans := rfl
@[simp] theorem Device.modFrame_pwr (d : Device) (f : Nat) (g : Frame → Frame) : (d.modFrame f g).pwr = d.pwr := rfl
@[simp] theorem Device.modFrame_jtag (d : Device) (f : Nat) (g : Frame → Frame) : (d.modFrame f g).jtag = d.jtag := rfl
@[simp] theorem Device.modFrame_freeCtr (d : Device) (f : Nat) (g : Frame → Frame) : (d.modFrame f g).freeCtr = d.freeCtr := rfl
@[simp] theorem Device.reg_modFrame (d : Device) (f : Nat) (g : Frame → Frame) (o' : Nat) : (d.modFrame f g).reg o' = d.reg o' := rfl
@[simp] theorem Device.fld_modFrame (d : Device) (f : Nat) (g : Frame → Frame) (o' hi' lo' : Nat) : (d.modFrame f g).fld o' hi' lo' = d.fld o' hi' lo' := rfl
@[simp] theorem Device.flag_modFrame (d : Device) (f : Nat) (g : Frame → Frame) (o' n' : Nat) : (d.modFrame f g).flag o' n' = d.flag o' n' := rfl

/-! ### `modCopy` writes `buf` alone -/

@[simp] theorem Device.modCopy_regs (d : Device) (c : Nat) (g : Copy → Copy) : (d.modCopy c g).regs = d.regs := rfl
@[simp] theorem Device.modCopy_hawk (d : Device) (c : Nat) (g : Copy → Copy) : (d.modCopy c g).hawk = d.hawk := rfl
@[simp] theorem Device.modCopy_fault (d : Device) (c : Nat) (g : Copy → Copy) : (d.modCopy c g).fault = d.fault := rfl
@[simp] theorem Device.modCopy_seats (d : Device) (c : Nat) (g : Copy → Copy) : (d.modCopy c g).seats = d.seats := rfl
@[simp] theorem Device.modCopy_perf (d : Device) (c : Nat) (g : Copy → Copy) : (d.modCopy c g).perf = d.perf := rfl
@[simp] theorem Device.modCopy_telem (d : Device) (c : Nat) (g : Copy → Copy) : (d.modCopy c g).telem = d.telem := rfl
@[simp] theorem Device.modCopy_plumb (d : Device) (c : Nat) (g : Copy → Copy) : (d.modCopy c g).plumb = d.plumb := rfl
@[simp] theorem Device.modCopy_coats (d : Device) (c : Nat) (g : Copy → Copy) : (d.modCopy c g).coats = d.coats := rfl
@[simp] theorem Device.modCopy_pipes (d : Device) (c : Nat) (g : Copy → Copy) : (d.modCopy c g).pipes = d.pipes := rfl
@[simp] theorem Device.modCopy_ctxs (d : Device) (c : Nat) (g : Copy → Copy) : (d.modCopy c g).ctxs = d.ctxs := rfl
@[simp] theorem Device.modCopy_ectxs (d : Device) (c : Nat) (g : Copy → Copy) : (d.modCopy c g).ectxs = d.ectxs := rfl
@[simp] theorem Device.modCopy_ports (d : Device) (c : Nat) (g : Copy → Copy) : (d.modCopy c g).ports = d.ports := rfl
@[simp] theorem Device.modCopy_scheds (d : Device) (c : Nat) (g : Copy → Copy) : (d.modCopy c g).scheds = d.scheds := rfl
@[simp] theorem Device.modCopy_quotes (d : Device) (c : Nat) (g : Copy → Copy) : (d.modCopy c g).quotes = d.quotes := rfl
@[simp] theorem Device.modCopy_spread (d : Device) (c : Nat) (g : Copy → Copy) : (d.modCopy c g).spread = d.spread := rfl
@[simp] theorem Device.modCopy_flow (d : Device) (c : Nat) (g : Copy → Copy) : (d.modCopy c g).flow = d.flow := rfl
@[simp] theorem Device.modCopy_rstore (d : Device) (c : Nat) (g : Copy → Copy) : (d.modCopy c g).rstore = d.rstore := rfl
@[simp] theorem Device.modCopy_scaf (d : Device) (c : Nat) (g : Copy → Copy) : (d.modCopy c g).scaf = d.scaf := rfl
@[simp] theorem Device.modCopy_spans (d : Device) (c : Nat) (g : Copy → Copy) : (d.modCopy c g).spans = d.spans := rfl
@[simp] theorem Device.modCopy_pwr (d : Device) (c : Nat) (g : Copy → Copy) : (d.modCopy c g).pwr = d.pwr := rfl
@[simp] theorem Device.modCopy_jtag (d : Device) (c : Nat) (g : Copy → Copy) : (d.modCopy c g).jtag = d.jtag := rfl
@[simp] theorem Device.modCopy_freeCtr (d : Device) (c : Nat) (g : Copy → Copy) : (d.modCopy c g).freeCtr = d.freeCtr := rfl
@[simp] theorem Device.reg_modCopy (d : Device) (c : Nat) (g : Copy → Copy) (o' : Nat) : (d.modCopy c g).reg o' = d.reg o' := rfl
@[simp] theorem Device.fld_modCopy (d : Device) (c : Nat) (g : Copy → Copy) (o' hi' lo' : Nat) : (d.modCopy c g).fld o' hi' lo' = d.fld o' hi' lo' := rfl
@[simp] theorem Device.flag_modCopy (d : Device) (c : Nat) (g : Copy → Copy) (o' n' : Nat) : (d.modCopy c g).flag o' n' = d.flag o' n' := rfl

/-! ### `modPort` writes `ports` alone -/

@[simp] theorem Device.modPort_regs (d : Device) (p : Nat) (f : Port → Port) : (d.modPort p f).regs = d.regs := rfl
@[simp] theorem Device.modPort_hawk (d : Device) (p : Nat) (f : Port → Port) : (d.modPort p f).hawk = d.hawk := rfl
@[simp] theorem Device.modPort_fault (d : Device) (p : Nat) (f : Port → Port) : (d.modPort p f).fault = d.fault := rfl
@[simp] theorem Device.modPort_seats (d : Device) (p : Nat) (f : Port → Port) : (d.modPort p f).seats = d.seats := rfl
@[simp] theorem Device.modPort_perf (d : Device) (p : Nat) (f : Port → Port) : (d.modPort p f).perf = d.perf := rfl
@[simp] theorem Device.modPort_telem (d : Device) (p : Nat) (f : Port → Port) : (d.modPort p f).telem = d.telem := rfl
@[simp] theorem Device.modPort_plumb (d : Device) (p : Nat) (f : Port → Port) : (d.modPort p f).plumb = d.plumb := rfl
@[simp] theorem Device.modPort_coats (d : Device) (p : Nat) (f : Port → Port) : (d.modPort p f).coats = d.coats := rfl
@[simp] theorem Device.modPort_pipes (d : Device) (p : Nat) (f : Port → Port) : (d.modPort p f).pipes = d.pipes := rfl
@[simp] theorem Device.modPort_ctxs (d : Device) (p : Nat) (f : Port → Port) : (d.modPort p f).ctxs = d.ctxs := rfl
@[simp] theorem Device.modPort_ectxs (d : Device) (p : Nat) (f : Port → Port) : (d.modPort p f).ectxs = d.ectxs := rfl
@[simp] theorem Device.modPort_buf (d : Device) (p : Nat) (f : Port → Port) : (d.modPort p f).buf = d.buf := rfl
@[simp] theorem Device.modPort_scheds (d : Device) (p : Nat) (f : Port → Port) : (d.modPort p f).scheds = d.scheds := rfl
@[simp] theorem Device.modPort_quotes (d : Device) (p : Nat) (f : Port → Port) : (d.modPort p f).quotes = d.quotes := rfl
@[simp] theorem Device.modPort_spread (d : Device) (p : Nat) (f : Port → Port) : (d.modPort p f).spread = d.spread := rfl
@[simp] theorem Device.modPort_flow (d : Device) (p : Nat) (f : Port → Port) : (d.modPort p f).flow = d.flow := rfl
@[simp] theorem Device.modPort_rstore (d : Device) (p : Nat) (f : Port → Port) : (d.modPort p f).rstore = d.rstore := rfl
@[simp] theorem Device.modPort_scaf (d : Device) (p : Nat) (f : Port → Port) : (d.modPort p f).scaf = d.scaf := rfl
@[simp] theorem Device.modPort_spans (d : Device) (p : Nat) (f : Port → Port) : (d.modPort p f).spans = d.spans := rfl
@[simp] theorem Device.modPort_pwr (d : Device) (p : Nat) (f : Port → Port) : (d.modPort p f).pwr = d.pwr := rfl
@[simp] theorem Device.modPort_jtag (d : Device) (p : Nat) (f : Port → Port) : (d.modPort p f).jtag = d.jtag := rfl
@[simp] theorem Device.modPort_freeCtr (d : Device) (p : Nat) (f : Port → Port) : (d.modPort p f).freeCtr = d.freeCtr := rfl
@[simp] theorem Device.reg_modPort (d : Device) (p : Nat) (f : Port → Port) (o' : Nat) : (d.modPort p f).reg o' = d.reg o' := rfl
@[simp] theorem Device.fld_modPort (d : Device) (p : Nat) (f : Port → Port) (o' hi' lo' : Nat) : (d.modPort p f).fld o' hi' lo' = d.fld o' hi' lo' := rfl
@[simp] theorem Device.flag_modPort (d : Device) (p : Nat) (f : Port → Port) (o' n' : Nat) : (d.modPort p f).flag o' n' = d.flag o' n' := rfl

/-! ### `modSched` writes `scheds` alone -/

@[simp] theorem Device.modSched_regs (d : Device) (p : Nat) (f : Sched → Sched) : (d.modSched p f).regs = d.regs := rfl
@[simp] theorem Device.modSched_hawk (d : Device) (p : Nat) (f : Sched → Sched) : (d.modSched p f).hawk = d.hawk := rfl
@[simp] theorem Device.modSched_fault (d : Device) (p : Nat) (f : Sched → Sched) : (d.modSched p f).fault = d.fault := rfl
@[simp] theorem Device.modSched_seats (d : Device) (p : Nat) (f : Sched → Sched) : (d.modSched p f).seats = d.seats := rfl
@[simp] theorem Device.modSched_perf (d : Device) (p : Nat) (f : Sched → Sched) : (d.modSched p f).perf = d.perf := rfl
@[simp] theorem Device.modSched_telem (d : Device) (p : Nat) (f : Sched → Sched) : (d.modSched p f).telem = d.telem := rfl
@[simp] theorem Device.modSched_plumb (d : Device) (p : Nat) (f : Sched → Sched) : (d.modSched p f).plumb = d.plumb := rfl
@[simp] theorem Device.modSched_coats (d : Device) (p : Nat) (f : Sched → Sched) : (d.modSched p f).coats = d.coats := rfl
@[simp] theorem Device.modSched_pipes (d : Device) (p : Nat) (f : Sched → Sched) : (d.modSched p f).pipes = d.pipes := rfl
@[simp] theorem Device.modSched_ctxs (d : Device) (p : Nat) (f : Sched → Sched) : (d.modSched p f).ctxs = d.ctxs := rfl
@[simp] theorem Device.modSched_ectxs (d : Device) (p : Nat) (f : Sched → Sched) : (d.modSched p f).ectxs = d.ectxs := rfl
@[simp] theorem Device.modSched_buf (d : Device) (p : Nat) (f : Sched → Sched) : (d.modSched p f).buf = d.buf := rfl
@[simp] theorem Device.modSched_ports (d : Device) (p : Nat) (f : Sched → Sched) : (d.modSched p f).ports = d.ports := rfl
@[simp] theorem Device.modSched_quotes (d : Device) (p : Nat) (f : Sched → Sched) : (d.modSched p f).quotes = d.quotes := rfl
@[simp] theorem Device.modSched_spread (d : Device) (p : Nat) (f : Sched → Sched) : (d.modSched p f).spread = d.spread := rfl
@[simp] theorem Device.modSched_flow (d : Device) (p : Nat) (f : Sched → Sched) : (d.modSched p f).flow = d.flow := rfl
@[simp] theorem Device.modSched_rstore (d : Device) (p : Nat) (f : Sched → Sched) : (d.modSched p f).rstore = d.rstore := rfl
@[simp] theorem Device.modSched_scaf (d : Device) (p : Nat) (f : Sched → Sched) : (d.modSched p f).scaf = d.scaf := rfl
@[simp] theorem Device.modSched_spans (d : Device) (p : Nat) (f : Sched → Sched) : (d.modSched p f).spans = d.spans := rfl
@[simp] theorem Device.modSched_pwr (d : Device) (p : Nat) (f : Sched → Sched) : (d.modSched p f).pwr = d.pwr := rfl
@[simp] theorem Device.modSched_jtag (d : Device) (p : Nat) (f : Sched → Sched) : (d.modSched p f).jtag = d.jtag := rfl
@[simp] theorem Device.modSched_freeCtr (d : Device) (p : Nat) (f : Sched → Sched) : (d.modSched p f).freeCtr = d.freeCtr := rfl
@[simp] theorem Device.reg_modSched (d : Device) (p : Nat) (f : Sched → Sched) (o' : Nat) : (d.modSched p f).reg o' = d.reg o' := rfl
@[simp] theorem Device.fld_modSched (d : Device) (p : Nat) (f : Sched → Sched) (o' hi' lo' : Nat) : (d.modSched p f).fld o' hi' lo' = d.fld o' hi' lo' := rfl
@[simp] theorem Device.flag_modSched (d : Device) (p : Nat) (f : Sched → Sched) (o' n' : Nat) : (d.modSched p f).flag o' n' = d.flag o' n' := rfl

/-! ### `setTokens` writes `scheds` alone -/

@[simp] theorem Device.setTokens_regs (d : Device) (p c : Nat) (t : Int) : (d.setTokens p c t).regs = d.regs := rfl
@[simp] theorem Device.setTokens_hawk (d : Device) (p c : Nat) (t : Int) : (d.setTokens p c t).hawk = d.hawk := rfl
@[simp] theorem Device.setTokens_fault (d : Device) (p c : Nat) (t : Int) : (d.setTokens p c t).fault = d.fault := rfl
@[simp] theorem Device.setTokens_seats (d : Device) (p c : Nat) (t : Int) : (d.setTokens p c t).seats = d.seats := rfl
@[simp] theorem Device.setTokens_perf (d : Device) (p c : Nat) (t : Int) : (d.setTokens p c t).perf = d.perf := rfl
@[simp] theorem Device.setTokens_telem (d : Device) (p c : Nat) (t : Int) : (d.setTokens p c t).telem = d.telem := rfl
@[simp] theorem Device.setTokens_plumb (d : Device) (p c : Nat) (t : Int) : (d.setTokens p c t).plumb = d.plumb := rfl
@[simp] theorem Device.setTokens_coats (d : Device) (p c : Nat) (t : Int) : (d.setTokens p c t).coats = d.coats := rfl
@[simp] theorem Device.setTokens_pipes (d : Device) (p c : Nat) (t : Int) : (d.setTokens p c t).pipes = d.pipes := rfl
@[simp] theorem Device.setTokens_ctxs (d : Device) (p c : Nat) (t : Int) : (d.setTokens p c t).ctxs = d.ctxs := rfl
@[simp] theorem Device.setTokens_ectxs (d : Device) (p c : Nat) (t : Int) : (d.setTokens p c t).ectxs = d.ectxs := rfl
@[simp] theorem Device.setTokens_buf (d : Device) (p c : Nat) (t : Int) : (d.setTokens p c t).buf = d.buf := rfl
@[simp] theorem Device.setTokens_ports (d : Device) (p c : Nat) (t : Int) : (d.setTokens p c t).ports = d.ports := rfl
@[simp] theorem Device.setTokens_quotes (d : Device) (p c : Nat) (t : Int) : (d.setTokens p c t).quotes = d.quotes := rfl
@[simp] theorem Device.setTokens_spread (d : Device) (p c : Nat) (t : Int) : (d.setTokens p c t).spread = d.spread := rfl
@[simp] theorem Device.setTokens_flow (d : Device) (p c : Nat) (t : Int) : (d.setTokens p c t).flow = d.flow := rfl
@[simp] theorem Device.setTokens_rstore (d : Device) (p c : Nat) (t : Int) : (d.setTokens p c t).rstore = d.rstore := rfl
@[simp] theorem Device.setTokens_scaf (d : Device) (p c : Nat) (t : Int) : (d.setTokens p c t).scaf = d.scaf := rfl
@[simp] theorem Device.setTokens_spans (d : Device) (p c : Nat) (t : Int) : (d.setTokens p c t).spans = d.spans := rfl
@[simp] theorem Device.setTokens_pwr (d : Device) (p c : Nat) (t : Int) : (d.setTokens p c t).pwr = d.pwr := rfl
@[simp] theorem Device.setTokens_jtag (d : Device) (p c : Nat) (t : Int) : (d.setTokens p c t).jtag = d.jtag := rfl
@[simp] theorem Device.setTokens_freeCtr (d : Device) (p c : Nat) (t : Int) : (d.setTokens p c t).freeCtr = d.freeCtr := rfl
@[simp] theorem Device.reg_setTokens (d : Device) (p c : Nat) (t : Int) (o' : Nat) : (d.setTokens p c t).reg o' = d.reg o' := rfl
@[simp] theorem Device.fld_setTokens (d : Device) (p c : Nat) (t : Int) (o' hi' lo' : Nat) : (d.setTokens p c t).fld o' hi' lo' = d.fld o' hi' lo' := rfl
@[simp] theorem Device.flag_setTokens (d : Device) (p c : Nat) (t : Int) (o' n' : Nat) : (d.setTokens p c t).flag o' n' = d.flag o' n' := rfl

/-! ### `setQuote` writes `quotes` alone -/

@[simp] theorem Device.setQuote_regs (d : Device) (q : Nat) (x : Quote) : (d.setQuote q x).regs = d.regs := rfl
@[simp] theorem Device.setQuote_hawk (d : Device) (q : Nat) (x : Quote) : (d.setQuote q x).hawk = d.hawk := rfl
@[simp] theorem Device.setQuote_fault (d : Device) (q : Nat) (x : Quote) : (d.setQuote q x).fault = d.fault := rfl
@[simp] theorem Device.setQuote_seats (d : Device) (q : Nat) (x : Quote) : (d.setQuote q x).seats = d.seats := rfl
@[simp] theorem Device.setQuote_perf (d : Device) (q : Nat) (x : Quote) : (d.setQuote q x).perf = d.perf := rfl
@[simp] theorem Device.setQuote_telem (d : Device) (q : Nat) (x : Quote) : (d.setQuote q x).telem = d.telem := rfl
@[simp] theorem Device.setQuote_plumb (d : Device) (q : Nat) (x : Quote) : (d.setQuote q x).plumb = d.plumb := rfl
@[simp] theorem Device.setQuote_coats (d : Device) (q : Nat) (x : Quote) : (d.setQuote q x).coats = d.coats := rfl
@[simp] theorem Device.setQuote_pipes (d : Device) (q : Nat) (x : Quote) : (d.setQuote q x).pipes = d.pipes := rfl
@[simp] theorem Device.setQuote_ctxs (d : Device) (q : Nat) (x : Quote) : (d.setQuote q x).ctxs = d.ctxs := rfl
@[simp] theorem Device.setQuote_ectxs (d : Device) (q : Nat) (x : Quote) : (d.setQuote q x).ectxs = d.ectxs := rfl
@[simp] theorem Device.setQuote_buf (d : Device) (q : Nat) (x : Quote) : (d.setQuote q x).buf = d.buf := rfl
@[simp] theorem Device.setQuote_ports (d : Device) (q : Nat) (x : Quote) : (d.setQuote q x).ports = d.ports := rfl
@[simp] theorem Device.setQuote_scheds (d : Device) (q : Nat) (x : Quote) : (d.setQuote q x).scheds = d.scheds := rfl
@[simp] theorem Device.setQuote_spread (d : Device) (q : Nat) (x : Quote) : (d.setQuote q x).spread = d.spread := rfl
@[simp] theorem Device.setQuote_flow (d : Device) (q : Nat) (x : Quote) : (d.setQuote q x).flow = d.flow := rfl
@[simp] theorem Device.setQuote_rstore (d : Device) (q : Nat) (x : Quote) : (d.setQuote q x).rstore = d.rstore := rfl
@[simp] theorem Device.setQuote_scaf (d : Device) (q : Nat) (x : Quote) : (d.setQuote q x).scaf = d.scaf := rfl
@[simp] theorem Device.setQuote_spans (d : Device) (q : Nat) (x : Quote) : (d.setQuote q x).spans = d.spans := rfl
@[simp] theorem Device.setQuote_pwr (d : Device) (q : Nat) (x : Quote) : (d.setQuote q x).pwr = d.pwr := rfl
@[simp] theorem Device.setQuote_jtag (d : Device) (q : Nat) (x : Quote) : (d.setQuote q x).jtag = d.jtag := rfl
@[simp] theorem Device.setQuote_freeCtr (d : Device) (q : Nat) (x : Quote) : (d.setQuote q x).freeCtr = d.freeCtr := rfl
@[simp] theorem Device.reg_setQuote (d : Device) (q : Nat) (x : Quote) (o' : Nat) : (d.setQuote q x).reg o' = d.reg o' := rfl
@[simp] theorem Device.fld_setQuote (d : Device) (q : Nat) (x : Quote) (o' hi' lo' : Nat) : (d.setQuote q x).fld o' hi' lo' = d.fld o' hi' lo' := rfl
@[simp] theorem Device.flag_setQuote (d : Device) (q : Nat) (x : Quote) (o' n' : Nat) : (d.setQuote q x).flag o' n' = d.flag o' n' := rfl

/-! ### `modQuote` writes `quotes` alone -/

@[simp] theorem Device.modQuote_regs (d : Device) (q : Nat) (f : Quote → Quote) : (d.modQuote q f).regs = d.regs := rfl
@[simp] theorem Device.modQuote_hawk (d : Device) (q : Nat) (f : Quote → Quote) : (d.modQuote q f).hawk = d.hawk := rfl
@[simp] theorem Device.modQuote_fault (d : Device) (q : Nat) (f : Quote → Quote) : (d.modQuote q f).fault = d.fault := rfl
@[simp] theorem Device.modQuote_seats (d : Device) (q : Nat) (f : Quote → Quote) : (d.modQuote q f).seats = d.seats := rfl
@[simp] theorem Device.modQuote_perf (d : Device) (q : Nat) (f : Quote → Quote) : (d.modQuote q f).perf = d.perf := rfl
@[simp] theorem Device.modQuote_telem (d : Device) (q : Nat) (f : Quote → Quote) : (d.modQuote q f).telem = d.telem := rfl
@[simp] theorem Device.modQuote_plumb (d : Device) (q : Nat) (f : Quote → Quote) : (d.modQuote q f).plumb = d.plumb := rfl
@[simp] theorem Device.modQuote_coats (d : Device) (q : Nat) (f : Quote → Quote) : (d.modQuote q f).coats = d.coats := rfl
@[simp] theorem Device.modQuote_pipes (d : Device) (q : Nat) (f : Quote → Quote) : (d.modQuote q f).pipes = d.pipes := rfl
@[simp] theorem Device.modQuote_ctxs (d : Device) (q : Nat) (f : Quote → Quote) : (d.modQuote q f).ctxs = d.ctxs := rfl
@[simp] theorem Device.modQuote_ectxs (d : Device) (q : Nat) (f : Quote → Quote) : (d.modQuote q f).ectxs = d.ectxs := rfl
@[simp] theorem Device.modQuote_buf (d : Device) (q : Nat) (f : Quote → Quote) : (d.modQuote q f).buf = d.buf := rfl
@[simp] theorem Device.modQuote_ports (d : Device) (q : Nat) (f : Quote → Quote) : (d.modQuote q f).ports = d.ports := rfl
@[simp] theorem Device.modQuote_scheds (d : Device) (q : Nat) (f : Quote → Quote) : (d.modQuote q f).scheds = d.scheds := rfl
@[simp] theorem Device.modQuote_spread (d : Device) (q : Nat) (f : Quote → Quote) : (d.modQuote q f).spread = d.spread := rfl
@[simp] theorem Device.modQuote_flow (d : Device) (q : Nat) (f : Quote → Quote) : (d.modQuote q f).flow = d.flow := rfl
@[simp] theorem Device.modQuote_rstore (d : Device) (q : Nat) (f : Quote → Quote) : (d.modQuote q f).rstore = d.rstore := rfl
@[simp] theorem Device.modQuote_scaf (d : Device) (q : Nat) (f : Quote → Quote) : (d.modQuote q f).scaf = d.scaf := rfl
@[simp] theorem Device.modQuote_spans (d : Device) (q : Nat) (f : Quote → Quote) : (d.modQuote q f).spans = d.spans := rfl
@[simp] theorem Device.modQuote_pwr (d : Device) (q : Nat) (f : Quote → Quote) : (d.modQuote q f).pwr = d.pwr := rfl
@[simp] theorem Device.modQuote_jtag (d : Device) (q : Nat) (f : Quote → Quote) : (d.modQuote q f).jtag = d.jtag := rfl
@[simp] theorem Device.modQuote_freeCtr (d : Device) (q : Nat) (f : Quote → Quote) : (d.modQuote q f).freeCtr = d.freeCtr := rfl
@[simp] theorem Device.reg_modQuote (d : Device) (q : Nat) (f : Quote → Quote) (o' : Nat) : (d.modQuote q f).reg o' = d.reg o' := rfl
@[simp] theorem Device.fld_modQuote (d : Device) (q : Nat) (f : Quote → Quote) (o' hi' lo' : Nat) : (d.modQuote q f).fld o' hi' lo' = d.fld o' hi' lo' := rfl
@[simp] theorem Device.flag_modQuote (d : Device) (q : Nat) (f : Quote → Quote) (o' n' : Nat) : (d.modQuote q f).flag o' n' = d.flag o' n' := rfl

/-! ### `modGroup` writes `spread` alone -/

@[simp] theorem Device.modGroup_regs (d : Device) (g : Nat) (f : Group → Group) : (d.modGroup g f).regs = d.regs := rfl
@[simp] theorem Device.modGroup_hawk (d : Device) (g : Nat) (f : Group → Group) : (d.modGroup g f).hawk = d.hawk := rfl
@[simp] theorem Device.modGroup_fault (d : Device) (g : Nat) (f : Group → Group) : (d.modGroup g f).fault = d.fault := rfl
@[simp] theorem Device.modGroup_seats (d : Device) (g : Nat) (f : Group → Group) : (d.modGroup g f).seats = d.seats := rfl
@[simp] theorem Device.modGroup_perf (d : Device) (g : Nat) (f : Group → Group) : (d.modGroup g f).perf = d.perf := rfl
@[simp] theorem Device.modGroup_telem (d : Device) (g : Nat) (f : Group → Group) : (d.modGroup g f).telem = d.telem := rfl
@[simp] theorem Device.modGroup_plumb (d : Device) (g : Nat) (f : Group → Group) : (d.modGroup g f).plumb = d.plumb := rfl
@[simp] theorem Device.modGroup_coats (d : Device) (g : Nat) (f : Group → Group) : (d.modGroup g f).coats = d.coats := rfl
@[simp] theorem Device.modGroup_pipes (d : Device) (g : Nat) (f : Group → Group) : (d.modGroup g f).pipes = d.pipes := rfl
@[simp] theorem Device.modGroup_ctxs (d : Device) (g : Nat) (f : Group → Group) : (d.modGroup g f).ctxs = d.ctxs := rfl
@[simp] theorem Device.modGroup_ectxs (d : Device) (g : Nat) (f : Group → Group) : (d.modGroup g f).ectxs = d.ectxs := rfl
@[simp] theorem Device.modGroup_buf (d : Device) (g : Nat) (f : Group → Group) : (d.modGroup g f).buf = d.buf := rfl
@[simp] theorem Device.modGroup_ports (d : Device) (g : Nat) (f : Group → Group) : (d.modGroup g f).ports = d.ports := rfl
@[simp] theorem Device.modGroup_scheds (d : Device) (g : Nat) (f : Group → Group) : (d.modGroup g f).scheds = d.scheds := rfl
@[simp] theorem Device.modGroup_quotes (d : Device) (g : Nat) (f : Group → Group) : (d.modGroup g f).quotes = d.quotes := rfl
@[simp] theorem Device.modGroup_flow (d : Device) (g : Nat) (f : Group → Group) : (d.modGroup g f).flow = d.flow := rfl
@[simp] theorem Device.modGroup_rstore (d : Device) (g : Nat) (f : Group → Group) : (d.modGroup g f).rstore = d.rstore := rfl
@[simp] theorem Device.modGroup_scaf (d : Device) (g : Nat) (f : Group → Group) : (d.modGroup g f).scaf = d.scaf := rfl
@[simp] theorem Device.modGroup_spans (d : Device) (g : Nat) (f : Group → Group) : (d.modGroup g f).spans = d.spans := rfl
@[simp] theorem Device.modGroup_pwr (d : Device) (g : Nat) (f : Group → Group) : (d.modGroup g f).pwr = d.pwr := rfl
@[simp] theorem Device.modGroup_jtag (d : Device) (g : Nat) (f : Group → Group) : (d.modGroup g f).jtag = d.jtag := rfl
@[simp] theorem Device.modGroup_freeCtr (d : Device) (g : Nat) (f : Group → Group) : (d.modGroup g f).freeCtr = d.freeCtr := rfl
@[simp] theorem Device.reg_modGroup (d : Device) (g : Nat) (f : Group → Group) (o' : Nat) : (d.modGroup g f).reg o' = d.reg o' := rfl
@[simp] theorem Device.fld_modGroup (d : Device) (g : Nat) (f : Group → Group) (o' hi' lo' : Nat) : (d.modGroup g f).fld o' hi' lo' = d.fld o' hi' lo' := rfl
@[simp] theorem Device.flag_modGroup (d : Device) (g : Nat) (f : Group → Group) (o' n' : Nat) : (d.modGroup g f).flag o' n' = d.flag o' n' := rfl

/-! ### `setFloat` writes `spread` alone -/

@[simp] theorem Device.setFloat_regs (d : Device) (c : Nat) (x : FloatCtx) : (d.setFloat c x).regs = d.regs := rfl
@[simp] theorem Device.setFloat_hawk (d : Device) (c : Nat) (x : FloatCtx) : (d.setFloat c x).hawk = d.hawk := rfl
@[simp] theorem Device.setFloat_fault (d : Device) (c : Nat) (x : FloatCtx) : (d.setFloat c x).fault = d.fault := rfl
@[simp] theorem Device.setFloat_seats (d : Device) (c : Nat) (x : FloatCtx) : (d.setFloat c x).seats = d.seats := rfl
@[simp] theorem Device.setFloat_perf (d : Device) (c : Nat) (x : FloatCtx) : (d.setFloat c x).perf = d.perf := rfl
@[simp] theorem Device.setFloat_telem (d : Device) (c : Nat) (x : FloatCtx) : (d.setFloat c x).telem = d.telem := rfl
@[simp] theorem Device.setFloat_plumb (d : Device) (c : Nat) (x : FloatCtx) : (d.setFloat c x).plumb = d.plumb := rfl
@[simp] theorem Device.setFloat_coats (d : Device) (c : Nat) (x : FloatCtx) : (d.setFloat c x).coats = d.coats := rfl
@[simp] theorem Device.setFloat_pipes (d : Device) (c : Nat) (x : FloatCtx) : (d.setFloat c x).pipes = d.pipes := rfl
@[simp] theorem Device.setFloat_ctxs (d : Device) (c : Nat) (x : FloatCtx) : (d.setFloat c x).ctxs = d.ctxs := rfl
@[simp] theorem Device.setFloat_ectxs (d : Device) (c : Nat) (x : FloatCtx) : (d.setFloat c x).ectxs = d.ectxs := rfl
@[simp] theorem Device.setFloat_buf (d : Device) (c : Nat) (x : FloatCtx) : (d.setFloat c x).buf = d.buf := rfl
@[simp] theorem Device.setFloat_ports (d : Device) (c : Nat) (x : FloatCtx) : (d.setFloat c x).ports = d.ports := rfl
@[simp] theorem Device.setFloat_scheds (d : Device) (c : Nat) (x : FloatCtx) : (d.setFloat c x).scheds = d.scheds := rfl
@[simp] theorem Device.setFloat_quotes (d : Device) (c : Nat) (x : FloatCtx) : (d.setFloat c x).quotes = d.quotes := rfl
@[simp] theorem Device.setFloat_flow (d : Device) (c : Nat) (x : FloatCtx) : (d.setFloat c x).flow = d.flow := rfl
@[simp] theorem Device.setFloat_rstore (d : Device) (c : Nat) (x : FloatCtx) : (d.setFloat c x).rstore = d.rstore := rfl
@[simp] theorem Device.setFloat_scaf (d : Device) (c : Nat) (x : FloatCtx) : (d.setFloat c x).scaf = d.scaf := rfl
@[simp] theorem Device.setFloat_spans (d : Device) (c : Nat) (x : FloatCtx) : (d.setFloat c x).spans = d.spans := rfl
@[simp] theorem Device.setFloat_pwr (d : Device) (c : Nat) (x : FloatCtx) : (d.setFloat c x).pwr = d.pwr := rfl
@[simp] theorem Device.setFloat_jtag (d : Device) (c : Nat) (x : FloatCtx) : (d.setFloat c x).jtag = d.jtag := rfl
@[simp] theorem Device.setFloat_freeCtr (d : Device) (c : Nat) (x : FloatCtx) : (d.setFloat c x).freeCtr = d.freeCtr := rfl
@[simp] theorem Device.reg_setFloat (d : Device) (c : Nat) (x : FloatCtx) (o' : Nat) : (d.setFloat c x).reg o' = d.reg o' := rfl
@[simp] theorem Device.fld_setFloat (d : Device) (c : Nat) (x : FloatCtx) (o' hi' lo' : Nat) : (d.setFloat c x).fld o' hi' lo' = d.fld o' hi' lo' := rfl
@[simp] theorem Device.flag_setFloat (d : Device) (c : Nat) (x : FloatCtx) (o' n' : Nat) : (d.setFloat c x).flag o' n' = d.flag o' n' := rfl

/-! ### `modFlow` writes `flow` alone -/

@[simp] theorem Device.modFlow_regs (d : Device) (f : Flow → Flow) : (d.modFlow f).regs = d.regs := rfl
@[simp] theorem Device.modFlow_hawk (d : Device) (f : Flow → Flow) : (d.modFlow f).hawk = d.hawk := rfl
@[simp] theorem Device.modFlow_fault (d : Device) (f : Flow → Flow) : (d.modFlow f).fault = d.fault := rfl
@[simp] theorem Device.modFlow_seats (d : Device) (f : Flow → Flow) : (d.modFlow f).seats = d.seats := rfl
@[simp] theorem Device.modFlow_perf (d : Device) (f : Flow → Flow) : (d.modFlow f).perf = d.perf := rfl
@[simp] theorem Device.modFlow_telem (d : Device) (f : Flow → Flow) : (d.modFlow f).telem = d.telem := rfl
@[simp] theorem Device.modFlow_plumb (d : Device) (f : Flow → Flow) : (d.modFlow f).plumb = d.plumb := rfl
@[simp] theorem Device.modFlow_coats (d : Device) (f : Flow → Flow) : (d.modFlow f).coats = d.coats := rfl
@[simp] theorem Device.modFlow_pipes (d : Device) (f : Flow → Flow) : (d.modFlow f).pipes = d.pipes := rfl
@[simp] theorem Device.modFlow_ctxs (d : Device) (f : Flow → Flow) : (d.modFlow f).ctxs = d.ctxs := rfl
@[simp] theorem Device.modFlow_ectxs (d : Device) (f : Flow → Flow) : (d.modFlow f).ectxs = d.ectxs := rfl
@[simp] theorem Device.modFlow_buf (d : Device) (f : Flow → Flow) : (d.modFlow f).buf = d.buf := rfl
@[simp] theorem Device.modFlow_ports (d : Device) (f : Flow → Flow) : (d.modFlow f).ports = d.ports := rfl
@[simp] theorem Device.modFlow_scheds (d : Device) (f : Flow → Flow) : (d.modFlow f).scheds = d.scheds := rfl
@[simp] theorem Device.modFlow_quotes (d : Device) (f : Flow → Flow) : (d.modFlow f).quotes = d.quotes := rfl
@[simp] theorem Device.modFlow_spread (d : Device) (f : Flow → Flow) : (d.modFlow f).spread = d.spread := rfl
@[simp] theorem Device.modFlow_rstore (d : Device) (f : Flow → Flow) : (d.modFlow f).rstore = d.rstore := rfl
@[simp] theorem Device.modFlow_scaf (d : Device) (f : Flow → Flow) : (d.modFlow f).scaf = d.scaf := rfl
@[simp] theorem Device.modFlow_spans (d : Device) (f : Flow → Flow) : (d.modFlow f).spans = d.spans := rfl
@[simp] theorem Device.modFlow_pwr (d : Device) (f : Flow → Flow) : (d.modFlow f).pwr = d.pwr := rfl
@[simp] theorem Device.modFlow_jtag (d : Device) (f : Flow → Flow) : (d.modFlow f).jtag = d.jtag := rfl
@[simp] theorem Device.modFlow_freeCtr (d : Device) (f : Flow → Flow) : (d.modFlow f).freeCtr = d.freeCtr := rfl
@[simp] theorem Device.reg_modFlow (d : Device) (f : Flow → Flow) (o' : Nat) : (d.modFlow f).reg o' = d.reg o' := rfl
@[simp] theorem Device.fld_modFlow (d : Device) (f : Flow → Flow) (o' hi' lo' : Nat) : (d.modFlow f).fld o' hi' lo' = d.fld o' hi' lo' := rfl
@[simp] theorem Device.flag_modFlow (d : Device) (f : Flow → Flow) (o' n' : Nat) : (d.modFlow f).flag o' n' = d.flag o' n' := rfl
@[simp] theorem Device.modFlow_flow (d : Device) (f : Flow → Flow) : (d.modFlow f).flow = f d.flow := rfl

/-! ### `modRstore` writes `rstore` alone -/

@[simp] theorem Device.modRstore_regs (d : Device) (f : Rstore → Rstore) : (d.modRstore f).regs = d.regs := rfl
@[simp] theorem Device.modRstore_hawk (d : Device) (f : Rstore → Rstore) : (d.modRstore f).hawk = d.hawk := rfl
@[simp] theorem Device.modRstore_fault (d : Device) (f : Rstore → Rstore) : (d.modRstore f).fault = d.fault := rfl
@[simp] theorem Device.modRstore_seats (d : Device) (f : Rstore → Rstore) : (d.modRstore f).seats = d.seats := rfl
@[simp] theorem Device.modRstore_perf (d : Device) (f : Rstore → Rstore) : (d.modRstore f).perf = d.perf := rfl
@[simp] theorem Device.modRstore_telem (d : Device) (f : Rstore → Rstore) : (d.modRstore f).telem = d.telem := rfl
@[simp] theorem Device.modRstore_plumb (d : Device) (f : Rstore → Rstore) : (d.modRstore f).plumb = d.plumb := rfl
@[simp] theorem Device.modRstore_coats (d : Device) (f : Rstore → Rstore) : (d.modRstore f).coats = d.coats := rfl
@[simp] theorem Device.modRstore_pipes (d : Device) (f : Rstore → Rstore) : (d.modRstore f).pipes = d.pipes := rfl
@[simp] theorem Device.modRstore_ctxs (d : Device) (f : Rstore → Rstore) : (d.modRstore f).ctxs = d.ctxs := rfl
@[simp] theorem Device.modRstore_ectxs (d : Device) (f : Rstore → Rstore) : (d.modRstore f).ectxs = d.ectxs := rfl
@[simp] theorem Device.modRstore_buf (d : Device) (f : Rstore → Rstore) : (d.modRstore f).buf = d.buf := rfl
@[simp] theorem Device.modRstore_ports (d : Device) (f : Rstore → Rstore) : (d.modRstore f).ports = d.ports := rfl
@[simp] theorem Device.modRstore_scheds (d : Device) (f : Rstore → Rstore) : (d.modRstore f).scheds = d.scheds := rfl
@[simp] theorem Device.modRstore_quotes (d : Device) (f : Rstore → Rstore) : (d.modRstore f).quotes = d.quotes := rfl
@[simp] theorem Device.modRstore_spread (d : Device) (f : Rstore → Rstore) : (d.modRstore f).spread = d.spread := rfl
@[simp] theorem Device.modRstore_flow (d : Device) (f : Rstore → Rstore) : (d.modRstore f).flow = d.flow := rfl
@[simp] theorem Device.modRstore_scaf (d : Device) (f : Rstore → Rstore) : (d.modRstore f).scaf = d.scaf := rfl
@[simp] theorem Device.modRstore_spans (d : Device) (f : Rstore → Rstore) : (d.modRstore f).spans = d.spans := rfl
@[simp] theorem Device.modRstore_pwr (d : Device) (f : Rstore → Rstore) : (d.modRstore f).pwr = d.pwr := rfl
@[simp] theorem Device.modRstore_jtag (d : Device) (f : Rstore → Rstore) : (d.modRstore f).jtag = d.jtag := rfl
@[simp] theorem Device.modRstore_freeCtr (d : Device) (f : Rstore → Rstore) : (d.modRstore f).freeCtr = d.freeCtr := rfl
@[simp] theorem Device.reg_modRstore (d : Device) (f : Rstore → Rstore) (o' : Nat) : (d.modRstore f).reg o' = d.reg o' := rfl
@[simp] theorem Device.fld_modRstore (d : Device) (f : Rstore → Rstore) (o' hi' lo' : Nat) : (d.modRstore f).fld o' hi' lo' = d.fld o' hi' lo' := rfl
@[simp] theorem Device.flag_modRstore (d : Device) (f : Rstore → Rstore) (o' n' : Nat) : (d.modRstore f).flag o' n' = d.flag o' n' := rfl
@[simp] theorem Device.modRstore_rstore (d : Device) (f : Rstore → Rstore) : (d.modRstore f).rstore = f d.rstore := rfl

/-! ### `modRchan` writes `rstore` alone -/

@[simp] theorem Device.modRchan_regs (d : Device) (c : Nat) (f : RChan → RChan) : (d.modRchan c f).regs = d.regs := rfl
@[simp] theorem Device.modRchan_hawk (d : Device) (c : Nat) (f : RChan → RChan) : (d.modRchan c f).hawk = d.hawk := rfl
@[simp] theorem Device.modRchan_fault (d : Device) (c : Nat) (f : RChan → RChan) : (d.modRchan c f).fault = d.fault := rfl
@[simp] theorem Device.modRchan_seats (d : Device) (c : Nat) (f : RChan → RChan) : (d.modRchan c f).seats = d.seats := rfl
@[simp] theorem Device.modRchan_perf (d : Device) (c : Nat) (f : RChan → RChan) : (d.modRchan c f).perf = d.perf := rfl
@[simp] theorem Device.modRchan_telem (d : Device) (c : Nat) (f : RChan → RChan) : (d.modRchan c f).telem = d.telem := rfl
@[simp] theorem Device.modRchan_plumb (d : Device) (c : Nat) (f : RChan → RChan) : (d.modRchan c f).plumb = d.plumb := rfl
@[simp] theorem Device.modRchan_coats (d : Device) (c : Nat) (f : RChan → RChan) : (d.modRchan c f).coats = d.coats := rfl
@[simp] theorem Device.modRchan_pipes (d : Device) (c : Nat) (f : RChan → RChan) : (d.modRchan c f).pipes = d.pipes := rfl
@[simp] theorem Device.modRchan_ctxs (d : Device) (c : Nat) (f : RChan → RChan) : (d.modRchan c f).ctxs = d.ctxs := rfl
@[simp] theorem Device.modRchan_ectxs (d : Device) (c : Nat) (f : RChan → RChan) : (d.modRchan c f).ectxs = d.ectxs := rfl
@[simp] theorem Device.modRchan_buf (d : Device) (c : Nat) (f : RChan → RChan) : (d.modRchan c f).buf = d.buf := rfl
@[simp] theorem Device.modRchan_ports (d : Device) (c : Nat) (f : RChan → RChan) : (d.modRchan c f).ports = d.ports := rfl
@[simp] theorem Device.modRchan_scheds (d : Device) (c : Nat) (f : RChan → RChan) : (d.modRchan c f).scheds = d.scheds := rfl
@[simp] theorem Device.modRchan_quotes (d : Device) (c : Nat) (f : RChan → RChan) : (d.modRchan c f).quotes = d.quotes := rfl
@[simp] theorem Device.modRchan_spread (d : Device) (c : Nat) (f : RChan → RChan) : (d.modRchan c f).spread = d.spread := rfl
@[simp] theorem Device.modRchan_flow (d : Device) (c : Nat) (f : RChan → RChan) : (d.modRchan c f).flow = d.flow := rfl
@[simp] theorem Device.modRchan_scaf (d : Device) (c : Nat) (f : RChan → RChan) : (d.modRchan c f).scaf = d.scaf := rfl
@[simp] theorem Device.modRchan_spans (d : Device) (c : Nat) (f : RChan → RChan) : (d.modRchan c f).spans = d.spans := rfl
@[simp] theorem Device.modRchan_pwr (d : Device) (c : Nat) (f : RChan → RChan) : (d.modRchan c f).pwr = d.pwr := rfl
@[simp] theorem Device.modRchan_jtag (d : Device) (c : Nat) (f : RChan → RChan) : (d.modRchan c f).jtag = d.jtag := rfl
@[simp] theorem Device.modRchan_freeCtr (d : Device) (c : Nat) (f : RChan → RChan) : (d.modRchan c f).freeCtr = d.freeCtr := rfl
@[simp] theorem Device.reg_modRchan (d : Device) (c : Nat) (f : RChan → RChan) (o' : Nat) : (d.modRchan c f).reg o' = d.reg o' := rfl
@[simp] theorem Device.fld_modRchan (d : Device) (c : Nat) (f : RChan → RChan) (o' hi' lo' : Nat) : (d.modRchan c f).fld o' hi' lo' = d.fld o' hi' lo' := rfl
@[simp] theorem Device.flag_modRchan (d : Device) (c : Nat) (f : RChan → RChan) (o' n' : Nat) : (d.modRchan c f).flag o' n' = d.flag o' n' := rfl

/-! ### `modScaf` writes `scaf` alone -/

@[simp] theorem Device.modScaf_regs (d : Device) (f : Scaf → Scaf) : (d.modScaf f).regs = d.regs := rfl
@[simp] theorem Device.modScaf_hawk (d : Device) (f : Scaf → Scaf) : (d.modScaf f).hawk = d.hawk := rfl
@[simp] theorem Device.modScaf_fault (d : Device) (f : Scaf → Scaf) : (d.modScaf f).fault = d.fault := rfl
@[simp] theorem Device.modScaf_seats (d : Device) (f : Scaf → Scaf) : (d.modScaf f).seats = d.seats := rfl
@[simp] theorem Device.modScaf_perf (d : Device) (f : Scaf → Scaf) : (d.modScaf f).perf = d.perf := rfl
@[simp] theorem Device.modScaf_telem (d : Device) (f : Scaf → Scaf) : (d.modScaf f).telem = d.telem := rfl
@[simp] theorem Device.modScaf_plumb (d : Device) (f : Scaf → Scaf) : (d.modScaf f).plumb = d.plumb := rfl
@[simp] theorem Device.modScaf_coats (d : Device) (f : Scaf → Scaf) : (d.modScaf f).coats = d.coats := rfl
@[simp] theorem Device.modScaf_pipes (d : Device) (f : Scaf → Scaf) : (d.modScaf f).pipes = d.pipes := rfl
@[simp] theorem Device.modScaf_ctxs (d : Device) (f : Scaf → Scaf) : (d.modScaf f).ctxs = d.ctxs := rfl
@[simp] theorem Device.modScaf_ectxs (d : Device) (f : Scaf → Scaf) : (d.modScaf f).ectxs = d.ectxs := rfl
@[simp] theorem Device.modScaf_buf (d : Device) (f : Scaf → Scaf) : (d.modScaf f).buf = d.buf := rfl
@[simp] theorem Device.modScaf_ports (d : Device) (f : Scaf → Scaf) : (d.modScaf f).ports = d.ports := rfl
@[simp] theorem Device.modScaf_scheds (d : Device) (f : Scaf → Scaf) : (d.modScaf f).scheds = d.scheds := rfl
@[simp] theorem Device.modScaf_quotes (d : Device) (f : Scaf → Scaf) : (d.modScaf f).quotes = d.quotes := rfl
@[simp] theorem Device.modScaf_spread (d : Device) (f : Scaf → Scaf) : (d.modScaf f).spread = d.spread := rfl
@[simp] theorem Device.modScaf_flow (d : Device) (f : Scaf → Scaf) : (d.modScaf f).flow = d.flow := rfl
@[simp] theorem Device.modScaf_rstore (d : Device) (f : Scaf → Scaf) : (d.modScaf f).rstore = d.rstore := rfl
@[simp] theorem Device.modScaf_spans (d : Device) (f : Scaf → Scaf) : (d.modScaf f).spans = d.spans := rfl
@[simp] theorem Device.modScaf_pwr (d : Device) (f : Scaf → Scaf) : (d.modScaf f).pwr = d.pwr := rfl
@[simp] theorem Device.modScaf_jtag (d : Device) (f : Scaf → Scaf) : (d.modScaf f).jtag = d.jtag := rfl
@[simp] theorem Device.modScaf_freeCtr (d : Device) (f : Scaf → Scaf) : (d.modScaf f).freeCtr = d.freeCtr := rfl
@[simp] theorem Device.reg_modScaf (d : Device) (f : Scaf → Scaf) (o' : Nat) : (d.modScaf f).reg o' = d.reg o' := rfl
@[simp] theorem Device.fld_modScaf (d : Device) (f : Scaf → Scaf) (o' hi' lo' : Nat) : (d.modScaf f).fld o' hi' lo' = d.fld o' hi' lo' := rfl
@[simp] theorem Device.flag_modScaf (d : Device) (f : Scaf → Scaf) (o' n' : Nat) : (d.modScaf f).flag o' n' = d.flag o' n' := rfl
@[simp] theorem Device.modScaf_scaf (d : Device) (f : Scaf → Scaf) : (d.modScaf f).scaf = f d.scaf := rfl

/-! ### `setTask` writes `scaf` alone -/

@[simp] theorem Device.setTask_regs (d : Device) (id : Nat) (x : Task) : (d.setTask id x).regs = d.regs := rfl
@[simp] theorem Device.setTask_hawk (d : Device) (id : Nat) (x : Task) : (d.setTask id x).hawk = d.hawk := rfl
@[simp] theorem Device.setTask_fault (d : Device) (id : Nat) (x : Task) : (d.setTask id x).fault = d.fault := rfl
@[simp] theorem Device.setTask_seats (d : Device) (id : Nat) (x : Task) : (d.setTask id x).seats = d.seats := rfl
@[simp] theorem Device.setTask_perf (d : Device) (id : Nat) (x : Task) : (d.setTask id x).perf = d.perf := rfl
@[simp] theorem Device.setTask_telem (d : Device) (id : Nat) (x : Task) : (d.setTask id x).telem = d.telem := rfl
@[simp] theorem Device.setTask_plumb (d : Device) (id : Nat) (x : Task) : (d.setTask id x).plumb = d.plumb := rfl
@[simp] theorem Device.setTask_coats (d : Device) (id : Nat) (x : Task) : (d.setTask id x).coats = d.coats := rfl
@[simp] theorem Device.setTask_pipes (d : Device) (id : Nat) (x : Task) : (d.setTask id x).pipes = d.pipes := rfl
@[simp] theorem Device.setTask_ctxs (d : Device) (id : Nat) (x : Task) : (d.setTask id x).ctxs = d.ctxs := rfl
@[simp] theorem Device.setTask_ectxs (d : Device) (id : Nat) (x : Task) : (d.setTask id x).ectxs = d.ectxs := rfl
@[simp] theorem Device.setTask_buf (d : Device) (id : Nat) (x : Task) : (d.setTask id x).buf = d.buf := rfl
@[simp] theorem Device.setTask_ports (d : Device) (id : Nat) (x : Task) : (d.setTask id x).ports = d.ports := rfl
@[simp] theorem Device.setTask_scheds (d : Device) (id : Nat) (x : Task) : (d.setTask id x).scheds = d.scheds := rfl
@[simp] theorem Device.setTask_quotes (d : Device) (id : Nat) (x : Task) : (d.setTask id x).quotes = d.quotes := rfl
@[simp] theorem Device.setTask_spread (d : Device) (id : Nat) (x : Task) : (d.setTask id x).spread = d.spread := rfl
@[simp] theorem Device.setTask_flow (d : Device) (id : Nat) (x : Task) : (d.setTask id x).flow = d.flow := rfl
@[simp] theorem Device.setTask_rstore (d : Device) (id : Nat) (x : Task) : (d.setTask id x).rstore = d.rstore := rfl
@[simp] theorem Device.setTask_spans (d : Device) (id : Nat) (x : Task) : (d.setTask id x).spans = d.spans := rfl
@[simp] theorem Device.setTask_pwr (d : Device) (id : Nat) (x : Task) : (d.setTask id x).pwr = d.pwr := rfl
@[simp] theorem Device.setTask_jtag (d : Device) (id : Nat) (x : Task) : (d.setTask id x).jtag = d.jtag := rfl
@[simp] theorem Device.setTask_freeCtr (d : Device) (id : Nat) (x : Task) : (d.setTask id x).freeCtr = d.freeCtr := rfl
@[simp] theorem Device.reg_setTask (d : Device) (id : Nat) (x : Task) (o' : Nat) : (d.setTask id x).reg o' = d.reg o' := rfl
@[simp] theorem Device.fld_setTask (d : Device) (id : Nat) (x : Task) (o' hi' lo' : Nat) : (d.setTask id x).fld o' hi' lo' = d.fld o' hi' lo' := rfl
@[simp] theorem Device.flag_setTask (d : Device) (id : Nat) (x : Task) (o' n' : Nat) : (d.setTask id x).flag o' n' = d.flag o' n' := rfl

/-! ### `modTask` writes `scaf` alone -/

@[simp] theorem Device.modTask_regs (d : Device) (id : Nat) (f : Task → Task) : (d.modTask id f).regs = d.regs := rfl
@[simp] theorem Device.modTask_hawk (d : Device) (id : Nat) (f : Task → Task) : (d.modTask id f).hawk = d.hawk := rfl
@[simp] theorem Device.modTask_fault (d : Device) (id : Nat) (f : Task → Task) : (d.modTask id f).fault = d.fault := rfl
@[simp] theorem Device.modTask_seats (d : Device) (id : Nat) (f : Task → Task) : (d.modTask id f).seats = d.seats := rfl
@[simp] theorem Device.modTask_perf (d : Device) (id : Nat) (f : Task → Task) : (d.modTask id f).perf = d.perf := rfl
@[simp] theorem Device.modTask_telem (d : Device) (id : Nat) (f : Task → Task) : (d.modTask id f).telem = d.telem := rfl
@[simp] theorem Device.modTask_plumb (d : Device) (id : Nat) (f : Task → Task) : (d.modTask id f).plumb = d.plumb := rfl
@[simp] theorem Device.modTask_coats (d : Device) (id : Nat) (f : Task → Task) : (d.modTask id f).coats = d.coats := rfl
@[simp] theorem Device.modTask_pipes (d : Device) (id : Nat) (f : Task → Task) : (d.modTask id f).pipes = d.pipes := rfl
@[simp] theorem Device.modTask_ctxs (d : Device) (id : Nat) (f : Task → Task) : (d.modTask id f).ctxs = d.ctxs := rfl
@[simp] theorem Device.modTask_ectxs (d : Device) (id : Nat) (f : Task → Task) : (d.modTask id f).ectxs = d.ectxs := rfl
@[simp] theorem Device.modTask_buf (d : Device) (id : Nat) (f : Task → Task) : (d.modTask id f).buf = d.buf := rfl
@[simp] theorem Device.modTask_ports (d : Device) (id : Nat) (f : Task → Task) : (d.modTask id f).ports = d.ports := rfl
@[simp] theorem Device.modTask_scheds (d : Device) (id : Nat) (f : Task → Task) : (d.modTask id f).scheds = d.scheds := rfl
@[simp] theorem Device.modTask_quotes (d : Device) (id : Nat) (f : Task → Task) : (d.modTask id f).quotes = d.quotes := rfl
@[simp] theorem Device.modTask_spread (d : Device) (id : Nat) (f : Task → Task) : (d.modTask id f).spread = d.spread := rfl
@[simp] theorem Device.modTask_flow (d : Device) (id : Nat) (f : Task → Task) : (d.modTask id f).flow = d.flow := rfl
@[simp] theorem Device.modTask_rstore (d : Device) (id : Nat) (f : Task → Task) : (d.modTask id f).rstore = d.rstore := rfl
@[simp] theorem Device.modTask_spans (d : Device) (id : Nat) (f : Task → Task) : (d.modTask id f).spans = d.spans := rfl
@[simp] theorem Device.modTask_pwr (d : Device) (id : Nat) (f : Task → Task) : (d.modTask id f).pwr = d.pwr := rfl
@[simp] theorem Device.modTask_jtag (d : Device) (id : Nat) (f : Task → Task) : (d.modTask id f).jtag = d.jtag := rfl
@[simp] theorem Device.modTask_freeCtr (d : Device) (id : Nat) (f : Task → Task) : (d.modTask id f).freeCtr = d.freeCtr := rfl
@[simp] theorem Device.reg_modTask (d : Device) (id : Nat) (f : Task → Task) (o' : Nat) : (d.modTask id f).reg o' = d.reg o' := rfl
@[simp] theorem Device.fld_modTask (d : Device) (id : Nat) (f : Task → Task) (o' hi' lo' : Nat) : (d.modTask id f).fld o' hi' lo' = d.fld o' hi' lo' := rfl
@[simp] theorem Device.flag_modTask (d : Device) (id : Nat) (f : Task → Task) (o' n' : Nat) : (d.modTask id f).flag o' n' = d.flag o' n' := rfl

/-! ### `setThr` writes `scaf` alone -/

@[simp] theorem Device.setThr_regs (d : Device) (k : Nat) (x : Thread) : (d.setThr k x).regs = d.regs := rfl
@[simp] theorem Device.setThr_hawk (d : Device) (k : Nat) (x : Thread) : (d.setThr k x).hawk = d.hawk := rfl
@[simp] theorem Device.setThr_fault (d : Device) (k : Nat) (x : Thread) : (d.setThr k x).fault = d.fault := rfl
@[simp] theorem Device.setThr_seats (d : Device) (k : Nat) (x : Thread) : (d.setThr k x).seats = d.seats := rfl
@[simp] theorem Device.setThr_perf (d : Device) (k : Nat) (x : Thread) : (d.setThr k x).perf = d.perf := rfl
@[simp] theorem Device.setThr_telem (d : Device) (k : Nat) (x : Thread) : (d.setThr k x).telem = d.telem := rfl
@[simp] theorem Device.setThr_plumb (d : Device) (k : Nat) (x : Thread) : (d.setThr k x).plumb = d.plumb := rfl
@[simp] theorem Device.setThr_coats (d : Device) (k : Nat) (x : Thread) : (d.setThr k x).coats = d.coats := rfl
@[simp] theorem Device.setThr_pipes (d : Device) (k : Nat) (x : Thread) : (d.setThr k x).pipes = d.pipes := rfl
@[simp] theorem Device.setThr_ctxs (d : Device) (k : Nat) (x : Thread) : (d.setThr k x).ctxs = d.ctxs := rfl
@[simp] theorem Device.setThr_ectxs (d : Device) (k : Nat) (x : Thread) : (d.setThr k x).ectxs = d.ectxs := rfl
@[simp] theorem Device.setThr_buf (d : Device) (k : Nat) (x : Thread) : (d.setThr k x).buf = d.buf := rfl
@[simp] theorem Device.setThr_ports (d : Device) (k : Nat) (x : Thread) : (d.setThr k x).ports = d.ports := rfl
@[simp] theorem Device.setThr_scheds (d : Device) (k : Nat) (x : Thread) : (d.setThr k x).scheds = d.scheds := rfl
@[simp] theorem Device.setThr_quotes (d : Device) (k : Nat) (x : Thread) : (d.setThr k x).quotes = d.quotes := rfl
@[simp] theorem Device.setThr_spread (d : Device) (k : Nat) (x : Thread) : (d.setThr k x).spread = d.spread := rfl
@[simp] theorem Device.setThr_flow (d : Device) (k : Nat) (x : Thread) : (d.setThr k x).flow = d.flow := rfl
@[simp] theorem Device.setThr_rstore (d : Device) (k : Nat) (x : Thread) : (d.setThr k x).rstore = d.rstore := rfl
@[simp] theorem Device.setThr_spans (d : Device) (k : Nat) (x : Thread) : (d.setThr k x).spans = d.spans := rfl
@[simp] theorem Device.setThr_pwr (d : Device) (k : Nat) (x : Thread) : (d.setThr k x).pwr = d.pwr := rfl
@[simp] theorem Device.setThr_jtag (d : Device) (k : Nat) (x : Thread) : (d.setThr k x).jtag = d.jtag := rfl
@[simp] theorem Device.setThr_freeCtr (d : Device) (k : Nat) (x : Thread) : (d.setThr k x).freeCtr = d.freeCtr := rfl
@[simp] theorem Device.reg_setThr (d : Device) (k : Nat) (x : Thread) (o' : Nat) : (d.setThr k x).reg o' = d.reg o' := rfl
@[simp] theorem Device.fld_setThr (d : Device) (k : Nat) (x : Thread) (o' hi' lo' : Nat) : (d.setThr k x).fld o' hi' lo' = d.fld o' hi' lo' := rfl
@[simp] theorem Device.flag_setThr (d : Device) (k : Nat) (x : Thread) (o' n' : Nat) : (d.setThr k x).flag o' n' = d.flag o' n' := rfl

/-! ### `setSram` writes `scaf` alone -/

@[simp] theorem Device.setSram_regs (d : Device) (a : Nat) (bs : List Byte) : (d.setSram a bs).regs = d.regs := rfl
@[simp] theorem Device.setSram_hawk (d : Device) (a : Nat) (bs : List Byte) : (d.setSram a bs).hawk = d.hawk := rfl
@[simp] theorem Device.setSram_fault (d : Device) (a : Nat) (bs : List Byte) : (d.setSram a bs).fault = d.fault := rfl
@[simp] theorem Device.setSram_seats (d : Device) (a : Nat) (bs : List Byte) : (d.setSram a bs).seats = d.seats := rfl
@[simp] theorem Device.setSram_perf (d : Device) (a : Nat) (bs : List Byte) : (d.setSram a bs).perf = d.perf := rfl
@[simp] theorem Device.setSram_telem (d : Device) (a : Nat) (bs : List Byte) : (d.setSram a bs).telem = d.telem := rfl
@[simp] theorem Device.setSram_plumb (d : Device) (a : Nat) (bs : List Byte) : (d.setSram a bs).plumb = d.plumb := rfl
@[simp] theorem Device.setSram_coats (d : Device) (a : Nat) (bs : List Byte) : (d.setSram a bs).coats = d.coats := rfl
@[simp] theorem Device.setSram_pipes (d : Device) (a : Nat) (bs : List Byte) : (d.setSram a bs).pipes = d.pipes := rfl
@[simp] theorem Device.setSram_ctxs (d : Device) (a : Nat) (bs : List Byte) : (d.setSram a bs).ctxs = d.ctxs := rfl
@[simp] theorem Device.setSram_ectxs (d : Device) (a : Nat) (bs : List Byte) : (d.setSram a bs).ectxs = d.ectxs := rfl
@[simp] theorem Device.setSram_buf (d : Device) (a : Nat) (bs : List Byte) : (d.setSram a bs).buf = d.buf := rfl
@[simp] theorem Device.setSram_ports (d : Device) (a : Nat) (bs : List Byte) : (d.setSram a bs).ports = d.ports := rfl
@[simp] theorem Device.setSram_scheds (d : Device) (a : Nat) (bs : List Byte) : (d.setSram a bs).scheds = d.scheds := rfl
@[simp] theorem Device.setSram_quotes (d : Device) (a : Nat) (bs : List Byte) : (d.setSram a bs).quotes = d.quotes := rfl
@[simp] theorem Device.setSram_spread (d : Device) (a : Nat) (bs : List Byte) : (d.setSram a bs).spread = d.spread := rfl
@[simp] theorem Device.setSram_flow (d : Device) (a : Nat) (bs : List Byte) : (d.setSram a bs).flow = d.flow := rfl
@[simp] theorem Device.setSram_rstore (d : Device) (a : Nat) (bs : List Byte) : (d.setSram a bs).rstore = d.rstore := rfl
@[simp] theorem Device.setSram_spans (d : Device) (a : Nat) (bs : List Byte) : (d.setSram a bs).spans = d.spans := rfl
@[simp] theorem Device.setSram_pwr (d : Device) (a : Nat) (bs : List Byte) : (d.setSram a bs).pwr = d.pwr := rfl
@[simp] theorem Device.setSram_jtag (d : Device) (a : Nat) (bs : List Byte) : (d.setSram a bs).jtag = d.jtag := rfl
@[simp] theorem Device.setSram_freeCtr (d : Device) (a : Nat) (bs : List Byte) : (d.setSram a bs).freeCtr = d.freeCtr := rfl
@[simp] theorem Device.reg_setSram (d : Device) (a : Nat) (bs : List Byte) (o' : Nat) : (d.setSram a bs).reg o' = d.reg o' := rfl
@[simp] theorem Device.fld_setSram (d : Device) (a : Nat) (bs : List Byte) (o' hi' lo' : Nat) : (d.setSram a bs).fld o' hi' lo' = d.fld o' hi' lo' := rfl
@[simp] theorem Device.flag_setSram (d : Device) (a : Nat) (bs : List Byte) (o' n' : Nat) : (d.setSram a bs).flag o' n' = d.flag o' n' := rfl

/-! ### `modSpan` writes `spans` alone -/

@[simp] theorem Device.modSpan_regs (d : Device) (s : Nat) (f : Span → Span) : (d.modSpan s f).regs = d.regs := rfl
@[simp] theorem Device.modSpan_hawk (d : Device) (s : Nat) (f : Span → Span) : (d.modSpan s f).hawk = d.hawk := rfl
@[simp] theorem Device.modSpan_fault (d : Device) (s : Nat) (f : Span → Span) : (d.modSpan s f).fault = d.fault := rfl
@[simp] theorem Device.modSpan_seats (d : Device) (s : Nat) (f : Span → Span) : (d.modSpan s f).seats = d.seats := rfl
@[simp] theorem Device.modSpan_perf (d : Device) (s : Nat) (f : Span → Span) : (d.modSpan s f).perf = d.perf := rfl
@[simp] theorem Device.modSpan_telem (d : Device) (s : Nat) (f : Span → Span) : (d.modSpan s f).telem = d.telem := rfl
@[simp] theorem Device.modSpan_plumb (d : Device) (s : Nat) (f : Span → Span) : (d.modSpan s f).plumb = d.plumb := rfl
@[simp] theorem Device.modSpan_coats (d : Device) (s : Nat) (f : Span → Span) : (d.modSpan s f).coats = d.coats := rfl
@[simp] theorem Device.modSpan_pipes (d : Device) (s : Nat) (f : Span → Span) : (d.modSpan s f).pipes = d.pipes := rfl
@[simp] theorem Device.modSpan_ctxs (d : Device) (s : Nat) (f : Span → Span) : (d.modSpan s f).ctxs = d.ctxs := rfl
@[simp] theorem Device.modSpan_ectxs (d : Device) (s : Nat) (f : Span → Span) : (d.modSpan s f).ectxs = d.ectxs := rfl
@[simp] theorem Device.modSpan_buf (d : Device) (s : Nat) (f : Span → Span) : (d.modSpan s f).buf = d.buf := rfl
@[simp] theorem Device.modSpan_ports (d : Device) (s : Nat) (f : Span → Span) : (d.modSpan s f).ports = d.ports := rfl
@[simp] theorem Device.modSpan_scheds (d : Device) (s : Nat) (f : Span → Span) : (d.modSpan s f).scheds = d.scheds := rfl
@[simp] theorem Device.modSpan_quotes (d : Device) (s : Nat) (f : Span → Span) : (d.modSpan s f).quotes = d.quotes := rfl
@[simp] theorem Device.modSpan_spread (d : Device) (s : Nat) (f : Span → Span) : (d.modSpan s f).spread = d.spread := rfl
@[simp] theorem Device.modSpan_flow (d : Device) (s : Nat) (f : Span → Span) : (d.modSpan s f).flow = d.flow := rfl
@[simp] theorem Device.modSpan_rstore (d : Device) (s : Nat) (f : Span → Span) : (d.modSpan s f).rstore = d.rstore := rfl
@[simp] theorem Device.modSpan_scaf (d : Device) (s : Nat) (f : Span → Span) : (d.modSpan s f).scaf = d.scaf := rfl
@[simp] theorem Device.modSpan_pwr (d : Device) (s : Nat) (f : Span → Span) : (d.modSpan s f).pwr = d.pwr := rfl
@[simp] theorem Device.modSpan_jtag (d : Device) (s : Nat) (f : Span → Span) : (d.modSpan s f).jtag = d.jtag := rfl
@[simp] theorem Device.modSpan_freeCtr (d : Device) (s : Nat) (f : Span → Span) : (d.modSpan s f).freeCtr = d.freeCtr := rfl
@[simp] theorem Device.reg_modSpan (d : Device) (s : Nat) (f : Span → Span) (o' : Nat) : (d.modSpan s f).reg o' = d.reg o' := rfl
@[simp] theorem Device.fld_modSpan (d : Device) (s : Nat) (f : Span → Span) (o' hi' lo' : Nat) : (d.modSpan s f).fld o' hi' lo' = d.fld o' hi' lo' := rfl
@[simp] theorem Device.flag_modSpan (d : Device) (s : Nat) (f : Span → Span) (o' n' : Nat) : (d.modSpan s f).flag o' n' = d.flag o' n' := rfl

/-! ### `setSeat` writes `seats` alone -/

@[simp] theorem Device.setSeat_regs (d : Device) (s : Nat) (x : Seat) : (d.setSeat s x).regs = d.regs := rfl
@[simp] theorem Device.setSeat_hawk (d : Device) (s : Nat) (x : Seat) : (d.setSeat s x).hawk = d.hawk := rfl
@[simp] theorem Device.setSeat_fault (d : Device) (s : Nat) (x : Seat) : (d.setSeat s x).fault = d.fault := rfl
@[simp] theorem Device.setSeat_perf (d : Device) (s : Nat) (x : Seat) : (d.setSeat s x).perf = d.perf := rfl
@[simp] theorem Device.setSeat_telem (d : Device) (s : Nat) (x : Seat) : (d.setSeat s x).telem = d.telem := rfl
@[simp] theorem Device.setSeat_plumb (d : Device) (s : Nat) (x : Seat) : (d.setSeat s x).plumb = d.plumb := rfl
@[simp] theorem Device.setSeat_coats (d : Device) (s : Nat) (x : Seat) : (d.setSeat s x).coats = d.coats := rfl
@[simp] theorem Device.setSeat_pipes (d : Device) (s : Nat) (x : Seat) : (d.setSeat s x).pipes = d.pipes := rfl
@[simp] theorem Device.setSeat_ctxs (d : Device) (s : Nat) (x : Seat) : (d.setSeat s x).ctxs = d.ctxs := rfl
@[simp] theorem Device.setSeat_ectxs (d : Device) (s : Nat) (x : Seat) : (d.setSeat s x).ectxs = d.ectxs := rfl
@[simp] theorem Device.setSeat_buf (d : Device) (s : Nat) (x : Seat) : (d.setSeat s x).buf = d.buf := rfl
@[simp] theorem Device.setSeat_ports (d : Device) (s : Nat) (x : Seat) : (d.setSeat s x).ports = d.ports := rfl
@[simp] theorem Device.setSeat_scheds (d : Device) (s : Nat) (x : Seat) : (d.setSeat s x).scheds = d.scheds := rfl
@[simp] theorem Device.setSeat_quotes (d : Device) (s : Nat) (x : Seat) : (d.setSeat s x).quotes = d.quotes := rfl
@[simp] theorem Device.setSeat_spread (d : Device) (s : Nat) (x : Seat) : (d.setSeat s x).spread = d.spread := rfl
@[simp] theorem Device.setSeat_flow (d : Device) (s : Nat) (x : Seat) : (d.setSeat s x).flow = d.flow := rfl
@[simp] theorem Device.setSeat_rstore (d : Device) (s : Nat) (x : Seat) : (d.setSeat s x).rstore = d.rstore := rfl
@[simp] theorem Device.setSeat_scaf (d : Device) (s : Nat) (x : Seat) : (d.setSeat s x).scaf = d.scaf := rfl
@[simp] theorem Device.setSeat_spans (d : Device) (s : Nat) (x : Seat) : (d.setSeat s x).spans = d.spans := rfl
@[simp] theorem Device.setSeat_pwr (d : Device) (s : Nat) (x : Seat) : (d.setSeat s x).pwr = d.pwr := rfl
@[simp] theorem Device.setSeat_jtag (d : Device) (s : Nat) (x : Seat) : (d.setSeat s x).jtag = d.jtag := rfl
@[simp] theorem Device.setSeat_freeCtr (d : Device) (s : Nat) (x : Seat) : (d.setSeat s x).freeCtr = d.freeCtr := rfl
@[simp] theorem Device.reg_setSeat (d : Device) (s : Nat) (x : Seat) (o' : Nat) : (d.setSeat s x).reg o' = d.reg o' := rfl
@[simp] theorem Device.fld_setSeat (d : Device) (s : Nat) (x : Seat) (o' hi' lo' : Nat) : (d.setSeat s x).fld o' hi' lo' = d.fld o' hi' lo' := rfl
@[simp] theorem Device.flag_setSeat (d : Device) (s : Nat) (x : Seat) (o' n' : Nat) : (d.setSeat s x).flag o' n' = d.flag o' n' := rfl

/-! ### `modSeat` writes `seats` alone -/

@[simp] theorem Device.modSeat_regs (d : Device) (s : Nat) (f : Seat → Seat) : (d.modSeat s f).regs = d.regs := rfl
@[simp] theorem Device.modSeat_hawk (d : Device) (s : Nat) (f : Seat → Seat) : (d.modSeat s f).hawk = d.hawk := rfl
@[simp] theorem Device.modSeat_fault (d : Device) (s : Nat) (f : Seat → Seat) : (d.modSeat s f).fault = d.fault := rfl
@[simp] theorem Device.modSeat_perf (d : Device) (s : Nat) (f : Seat → Seat) : (d.modSeat s f).perf = d.perf := rfl
@[simp] theorem Device.modSeat_telem (d : Device) (s : Nat) (f : Seat → Seat) : (d.modSeat s f).telem = d.telem := rfl
@[simp] theorem Device.modSeat_plumb (d : Device) (s : Nat) (f : Seat → Seat) : (d.modSeat s f).plumb = d.plumb := rfl
@[simp] theorem Device.modSeat_coats (d : Device) (s : Nat) (f : Seat → Seat) : (d.modSeat s f).coats = d.coats := rfl
@[simp] theorem Device.modSeat_pipes (d : Device) (s : Nat) (f : Seat → Seat) : (d.modSeat s f).pipes = d.pipes := rfl
@[simp] theorem Device.modSeat_ctxs (d : Device) (s : Nat) (f : Seat → Seat) : (d.modSeat s f).ctxs = d.ctxs := rfl
@[simp] theorem Device.modSeat_ectxs (d : Device) (s : Nat) (f : Seat → Seat) : (d.modSeat s f).ectxs = d.ectxs := rfl
@[simp] theorem Device.modSeat_buf (d : Device) (s : Nat) (f : Seat → Seat) : (d.modSeat s f).buf = d.buf := rfl
@[simp] theorem Device.modSeat_ports (d : Device) (s : Nat) (f : Seat → Seat) : (d.modSeat s f).ports = d.ports := rfl
@[simp] theorem Device.modSeat_scheds (d : Device) (s : Nat) (f : Seat → Seat) : (d.modSeat s f).scheds = d.scheds := rfl
@[simp] theorem Device.modSeat_quotes (d : Device) (s : Nat) (f : Seat → Seat) : (d.modSeat s f).quotes = d.quotes := rfl
@[simp] theorem Device.modSeat_spread (d : Device) (s : Nat) (f : Seat → Seat) : (d.modSeat s f).spread = d.spread := rfl
@[simp] theorem Device.modSeat_flow (d : Device) (s : Nat) (f : Seat → Seat) : (d.modSeat s f).flow = d.flow := rfl
@[simp] theorem Device.modSeat_rstore (d : Device) (s : Nat) (f : Seat → Seat) : (d.modSeat s f).rstore = d.rstore := rfl
@[simp] theorem Device.modSeat_scaf (d : Device) (s : Nat) (f : Seat → Seat) : (d.modSeat s f).scaf = d.scaf := rfl
@[simp] theorem Device.modSeat_spans (d : Device) (s : Nat) (f : Seat → Seat) : (d.modSeat s f).spans = d.spans := rfl
@[simp] theorem Device.modSeat_pwr (d : Device) (s : Nat) (f : Seat → Seat) : (d.modSeat s f).pwr = d.pwr := rfl
@[simp] theorem Device.modSeat_jtag (d : Device) (s : Nat) (f : Seat → Seat) : (d.modSeat s f).jtag = d.jtag := rfl
@[simp] theorem Device.modSeat_freeCtr (d : Device) (s : Nat) (f : Seat → Seat) : (d.modSeat s f).freeCtr = d.freeCtr := rfl
@[simp] theorem Device.reg_modSeat (d : Device) (s : Nat) (f : Seat → Seat) (o' : Nat) : (d.modSeat s f).reg o' = d.reg o' := rfl
@[simp] theorem Device.fld_modSeat (d : Device) (s : Nat) (f : Seat → Seat) (o' hi' lo' : Nat) : (d.modSeat s f).fld o' hi' lo' = d.fld o' hi' lo' := rfl
@[simp] theorem Device.flag_modSeat (d : Device) (s : Nat) (f : Seat → Seat) (o' n' : Nat) : (d.modSeat s f).flag o' n' = d.flag o' n' := rfl

/-! ### `modNring` writes `seats` alone -/

@[simp] theorem Device.modNring_regs (d : Device) (s r : Nat) (f : NoticeRing → NoticeRing) : (d.modNring s r f).regs = d.regs := rfl
@[simp] theorem Device.modNring_hawk (d : Device) (s r : Nat) (f : NoticeRing → NoticeRing) : (d.modNring s r f).hawk = d.hawk := rfl
@[simp] theorem Device.modNring_fault (d : Device) (s r : Nat) (f : NoticeRing → NoticeRing) : (d.modNring s r f).fault = d.fault := rfl
@[simp] theorem Device.modNring_perf (d : Device) (s r : Nat) (f : NoticeRing → NoticeRing) : (d.modNring s r f).perf = d.perf := rfl
@[simp] theorem Device.modNring_telem (d : Device) (s r : Nat) (f : NoticeRing → NoticeRing) : (d.modNring s r f).telem = d.telem := rfl
@[simp] theorem Device.modNring_plumb (d : Device) (s r : Nat) (f : NoticeRing → NoticeRing) : (d.modNring s r f).plumb = d.plumb := rfl
@[simp] theorem Device.modNring_coats (d : Device) (s r : Nat) (f : NoticeRing → NoticeRing) : (d.modNring s r f).coats = d.coats := rfl
@[simp] theorem Device.modNring_pipes (d : Device) (s r : Nat) (f : NoticeRing → NoticeRing) : (d.modNring s r f).pipes = d.pipes := rfl
@[simp] theorem Device.modNring_ctxs (d : Device) (s r : Nat) (f : NoticeRing → NoticeRing) : (d.modNring s r f).ctxs = d.ctxs := rfl
@[simp] theorem Device.modNring_ectxs (d : Device) (s r : Nat) (f : NoticeRing → NoticeRing) : (d.modNring s r f).ectxs = d.ectxs := rfl
@[simp] theorem Device.modNring_buf (d : Device) (s r : Nat) (f : NoticeRing → NoticeRing) : (d.modNring s r f).buf = d.buf := rfl
@[simp] theorem Device.modNring_ports (d : Device) (s r : Nat) (f : NoticeRing → NoticeRing) : (d.modNring s r f).ports = d.ports := rfl
@[simp] theorem Device.modNring_scheds (d : Device) (s r : Nat) (f : NoticeRing → NoticeRing) : (d.modNring s r f).scheds = d.scheds := rfl
@[simp] theorem Device.modNring_quotes (d : Device) (s r : Nat) (f : NoticeRing → NoticeRing) : (d.modNring s r f).quotes = d.quotes := rfl
@[simp] theorem Device.modNring_spread (d : Device) (s r : Nat) (f : NoticeRing → NoticeRing) : (d.modNring s r f).spread = d.spread := rfl
@[simp] theorem Device.modNring_flow (d : Device) (s r : Nat) (f : NoticeRing → NoticeRing) : (d.modNring s r f).flow = d.flow := rfl
@[simp] theorem Device.modNring_rstore (d : Device) (s r : Nat) (f : NoticeRing → NoticeRing) : (d.modNring s r f).rstore = d.rstore := rfl
@[simp] theorem Device.modNring_scaf (d : Device) (s r : Nat) (f : NoticeRing → NoticeRing) : (d.modNring s r f).scaf = d.scaf := rfl
@[simp] theorem Device.modNring_spans (d : Device) (s r : Nat) (f : NoticeRing → NoticeRing) : (d.modNring s r f).spans = d.spans := rfl
@[simp] theorem Device.modNring_pwr (d : Device) (s r : Nat) (f : NoticeRing → NoticeRing) : (d.modNring s r f).pwr = d.pwr := rfl
@[simp] theorem Device.modNring_jtag (d : Device) (s r : Nat) (f : NoticeRing → NoticeRing) : (d.modNring s r f).jtag = d.jtag := rfl
@[simp] theorem Device.modNring_freeCtr (d : Device) (s r : Nat) (f : NoticeRing → NoticeRing) : (d.modNring s r f).freeCtr = d.freeCtr := rfl
@[simp] theorem Device.reg_modNring (d : Device) (s r : Nat) (f : NoticeRing → NoticeRing) (o' : Nat) : (d.modNring s r f).reg o' = d.reg o' := rfl
@[simp] theorem Device.fld_modNring (d : Device) (s r : Nat) (f : NoticeRing → NoticeRing) (o' hi' lo' : Nat) : (d.modNring s r f).fld o' hi' lo' = d.fld o' hi' lo' := rfl
@[simp] theorem Device.flag_modNring (d : Device) (s r : Nat) (f : NoticeRing → NoticeRing) (o' n' : Nat) : (d.modNring s r f).flag o' n' = d.flag o' n' := rfl

/-! ### `modCring` writes `seats` alone -/

@[simp] theorem Device.modCring_regs (d : Device) (s r : Nat) (f : CmdRing → CmdRing) : (d.modCring s r f).regs = d.regs := rfl
@[simp] theorem Device.modCring_hawk (d : Device) (s r : Nat) (f : CmdRing → CmdRing) : (d.modCring s r f).hawk = d.hawk := rfl
@[simp] theorem Device.modCring_fault (d : Device) (s r : Nat) (f : CmdRing → CmdRing) : (d.modCring s r f).fault = d.fault := rfl
@[simp] theorem Device.modCring_perf (d : Device) (s r : Nat) (f : CmdRing → CmdRing) : (d.modCring s r f).perf = d.perf := rfl
@[simp] theorem Device.modCring_telem (d : Device) (s r : Nat) (f : CmdRing → CmdRing) : (d.modCring s r f).telem = d.telem := rfl
@[simp] theorem Device.modCring_plumb (d : Device) (s r : Nat) (f : CmdRing → CmdRing) : (d.modCring s r f).plumb = d.plumb := rfl
@[simp] theorem Device.modCring_coats (d : Device) (s r : Nat) (f : CmdRing → CmdRing) : (d.modCring s r f).coats = d.coats := rfl
@[simp] theorem Device.modCring_pipes (d : Device) (s r : Nat) (f : CmdRing → CmdRing) : (d.modCring s r f).pipes = d.pipes := rfl
@[simp] theorem Device.modCring_ctxs (d : Device) (s r : Nat) (f : CmdRing → CmdRing) : (d.modCring s r f).ctxs = d.ctxs := rfl
@[simp] theorem Device.modCring_ectxs (d : Device) (s r : Nat) (f : CmdRing → CmdRing) : (d.modCring s r f).ectxs = d.ectxs := rfl
@[simp] theorem Device.modCring_buf (d : Device) (s r : Nat) (f : CmdRing → CmdRing) : (d.modCring s r f).buf = d.buf := rfl
@[simp] theorem Device.modCring_ports (d : Device) (s r : Nat) (f : CmdRing → CmdRing) : (d.modCring s r f).ports = d.ports := rfl
@[simp] theorem Device.modCring_scheds (d : Device) (s r : Nat) (f : CmdRing → CmdRing) : (d.modCring s r f).scheds = d.scheds := rfl
@[simp] theorem Device.modCring_quotes (d : Device) (s r : Nat) (f : CmdRing → CmdRing) : (d.modCring s r f).quotes = d.quotes := rfl
@[simp] theorem Device.modCring_spread (d : Device) (s r : Nat) (f : CmdRing → CmdRing) : (d.modCring s r f).spread = d.spread := rfl
@[simp] theorem Device.modCring_flow (d : Device) (s r : Nat) (f : CmdRing → CmdRing) : (d.modCring s r f).flow = d.flow := rfl
@[simp] theorem Device.modCring_rstore (d : Device) (s r : Nat) (f : CmdRing → CmdRing) : (d.modCring s r f).rstore = d.rstore := rfl
@[simp] theorem Device.modCring_scaf (d : Device) (s r : Nat) (f : CmdRing → CmdRing) : (d.modCring s r f).scaf = d.scaf := rfl
@[simp] theorem Device.modCring_spans (d : Device) (s r : Nat) (f : CmdRing → CmdRing) : (d.modCring s r f).spans = d.spans := rfl
@[simp] theorem Device.modCring_pwr (d : Device) (s r : Nat) (f : CmdRing → CmdRing) : (d.modCring s r f).pwr = d.pwr := rfl
@[simp] theorem Device.modCring_jtag (d : Device) (s r : Nat) (f : CmdRing → CmdRing) : (d.modCring s r f).jtag = d.jtag := rfl
@[simp] theorem Device.modCring_freeCtr (d : Device) (s r : Nat) (f : CmdRing → CmdRing) : (d.modCring s r f).freeCtr = d.freeCtr := rfl
@[simp] theorem Device.reg_modCring (d : Device) (s r : Nat) (f : CmdRing → CmdRing) (o' : Nat) : (d.modCring s r f).reg o' = d.reg o' := rfl
@[simp] theorem Device.fld_modCring (d : Device) (s r : Nat) (f : CmdRing → CmdRing) (o' hi' lo' : Nat) : (d.modCring s r f).fld o' hi' lo' = d.fld o' hi' lo' := rfl
@[simp] theorem Device.flag_modCring (d : Device) (s r : Nat) (f : CmdRing → CmdRing) (o' n' : Nat) : (d.modCring s r f).flag o' n' = d.flag o' n' := rfl

/-! ### `modDom` writes `fault` alone -/

@[simp] theorem Device.modDom_regs (d : Device) (kind inst : Nat) (f : Domain → Domain) : (d.modDom kind inst f).regs = d.regs := rfl
@[simp] theorem Device.modDom_hawk (d : Device) (kind inst : Nat) (f : Domain → Domain) : (d.modDom kind inst f).hawk = d.hawk := rfl
@[simp] theorem Device.modDom_seats (d : Device) (kind inst : Nat) (f : Domain → Domain) : (d.modDom kind inst f).seats = d.seats := rfl
@[simp] theorem Device.modDom_perf (d : Device) (kind inst : Nat) (f : Domain → Domain) : (d.modDom kind inst f).perf = d.perf := rfl
@[simp] theorem Device.modDom_telem (d : Device) (kind inst : Nat) (f : Domain → Domain) : (d.modDom kind inst f).telem = d.telem := rfl
@[simp] theorem Device.modDom_plumb (d : Device) (kind inst : Nat) (f : Domain → Domain) : (d.modDom kind inst f).plumb = d.plumb := rfl
@[simp] theorem Device.modDom_coats (d : Device) (kind inst : Nat) (f : Domain → Domain) : (d.modDom kind inst f).coats = d.coats := rfl
@[simp] theorem Device.modDom_pipes (d : Device) (kind inst : Nat) (f : Domain → Domain) : (d.modDom kind inst f).pipes = d.pipes := rfl
@[simp] theorem Device.modDom_ctxs (d : Device) (kind inst : Nat) (f : Domain → Domain) : (d.modDom kind inst f).ctxs = d.ctxs := rfl
@[simp] theorem Device.modDom_ectxs (d : Device) (kind inst : Nat) (f : Domain → Domain) : (d.modDom kind inst f).ectxs = d.ectxs := rfl
@[simp] theorem Device.modDom_buf (d : Device) (kind inst : Nat) (f : Domain → Domain) : (d.modDom kind inst f).buf = d.buf := rfl
@[simp] theorem Device.modDom_ports (d : Device) (kind inst : Nat) (f : Domain → Domain) : (d.modDom kind inst f).ports = d.ports := rfl
@[simp] theorem Device.modDom_scheds (d : Device) (kind inst : Nat) (f : Domain → Domain) : (d.modDom kind inst f).scheds = d.scheds := rfl
@[simp] theorem Device.modDom_quotes (d : Device) (kind inst : Nat) (f : Domain → Domain) : (d.modDom kind inst f).quotes = d.quotes := rfl
@[simp] theorem Device.modDom_spread (d : Device) (kind inst : Nat) (f : Domain → Domain) : (d.modDom kind inst f).spread = d.spread := rfl
@[simp] theorem Device.modDom_flow (d : Device) (kind inst : Nat) (f : Domain → Domain) : (d.modDom kind inst f).flow = d.flow := rfl
@[simp] theorem Device.modDom_rstore (d : Device) (kind inst : Nat) (f : Domain → Domain) : (d.modDom kind inst f).rstore = d.rstore := rfl
@[simp] theorem Device.modDom_scaf (d : Device) (kind inst : Nat) (f : Domain → Domain) : (d.modDom kind inst f).scaf = d.scaf := rfl
@[simp] theorem Device.modDom_spans (d : Device) (kind inst : Nat) (f : Domain → Domain) : (d.modDom kind inst f).spans = d.spans := rfl
@[simp] theorem Device.modDom_pwr (d : Device) (kind inst : Nat) (f : Domain → Domain) : (d.modDom kind inst f).pwr = d.pwr := rfl
@[simp] theorem Device.modDom_jtag (d : Device) (kind inst : Nat) (f : Domain → Domain) : (d.modDom kind inst f).jtag = d.jtag := rfl
@[simp] theorem Device.modDom_freeCtr (d : Device) (kind inst : Nat) (f : Domain → Domain) : (d.modDom kind inst f).freeCtr = d.freeCtr := rfl
@[simp] theorem Device.reg_modDom (d : Device) (kind inst : Nat) (f : Domain → Domain) (o' : Nat) : (d.modDom kind inst f).reg o' = d.reg o' := rfl
@[simp] theorem Device.fld_modDom (d : Device) (kind inst : Nat) (f : Domain → Domain) (o' hi' lo' : Nat) : (d.modDom kind inst f).fld o' hi' lo' = d.fld o' hi' lo' := rfl
@[simp] theorem Device.flag_modDom (d : Device) (kind inst : Nat) (f : Domain → Domain) (o' n' : Nat) : (d.modDom kind inst f).flag o' n' = d.flag o' n' := rfl

/-! ### `modTelem` writes `telem` alone -/

@[simp] theorem Device.modTelem_regs (d : Device) (f : Telem → Telem) : (d.modTelem f).regs = d.regs := rfl
@[simp] theorem Device.modTelem_hawk (d : Device) (f : Telem → Telem) : (d.modTelem f).hawk = d.hawk := rfl
@[simp] theorem Device.modTelem_fault (d : Device) (f : Telem → Telem) : (d.modTelem f).fault = d.fault := rfl
@[simp] theorem Device.modTelem_seats (d : Device) (f : Telem → Telem) : (d.modTelem f).seats = d.seats := rfl
@[simp] theorem Device.modTelem_perf (d : Device) (f : Telem → Telem) : (d.modTelem f).perf = d.perf := rfl
@[simp] theorem Device.modTelem_plumb (d : Device) (f : Telem → Telem) : (d.modTelem f).plumb = d.plumb := rfl
@[simp] theorem Device.modTelem_coats (d : Device) (f : Telem → Telem) : (d.modTelem f).coats = d.coats := rfl
@[simp] theorem Device.modTelem_pipes (d : Device) (f : Telem → Telem) : (d.modTelem f).pipes = d.pipes := rfl
@[simp] theorem Device.modTelem_ctxs (d : Device) (f : Telem → Telem) : (d.modTelem f).ctxs = d.ctxs := rfl
@[simp] theorem Device.modTelem_ectxs (d : Device) (f : Telem → Telem) : (d.modTelem f).ectxs = d.ectxs := rfl
@[simp] theorem Device.modTelem_buf (d : Device) (f : Telem → Telem) : (d.modTelem f).buf = d.buf := rfl
@[simp] theorem Device.modTelem_ports (d : Device) (f : Telem → Telem) : (d.modTelem f).ports = d.ports := rfl
@[simp] theorem Device.modTelem_scheds (d : Device) (f : Telem → Telem) : (d.modTelem f).scheds = d.scheds := rfl
@[simp] theorem Device.modTelem_quotes (d : Device) (f : Telem → Telem) : (d.modTelem f).quotes = d.quotes := rfl
@[simp] theorem Device.modTelem_spread (d : Device) (f : Telem → Telem) : (d.modTelem f).spread = d.spread := rfl
@[simp] theorem Device.modTelem_flow (d : Device) (f : Telem → Telem) : (d.modTelem f).flow = d.flow := rfl
@[simp] theorem Device.modTelem_rstore (d : Device) (f : Telem → Telem) : (d.modTelem f).rstore = d.rstore := rfl
@[simp] theorem Device.modTelem_scaf (d : Device) (f : Telem → Telem) : (d.modTelem f).scaf = d.scaf := rfl
@[simp] theorem Device.modTelem_spans (d : Device) (f : Telem → Telem) : (d.modTelem f).spans = d.spans := rfl
@[simp] theorem Device.modTelem_pwr (d : Device) (f : Telem → Telem) : (d.modTelem f).pwr = d.pwr := rfl
@[simp] theorem Device.modTelem_jtag (d : Device) (f : Telem → Telem) : (d.modTelem f).jtag = d.jtag := rfl
@[simp] theorem Device.modTelem_freeCtr (d : Device) (f : Telem → Telem) : (d.modTelem f).freeCtr = d.freeCtr := rfl
@[simp] theorem Device.reg_modTelem (d : Device) (f : Telem → Telem) (o' : Nat) : (d.modTelem f).reg o' = d.reg o' := rfl
@[simp] theorem Device.fld_modTelem (d : Device) (f : Telem → Telem) (o' hi' lo' : Nat) : (d.modTelem f).fld o' hi' lo' = d.fld o' hi' lo' := rfl
@[simp] theorem Device.flag_modTelem (d : Device) (f : Telem → Telem) (o' n' : Nat) : (d.modTelem f).flag o' n' = d.flag o' n' := rfl
@[simp] theorem Device.modTelem_telem (d : Device) (f : Telem → Telem) : (d.modTelem f).telem = f d.telem := rfl

/-! ### `setSlot` writes `hawk` alone -/

@[simp] theorem Device.setSlot_regs (d : Device) (p : PendSlot) : (d.setSlot p).regs = d.regs := rfl
@[simp] theorem Device.setSlot_fault (d : Device) (p : PendSlot) : (d.setSlot p).fault = d.fault := rfl
@[simp] theorem Device.setSlot_seats (d : Device) (p : PendSlot) : (d.setSlot p).seats = d.seats := rfl
@[simp] theorem Device.setSlot_perf (d : Device) (p : PendSlot) : (d.setSlot p).perf = d.perf := rfl
@[simp] theorem Device.setSlot_telem (d : Device) (p : PendSlot) : (d.setSlot p).telem = d.telem := rfl
@[simp] theorem Device.setSlot_plumb (d : Device) (p : PendSlot) : (d.setSlot p).plumb = d.plumb := rfl
@[simp] theorem Device.setSlot_coats (d : Device) (p : PendSlot) : (d.setSlot p).coats = d.coats := rfl
@[simp] theorem Device.setSlot_pipes (d : Device) (p : PendSlot) : (d.setSlot p).pipes = d.pipes := rfl
@[simp] theorem Device.setSlot_ctxs (d : Device) (p : PendSlot) : (d.setSlot p).ctxs = d.ctxs := rfl
@[simp] theorem Device.setSlot_ectxs (d : Device) (p : PendSlot) : (d.setSlot p).ectxs = d.ectxs := rfl
@[simp] theorem Device.setSlot_buf (d : Device) (p : PendSlot) : (d.setSlot p).buf = d.buf := rfl
@[simp] theorem Device.setSlot_ports (d : Device) (p : PendSlot) : (d.setSlot p).ports = d.ports := rfl
@[simp] theorem Device.setSlot_scheds (d : Device) (p : PendSlot) : (d.setSlot p).scheds = d.scheds := rfl
@[simp] theorem Device.setSlot_quotes (d : Device) (p : PendSlot) : (d.setSlot p).quotes = d.quotes := rfl
@[simp] theorem Device.setSlot_spread (d : Device) (p : PendSlot) : (d.setSlot p).spread = d.spread := rfl
@[simp] theorem Device.setSlot_flow (d : Device) (p : PendSlot) : (d.setSlot p).flow = d.flow := rfl
@[simp] theorem Device.setSlot_rstore (d : Device) (p : PendSlot) : (d.setSlot p).rstore = d.rstore := rfl
@[simp] theorem Device.setSlot_scaf (d : Device) (p : PendSlot) : (d.setSlot p).scaf = d.scaf := rfl
@[simp] theorem Device.setSlot_spans (d : Device) (p : PendSlot) : (d.setSlot p).spans = d.spans := rfl
@[simp] theorem Device.setSlot_pwr (d : Device) (p : PendSlot) : (d.setSlot p).pwr = d.pwr := rfl
@[simp] theorem Device.setSlot_jtag (d : Device) (p : PendSlot) : (d.setSlot p).jtag = d.jtag := rfl
@[simp] theorem Device.setSlot_freeCtr (d : Device) (p : PendSlot) : (d.setSlot p).freeCtr = d.freeCtr := rfl
@[simp] theorem Device.reg_setSlot (d : Device) (p : PendSlot) (o' : Nat) : (d.setSlot p).reg o' = d.reg o' := rfl
@[simp] theorem Device.fld_setSlot (d : Device) (p : PendSlot) (o' hi' lo' : Nat) : (d.setSlot p).fld o' hi' lo' = d.fld o' hi' lo' := rfl
@[simp] theorem Device.flag_setSlot (d : Device) (p : PendSlot) (o' n' : Nat) : (d.setSlot p).flag o' n' = d.flag o' n' := rfl

/-! ### The queue -/

@[simp] theorem State.act_eq (s : State) (f : Device → Device) : s.act f = .next ⟨f s.dev, s.pending⟩ := rfl
@[simp] theorem State.reset_pending : State.reset.pending = [] := rfl
@[simp] theorem State.reset_dev : State.reset.dev = Device.reset := rfl

end Sys2Proof.Machine
end

