-- ==== Sys2Proof/Laws/Word.lean ====
section
/-! SUPPORT. The laws of bit fields: a field set reads back, and setting one leaves every other alone. -/

namespace Sys2Proof

/-- A number with one field replaced, as what stands above, in and below the field. -/
theorem setBits_eq (v hi lo x : Nat) :
    setBits v hi lo x =
      (v / 2 ^ lo / 2 ^ (hi + 1 - lo) * 2 ^ (hi + 1 - lo) + x % 2 ^ (hi + 1 - lo)) * 2 ^ lo + v % 2 ^ lo := by
  unfold setBits bits
  generalize 2 ^ (hi + 1 - lo) = n
  generalize 2 ^ lo = l
  have h1 : v / l * l + v % l = v := by rw [Nat.mul_comm]; exact Nat.div_add_mod v l
  have h2 : v / l / n * n + v / l % n = v / l := by rw [Nat.mul_comm]; exact Nat.div_add_mod (v / l) n
  have h3 : v = (v / l / n * n + v / l % n) * l + v % l := by rw [h2, h1]
  have h4 : v - v / l % n * l = v / l / n * n * l + v % l := by
    have : (v / l / n * n + v / l % n) * l = v / l / n * n * l + v / l % n * l := Nat.add_mul ..
    omega
  rw [h4, Nat.add_mul]
  omega

theorem bits_lt (v hi lo : Nat) : bits v hi lo < 2 ^ (hi + 1 - lo) := Nat.mod_lt _ (Nat.two_pow_pos _)

theorem setBits_div (v hi lo x : Nat) :
    setBits v hi lo x / 2 ^ lo = v / 2 ^ lo / 2 ^ (hi + 1 - lo) * 2 ^ (hi + 1 - lo) + x % 2 ^ (hi + 1 - lo) := by
  rw [setBits_eq, Nat.add_comm, Nat.add_mul_div_right _ _ (Nat.two_pow_pos lo),
    Nat.div_eq_of_lt (Nat.mod_lt _ (Nat.two_pow_pos lo)), Nat.zero_add]

/-- A field set reads back. -/
@[simp] theorem bits_setBits_self (v hi lo x : Nat) : bits (setBits v hi lo x) hi lo = x % 2 ^ (hi + 1 - lo) := by
  rw [bits, setBits_div, Nat.add_comm, Nat.add_mul_mod_self_right, Nat.mod_mod]

/-- A field set leaves a field below it alone. -/
theorem bits_setBits_below {hi' lo : Nat} (v hi x lo' : Nat) (h : hi' < lo) : bits (setBits v hi lo x) hi' lo' = bits v hi' lo' := by
  have key : ∀ u : Nat, bits u hi' lo' = u % 2 ^ lo % (2 ^ lo' * 2 ^ (hi' + 1 - lo')) / 2 ^ lo' ∨ hi' + 1 < lo' := by
    intro u
    by_cases hl : hi' + 1 < lo'
    · exact .inr hl
    · left
      have e : 2 ^ lo' * 2 ^ (hi' + 1 - lo') = 2 ^ (hi' + 1) := by rw [← Nat.pow_add]; congr 1; omega
      rw [bits, ← Nat.mod_mul_right_div_self, e, Nat.mod_mod_of_dvd _ (Nat.pow_dvd_pow 2 h)]
  have hm : setBits v hi lo x % 2 ^ lo = v % 2 ^ lo := by
    rw [setBits_eq, Nat.add_comm, Nat.add_mul_mod_self_right, Nat.mod_mod]
  rcases key v with h1 | h1
  · rcases key (setBits v hi lo x) with h2 | h2
    · rw [h1, h2, hm]
    · have : hi' + 1 - lo' = 0 := by omega
      simp [bits, this, Nat.mod_one]
  · have : hi' + 1 - lo' = 0 := by omega
    simp [bits, this, Nat.mod_one]

/-- A field set leaves a field above it alone. -/
theorem bits_setBits_above {hi lo' : Nat} (v lo x hi' : Nat) (h : hi < lo') (hl : lo ≤ hi + 1) :
    bits (setBits v hi lo x) hi' lo' = bits v hi' lo' := by
  have e : 2 ^ lo' = 2 ^ lo * 2 ^ (hi + 1 - lo) * 2 ^ (lo' - (hi + 1)) := by
    rw [← Nat.pow_add, ← Nat.pow_add]; congr 1; omega
  have hd : setBits v hi lo x / 2 ^ lo' = v / 2 ^ lo' := by
    rw [e, ← Nat.div_div_eq_div_mul, ← Nat.div_div_eq_div_mul, setBits_div, Nat.add_comm,
      Nat.add_mul_div_right _ _ (Nat.two_pow_pos _), Nat.div_eq_of_lt (Nat.mod_lt _ (Nat.two_pow_pos _)), Nat.zero_add,
      ← Nat.div_div_eq_div_mul, ← Nat.div_div_eq_div_mul]
  rw [bits, bits, hd]

/-- A field of a 32-bit number set leaves 32 bits. -/
theorem setBits_lt {v hi lo : Nat} (x : Nat) (hv : v < 2 ^ 32) (hh : hi < 32) (hl : lo ≤ hi + 1) : setBits v hi lo x < 2 ^ 32 := by
  have e : 2 ^ 32 = 2 ^ lo * 2 ^ (hi + 1 - lo) * 2 ^ (31 - hi) := by
    rw [← Nat.pow_add, ← Nat.pow_add]; congr 1; omega
  have hd : setBits v hi lo x / 2 ^ 32 = v / 2 ^ 32 := by
    rw [e, ← Nat.div_div_eq_div_mul, ← Nat.div_div_eq_div_mul, setBits_div, Nat.add_comm,
      Nat.add_mul_div_right _ _ (Nat.two_pow_pos _), Nat.div_eq_of_lt (Nat.mod_lt _ (Nat.two_pow_pos _)), Nat.zero_add,
      ← Nat.div_div_eq_div_mul, ← Nat.div_div_eq_div_mul]
  rw [Nat.div_eq_of_lt hv] at hd
  exact (Nat.div_eq_zero_iff_lt (Nat.two_pow_pos 32)).mp hd

@[simp] theorem b2n_mod_two (b : Bool) : b2n b % 2 = b2n b := by cases b <;> rfl

@[simp] theorem b2n_beq_one (b : Bool) : (b2n b == 1) = b := by cases b <;> rfl

theorem leNat_bytesLE : ∀ n v : Nat, leNat (bytesLE n v) = v % 256 ^ n
  | 0, v => by simp [bytesLE, leNat, Nat.mod_one]
  | n + 1, v => by
    have := leNat_bytesLE n (v / 256)
    have e : (BitVec.ofNat 8 v).toNat = v % 256 := BitVec.toNat_ofNat ..
    rw [bytesLE, leNat, this, e, Nat.pow_succ, Nat.mul_comm (256 ^ n) 256, Nat.mod_mul]

@[simp] theorem length_bytesLE : ∀ n v : Nat, (bytesLE n v).length = n
  | 0, _ => rfl
  | n + 1, v => by simp [bytesLE, length_bytesLE n]

end Sys2Proof
end

