-- ==== Sys2Proof/Laws/Ops.lean ====
section
/-! SUPPORT. What the shared operations do: a register, a field, a port, a task written reads back, every other reads as before, and
the memories keep their one form. -/

namespace Sys2Proof

theorem NMap.get?_modify_self {α : Type} (m : NMap α) (a : Nat) (f : α → α) : NMap.get? (NMap.modify m a f) a = (NMap.get? m a).map f := by
  unfold NMap.modify
  cases h : NMap.get? m a with
  | none => simp [h]
  | some v => simp

theorem NMap.get?_modify_other {α : Type} (m : NMap α) {a b : Nat} (f : α → α) (h : b ≠ a) :
    NMap.get? (NMap.modify m a f) b = NMap.get? m b := by
  unfold NMap.modify
  cases NMap.get? m a with
  | none => rfl
  | some v => exact NMap.get?_set_other m (f v) h

namespace Machine

/-! ### Registers (R5, R8) -/

theorem Device.reg_lt (d : Device) (off : Nat) : d.reg off < 2 ^ 32 := (DMap.get regReset d.regs off).isLt

@[simp] theorem Device.reg_setReg_self (d : Device) (off v : Nat) : (d.setReg off v).reg off = v % 2 ^ 32 := by
  simp only [Device.reg, Device.setReg, DMap.get_put_self, BitVec.toNat_ofNat]

theorem Device.reg_setReg_other (d : Device) {off off' : Nat} (v : Nat) (h : off' ≠ off) : (d.setReg off v).reg off' = d.reg off' := by
  simp only [Device.reg, Device.setReg, DMap.get_put_other _ _ _ h]

theorem Device.fld_setReg_other (d : Device) {off off' : Nat} (v hi lo : Nat) (h : off' ≠ off) :
    (d.setReg off v).fld off' hi lo = d.fld off' hi lo := by
  simp only [Device.fld, d.reg_setReg_other v h]

theorem Device.reg_setFld_self (d : Device) (off : Nat) {hi lo : Nat} (v : Nat) (hh : hi < 32) (hl : lo ≤ hi + 1) :
    (d.setFld off hi lo v).reg off = setBits (d.reg off) hi lo v := by
  rw [Device.setFld, Device.reg_setReg_self, Nat.mod_eq_of_lt (setBits_lt v (d.reg_lt off) hh hl)]

theorem Device.reg_setFld_other (d : Device) {off off' : Nat} (hi lo v : Nat) (h : off' ≠ off) :
    (d.setFld off hi lo v).reg off' = d.reg off' := d.reg_setReg_other _ h

/-- A field of a register set reads back. -/
theorem Device.fld_setFld_self (d : Device) (off : Nat) {hi lo : Nat} (v : Nat) (hh : hi < 32) (hl : lo ≤ hi + 1) :
    (d.setFld off hi lo v).fld off hi lo = v % 2 ^ (hi + 1 - lo) := by
  rw [Device.fld, d.reg_setFld_self off v hh hl, bits_setBits_self]

/-- Every field below or above it stays. -/
theorem Device.fld_setFld_apart (d : Device) (off : Nat) {hi lo hi' lo' : Nat} (v : Nat) (hh : hi < 32) (hl : lo ≤ hi + 1)
    (h : hi' < lo ∨ hi < lo') : (d.setFld off hi lo v).fld off hi' lo' = d.fld off hi' lo' := by
  rw [Device.fld, d.reg_setFld_self off v hh hl]
  rcases h with h | h
  · exact bits_setBits_below _ _ _ _ h
  · exact bits_setBits_above _ _ _ _ h hl

theorem Device.fld_setFld_other (d : Device) {off off' : Nat} (hi lo v hi' lo' : Nat) (h : off' ≠ off) :
    (d.setFld off hi lo v).fld off' hi' lo' = d.fld off' hi' lo' := d.fld_setReg_other _ _ _ h

theorem Device.flag_setFlag_self (d : Device) (off : Nat) {n : Nat} (v : Bool) (h : n < 32) : (d.setFlag off n v).flag off n = v := by
  rw [Device.flag, Device.setFlag, d.fld_setFld_self off _ h (by omega)]
  simp [show n + 1 - n = 1 by omega]

theorem Device.flag_setFlag_other (d : Device) {off off' : Nat} (n n' : Nat) (v : Bool) (h : off' ≠ off) :
    (d.setFlag off n v).flag off' n' = d.flag off' n' := by
  rw [Device.flag, Device.setFlag, d.fld_setFld_other _ _ _ _ _ h, Device.flag]

/-- A counter rises and saturates. -/
@[simp] theorem Device.reg_bump_self (d : Device) (off n : Nat) : (d.bump off n).reg off = sat32 (d.reg off + n) := by
  rw [Device.bump, Device.reg_setReg_self, Nat.mod_eq_of_lt]
  unfold sat32; omega

theorem Device.reg_bump_other (d : Device) {off off' : Nat} (n : Nat) (h : off' ≠ off) : (d.bump off n).reg off' = d.reg off' :=
  d.reg_setReg_other _ h

/-! ### Parts -/

@[simp] theorem Device.port_modPort_self (d : Device) (p : Nat) (f : Port → Port) : (d.modPort p f).port p = f (d.port p) :=
  NMap.getD_set_self ..

theorem Device.port_modPort_other (d : Device) {p p' : Nat} (f : Port → Port) (h : p' ≠ p) : (d.modPort p f).port p' = d.port p' :=
  NMap.getD_set_other _ _ _ h

@[simp] theorem Device.sched_modSched_self (d : Device) (p : Nat) (f : Sched → Sched) : (d.modSched p f).sched p = f (d.sched p) :=
  NMap.getD_set_self ..

theorem Device.sched_modSched_other (d : Device) {p p' : Nat} (f : Sched → Sched) (h : p' ≠ p) : (d.modSched p f).sched p' = d.sched p' :=
  NMap.getD_set_other _ _ _ h

@[simp] theorem Device.span_modSpan_self (d : Device) (s : Nat) (f : Span → Span) : (d.modSpan s f).span s = f (d.span s) :=
  NMap.getD_set_self ..

theorem Device.span_modSpan_other (d : Device) {s s' : Nat} (f : Span → Span) (h : s' ≠ s) : (d.modSpan s f).span s' = d.span s' :=
  NMap.getD_set_other _ _ _ h

@[simp] theorem Device.seat_modSeat_self (d : Device) (s : Nat) (f : Seat → Seat) : (d.modSeat s f).seat s = f (d.seat s) :=
  NMap.getD_set_self ..

theorem Device.seat_modSeat_other (d : Device) {s s' : Nat} (f : Seat → Seat) (h : s' ≠ s) : (d.modSeat s f).seat s' = d.seat s' :=
  NMap.getD_set_other _ _ _ h

@[simp] theorem Device.group_modGroup_self (d : Device) (g : Nat) (f : Group → Group) : (d.modGroup g f).group g = f (d.group g) :=
  NMap.getD_set_self ..

theorem Device.group_modGroup_other (d : Device) {g g' : Nat} (f : Group → Group) (h : g' ≠ g) : (d.modGroup g f).group g' = d.group g' :=
  NMap.getD_set_other _ _ _ h

@[simp] theorem Device.rchan_modRchan_self (d : Device) (c : Nat) (f : RChan → RChan) : (d.modRchan c f).rchan c = f (d.rchan c) :=
  NMap.getD_set_self ..

theorem Device.rchan_modRchan_other (d : Device) {c c' : Nat} (f : RChan → RChan) (h : c' ≠ c) : (d.modRchan c f).rchan c' = d.rchan c' :=
  NMap.getD_set_other _ _ _ h

@[simp] theorem Device.pipe_modPipe_self (d : Device) (i : Nat) (f : Pipe → Pipe) : (d.modPipe i f).pipe i = f (d.pipe i) :=
  NMap.getD_set_self ..

theorem Device.pipe_modPipe_other (d : Device) {i i' : Nat} (f : Pipe → Pipe) (h : i' ≠ i) : (d.modPipe i f).pipe i' = d.pipe i' :=
  NMap.getD_set_other _ _ _ h

@[simp] theorem Device.tb_setTb_self (d : Device) (n : Nat) (x : TimeBase) : (d.setTb n x).tb n = x := NMap.getD_set_self ..

theorem Device.tb_setTb_other (d : Device) {n n' : Nat} (x : TimeBase) (h : n' ≠ n) : (d.setTb n x).tb n' = d.tb n' :=
  NMap.getD_set_other _ _ _ h

@[simp] theorem Device.tio_setTio_self (d : Device) (k : Nat) (x : TioPin) : (d.setTio k x).tio k = x := NMap.getD_set_self ..

theorem Device.tio_setTio_other (d : Device) {k k' : Nat} (x : TioPin) (h : k' ≠ k) : (d.setTio k x).tio k' = d.tio k' :=
  NMap.getD_set_other _ _ _ h

@[simp] theorem Device.task_setTask_self (d : Device) (id : Nat) (x : Task) : (d.setTask id x).task id = some x := NMap.get?_set_self ..

theorem Device.task_setTask_other (d : Device) {id id' : Nat} (x : Task) (h : id' ≠ id) : (d.setTask id x).task id' = d.task id' :=
  NMap.get?_set_other _ _ h

@[simp] theorem Device.frame_setFrame_self (d : Device) (f : Nat) (x : Frame) : (d.setFrame f x).frame f = some x := NMap.get?_set_self ..

theorem Device.frame_setFrame_other (d : Device) {f f' : Nat} (x : Frame) (h : f' ≠ f) : (d.setFrame f x).frame f' = d.frame f' :=
  NMap.get?_set_other _ _ h

@[simp] theorem Device.quote_setQuote_self (d : Device) (q : Nat) (x : Quote) : (d.setQuote q x).quote q = some x := NMap.get?_set_self ..

theorem Device.quote_setQuote_other (d : Device) {q q' : Nat} (x : Quote) (h : q' ≠ q) : (d.setQuote q x).quote q' = d.quote q' :=
  NMap.get?_set_other _ _ h

@[simp] theorem Device.task_modTask_self (d : Device) (id : Nat) (g : Task → Task) : (d.modTask id g).task id = (d.task id).map g :=
  NMap.get?_modify_self ..

theorem Device.task_modTask_other (d : Device) {id id' : Nat} (g : Task → Task) (h : id' ≠ id) : (d.modTask id g).task id' = d.task id' :=
  NMap.get?_modify_other _ _ h

@[simp] theorem Device.frame_modFrame_self (d : Device) (f : Nat) (g : Frame → Frame) : (d.modFrame f g).frame f = (d.frame f).map g :=
  NMap.get?_modify_self ..

theorem Device.frame_modFrame_other (d : Device) {f f' : Nat} (g : Frame → Frame) (h : f' ≠ f) : (d.modFrame f g).frame f' = d.frame f' :=
  NMap.get?_modify_other _ _ h

@[simp] theorem Device.copy_modCopy_self (d : Device) (c : Nat) (g : Copy → Copy) : (d.modCopy c g).copy c = (d.copy c).map g :=
  NMap.get?_modify_self ..

theorem Device.copy_modCopy_other (d : Device) {c c' : Nat} (g : Copy → Copy) (h : c' ≠ c) : (d.modCopy c g).copy c' = d.copy c' :=
  NMap.get?_modify_other _ _ h

@[simp] theorem Device.quote_modQuote_self (d : Device) (q : Nat) (g : Quote → Quote) : (d.modQuote q g).quote q = (d.quote q).map g :=
  NMap.get?_modify_self ..

theorem Device.quote_modQuote_other (d : Device) {q q' : Nat} (g : Quote → Quote) (h : q' ≠ q) : (d.modQuote q g).quote q' = d.quote q' :=
  NMap.get?_modify_other _ _ h

/-! ### Memories (R73, R427, R496) -/

/-- A write of scaffold memory leaves every byte outside it alone. -/
theorem Device.sram_setSram_outside (d : Device) (a c : Nat) (bs : List Byte) (h : c < a ∨ a + bs.length ≤ c) :
    Mem.read 0 (d.setSram a bs).scaf.sram c = Mem.read 0 d.scaf.sram c := Mem.read_writeN_outside 0 bs _ a c h

/-- What has been written to scaffold memory reads back. -/
@[simp] theorem Device.sram_setSram_self (d : Device) (a : Nat) (bs : List Byte) : (d.setSram a bs).sram a bs.length = bs :=
  Mem.readN_writeN 0 bs _ a

/-- A register written keeps the register file and the memories in their one form. -/
theorem Device.canonical_setReg (d : Device) (off v : Nat) (h : d.canonical = true) : (d.setReg off v).canonical = true := by
  simp only [Device.canonical, Bool.and_eq_true] at h ⊢
  exact ⟨⟨⟨⟨DMap.wf_put _ _ _ _ h.1.1.1.1, h.1.1.1.2⟩, h.1.1.2⟩, h.1.2⟩, h.2⟩

/-- A write of scaffold memory keeps it. -/
theorem Device.canonical_setSram (d : Device) (a : Nat) (bs : List Byte) (h : d.canonical = true) : (d.setSram a bs).canonical = true := by
  simp only [Device.canonical, Bool.and_eq_true] at h ⊢
  exact ⟨⟨⟨⟨h.1.1.1.1, Mem.wf_writeN 0 bs _ a h.1.1.1.2⟩, h.1.1.2⟩, h.1.2⟩, h.2⟩

/-- So does a change of the render store that writes bytes. -/
theorem Device.canonical_writeRstore (d : Device) (a : Nat) (bs : List Byte) (h : d.canonical = true) :
    (d.modRstore fun r => { r with bytes := Mem.writeN 0 r.bytes a bs }).canonical = true := by
  simp only [Device.canonical, Bool.and_eq_true] at h ⊢
  exact ⟨⟨⟨⟨h.1.1.1.1, h.1.1.1.2⟩, Mem.wf_writeN 0 bs _ a h.1.1.2⟩, h.1.2⟩, h.2⟩

/-- And a change of the flash. -/
theorem Device.canonical_writeFlash (d : Device) (a : Nat) (bs : List Byte) (h : d.canonical = true) :
    (d.modPwr fun p => { p with flash := Mem.writeN 0xFF p.flash a bs }).canonical = true := by
  simp only [Device.canonical, Bool.and_eq_true] at h ⊢
  exact ⟨⟨⟨⟨h.1.1.1.1, h.1.1.1.2⟩, h.1.1.2⟩, Mem.wf_writeN 0xFF bs _ a h.1.2⟩, h.2⟩

/-- A seat's change that keeps its host memory in form keeps every memory in form. -/
theorem Device.canonical_modSeat (d : Device) (s : Nat) (f : Seat → Seat) (h : d.canonical = true)
    (hf : Mem.wf 0 (f (d.seat s)).hostMem = true) : (d.modSeat s f).canonical = true := by
  simp only [Device.canonical, Bool.and_eq_true, List.all_eq_true] at h ⊢
  refine ⟨h.1, fun p hp => ?_⟩
  rcases NMap.mem_set (show p ∈ NMap.set d.seats s (f (d.seat s)) from hp) with rfl | hp
  · exact hf
  · exact h.2 p hp

theorem Device.canonical_setFld (d : Device) (off hi lo v : Nat) (h : d.canonical = true) : (d.setFld off hi lo v).canonical = true :=
  d.canonical_setReg _ _ h

theorem Device.canonical_setFlag (d : Device) (off n : Nat) (v : Bool) (h : d.canonical = true) : (d.setFlag off n v).canonical = true :=
  d.canonical_setReg _ _ h

theorem Device.canonical_bump (d : Device) (off n : Nat) (h : d.canonical = true) : (d.bump off n).canonical = true :=
  d.canonical_setReg _ _ h

@[simp] theorem Device.canonical_modPlumb (d : Device) (f : Plumb → Plumb) : (d.modPlumb f).canonical = d.canonical := rfl

@[simp] theorem Device.canonical_modCoats (d : Device) (f : Coats → Coats) : (d.modCoats f).canonical = d.canonical := rfl

@[simp] theorem Device.canonical_modBuf (d : Device) (f : Buf → Buf) : (d.modBuf f).canonical = d.canonical := rfl

@[simp] theorem Device.canonical_modFlow (d : Device) (f : Flow → Flow) : (d.modFlow f).canonical = d.canonical := rfl

@[simp] theorem Device.canonical_modTelem (d : Device) (f : Telem → Telem) : (d.modTelem f).canonical = d.canonical := rfl

@[simp] theorem Device.canonical_modPort (d : Device) (p : Nat) (f : Port → Port) : (d.modPort p f).canonical = d.canonical := rfl

@[simp] theorem Device.canonical_modSched (d : Device) (p : Nat) (f : Sched → Sched) : (d.modSched p f).canonical = d.canonical := rfl

@[simp] theorem Device.canonical_modSpan (d : Device) (s : Nat) (f : Span → Span) : (d.modSpan s f).canonical = d.canonical := rfl

@[simp] theorem Device.canonical_modGroup (d : Device) (g : Nat) (f : Group → Group) : (d.modGroup g f).canonical = d.canonical := rfl

@[simp] theorem Device.canonical_modPipe (d : Device) (i : Nat) (f : Pipe → Pipe) : (d.modPipe i f).canonical = d.canonical := rfl

end Machine

end Sys2Proof
end

