-- ==== Sys2Proof/Laws/Exec.lean ====
section
/-! SUPPORT. What the conditions under which an instruction runs say, once: an instruction of line form that issues, and a thread that
stands at one. -/

namespace Sys2Proof.Machine

/-- The state after reset has its memories in their one form. -/
theorem Device.reset_canonical : Device.reset.canonical = true := by decide

/-- An instruction that issues is live, executes, stands where it may, passes the loader's checks, and takes a slot that has not
issued. -/
theorem Device.issue_some {d : Device} {x y : Ctx} {q : Pred} {op enc : Nat} (h : d.issue x q op enc = some y) :
    x.live = true ∧ x.regs.executes q = true ∧ lineAvailable x.egress op = true ∧ (lineOperands op enc).1.isEmpty = true ∧
      lateLookup x.egress x.station op = false ∧ ∃ k, k ∉ x.issued ∧ y = { x with issued := k :: x.issued } := by
  unfold Device.issue at h
  split at h
  · cases h
  · rename_i p k hf
    split at h
    · rename_i hc
      simp only [Bool.and_eq_true, Bool.not_eq_true'] at hc
      have hk := List.find?_some hf
      simp only [Bool.and_eq_true, Bool.not_eq_true', List.contains_eq_mem, decide_eq_false_iff_not] at hk
      exact ⟨hc.1.1.1.1, hc.1.1.1.2, hc.1.1.2, hc.1.2, hc.2, k, hk.2, (Option.some.inj h).symm⟩
    · cases h

/-- What a thread that stands at an instruction word holds. -/
theorem Device.threadOn_some {d : Device} {e t word id : Nat} {x : Task} (h : d.threadOn e t word = some (id, x)) :
    (d.thr (thrKey e t)).task = some id ∧ d.task id = some x ∧ (d.thr (thrKey e t)).state = .running ∧
      (d.thr (thrKey e t)).bound = false ∧ (d.thr (thrKey e t)).spent = false ∧ x.cmd = none ∧ d.domainOk 7 e = true ∧
      d.scafRuns = true ∧ d.regionOk x x.regs.pc.toNat = true ∧ d.codeWord x.bank x.regs.pc.toNat = word := by
  unfold Device.threadOn at h
  simp only at h
  split at h
  · cases h
  · rename_i i y hb
    split at h
    · rename_i hc
      simp only [Option.some.injEq, Prod.mk.injEq] at h
      obtain ⟨rfl, rfl⟩ := h
      simp only [Bool.and_eq_true, Bool.not_eq_true', beq_iff_eq, Option.isNone_iff_eq_none] at hc
      cases ht : (d.thr (thrKey e t)).task with
      | none => simp [ht] at hb
      | some j =>
        cases hx : d.task j with
        | none => simp [ht, hx] at hb
        | some z =>
          simp only [ht, hx, Option.bind_some, Option.map_some, Option.some.injEq, Prod.mk.injEq] at hb
          obtain ⟨rfl, rfl⟩ := hb
          exact ⟨rfl, hx, hc.1.1.1.1.1.1.1, hc.1.1.1.1.1.1.2, hc.1.1.1.1.1.2, hc.1.1.1.1.2, hc.1.1.1.2, hc.1.1.2, hc.1.2, hc.2⟩
    · cases h

/-- A thread at an instruction that executes stands at its word. -/
theorem Device.threadAt_some {d : Device} {e t : Nat} {q : Pred} {op enc id : Nat} {x : Task} (h : d.threadAt e t q op enc = some (id, x)) :
    d.threadOn e t (instWord q op enc) = some (id, x) ∧ x.regs.executes q = true ∧ fullErr op enc = none := by
  unfold Device.threadAt at h
  obtain ⟨p, hp, hc⟩ := Option.bind_eq_some_iff.mp h
  split at hc
  · rename_i hx
    cases hc
    simp only [Bool.and_eq_true, Option.isNone_iff_eq_none] at hx
    exact ⟨hp, hx.1, hx.2⟩
  · cases hc

end Sys2Proof.Machine
end

