-- ==== Sys2Proof/Tests/Slice0.lean ====
section
/-! SUPPORT. Small tests: for every statement with hypotheses a state and operands that meet those of each clause, words written out from
the spec's encodings, and ill-formed commands. The theorems are checked one after another, since each evaluates a whole state. -/

namespace Sys2Proof.Tests
open Sys2Proof Sys2Proof.Machine

set_option Elab.async false

/-- Some clause of `p` has its hypotheses met at `d`. -/
def meets (d : Device) (p : Device → List Bool) : Bool := (p d).any id


/-- The block in service, no register written. -/
def dU : Device := { Device.reset with pwr := { Power.reset with phase := .started, alive := true, squelch := false } }

/-- The same with seat A the device owner and the owner of partition 0. -/
def dO : Device := (dU.setFld Off.seatOwner 1 0 0).setFld (Off.seatPart 0) 1 0 0

/-- Seat A with a command ring that holds one entry, and its notice and completion rings. -/
def dC : Device := ((((dO.setReg (Off.seatCrCtl 0 7) (2 ^ 31 + 4 * 2 ^ 16)).setReg (Off.seatCrTail 0 7) 1).setReg (Off.seatNrCtl 0 0) (2 ^ 31 + 4 * 2 ^ 16)).modSeat 0 fun s =>
  { s with present := true, link := 1 }).setReg (Off.flowSpaceCtl 2) (2 ^ 31)
/-- A host command of seat A. -/
def cE (flags tag len : Nat) (param buf : List Byte) : CmdEntry :=
  ⟨0, 7, BitVec.ofNat 8 flags, BitVec.ofNat 16 tag, BitVec.ofNat 32 len, 0x1000, fitB 48 param, buf, true⟩
/-- A flow identity of four key bytes. -/
def key4 : FlowId := ⟨2, [1, 2, 3, 4]⟩
/-- A fresh record of that identity. -/
def img4 : List Byte := dC.newRecord key4 0 [] false
/-- The same with the record in its render bucket. -/
def dF : Device := dC.modFlow fun w => { w with render := [((key4.renderPlaces).headD 0, img4)] }
/-- A host command with that record in its buffer. -/
def fE (flags : Nat) (param : List Byte) : CmdEntry := cE flags 9 128 param img4
/-- A coat with one table. -/
def coat1 : Coat := { Coat.blank with id := 1, tables := [(5, ⟨1, ⟨fitB 32 [5, 0]⟩, [], [], [], [], []⟩)], ien := [(0, 0x80000000)], isteps := [(0, [BitVec.ofNat 512 0x7100000000000000])] }
/-- That coat current. -/
def dCoat : Device := dF.modCoats fun c => { c with slots := [(0, coat1)], cur := some 0, order := [0] }
/-- Seat A's staged replication entry of it. -/
def stg : Device := dCoat.modCoats fun c => { c with staged := [(7, .replEntry [])] }
/-- A quote. -/
def q0 : Quote := ⟨0, 0, 2, [1, 2, 3, 4], 8, 16, none, 1522, 1, 64, 1522, 100000, 5, [], 0, 0, true, 0, 0, 0, none, 0, 0, 0, 0, none, 0, none, 0, none⟩
/-- The recovery loader waits for a request. -/
def dR : Device := dU.modPwr fun p => { p with phase := .recovery }
/-- A recovery request. -/
def rq (addr len crc : Nat) : RecReq := ⟨0x4447, 0, BitVec.ofNat 32 addr, BitVec.ofNat 32 len, BitVec.ofNat 32 crc⟩
/-- Two ports up. -/
def dP : Device := (dU.setFlag (Off.portStatus 8) 31 true).setFlag (Off.portStatus 9) 31 true
/-- Sixty bytes of zeros. -/
def z60 : List Byte := List.replicate 60 0
/-- A frame with its FCS. -/
def okFrame (b : List Byte) : List Byte := b ++ bytesLE 4 (crc32 b)
/-- A frame that has left its pass. -/
def fr0 : Frame := { Frame.blank 8 (okFrame z60) with place := .out, cells := 1, prov := 1, granted := true }
/-- A copy of it, queued. -/
def cp0 : Copy := ⟨0, 1, 9, 0, none, 0, 0, zeroM, [], [], [], none, none, none, none, .queued, false, 64, none, 0, false, false⟩
/-- A frame held. -/
def rxOf (f : Frame) : Device := dP.modBuf fun b => { b with frames := [(0, f)], nextFrame := 1 }
/-- A frame and its copy held. -/
def txOf (f : Frame) (c : Copy) : Device := dP.modBuf fun b =>
  { b with frames := [(0, f)], nextFrame := 1, copies := [(5, c)], nextCopy := 6, voqs := [(voqKey c.pipe c.port c.cls, [5])] }
/-- A frame in the line of a pipeline. -/
def ln (f p : Nat) (d : Device) : Device := d.modPipe p fun q => { q with line := [f] }
/-- The frame complete. -/
def done0 : Frame := { fr0 with done := true }
/-- A context at the last station. -/
def ctxEnd : Ctx := ⟨1, false, 0, 0, none, 23, none, Regs.zero, Regs.zero, z60 ++ [0, 0, 0, 0], 0, 0, none, [], none, [], [], [], 0⟩
/-- A gate list. -/
def gl : GateList := ⟨0, 1000, [(1, 500), (2, 500)], 0, 0⟩
/-- A PFC frame. -/
def pfcB (en t : Nat) : List Byte := okFrame (bytesBE 6 0x0180C2000001 ++ bytesBE 6 0 ++ bytesBE 2 0x8808 ++ bytesBE 2 0x0101 ++ bytesBE 2 en ++ bytesBE 2 t ++ List.replicate 40 0)
/-- The same at a transit time. -/
def at_ (d : Device) (n : Nat) : Device := d.modPlumb fun p => { p with transit := n }
/-- A port that is up. -/
def prt (p : Nat) (f : Port → Port) : Device := (((dU.setFlag (Off.portCfg p) 31 true).setFlag (Off.portStatus p) 31 true).modPwr fun x => { x with tiles := [p / 8] }).modPort p f
/-- A port that is enabled and down. -/
def dn (p : Nat) (f : Port → Port) : Device := ((dU.setFlag (Off.portCfg p) 31 true).modPwr fun x => { x with tiles := [p / 8] }).modPort p f
/-- A lane sleep frame. -/
def slpB (op : Nat) : List Byte := okFrame (bytesBE 6 0x0180C200000E ++ bytesBE 6 0 ++ bytesBE 2 0x88B6 ++ bytesBE 2 0x4C53 ++ [1, BitVec.ofNat 8 op] ++ List.replicate 42 0)
/-- A port that verifies its partner. -/
def vrf : Device := (prt 511 id).setFld (Off.portCfg 511) 22 21 3
/-- A span enabled. -/
def dS : Device := dU.setFlag (Off.lathCtl 31) 31 true
/-- A servo that runs on port 511. -/
def srv : Device := (prt 511 id).setReg Off.plumbServoCtl (2 ^ 31 + 511 * 2 ^ 17)
/-- A staged register of the coat. -/
def stgE : Device := dF.modCoats fun c => { c with staged := [(7, .creg Off.schedQuoteActive 1)], verifying := some ⟨0, 7, 0, false⟩ }
/-- A coat that waits to become current. -/
def pend1 : PendingCoat := ⟨{ Coat.blank with id := 2 }, 0, none, none, [], false⟩
/-- Registers with two values. -/
def ra : Regs := { Regs.zero with v := (Regs.zero.v.set 30 0x80000001).set 29 0x0000002A }
/-- Registers with a key. -/
def rk : Regs := { Regs.zero with key := fitB 48 [1, 2, 3, 4] }
/-- An ingress context at a station. -/
def cx (st : Nat) (r : Regs) : Ctx := { ctxEnd with station := st, word := some 0, regs := r }
/-- A line context whose step word holds one instruction. -/
def ld (st w : Nat) (r : Regs) : Device := { rxOf { fr0 with place := .pass, pipe := 1 } with
  coats := { dCoat.coats with slots := [(0, { Coat.blank with id := 1, isteps := [(st, [BitVec.ofNat 512 (w * 2 ^ 448)])] })] }, ctxs := [(0, cx st r)] }
/-- The same with a coat. -/
def lc (st w : Nat) : Device := { rxOf { fr0 with place := .pass, pipe := 1 } with
  coats := { dCoat.coats with slots := [(0, { Coat.blank with id := 1, isteps := [(st, [BitVec.ofNat 512 (w * 2 ^ 128)]), (st + 1, [0])] })] }
  ctxs := [(0, { cx st Regs.zero with issued := [0, 1, 2, 3, 4] })] }
/-- An egress context whose step word holds one instruction. -/
def le (st w : Nat) : Device := { txOf done0 { cp0 with stage := .egress } with
  coats := { dCoat.coats with egress := [(0, { Coat.blank with id := 1, esteps := [(st, [BitVec.ofNat 512 (w * 2 ^ 448)])] })] }
  ectxs := [(5, { cx st Regs.zero with egress := true })] }
/-- A task of thread 7 of engine 31 at code word 0x90. -/
def tk (r : Regs) : Task := ⟨15, 1, 0x7F, none, true, .thread 31 7, { r with pc := 0x90 }, 0, none, none, [], [], none, [], none, 0, 0, 100, 0, 0, 0, 0, 0, none, false⟩
/-- The thread runs, with one instruction in its bank. -/
def lt (w : Nat) (r : Regs) : Device := { dU.setReg Off.scafCodeLen1 0x92 with
  scaf := { dU.scaf with sram := Mem.writeN 0 [] 0x200480 (bytesLE 8 w), tasks := [(511, tk r)], threads := [(255, ⟨.running, some 511, 0, false, false, false⟩)] } }
/-- Registers that point into the task's stack page. -/
def rs : Regs := { Regs.zero with s := ((Regs.zero.s.set 0 0x13FFF00).set 1 16).set 2 0x13FFF40, sp := 0x1400000 }
/-- A heap region. -/
def hp (d : Device) : Device := d.setReg (Off.rstoreRegion 7) (2 ^ 31 + 2 ^ 28)
/-- A code bank in force. -/
def dT : Device := (dU.setReg Off.scafCodeLen0 0x92)
/-- A word of SRAM. -/
def wd (a v : Nat) (d : Device) : Device := d.setSram (8 * a) (bytesLE 8 v)
/-- A pull that waits. -/
def pu (n : Nat) : Device := { dT with
  buf := (txOf done0 { cp0 with port := 513, cls := 0, m := zeroM.set 7 n, pipe := 31 }).buf }
/-- A task that is ready. -/
def tkr (l : Nat) : Task := { tk Regs.zero with level := l, at_ := .ready, frameless := true }
/-- A work item ready. -/
def dp (i : WorkItem) : Device := { pu 0x7F with scaf := { dU.scaf with ready := [(11, [⟨i, 0⟩])], tasks := [(0, tkr 11)], freed := [255] } }
/-- A task that ticks. -/
def wk (l : Nat) : Device := { dT with scaf := { dU.scaf with tasks := [(0, { tkr l with at_ := .thread 31 7 }), (1, tkr 15)], threads := [(255, ⟨.running, some 0, 7, true, false, true⟩)] } }
/-- The render place of the record. -/
def hd : Nat := (key4.renderPlaces).headD 0
/-- The record in the skim store. -/
def sk (b : List Byte) : Device := dF.modFlow fun w => { w with skim := [((key4.skimPlaces).headD 0, ⟨hd, b⟩)] }
/-- The record in the render store. -/
def rn (b : List Byte) : Device := dF.modFlow fun w => { w with render := [(hd, b)] }
/-- A render request. -/
def rr (a c : Nat) : RReq := ⟨3, 0, (0, 0), a, false, 1, 0, c, 1000⟩
/-- A channel of the render store. -/
def rc (d : Device) (n : Nat) (c : RChan) : Device := { d with rstore := { d.rstore with chans := [(n, c)] } }
/-- Fault domains as given. -/
def dm (l : NMap Domain) : Device := { dO with fault := { dO.fault with doms := l } }
/-- A power transition on its way. -/
def tr (st old : Nat) (f : Power → Power) : Device := dU.modPwr fun p => { f p with running := some ⟨⟨st, 0, none⟩, [], old, 0⟩ }
/-- Supply thresholds. -/
def dV : Device := (dU.setReg Off.pwrVcore (820 * 2 ^ 16 + 820)).setReg Off.pwrShedThr 0x0614A384
/-- A start that waits for its straps. -/
def dW (k : StartKind) : Device := dU.modPwr fun p => { p with phase := .waits, kind := k }
/-- A counter bank enabled. -/
def dB : Device := { dU with perf := { dU.perf with enNow := [(255, true)] } }
/-- An export that is due. -/
def dX (c k : Nat) : Device := (dF.setReg Off.telemCtl (2 ^ 31)).setReg c (2 ^ 31 + k)

theorem test_witness_RegisterAccess :
    (meets (dO) fun d => let a0 : Fin 3 := 0; let a1 : BitVec 26 := (BitVec.ofNat 26 Off.bufMirrorMin); let seat := a0;
      let off := a1;
      match regDef? off.toNat with | none => [] | some r => [decide ((d.mayReach seat off.toNat = true) ∧ (isInd off.toNat = false) ∧ (off.toNat ≠ Off.devScratch) ∧ (regDef? off.toNat = some r) ∧ (r.half = .single) ∧ (roleOf off.toNat = .plain) ∧ (plainRw r = true))]) = true ∧
    (meets (dU.setReg Off.flowAged 7) fun d => let a0 : Fin 3 := 1; let a1 : BitVec 26 := (BitVec.ofNat 26 Off.flowAged);
      let seat := a0; let off := a1;
      match regDef? off.toNat with | none => [] | some r => [decide ((d.reaches seat off.toNat = true) ∧ (isInd off.toNat = false) ∧ (regDef? off.toNat = some r) ∧ (r.half = .single) ∧ (plainRead off.toNat = true) ∧ (d.shadow? seat off.toNat = none) ∧ (d.view off.toNat = d.reg off.toNat))]) = true ∧
    (meets (dU.setReg (Off.portRxFramesLo 511) 7) fun d => let a0 : Fin 3 := 1;
      let a1 : BitVec 26 := (BitVec.ofNat 26 (Off.portRxFramesLo 511)); let seat := a0; let off := a1;
      match regDef? off.toNat with | none => [] | some r => [decide ((d.reaches seat off.toNat = true) ∧ (isInd off.toNat = false) ∧ (regDef? off.toNat = some r) ∧ (r.half = .lo) ∧ (plainRead off.toNat = true) ∧ (d.shadow? seat off.toNat = none) ∧ (d.view off.toNat = d.reg off.toNat) ∧ (d.view (off.toNat + 4) = d.reg (off.toNat + 4)))]) = true ∧
    (meets (dO) fun d => let a0 : Fin 3 := 0; let a1 : BitVec 26 := (BitVec.ofNat 26 Off.plumbAlarmLo); let seat := a0;
      let off := a1;
      match regDef? off.toNat with | none => [] | some r => [decide ((d.mayReach seat off.toNat = true) ∧ (isInd off.toNat = false) ∧ (regDef? off.toNat = some r) ∧ (r.half = .lo))]) = true ∧
    (meets (dO.modSeat 0 fun s => { s with heldLo := [(Off.portMacLo 511, 64)] }) fun d => let a0 : Fin 3 := 0;
      let a1 : BitVec 26 := (BitVec.ofNat 26 (Off.portMacHi 511)); let seat := a0; let off := a1;
      match regDef? off.toNat, regDef? (off.toNat - 4), NMap.get? (d.seat seat).heldLo (off.toNat - 4) with | some hi, some lo, some x => [decide ((d.mayReach seat off.toNat = true) ∧ (isInd off.toNat = false) ∧ (regDef? off.toNat = some hi) ∧ (hi.half = .hi) ∧ (roleOf off.toNat = .plain) ∧ (regDef? (off.toNat - 4) = some lo) ∧ (plainRw lo = true) ∧ (plainRw hi = true) ∧ (NMap.get? (d.seat seat).heldLo (off.toNat - 4) = some x))] | _, _, _ => []) = true ∧
    (meets ((dU.setReg (ownOff 1 Off.indCount) 1).setReg (ownOff 1 Off.indAddr) Off.devScratch) fun d => let a0 : Fin 3 := 1;
      let seat := a0; [decide ((d.reaches seat Off.indData = true) ∧ ((seat : Nat) < 2) ∧ (d.reg (ownOff seat Off.indCount) = 1) ∧
      (d.reg (ownOff seat Off.indAddr) = Off.devScratch))]) = true ∧ 
    (meets (dU.setReg (ownOff 0 Off.indCount) 0) fun d => let a0 : Fin 3 := 0; let seat := a0;
      [decide ((d.reaches seat Off.indData = true) ∧ ((seat : Nat) < 2) ∧ (d.reg (ownOff seat Off.indCount) = 0))]) = true := by
  decide +kernel

theorem test_witness_ShadowedReads :
    (meets (dU) fun d => let a0 : Fin 3 := 2; let a1 : Fin 8 := 7; let seat := a0; let base := a1;
      [decide ((d.reaches seat (Off.plumbTbSecLo base) = true))]) = true ∧ 
    (meets (dU.modPlumb fun p => { p with tio := [(15, { (dU.tio 15) with fifo := [(77, true)] })] }) fun d => let a0 : Fin 3 := 2;
      let a1 : Fin 16 := 15; let seat := a0; let pin := a1;
      match (d.tio pin).fifo with | (x, up) :: rest => [decide ((d.reaches seat (Off.plumbTioCapLo pin) = true) ∧ ((d.tio pin).fifo = (x, up) :: rest))] | _ => []) = true ∧
    (meets (dU) fun d => let a0 : Fin 3 := 0; let a1 : Fin 256 := 255; let seat := a0; let entry := a1;
      [decide ((d.reaches seat (Off.hawkLogW entry 0) = true))]) = true := by
  decide +kernel

theorem test_witness_EnableWrites :
    (meets (dO.setFlag (Off.portCfg 511) 31 true) fun d => let a0 : Fin 3 := 0; let a1 : Fin 512 := 511; let a2 : BitVec 32 := 0;
      let seat := a0; let port := a1; let v := a2; [decide ((d.mayReach seat (Off.portCfg port) = true) ∧ (d.macEn port = true) ∧
      (bit v.toNat 31 = false))]) = true ∧ 
    (meets ((dO.setFld (Off.portCfg 8) 24 23 1).setFld (Off.laneCtl 8) 23 22 3) fun d => let a0 : Fin 3 := 0;
      let a1 : Fin 512 := 8;
      let a2 : BitVec 32 := (BitVec.ofNat 32 ((dO.setFld (Off.portCfg 8) 24 23 1).reg (Off.portCfg 8) + 2 ^ 31)); let seat := a0;
      let port := a1; let v := a2; [decide ((d.canonical = true) ∧ (d.mayReach seat (Off.portCfg port) = true) ∧
      (d.macEn port = false) ∧ (bit v.toNat 31 = true) ∧ (bits v.toNat 30 21 = d.fld (Off.portCfg port) 30 21) ∧
      (bits v.toNat 13 0 = d.fld (Off.portCfg port) 13 0) ∧ (d.portModeOk port = true) ∧
      ((d.setFlag (Off.portCfg port) 31 true).poolsOk = true))]) = true ∧ 
    (meets (dO.setFld (Off.laneCtl 9) 21 20 1) fun d => let a0 : Fin 3 := 0; let a1 : Fin 512 := 9;
      let a2 : BitVec 32 := (BitVec.ofNat 32 (dO.reg (Off.portCfg 8) + 2 ^ 31)); let seat := a0; let port := a1; let v := a2;
      [decide ((d.mayReach seat (Off.portCfg port) = true) ∧ (d.macEn port = false) ∧ (bit v.toNat 31 = true) ∧
      (bits v.toNat 30 21 = d.fld (Off.portCfg port) 30 21) ∧ (bits v.toNat 13 0 = d.fld (Off.portCfg port) 13 0) ∧
      (d.portModeOk port = false))]) = true ∧ 
    (meets (dO.setFlag (Off.lathCtl 31) 31 true) fun d => let a0 : Fin 3 := 0; let a1 : Fin 32 := 31; let a2 : BitVec 32 := 0;
      let seat := a0; let span := a1; let v := a2; [decide ((d.mayReach seat (Off.lathCtl span) = true) ∧ (d.spanEn span = true) ∧
      (bit v.toNat 31 = false))]) = true ∧ 
    (meets ((dO.setFld (Off.laneCtl 0) 21 20 1).setFld (Off.laneCtl 0) 23 22 1) fun d => let a0 : Fin 3 := 0;
      let a1 : Fin 32 := 0; let a2 : BitVec 32 := 0x80000000; let seat := a0; let span := a1; let v := a2;
      [decide ((d.mayReach seat (Off.lathCtl span) = true) ∧ (d.spanEn span = false) ∧ (bit v.toNat 31 = true) ∧
      (bits v.toNat 30 29 = d.fld (Off.lathCtl span) 30 29) ∧ (bits v.toNat 8 0 = d.fld (Off.lathCtl span) 8 0) ∧
      (d.spanOk span = true))]) = true ∧ 
    (meets (dO) fun d => let a0 : Fin 3 := 0; let a1 : Fin 32 := 0; let a2 : BitVec 32 := 0x80000000; let seat := a0;
      let span := a1; let v := a2; [decide ((d.mayReach seat (Off.lathCtl span) = true) ∧ (d.spanEn span = false) ∧
      (bit v.toNat 31 = true) ∧ (bits v.toNat 30 29 = d.fld (Off.lathCtl span) 30 29) ∧
      (bits v.toNat 8 0 = d.fld (Off.lathCtl span) 8 0) ∧ (d.spanOk span = false))]) = true ∧ 
    (meets (dO.setFlag (Off.lathChanCfg 0 62) 31 true) fun d => let a0 : Fin 3 := 0; let a1 : Fin 32 := 0; let a2 : Fin 63 := 62;
      let a3 : BitVec 32 := 0; let seat := a0; let span := a1; let chan := a2; let v := a3;
      [decide ((d.mayReach seat (Off.lathChanCfg span chan) = true) ∧ (d.flag (Off.lathChanCfg span chan) 31 = true) ∧
      (bit v.toNat 31 = false))]) = true ∧ 
    (meets ((dO.setReg (Off.lathChanCfg 0 0) 0x1000040) |> fun d => (List.range 40).foldl (fun d n => d.setReg (Off.lathMap 0 n) 0x01010101) d) fun d => let a0 : Fin 3 := 0;
      let a1 : Fin 32 := 0; let a2 : Fin 63 := 0; let a3 : BitVec 32 := 0x81000040; let seat := a0; let span := a1; let chan := a2;
      let v := a3;
      let x := d.chanWmax span (chan.val + 1) (d.fld (Off.lathChanCfg span chan) 15 0) (d.fld (Off.lathChanCfg span chan) 30 16);
      [decide ((d.mayReach seat (Off.lathChanCfg span chan) = true) ∧ (d.flag (Off.lathChanCfg span chan) 31 = false) ∧
      (bit v.toNat 31 = true) ∧ (bits v.toNat 30 0 = d.fld (Off.lathChanCfg span chan) 30 0) ∧
      (d.fld (Off.lathChanCfg span chan) 30 16 + 1 ≤ d.chanCap span (chan.val + 1) 0 160) ∧
      (d.chanWmax span (chan.val + 1) (d.fld (Off.lathChanCfg span chan) 15 0) (d.fld (Off.lathChanCfg span chan) 30 16) = x) ∧
      (x ≤ 1600))]) = true ∧ 
    (meets (dO.setFlag (Off.spreadGrpCtl 255) 31 true) fun d => let a0 : Fin 3 := 0; let a1 : Fin 256 := 255;
      let a2 : BitVec 32 := 0; let seat := a0; let group := a1; let v := a2;
      [decide ((d.mayReach seat (Off.spreadGrpCtl group) = true) ∧ (d.groupEn group = true) ∧ (bit v.toNat 31 = false))]) = true ∧ 
    (meets (dO) fun d => let a0 : Fin 3 := 0; let a1 : Fin 256 := 255; let a2 : BitVec 32 := 0x80008000; let seat := a0;
      let group := a1; let v := a2; [decide ((d.mayReach seat (Off.spreadGrpCtl group) = true) ∧ (d.groupEn group = false) ∧
      (bit v.toNat 31 = true) ∧ (bit v.toNat 30 = false))]) = true ∧ 
    (meets (dO.setFlag Off.telemCtl 31 true) fun d => let a0 : Fin 3 := 0; let a1 : BitVec 32 := 0; let seat := a0; let v := a1;
      [decide ((d.mayReach seat Off.telemCtl = true) ∧ (d.flag Off.telemCtl 31 = true) ∧ (bit v.toNat 31 = false))]) = true ∧ 
    (meets ((dO.setReg Off.telemPen 1).setFlag (Off.portCfg 0) 31 true) fun d => let a0 : Fin 3 := 0;
      let a1 : BitVec 32 := (BitVec.ofNat 32 (dO.reg Off.telemCtl + 2 ^ 31)); let seat := a0; let v := a1;
      [decide ((d.mayReach seat Off.telemCtl = true) ∧ (d.flag Off.telemCtl 31 = false) ∧ (bit v.toNat 31 = true) ∧
      (bits v.toNat 30 0 = d.fld Off.telemCtl 30 0) ∧ (d.reg Off.telemPen ≠ 0) ∧ (d.macEn d.telemPort = true))]) = true ∧ 
    (meets (dO) fun d => let a0 : Fin 3 := 0; let a1 : BitVec 32 := 0x80000000; let seat := a0; let v := a1;
      [decide ((d.mayReach seat Off.telemCtl = true) ∧ (d.flag Off.telemCtl 31 = false) ∧ (bit v.toNat 31 = true) ∧
      (d.reg Off.telemPen = 0))]) = true ∧ 
    (meets (dO) fun d => let a0 : Fin 3 := 0; let a1 : Fin 32 := 31; let a2 : Fin 40 := 39; let a3 : BitVec 32 := 0x01020304;
      let seat := a0; let span := a1; let n := a2; let v := a3; [decide ((d.mayReach seat (Off.lathMap span n) = true) ∧
      (d.mapOk span n v.toNat = true) ∧ (0 < (n : Nat)))]) = true := by
  decide +kernel

theorem test_witness_GuardedWrites :
    (meets (dO) fun d => let a0 : Fin 3 := 0; let a1 : Fin 512 := 511; let a2 : BitVec 32 := 0x103000; let seat := a0;
      let lane := a1; let v := a2; [decide ((d.mayReach seat (Off.laneTxTap lane) = true) ∧ (d.portOfLane lane = none) ∧
      (tapsOk (bits v.toNat 20 16) (bits v.toNat 14 8) (bits v.toNat 4 0) = true))]) = true ∧ 
    (meets (dO) fun d => let a0 : Fin 3 := 0; let a1 : Fin 512 := 511; let a2 : BitVec 32 := 0; let seat := a0; let lane := a1;
      let v := a2; [decide ((d.mayReach seat (Off.laneTxTap lane) = true) ∧
      (tapsOk (bits v.toNat 20 16) (bits v.toNat 14 8) (bits v.toNat 4 0) = false))]) = true ∧ 
    (meets (dO) fun d => let a0 : Fin 3 := 0; let a1 : BitVec 26 := (BitVec.ofNat 26 Off.bufPoolContract);
      let a2 : BitVec 32 := 65537; let seat := a0; let off := a1; let v := a2;
      [decide (([Off.bufPoolContract, Off.bufPoolRecirc, Off.bufPoolScaf].contains off.toNat = true) ∧
      (d.mayReach seat off.toNat = true) ∧ ((d.setFld off.toNat 19 0 (v.toNat % 2 ^ 20)).poolsOk = true))]) = true ∧ 
    (meets (dO) fun d => let a0 : Fin 3 := 0; let a1 : BitVec 26 := (BitVec.ofNat 26 Off.bufPoolScaf);
      let a2 : BitVec 32 := 0xFFFFF; let seat := a0; let off := a1; let v := a2;
      [decide (([Off.bufPoolContract, Off.bufPoolRecirc, Off.bufPoolScaf].contains off.toNat = true) ∧
      (d.mayReach seat off.toNat = true) ∧ ((d.setFld off.toNat 19 0 (v.toNat % 2 ^ 20)).poolsOk = false))]) = true ∧ 
    (meets (dO) fun d => let a0 : Fin 3 := 0;
      let a1 : BitVec 32 := (BitVec.ofNat 32 (1 + 2 * 64 + 3 * 64 ^ 2 + 4 * 64 ^ 3 + 63 * 64 ^ 4)); let seat := a0; let v := a1;
      [decide ((d.mayReach seat Off.pwrShedThr = true) ∧ (shedThrOk v.toNat = true))]) = true ∧ 
    (meets (dO) fun d => let a0 : Fin 3 := 0;
      let a1 : BitVec 32 := (BitVec.ofNat 32 (1 + 2 * 64 + 3 * 64 ^ 2 + 3 * 64 ^ 3 + 63 * 64 ^ 4)); let seat := a0; let v := a1;
      [decide ((d.mayReach seat Off.pwrShedThr = true) ∧ (shedThrOk v.toNat = false))]) = true ∧ 
    (meets (dO) fun d => let a0 : Fin 3 := 0; let seat := a0; [decide ((d.mayReach seat Off.plumbCtl = true))]) = true ∧
    (meets (dO) fun d => let a0 : Fin 3 := 0; let a1 : BitVec 32 := 1; let seat := a0; let v := a1;
      [decide ((d.mayReach seat Off.seatOwner = true) ∧ (d.pwr.phase = .started) ∧ (v.toNat % 4 < 3) ∧
      (v.toNat % 4 ≠ d.devOwner))]) = true ∧ 
    (meets (dO.setFld Off.seatOwner 1 0 2) fun d => let a0 : Fin 2 := 1; let a1 : BitVec 32 := 1; let seat := a0; let v := a1;
      [decide ((d.mayReach seat (Off.seatClaim seat) = true) ∧ (bit v.toNat 0 = true) ∧ (d.claimOk = true))]) = true ∧ 
    (meets (dO) fun d => let a0 : Fin 2 := 1; let seat := a0; [decide ((d.mayReach seat (Off.seatKeepalive seat) = true))]) = true ∧
    (meets (dO.setFld (Off.seatPart 0) 1 0 0) fun d => let a0 : Fin 3 := 0; let a1 : Fin 512 := 511; let seat := a0;
      let port := a1; [decide ((d.mayReach seat (Off.schedGateCtl port) = true) ∧
      (d.flag (Off.schedGateCtl port) 29 = false))]) = true ∧ 
    (meets (dO) fun d => let a0 : Fin 3 := 0; let seat := a0; [decide ((d.mayReach seat Off.perfCtl = true))]) = true ∧
    (meets (dO) fun d => let a0 : Fin 3 := 0; let seat := a0; [decide ((d.mayReach seat Off.perfCtl = true) ∧
      (d.perf.snapNext = false) ∧ (d.perf.snapAt = none))]) = true ∧ 
    (meets (dO) fun d => let a0 : Fin 3 := 0; let a1 : BitVec 32 := 0x001F0005; let seat := a0; let v := a1;
      [decide ((d.mayReach seat Off.hawkRaise = true) ∧ (bits v.toNat 15 14 < 3) ∧
      (d.slot? (512 + bits v.toNat 20 16) (v.toNat % 2 ^ 16) = none))]) = true ∧ 
    (meets (dO) fun d => let a0 : Fin 3 := 2; let seat := a0; [decide ((d.mayReach seat Off.hawkLogCtl = true))]) = true ∧
    (meets (dO) fun d => let a0 : Fin 3 := 2; let a1 : BitVec 32 := 1; let seat := a0; let v := a1;
      [decide ((d.mayReach seat Off.pwrReqL = true) ∧ (d.pwr.phase = .started) ∧ (d.pwr.running = none) ∧ (d.pwrState < 2) ∧
      (v.toNat % 8 < 3) ∧ (v.toNat % 8 ≠ d.pwrState))]) = true := by
  decide +kernel

theorem test_witness_TimeBaseCommands :
    (meets (dO.setFld (Off.plumbTbSetNs 0) 29 0 999999999) fun d => let a0 : Fin 3 := 0; let a1 : Fin 8 := 0; let seat := a0;
      let base := a1; [decide ((d.mayReach seat (Off.plumbTbCmd base) = true) ∧ ((base : Nat) = 0 ∨ d.multi = true) ∧
      (d.fld (Off.plumbTbSetNs base) 29 0 < 1000000000))]) = true ∧ 
    (meets (dO.setFlag Off.plumbCtl 31 true) fun d => let a0 : Fin 3 := 0; let a1 : Fin 8 := 7; let seat := a0; let base := a1;
      [decide ((d.mayReach seat (Off.plumbTbCmd base) = true) ∧ ((base : Nat) = 0 ∨ d.multi = true) ∧
      ((d.tb base).frac < 2 ^ 32))]) = true ∧ 
    (meets (dO) fun d => let a0 : Fin 3 := 0; let a1 : Fin 8 := 0; let seat := a0; let base := a1;
      [decide ((d.mayReach seat (Off.plumbTbCmd base) = true) ∧ ((base : Nat) = 0 ∨ d.multi = true))]) = true ∧ 
    (meets (dO.setTb 7 { (dO.tb 7) with slewing := true }) fun d => let a0 : Fin 8 := 7; let base := a0;
      [decide (((d.tb base).slewing = true) ∧ ((d.tb base).slewLeft = 0))]) = true := by
  decide +kernel

theorem test_witness_CodeSignalsFlash :
    (meets (dO.modSeat 0 fun s => { s with heldLo := [(Off.scafCodeDataHi - 4, 6)] }) fun d => let a0 : Fin 3 := 0;
      let seat := a0;
      match NMap.get? (d.seat seat).heldLo (Off.scafCodeDataHi - 4) with | some x => [decide ((d.mayReach seat Off.scafCodeDataHi = true) ∧ (d.bankDraining = false) ∧ (d.scaf.idxOver = false) ∧ (NMap.get? (d.seat seat).heldLo (Off.scafCodeDataHi - 4) = some x))] | _ => []) = true ∧
    (meets (dO.setReg Off.scafCodeLen1 145) fun d => let a0 : Fin 3 := 0; let seat := a0;
      [decide ((d.mayReach seat Off.scafCodeCtl = true) ∧ (d.bankOk (1 - d.bankActive) = true) ∧
      (d.bankDraining = false))]) = true ∧ 
    (meets (dO) fun d => let a0 : Fin 3 := 0; let seat := a0; [decide ((d.mayReach seat Off.scafCodeCtl = true) ∧
      (d.bankOk (1 - d.bankActive) = false))]) = true ∧ 
    (meets (dO) fun d => let a0 : Fin 3 := 0; let a1 : BitVec 32 := 0xFFFF; let seat := a0; let v := a1;
      [decide ((d.mayReach seat Off.scafSignal = true) ∧ ((d.scaf.waiters.all fun x => x.1 != v.toNat % 2 ^ 16) = true))]) = true ∧ 
    (meets (dO) fun d => let a0 : Fin 3 := 0; let seat := a0; [decide ((d.mayReach seat Off.darbyFlashCmd = true) ∧
      (d.flag Off.darbyFlashCmd 31 = false) ∧
      (d.touchesActive (d.fld Off.darbyFlashAddr 27 0 / 4096 * 4096) 4096 = false))]) = true ∧ 
    (meets (dO) fun d => let a0 : Fin 3 := 0; let seat := a0; [decide ((d.mayReach seat Off.darbyFlashCmd = true) ∧
      (d.flag Off.darbyFlashCmd 31 = false) ∧ (d.touchesActive (d.fld Off.darbyFlashAddr 27 0 / 256 * 256) 256 = false))]) = true ∧ 
    (meets (dO) fun d => let a0 : Fin 3 := 0; let seat := a0; [decide ((d.mayReach seat Off.darbyFlashCmd = true) ∧
      (d.flag Off.darbyFlashCmd 31 = false))]) = true := by
  decide +kernel

theorem test_witness_FlowCommands :
    (meets (dC) fun d => let a0 : CmdEntry := (fE 0 []); let c := a0;
      [decide ((d.commandReady c 0x01 (flowFlagBits 0x01) (flowUsed 0x01 c.flags.toNat) 128 = true) ∧
      (imageOk (cmdImage c 128) = true) ∧ (d.spaceEn (recId (cmdImage c 128)).space = true) ∧ (c.flags.toNat % 8 = 0) ∧
      (d.ownsOr c.seat (d.insertPart (recId (cmdImage c 128)).space (cmdImage c 128)) 4 = true) ∧
      (d.homeOf (recId (cmdImage c 128)) = none) ∧
      ((d.insertRecord (recId (cmdImage c 128)) (d.insertPart (recId (cmdImage c 128)).space (cmdImage c 128)) (sliceB (cmdImage c 128) 80 48) false false false).isSome = true))]) = true ∧
      
    (meets (dF) fun d => let a0 : CmdEntry := (fE 0 []); let c := a0;
      match d.homeOf (recId (cmdImage c 128)) with | none => [] | some h => match d.authCopy h with | none => [] | some b => [decide ((d.commandReady c 0x02 (flowFlagBits 0x02) (flowUsed 0x02 c.flags.toNat) 128 = true) ∧ (imageOk (cmdImage c 128) = true) ∧ (d.spaceEn (recId (cmdImage c 128)).space = true) ∧ (d.homeOf (recId (cmdImage c 128)) = some h) ∧ (d.authCopy h = some b) ∧ (d.ownsOr c.seat (d.partOf b) 4 = true) ∧ (lockedElse b (ringIssuer c.seat) = false) ∧ (c.flags.toNat % 4 = 0))]) = true ∧
    (meets (dF) fun d => let a0 : CmdEntry := (fE 0 []); let c := a0;
      match d.homeOf (recId (cmdImage c 128)) with | none => [] | some h => match d.authCopy h with | none => [] | some b => [decide ((d.commandReady c 0x03 (flowFlagBits 0x03) (flowUsed 0x03 c.flags.toNat) 128 = true) ∧ (imageOk (cmdImage c 128) = true) ∧ (d.spaceEn (recId (cmdImage c 128)).space = true) ∧ (d.homeOf (recId (cmdImage c 128)) = some h) ∧ (d.authCopy h = some b) ∧ (d.ownsOr c.seat (d.partOf b) 4 = true) ∧ (lockedElse b (ringIssuer c.seat) = false) ∧ (d.quoteOf (recId (cmdImage c 128)) = none))]) = true ∧
    (meets (dF) fun d => let a0 : CmdEntry := (fE 1 []); let c := a0;
      match d.homeOf (recId (cmdImage c 128)) with | none => [] | some h => match d.authCopy h with | none => [] | some b => [decide ((d.commandReady c 0x04 (flowFlagBits 0x04) (flowUsed 0x04 c.flags.toNat) 128 = true) ∧ (imageOk (cmdImage c 128) = true) ∧ (d.spaceEn (recId (cmdImage c 128)).space = true) ∧ (d.homeOf (recId (cmdImage c 128)) = some h) ∧ (d.authCopy h = some b) ∧ (d.ownsOr c.seat (d.partOf b) 4 = true) ∧ (lockedElse b (ringIssuer c.seat) = false) ∧ (b.length = 128) ∧ (c.flags.toNat % 8 = 1))]) = true ∧
    (meets (dF) fun d => let a0 : CmdEntry := (fE 2 []); let c := a0;
      match d.homeOf (recId (cmdImage c 128)) with | none => [] | some h => match d.authCopy h with | none => [] | some b => [decide ((d.commandReady c 0x05 (flowFlagBits 0x05) (flowUsed 0x05 c.flags.toNat) 128 = true) ∧ (imageOk (cmdImage c 128) = true) ∧ (d.spaceEn (recId (cmdImage c 128)).space = true) ∧ (d.homeOf (recId (cmdImage c 128)) = some h) ∧ (d.authCopy h = some b) ∧ (d.ownsOr c.seat (d.partOf b) 4 = true) ∧ (lockedElse b (ringIssuer c.seat) = false) ∧ (recQpin b = false) ∧ (c.flags.toNat % 4 = 2))]) = true ∧
    (meets (dF) fun d => let a0 : CmdEntry := (fE 0 []); let c := a0;
      match d.homeOf (recId (cmdImage c 128)) with | none => [] | some h => match d.authCopy h with | none => [] | some b => [decide ((d.commandReady c 0x11 (flowFlagBits 0x11) (flowUsed 0x11 c.flags.toNat) 128 = true) ∧ (imageOk (cmdImage c 128) = true) ∧ (d.spaceEn (recId (cmdImage c 128)).space = true) ∧ (d.homeOf (recId (cmdImage c 128)) = some h) ∧ (d.authCopy h = some b) ∧ (d.ownsOr c.seat (d.partOf b) 4 = true) ∧ (lockedElse b (ringIssuer c.seat) = false) ∧ (d.flag (Off.flowSpaceCtl (recId (cmdImage c 128)).space) 30 = false))]) = true := by
  decide +kernel

theorem test_witness_DarbyCommands :
    (meets (dCoat) fun d => let a0 : CmdEntry := (cE 1 9 96 [] (fitB 96 [0, 1])); let c := a0;
      [decide ((d.commandReady c 0x06 1 [] 96 = true) ∧ (bit c.flags.toNat 0 = true) ∧ (d.isDevOwner c.seat = true) ∧
      (d.coats.verifying = none) ∧ (d.stageLog < 4194304) ∧ ((d.stagedCoat.applyRepl (cmdImage c 96)).isOk = true))]) = true ∧ 
    (meets (dCoat) fun d => let a0 : CmdEntry := (cE 128 9 96 [0] (fitB 96 [5])); let c := a0;
      match d.coatAt (c.p 16 1) with | none => [] | some v => match v.readRecord (cmdImage c 96) with | .error _ => [] | .ok x => [decide ((d.commandReady c 0x07 2 [(16, 1)] 96 = true) ∧ (c.flags.toNat = 2 ^ 7) ∧ (c.p 16 1 < 4) ∧ (d.coatAt (c.p 16 1) = some v) ∧ (d.noBarrier = true))]) = true ∧
    (meets (dCoat) fun d => let a0 : CmdEntry := (cE 0 9 16 (bytesLE 4 0 ++ bytesLE 4 67108864) (fitB 16 [])); let c := a0;
      [decide ((d.commandReady c 0x08 1 [(16, 8)] 0 = true) ∧ (bit c.flags.toNat 0 = false) ∧ (c.len.toNat % 16 = 0) ∧
      (c.len.toNat ≤ 1048576) ∧ (c.p 20 4 ≤ 67108864) ∧ (c.p 16 4 = ((d.seat c.seat).cring c.ring).pieces.length) ∧
      (c.p 16 4 + c.len.toNat ≤ c.p 20 4))]) = true ∧ 
    (meets (stg) fun d => let a0 : CmdEntry := (cE 0 9 0 [] []); let c := a0;
      [decide ((d.commandReady c 0x09 1 [(16, 8)] 0 = true) ∧ (d.isDevOwner c.seat = true) ∧ (d.staging = true) ∧
      (d.coats.pending = none) ∧ (d.coats.verifying = none))]) = true ∧ 
    (meets (stg) fun d => let a0 : CmdEntry := (cE 0 9 0 [] []); let c := a0; [decide ((d.commandReady c 0x0A 0 [] 0 = true) ∧
      (d.coats.verifying = none))]) = true ∧ 
    (meets (((dCoat.setFlag (Off.portCfg 8) 31 true).setFlag (Off.portCfg 16) 31 true)) fun d => let a0 : CmdEntry := (cE 0 9 128 (bytesLE 4 9 ++ bytesLE 2 8 ++ bytesLE 2 16 ++ bytesLE 2 0xFFFF ++ bytesLE 2 64 ++ bytesLE 2 64 ++ bytesLE 4 64 ++ bytesLE 5 1 ++ [5] ++ bytesLE 2 65535) img4);
      let c := a0;
      match d.quoteCheck c.seat (recId (cmdImage c 128)) (QuoteReq.of c) with | .error _ => [] | .ok (h, fits, claim) => [decide ((d.commandReady c 0x0B 0 [(16, 26)] 128 = true) ∧ (imageOk (cmdImage c 128) = true) ∧ ((d.quotePin h).isSome = true))]) = true ∧
    (meets ({ dCoat with quotes := [(9, q0)] }) fun d => let a0 : CmdEntry := (cE 0 9 0 (bytesLE 4 9) []); let c := a0;
      match d.quote (c.p 16 4) with | none => [] | some q => [decide ((d.commandReady c 0x0C 0 [(16, 4)] 0 = true) ∧ (d.quote (c.p 16 4) = some q) ∧ (q.active = true) ∧ ((((q.inPort :: q.portA :: q.portB.toList).map d.portPart) ++ (((d.homeOf ⟨q.space, q.key⟩).bind d.authCopy).map d.partOf).toList).all (fun p => d.ownsOr c.seat p 6) = true))]) = true ∧
    (meets ({ dCoat with quotes := [(9, q0)] }) fun d => let a0 : CmdEntry := (cE 128 9 128 (bytesLE 4 9) []); let c := a0;
      match d.quote (c.p 16 4) with | none => [] | some q => [decide ((d.commandReady c 0x0D 0 [(16, 4)] 128 = true) ∧ (d.quote (c.p 16 4) = some q) ∧ (bit c.flags.toNat 7 = true) ∧ (d.noBarrier = true))]) = true ∧
    (meets (dC) fun d => let a0 : CmdEntry := (cE 0 9 2048 (bytesLE 8 1) []); let c := a0;
      [decide ((d.commandReady c 0x0E 0 [(16, 8)] 2048 = true) ∧ (d.ownsAny c.seat = true) ∧ (d.tbCount 0 < c.p 16 8) ∧
      (d.perf.waiting.length < 4))]) = true ∧ 
    (meets (dC) fun d => let a0 : CmdEntry := (cE 0 9 0 [3] []); let c := a0;
      [decide ((d.commandReady c 0x0F 0 [(16, 1), (24, 8)] 0 = true) ∧ (d.isDevOwner c.seat = true) ∧ (c.p 16 1 ≤ 3) ∧
      (d.pwr.switch = none) ∧ (d.coats.pending = none) ∧ (d.coats.verifying = none))]) = true ∧ 
    (meets (dC) fun d => let a0 : CmdEntry := (cE 0 9 0 [1] []); let c := a0;
      [decide ((d.commandReady c 0x10 0 [(16, 1)] 0 = true) ∧ (d.isDevOwner c.seat = true) ∧ (d.pwr.running = none) ∧
      (d.pwrState < 2) ∧ (c.p 16 1 < 3) ∧ (c.p 16 1 ≠ d.pwrState))]) = true ∧ 
    (meets (dCoat.modCoats fun c => { c with slots := [(0, { coat1 with ien := [(63, 0x80000000)] })] }) fun d => let a0 : CmdEntry := (cE 1 9 64 [1, 0, 0, 0, 63, 0] (fitB 64 []));
      let c := a0; [decide ((d.commandReady c 0x12 1 [(16, 1), (17, 1), (18, 2), (20, 1), (21, 1)] 0 = true) ∧
      (d.sendCheck c = none) ∧ ((sendFields c).pipeline = true) ∧ (bit c.flags.toNat 0 = true))]) = true ∧ 
    (meets (dC) fun d => let a0 : CmdEntry := (cE 128 9 16 [3] []); let c := a0;
      [decide ((d.commandReady c 0x13 0 [(16, 1), (17, 1), (20, 4)] 0 = true) ∧ (c.p 16 1 ≤ 3) ∧ (bit c.flags.toNat 7 = true) ∧
      (d.noBarrier = true))]) = true ∧ 
    (meets (dC) fun d => let a0 : CmdEntry := (cE 0 9 0 [0xFF, 0xFF] []); let c := a0;
      [decide ((d.commandReady c 0x14 0 [(16, 2)] 0 = true) ∧
      ((d.barrierNotes (c.p 16 2) (ringIndex c.seat c.ring)).all (fun x => decide (x.2 ≤ ((d.seat (x.1 / 8)).cring (x.1 % 8)).done)) = true))]) = true ∧
      
    (meets (dC.modSeat 1 fun s => { s with cr := [(0, { CmdRing.reset with taken := 1 })] }) fun d => let a0 : CmdEntry := (cE 0 9 0 [0xFF, 0xFF] []);
      let c := a0; [decide ((d.commandReady c 0x14 0 [(16, 2)] 0 = true) ∧
      ((d.barrierNotes (c.p 16 2) (ringIndex c.seat c.ring)).all (fun x => decide (x.2 ≤ ((d.seat (x.1 / 8)).cring (x.1 % 8)).done)) = false))]) = true := by
  decide +kernel

theorem test_witness_WakePort :
    (meets (dU) fun d => [decide ((d.pwr.phase = .started) ∧ (d.pwr.running = none))]) = true ∧
    (meets (dU) fun d => let a0 : Option (BitVec 32) := none; if a0.isSome then [] else [decide ((d.pwr.phase = .started) ∧
      (d.pwr.running = none))]) = true ∧ 
    (meets (dU.modPwr fun p => { p with wakeAddr := Off.devScratch }) fun d => let a0 : Option (BitVec 32) := (some 7);
      match a0 with | none => [] | some v => [decide ((d.pwr.phase = .started) ∧ (d.pwr.running = none) ∧ (d.pwr.wakeAddr = Off.devScratch))]) = true ∧
    (meets (dU) fun d => let a0 : BitVec 8 := 2; let state := a0; [decide ((d.pwr.phase = .started) ∧ (d.pwr.running = none) ∧
      (d.pwrState < 2) ∧ (state.toNat < 3) ∧ (state.toNat ≠ d.pwrState))]) = true ∧ 
    (meets (dU) fun d => [decide ((d.pwr.phase = .started) ∧ (d.pwr.running = none))]) = true := by
  decide +kernel

theorem test_witness_RecoveryLoader :
    (meets (dR) fun d => let a0 : RecReq := (rq (2 ^ 28 - 4096) 4096 0); let a1 : Bool := false; let q := a0;
      if a1 then [] else [decide ((d.pwr.phase = .recovery) ∧ (recReqOk 1 q = true))]) = true ∧ 
    (meets (dR) fun d => let a0 : RecReq := (rq 0 4096 0); let a1 : Bool := true; let q := a0;
      if !a1 then [] else [decide ((d.pwr.phase = .recovery) ∧ (recReqOk 1 q = true))]) = true ∧ 
    (meets (dR) fun d => let a0 : RecReq := (rq 0 4095 0); let q := a0; [decide ((d.pwr.phase = .recovery) ∧
      (recReqOk 1 q = false))]) = true ∧ 
    (meets (dR) fun d => let a0 : RecReq := (rq (2 ^ 28 - 3) 3 (crc32c [1, 2, 3])); let a1 : List Byte := [1, 2, 3];
      let a2 : Bool := false; let q := a0; let data := a1; if a2 then [] else [decide ((d.pwr.phase = .recovery) ∧
      (recReqOk 2 q = true) ∧ (data.length = q.len.toNat) ∧ (crc32c data = q.crc.toNat) ∧
      (d.flashBytes q.addr.toNat q.len.toNat = List.replicate q.len.toNat 0xFF))]) = true ∧ 
    (meets (dR) fun d => let a0 : RecReq := (rq 0 3 (crc32c [1, 2, 3] + 1)); let a1 : List Byte := [1, 2, 3]; let q := a0;
      let data := a1; [decide ((d.pwr.phase = .recovery) ∧ (recReqOk 2 q = true) ∧ (data.length = q.len.toNat) ∧
      (crc32c data ≠ q.crc.toNat))]) = true ∧ 
    (meets (dR) fun d => let a0 : RecReq := (rq 0 4 0); let a1 : Bool := false; let q := a0;
      if a1 then [] else [decide ((d.pwr.phase = .recovery) ∧ (recReqOk 3 q = true))]) = true ∧ 
    (meets (dR) fun d => let a0 : RecReq := (rq 0 0 0); let q := a0; [decide ((d.pwr.phase = .recovery) ∧
      (recReqOk 4 q = true))]) = true ∧ 
    (meets (dR) fun d => let a0 : RecReq := (rq 0 0 0); let q := a0; [decide ((d.pwr.phase = .recovery) ∧
      (recReqOk 5 q = true))]) = true := by
  decide +kernel

theorem test_witness_FrameReception :
    (meets (dP) fun d => let a0 : Fin 512 := 8; let a1 : List Byte := z60; let a2 : Bool := false; let port := a0;
      let bytes := a1; let pre := a2; [decide ((d.portUp port = true) ∧ (d.flag (Off.portStatus port) 26 = false) ∧
      (isMacControl bytes = false) ∧ (isSleepFrame bytes = false) ∧ (d.isServoFrame port bytes = false) ∧
      (d.receiving port pre = false) ∧ ((pre && !d.flag (Off.portStatus port) 29) = false))]) = true ∧ 
    (meets (rxOf { Frame.blank 8 z60 with place := .rx }) fun d => let a0 : Nat := 0; let a1 : List Byte := [0, 0, 0, 0, 0];
      let f := a0; let more := a1;
      match d.frame f with | none => [] | some x => [decide ((d.frame f = some x) ∧ (x.done = false) ∧ (x.place = .rx) ∧ (64 < x.bytes.length + more.length))]) = true ∧
    (meets (rxOf { fr0 with place := .rx }) fun d => let a0 : Nat := 0; let a1 : List Byte := []; let a2 : Bool := false;
      let f := a0; let rest := a1; let fragErr := a2;
      match d.frame f with | none => [] | some x => [decide ((d.frame f = some x) ∧ (x.done = false) ∧ (x.port < 512) ∧ (d.rxVerdict x.port (wireBytes (x.bytes ++ rest) x.removed) fragErr = .good))]) = true ∧
    (meets (rxOf { fr0 with bytes := z60 ++ [1, 2, 3, 4] }) fun d => let a0 : Nat := 0; let a1 : List Byte := [];
      let a2 : Bool := false; let f := a0; let rest := a1;
      if a2 then [] else match d.frame f with | none => [] | some x => [decide ((d.frame f = some x) ∧ (x.done = false) ∧ (x.port < 512) ∧ (d.rxVerdict x.port (wireBytes (x.bytes ++ rest) x.removed) false = .badFcs))]) = true ∧
    (meets (rxOf fr0) fun d => let a0 : Nat := 0; let a1 : List Byte := (List.replicate 1459 0); let a2 : Bool := false;
      let f := a0; let rest := a1; let fragErr := a2;
      match d.frame f with | none => [] | some x => [decide ((d.frame f = some x) ∧ (x.done = false) ∧ (x.port < 512) ∧ (d.rxVerdict x.port (wireBytes (x.bytes ++ rest) x.removed) fragErr = .oversize))]) = true ∧
    (meets (rxOf { fr0 with bytes := List.replicate 63 0 }) fun d => let a0 : Nat := 0; let a1 : List Byte := [];
      let a2 : Bool := false; let f := a0; let rest := a1; let fragErr := a2;
      match d.frame f with | none => [] | some x => [decide ((d.frame f = some x) ∧ (x.done = false) ∧ (x.port < 512) ∧ (d.rxVerdict x.port (wireBytes (x.bytes ++ rest) x.removed) fragErr = .runt))]) = true ∧
    (meets (rxOf { fr0 with bytes := List.replicate 63 0 }) fun d => let a0 : Nat := 0; let a2 : Bool := true; let f := a0;
      if !a2 then [] else match d.frame f with | none => [] | some x => [decide ((d.frame f = some x) ∧ (x.done = false) ∧ (x.port < 512))]) = true := by
  decide +kernel

theorem test_witness_PassEntryAndExit :
    (meets ({ (rxOf { fr0 with place := .entry, granted := false, pipe := 1 }) with pipes := ⟨[(1, { Pipe.reset with entryQ := [0] })], []⟩, coats := dCoat.coats }) fun d => let a0 : Fin 32 := 1;
      let pipe := a0;
      match (d.pipe pipe).entryQ, d.coats.cur with | [f], some s => (match d.frame f, d.coatAt s with | some x, some k => (match entryAddr k.ien (NMap.getD k.pmapI x.port 0) with | some a => [decide ((d.domainOk 2 pipe = true) ∧ (d.pwr.portsDown = false) ∧ (d.coats.pending = none) ∧ (d.pwr.switch = none) ∧ (d.pipes.reload = []) ∧ ((d.pipe pipe).prioQ = []) ∧ ((d.pipe pipe).entryQ = [f]) ∧ (d.reserveCount pipe < 256) ∧ (d.frame f = some x) ∧ (x.granted = false) ∧ (x.parks = 0) ∧ (x.port < 512) ∧ (x.pipe = pipe.val) ∧ (d.coats.cur = some s) ∧ (s < 4) ∧ (d.coatAt s = some k) ∧ (k.id < 2 ^ 22) ∧ (entryAddr k.ien (NMap.getD k.pmapI x.port 0) = some a))] | none => []) | _, _ => []) | _, _ => []) = true ∧
    (meets ({ (ln 0 1 <| rxOf { fr0 with place := .pass, pipe := 1 }) with ctxs := [(0, ctxEnd)], coats := dCoat.coats }) fun d => let a0 : Nat := 0;
      let f := a0;
      match NMap.get? d.ctxs f, d.frame f with | some x, some y => [decide ((NMap.get? d.ctxs f = some x) ∧ (d.frame f = some y) ∧ (y.place = .pass) ∧ (x.live = false) ∧ (y.seam = none) ∧ (d.firstInLine x.pipe = some f) ∧ (d.turnCome (.ing f) x = true))] | _, _ => []) = true ∧
    (meets ({ (ln 0 1 <| rxOf { fr0 with place := .pass, pipe := 1 }) with ctxs := [(0, { ctxEnd with regs := { Regs.zero with m := zeroM.set 3 512 } })], coats := dCoat.coats }) fun d => let a0 : Nat := 0;
      let f := a0;
      match NMap.get? d.ctxs f, d.frame f with | some x, some y => [decide ((NMap.get? d.ctxs f = some x) ∧ (d.frame f = some y) ∧ (x.live = false) ∧ (y.killed = false) ∧ (y.punt = none) ∧ (x.stopAt = none) ∧ (d.firstInLine x.pipe = some f) ∧ (d.turnCome (.ing f) x = true) ∧ (x.noFlowDue = true) ∧ (x.settleRest.regs.mN 3 / 2 ^ 30 = 0) ∧ (x.settleRest.regs.mN 3 % 2 ^ 16 = 512))] | _, _ => []) = true ∧
    (meets ({ (ln 0 1 <| rxOf { fr0 with place := .pass, pipe := 1 }) with ctxs := [(0, { ctxEnd with stopAt := some 9 })], coats := dCoat.coats }) fun d => let a0 : Nat := 0;
      let f := a0;
      match NMap.get? d.ctxs f, d.frame f with | some x, some y => [decide ((NMap.get? d.ctxs f = some x) ∧ (d.frame f = some y) ∧ (x.live = false) ∧ (y.killed = false) ∧ (y.punt = none) ∧ (x.stopAt.isSome = true) ∧ (d.firstInLine x.pipe = some f) ∧ (d.turnCome (.ing f) x = true) ∧ (x.noFlowDue = true))] | _, _ => []) = true ∧
    (meets ((rxOf { Frame.blank 8 (okFrame z60) with done := true, place := .recirc }).modPipe (Frame.blank 8 []).pipe fun q => { q with places := [0] }) fun d => let a0 : Nat := 0;
      let f := a0;
      match d.frame f with | none => [] | some x => [decide ((d.frame f = some x) ∧ (x.place = .recirc) ∧ (x.done = true ∨ x.base + 64 ≤ x.bytes.length) ∧ ((((d.pipe x.pipe).places.takeWhile (· ≠ f)).any fun g => (d.frame g).any Frame.windowHeld) = false))]) = true ∧
    (meets ((rxOf { fr0 with place := .lodge, pipe := 1 }).modFlow fun w => { w with lodge := [⟨key4, 0, 9, .lodged, [(0, false)]⟩] }) fun d => let a0 : Nat := 0;
      let f := a0;
      match d.frame f, d.nextReturn f with | some x, some e => [decide ((d.frame f = some x) ∧ (d.nextReturn f = some e) ∧ (x.place = .lodge) ∧ (d.reserveCount x.pipe < 160))] | _, _ => []) = true := by
  decide +kernel

theorem test_witness_ReplicationAndLodge :
    (meets ({ (rxOf { fr0 with place := .repl, pipe := 1, done := true }).modBuf fun b => { b with repl := [(1, [⟨0, 7, 0, none, 2, 2⟩])] } with coats := { dCoat.coats with slots := [(0, { coat1 with repl := [(7 * 512, 0x8009)] })] } }) fun d => let a0 : Fin 32 := 1;
      let pipe := a0;
      match NMap.getD d.buf.repl pipe [] with | [] => [] | it :: rest => (match d.frame it.frame with | none => [] | some x => match (d.replList (x.mN 1 % 4) it.group).drop it.next with | [e] => [decide ((NMap.getD d.buf.repl pipe [] = it :: rest) ∧ (d.frame it.frame = some x) ∧ ((d.replList (x.mN 1 % 4) it.group).drop it.next = [e]) ∧ (e.getLsbD 13 = false) ∧ ((e.toNat % 1024 = x.port → e.getLsbD 14 = true)) ∧ (d.descriptors < 1048576) ∧ (d.targetUp (e.toNat % 1024) = true) ∧ (it.cls ≠ 7) ∧ (it.quote = none))] | _ => [])) = true ∧
    (meets ((rxOf { fr0 with place := .lodge }).modFlow fun w => { w with lodge := [⟨key4, 0, 9, .pending, [(0, false)]⟩] }) fun d => let a0 : Fin 16 := 2;
      let a1 : List Byte := [1, 2, 3, 4]; let space := a0; let key := a1;
      match d.lodged? ⟨space, key⟩ with | none => [] | some e => [decide ((d.lodged? ⟨space, key⟩ = some e) ∧ (e.outcome = .pending) ∧ (d.homeOf ⟨space, key⟩ = none))]) = true ∧
    (meets ((rxOf { fr0 with place := .lodge }).modFlow fun w => { w with lodge := [⟨key4, 0, 0, .pending, [(0, false)]⟩] }) fun d => let a0 : Fin 16 := 2;
      let a1 : List Byte := [1, 2, 3, 4]; let space := a0; let key := a1;
      match d.lodged? ⟨space, key⟩ with | none => [] | some e => [decide ((d.lodged? ⟨space, key⟩ = some e) ∧ (e.limit ≤ d.transit) ∧ ((e.frames.any fun p => !p.2) = true))]) = true := by
  decide +kernel

theorem test_witness_Transmission :
    (meets (txOf done0 cp0) fun d => let a0 : Fin 512 := 9; let a1 : Nat := 0; let port := a0; let stream := a1;
      let e := (((d.countHolds port).calendarSlot port).expireHeads port).tags port;
      match e.pick a0 with | some (.head c i h) => (match e.copy h with | some x => [decide ((d.domainOk 3 (pipeOf port) = true) ∧ (d.pwr.squelch = false) ∧ (d.spanOf port = none) ∧ ((stream : Nat) = 0) ∧ ((port : Nat) < 512) ∧ (d.txReady port = true) ∧ ((d.port port).tx = none) ∧ (((((d.countHolds port).calendarSlot port).expireHeads port).tags port).pick port = some (.head c i h)) ∧ (((((d.countHolds port).calendarSlot port).expireHeads port).tags port).copy h = some x) ∧ (((((d.countHolds port).calendarSlot port).expireHeads port).tags port).deqDrop x = none) ∧ (x.port = port.val))] | none => []) | _ => []) = true ∧
    (meets ({ (txOf done0 { cp0 with cls := 7, quote := some 9, deadline := 1000 }) with quotes := [(9, q0)], scheds := [(9, { Sched.reset with grants := [(9, (1, 84))] })] }) fun d => let a0 : Fin 512 := 9;
      let a1 : Nat := 0; let port := a0; let stream := a1;
      let e := (((d.countHolds port).calendarSlot port).expireHeads port).tags port;
      match e.pick a0 with | some (.grant h) => (match e.copy h with | some x => [decide ((d.domainOk 3 (pipeOf port) = true) ∧ (d.pwr.squelch = false) ∧ (d.spanOf port = none) ∧ ((stream : Nat) = 0) ∧ ((port : Nat) < 512) ∧ (d.txReady port = true) ∧ ((d.port port).tx = none) ∧ (((((d.countHolds port).calendarSlot port).expireHeads port).tags port).pick port = some (.grant h)) ∧ (((((d.countHolds port).calendarSlot port).expireHeads port).tags port).copy h = some x) ∧ (((((d.countHolds port).calendarSlot port).expireHeads port).tags port).deqDrop x = none) ∧ (x.port = port.val))] | none => []) | _ => []) = true ∧
    (meets (((txOf done0 { cp0 with port := 0 }).setFlag (Off.lathCtl 0) 31 true).setFlag (Off.lathStatus 0) 31 true) fun d => let a0 : Fin 512 := 0;
      let a1 : Nat := 0; let port := a0; let stream := a1; let e := ((d.countHolds port).expireHeads port).tags port;
      match d.spanOf a0, e.pickSpan a0 a1 with | some s, some (.head c i h) => (match e.copy h with | some x => [decide ((d.domainOk 3 (pipeOf port) = true) ∧ (d.pwr.squelch = false) ∧ (d.spanOf port = some s) ∧ ((stream : Nat) ≤ 63) ∧ (d.targetUp port = true) ∧ (d.streamBusy s port stream = false) ∧ ((((d.countHolds port).expireHeads port).tags port).pickSpan port stream = some (.head c i h)) ∧ ((((d.countHolds port).expireHeads port).tags port).copy h = some x) ∧ ((((d.countHolds port).expireHeads port).tags port).deqDrop x = none))] | none => []) | _, _ => []) = true ∧
    (meets ((txOf done0 { cp0 with stage := .selected }).modCoats fun c => { c with egress := [(0, { Coat.blank with een := [(0, 0x80000000)], esteps := [(0, [0])] })] }) fun d => let a0 : Nat := 5;
      let copy := a0;
      match d.copy copy with | none => [] | some x => match d.frame x.frame, d.egressWord x with | some fr, some i => [decide ((d.copy copy = some x) ∧ (d.frame x.frame = some fr) ∧ (x.stage = .selected) ∧ (d.domainOk 3 (pipeOf x.port) = true) ∧ (d.egressWord x = some i) ∧ (d.pipes.reload = []) ∧ (x.quote.all (fun _ => !d.deadlinePassed x.deadline) = true))] | _, _ => []) = true ∧
    (meets ((txOf done0 { cp0 with stage := .selected, cls := 7, quote := some 9, deadline := 0 }).modPlumb fun p => { p with transit := 1 }) fun d => let a0 : Nat := 5;
      let copy := a0;
      match d.copy copy with | none => [] | some x => match x.quote with | none => [] | some q => [decide ((d.copy copy = some x) ∧ ((d.frame x.frame).isSome = true) ∧ (x.stage = .selected) ∧ (d.domainOk 3 (pipeOf x.port) = true) ∧ (x.quote = some q) ∧ (d.deadlinePassed x.deadline = true))]) = true ∧
    (meets ((txOf done0 { cp0 with stage := .egress, mirror := some (9, 3) }).modBuf fun b => { b with nextCopy := 6 }) fun d => let a0 : Nat := 5;
      let copy := a0;
      match d.copy copy with | none => [] | some x => match d.frame x.frame with | none => [] | some fr => [decide ((d.copy copy = some x) ∧ (d.frame x.frame = some fr) ∧ (x.stage = .egress) ∧ (d.egressDone copy = true) ∧ (d.txReady x.port = true) ∧ (d.spanOf x.port = none) ∧ (x.mirror = none ∨ copy < d.buf.nextCopy) ∧ (fr.bad = false) ∧ (d.egressDrop copy = none) ∧ (d.domainOk 3 (pipeOf x.port) = true) ∧ (d.pwr.squelch = false) ∧ (d.gateOpen x.port x.cls = true))]) = true ∧
    (meets ((txOf done0 { cp0 with stage := .mac }).modPort 9 fun x => { x with tx := some 5 }) fun d => let a0 : Fin 512 := 9;
      let a1 : Nat := 0; let port := a0; let stream := a1;
      match d.inFlight a0 a1 with | none => [] | some c => match d.copy c with | none => [] | some x => match d.frame x.frame with | none => [] | some fr => [decide ((d.spanOf port = none) ∧ (d.pwr.squelch = false) ∧ (d.inFlight port stream = some c) ∧ (d.copy c = some x) ∧ (d.frame x.frame = some fr) ∧ (x.stage = .mac) ∧ (fr.done = true))]) = true ∧
    (meets (((txOf done0 { cp0 with port := 0, stage := .mac }).setFlag (Off.lathCtl 0) 31 true).setFlag (Off.lathStatus 0) 31 true) fun d => let a0 : Fin 512 := 0;
      let a1 : Nat := 0; let port := a0; let stream := a1;
      match d.spanOf a0, d.lastSent a0 a1 with | some s, some c => (match d.copy c with | some x => [decide ((d.spanOf port = some s) ∧ (d.pwr.squelch = false) ∧ (d.lastSent port stream = some c) ∧ (d.copy c = some x) ∧ ((d.frame x.frame).any (fun fr => fr.done) = true))] | none => []) | _, _ => []) = true ∧
    (meets ((((txOf done0 { cp0 with port := 0, stage := .egress, mirror := some (516, 0) }).modBuf fun b => { b with nextCopy := 6 }).setFlag (Off.lathCtl 0) 31 true).setFlag (Off.lathStatus 0) 31 true) fun d => let a0 : Nat := 5;
      let copy := a0;
      match d.copy copy with | none => [] | some x => match d.frame x.frame with | none => [] | some fr => [decide ((d.copy copy = some x) ∧ (d.frame x.frame = some fr) ∧ (x.stage = .egress) ∧ (d.egressDone copy = true) ∧ ((d.spanOf x.port).isSome = true) ∧ (fr.done = true) ∧ (fr.bad = false) ∧ (x.mirror = none ∨ copy < d.buf.nextCopy) ∧ (d.egressDrop copy = none) ∧ (d.domainOk 3 (pipeOf x.port) = true) ∧ (d.pwr.squelch = false))]) = true := by
  decide +kernel

theorem test_witness_ShapingAndGates :
    (meets (dU.modPlumb fun p => { p with transit := 1000 }) fun d => let a0 : Fin 512 := 511; let port := a0;
      [decide (((d.sched port).slot ≠ d.slotNow port))]) = true ∧ 
    (meets ({ dU with quotes := [(9, q0)] }) fun d => match d.quotes with | [] => [] | (q, x) :: _ => [decide ((d.quote q = some x) ∧ (x.active = true))]) = true ∧
    (meets (dU.modPlumb fun p => { p with transit := 125 }) fun d => let a0 : Fin 512 := 511; let port := a0;
      [decide (((d.sched port).refilled < d.transit / 125))]) = true ∧ 
    (meets ((((txOf done0 { cp0 with stage := .mac, cls := 1 }).setFlag (Off.portStatus 9) 29 true).setFlag (Off.schedGateCtl 9) 31 true).modSched 9 (fun s => { s with oper := some { gl with base := 1 } }) |> fun d => (d.modPort 9 fun x => { x with tx := some 5 }).setTb 0 { (d.tb 0) with ns := 1001 }) fun d => let a0 : Fin 512 := 9;
      let port := a0;
      match (d.sched a0).oper, d.preemptable a0 with | some g, some c => (match d.copy c with | some x => [decide (((d.sched port).oper = some g) ∧ (d.flag (Off.schedGateCtl port) 31 = true) ∧ ((d.sched port).gateSt ≠ d.gates port) ∧ (d.preemptable port = some c) ∧ (d.copy c = some x) ∧ (bit (g.statesAt (d.tbCount g.tb)) x.cls = false))] | none => []) | _, _ => []) = true ∧
    (meets (((dU.setFlag (Off.schedGateCtl 9) 31 true).modSched 9 fun s => { s with oper := some gl, shape := [(0, 0xC0000000)] }).setTb 0 { (dU.tb 0) with ns := 500 }) fun d => let a0 : Fin 512 := 9;
      let port := a0;
      match (d.sched a0).oper with | some g => (List.range 7).flatMap fun c => [decide (((d.sched port).oper = some g) ∧ (d.flag (Off.schedGateCtl port) 31 = true) ∧ (c < 7) ∧ (bit (d.sched port).gateSt c ≠ bit (d.gates port) c) ∧ (d.bucketOn port c = true) ∧ (bit (NMap.getD (d.sched port).shape c 0) 30 = true))] | _ => []) = true ∧
    (meets ((dU.setFlag (Off.schedGateCtl 9) 31 true).modSched 9 fun s => { s with pend := some gl }) fun d => let a0 : Fin 512 := 9;
      let port := a0;
      match (d.sched a0).pend with | some g => [decide (((d.sched port).pend = some g) ∧ (g.change ≤ d.tbCount g.tb) ∧ (d.flag (Off.schedGateCtl port) 31 = true))] | none => []) = true := by
  decide +kernel

theorem test_witness_FlowControl :
    (meets (dP.setFld (Off.portPfc 8) 14 8 1) fun d => let a0 : Fin 512 := 8; let a1 : List Byte := (pfcB 1 1); let port := a0;
      let bytes := a1; (List.range 7).flatMap fun c => [decide ((d.rxOpen port = true) ∧ (isMacControl bytes = true) ∧
      (d.rxVerdict port bytes false = .good) ∧ (fieldBE bytes 14 2 = 0x0101) ∧ (c < 7) ∧ (bit (fieldBE bytes 16 2 % 256) c = true) ∧
      (bit (d.fld (Off.portPfc port) 14 8) c = true) ∧ (0 < fieldBE bytes (18 + 2 * c) 2))]) = true ∧ 
    (meets (dP.setFld (Off.portPfc 8) 14 8 1) fun d => let a0 : Fin 512 := 8; let a1 : List Byte := (pfcB 1 0); let port := a0;
      let bytes := a1; (List.range 7).flatMap fun c => [decide ((d.rxOpen port = true) ∧ (isMacControl bytes = true) ∧
      (d.rxVerdict port bytes false = .good) ∧ (fieldBE bytes 14 2 = 0x0101) ∧ (c < 7) ∧ (bit (fieldBE bytes 16 2 % 256) c = true) ∧
      (bit (d.fld (Off.portPfc port) 14 8) c = true) ∧ (fieldBE bytes (18 + 2 * c) 2 = 0))]) = true ∧ 
    (meets (dP) fun d => let a0 : Fin 512 := 8;
      let a1 : List Byte := (okFrame (bytesBE 6 0x0180C2000001 ++ bytesBE 6 0 ++ bytesBE 2 0x8808 ++ bytesBE 2 1 ++ List.replicate 44 0));
      let port := a0; let bytes := a1; [decide ((d.rxOpen port = true) ∧ (isMacControl bytes = true) ∧
      (d.rxVerdict port bytes false = .good) ∧ (fieldBE bytes 14 2 = 1))]) = true ∧ 
    (meets ((dU.setFlag (Off.portStatus 511) 14 true).modPort 511 fun x => { x with pauseEnd := [(6, 0)] }) fun d => let a0 : Fin 512 := 511;
      let a1 : Fin 8 := 6; let port := a0; let cls := a1;
      match NMap.get? (d.port a0).pauseEnd a1 with | some x => [decide ((NMap.get? (d.port port).pauseEnd cls = some x) ∧ (x ≤ d.transit) ∧ (d.flag (Off.portStatus port) (8 + cls.val) = true))] | _ => []) = true ∧
    (meets ((dP.setFld (Off.portStatus 8) 7 0 128).modPlumb fun p => { p with transit := 1000000 }) fun d => let a0 : Fin 512 := 8;
      let port := a0; (List.range 8).flatMap fun c => [decide ((d.pwr.squelch = false) ∧ (d.portUp port = true) ∧ (c < 8) ∧
      (bit (d.fld (Off.portStatus port) 7 0) c = true) ∧
      (NMap.getD (d.port port).pfcSent c 0 + d.fld (Off.portPfc port) 31 16 * 256 / max 1 (d.portRate port) ≤ d.transit))]) = true ∧
      
    (meets (((txOf done0 cp0).setFlag Off.bufWd 31 true).modPort 9 fun x => { x with pauseFrom := [(0, 0)] }) fun d => let a0 : Fin 512 := 9;
      let a1 : Fin 8 := 0; let port := a0; let cls := a1;
      match NMap.get? (d.port a0).pauseFrom a1 with | some x => [decide ((NMap.get? (d.port port).pauseFrom cls = some x) ∧ (x ≤ d.transit) ∧ (d.flag Off.bufWd 31 = true) ∧ (d.classWaits port cls = true) ∧ ((d.port port).wd.contains cls.val = false))] | _ => []) = true ∧
    (meets ((dP.modPort 9 fun x => { x with wd := [6] }).modPlumb fun p => { p with transit := 1000000 }) fun d => let a0 : Fin 512 := 9;
      let a1 : Fin 8 := 6; let port := a0; let cls := a1; [decide (((d.port port).wd.contains cls.val = true) ∧
      (bit (d.fld (Off.portStatus port) 15 8) cls = false) ∧
      (NMap.getD (d.port port).unpaused cls 0 + 1000000 ≤ d.transit))]) = true ∧ 
    (meets (dU.modPort 9 fun x => { x with flushing := true }) fun d => let a0 : Fin 512 := 9; let port := a0;
      [decide (((d.port port).flushing = true))]) = true ∧ 
    (meets (((dU.setFlag (Off.portCfg 9) 31 true).setFlag (Off.laneStatus 9) 0 true).modPort 9 fun x => { x with flushing := true, bring := .up, aligned := true }) fun d => let a0 : Fin 512 := 9;
      let port := a0; [decide (((d.port port).flushing = true) ∧ (d.macEn port = true) ∧ (d.portUp port = false) ∧
      ((d.port port).bring = .up) ∧ ((d.port port).aligned = true) ∧ ((d.port port).faultSet = false) ∧
      ((d.lanesOf port).all (fun l => d.flag (Off.laneStatus l) 0) = true))]) = true := by
  decide +kernel

theorem test_witness_BringUp :
    (meets (dn 511 fun x => { x with bring := .down }) fun d => let a0 : Fin 512 := 511; let a1 : Bool := false; let port := a0;
      if a1 then [] else [decide (((d.port port).bring = .down) ∧ (d.mayBringUp port = true))]) = true ∧ 
    (meets ((dn 511 fun x => { x with bring := .adapt }).setFlag (Off.laneCtl 511) 27 true) fun d => let a0 : Fin 512 := 511;
      let a1 : Bool := true; let port := a0; if !a1 then [] else [decide (((d.port port).bring = .adapt) ∧
      (d.canTrain port = true))]) = true ∧ 
    (meets (dn 0 fun x => { x with bring := .adapt }) fun d => let a0 : Fin 512 := 0; let a1 : Bool := true; let port := a0;
      if !a1 then [] else [decide ((((d.port port).bring = .adapt ∧
      d.transit ≤ (d.port port).since + 20000000) ∨ ((d.port port).bring = .train ∧
      d.transit ≤ (d.port port).since + 500000000)))]) = true ∧ 
    (meets (dn 511 fun x => { x with bring := .train }) fun d => let a0 : Fin 512 := 511; let a1 : Bool := false; let port := a0;
      let good := a1;
      [decide ((good = false ∨ (d.port port).since + (if (d.port port).bring = .adapt then 20000000 else 500000000) < d.transit) ∧
      ((d.port port).bring = .train ∨ ((d.port port).bring = .adapt ∧ d.canTrain port = false)))]) = true ∧ 
    (meets (at_ ((dn 511 fun x => { x with bring := .adapt }).setFlag (Off.laneCtl 511) 27 true) 20000001) fun d => let a0 : Fin 512 := 511;
      let a1 : Bool := true; let port := a0; let good := a1;
      [decide ((good = false ∨ (d.port port).since + (if (d.port port).bring = .adapt then 20000000 else 500000000) < d.transit) ∧
      ((d.port port).bring = .adapt) ∧ (d.canTrain port = true))]) = true ∧ 
    (meets (at_ (dn 511 fun x => { x with bring := .held }) 1000000000) fun d => let a0 : Fin 512 := 511; let port := a0;
      [decide ((d.mayBringUp port = true) ∧ ((d.port port).bring = .held) ∧
      ((d.port port).since + 2 ^ d.fld (Off.laneStatus port) 11 8 * 1000000000 ≤ d.transit))]) = true ∧ 
    (meets (prt 511 fun x => { x with bring := .up }) fun d => let a0 : Fin 512 := 511; let lane := a0;
      [decide (((d.portOfLane lane).isSome = true ∨ d.laneAssigned lane = true) ∧
      ((d.portOfLane lane).all (fun p => !d.rxAsleep p && ((d.port p).rxArmed.isNone || !d.portUp p)) = true) ∧
      (d.flag (Off.laneStatus lane) 4 = false))]) = true ∧ 
    (meets (prt 511 fun x => { x with bring := .up, rxArmed := some 1 }) fun d => let a0 : Fin 512 := 511; let lane := a0;
      match d.portOfLane a0 with | some p => [decide ((d.portOfLane lane = some p) ∧ (d.rxAsleep p = false) ∧ ((d.port p).rxArmed.isSome = true) ∧ (d.portUp p = true))] | _ => []) = true ∧
    (meets (prt 511 fun x => { x with bring := .up }) fun d => let a0 : Fin 512 := 511; let lane := a0;
      [decide ((d.laneAssigned lane = true) ∧
      ((d.portOfLane lane).all (fun p => !d.rxAsleep p || (d.port p).rxAsleepAt.isNone) = true))]) = true ∧ 
    (meets ((prt 511 fun x => { x with rxAsleepAt := some 0 }).setFlag (Off.laneStatus 511) 4 true) fun _ => [decide (True)]) = true ∧
      
    (meets (prt 511 fun x => { x with bring := .up }) fun d => let a0 : Fin 512 := 511; let a1 : Bool := true;
      let a2 : Bool := false; let port := a0; let fault := a1; let aligned := a2; [decide ((d.macEn port = true) ∧
      (fault = true ∨ aligned = false))]) = true ∧ 
    (meets ((dn 511 fun x => { x with bring := .up }).setFlag (Off.laneStatus 511) 0 true) fun d => let a0 : Fin 512 := 511;
      let a1 : Bool := false; let a2 : Bool := true; let port := a0; if a1 || !a2 then [] else [decide ((d.macEn port = true) ∧
      (d.portUp port = false) ∧ ((d.port port).bring = .up) ∧ ((d.port port).flushing = false) ∧
      ((d.lanesOf port).all (fun l => d.flag (Off.laneStatus l) 0) = true))]) = true ∧ 
    (meets ((dn 511 fun x => { x with bring := .train }).setReg (Off.laneTxTap 511) (16 * 2 ^ 16 + 47 * 256)) fun d => let a0 : Fin 512 := 511;
      let a1 : Fin 4 := 1; let a2 : Bool := true; let lane := a0; let coef := a1; let up := a2;
      match d.portOfLane a0 with | some p => (let o : Int := if up then 1 else -1; let a := (d.fld (Off.laneTxTap lane) 20 16 : Int) - (if coef = 0 then o else 0); let b := (d.fld (Off.laneTxTap lane) 14 8 : Int) + (if coef = 1 then o else 0); let c := (d.fld (Off.laneTxTap lane) 4 0 : Int) - (if coef = 2 then o else 0); [decide ((d.portOfLane lane = some p) ∧ ((d.port p).bring = .train) ∧ (o = (if up then 1 else -1)) ∧ (coef ≠ 3) ∧ (a = (d.fld (Off.laneTxTap lane) 20 16 : Int) - (if coef = 0 then o else 0)) ∧ (b = (d.fld (Off.laneTxTap lane) 14 8 : Int) + (if coef = 1 then o else 0)) ∧ (c = (d.fld (Off.laneTxTap lane) 4 0 : Int) - (if coef = 2 then o else 0)))]) | _ => []) = true ∧
    (meets (dn 511 fun x => { x with bring := .train }) fun d => let a0 : Fin 512 := 511; let a1 : Fin 4 := 3; let lane := a0;
      if a1.val != 3 then [] else match d.portOfLane a0 with | some p => [decide ((d.portOfLane lane = some p) ∧ ((d.port p).bring = .train))] | _ => []) = true := by
  decide +kernel

theorem test_witness_LaneSleep :
    (meets (at_ (prt 511 fun x => { x with helloAt := some 0 }) 1000000000) fun d => let a0 : Fin 512 := 511; let port := a0;
      [decide ((d.txReady port = true) ∧
      ((d.port port).helloAt.all (fun x => decide (x + 1000000000 ≤ d.transit)) = true))]) = true ∧ 
    (meets (prt 511 id) fun d => let a0 : Fin 512 := 511; let a1 : List Byte := (slpB 1); let port := a0; let bytes := a1;
      [decide ((d.rxOpen port = true) ∧ (isSleepFrame bytes = true) ∧ (d.rxVerdict port bytes false = .good) ∧
      (fieldBE bytes 14 2 = 0x4C53) ∧ (fieldBE bytes 16 1 = 1) ∧ (fieldBE bytes 17 1 = 1))]) = true ∧ 
    (meets (at_ (prt 511 fun x => { x with txAsleep := true, idleFrom := 1000000000, helloAt := some 0 }) 1000000000 |> fun d => d.setFlag (Off.portStatus 511) 27 true) fun d => let a0 : Fin 512 := 511;
      let port := a0; [decide ((d.portUp port = true) ∧ (d.txAsleep port = true) ∧ (d.pwr.squelch = false) ∧
      ((d.port port).txWakeAt = none) ∧
      ((d.port port).helloAt.all (fun x => decide (x + 1000000000 ≤ d.transit)) = true))]) = true ∧ 
    (meets (prt 511 fun x => { x with peer := some (0, 0, 0) }) fun d => let a0 : Fin 512 := 511; let port := a0;
      match (d.port a0).peer with | some (x, k) => [decide (((d.port port).peer = some (x, k)) ∧ (x ≤ d.transit))] | _ => []) = true ∧
    (meets (at_ (((prt 511 fun x => { x with bring := .up, sleepTx := true }).setFlag (Off.portSleep 511) 31 true).setFlag (Off.portStatus 511) 28 true) 255000) fun d => let a0 : Fin 512 := 511;
      let port := a0; [decide ((d.pwr.squelch = false) ∧ (d.sleepOk port = true) ∧ (d.txAsleep port = false) ∧
      ((d.port port).txWakeAt = none) ∧
      ((d.port port).sleepCopies ≠ 0 ∨ (d.port port).idleFrom + 1000 * d.sleepIdleUs port ≤ d.transit))]) = true ∧ 
    (meets (prt 511 fun x => { x with sleepCopies := 2 }) fun d => let a0 : Fin 512 := 511; let port := a0;
      [decide ((d.sleepOk port = false) ∧ ((d.port port).sleepCopies ≠ 0))]) = true ∧ 
    (meets (prt 511 id) fun d => let a0 : Fin 512 := 511; let a1 : List Byte := (slpB 2); let port := a0; let bytes := a1;
      [decide ((d.rxOpen port = true) ∧ (isSleepFrame bytes = true) ∧ (d.rxVerdict port bytes false = .good) ∧
      (fieldBE bytes 14 2 = 0x4C53) ∧ (fieldBE bytes 16 1 = 1) ∧ (fieldBE bytes 17 1 = 2))]) = true ∧ 
    (meets (at_ (prt 511 fun x => { x with txAsleep := true }) 1000 |> fun d => d.setFlag (Off.portStatus 511) 27 true) fun d => let a0 : Fin 512 := 511;
      let port := a0; [decide ((d.sleepOk port = false) ∧ (d.pwr.squelch = false) ∧ (d.txAsleep port = true) ∧
      ((d.port port).txWakeAt = none))]) = true ∧ 
    (meets (at_ ((prt 511 fun x => { x with txAsleep := true, sleepRefresh := 7 }).setFlag (Off.portStatus 511) 27 true) 7) fun d => let a0 : Fin 512 := 511;
      let port := a0; [decide (((d.port port).sleepRefresh ≠ 0) ∧ ((d.port port).sleepRefresh ≤ d.transit) ∧
      (d.pwr.squelch = false) ∧ (d.txAsleep port = true) ∧ ((d.port port).txWakeAt = none))]) = true ∧ 
    (meets (at_ ((prt 511 fun x => { x with txAsleep := true, txWakeAt := some 7 }).setFlag (Off.portStatus 511) 27 true) 7) fun d => let a0 : Fin 512 := 511;
      let port := a0;
      match (d.port a0).txWakeAt with | some x => [decide (((d.port port).txWakeAt = some x) ∧ (x ≤ d.transit) ∧ (d.pwr.squelch = false))] | _ => []) = true ∧
    (meets ((prt 511 id).setFlag (Off.portStatus 511) 26 true) fun d => let a0 : Fin 512 := 511; let port := a0;
      [decide ((d.rxAsleep port = true) ∧ ((d.port port).rxAsleepAt = none))]) = true ∧ 
    (meets (at_ ((prt 511 fun x => { x with rxAsleepAt := some 0, rxArmed := some 1 }).setFlag (Off.portStatus 511) 26 true) 2000000) fun d => let a0 : Fin 512 := 511;
      let port := a0;
      match (d.port a0).rxAsleepAt with | some x => [decide (((d.port port).rxAsleepAt = some x) ∧ (x + 2 * (d.port port).rxArmed.getD 1 * 1000000 ≤ d.transit))] | _ => []) = true := by
  decide +kernel

theorem test_witness_VerificationAndSpread :
    (meets (at_ (vrf.modPort 511 fun x => { x with verifySent := 2 }) 10000000) fun d => let a0 : Fin 512 := 511; let port := a0;
      [decide ((d.verifying? port = true) ∧ (d.txReady port = true) ∧ ((d.port port).verifySent < 3) ∧
      (((d.port port).verifySent = 0 ∨ (d.port port).verifyAt + 10000000 ≤ d.transit)))]) = true ∧ 
    (meets (vrf.modPort 511 fun x => { x with verifySent := 1 }) fun d => let a0 : Fin 512 := 511; let port := a0;
      [decide ((d.verifying? port = true) ∧ ((d.port port).verifySent ≠ 0))]) = true ∧ 
    (meets (at_ (vrf.modPort 511 fun x => { x with verifySent := 3 }) 10000000) fun d => let a0 : Fin 512 := 511; let port := a0;
      [decide ((d.verifying? port = true) ∧ ((d.port port).verifySent = 3) ∧
      ((d.port port).verifyAt + 10000000 ≤ d.transit))]) = true ∧ 
    (meets (dU.setReg (Off.spreadGrpCtl 255) (2 ^ 31 + 2 ^ 15)) fun d => let a0 : Fin 256 := 255;
      let a1 : MemberErrors := ⟨0, 65536⟩; let group := a0; let n := a1; [decide (((n.member : Nat) < d.nmemb group) ∧
      (d.fld (Off.spreadGrpExcl group) 15 0 < n.uncorr))]) = true ∧ 
    (meets ({ (at_ (((dU.setReg (Off.spreadGrpCtl 255) (2 ^ 31 + 16 * 2 ^ 15)).setReg (Off.spreadGrpMember 255 15) 8).setFlag (Off.portStatus 8) 31 true) (1000000 * max 1 (dU.fld (Off.spreadGrpExcl 255) 31 16))) with spread := { dU.spread with groups := [(255, ⟨none, [], [(15, 0)], [], []⟩)] } }) fun d => let a0 : Fin 256 := 255;
      let a1 : Fin 64 := 15; let group := a0; let n := a1;
      match NMap.get? (d.group a0).excluded a1 with | some x => [decide ((NMap.get? (d.group group).excluded n = some x) ∧ (d.portUp (d.member group n) = true) ∧ (x + 1000000 * max 1 (d.fld (Off.spreadGrpExcl group) 31 16) ≤ d.transit))] | _ => []) = true ∧
    (meets ({ (rxOf { fr0 with place := .float 3, seam := none }) with spread := { dU.spread with floats := [(3, ⟨65535, [(0, 0)], some 0, none⟩)] }, coats := dCoat.coats }) fun d => let a0 : Nat := 3;
      let ctx := a0;
      match NMap.get? d.spread.floats a0 with | some c => (match c.timer, heldByDistance c.held c.expect with | some x, (k, f) :: rest => [decide ((NMap.get? d.spread.floats ctx = some c) ∧ (c.timer = some x) ∧ (x ≤ d.transit) ∧ (heldByDistance c.held c.expect = (k, f) :: rest))] | _, _ => []) | _ => []) = true ∧
    (meets ({ at_ dU (1000000 * 65535) with spread := { dU.spread with twins := [(7, ⟨false, 1, [1], 0, 3, none⟩)] } }) fun d => let a0 : Nat := 7;
      let ctx := a0;
      match NMap.get? d.spread.twins a0 with | some c => [decide ((NMap.get? d.spread.twins ctx = some c) ∧ (c.takeAny = false) ∧ (c.lastAt + 1000000 * max 1 (d.fld (Off.spreadTwinProf c.prof) 15 0) ≤ d.transit))] | _ => []) = true := by
  decide +kernel

theorem test_witness_LathFramesAndDefects :
    (meets (dS) fun d => let a0 : Fin 32 := 31; let a1 : Nat := 0; let a3 : List DWord := (List.replicate 2570 0); let span := a0;
      let lane := a1; let words := a3; [decide ((d.spanEn span = true) ∧ (d.domainOk 8 span = true) ∧ (lane < d.spanL span) ∧
      (words.length = 2570))]) = true ∧ 
    (meets ((dS.modSpan 31 fun s => { s with lanes := [(0, ⟨false, [(5, 2)], 0, 0, 0, 0, 0, none, none, none, 0⟩)] }).setFlag (Off.lathStatus 31) 0 true) fun d => let a0 : Fin 32 := 31;
      let a1 : Nat := 0; let a2 : Nat := 5; let a3 : List DWord := ([BitVec.ofNat 64 faw] ++ List.replicate 2569 0); let span := a0;
      let lane := a1; let phase := a2; let words := a3; [decide ((d.spanEn span = true) ∧ (d.domainOk 8 span = true) ∧
      (lane < d.spanL span) ∧ (words.length = 2570) ∧ ((d.lane span lane).inFrame = false) ∧
      (NMap.getD (d.lane span lane).cands phase 0 = 2) ∧ (words.headD 0 = BitVec.ofNat 64 faw))]) = true ∧ 
    (meets (dS.modSpan 31 fun s => { s with waiting := [⟨0, 0xFFFFFFFF, List.replicate 2560 0, 0⟩] }) fun d => let a0 : Fin 32 := 31;
      let span := a0; match d.firstSet a0 with | some (h :: hs) => [decide ((d.firstSet span = some (h :: hs)))] | _ => []) = true ∧
    (meets (dS) fun d => let a0 : Fin 32 := 31; let span := a0; [decide ((d.spanEn span = true) ∧ (d.domainOk 8 span = true) ∧
      (d.protects span = none) ∧ (d.pwr.squelch = false) ∧ (d.partner span ≠ some span.val))]) = true ∧ 
    (meets (dS.modSpan 31 fun s => { s with uncMs := 1 + dS.fld (Off.lathDefCfg 31) 15 8 }) fun d => let a0 : Fin 32 := 31;
      let span := a0; [decide ((d.spanEn span = true) ∧ (d.fld (Off.lathDefCfg span) 15 8 < (d.span span).uncMs))]) = true ∧ 
    (meets ((dS.modSpan 31 fun s => { s with uncMs := dS.fld (Off.lathDefCfg 31) 15 8, sfClean := 9 }).setFlag (Off.lathStatus 31) 26 true) fun d => let a0 : Fin 32 := 31;
      let span := a0; [decide ((d.spanEn span = true) ∧ ((d.span span).uncMs ≤ d.fld (Off.lathDefCfg span) 15 8) ∧
      (9 ≤ (d.span span).sfClean))]) = true ∧ 
    (meets (dS.modSpan 31 fun s => { s with bipPeriod := 1 + 16 * dS.fld (Off.lathDefCfg 31) 7 0 }) fun d => let a0 : Fin 32 := 31;
      let span := a0; [decide ((d.spanEn span = true) ∧ (16 * d.fld (Off.lathDefCfg span) 7 0 < (d.span span).bipPeriod))]) = true ∧
      
    (meets ((dS.modSpan 31 fun s => { s with bipPeriod := 16 * dS.fld (Off.lathDefCfg 31) 7 0, sdClean := 9 }).setFlag (Off.lathStatus 31) 27 true) fun d => let a0 : Fin 32 := 31;
      let span := a0; [decide ((d.spanEn span = true) ∧ ((d.span span).bipPeriod ≤ 16 * d.fld (Off.lathDefCfg span) 7 0) ∧
      (9 ≤ (d.span span).sdClean))]) = true ∧ 
    (meets (at_ (dS.setFlag (Off.lathStatus 31) 0 true) (10000 * 255)) fun d => let a0 : Fin 32 := 31; let a1 : Nat := 0;
      let span := a0; let lane := a1; [decide ((d.spanEn span = true) ∧ (lane < d.spanL span) ∧
      (d.flag (Off.lathStatus span) lane = true) ∧
      ((d.lane span lane).since + 10000 * max 1 (d.fld (Off.lathDefCfg span) 31 24) ≤ d.transit))]) = true ∧ 
    (meets (dS.modSpan 31 fun s => { s with wtr := some 0 }) fun d => let a0 : Fin 32 := 31; let span := a0;
      match (d.span a0).wtr with | some x => [decide (((d.span span).wtr = some x) ∧ (x ≤ d.transit) ∧ ((d.span span).wasBad = false))] | _ => []) = true := by
  decide +kernel

theorem test_witness_TimeBases :
    (meets (dU) fun d => [decide ((d.pwr.phase ≠ .off) ∧ (d.islandTime = false) ∧ (d.tilesMoved = []) ∧
      ((d.pwr.s5At.all fun x => d.transit + 1 < x) = true))]) = true ∧ 
    (meets (dU.modPwr fun p => { p with phase := .asleep }) fun d => [decide ((d.pwr.phase ≠ .off) ∧ (d.islandTime = true) ∧
      (d.tilesMoved = []) ∧ ((d.pwr.s5At.all fun x => d.transit + 40 < x) = true))]) = true ∧ 
    (meets ({ (dC.modSeat 0 fun s => { s with cr := [(7, { CmdRing.reset with taken := 1, out := some ⟨0x0E, 5, 0, 0x1000, 0, [], []⟩ })], nr := [(0, { NoticeRing.reset with reserved := 1 })] }) with perf := { dC.perf with waiting := [⟨0, 7, 0x1000, 0⟩] } }) fun d => match d.perf.waiting with | [q] => (match d.held q.seat q.ring 0x0E with | some o => [decide ((d.coats.pending = none) ∧ (d.pwr.switch = none) ∧ (d.pwr.codeWait = none) ∧ (d.gatesDue = []) ∧ (d.perf.waiting = [q]) ∧ (q.time ≤ d.tbCount 0) ∧ (d.held q.seat q.ring 0x0E = some o) ∧ (d.noBarrier = true))] | none => []) | _ => []) = true ∧
    (meets ((dU.setReg (Off.plumbTioCtl 15) 5).modPlumb fun p => { p with tio := [(15, { TioPin.reset with next := some 65535 })] }) fun d => let a0 : Fin 16 := 15;
      let pin := a0;
      match (d.tio a0).next with | some x => [decide (((d.tio pin).next = some x) ∧ (x < d.tioNow pin + 2 ^ 16) ∧ (d.pwr.tioHeld = none) ∧ (d.noneDueBefore 6 = true))] | _ => []) = true ∧
    (meets ((dU.setReg (Off.plumbTioCtl 15) 2).modPlumb fun p => { p with tio := [(15, { TioPin.reset with fifo := List.replicate 15 (0, false) })] }) fun d => let a0 : Fin 16 := 15;
      let a1 : Bool := false; let pin := a0; let rising := a1; [decide (((d.tioMode pin = 3 ∨ (d.tioMode pin = 1 ∧
      rising = true) ∨ (d.tioMode pin = 2 ∧ rising = false))) ∧ ((d.tio pin).fifo.length < 16))]) = true ∧ 
    (meets ((dU.setReg (Off.plumbTioCtl 15) 3).modPlumb fun p => { p with tio := [(15, { TioPin.reset with fifo := List.replicate 16 (0, false) })] }) fun d => let a0 : Fin 16 := 15;
      let a1 : Bool := true; let pin := a0; let rising := a1; [decide (((d.tioMode pin = 3 ∨ (d.tioMode pin = 1 ∧
      rising = true) ∨ (d.tioMode pin = 2 ∧ rising = false))) ∧ (16 ≤ (d.tio pin).fifo.length))]) = true ∧ 
    (meets (((dU.setFlag Off.plumbPps 31 true).setTb 0 { (dU.tb 0) with sec := 1 })) fun d => [decide ((d.flag Off.plumbPps 31 = true) ∧
      ((d.tbNow d.plumb.ppsBase).ns < 2) ∧ ((d.tbNow d.plumb.ppsBase).sec ≠ d.plumb.ppsSec) ∧ (d.pwr.tioHeld = none) ∧
      (d.noneDueBefore 6 = true))]) = true ∧ 
    (meets (dU) fun _ => [decide (True)]) = true ∧
    (meets (at_ (dU.modPlumb fun p => { p with ppsSeen := some 0 }) 2000000000) fun d => match d.plumb.ppsSeen with | some x => [decide ((d.plumb.ppsSeen = some x) ∧ (d.plumb.ppsLost = false) ∧ (x + 2000000000 ≤ d.transit))] | _ => []) = true ∧
    (meets ((dU.setReg Off.plumbAlarmLo 5).setTb 0 { (dU.tb 0) with ns := 5 }) fun d => [decide ((d.reg64 Off.plumbAlarmLo ≠ 0) ∧
      (d.reg64 Off.plumbAlarmLo ≤ d.tbCount 0) ∧ (d.plumb.alarmFired = false) ∧ (d.noneDueBefore 7 = true))]) = true ∧ 
    (meets (dU.setFlag Off.plumbStatus 0 true) fun d => [decide ((d.flag Off.plumbStatus 0 = true))]) = true ∧
    (meets (dU) fun d => [decide ((d.pwr.phase ≠ .off) ∧ (d.islandTime = false))]) = true := by
  decide +kernel

theorem test_witness_Servo :
    (meets (srv) fun d => let a0 : Int := (-(srv.fld Off.plumbServoLim 31 16 : Int)); let value := a0;
      (let o := if d.servoPps then d.ppsOffset else a0; [decide ((d.servoOn = true) ∧ (d.pwr.portsDown = false) ∧
      ((d.servoPps = false ∧ d.portUp d.servoPort = true ∧ o = value) ∨ (d.servoPps = true ∧
      (d.plumb.ppsSeen.any fun x => decide (d.plumb.lastOffsetAt < x)) = true ∧ o = d.ppsOffset)) ∧
      (o.natAbs ≤ d.fld Off.plumbServoLim 31 16))])) = true ∧ 
    (meets (srv) fun d => let a0 : Int := ((srv.fld Off.plumbServoLim 31 16 : Int) + 1); let value := a0;
      (let o := if d.servoPps then d.ppsOffset else a0; [decide ((d.servoOn = true) ∧ (d.pwr.portsDown = false) ∧
      ((d.servoPps = false ∧ d.portUp d.servoPort = true ∧ o = value) ∨ (d.servoPps = true ∧
      (d.plumb.ppsSeen.any fun x => decide (d.plumb.lastOffsetAt < x)) = true ∧ o = d.ppsOffset)) ∧
      (d.fld Off.plumbServoLim 31 16 < o.natAbs))])) = true ∧ 
    (meets (srv.modPlumb fun p => { p with inLock := 15 }) fun d => let a0 : Int := 0; let value := a0;
      (let o := if d.servoPps then d.ppsOffset else a0;
      (let n := (if o.natAbs ≤ d.fld Off.plumbServoLim 15 8 then d.plumb.inLock + 1 else 0); [decide ((d.servoOn = true) ∧
      (d.pwr.portsDown = false) ∧ ((d.servoPps = false ∧ d.portUp d.servoPort = true ∧ o = value) ∨ (d.servoPps = true ∧
      (d.plumb.ppsSeen.any fun x => decide (d.plumb.lastOffsetAt < x)) = true ∧ o = d.ppsOffset)) ∧
      (n = (if o.natAbs ≤ d.fld Off.plumbServoLim 15 8 then d.plumb.inLock + 1 else 0)))]))) = true ∧ 
    (meets (srv.modPwr fun p => { p with portsDown := true }) fun d => [decide ((d.pwr.portsDown = true))]) = true ∧
    (meets (at_ srv 1000000000) fun d => [decide ((d.pwr.squelch = false) ∧ (d.servoOn = true) ∧ (d.servoPps = false) ∧
      (d.portUp d.servoPort = true) ∧ (d.txAsleep d.servoPort = false) ∧ (d.plumb.pdelaySec + 1000000000 ≤ d.transit))]) = true ∧ 
    (meets (srv) fun d => let a0 : Fin 512 := 511;
      let a1 : List Byte := (okFrame (bytesBE 6 0x0180C200000E ++ bytesBE 6 0 ++ bytesBE 2 0x88F7 ++ List.replicate 46 0));
      let port := a0; let bytes := a1; [decide ((d.pwr.squelch = false) ∧ (d.rxOpen port = true) ∧
      (d.isServoFrame port bytes = true) ∧ (d.rxVerdict port bytes false = .good))]) = true ∧ 
    (meets (srv.setFld Off.plumbServoStatus 31 30 2) fun d => [decide ((d.servoOn = true) ∧ (d.servoState = 2) ∧
      ((if d.servoPps = true then d.plumb.ppsSeen.getD 0 + 1000000000 * max 1 (d.fld Off.plumbServoLim 7 0) ≤ d.transit else d.plumb.lastOffsetAt + d.plumb.offsetGap * max 1 (d.fld Off.plumbServoLim 7 0) ≤ d.transit)))]) = true := by
  decide +kernel

theorem test_witness_CoatLife :
    (meets (stgE) fun d => match d.coats.verifying with | none => [] | some v => (let e := (if d.wordsFit d.stagedCoat stnList then d.placeWords d.stagedCoat stnList else d); match e.commitTime v with | some x => [decide ((d.darbyRuns = true) ∧ (d.coats.verifying = some v) ∧ (e = (if d.wordsFit d.stagedCoat stnList then d.placeWords d.stagedCoat stnList else d)) ∧ (e.verify = none) ∧ (e.quoteConflict e.stagedCoat = none) ∧ (e.commitTime v = some x))] | none => [])) = true ∧
    (meets ({ stgE with coats := { stgE.coats with staged := [(7, .ien [0x80000FFF])] } }) fun d => match d.coats.verifying with | none => [] | some v => (let e := (if d.wordsFit d.stagedCoat stnList then d.placeWords d.stagedCoat stnList else d); [decide ((d.darbyRuns = true) ∧ (d.coats.verifying = some v) ∧ (e = (if d.wordsFit d.stagedCoat stnList then d.placeWords d.stagedCoat stnList else d)) ∧ (e.verify.isSome = true))])) = true ∧
    (meets (dCoat.modCoats fun c => { c with pending := some pend1 }) fun d => match d.coats.pending, freeKey d.coats.slots 4 with | some p, some s => [decide ((d.pwr.switch = none) ∧ (d.darbyRuns = true) ∧ (d.coats.pending = some p) ∧ (p.time ≤ d.tbCount 0) ∧ (p.again = false) ∧ (freeKey d.coats.slots 4 = some s) ∧ (d.settleHolds = false) ∧ ((freeKey d.freeEgress.coats.egress 8).isSome = true))] | _, _ => []) = true ∧
    (meets (dCoat.modCoats fun c => { c with slots := [(0, coat1), (1, { coat1 with id := 2 })], cur := some 1, order := [0, 1] }) fun d => let a0 : Fin 4 := 0;
      let slot := a0;
      match d.coatAt a0 with | some c => [decide ((d.pwr.switch = none) ∧ (d.coats.pending = none) ∧ (d.coatAt slot = some c) ∧ (d.coats.cur ≠ some slot.val) ∧ (d.carrying slot = 0))] | _ => []) = true ∧
    (meets (dCoat.modCoats fun c => { c with settling := [(1, 5)], old := [{ coat1 with id := 0 }] }) fun d => match d.coats.settling with | (i, x) :: rest => [decide ((d.pwr.switch = none) ∧ (d.coats.pending = none) ∧ (d.coats.settling = (i, x) :: rest) ∧ (d.darbyRuns = true))] | [] => []) = true ∧
    (meets (at_ (dCoat.modCoats fun c => { c with pending := some { pend1 with waitEgDue := some (1000000 * 65535) }, egress := [(7, Coat.blank)], egOrder := [7] }) (1000000 * 65535) |> fun d => d.modBuf fun b => { b with copies := [(5, { cp0 with egen := 7 })], frames := [(0, done0)] }) fun d => match d.coats.pending with | some p => (match p.waitEgDue, d.freeEgress.coats.egOrder.find? (fun e => !d.coats.slots.vals.any fun c => c.egSlot == e) with | some x, some e => [decide ((d.pwr.switch = none) ∧ (d.coats.pending = some p) ∧ (p.waitEgDue = some x) ∧ (x ≤ d.transit) ∧ (d.freeEgress.coats.egOrder.find? (fun e => !d.coats.slots.vals.any fun c => c.egSlot == e) = some e))] | _, _ => []) | _ => []) = true ∧
    (meets (dCoat.modCoats id |> fun d => { d with pipes := ⟨[], [(63 * 64 + 7, 4095)]⟩ }) fun d => let a0 : Fin 64 := 63;
      let a1 : Nat := 7; let a2 : Nat := 4095; let a3 : ImagePoison := ⟨true, false⟩; let inst := a0; let station := a1;
      let addr := a2; let poison := a3; if a3.first && a3.second then [] else [decide (((poison.first && poison.second) = false) ∧
      (d.darbyRuns = true) ∧ (d.pipes.reload.contains (inst.val * 64 + station, addr) = true))]) = true ∧ 
    (meets (dCoat.modCoats fun c => { c with damaged := [(5, 1, .cell 0 1)] }) fun d => let a0 : Nat := 5; let a1 : Nat := 1;
      let a2 : DamagedWord := (.cell 0 1); let a3 : ImagePoison := ⟨false, true⟩; let num := a0; let inst := a1; let word := a2;
      let poison := a3; if a3.first && a3.second then [] else [decide (((poison.first && poison.second) = false) ∧
      (d.darbyRuns = true) ∧ (d.coats.damaged.contains (num, inst, word) = true))]) = true ∧ 
    (meets ({ dU with quotes := [(9, q0)] }) fun d => let a0 : Nat := 9; let qid := a0;
      [decide ((d.quoteActive qid = true))]) = true ∧ 
    (meets ({ dCoat with quotes := [(9, { q0 with active := false, release := some ⟨0, 0, 0xFFFF, []⟩ })] }) fun d => let a0 : Nat := 9;
      let qid := a0;
      match d.quote a0 with | none => [] | some q => (match q.release with | some r => [decide ((d.quote qid = some q) ∧ (q.release = some r) ∧ (r.due ≤ d.transit) ∧ (d.darbyRuns = true) ∧ (d.fault.stopping = false))] | none => [])) = true := by
  decide +kernel

theorem test_witness_LineAlu :
    (meets (ld 0 (instWord ⟨0, false⟩ 0x0 ((⟨31, 32, 0, true, false, 0xFFFFFFFF⟩ : FmtA).enc)) ra) fun d => let a0 : Who := (.ing 0);
      let a1 : Pred := ⟨0, false⟩; let a2 : FmtA := ⟨31, 32, 0, true, false, 0xFFFFFFFF⟩; let who := a0; let q := a1; let f := a2;
      match d.issues who q 0x00 f.enc with | none => [] | some x => [decide ((d.issues who q 0x00 f.enc = some x) ∧ (lineRegs f = true))]) = true ∧
    (meets (ld 0 (instWord ⟨0, false⟩ 0x1 ((⟨31, 30, 29, false, false, 0⟩ : FmtA).enc)) ra) fun d => let a0 : Who := (.ing 0);
      let a1 : Pred := ⟨0, false⟩; let a2 : FmtA := ⟨31, 30, 29, false, false, 0⟩; let who := a0; let q := a1; let f := a2;
      match d.issues who q 0x01 f.enc with | none => [] | some x => [decide ((d.issues who q 0x01 f.enc = some x) ∧ (lineRegs f = true))]) = true ∧
    (meets (ld 0 (instWord ⟨0, false⟩ 0x2 ((⟨31, 32, 0, true, false, 0xFFFFFFFF⟩ : FmtA).enc)) ra) fun d => let a0 : Who := (.ing 0);
      let a1 : Pred := ⟨0, false⟩; let a2 : FmtA := ⟨31, 32, 0, true, false, 0xFFFFFFFF⟩; let who := a0; let q := a1; let f := a2;
      match d.issues who q 0x02 f.enc with | none => [] | some x => [decide ((d.issues who q 0x02 f.enc = some x) ∧ (lineRegs f = true))]) = true ∧
    (meets (ld 0 (instWord ⟨0, false⟩ 0x3 ((⟨31, 30, 29, false, false, 0⟩ : FmtA).enc)) ra) fun d => let a0 : Who := (.ing 0);
      let a1 : Pred := ⟨0, false⟩; let a2 : FmtA := ⟨31, 30, 29, false, false, 0⟩; let who := a0; let q := a1; let f := a2;
      match d.issues who q 0x03 f.enc with | none => [] | some x => [decide ((d.issues who q 0x03 f.enc = some x) ∧ (lineRegs f = true))]) = true ∧
    (meets (ld 0 (instWord ⟨0, false⟩ 0x4 ((⟨31, 32, 0, true, false, 0xFFFFFFFF⟩ : FmtA).enc)) ra) fun d => let a0 : Who := (.ing 0);
      let a1 : Pred := ⟨0, false⟩; let a2 : FmtA := ⟨31, 32, 0, true, false, 0xFFFFFFFF⟩; let who := a0; let q := a1; let f := a2;
      match d.issues who q 0x04 f.enc with | none => [] | some x => [decide ((d.issues who q 0x04 f.enc = some x) ∧ (lineRegs f = true))]) = true ∧
    (meets (ld 0 (instWord ⟨0, false⟩ 0x5 ((⟨31, 30, 29, false, false, 0⟩ : FmtA).enc)) ra) fun d => let a0 : Who := (.ing 0);
      let a1 : Pred := ⟨0, false⟩; let a2 : FmtA := ⟨31, 30, 29, false, false, 0⟩; let who := a0; let q := a1; let f := a2;
      match d.issues who q 0x05 f.enc with | none => [] | some x => [decide ((d.issues who q 0x05 f.enc = some x) ∧ (lineRegs f = true))]) = true ∧
    (meets (ld 0 (instWord ⟨0, false⟩ 0x6 ((⟨31, 32, 0, true, false, 0xFFFFFFFF⟩ : FmtA).enc)) ra) fun d => let a0 : Who := (.ing 0);
      let a1 : Pred := ⟨0, false⟩; let a2 : FmtA := ⟨31, 32, 0, true, false, 0xFFFFFFFF⟩; let who := a0; let q := a1; let f := a2;
      match d.issues who q 0x06 f.enc with | none => [] | some x => [decide ((d.issues who q 0x06 f.enc = some x) ∧ (lineRegs f = true))]) = true ∧
    (meets (ld 0 (instWord ⟨0, false⟩ 0x7 ((⟨31, 30, 29, false, false, 0⟩ : FmtA).enc)) ra) fun d => let a0 : Who := (.ing 0);
      let a1 : Pred := ⟨0, false⟩; let a2 : FmtA := ⟨31, 30, 29, false, false, 0⟩; let who := a0; let q := a1; let f := a2;
      match d.issues who q 0x07 f.enc with | none => [] | some x => [decide ((d.issues who q 0x07 f.enc = some x) ∧ (lineRegs f = true))]) = true ∧
    (meets (ld 0 (instWord ⟨0, false⟩ 0x8 ((⟨31, 32, 0, true, false, 0xFFFFFFFF⟩ : FmtA).enc)) ra) fun d => let a0 : Who := (.ing 0);
      let a1 : Pred := ⟨0, false⟩; let a2 : FmtA := ⟨31, 32, 0, true, false, 0xFFFFFFFF⟩; let who := a0; let q := a1; let f := a2;
      match d.issues who q 0x08 f.enc with | none => [] | some x => [decide ((d.issues who q 0x08 f.enc = some x) ∧ (lineRegs f = true))]) = true ∧
    (meets (ld 0 (instWord ⟨0, false⟩ 0x9 ((⟨31, 30, 29, false, false, 0⟩ : FmtA).enc)) ra) fun d => let a0 : Who := (.ing 0);
      let a1 : Pred := ⟨0, false⟩; let a2 : FmtA := ⟨31, 30, 29, false, false, 0⟩; let who := a0; let q := a1; let f := a2;
      match d.issues who q 0x09 f.enc with | none => [] | some x => [decide ((d.issues who q 0x09 f.enc = some x) ∧ (lineRegs f = true))]) = true ∧
    (meets (ld 0 (instWord ⟨0, false⟩ 0x0C ((⟨31, 30, 0, false, false, 0⟩ : FmtA).enc)) ra) fun d => let a0 : Who := (.ing 0);
      let a1 : Pred := ⟨0, false⟩; let a2 : FmtA := ⟨31, 30, 0, false, false, 0⟩; let who := a0; let q := a1; let f := a2;
      match d.issues who q 0x0C f.enc with | none => [] | some x => [decide ((d.issues who q 0x0C f.enc = some x) ∧ (lineRegs f = true))]) = true ∧
    (meets (ld 0 (instWord ⟨0, false⟩ 0x0D ((⟨47, 0, 0, false, false, 0xFFFFFFFF⟩ : FmtA).enc)) Regs.zero) fun d => let a0 : Who := (.ing 0);
      let a1 : Pred := ⟨0, false⟩; let a2 : FmtA := ⟨47, 0, 0, false, false, 0xFFFFFFFF⟩; let who := a0; let q := a1; let f := a2;
      match d.issues who q 0x0D f.enc with | none => [] | some x => [decide ((d.issues who q 0x0D f.enc = some x) ∧ (isS f.rd = false) ∧ (destOk f.rd = true) ∧ (f.x = false))]) = true ∧
    (meets (ld 0 (instWord ⟨0, false⟩ 0x0E ((⟨31, 30, 29, false, false, 7⟩ : FmtA).enc)) ra) fun d => let a0 : Who := (.ing 0);
      let a1 : Pred := ⟨0, false⟩; let a2 : FmtA := ⟨31, 30, 29, false, false, 7⟩; let who := a0; let q := a1; let f := a2;
      match d.issues who q 0x0E f.enc with | none => [] | some x => [decide ((d.issues who q 0x0E f.enc = some x) ∧ (lineRegs f = true) ∧ (isS f.rb = false) ∧ (f.i = false))]) = true ∧
    (meets (ld 0 (instWord ⟨0, false⟩ 0x11 ((⟨31, 32, 0, true, false, 0xFFFFFFFF⟩ : FmtA).enc)) Regs.zero) fun d => let a0 : Who := (.ing 0);
      let a1 : Pred := ⟨0, false⟩; let a2 : FmtA := ⟨31, 32, 0, true, false, 0xFFFFFFFF⟩; let who := a0; let q := a1; let f := a2;
      match d.issues who q 0x11 f.enc with | none => [] | some x => [decide ((d.issues who q 0x11 f.enc = some x) ∧ (isS f.rd = false) ∧ ((f.i || !isS f.rb) = true) ∧ (destOk f.rd = true))]) = true := by
  decide +kernel

theorem test_witness_LineTestsAndBytes :
    (meets (ld 0 (instWord ⟨0, false⟩ 0x0A ((⟨2, 7, 30, 29, false, 0⟩ : FmtP).enc)) ra) fun d => let a0 : Who := (.ing 0);
      let a1 : Pred := ⟨0, false⟩; let a2 : FmtP := ⟨2, 7, 30, 29, false, 0⟩; let who := a0; let q := a1; let f := a2;
      match d.issues who q 0x0A f.enc with | none => [] | some x => [decide ((d.issues who q 0x0A f.enc = some x) ∧ (isS f.ra = false) ∧ ((f.i || !isS f.rb) = true) ∧ (f.cond = 2))]) = true ∧
    (meets (ld 0 (instWord ⟨0, false⟩ 0x0A ((⟨6, 7, 30, 29, false, 0⟩ : FmtP).enc)) ra) fun d => let a0 : Who := (.ing 0);
      let a1 : Pred := ⟨0, false⟩; let a2 : FmtP := ⟨6, 7, 30, 29, false, 0⟩; let who := a0; let q := a1; let f := a2;
      match d.issues who q 0x0A f.enc with | none => [] | some x => [decide ((d.issues who q 0x0A f.enc = some x) ∧ (isS f.ra = false) ∧ ((f.i || !isS f.rb) = true) ∧ (f.cond = 6))]) = true ∧
    (meets (ld 0 (instWord ⟨0, false⟩ 0x0A ((⟨7, 1, 30, 0, true, 0xFFFFFFFF⟩ : FmtP).enc)) ra) fun d => let a0 : Who := (.ing 0);
      let a1 : Pred := ⟨0, false⟩; let a2 : FmtP := ⟨7, 1, 30, 0, true, 0xFFFFFFFF⟩; let who := a0; let q := a1; let f := a2;
      match d.issues who q 0x0A f.enc with | none => [] | some x => [decide ((d.issues who q 0x0A f.enc = some x) ∧ (isS f.ra = false) ∧ ((f.i || !isS f.rb) = true))]) = true ∧
    (meets (ld 0 (instWord ⟨0, false⟩ 0x0B ((⟨0, 7, 30, 0, true, 0x80000000⟩ : FmtP).enc)) ra) fun d => let a0 : Who := (.ing 0);
      let a1 : Pred := ⟨0, false⟩; let a2 : FmtP := ⟨0, 7, 30, 0, true, 0x80000000⟩; let who := a0; let q := a1; let f := a2;
      match d.issues who q 0x0B f.enc with | none => [] | some x => [decide ((d.issues who q 0x0B f.enc = some x) ∧ (isS f.ra = false) ∧ ((f.i || !isS f.rb) = true) ∧ (f.cond = 0))]) = true ∧
    (meets (ld 0 (instWord ⟨0, false⟩ 0x0F ((⟨31, 0, 48, 2, 0xFFFFFFFF⟩ : FmtH).enc)) Regs.zero) fun d => let a0 : Who := (.ing 0);
      let a1 : Pred := ⟨0, false⟩; let a2 : FmtH := ⟨31, 0, 48, 2, 0xFFFFFFFF⟩; let who := a0; let q := a1; let f := a2;
      match d.issues who q 0x0F f.enc with | none => [] | some x => [decide ((d.issues who q 0x0F f.enc = some x) ∧ (isS f.rd = false) ∧ (destOk f.rd = true) ∧ (f.off.toNat + f.len.toNat ≤ 48) ∧ (f.len ≠ 0) ∧ ((f.fn.toNat < 2 → f.imm = 0)))]) = true ∧
    (meets (ld 23 (instWord ⟨0, false⟩ 0x10 ((⟨31, 0, 0, 1, 0⟩ : FmtH).enc)) Regs.zero) fun d => let a0 : Who := (.ing 0);
      let a1 : Pred := ⟨0, false⟩; let a2 : FmtH := ⟨31, 0, 0, 1, 0⟩; let who := a0; let q := a1; let f := a2;
      match d.issues who q 0x10 f.enc with | none => [] | some x => [decide ((d.issues who q 0x10 f.enc = some x) ∧ (isS f.rd = false) ∧ (destOk f.rd = true) ∧ (f.off.toNat + csumLen f ≤ 64) ∧ (f.fn ≠ 3) ∧ ((f.fn = 0 → csumLen f % 2 = 0)))]) = true ∧
    (meets (ld 0 (instWord ⟨0, false⟩ 0x20 ((⟨31, 480, 31, false, false, 0⟩ : FmtX).enc)) Regs.zero) fun d => let a0 : Who := (.ing 0);
      let a1 : Pred := ⟨0, false⟩; let a2 : FmtX := ⟨31, 480, 31, false, false, 0⟩; let who := a0; let q := a1; let f := a2;
      match d.issues who q 0x20 f.enc with | none => [] | some x => [decide ((d.issues who q 0x20 f.enc = some x) ∧ (isS f.rd = false) ∧ (destOk f.rd = true) ∧ ((!f.reg || !isS f.ra) = true) ∧ (f.bit.toNat + f.len1.toNat + 1 ≤ (if f.srcK then 384 else 512)))]) = true ∧
    (meets (ld 0 (instWord ⟨0, false⟩ 0x21 ((⟨31, 7, 96, 31⟩ : FmtXM).enc)) Regs.zero) fun d => let a0 : Who := (.ing 0);
      let a1 : Pred := ⟨0, false⟩; let a2 : FmtXM := ⟨31, 7, 96, 31⟩; let who := a0; let q := a1; let f := a2;
      match d.issues who q 0x21 f.enc with | none => [] | some x => [decide ((d.issues who q 0x21 f.enc = some x) ∧ (isS f.rd = false) ∧ (destOk f.rd = true) ∧ (f.bit.toNat + f.len1.toNat + 1 ≤ 128))]) = true ∧
    (meets (ld 0 (instWord ⟨0, false⟩ 0x22 ((⟨31, 30, 0, 31⟩ : FmtXI).enc)) ra) fun d => let a0 : Who := (.ing 0);
      let a1 : Pred := ⟨0, false⟩; let a2 : FmtXI := ⟨31, 30, 0, 31⟩; let who := a0; let q := a1; let f := a2;
      match d.issues who q 0x22 f.enc with | none => [] | some x => [decide ((d.issues who q 0x22 f.enc = some x) ∧ (isS f.rd = false) ∧ (isS f.ra = false) ∧ (destOk f.rd = true) ∧ (f.pos.toNat + f.len1.toNat + 1 ≤ 32))]) = true ∧
    (meets (ld 0 (instWord ⟨0, false⟩ 0x23 ((⟨32, 16, false, 48⟩ : FmtKB).enc)) Regs.zero) fun d => let a0 : Who := (.ing 0);
      let a1 : Pred := ⟨0, false⟩; let a2 : FmtKB := ⟨32, 16, false, 48⟩; let who := a0; let q := a1; let f := a2;
      match d.issues who q 0x23 f.enc with | none => [] | some x => [decide ((d.issues who q 0x23 f.enc = some x) ∧ (f.srcReg = false) ∧ (0 < f.len.toNat) ∧ (f.len.toNat ≤ 16) ∧ (f.koff.toNat + f.len.toNat ≤ 48))]) = true ∧
    (meets (ld 0 (instWord ⟨0, false⟩ 0x23 ((⟨44, 4, true, 30⟩ : FmtKB).enc)) ra) fun d => let a0 : Who := (.ing 0);
      let a1 : Pred := ⟨0, false⟩; let a2 : FmtKB := ⟨44, 4, true, 30⟩; let who := a0; let q := a1; let f := a2;
      match d.issues who q 0x23 f.enc with | none => [] | some x => [decide ((d.issues who q 0x23 f.enc = some x) ∧ (f.srcReg = true) ∧ (isS f.woff = false) ∧ (0 < f.len.toNat) ∧ (f.len.toNat ≤ 4) ∧ (f.koff.toNat + f.len.toNat ≤ 48))]) = true ∧
    (meets (ld 23 (instWord ⟨0, false⟩ 0x24 ((⟨255, false, 0⟩ : FmtAV).enc)) Regs.zero) fun d => let a0 : Who := (.ing 0);
      let a1 : Pred := ⟨0, false⟩; let a2 : FmtAV := ⟨255, false, 0⟩; let who := a0; let q := a1; let f := a2;
      match d.issues who q 0x24 f.enc with | none => [] | some x => [decide ((d.issues who q 0x24 f.enc = some x))]) = true := by
  decide +kernel

theorem test_witness_LineLookups :
    (meets (ld 21 (instWord ⟨0, false⟩ 0x30 ((⟨255, 7, 7, 0, 0, 31, 0⟩ : FmtL).enc)) Regs.zero) fun d => let a0 : Who := (.ing 0);
      let a1 : Pred := ⟨0, false⟩; let a2 : FmtL := ⟨255, 7, 7, 0, 0, 31, 0⟩; let who := a0; let q := a1; let f := a2;
      match d.issues who q 0x30 f.enc with | none => [] | some x => [decide ((d.issues who q 0x30 f.enc = some x))]) = true ∧
    (meets (ld 19 (instWord ⟨0, false⟩ 0x31 ((⟨0, 7, 7, 0, 48, 0, 0⟩ : FmtL).enc)) Regs.zero) fun d => let a0 : Who := (.ing 0);
      let a1 : Pred := ⟨0, false⟩; let a2 : FmtL := ⟨0, 7, 7, 0, 48, 0, 0⟩; let who := a0; let q := a1; let f := a2;
      match d.issues who q 0x31 f.enc with | none => [] | some x => [decide ((d.issues who q 0x31 f.enc = some x))]) = true ∧
    (meets (ld 20 (instWord ⟨0, false⟩ 0x32 ((⟨0, 7, 7, 28, 20, 0, 0⟩ : FmtL).enc)) Regs.zero) fun d => let a0 : Who := (.ing 0);
      let a1 : Pred := ⟨0, false⟩; let a2 : FmtL := ⟨0, 7, 7, 28, 20, 0, 0⟩; let who := a0; let q := a1; let f := a2;
      match d.issues who q 0x32 f.enc with | none => [] | some x => [decide ((d.issues who q 0x32 f.enc = some x))]) = true ∧
    (meets (ld 18 (instWord ⟨0, false⟩ 0x33 ((⟨0, 7, 7, 0, 48, 0, 0⟩ : FmtL).enc)) Regs.zero) fun d => let a0 : Who := (.ing 0);
      let a1 : Pred := ⟨0, false⟩; let a2 : FmtL := ⟨0, 7, 7, 0, 48, 0, 0⟩; let who := a0; let q := a1; let f := a2;
      match d.issues who q 0x33 f.enc with | none => [] | some x => [decide ((d.issues who q 0x33 f.enc = some x))]) = true ∧
    (meets ((ld 19 (instWord ⟨0, false⟩ 0x34 ((⟨2, 7, 7, 0, 4, 0, 0⟩ : FmtL).enc)) rk) |> fun d => d) fun d => let a0 : Who := (.ing 0);
      let a1 : Pred := ⟨0, false⟩; let a2 : FmtL := ⟨2, 7, 7, 0, 4, 0, 0⟩; let q := a1; let f := a2;
      match (a0 : Who) with | .ing fr => (match d.issues (.ing fr) q 0x34 f.enc with | some x => [decide ((d.issues (.ing fr) q 0x34 f.enc = some x) ∧ (d.groupsOk ⟨f.tbl.toNat % 16, sliceB x.regs.key f.ko.toNat f.kl.toNat⟩ = true))] | none => []) | _ => []) = true ∧
    (meets ((lc 19 (instWord ⟨0, false⟩ 0x70 ((⟨1, 2, true⟩ : FmtC).enc))) |> fun d => { d with ctxs := [(0, { cx 19 rk with issued := [0, 1, 2, 3, 4], spaces := 4, pend := [(20, .lkf ⟨2, 7, 7, 0, 4, 0, 0⟩ [1, 2, 3, 4] false)] })], flow := { d.flow with render := dF.flow.render, skim := [((key4.skimPlaces).headD 0, ⟨(key4.renderPlaces).headD 0, updsApply img4 [tierUpd 2]⟩)] }, regs := dF.regs }) fun d => let a0 : Who := (.ing 0);
      let a1 : Pred := ⟨0, false⟩; let a2 : FmtC := ⟨1, 2, true⟩; let f := a2;
      match (a0 : Who) with | .ing fr => (match d.lineCtx (.ing fr), d.frame fr with | some x, some y => (match x.word, x.flowDue (x.station + 1) with | some i, some (g, key, beyond) => if !(a1.pi == 0 && !a1.ps) then [] else (match d.lkfOutcome fr y.parks ⟨g.tbl.toNat % 16, key⟩ (bit x.spaces (g.tbl.toNat % 16)) with | .hit h => [decide ((d.lineCtx (.ing fr) = some x) ∧ (x.word = some i) ∧ (x.live = true) ∧ ((⟨((d.stationWords x x.station).getD i 0).toNat, []⟩ : WInfo).cword = instWord ⟨0, false⟩ 0x70 f.enc) ∧ (d.owes x = false) ∧ (x.station < x.last) ∧ ((⟨((d.stationWords x x.station).getD i 0).toNat, []⟩ : WInfo).succ (b2n (x.regs.pred f.sa) + (if f.b2 then 2 * b2n (x.regs.pred f.sb) else 0)) < (d.stationWords x (x.station + 1)).length) ∧ (d.pipes.reload = []) ∧ (x.flowDue (x.station + 1) = some (g, key, beyond)) ∧ (d.ahead x.pipe fr = []) ∧ (d.frame fr = some y) ∧ (d.lkfOutcome fr y.parks ⟨g.tbl.toNat % 16, key⟩ (bit x.spaces (g.tbl.toNat % 16)) = .hit h))] | _ => []) | _, _ => []) | _, _ => []) | _ => []) = true ∧
    (meets ((lc 19 (instWord ⟨0, false⟩ 0x70 ((⟨1, 2, true⟩ : FmtC).enc))) |> fun d => { d with ctxs := [(0, { cx 19 rk with issued := [0, 1, 2, 3, 4], spaces := 0, pend := [(20, .lkf ⟨2, 7, 7, 0, 4, 0, 0⟩ [1, 2, 3, 4] false)] })] }) fun d => let a0 : Who := (.ing 0);
      let a1 : Pred := ⟨0, false⟩; let a2 : FmtC := ⟨1, 2, true⟩; let f := a2;
      match (a0 : Who) with | .ing fr => (match d.lineCtx (.ing fr), d.frame fr with | some x, some y => (match x.word, x.flowDue (x.station + 1) with | some i, some (g, key, beyond) => if !(a1.pi == 0 && !a1.ps) then [] else [decide ((d.lineCtx (.ing fr) = some x) ∧ (x.word = some i) ∧ (x.live = true) ∧ ((⟨((d.stationWords x x.station).getD i 0).toNat, []⟩ : WInfo).cword = instWord ⟨0, false⟩ 0x70 f.enc) ∧ (d.owes x = false) ∧ (x.station < x.last) ∧ ((⟨((d.stationWords x x.station).getD i 0).toNat, []⟩ : WInfo).succ (b2n (x.regs.pred f.sa) + (if f.b2 then 2 * b2n (x.regs.pred f.sb) else 0)) < (d.stationWords x (x.station + 1)).length) ∧ (d.pipes.reload = []) ∧ (x.flowDue (x.station + 1) = some (g, key, beyond)) ∧ (d.ahead x.pipe fr = []) ∧ (d.frame fr = some y) ∧ (d.lkfOutcome fr y.parks ⟨g.tbl.toNat % 16, key⟩ (bit x.spaces (g.tbl.toNat % 16)) = .miss) ∧ ((x.settleAt (x.station + 1)).f = none))] | _, _ => []) | _, _ => []) | _ => []) = true ∧
    (meets ((lc 19 (instWord ⟨0, false⟩ 0x70 ((⟨1, 2, true⟩ : FmtC).enc))) |> fun d => { d with ctxs := [(0, { cx 19 rk with issued := [0, 1, 2, 3, 4], spaces := 4, pend := [(20, .lkf ⟨2, 7, 7, 0, 4, 0, 0⟩ [1, 2, 3, 4] false)] })] }) fun d => let a0 : Who := (.ing 0);
      let a1 : Pred := ⟨0, false⟩; let a2 : FmtC := ⟨1, 2, true⟩; let f := a2;
      match (a0 : Who) with | .ing fr => (match d.lineCtx (.ing fr), d.frame fr with | some x, some y => (match x.word, x.flowDue (x.station + 1) with | some i, some (g, key, beyond) => if !(a1.pi == 0 && !a1.ps) then [] else [decide ((d.lineCtx (.ing fr) = some x) ∧ (x.word = some i) ∧ (x.live = true) ∧ ((⟨((d.stationWords x x.station).getD i 0).toNat, []⟩ : WInfo).cword = instWord ⟨0, false⟩ 0x70 f.enc) ∧ (d.owes x = false) ∧ (x.station < x.last) ∧ ((⟨((d.stationWords x x.station).getD i 0).toNat, []⟩ : WInfo).succ (b2n (x.regs.pred f.sa) + (if f.b2 then 2 * b2n (x.regs.pred f.sb) else 0)) < (d.stationWords x (x.station + 1)).length) ∧ (d.pipes.reload = []) ∧ (x.flowDue (x.station + 1) = some (g, key, beyond)) ∧ (d.ahead x.pipe fr = []) ∧ (d.frame fr = some y) ∧ (d.lkfOutcome fr y.parks ⟨g.tbl.toNat % 16, key⟩ (bit x.spaces (g.tbl.toNat % 16)) = .park))] | _, _ => []) | _, _ => []) | _ => []) = true := by
  decide +kernel

theorem test_witness_LineFlowState :
    (meets ((ld 0 (instWord ⟨0, false⟩ 0x40 ((⟨31, 120, 3, 30, 7, 0, false, 0⟩ : FmtFS).enc)) Regs.zero) |> fun d => { d with ctxs := [(0, { cx 0 Regs.zero with f := some img4 })] }) fun d => let a0 : Who := (.ing 0);
      let a1 : Pred := ⟨0, false⟩; let a2 : FmtFS := ⟨31, 120, 3, 30, 7, 0, false, 0⟩; let who := a0; let q := a1; let f := a2;
      match d.issues who q 0x40 f.enc with | none => [] | some x => [decide ((d.issues who q 0x40 f.enc = some x) ∧ (destOk f.rd = true) ∧ (d.turnCome who x = true))]) = true ∧
    (meets ((ld 0 (instWord ⟨0, false⟩ 0x41 ((⟨31, 120, 3, 30, 7, 0, false, 0⟩ : FmtFS).enc)) Regs.zero) |> fun d => { d with flow := { d.flow with render := dF.flow.render, runs := [((key4.renderPlaces).headD 0, [⟨some 0, false, []⟩])] }, ctxs := [(0, { cx 0 ra with f := some img4 })], buf := { d.buf with frames := [(0, { fr0 with place := .pass, pipe := 1, hit := (key4.renderPlaces).head? })] } }) fun d => let a0 : Who := (.ing 0);
      let a1 : Pred := ⟨0, false⟩; let a2 : FmtFS := ⟨31, 120, 3, 30, 7, 0, false, 0⟩; let q := a1; let f := a2;
      match (a0 : Who) with | .ing fr => (match d.issues (.ing fr) q 0x41 f.enc, d.frame fr with | some x, some y => (match y.hit with | some h => (match (d.runOf h).filter (fun e => e.frame == some fr) with | [e] => [decide ((d.issues (.ing fr) q 0x41 f.enc = some x) ∧ (x.f.isSome = true) ∧ (d.frame fr = some y) ∧ (y.hit = some h) ∧ ((d.runOf h).filter (fun e => e.frame == some fr) = [e]) ∧ (e.beyond = false))] | _ => []) | none => []) | _, _ => []) | _ => []) = true ∧
    (meets ((ld 0 (instWord ⟨0, false⟩ 0x42 ((⟨0, 120, 3, 0, 0, 0, true, 0xFFFFFF⟩ : FmtFS).enc)) Regs.zero) |> fun d => { d with flow := { d.flow with render := dF.flow.render, runs := [((key4.renderPlaces).headD 0, [⟨some 0, false, []⟩])] }, ctxs := [(0, { cx 0 ra with f := some img4 })], buf := { d.buf with frames := [(0, { fr0 with place := .pass, pipe := 1, hit := (key4.renderPlaces).head? })] } }) fun d => let a0 : Who := (.ing 0);
      let a1 : Pred := ⟨0, false⟩; let a2 : FmtFS := ⟨0, 120, 3, 0, 0, 0, true, 0xFFFFFF⟩; let q := a1; let f := a2;
      match (a0 : Who) with | .ing fr => (match d.issues (.ing fr) q 0x42 f.enc, d.frame fr with | some x, some y => (match y.hit with | some h => (match (d.runOf h).filter (fun e => e.frame == some fr) with | [e] => [decide ((d.issues (.ing fr) q 0x42 f.enc = some x) ∧ (x.f.isSome = true) ∧ (d.frame fr = some y) ∧ (y.hit = some h) ∧ ((d.runOf h).filter (fun e => e.frame == some fr) = [e]) ∧ (e.beyond = false) ∧ (f.i = true))] | _ => []) | none => []) | _, _ => []) | _ => []) = true ∧
    (meets ((ld 0 (instWord ⟨0, false⟩ 0x43 ((⟨31, 124, 2, 0, 7, 0, false, 0⟩ : FmtFS).enc)) Regs.zero) |> fun d => { d with flow := { d.flow with render := dF.flow.render, runs := [((key4.renderPlaces).headD 0, [⟨some 0, false, []⟩])] }, ctxs := [(0, { cx 0 ra with f := some img4 })], buf := { d.buf with frames := [(0, { fr0 with place := .pass, pipe := 1, hit := (key4.renderPlaces).head? })] } }) fun d => let a0 : Who := (.ing 0);
      let a1 : Pred := ⟨0, false⟩; let a2 : FmtFS := ⟨31, 124, 2, 0, 7, 0, false, 0⟩; let q := a1; let f := a2;
      match (a0 : Who) with | .ing fr => (match d.issues (.ing fr) q 0x43 f.enc, d.frame fr with | some x, some y => (match y.hit with | some h => (match (d.runOf h).filter (fun e => e.frame == some fr) with | [e] => [decide ((d.issues (.ing fr) q 0x43 f.enc = some x) ∧ (x.f.isSome = true) ∧ (d.frame fr = some y) ∧ (y.hit = some h) ∧ ((d.runOf h).filter (fun e => e.frame == some fr) = [e]) ∧ (e.beyond = false) ∧ (f.sz = 2) ∧ (d.turnCome (.ing fr) x = true) ∧ ((d.viewOwn h fr).any (fun b => fieldLE b f.foff.toNat 4 == (x.regs.get f.rb).toNat % 2 ^ 32) = true))] | _ => []) | none => []) | _, _ => []) | _ => []) = true ∧
    (meets (ld 0 (instWord ⟨0, false⟩ 0x43 ((⟨31, 124, 2, 0, 7, 0, false, 0⟩ : FmtFS).enc)) Regs.zero) fun d => let a0 : Who := (.ing 0);
      let a1 : Pred := ⟨0, false⟩; let a2 : FmtFS := ⟨31, 124, 2, 0, 7, 0, false, 0⟩; let q := a1; let f := a2;
      match (a0 : Who) with | .ing fr => (match d.issues (.ing fr) q 0x43 f.enc with | some x => [decide ((d.issues (.ing fr) q 0x43 f.enc = some x) ∧ (x.f = none))] | none => []) | _ => []) = true ∧
    (meets ((ld 0 (instWord ⟨0, false⟩ 0x44 ((⟨31, 120, 3, 30, 7, 0, false, 0⟩ : FmtFS).enc)) Regs.zero) |> fun d => { d with flow := { d.flow with render := dF.flow.render, runs := [((key4.renderPlaces).headD 0, [⟨some 0, false, []⟩])] }, ctxs := [(0, { cx 0 ra with f := some img4 })], buf := { d.buf with frames := [(0, { fr0 with place := .pass, pipe := 1, hit := (key4.renderPlaces).head? })] } }) fun d => let a0 : Who := (.ing 0);
      let a1 : Pred := ⟨0, false⟩; let a2 : FmtFS := ⟨31, 120, 3, 30, 7, 0, false, 0⟩; let q := a1; let f := a2;
      match (a0 : Who) with | .ing fr => (match d.issues (.ing fr) q 0x44 f.enc, d.frame fr with | some x, some y => (match y.hit with | some h => (match (d.runOf h).filter (fun e => e.frame == some fr) with | [e] => [decide ((d.issues (.ing fr) q 0x44 f.enc = some x) ∧ (x.f.isSome = true) ∧ (d.frame fr = some y) ∧ (y.hit = some h) ∧ ((d.runOf h).filter (fun e => e.frame == some fr) = [e]) ∧ (e.beyond = false))] | _ => []) | none => []) | _, _ => []) | _ => []) = true ∧
    (meets (ld 0 (instWord ⟨0, false⟩ 0x45 ((⟨2, 0, 4, 31⟩ : FmtFL).enc)) rk) fun d => let a0 : Who := (.ing 0);
      let a1 : Pred := ⟨0, false⟩; let a2 : FmtFL := ⟨2, 0, 4, 31⟩; let who := a0; let q := a1; let f := a2;
      match d.issues who q 0x45 f.enc with | none => [] | some x => [decide ((d.issues who q 0x45 f.enc = some x) ∧ ((d.flow.learn.any fun a => a.1 == ⟨f.space.toNat, sliceB x.regs.key f.ko.toNat f.kl.toNat⟩ && decide (d.transit < a.2)) = false) ∧ ((d.flow.learn.filter fun a => decide (d.transit < a.2)).length < 16384) ∧ (1000000 ≤ d.learnTokens f.space.toNat))]) = true ∧
    (meets ((ld 0 (instWord ⟨0, false⟩ 0x45 ((⟨15, 0, 48, 31⟩ : FmtFL).enc)) rk) |> fun d => d.modFlow fun w => { w with tokens := [(15, (999999, 0))] }) fun d => let a0 : Who := (.ing 0);
      let a1 : Pred := ⟨0, false⟩; let a2 : FmtFL := ⟨15, 0, 48, 31⟩; let who := a0; let q := a1; let f := a2;
      match d.issues who q 0x45 f.enc with | none => [] | some x => [decide ((d.issues who q 0x45 f.enc = some x) ∧ ((d.flow.learn.any fun a => a.1 == ⟨f.space.toNat, sliceB x.regs.key f.ko.toNat f.kl.toNat⟩ && decide (d.transit < a.2)) = false) ∧ (d.learnTokens f.space.toNat < 1000000))]) = true := by
  decide +kernel

theorem test_witness_LineEdits :
    (meets (ld 0 (instWord ⟨0, false⟩ 0x50 ((⟨63, 16, true, 28, 0⟩ : FmtE).enc)) Regs.zero) fun d => let a0 : Who := (.ing 0);
      let a1 : Pred := ⟨0, false⟩; let a2 : FmtE := ⟨63, 16, true, 28, 0⟩; let q := a1; let f := a2;
      match (a0 : Who) with | .ing fr => (match d.issues (.ing fr) q 0x50 f.enc, d.frame fr with | some x, some y => [decide ((d.issues (.ing fr) q 0x50 f.enc = some x) ∧ (d.frame fr = some y))] | _, _ => []) | _ => []) = true ∧
    (meets (le 7 (instWord ⟨0, false⟩ 0x50 ((⟨63, 4, false, 0, 0xFFFFFFFF⟩ : FmtE).enc))) fun d => let a0 : Who := (.egr 5);
      let a1 : Pred := ⟨0, false⟩; let a2 : FmtE := ⟨63, 4, false, 0, 0xFFFFFFFF⟩; let q := a1; let f := a2;
      match (a0 : Who) with | .egr k => (match d.issues (.egr k) q 0x50 f.enc, d.copy k with | some x, some y => [decide ((d.issues (.egr k) q 0x50 f.enc = some x) ∧ (d.copy k = some y))] | _, _ => []) | _ => []) = true ∧
    (meets (ld 0 (instWord ⟨0, false⟩ 0x51 ((⟨48, 16, false, 0, 0⟩ : FmtE).enc)) Regs.zero) fun d => let a0 : Who := (.ing 0);
      let a1 : Pred := ⟨0, false⟩; let a2 : FmtE := ⟨48, 16, false, 0, 0⟩; let q := a1; let f := a2;
      match (a0 : Who) with | .ing fr => (match d.issues (.ing fr) q 0x51 f.enc, d.frame fr with | some x, some y => [decide ((d.issues (.ing fr) q 0x51 f.enc = some x) ∧ (d.frame fr = some y))] | _, _ => []) | _ => []) = true ∧
    (meets (ld 0 (instWord ⟨0, false⟩ 0x52 ((⟨60, 4, false, 0, 0xFFFFFFFF⟩ : FmtE).enc)) Regs.zero) fun d => let a0 : Who := (.ing 0);
      let a1 : Pred := ⟨0, false⟩; let a2 : FmtE := ⟨60, 4, false, 0, 0xFFFFFFFF⟩; let q := a1; let f := a2;
      match (a0 : Who) with | .ing fr => (match d.issues (.ing fr) q 0x52 f.enc, d.frame fr with | some x, some y => [decide ((d.issues (.ing fr) q 0x52 f.enc = some x) ∧ (d.frame fr = some y))] | _, _ => []) | _ => []) = true ∧
    (meets (ld 0 (instWord ⟨0, false⟩ 0x53 ((⟨2, true, 0, 20, 32, 46, true⟩ : FmtN).enc)) Regs.zero) fun d => let a0 : Who := (.ing 0);
      let a1 : Pred := ⟨0, false⟩; let a2 : FmtN := ⟨2, true, 0, 20, 32, 46, true⟩; let q := a1; let f := a2;
      match (a0 : Who) with | .ing fr => (match d.issues (.ing fr) q 0x53 f.enc, d.frame fr with | some x, some y => [decide ((d.issues (.ing fr) q 0x53 f.enc = some x) ∧ (d.frame fr = some y))] | _, _ => []) | _ => []) = true ∧
    (meets (ld 0 (instWord ⟨0, false⟩ 0x54 ((⟨54, 0, 7, true, 62⟩ : FmtT).enc)) Regs.zero) fun d => let a0 : Who := (.ing 0);
      let a1 : Pred := ⟨0, false⟩; let a2 : FmtT := ⟨54, 0, 7, true, 62⟩; let q := a1; let f := a2;
      match (a0 : Who) with | .ing fr => (match d.issues (.ing fr) q 0x54 f.enc, d.frame fr with | some x, some y => [decide ((d.issues (.ing fr) q 0x54 f.enc = some x) ∧ (d.frame fr = some y))] | _, _ => []) | _ => []) = true ∧
    (meets (ld 0 (instWord ⟨0, false⟩ 0x55 ((⟨0⟩ : FmtG).enc)) Regs.zero) fun d => let a0 : Who := (.ing 0);
      let a1 : Pred := ⟨0, false⟩; let a2 : FmtG := ⟨0⟩; let q := a1; let f := a2;
      match (a0 : Who) with | .ing fr => (match d.issues (.ing fr) q 0x55 f.enc, d.frame fr with | some x, some y => [decide ((d.issues (.ing fr) q 0x55 f.enc = some x) ∧ (d.frame fr = some y))] | _, _ => []) | _ => []) = true ∧
    (meets (ld 0 (instWord ⟨0, false⟩ 0x56 ((⟨4095⟩ : FmtG).enc)) Regs.zero) fun d => let a0 : Who := (.ing 0);
      let a1 : Pred := ⟨0, false⟩; let a2 : FmtG := ⟨4095⟩; let q := a1; let f := a2;
      match (a0 : Who) with | .ing fr => (match d.issues (.ing fr) q 0x56 f.enc, d.frame fr with | some x, some y => [decide ((d.issues (.ing fr) q 0x56 f.enc = some x) ∧ (d.frame fr = some y))] | _, _ => []) | _ => []) = true := by
  decide +kernel

theorem test_witness_LineForwarding :
    (meets (ld 0 (instWord ⟨0, false⟩ 0x60 ((⟨511, false, 0, 0⟩ : FmtW).enc)) Regs.zero) fun d => let a0 : Who := (.ing 0);
      let a1 : Pred := ⟨0, false⟩; let a2 : FmtW := ⟨511, false, 0, 0⟩; let who := a0; let q := a1; let f := a2;
      match d.issues who q 0x60 f.enc with | none => [] | some x => [decide ((d.issues who q 0x60 f.enc = some x))]) = true ∧
    (meets (ld 0 (instWord ⟨0, false⟩ 0x61 ((⟨255, false, 0, 1⟩ : FmtW).enc)) Regs.zero) fun d => let a0 : Who := (.ing 0);
      let a1 : Pred := ⟨0, false⟩; let a2 : FmtW := ⟨255, false, 0, 1⟩; let who := a0; let q := a1; let f := a2;
      match d.issues who q 0x61 f.enc with | none => [] | some x => [decide ((d.issues who q 0x61 f.enc = some x))]) = true ∧
    (meets (ld 0 (instWord ⟨0, false⟩ 0x62 ((⟨65535, false, 0, 0⟩ : FmtW).enc)) Regs.zero) fun d => let a0 : Who := (.ing 0);
      let a1 : Pred := ⟨0, false⟩; let a2 : FmtW := ⟨65535, false, 0, 0⟩; let who := a0; let q := a1; let f := a2;
      match d.issues who q 0x62 f.enc with | none => [] | some x => [decide ((d.issues who q 0x62 f.enc = some x))]) = true ∧
    (meets (ld 0 (instWord ⟨0, false⟩ 0x63 ((⟨7, false, 0, 0⟩ : FmtW).enc)) Regs.zero) fun d => let a0 : Who := (.ing 0);
      let a1 : Pred := ⟨0, false⟩; let a2 : FmtW := ⟨7, false, 0, 0⟩; let who := a0; let q := a1; let f := a2;
      match d.issues who q 0x63 f.enc with | none => [] | some x => [decide ((d.issues who q 0x63 f.enc = some x))]) = true ∧
    (meets (ld 0 (instWord ⟨0, false⟩ 0x64 ((⟨1048575, false, 0, 0⟩ : FmtW).enc)) Regs.zero) fun d => let a0 : Who := (.ing 0);
      let a1 : Pred := ⟨0, false⟩; let a2 : FmtW := ⟨1048575, false, 0, 0⟩; let who := a0; let q := a1; let f := a2;
      match d.issues who q 0x64 f.enc with | none => [] | some x => [decide ((d.issues who q 0x64 f.enc = some x) ∧ (bits (x.regs.mN 1) 3 2 = 0))]) = true ∧
    (meets (ld 0 (instWord ⟨0, false⟩ 0x64 ((⟨9, false, 0, 0⟩ : FmtW).enc)) { Regs.zero with m := zeroM.set 1 4 }) fun d => let a0 : Who := (.ing 0);
      let a1 : Pred := ⟨0, false⟩; let a2 : FmtW := ⟨9, false, 0, 0⟩; let who := a0; let q := a1; let f := a2;
      match d.issues who q 0x64 f.enc with | none => [] | some x => [decide ((d.issues who q 0x64 f.enc = some x) ∧ (bits (x.regs.mN 1) 3 2 ≠ 0))]) = true ∧
    (meets (ld 0 (instWord ⟨0, false⟩ 0x65 ((⟨516, false, 0, 3⟩ : FmtW).enc)) Regs.zero) fun d => let a0 : Who := (.ing 0);
      let a1 : Pred := ⟨0, false⟩; let a2 : FmtW := ⟨516, false, 0, 3⟩; let q := a1; let f := a2;
      match (a0 : Who) with | .ing fr => (match d.issues (.ing fr) q 0x65 f.enc, d.frame fr with | some x, some y => [decide ((d.issues (.ing fr) q 0x65 f.enc = some x) ∧ (d.frame fr = some y))] | _, _ => []) | _ => []) = true ∧
    (meets (le 0 (instWord ⟨0, false⟩ 0x65 ((⟨516, false, 0, 3⟩ : FmtW).enc))) fun d => let a0 : Who := (.egr 5);
      let a1 : Pred := ⟨0, false⟩; let a2 : FmtW := ⟨516, false, 0, 3⟩; let q := a1; let f := a2;
      match (a0 : Who) with | .egr k => (match d.issues (.egr k) q 0x65 f.enc, d.copy k with | some x, some y => [decide ((d.issues (.egr k) q 0x65 f.enc = some x) ∧ (d.copy k = some y))] | _, _ => []) | _ => []) = true ∧
    (meets (lt (instWord ⟨0, false⟩ 0x65 ((⟨516, false, 0, 3⟩ : FmtW).enc)) Regs.zero) fun d => let a0 : Who := (.thr 31 7);
      let a1 : Pred := ⟨0, false⟩; let a2 : FmtW := ⟨516, false, 0, 3⟩; let q := a1; let f := a2;
      match (a0 : Who) with | .thr engine thread => (match d.threadAt engine thread q 0x65 f.enc with | some (id, x) => [decide ((d.threadAt engine thread q 0x65 f.enc = some (id, x)))] | none => []) | _ => []) = true ∧
    (meets (ld 0 (instWord ⟨0, false⟩ 0x66 ((⟨351, false, 0, 0⟩ : FmtW).enc)) Regs.zero) fun d => let a0 : Who := (.ing 0);
      let a1 : Pred := ⟨0, false⟩; let a2 : FmtW := ⟨351, false, 0, 0⟩; let who := a0; let q := a1; let f := a2;
      match d.issues who q 0x66 f.enc with | none => [] | some x => [decide ((d.issues who q 0x66 f.enc = some x))]) = true ∧
    (meets (ld 0 (instWord ⟨0, false⟩ 0x67 ((⟨64, false, 0, 0⟩ : FmtW).enc)) Regs.zero) fun d => let a0 : Who := (.ing 0);
      let a1 : Pred := ⟨0, false⟩; let a2 : FmtW := ⟨64, false, 0, 0⟩; let who := a0; let q := a1; let f := a2;
      match d.issues who q 0x67 f.enc with | none => [] | some x => [decide ((d.issues who q 0x67 f.enc = some x))]) = true ∧
    (meets (ld 0 (instWord ⟨0, false⟩ 0x68 ((⟨95, false, 0, 0⟩ : FmtW).enc)) Regs.zero) fun d => let a0 : Who := (.ing 0);
      let a1 : Pred := ⟨0, false⟩; let a2 : FmtW := ⟨95, false, 0, 0⟩; let who := a0; let q := a1; let f := a2;
      match d.issues who q 0x68 f.enc with | none => [] | some x => [decide ((d.issues who q 0x68 f.enc = some x))]) = true ∧
    (meets (ld 0 (instWord ⟨0, false⟩ 0x69 ((⟨63, false, 0, 0⟩ : FmtW).enc)) Regs.zero) fun d => let a0 : Who := (.ing 0);
      let a1 : Pred := ⟨0, false⟩; let a2 : FmtW := ⟨63, false, 0, 0⟩; let q := a1; let f := a2;
      match (a0 : Who) with | .ing fr => (match d.issues (.ing fr) q 0x69 f.enc, d.frame fr with | some x, some y => [decide ((d.issues (.ing fr) q 0x69 f.enc = some x) ∧ (d.frame fr = some y))] | _, _ => []) | _ => []) = true ∧
    (meets (lt (instWord ⟨0, false⟩ 0x60 ((⟨511, false, 0, 0⟩ : FmtW).enc)) Regs.zero) fun d => let a0 : Who := (.thr 31 7);
      let a1 : Pred := ⟨0, false⟩; let a2 : FmtW := ⟨511, false, 0, 0⟩; let q := a1; let f := a2;
      match (a0 : Who) with | .thr engine thread => (match d.threadAt engine thread q 0x60 f.enc with | some (id, x) => [decide ((d.threadAt engine thread q 0x60 f.enc = some (id, x)) ∧ ((f.reg = true → (if f.reg then (x.regs.get f.ra).toNat else f.val.toNat) % 1024 ≤ 511)))] | none => []) | _ => []) = true ∧
    (meets (lt (instWord ⟨0, false⟩ 0x60 ((⟨0, true, 31, 0⟩ : FmtW).enc)) { Regs.zero with v := Regs.zero.v.set 31 512 }) fun d => let a0 : Who := (.thr 31 7);
      let a1 : Pred := ⟨0, false⟩; let a2 : FmtW := ⟨0, true, 31, 0⟩; let q := a1; let f := a2;
      match (a0 : Who) with | .thr engine thread => (match d.threadAt engine thread q 0x60 f.enc with | some (id, x) => [decide ((d.threadAt engine thread q 0x60 f.enc = some (id, x)) ∧ (f.reg = true) ∧ (511 < (if f.reg then (x.regs.get f.ra).toNat else f.val.toNat) % 1024))] | none => []) | _ => []) = true ∧
    (meets (lt (instWord ⟨0, false⟩ 0x61 ((⟨255, false, 0, 1⟩ : FmtW).enc)) Regs.zero) fun d => let a0 : Who := (.thr 31 7);
      let a1 : Pred := ⟨0, false⟩; let a2 : FmtW := ⟨255, false, 0, 1⟩; let q := a1; let f := a2;
      match (a0 : Who) with | .thr engine thread => (match d.threadAt engine thread q 0x61 f.enc with | some (id, x) => [decide ((d.threadAt engine thread q 0x61 f.enc = some (id, x)))] | none => []) | _ => []) = true ∧
    (meets (lt (instWord ⟨0, false⟩ 0x62 ((⟨65535, false, 0, 0⟩ : FmtW).enc)) Regs.zero) fun d => let a0 : Who := (.thr 31 7);
      let a1 : Pred := ⟨0, false⟩; let a2 : FmtW := ⟨65535, false, 0, 0⟩; let q := a1; let f := a2;
      match (a0 : Who) with | .thr engine thread => (match d.threadAt engine thread q 0x62 f.enc with | some (id, x) => [decide ((d.threadAt engine thread q 0x62 f.enc = some (id, x)))] | none => []) | _ => []) = true ∧
    (meets (lt (instWord ⟨0, false⟩ 0x63 ((⟨7, false, 0, 0⟩ : FmtW).enc)) Regs.zero) fun d => let a0 : Who := (.thr 31 7);
      let a1 : Pred := ⟨0, false⟩; let a2 : FmtW := ⟨7, false, 0, 0⟩; let q := a1; let f := a2;
      match (a0 : Who) with | .thr engine thread => (match d.threadAt engine thread q 0x63 f.enc with | some (id, x) => [decide ((d.threadAt engine thread q 0x63 f.enc = some (id, x)))] | none => []) | _ => []) = true ∧
    (meets (lt (instWord ⟨0, false⟩ 0x66 ((⟨351, false, 0, 0⟩ : FmtW).enc)) Regs.zero) fun d => let a0 : Who := (.thr 31 7);
      let a1 : Pred := ⟨0, false⟩; let a2 : FmtW := ⟨351, false, 0, 0⟩; let q := a1; let f := a2;
      match (a0 : Who) with | .thr engine thread => (match d.threadAt engine thread q 0x66 f.enc with | some (id, x) => [decide ((d.threadAt engine thread q 0x66 f.enc = some (id, x)))] | none => []) | _ => []) = true ∧
    (meets (lt (instWord ⟨0, false⟩ 0x68 ((⟨95, false, 0, 0⟩ : FmtW).enc)) Regs.zero) fun d => let a0 : Who := (.thr 31 7);
      let a1 : Pred := ⟨0, false⟩; let a2 : FmtW := ⟨95, false, 0, 0⟩; let q := a1; let f := a2;
      match (a0 : Who) with | .thr engine thread => (match d.threadAt engine thread q 0x68 f.enc with | some (id, x) => [decide ((d.threadAt engine thread q 0x68 f.enc = some (id, x)))] | none => []) | _ => []) = true := by
  decide +kernel

theorem test_witness_SequencerAndTime :
    (meets (lc 22 (instWord ⟨0, false⟩ 0x70 ((⟨1, 2, true⟩ : FmtC).enc))) fun d => let a0 : Who := (.ing 0);
      let a1 : Pred := ⟨0, false⟩; let a2 : FmtC := ⟨1, 2, true⟩; let who := a0; let f := a2;
      match d.lineCtx who with | none => [] | some x => (match x.word with | none => [] | some i => let k := (⟨((d.stationWords x x.station).getD i 0).toNat, []⟩ : WInfo).succ (b2n (x.regs.pred f.sa) + (if f.b2 then 2 * b2n (x.regs.pred f.sb) else 0)); if !(a1.pi == 0 && !a1.ps) then [] else [decide ((d.lineCtx who = some x) ∧ (x.word = some i) ∧ (x.live = true) ∧ ((⟨((d.stationWords x x.station).getD i 0).toNat, []⟩ : WInfo).cword = instWord ⟨0, false⟩ 0x70 f.enc) ∧ (d.owes x = false) ∧ (x.station < x.last) ∧ (x.flowDue (x.station + 1) = none) ∧ (k = (⟨((d.stationWords x x.station).getD i 0).toNat, []⟩ : WInfo).succ (b2n (x.regs.pred f.sa) + (if f.b2 then 2 * b2n (x.regs.pred f.sb) else 0))) ∧ (k < (d.stationWords x (x.station + 1)).length) ∧ (d.pipes.reload = []))])) = true ∧
    (meets (lc 23 (instWord ⟨0, false⟩ 0x71 0)) fun d => let a0 : Who := (.ing 0); let a1 : Pred := ⟨0, false⟩; let who := a0;
      match d.lineCtx who with | none => [] | some x => (match x.word with | none => [] | some i => if !(a1.pi == 0 && !a1.ps) then [] else [decide ((d.lineCtx who = some x) ∧ (x.word = some i) ∧ (x.live = true) ∧ (slotWord ((d.stationWords x x.station).getD i 0).toNat 5 = instWord ⟨0, false⟩ 0x71 0) ∧ (d.owes x = false))])) = true ∧
    (meets ((ld 0 (instWord ⟨0, false⟩ 0x80 ((⟨31, 7, 0, 0, false, 0⟩ : FmtTM).encRd)) Regs.zero) |> fun d => { d with ctxs := [(0, { cx 0 Regs.zero with tbs := (List.range 8).map d.tbNow, gates := [(0, 1)] })] }) fun d => let a0 : Who := (.ing 0);
      let a1 : Pred := ⟨0, false⟩; let a2 : FmtTM := ⟨31, 7, 0, 0, false, 0⟩; let who := a0; let q := a1; let f := a2;
      match d.issues who q 0x80 f.encRd with | none => [] | some x => (match x.tbs[f.tb.toNat]? with | some b => [decide ((d.issues who q 0x80 f.encRd = some x) ∧ (x.tbs[f.tb.toNat]? = some b) ∧ (f.part = 0))] | none => [])) = true ∧
    (meets ((ld 0 (instWord ⟨0, false⟩ 0x80 ((⟨31, 7, 1, 0, false, 0⟩ : FmtTM).encRd)) Regs.zero) |> fun d => { d with ctxs := [(0, { cx 0 Regs.zero with tbs := (List.range 8).map d.tbNow, gates := [(0, 1)] })] }) fun d => let a0 : Who := (.ing 0);
      let a1 : Pred := ⟨0, false⟩; let a2 : FmtTM := ⟨31, 7, 1, 0, false, 0⟩; let who := a0; let q := a1; let f := a2;
      match d.issues who q 0x80 f.encRd with | none => [] | some x => (match x.tbs[f.tb.toNat]? with | some b => [decide ((d.issues who q 0x80 f.encRd = some x) ∧ (x.tbs[f.tb.toNat]? = some b) ∧ (f.part = 1))] | none => [])) = true ∧
    (meets ((ld 0 (instWord ⟨0, false⟩ 0x80 ((⟨31, 7, 2, 0, false, 0⟩ : FmtTM).encRd)) Regs.zero) |> fun d => { d with ctxs := [(0, { cx 0 Regs.zero with tbs := (List.range 8).map d.tbNow, gates := [(0, 1)] })] }) fun d => let a0 : Who := (.ing 0);
      let a1 : Pred := ⟨0, false⟩; let a2 : FmtTM := ⟨31, 7, 2, 0, false, 0⟩; let who := a0; let q := a1; let f := a2;
      match d.issues who q 0x80 f.encRd with | none => [] | some x => (match x.tbs[f.tb.toNat]? with | some b => [decide ((d.issues who q 0x80 f.encRd = some x) ∧ (x.tbs[f.tb.toNat]? = some b) ∧ (f.part = 2))] | none => [])) = true ∧
    (meets ((ld 0 (instWord ⟨0, false⟩ 0x80 ((⟨31, 7, 3, 0, false, 0⟩ : FmtTM).encRd)) Regs.zero) |> fun d => { d with ctxs := [(0, { cx 0 Regs.zero with tbs := (List.range 8).map d.tbNow, gates := [(0, 1)] })] }) fun d => let a0 : Who := (.ing 0);
      let a1 : Pred := ⟨0, false⟩; let a2 : FmtTM := ⟨31, 7, 3, 0, false, 0⟩; let who := a0; let q := a1; let f := a2;
      match d.issues who q 0x80 f.encRd with | none => [] | some x => (match x.tbs[f.tb.toNat]? with | some b => [decide ((d.issues who q 0x80 f.encRd = some x) ∧ (x.tbs[f.tb.toNat]? = some b) ∧ (f.part = 3))] | none => [])) = true ∧
    (meets ((ld 0 (instWord ⟨0, false⟩ 0x81 ((⟨7, 7, 0, 31, false, 0⟩ : FmtTM).encRd)) Regs.zero) |> fun d => { d with ctxs := [(0, { cx 0 Regs.zero with tbs := (List.range 8).map d.tbNow, gates := [(0, 1)] })] }) fun d => let a0 : Who := (.ing 0);
      let a1 : Pred := ⟨0, false⟩; let a2 : FmtTM := ⟨7, 7, 0, 31, false, 0⟩; let who := a0; let q := a1; let f := a2;
      match d.issues who q 0x81 f.encRd with | none => [] | some x => (match x.tbs[f.tb.toNat]? with | some b => [decide ((d.issues who q 0x81 f.encRd = some x) ∧ (x.tbs[f.tb.toNat]? = some b))] | none => [])) = true ∧
    (meets ((ld 0 (instWord ⟨0, false⟩ 0x82 ((⟨31, 0, 0, 0, false, 0⟩ : FmtTM).encRd)) Regs.zero) |> fun d => { d with ctxs := [(0, { cx 0 Regs.zero with tbs := (List.range 8).map d.tbNow, gates := [(0, 1)] })] }) fun d => let a0 : Who := (.ing 0);
      let a1 : Pred := ⟨0, false⟩; let a2 : FmtTM := ⟨31, 0, 0, 0, false, 0⟩; let q := a1; let f := a2;
      match (a0 : Who) with | .ing fr => (match d.issues (.ing fr) q 0x82 f.encRd, d.frame fr with | some x, some y => [decide ((d.issues (.ing fr) q 0x82 f.encRd = some x) ∧ (d.frame fr = some y) ∧ (f.tb = 0) ∧ (f.part = 0))] | _, _ => []) | _ => []) = true ∧
    (meets ((ld 0 (instWord ⟨0, false⟩ 0x83 ((⟨7, 0, 0, 31, false, 0⟩ : FmtTM).encRd)) Regs.zero) |> fun d => { d with ctxs := [(0, { cx 0 Regs.zero with tbs := (List.range 8).map d.tbNow, gates := [(0, 1)] })] }) fun d => let a0 : Who := (.ing 0);
      let a1 : Pred := ⟨0, false⟩; let a2 : FmtTM := ⟨7, 0, 0, 31, false, 0⟩; let who := a0; let q := a1; let f := a2;
      match d.issues who q 0x83 f.encRd with | none => [] | some x => (match NMap.get? x.gates ((x.regs.get f.ra).toNat % 1024) with | some g => [decide ((d.issues who q 0x83 f.encRd = some x) ∧ (NMap.get? x.gates ((x.regs.get f.ra).toNat % 1024) = some g))] | none => [])) = true ∧
    (meets (ld 0 (instWord ⟨0, false⟩ 0x83 ((⟨7, 0, 0, 31, false, 0⟩ : FmtTM).encRd)) Regs.zero) fun d => let a0 : Who := (.ing 0);
      let a1 : Pred := ⟨0, false⟩; let a2 : FmtTM := ⟨7, 0, 0, 31, false, 0⟩; let who := a0; let q := a1; let f := a2;
      match d.issues who q 0x83 f.encRd with | none => [] | some x => [decide ((d.issues who q 0x83 f.encRd = some x) ∧ (NMap.get? x.gates ((x.regs.get f.ra).toNat % 1024) = none))]) = true := by
  decide +kernel

theorem test_witness_ThreadControl :
    (meets (lt (instWord ⟨0, false⟩ 0x90 ((⟨0, false, 0x91⟩ : FmtJ).enc)) (rs)) fun d => let a0 : Fin 32 := 31;
      let a1 : Fin 8 := 7; let a2 : Pred := ⟨0, false⟩; let a3 : FmtJ := ⟨0, false, 0x91⟩; let engine := a0; let thread := a1;
      let q := a2; let f := a3;
      match d.threadAt engine thread q 0x90 f.enc with | some (id, x) => [decide ((d.threadAt engine thread q 0x90 f.enc = some (id, x)) ∧ (d.regionOk x (if f.reg then (x.regs.get f.ra).toNat else f.imm.toNat) = true))] | none => []) = true ∧
    (meets (lt (instWord ⟨0, false⟩ 0x90 ((⟨0, false, 0x92⟩ : FmtJ).enc)) (rs)) fun d => let a0 : Fin 32 := 31;
      let a1 : Fin 8 := 7; let a2 : Pred := ⟨0, false⟩; let a3 : FmtJ := ⟨0, false, 0x92⟩; let engine := a0; let thread := a1;
      let q := a2; let f := a3;
      match d.threadAt engine thread q 0x90 f.enc with | some (id, x) => [decide ((d.threadAt engine thread q 0x90 f.enc = some (id, x)) ∧ (d.regionOk x (if f.reg then (x.regs.get f.ra).toNat else f.imm.toNat) = false))] | none => []) = true ∧
    (meets (lt (instWord ⟨0, false⟩ 0x91 ((⟨0, false, 0xFFFFFFFF + 2⟩ : FmtJ).enc)) (rs)) fun d => let a0 : Fin 32 := 31;
      let a1 : Fin 8 := 7; let a2 : Pred := ⟨0, false⟩; let a3 : FmtJ := ⟨0, false, 0xFFFFFFFF + 2⟩; let engine := a0;
      let thread := a1; let q := a2; let f := a3;
      match d.threadAt engine thread q 0x91 f.enc with | some (id, x) => [decide ((d.threadAt engine thread q 0x91 f.enc = some (id, x)) ∧ (d.regionOk x (x.regs.pc + BitVec.signExtend 64 f.imm).toNat = true))] | none => []) = true ∧
    (meets (lt (instWord ⟨0, false⟩ 0x92 ((⟨48, true, 0⟩ : FmtJ).enc)) ({ rs with s := rs.s.set 0 0x91 })) fun d => let a0 : Fin 32 := 31;
      let a1 : Fin 8 := 7; let a2 : Pred := ⟨0, false⟩; let a3 : FmtJ := ⟨48, true, 0⟩; let engine := a0; let thread := a1;
      let q := a2; let f := a3;
      match d.threadAt engine thread q 0x92 f.enc with | some (id, x) => [decide ((d.threadAt engine thread q 0x92 f.enc = some (id, x)) ∧ ((x.regs.sp - 8).toNat % 8 = 0) ∧ (pageBase id + 0x4800 ≤ (x.regs.sp - 8).toNat) ∧ ((x.regs.sp - 8).toNat + 8 ≤ pageBase id + 0x8000) ∧ (d.regionOk x (if f.reg then (x.regs.get f.ra).toNat else f.imm.toNat) = true))] | none => []) = true ∧
    (meets (lt (instWord ⟨0, false⟩ 0x92 ((⟨0, false, 0x90⟩ : FmtJ).enc)) ({ rs with sp := 0x13FC807 })) fun d => let a0 : Fin 32 := 31;
      let a1 : Fin 8 := 7; let a2 : Pred := ⟨0, false⟩; let a3 : FmtJ := ⟨0, false, 0x90⟩; let engine := a0; let thread := a1;
      let q := a2; let f := a3;
      match d.threadAt engine thread q 0x92 f.enc with | some (id, x) => [decide ((d.threadAt engine thread q 0x92 f.enc = some (id, x)) ∧ ((x.regs.sp - 8).toNat % 8 ≠ 0))] | none => []) = true ∧
    (meets (lt (instWord ⟨0, false⟩ 0x92 ((⟨0, false, 0x90⟩ : FmtJ).enc)) ({ rs with sp := 0x13FC800 })) fun d => let a0 : Fin 32 := 31;
      let a1 : Fin 8 := 7; let a2 : Pred := ⟨0, false⟩; let a3 : FmtJ := ⟨0, false, 0x90⟩; let engine := a0; let thread := a1;
      let q := a2; let f := a3;
      match d.threadAt engine thread q 0x92 f.enc with | some (id, x) => [decide ((d.threadAt engine thread q 0x92 f.enc = some (id, x)) ∧ ((x.regs.sp - 8).toNat % 8 = 0) ∧ ((x.regs.sp - 8).toNat < pageBase id + 0x4800))] | none => []) = true ∧
    (meets ((lt (instWord ⟨0, false⟩ 0x93 ((⟨0, 0, 0, 0, 0⟩ : FmtQ).enc)) ({ rs with sp := 0x13FFFF8 })) |> fun d => d.setSram 0x13FFFF8 (bytesLE 8 0x90)) fun d => let a0 : Fin 32 := 31;
      let a1 : Fin 8 := 7; let a2 : Pred := ⟨0, false⟩; let a3 : FmtQ := ⟨0, 0, 0, 0, 0⟩; let engine := a0; let thread := a1;
      let q := a2; let f := a3;
      match d.threadAt engine thread q 0x93 f.enc with | some (id, x) => [decide ((d.threadAt engine thread q 0x93 f.enc = some (id, x)) ∧ (x.regs.sp.toNat % 8 = 0) ∧ (pageBase id + 0x4800 ≤ x.regs.sp.toNat) ∧ (x.regs.sp.toNat + 8 ≤ pageBase id + 0x8000) ∧ (d.regionOk x (leNat (d.sram x.regs.sp.toNat 8)) = true))] | none => []) = true ∧
    (meets (lt (instWord ⟨0, false⟩ 0x94 ((⟨63, false, 1⟩ : FmtJ).enc)) (rs)) fun d => let a0 : Fin 32 := 31; let a1 : Fin 8 := 7;
      let a2 : Pred := ⟨0, false⟩; let a3 : FmtJ := ⟨63, false, 1⟩; let engine := a0; let thread := a1; let q := a2; let f := a3;
      match d.threadAt engine thread q 0x94 f.enc with | some (id, x) => [decide ((d.threadAt engine thread q 0x94 f.enc = some (id, x)) ∧ (destOk f.ra = true) ∧ (isS f.ra = true) ∧ (x.regs.get f.ra ≠ 1) ∧ (d.regionOk x (x.regs.pc + BitVec.signExtend 64 f.imm).toNat = true))] | none => []) = true ∧
    (meets (lt (instWord ⟨0, false⟩ 0x94 ((⟨0, false, 0xFFFF0000⟩ : FmtJ).enc)) ({ rs with v := rs.v.set 0 1 })) fun d => let a0 : Fin 32 := 31;
      let a1 : Fin 8 := 7; let a2 : Pred := ⟨0, false⟩; let a3 : FmtJ := ⟨0, false, 0xFFFF0000⟩; let engine := a0; let thread := a1;
      let q := a2; let f := a3;
      match d.threadAt engine thread q 0x94 f.enc with | some (id, x) => [decide ((d.threadAt engine thread q 0x94 f.enc = some (id, x)) ∧ (destOk f.ra = true) ∧ (x.regs.get f.ra = 1))] | none => []) = true := by
  decide +kernel

theorem test_witness_ThreadMemory :
    (meets (lt (instWord ⟨0, false⟩ 0x98 ((⟨63, 48, 3, 0x1FFFFFFFF8⟩ : FmtM).enc)) (rs)) fun d => let a0 : Fin 32 := 31;
      let a1 : Fin 8 := 7; let a2 : Pred := ⟨0, false⟩; let a3 : FmtM := ⟨63, 48, 3, 0x1FFFFFFFF8⟩; let engine := a0;
      let thread := a1; let q := a2; let f := a3;
      match d.threadAt engine thread q 0x98 f.enc with | some (id, x) => [decide ((d.threadAt engine thread q 0x98 f.enc = some (id, x)) ∧ (destOk f.rd = true) ∧ ((x.regs.get f.ra + BitVec.signExtend 64 f.off).toNat % 2 ^ f.sz.toNat = 0) ∧ ((x.regs.get f.ra + BitVec.signExtend 64 f.off).toNat < heapStart) ∧ (d.badAddr id false 4 (x.regs.get f.ra + BitVec.signExtend 64 f.off).toNat (2 ^ f.sz.toNat) = none))] | none => []) = true ∧
    (meets (lt (instWord ⟨0, false⟩ 0x98 ((⟨63, 48, 3, 4⟩ : FmtM).enc)) (rs)) fun d => let a0 : Fin 32 := 31; let a1 : Fin 8 := 7;
      let a2 : Pred := ⟨0, false⟩; let a3 : FmtM := ⟨63, 48, 3, 4⟩; let engine := a0; let thread := a1; let q := a2; let f := a3;
      match d.threadAt engine thread q 0x98 f.enc with | some (id, x) => [decide ((d.threadAt engine thread q 0x98 f.enc = some (id, x)) ∧ (destOk f.rd = true) ∧ ((x.regs.get f.ra + BitVec.signExtend 64 f.off).toNat % 2 ^ f.sz.toNat ≠ 0))] | none => []) = true ∧
    (meets (lt (instWord ⟨0, false⟩ 0x98 ((⟨38, 48, 0, 0⟩ : FmtM).enc)) (rs)) fun d => let a0 : Fin 32 := 31; let a1 : Fin 8 := 7;
      let a2 : Pred := ⟨0, false⟩; let a3 : FmtM := ⟨38, 48, 0, 0⟩; let engine := a0; let thread := a1; let q := a2; let f := a3;
      match d.threadAt engine thread q 0x98 f.enc with | some (id, x) => [decide ((d.threadAt engine thread q 0x98 f.enc = some (id, x)) ∧ (destOk f.rd = false) ∧ ((x.regs.get f.ra + BitVec.signExtend 64 f.off).toNat % 2 ^ f.sz.toNat = 0) ∧ ((x.regs.get f.ra + BitVec.signExtend 64 f.off).toNat < heapStart) ∧ (d.badAddr id false 4 (x.regs.get f.ra + BitVec.signExtend 64 f.off).toNat (2 ^ f.sz.toNat) = none))] | none => []) = true ∧
    (meets (lt (instWord ⟨0, false⟩ 0x99 ((⟨31, 48, 1, 0xFE⟩ : FmtM).enc)) (rs)) fun d => let a0 : Fin 32 := 31;
      let a1 : Fin 8 := 7; let a2 : Pred := ⟨0, false⟩; let a3 : FmtM := ⟨31, 48, 1, 0xFE⟩; let engine := a0; let thread := a1;
      let q := a2; let f := a3;
      match d.threadAt engine thread q 0x99 f.enc with | some (id, x) => [decide ((d.threadAt engine thread q 0x99 f.enc = some (id, x)) ∧ ((x.regs.get f.ra + BitVec.signExtend 64 f.off).toNat % 2 ^ f.sz.toNat = 0) ∧ ((x.regs.get f.ra + BitVec.signExtend 64 f.off).toNat < heapStart) ∧ (d.badAddr id true 4 (x.regs.get f.ra + BitVec.signExtend 64 f.off).toNat (2 ^ f.sz.toNat) = none))] | none => []) = true ∧
    (meets ((lt (instWord ⟨0, false⟩ 0x9A ((⟨31, 51, 3, 0xFFFF8⟩ : FmtM).enc)) ({ rs with s := rs.s.set 3 0x100000000 })) |> fun d => hp d) fun d => let a0 : Fin 32 := 31;
      let a1 : Fin 8 := 7; let a2 : Pred := ⟨0, false⟩; let a3 : FmtM := ⟨31, 51, 3, 0xFFFF8⟩; let engine := a0; let thread := a1;
      let q := a2; let f := a3;
      match d.threadAt engine thread q 0x9A f.enc with | some (id, x) => [decide ((d.threadAt engine thread q 0x9A f.enc = some (id, x)) ∧ (f.sz = 3) ∧ (destOk f.rd = true) ∧ ((x.regs.get f.ra + BitVec.signExtend 64 f.off).toNat % 8 = 0) ∧ (heapStart ≤ (x.regs.get f.ra + BitVec.signExtend 64 f.off).toNat) ∧ (d.badAddr id false 4 (x.regs.get f.ra + BitVec.signExtend 64 f.off).toNat 8 = none) ∧ (d.poisonedIn (x.regs.get f.ra + BitVec.signExtend 64 f.off).toNat 8 = none))] | none => []) = true ∧
    (meets ((lt (instWord ⟨0, false⟩ 0x9B ((⟨31, 51, 3, 0⟩ : FmtM).enc)) ({ rs with s := rs.s.set 3 0x100000000 })) |> fun d => hp d) fun d => let a0 : Fin 32 := 31;
      let a1 : Fin 8 := 7; let a2 : Pred := ⟨0, false⟩; let a3 : FmtM := ⟨31, 51, 3, 0⟩; let engine := a0; let thread := a1;
      let q := a2; let f := a3;
      match d.threadAt engine thread q 0x9B f.enc with | some (id, x) => [decide ((d.threadAt engine thread q 0x9B f.enc = some (id, x)) ∧ (f.sz = 3) ∧ ((x.regs.get f.ra + BitVec.signExtend 64 f.off).toNat % 8 = 0) ∧ (heapStart ≤ (x.regs.get f.ra + BitVec.signExtend 64 f.off).toNat) ∧ (d.badAddr id true 4 (x.regs.get f.ra + BitVec.signExtend 64 f.off).toNat 8 = none) ∧ (d.poisonedIn (x.regs.get f.ra + BitVec.signExtend 64 f.off).toNat 8 = none))] | none => []) = true ∧
    (meets (lt (instWord ⟨0, false⟩ 0xA8 ((⟨50, 48, 49, 0, 0⟩ : FmtQ).enc)) (rs)) fun d => let a0 : Fin 32 := 31;
      let a1 : Fin 8 := 7; let a2 : Pred := ⟨0, false⟩; let a3 : FmtQ := ⟨50, 48, 49, 0, 0⟩; let engine := a0; let thread := a1;
      let q := a2; let f := a3;
      match d.threadAt engine thread q 0xA8 f.enc with | some (id, x) => [decide ((d.threadAt engine thread q 0xA8 f.enc = some (id, x)) ∧ ((d.thr (thrKey engine thread)).interrupt = false) ∧ (x.regs.pr = 0) ∧ (d.unitsGood id true (decide ((x.regs.get f.ra).toNat < (x.regs.get f.rd).toNat ∧ (x.regs.get f.rd).toNat < (x.regs.get f.ra).toNat + (x.regs.get f.rb).toNat)) (x.regs.get f.rd).toNat (x.regs.get f.rb).toNat = true) ∧ (d.unitsGood id false (decide ((x.regs.get f.ra).toNat < (x.regs.get f.rd).toNat ∧ (x.regs.get f.rd).toNat < (x.regs.get f.ra).toNat + (x.regs.get f.rb).toNat)) (x.regs.get f.ra).toNat (x.regs.get f.rb).toNat = true) ∧ ((x.regs.get f.ra).toNat + (x.regs.get f.rb).toNat ≤ heapStart) ∧ ((x.regs.get f.rd).toNat + (x.regs.get f.rb).toNat ≤ heapStart))] | none => []) = true ∧
    (meets ((lt (instWord ⟨0, false⟩ 0xA9 ((⟨52, 48, 49, 0, 0xFF⟩ : FmtQ).enc)) ({ rs with s := rs.s.set 4 7 })) |> fun d => d.setSram 0x13FFF0C [7]) fun d => let a0 : Fin 32 := 31;
      let a1 : Fin 8 := 7; let a2 : Pred := ⟨0, false⟩; let a3 : FmtQ := ⟨52, 48, 49, 0, 0xFF⟩; let engine := a0; let thread := a1;
      let q := a2; let f := a3;
      match d.threadAt engine thread q 0xA9 f.enc with | some (id, x) => (match d.scanWord (x.regs.get f.ra).toNat 0 (x.regs.get f.rb).toNat f.imm.toNat ((x.regs.get f.rd).toNat % 2 ^ 32) with | some i => [decide ((d.threadAt engine thread q 0xA9 f.enc = some (id, x)) ∧ ((d.thr (thrKey engine thread)).interrupt = false) ∧ (x.regs.pr = 0) ∧ (destOk f.rd = true) ∧ (d.unitsGood id false false (x.regs.get f.ra).toNat (x.regs.get f.rb).toNat = true) ∧ (d.scanWord (x.regs.get f.ra).toNat 0 (x.regs.get f.rb).toNat f.imm.toNat ((x.regs.get f.rd).toNat % 2 ^ 32) = some i) ∧ (i < 2 ^ 64))] | none => []) | none => []) = true ∧
    (meets (lt (instWord ⟨0, false⟩ 0xA9 ((⟨52, 48, 49, 0, 0xFF⟩ : FmtQ).enc)) ({ rs with s := rs.s.set 4 7 })) fun d => let a0 : Fin 32 := 31;
      let a1 : Fin 8 := 7; let a2 : Pred := ⟨0, false⟩; let a3 : FmtQ := ⟨52, 48, 49, 0, 0xFF⟩; let engine := a0; let thread := a1;
      let q := a2; let f := a3;
      match d.threadAt engine thread q 0xA9 f.enc with | some (id, x) => [decide ((d.threadAt engine thread q 0xA9 f.enc = some (id, x)) ∧ ((d.thr (thrKey engine thread)).interrupt = false) ∧ (x.regs.pr = 0) ∧ (destOk f.rd = true) ∧ (d.unitsGood id false false (x.regs.get f.ra).toNat (x.regs.get f.rb).toNat = true) ∧ (d.scanWord (x.regs.get f.ra).toNat 0 (x.regs.get f.rb).toNat f.imm.toNat ((x.regs.get f.rd).toNat % 2 ^ 32) = none))] | none => []) = true ∧
    (meets (lt (instWord ⟨0, false⟩ 0x10 ((⟨63, 48, 49, 3, 0⟩ : FmtH).enc)) (rs)) fun d => let a0 : Who := (.thr 31 7);
      let a1 : Pred := ⟨0, false⟩; let a2 : FmtH := ⟨63, 48, 49, 3, 0⟩; let q := a1; let f := a2;
      match (a0 : Who) with | .thr engine thread => (match d.threadAt engine thread q 0x10 f.enc with | some (id, x) => [decide ((d.threadAt engine thread q 0x10 f.enc = some (id, x)) ∧ (f.fn = 3) ∧ (f.imm.toNat % 4 = 0) ∧ (destOk f.rd = true) ∧ ((d.thr (thrKey engine thread)).interrupt = false) ∧ (x.regs.pr = 0) ∧ (d.unitsGood id false false (x.regs.get f.off).toNat (x.regs.get f.len).toNat = true))] | none => []) | _ => []) = true := by
  decide +kernel

theorem test_witness_ThreadAlu :
    (meets (lt (instWord ⟨0, false⟩ 0x0 ((⟨48, 49, 0, true, false, 0xFFFFFFFF⟩ : FmtA).enc)) (rs)) fun d => let a0 : Who := (.thr 31 7);
      let a1 : Pred := ⟨0, false⟩; let a2 : FmtA := ⟨48, 49, 0, true, false, 0xFFFFFFFF⟩; let q := a1; let f := a2;
      match (a0 : Who) with | .thr engine thread => (match d.threadAt engine thread q 0x00 f.enc with | some (id, x) => [decide ((d.threadAt engine thread q 0x00 f.enc = some (id, x)) ∧ (isS f.rd = true))] | none => []) | _ => []) = true ∧
    (meets (lt (instWord ⟨0, false⟩ 0x1 ((⟨63, 48, 50, false, false, 0⟩ : FmtA).enc)) (rs)) fun d => let a0 : Who := (.thr 31 7);
      let a1 : Pred := ⟨0, false⟩; let a2 : FmtA := ⟨63, 48, 50, false, false, 0⟩; let q := a1; let f := a2;
      match (a0 : Who) with | .thr engine thread => (match d.threadAt engine thread q 0x01 f.enc with | some (id, x) => [decide ((d.threadAt engine thread q 0x01 f.enc = some (id, x)) ∧ (isS f.rd = true))] | none => []) | _ => []) = true ∧
    (meets (lt (instWord ⟨0, false⟩ 0x2 ((⟨48, 49, 0, true, false, 0xFFFFFFFF⟩ : FmtA).enc)) (rs)) fun d => let a0 : Who := (.thr 31 7);
      let a1 : Pred := ⟨0, false⟩; let a2 : FmtA := ⟨48, 49, 0, true, false, 0xFFFFFFFF⟩; let q := a1; let f := a2;
      match (a0 : Who) with | .thr engine thread => (match d.threadAt engine thread q 0x02 f.enc with | some (id, x) => [decide ((d.threadAt engine thread q 0x02 f.enc = some (id, x)) ∧ (isS f.rd = true))] | none => []) | _ => []) = true ∧
    (meets (lt (instWord ⟨0, false⟩ 0x3 ((⟨63, 48, 50, false, false, 0⟩ : FmtA).enc)) (rs)) fun d => let a0 : Who := (.thr 31 7);
      let a1 : Pred := ⟨0, false⟩; let a2 : FmtA := ⟨63, 48, 50, false, false, 0⟩; let q := a1; let f := a2;
      match (a0 : Who) with | .thr engine thread => (match d.threadAt engine thread q 0x03 f.enc with | some (id, x) => [decide ((d.threadAt engine thread q 0x03 f.enc = some (id, x)) ∧ (isS f.rd = true))] | none => []) | _ => []) = true ∧
    (meets (lt (instWord ⟨0, false⟩ 0x4 ((⟨48, 49, 0, true, false, 0xFFFFFFFF⟩ : FmtA).enc)) (rs)) fun d => let a0 : Who := (.thr 31 7);
      let a1 : Pred := ⟨0, false⟩; let a2 : FmtA := ⟨48, 49, 0, true, false, 0xFFFFFFFF⟩; let q := a1; let f := a2;
      match (a0 : Who) with | .thr engine thread => (match d.threadAt engine thread q 0x04 f.enc with | some (id, x) => [decide ((d.threadAt engine thread q 0x04 f.enc = some (id, x)) ∧ (isS f.rd = true))] | none => []) | _ => []) = true ∧
    (meets (lt (instWord ⟨0, false⟩ 0x5 ((⟨63, 48, 50, false, false, 0⟩ : FmtA).enc)) (rs)) fun d => let a0 : Who := (.thr 31 7);
      let a1 : Pred := ⟨0, false⟩; let a2 : FmtA := ⟨63, 48, 50, false, false, 0⟩; let q := a1; let f := a2;
      match (a0 : Who) with | .thr engine thread => (match d.threadAt engine thread q 0x05 f.enc with | some (id, x) => [decide ((d.threadAt engine thread q 0x05 f.enc = some (id, x)) ∧ (isS f.rd = true))] | none => []) | _ => []) = true ∧
    (meets (lt (instWord ⟨0, false⟩ 0x6 ((⟨48, 49, 0, true, false, 0xFFFFFFFF⟩ : FmtA).enc)) (rs)) fun d => let a0 : Who := (.thr 31 7);
      let a1 : Pred := ⟨0, false⟩; let a2 : FmtA := ⟨48, 49, 0, true, false, 0xFFFFFFFF⟩; let q := a1; let f := a2;
      match (a0 : Who) with | .thr engine thread => (match d.threadAt engine thread q 0x06 f.enc with | some (id, x) => [decide ((d.threadAt engine thread q 0x06 f.enc = some (id, x)) ∧ (isS f.rd = true))] | none => []) | _ => []) = true ∧
    (meets (lt (instWord ⟨0, false⟩ 0x7 ((⟨63, 48, 50, false, false, 0⟩ : FmtA).enc)) (rs)) fun d => let a0 : Who := (.thr 31 7);
      let a1 : Pred := ⟨0, false⟩; let a2 : FmtA := ⟨63, 48, 50, false, false, 0⟩; let q := a1; let f := a2;
      match (a0 : Who) with | .thr engine thread => (match d.threadAt engine thread q 0x07 f.enc with | some (id, x) => [decide ((d.threadAt engine thread q 0x07 f.enc = some (id, x)) ∧ (isS f.rd = true))] | none => []) | _ => []) = true ∧
    (meets (lt (instWord ⟨0, false⟩ 0x8 ((⟨48, 49, 0, true, false, 0xFFFFFFFF⟩ : FmtA).enc)) (rs)) fun d => let a0 : Who := (.thr 31 7);
      let a1 : Pred := ⟨0, false⟩; let a2 : FmtA := ⟨48, 49, 0, true, false, 0xFFFFFFFF⟩; let q := a1; let f := a2;
      match (a0 : Who) with | .thr engine thread => (match d.threadAt engine thread q 0x08 f.enc with | some (id, x) => [decide ((d.threadAt engine thread q 0x08 f.enc = some (id, x)) ∧ (isS f.rd = true))] | none => []) | _ => []) = true ∧
    (meets (lt (instWord ⟨0, false⟩ 0x9 ((⟨63, 48, 50, false, false, 0⟩ : FmtA).enc)) (rs)) fun d => let a0 : Who := (.thr 31 7);
      let a1 : Pred := ⟨0, false⟩; let a2 : FmtA := ⟨63, 48, 50, false, false, 0⟩; let q := a1; let f := a2;
      match (a0 : Who) with | .thr engine thread => (match d.threadAt engine thread q 0x09 f.enc with | some (id, x) => [decide ((d.threadAt engine thread q 0x09 f.enc = some (id, x)) ∧ (isS f.rd = true))] | none => []) | _ => []) = true ∧
    (meets (lt (instWord ⟨0, false⟩ 0x0C ((⟨63, 48, 0, false, false, 0⟩ : FmtA).enc)) (rs)) fun d => let a0 : Who := (.thr 31 7);
      let a1 : Pred := ⟨0, false⟩; let a2 : FmtA := ⟨63, 48, 0, false, false, 0⟩; let q := a1; let f := a2;
      match (a0 : Who) with | .thr engine thread => (match d.threadAt engine thread q 0x0C f.enc with | some (id, x) => [decide ((d.threadAt engine thread q 0x0C f.enc = some (id, x)) ∧ (isS f.rd = true) ∧ (f.x = false))] | none => []) | _ => []) = true ∧
    (meets (lt (instWord ⟨0, false⟩ 0x0D ((⟨48, 0, 0, false, true, 0xFFFFFFFF⟩ : FmtA).enc)) (rs)) fun d => let a0 : Who := (.thr 31 7);
      let a1 : Pred := ⟨0, false⟩; let a2 : FmtA := ⟨48, 0, 0, false, true, 0xFFFFFFFF⟩; let q := a1; let f := a2;
      match (a0 : Who) with | .thr engine thread => (match d.threadAt engine thread q 0x0D f.enc with | some (id, x) => [decide ((d.threadAt engine thread q 0x0D f.enc = some (id, x)) ∧ (isS f.rd = true) ∧ (f.x = true))] | none => []) | _ => []) = true ∧
    (meets (lt (instWord ⟨0, false⟩ 0x71 0) rs) fun d => let a0 : Who := (.thr 31 7); let a1 : Pred := ⟨0, false⟩;
      match (a0 : Who) with | .thr engine thread => (match d.threadAt engine thread a1 0x71 0 with | some (id, x) => if !(a1.pi == 0 && !a1.ps) then [] else [decide ((d.threadAt engine thread ⟨0, false⟩ 0x71 0 = some (id, x)) ∧ (x.at_ = .thread engine thread))] | none => []) | _ => []) = true := by
  decide +kernel

theorem test_witness_ThreadWaits :
    (meets (lt (instWord ⟨0, false⟩ 0xA0 ((⟨0, 0, 0, 0, 0x3FFFFFFF⟩ : FmtQ).enc)) (rs)) fun d => let a0 : Fin 32 := 31;
      let a1 : Fin 8 := 7; let a2 : Pred := ⟨0, false⟩; let a3 : FmtQ := ⟨0, 0, 0, 0, 0x3FFFFFFF⟩; let engine := a0;
      let thread := a1; let q := a2; let f := a3;
      match d.threadAt engine thread q 0xA0 f.enc with | some (id, x) => [decide ((d.threadAt engine thread q 0xA0 f.enc = some (id, x)) ∧ (f.kind = 0) ∧ (f.imm ≠ 0))] | none => []) = true ∧
    (meets (lt (instWord ⟨0, false⟩ 0xA0 ((⟨0, 0, 0, 0, 0⟩ : FmtQ).enc)) (rs)) fun d => let a0 : Fin 32 := 31;
      let a1 : Fin 8 := 7; let a2 : Pred := ⟨0, false⟩; let a3 : FmtQ := ⟨0, 0, 0, 0, 0⟩; let engine := a0; let thread := a1;
      let q := a2; let f := a3;
      match d.threadAt engine thread q 0xA0 f.enc with | some (id, x) => [decide ((d.threadAt engine thread q 0xA0 f.enc = some (id, x)) ∧ (f.kind = 0) ∧ (f.imm = 0))] | none => []) = true ∧
    (meets ((lt (instWord ⟨0, false⟩ 0xA0 ((⟨0, 0, 0, 1, 65535⟩ : FmtQ).enc)) (rs)) |> fun d => d.modScaf fun s => { s with signals := [65535] }) fun d => let a0 : Fin 32 := 31;
      let a1 : Fin 8 := 7; let a2 : Pred := ⟨0, false⟩; let a3 : FmtQ := ⟨0, 0, 0, 1, 65535⟩; let engine := a0; let thread := a1;
      let q := a2; let f := a3;
      match d.threadAt engine thread q 0xA0 f.enc with | some (id, x) => [decide ((d.threadAt engine thread q 0xA0 f.enc = some (id, x)) ∧ (f.kind = 1) ∧ (d.scaf.signals.contains (f.imm.toNat % 65536) = true))] | none => []) = true ∧
    (meets (lt (instWord ⟨0, false⟩ 0xA0 ((⟨0, 0, 0, 1, 65535⟩ : FmtQ).enc)) (rs)) fun d => let a0 : Fin 32 := 31;
      let a1 : Fin 8 := 7; let a2 : Pred := ⟨0, false⟩; let a3 : FmtQ := ⟨0, 0, 0, 1, 65535⟩; let engine := a0; let thread := a1;
      let q := a2; let f := a3;
      match d.threadAt engine thread q 0xA0 f.enc with | some (id, x) => [decide ((d.threadAt engine thread q 0xA0 f.enc = some (id, x)) ∧ (f.kind = 1) ∧ (d.scaf.signals.contains (f.imm.toNat % 65536) = false))] | none => []) = true ∧
    (meets (lt (instWord ⟨0, false⟩ 0xA0 ((⟨0, 0, 0, 2, 0⟩ : FmtQ).enc)) (rs)) fun d => let a0 : Fin 32 := 31;
      let a1 : Fin 8 := 7; let a2 : Pred := ⟨0, false⟩; let a3 : FmtQ := ⟨0, 0, 0, 2, 0⟩; let engine := a0; let thread := a1;
      let q := a2; let f := a3;
      match d.threadAt engine thread q 0xA0 f.enc with | some (id, x) => [decide ((d.threadAt engine thread q 0xA0 f.enc = some (id, x)) ∧ (f.kind = 2))] | none => []) = true ∧
    (meets (lt (instWord ⟨0, false⟩ 0xA1 ((⟨0, 0, 0, 0, 0⟩ : FmtQ).enc)) (rs)) fun d => let a0 : Fin 32 := 31;
      let a1 : Fin 8 := 7; let a2 : Pred := ⟨0, false⟩; let a3 : FmtQ := ⟨0, 0, 0, 0, 0⟩; let engine := a0; let thread := a1;
      let q := a2; let f := a3;
      match d.threadAt engine thread q 0xA1 f.enc with | some (id, x) => [decide ((d.threadAt engine thread q 0xA1 f.enc = some (id, x)))] | none => []) = true ∧
    (meets (lt (instWord ⟨0, false⟩ 0xAA ((⟨0, 0, 0, 0, 0⟩ : FmtQ).enc)) (rs)) fun d => let a0 : Fin 32 := 31;
      let a1 : Fin 8 := 7; let a2 : Pred := ⟨0, false⟩; let a3 : FmtQ := ⟨0, 0, 0, 0, 0⟩; let engine := a0; let thread := a1;
      let q := a2; let f := a3;
      match d.threadAt engine thread q 0xAA f.enc with | some (id, x) => [decide ((d.threadAt engine thread q 0xAA f.enc = some (id, x)) ∧ (f.kind = 0))] | none => []) = true ∧
    (meets (lt (instWord ⟨0, false⟩ 0xAA ((⟨0, 0, 0, 2, 65535⟩ : FmtQ).enc)) (rs)) fun d => let a0 : Fin 32 := 31;
      let a1 : Fin 8 := 7; let a2 : Pred := ⟨0, false⟩; let a3 : FmtQ := ⟨0, 0, 0, 2, 65535⟩; let engine := a0; let thread := a1;
      let q := a2; let f := a3;
      match d.threadAt engine thread q 0xAA f.enc with | some (id, x) => [decide ((d.threadAt engine thread q 0xAA f.enc = some (id, x)) ∧ (f.kind = 2) ∧ ((d.scaf.waiters.filter fun w => w.1 == f.imm.toNat % 65536) = []))] | none => []) = true ∧
    (meets ((lt (instWord ⟨0, false⟩ 0xAA ((⟨0, 0, 0, 2, 65535⟩ : FmtQ).enc)) (rs)) |> fun d => d.modScaf fun s => { s with waiters := [(65535, 3), (65534, 4), (65535, 0)] }) fun d => let a0 : Fin 32 := 31;
      let a1 : Fin 8 := 7; let a2 : Pred := ⟨0, false⟩; let a3 : FmtQ := ⟨0, 0, 0, 2, 65535⟩; let engine := a0; let thread := a1;
      let q := a2; let f := a3;
      match d.threadAt engine thread q 0xAA f.enc with | some (id, x) => [decide ((d.threadAt engine thread q 0xAA f.enc = some (id, x)) ∧ (f.kind = 2) ∧ ((d.scaf.waiters.filter fun w => w.1 == f.imm.toNat % 65536) ≠ []))] | none => []) = true ∧
    (meets ((lt (instWord ⟨0, false⟩ 0xAA ((⟨0, 0, 0, 1, 0⟩ : FmtQ).enc)) (rs)) |> fun d => d.setSram (pageBase 511 + 0x4040) [6]) fun d => let a0 : Fin 32 := 31;
      let a1 : Fin 8 := 7; let a2 : Pred := ⟨0, false⟩; let a3 : FmtQ := ⟨0, 0, 0, 1, 0⟩; let engine := a0; let thread := a1;
      let q := a2; let f := a3;
      match d.threadAt engine thread q 0xAA f.enc with | some (id, x) => [decide ((d.threadAt engine thread q 0xAA f.enc = some (id, x)) ∧ (f.kind = 1) ∧ ([1, 2, 3, 4, 5, 0x11].contains (leNat (d.sram (pageBase id + 0x4040) 1)) = false))] | none => []) = true ∧
    (meets ((lt (instWord ⟨0, false⟩ 0xAA ((⟨0, 0, 0, 1, 0⟩ : FmtQ).enc)) (rs)) |> fun d => d.setSram (pageBase 511 + 0x4040) ([0x11, 7, 0, 0] ++ bytesLE 4 127)) fun d => let a0 : Fin 32 := 31;
      let a1 : Fin 8 := 7; let a2 : Pred := ⟨0, false⟩; let a3 : FmtQ := ⟨0, 0, 0, 1, 0⟩; let engine := a0; let thread := a1;
      let q := a2; let f := a3;
      match d.threadAt engine thread q 0xAA f.enc with | some (id, x) => [decide ((d.threadAt engine thread q 0xAA f.enc = some (id, x)) ∧ (f.kind = 1) ∧ ([1, 2, 3, 4, 5, 0x11].contains (leNat (d.sram (pageBase id + 0x4040) 1)) = true) ∧ (leNat (d.sram (pageBase id + 0x4044) 4) < 128))] | none => []) = true ∧
    (meets ((lt (instWord ⟨0, false⟩ 0xAA ((⟨0, 0, 0, 1, 0⟩ : FmtQ).enc)) (rs)) |> fun d => ({ d with flow := dF.flow, regs := d.regs ++ (dF.regs.filter fun p => (NMap.get? d.regs p.1).isNone) } : Device).setSram (pageBase 511 + 0x4040) ([4, 0, 0, 0] ++ bytesLE 4 128 ++ bytesLE 8 (pageBase 511 + 0x40)) |> fun d => d.setSram (pageBase 511 + 0x40) img4) fun d => let a0 : Fin 32 := 31;
      let a1 : Fin 8 := 7; let a2 : Pred := ⟨0, false⟩; let a3 : FmtQ := ⟨0, 0, 0, 1, 0⟩; let engine := a0; let thread := a1;
      let q := a2; let f := a3;
      match d.threadAt engine thread q 0xAA f.enc with | some (id, x) => (let a := leNat (d.sram (pageBase id + 0x4048) 8); match d.homeOf (recId (d.memRead a 128)) with | some h => [decide ((d.threadAt engine thread q 0xAA f.enc = some (id, x)) ∧ (f.kind = 1) ∧ (d.sram (pageBase id + 0x4040) 2 = [4, 0]) ∧ (128 ≤ leNat (d.sram (pageBase id + 0x4044) 4)) ∧ (d.sram (pageBase id + 0x4050) 48 = List.replicate 48 0) ∧ (a = leNat (d.sram (pageBase id + 0x4048) 8)) ∧ (d.badAddr id false 4 a 128 = none) ∧ (d.badAddr id true 4 a 128 = none) ∧ (d.poisonedIn a 128 = none) ∧ (imageOk (d.memRead a 128) = true) ∧ (d.spaceEn (recId (d.memRead a 128)).space = true) ∧ (d.homeOf (recId (d.memRead a 128)) = some h) ∧ ((d.authCopy h).isSome = true))] | none => []) | none => []) = true := by
  decide +kernel

theorem test_witness_ScaffoldWork :
    (meets (wd 0x7F (2 ^ 31 + 15 * 2 ^ 24) (pu 0x7F)) fun d => let a0 : Fin 32 := 31; let pipe := a0;
      match d.voq a0 513 (voqCls 513 0) with | c :: rest => (match d.copy c with | some y => (match d.dispatchEntry (vecN y.m 7 % 256) with | some (l, a) => [decide ((d.voq pipe 513 (voqCls 513 0) = c :: rest) ∧ (d.copy c = some y) ∧ (d.dispatchEntry (vecN y.m 7 % 256) = some (l, a)) ∧ (vecN y.m 7 % 256 < 128) ∧ ((d.shed < 2 ∨ 12 ≤ l)) ∧ (d.workListed < 32768))] | none => []) | none => []) | [] => []) = true ∧
    (meets (pu 0xFF) fun d => let a0 : Fin 32 := 31; let pipe := a0;
      match d.voq a0 513 (voqCls 513 0) with | c :: rest => (match d.copy c with | some y => [decide ((d.voq pipe 513 (voqCls 513 0) = c :: rest) ∧ (d.copy c = some y) ∧ ((d.frame y.frame).isSome = true) ∧ (d.dispatchEntry (vecN y.m 7 % 256) = none ∨ 128 ≤ vecN y.m 7 % 256))] | none => []) | [] => []) = true ∧
    (meets ((wd 0x7F (2 ^ 31 + 11 * 2 ^ 24) (pu 0x7F)).setFld Off.pwrShedStatus 31 29 2) fun d => let a0 : Fin 32 := 31;
      let pipe := a0;
      match d.voq a0 513 (voqCls 513 0) with | c :: rest => (match d.copy c with | some y => (match d.dispatchEntry (vecN y.m 7 % 256) with | some (l, a) => [decide ((d.voq pipe 513 (voqCls 513 0) = c :: rest) ∧ (d.copy c = some y) ∧ ((d.frame y.frame).isSome = true) ∧ (d.dispatchEntry (vecN y.m 7 % 256) = some (l, a)) ∧ (vecN y.m 7 % 256 < 128) ∧ (2 ≤ d.shed) ∧ (l < 12))] | none => []) | none => []) | [] => []) = true ∧
    (meets (dp (.task 0)) fun d => let a0 : Fin 32 := 31; let a1 : Fin 8 := 7; let engine := a0; let thread := a1;
      match d.nextLevel engine (fun _ => true) with | some l => (match d.readyList l with | ⟨.task id, since⟩ :: rest => [decide ((d.scafRuns = true) ∧ (d.domainOk 7 engine = true) ∧ (d.scaf.freed.contains (thrKey engine thread) = true) ∧ (((d.scaf.freed.find? fun k => d.domainOk 7 (k / 8)) = some (thrKey engine thread) ∨ (d.task id).any (fun y => y.lockEngine.isSome) = true)) ∧ ((d.nextLevel engine fun _ => true) = some l) ∧ (d.readyList l = ⟨.task id, since⟩ :: rest))] | _ => []) | none => []) = true ∧
    (meets (wd 0x8F (2 ^ 31 + 11 * 2 ^ 24 + 0x91) (dp (.tick 15))) fun d => let a0 : Fin 32 := 31; let a1 : Fin 8 := 7;
      let engine := a0; let thread := a1;
      match d.nextLevel engine (fun _ => true) with | some l => (match d.readyList l with | ⟨.tick n, since⟩ :: rest => (match d.freePage l, d.dispatchEntry (128 + n) with | some id, some (k, a) => [decide ((d.scafRuns = true) ∧ (d.domainOk 7 engine = true) ∧ ((d.scaf.freed.find? fun k => d.domainOk 7 (k / 8)) = some (thrKey engine thread)) ∧ ((d.nextLevel engine fun _ => true) = some l) ∧ (d.readyList l = ⟨.tick n, since⟩ :: rest) ∧ (d.freePage l = some id) ∧ (d.dispatchEntry (128 + n) = some (k, a)))] | _, _ => []) | _ => []) | none => []) = true ∧
    (meets (wd 0x7F (2 ^ 31 + 11 * 2 ^ 24 + 0x91) (dp (.punt 5 0x7F))) fun d => let a0 : Fin 32 := 31; let a1 : Fin 8 := 7;
      let engine := a0; let thread := a1;
      match d.nextLevel engine (fun _ => true) with | some l => (match d.readyList l with | ⟨.punt c n, since⟩ :: rest => (match d.copy c, d.freePage l, d.dispatchEntry n with | some y, some id, some (k, a) => (match d.frame y.frame with | some fr => [decide ((d.scafRuns = true) ∧ (d.domainOk 7 engine = true) ∧ ((d.scaf.freed.find? fun k => d.domainOk 7 (k / 8)) = some (thrKey engine thread)) ∧ ((d.nextLevel engine fun _ => true) = some l) ∧ (d.readyList l = ⟨.punt c n, since⟩ :: rest) ∧ (d.copy c = some y) ∧ (d.frame y.frame = some fr) ∧ (fr.bad = false) ∧ (d.dispatchEntry n = some (k, a)) ∧ (d.freePage l = some id))] | none => []) | _, _, _ => []) | _ => []) | none => []) = true ∧
    (meets ({ pu 0x7F with scaf := { dU.scaf with tasks := [(511, { tkr 11 with at_ := .copying 31 7, frame := some 5, frameless := false })], threads := [(255, ⟨.pulling, some 511, 7, false, false, false⟩)] } }) fun d => let a0 : Fin 32 := 31;
      let a1 : Fin 8 := 7; let engine := a0; let thread := a1;
      match (d.thr (thrKey engine thread)).task with | some id => (match d.task id with | some x => (match x.frame with | some c => (match d.copy c with | some y => (match d.frame y.frame with | some fr => [decide (((d.thr (thrKey engine thread)).state = .pulling) ∧ ((d.thr (thrKey engine thread)).task = some id) ∧ (d.task id = some x) ∧ (x.frame = some c) ∧ (d.copy c = some y) ∧ (d.frame y.frame = some fr) ∧ (fr.bad = false) ∧ (fr.done = true))] | none => []) | none => []) | none => []) | none => []) | none => []) = true ∧
    (meets ({ pu 0x7F with scaf := { dU.scaf with tasks := [(511, { tkr 11 with at_ := .copying 31 7, frame := some 5, frameless := false })], threads := [(255, ⟨.pulling, some 511, 7, false, false, false⟩)] } } |> fun d => d.modBuf fun b => { b with frames := b.frames.map fun p => (p.1, { p.2 with bad := true }) }) fun d => let a0 : Fin 32 := 31;
      let a1 : Fin 8 := 7; let engine := a0; let thread := a1;
      match (d.thr (thrKey engine thread)).task with | some id => (match d.task id with | some x => (match x.frame with | some c => (match d.copy c with | some y => [decide (((d.thr (thrKey engine thread)).state = .pulling) ∧ ((d.thr (thrKey engine thread)).task = some id) ∧ (d.task id = some x) ∧ (x.frame = some c) ∧ (d.copy c = some y) ∧ ((d.frame y.frame).any (fun fr => fr.bad) = true))] | none => []) | none => []) | none => []) | none => []) = true ∧
    (meets ((wk 11).modScaf fun s => { s with ready := [(12, [⟨.task 1, 0⟩])], freed := [7, 253], threads := [(254, ⟨.running, some 0, 7, false, false, false⟩)] }) fun d => match d.scaf.freed.find? (fun k => d.domainOk 7 (k / 8) && (d.nextLevel (k / 8) Device.isPush).isSome) with | some k => (match d.nextLevel (k / 8) Device.isPush with | some l => (match d.readyList l with | ⟨.task id, since⟩ :: rest => [decide ((d.scafRuns = true) ∧ (d.scaf.freed.find? (fun k => d.domainOk 7 (k / 8) && (d.nextLevel (k / 8) Device.isPush).isSome) = some k) ∧ (d.nextLevel (k / 8) Device.isPush = some l) ∧ (d.readyList l = ⟨.task id, since⟩ :: rest) ∧ ((d.task id).isSome = true))] | _ => []) | none => []) | none => []) = true ∧
    (meets ((wk 11).modScaf fun s => { s with ready := [(12, [⟨.task 1, 0⟩])], freed := [], threads := [(254, ⟨.running, some 0, 7, false, false, false⟩)] }) fun d => match d.victim with | some k => [decide ((d.scafRuns = true) ∧ ((d.scaf.threads.filter fun p => p.2.interrupt && !p.2.spent).length < (d.scaf.ready.filter fun p => Device.isPush p.1).foldl (fun n p => n + p.2.length) 0) ∧ (d.scaf.freed.find? (fun k => d.domainOk 7 (k / 8) && (d.nextLevel (k / 8) Device.isPush).isSome) = none) ∧ (d.victim = some k))] | none => []) = true ∧
    (meets ((wk 11).modScaf fun s => { s with ready := [(12, [⟨.task 1, 0⟩])] }) fun d => let a0 : Fin 32 := 31;
      let a1 : Fin 8 := 7; let engine := a0; let thread := a1;
      match (d.thr (thrKey engine thread)).task, d.nextLevel engine Device.isPush with | some id, some l => (match d.task id, d.readyList l with | some x, ⟨.task j, since⟩ :: rest => [decide (((d.thr (thrKey engine thread)).state = .running) ∧ ((d.thr (thrKey engine thread)).interrupt = true) ∧ ((d.thr (thrKey engine thread)).bound = true) ∧ ((d.thr (thrKey engine thread)).spent = false) ∧ ((d.thr (thrKey engine thread)).task = some id) ∧ (d.task id = some x) ∧ (x.level < 12) ∧ (d.nextLevel engine Device.isPush = some l) ∧ (d.readyList l = ⟨.task j, since⟩ :: rest) ∧ ((d.task j).isSome = true))] | _, _ => []) | _, _ => []) = true ∧
    (meets ((wk 11).modScaf fun s => { s with ready := [(12, [⟨.tick 3, 0⟩])] }) fun d => let a0 : Fin 32 := 31;
      let a1 : Fin 8 := 7; let engine := a0; let thread := a1;
      match (d.thr (thrKey engine thread)).task with | some id => (match d.task id with | some x => [decide (((d.thr (thrKey engine thread)).state = .running) ∧ ((d.thr (thrKey engine thread)).interrupt = true) ∧ ((d.thr (thrKey engine thread)).bound = true) ∧ ((d.thr (thrKey engine thread)).spent = false) ∧ ((d.thr (thrKey engine thread)).task = some id) ∧ (d.task id = some x) ∧ (x.level < 12) ∧ ((d.nextLevel engine Device.isPush).isSome = true) ∧ ((d.scaf.ready.any fun p => p.2.any fun r => r.item == .task id) = false))] | none => []) | none => []) = true ∧
    (meets (wk 0) fun d => let a0 : Fin 32 := 31; let a1 : Fin 8 := 7; let engine := a0; let thread := a1;
      match (d.thr (thrKey engine thread)).task with | some id => (match d.task id with | some x => [decide (((d.thr (thrKey engine thread)).state = .running) ∧ ((d.thr (thrKey engine thread)).interrupt = true) ∧ ((d.thr (thrKey engine thread)).bound = true) ∧ ((d.thr (thrKey engine thread)).spent = false) ∧ ((d.thr (thrKey engine thread)).task = some id) ∧ (d.task id = some x) ∧ (x.level < 12) ∧ (d.nextLevel engine Device.isPush = none))] | none => []) | none => []) = true ∧
    (meets ({ dT with scaf := { dU.scaf with tasks := [(0, tkr 11)], threads := [(255, ⟨.saving, some 0, 7, false, false, false⟩)] } }) fun d => let a0 : Fin 32 := 31;
      let a1 : Fin 8 := 7; let engine := a0; let thread := a1; [decide (((d.thr (thrKey engine thread)).state = .saving))]) = true ∧
      
    (meets (at_ (((wk 11).modScaf fun s => { s with ready := [(10, [⟨.task 1, 1000000⟩, ⟨.tick 3, 0⟩])] }).setFld Off.scafPullAge 15 0 1) 1000000) fun d => let a0 : Fin 16 := 10;
      let level := a0;
      let i := (d.readyList a0).findIdx (fun x => decide (x.since + 1000000 * d.fld Off.scafPullAge 15 0 ≤ d.transit));
      match (d.readyList a0)[i]? with | some x => [decide ((d.fld Off.scafPullAge 15 0 ≠ 0) ∧ ((level : Nat) < 11) ∧ (i = (d.readyList level).findIdx (fun x => decide (x.since + 1000000 * d.fld Off.scafPullAge 15 0 ≤ d.transit))) ∧ ((d.readyList level)[i]? = some x))] | none => []) = true := by
  decide +kernel

theorem test_witness_ScaffoldTime :
    (meets (at_ ((wk 11).modScaf fun s => { s with timers := [⟨99, 1⟩], tasks := [(1, { tkr 15 with at_ := .delay })] }) 99) fun d => d.scaf.timers.flatMap fun m => match d.task m.task with | some x => [decide ((m ∈ d.scaf.timers) ∧ (m.due ≤ d.transit) ∧ (d.task m.task = some x))] | none => []) = true ∧
    (meets (at_ ((wd 0x8F (2 ^ 31 + 15 * 2 ^ 24 + 0x91) dT).setReg (Off.scafTick 15) (2 ^ 31 + 0xFFFFFF)) 16777215000) fun d => let a0 : Fin 16 := 15;
      let n := a0;
      match d.dispatchEntry (128 + a0.val) with | some (l, a) => [decide ((d.flag (Off.scafTick n) 31 = true) ∧ (NMap.getD d.scaf.tickLast n 0 + 1000 * max 1 (d.fld (Off.scafTick n) 23 0) ≤ d.transit) ∧ ((d.scaf.tasks.any fun p => p.2.disp == 128 + n.val) = false) ∧ ((d.scaf.ready.any fun p => p.2.any fun i => i.item == .tick n) = false) ∧ (d.dispatchEntry (128 + n.val) = some (l, a)) ∧ (d.workListed < 32768))] | none => []) = true ∧
    (meets (at_ (((wk 11).modScaf fun s => { s with tasks := [(1, { tkr 15 with disp := 143 })] }).setReg (Off.scafTick 15) (2 ^ 31)) 1000) fun d => let a0 : Fin 16 := 15;
      let n := a0; [decide ((d.flag (Off.scafTick n) 31 = true) ∧
      (NMap.getD d.scaf.tickLast n 0 + 1000 * max 1 (d.fld (Off.scafTick n) 23 0) ≤ d.transit) ∧
      ((d.scaf.tasks.any fun p => p.2.disp == 128 + n.val) = true ∨ (d.scaf.ready.any fun p => p.2.any fun i => i.item == .tick n) = true))]) = true ∧
      
    (meets (at_ ((wk 11).modScaf fun s => { s with tasks := [(0, { tkr 11 with at_ := .thread 31 7, budget := 1, ran := 999, since := 5 })], threads := [(255, ⟨.running, some 0, 7, true, false, false⟩)] }) 6) fun d => let a0 : Fin 32 := 31;
      let a1 : Fin 8 := 7; let engine := a0; let thread := a1; [decide ((d.budgetSpent engine thread = true) ∧
      ((d.thr (thrKey engine thread)).bound = false))]) = true ∧ 
    (meets (at_ ((wk 11).modScaf fun s => { s with tasks := [(0, { tkr 11 with at_ := .thread 31 7, budget := 1, ran := 999, since := 5 })], threads := [(255, ⟨.running, some 0, 7, true, true, true⟩)] }) 6) fun d => let a0 : Fin 32 := 31;
      let a1 : Fin 8 := 7; let engine := a0; let thread := a1;
      match (d.thr (thrKey engine thread)).task with | some id => (match d.task id with | some x => [decide ((d.budgetSpent engine thread = true) ∧ ((d.thr (thrKey engine thread)).bound = true) ∧ ((d.thr (thrKey engine thread)).task = some id) ∧ (d.task id = some x))] | none => []) | none => []) = true ∧
    (meets (at_ ((dU.setFld Off.pwrStatus 26 24 1).setReg Off.pwrTrim (2 ^ 30)) 1000) fun d => let a0 : Fin 32 := 31;
      let engine := a0; [decide ((d.pwrState = 1) ∧ (d.flag Off.pwrTrim 30 = true) ∧
      ((d.scaf.threads.any fun p => p.1 / 8 == engine.val) = false) ∧
      (8 ≤ ((List.range 32).filter fun k => k != engine.val && (d.dom 7 k).state != .stopped).length) ∧
      (d.domainOk 7 engine = true) ∧
      (NMap.getD d.scaf.idleFrom engine 0 + 1000 * max 1 (d.fld Off.pwrTrim 15 0) ≤ d.transit))]) = true := by
  decide +kernel

theorem test_witness_FlowUpkeep :
    (meets (at_ ((dF.setReg (Off.flowSpaceAge 2) 1).setFld Off.pwrShedStatus 31 29 1) (2 ^ 20)) fun d => let a0 : Nat := hd;
      let handle := a0;
      match d.authCopy a0 with | some b => [decide ((handle < 2 ^ 26) ∧ (d.skimAt handle = none) ∧ (d.queued handle = none) ∧ (d.runOf handle = []) ∧ (NMap.get? d.flow.render handle = some b) ∧ ((recPinned b || recNoage b) = false) ∧ (min 7967232 (d.fld (Off.flowSpaceAge (recId b).space) 22 0) ≠ 0) ∧ (recStale b = false) ∧ (min 7967232 (d.fld (Off.flowSpaceAge (recId b).space) 22 0) ≤ (d.ageTick + 2 ^ 24 - recStamp b) % 2 ^ 24) ∧ (1 ≤ d.shed))] | _ => []) = true ∧
    (meets (at_ (((rn (updsApply img4 [.mask 48 255 8])).setReg (Off.flowSpaceAge 2) 0x7FFFFF).setReg (Off.flowSpaceAgeint 2) 1) (2 ^ 20)) fun d => let a0 : Nat := hd;
      let handle := a0;
      match d.authCopy a0 with | some b => [decide ((handle < 2 ^ 26) ∧ (d.authCopy handle = some b) ∧ ((recPinned b || recNoage b) = false) ∧ (min 7967232 (d.fld (Off.flowSpaceAge (recId b).space) 22 0) ≠ 0) ∧ (recStale b = true) ∧ (max 1 (d.fld (Off.flowSpaceAgeint (recId b).space) 14 0) ≤ (d.ageTick + 2 ^ 16 - fieldLE b 70 2) % 2 ^ 16) ∧ (d.flag (Off.flowSpaceCtl (recId b).space) 23 = false))] | _ => []) = true ∧
    (meets (rn (updsApply img4 [.put 51 [15]])) fun d => let a0 : Nat := hd; let handle := a0;
      match d.authCopy a0 with | some b => [decide ((handle < 2 ^ 26) ∧ (d.skimAt handle = none) ∧ (d.queued handle = none) ∧ (d.runOf handle = []) ∧ (NMap.get? d.flow.render handle = some b) ∧ (d.fld (Off.flowSpaceAge (recId b).space) 22 0 = 0) ∧ (d.shed = 0) ∧ (d.pwrState ≠ 2) ∧ (recHeat b ≠ 0))] | _ => []) = true ∧
    (meets (((sk img4).setReg (Off.flowSpaceAge 2) 0).setReg Off.flowDemote 0) fun d => let a0 : Nat := hd; let handle := a0;
      match d.authCopy a0 with | some b => (match d.skimAt a0 with | some p => (match NMap.get? d.flow.skim p with | some c => [decide ((handle < 2 ^ 26) ∧ (d.authCopy handle = some b) ∧ (d.fld (Off.flowSpaceAge (recId b).space) 22 0 = 0) ∧ (d.shed = 0) ∧ (d.pwrState ≠ 2) ∧ (recHeat b = 0) ∧ (d.skimAt handle = some p) ∧ (NMap.get? d.flow.skim p = some c) ∧ (d.displaceable p = true) ∧ (d.fld Off.flowDemote 15 0 ≤ d.copyAge p) ∧ (d.wbqRoom = true))] | none => []) | none => []) | _ => []) = true ∧
    (meets (at_ (rn (updsApply img4 [.put 51 [15]])) (2 ^ 20)) fun d => let a0 : Nat := 5; let handle := a0;
      match d.locate (128 * a0) with | some l => [decide ((2 ^ 26 ≤ handle ∨ d.authCopy handle = none) ∧ (d.shed = 0) ∧ (d.pwrState ≠ 2) ∧ (d.locate (128 * handle) = some l) ∧ (d.chanFailed l.chan = false))] | _ => []) = true ∧
    (meets (dF) fun d => [decide ((d.shed = 0) ∧ (d.pwrState ≠ 2))]) = true ∧
    (meets (sk (updsApply img4 [.mask 48 255 16])) fun d => (d.flow.skim.flatMap fun pc => let p := pc.1; let c := pc.2;
      [decide ((d.pwrState ≠ 2) ∧ (NMap.sortedFrom 0 d.flow.skim = true) ∧ (NMap.get? d.flow.skim p = some c) ∧
      ((d.flow.skim.all fun y => y.1 == p || y.2.handle != c.handle) = true) ∧ (recDirty c.bytes = true))])) = true ∧ 
    (meets (dF.modFlow fun w => { w with wbq := [(hd, img4)] }) fun d => let a0 : Nat := hd; let handle := a0;
      match d.queued a0 with | some b => [decide ((d.queued handle = some b))] | _ => []) = true ∧
    (meets ((dU.setReg Off.flowTune (2 * 2 ^ 28)).modFlow fun w => { w with tuning := ⟨1, 1, 8, 1536, 0⟩, moved := 1536000001 }) fun d => let u := d.flow.tuning;
      [decide ((d.flow.tuning = u) ∧ (d.shed = 0) ∧ (u.budget * 1000000 * u.interval < d.flow.moved) ∧
      (u.tmin < d.threshT))]) = true ∧ 
    (meets ((dU.setReg Off.flowTune (2 ^ 20)).modFlow fun w => { w with evicted := 2 ^ 32 }) fun d => let u := d.flow.tuning;
      [decide ((d.flow.tuning = u) ∧ (d.shed = 0) ∧ (4 * d.flow.moved < u.budget * 1000000 * u.interval * 3) ∧
      (u.evictMax * u.interval < d.flow.evicted * 1000) ∧ (d.threshT < u.tmax) ∧ (u.tmax ≤ 15))]) = true ∧ 
    (meets (dU.modFlow fun w => { w with absent := [(⟨15, [1, 2, 3, 4]⟩, 0)] }) fun _ => [decide (True)]) = true ∧
    (meets (dU.modFlow fun w => { w with learn := [(⟨15, [1, 2, 3, 4]⟩, 0)] }) fun _ => [decide (True)]) = true := by
  decide +kernel

theorem test_witness_RenderChannels :
    (meets (rc ((hp dU).setFlag (Off.rstoreChStatus 0) 0 true) 0 { RChan.reset with queue := [rr 0 3] }) fun d => let a0 : Fin 32 := 0;
      let a1 : Fin 2 := 0; let a2 : List Nat := [1]; let channel := a0; let pc := a1; let busy := a2;
      match d.pickReq a0 a1 a2 with | some r => [decide ((d.flag (Off.rstoreChStatus channel) 0 = true) ∧ (d.domainOk 6 channel = true) ∧ ((d.rchan channel).waiting = []) ∧ (d.pickReq channel pc busy = some r))] | _ => []) = true ∧
    (meets (rc (hp dU) 31 { RChan.reset with issued := [rr 0 3] }) fun d => let a0 : Fin 32 := 31; let a1 : Nat := 3;
      let a3 : List Nat := []; let channel := a0; let id := a1; let poisoned := a3;
      match (d.rchan a0).issued.find? (fun r => r.id == a1) with | some r => [decide (((d.rchan channel).issued.find? (fun r => r.id == id) = some r) ∧ (poisoned = []))] | _ => []) = true ∧
    (meets (rc ((hp dU).setReg (Off.rstoreRegion 0) 0) 31 { RChan.reset with issued := [rr 0 3] }) fun d => let a0 : Fin 32 := 31;
      let a1 : Nat := 3; let a3 : List Nat := [1]; let channel := a0; let id := a1; let poisoned := a3;
      match (d.rchan a0).issued.find? (fun r => r.id == a1), (a3 : List Nat) with | some r, [k] => [decide (((d.rchan channel).issued.find? (fun r => r.id == id) = some r) ∧ (poisoned = [k]) ∧ (r.write = false) ∧ (k < 2 * r.bursts) ∧ ((d.regionOf (r.addr + 16 * k)).map (fun n => d.fld (Off.rstoreRegion n) 30 28) ≠ some 0))] | _, _ => []) = true ∧
    (meets (rc (hp dU) 31 { RChan.reset with queue := [rr 0 0], postponed := [(0, 7)] }) fun d => let a0 : Fin 32 := 31;
      let a1 : BankRefresh := ⟨0, false⟩; let channel := a0; let bank := a1; [decide ((d.bankWaited channel bank.bank = true) ∧
      (NMap.getD (d.rchan channel).postponed bank.bank 0 < 8))]) = true ∧ 
    (meets (rc (hp dU) 31 { RChan.reset with queue := [rr 0 0], postponed := [(0, 8)] }) fun d => let a0 : Fin 32 := 31;
      let a1 : BankRefresh := ⟨0, false⟩; let channel := a0; let bank := a1;
      [decide ((d.bankWaited channel bank.bank = false ∨ 8 ≤ NMap.getD (d.rchan channel).postponed bank.bank 0))]) = true ∧ 
    (meets (rc (hp dU) 31 { RChan.reset with ues := [(0, 65536)] }) fun d => let a0 : Fin 32 := 31; let channel := a0;
      [decide ((d.chanFailed channel = false) ∧ (d.fld Off.rstoreUeLimit 15 0 < ((d.rchan channel).ues.map (·.2)).sum))]) = true ∧ 
    (meets (at_ (dU.setFld Off.pwrStatus 26 24 2) 100000) fun d => let a0 : Fin 2 := 1; let stack := a0;
      [decide ((d.pwrState = 2) ∧ (NMap.getD d.rstore.lastReq stack 0 + 100000 ≤ d.transit))]) = true := by
  decide +kernel

theorem test_witness_SeatPresence :
    (meets (dC) fun d => let a0 : Fin 2 := 0; let seat := a0; [decide ((d.present seat = true))]) = true ∧
    (meets ((at_ dU 1000000).modSeat 1 fun x => { x with lastKeep := some 0 }) fun d => let a0 : Fin 2 := 1; let a1 : Fin 4 := 1;
      let seat := a0; let link := a1; [decide (((d.pwr.phase = .tiles ∨ d.pwr.phase = .started)) ∧ (d.present seat = false) ∧
      (link.val ≠ 0) ∧ (d.keepaliveOk seat = true) ∧ (d.domainOk 9 seat = true))]) = true ∧ 
    (meets (at_ (((dU.setReg (Off.seatNrCoalesce 1 7) 1).setReg (Off.seatNrHead 1 7) 1).modSeat 1 fun s => { s with nr := [(7, ⟨true, false, 0, 1, 0⟩)] }) 1000) fun d => let a0 : Fin 2 := 1;
      let a1 : Fin 8 := 7; let seat := a0; let ring := a1; [decide ((d.fld (Off.seatNrCoalesce seat ring) 15 0 ≠ 0) ∧
      (((d.seat seat).nring ring).since ≠ 0) ∧
      (((d.seat seat).nring ring).first + 1000 * d.fld (Off.seatNrCoalesce seat ring) 15 0 ≤ d.transit) ∧
      (d.fld (Off.seatNrHead seat ring) 15 0 ≠ d.fld (Off.seatNrTail seat ring) 15 0))]) = true ∧ 
    (meets (txOf done0 { cp0 with port := 515, cls := 0, pipe := 31 }) fun d => let a0 : Fin 2 := 1; let a1 : Fin 32 := 31;
      let seat := a0; let pipe := a1;
      match d.voq a1 (514 + (a0 : Fin 2).val) (voqCls (514 + (a0 : Fin 2).val) 0) with | c :: cs => (match d.copy c with | some y => (match d.frame y.frame with | some fr => [decide ((d.voq pipe (514 + seat.val) (voqCls (514 + seat.val) 0) = c :: cs) ∧ (d.copy c = some y) ∧ (d.frame y.frame = some fr) ∧ (fr.bad = true ∨ fr.done = true))] | none => []) | none => []) | [] => []) = true ∧
    (meets ((at_ (dU.setReg Off.seatIsland (2 ^ 31)) 1000000000).modCoats fun c => { c with pending := some ⟨Coat.blank, 5, none, none, [], false⟩ }) fun d => [decide ((d.islandDue = true) ∧
      (d.coats.pending.isSome = true))]) = true ∧ 
    (meets (at_ (dU.setReg Off.seatIsland (2 ^ 31)) 1000000000) fun d => [decide ((d.islandDue = true) ∧
      (d.swatchValid 3 = false))]) = true ∧ 
    (meets ({ at_ (dU.setReg Off.hawkCtl 1) 1000 with hawk := { dU.hawk with slots := [⟨467, 0x46, some ⟨467, 0x46, 3, 255, 0, 1, 2, 0⟩, some 0⟩] } }) fun d => let a0 : Nat := 467;
      let a1 : Nat := 0x46; let src := a0; let code := a1;
      match d.slot? a0 a1 with | some ⟨a, b, some ev, some x⟩ => [decide ((d.slot? src code = some ⟨a, b, some ev, some x⟩) ∧ (x + 1000 * d.fld Off.hawkCtl 15 0 ≤ d.transit))] | _ => []) = true := by
  decide +kernel

theorem test_witness_FaultsAndStops :
    (meets (rxOf { fr0 with chain := [655359] }) fun d => let a0 : UeWhere := (.cell 0 655359);
      match (a0 : UeWhere) with | .cell frame cell => [decide ((((d.frame frame).any fun y => y.chain.contains cell || y.asideCell == some cell) = true))] | _ => []) = true ∧
    (meets (sk img4) fun d => let a0 : UeWhere := (.skim ((key4.skimPlaces).headD 0));
      match (a0 : UeWhere) with | .skim place => (match NMap.get? d.flow.skim place with | some c => (match NMap.get? d.flow.render c.handle with | some b => [decide ((NMap.get? d.flow.skim place = some c) ∧ ((d.copyNow place).any recDirty = false) ∧ (NMap.get? d.flow.render c.handle = some b))] | none => []) | none => []) | _ => []) = true ∧
    (meets (sk (updsApply img4 [.mask 48 255 16])) fun d => let a0 : UeWhere := (.skim ((key4.skimPlaces).headD 0));
      match (a0 : UeWhere) with | .skim place => (match NMap.get? d.flow.skim place with | some c => [decide ((NMap.get? d.flow.skim place = some c) ∧ ((d.copyNow place).any recDirty = true))] | none => []) | _ => []) = true ∧
    (meets (dCoat) fun d => let a0 : UeWhere := (.table 5 31 (.cell 0 0));
      match (a0 : UeWhere) with | .table num inst word => [decide ((d.coats.damaged.contains (num, inst, word) = false))] | _ => []) = true ∧
    (meets ({ dCoat with quotes := [(9, q0)] }) fun d => let a0 : UeWhere := (.policer 9);
      match (a0 : UeWhere) with | .policer qid => [decide (((d.quote qid).isSome = true))] | _ => []) = true ∧
    (meets (lt 0 rs) fun d => let a0 : UeWhere := (.scaffold 31 7 0x1400000);
      match (a0 : UeWhere) with | .scaffold engine thread addr => (match (d.thr (thrKey engine thread)).task with | some id => [decide (((d.thr (thrKey engine thread)).state = .running) ∧ ((d.thr (thrKey engine thread)).task = some id))] | none => []) | _ => []) = true ∧
    (meets (dO) fun d => let a0 : Nat := 1; let a1 : Nat := 511; let a3 : Bool := true; let kind := a0; let inst := a1;
      let transit := a3; [decide ((d.fault.stopping = false) ∧ (inst < domCount kind) ∧ (kind ≠ 0xC) ∧
      ((kind = 0xB → transit = false)) ∧ ((d.dom kind inst).state = .running) ∧ (d.recovering < 16) ∧
      (d.fld Off.faultRepeat 7 0 = 0 ∨ d.restartsNow kind inst < d.fld Off.faultRepeat 7 0))]) = true ∧ 
    (meets (dm ((List.range 16).map fun i => (domKey 1 i, { Domain.reset with state := .restarting }))) fun d => let a0 : Nat := 1;
      let a1 : Nat := 511; let a3 : Bool := true; let kind := a0; let inst := a1; let transit := a3;
      [decide ((d.fault.stopping = false) ∧ (inst < domCount kind) ∧ (kind ≠ 0xC) ∧ ((kind = 0xB → transit = false)) ∧
      ((d.dom kind inst).state = .running) ∧ (16 ≤ d.recovering) ∧
      (d.fld Off.faultRepeat 7 0 = 0 ∨ d.restartsNow kind inst < d.fld Off.faultRepeat 7 0))]) = true ∧ 
    (meets (dO) fun d => let a0 : Nat := 0xB; let a1 : Nat := 0; let a3 : Bool := true; let kind := a0; let inst := a1;
      let transit := a3; [decide ((d.fault.stopping = false) ∧ (inst < domCount kind) ∧ ((d.dom kind inst).state ≠ .failed) ∧
      ((d.dom kind inst).state ≠ .stopped) ∧ ((kind = 0xC ∨ kind = 0xB ∧
      transit = true ∨ (d.dom kind inst).state ≠ .running ∨ (d.fld Off.faultRepeat 7 0 ≠ 0 ∧
      d.fld Off.faultRepeat 7 0 ≤ d.restartsNow kind inst))))]) = true ∧ 
    (meets (dm [(domKey 2 31, { Domain.reset with state := .restarting })]) fun d => let a0 : Nat := 2; let a1 : Nat := 31;
      let kind := a0; let inst := a1; [decide ((d.fault.stopping = false) ∧ ((d.dom kind inst).state = .restarting) ∧
      (d.fault.waiting = []))]) = true ∧ 
    (meets ({ dO with fault := { dO.fault with stopping := true } }) fun d => [decide ((d.fault.stopping = true) ∧
      (d.pwr.stopUntil = none))]) = true ∧ 
    (meets (dO.modPwr fun p => { p with stopUntil := some 0 }) fun d => match d.pwr.stopUntil with | some x => [decide ((d.pwr.stopUntil = some x) ∧ (x ≤ d.transit) ∧ (d.fld Off.faultCtl 31 28 = 0 ∨ d.stopsNow < d.fld Off.faultCtl 31 28))] | _ => []) = true ∧
    (meets (({ dO with fault := { dO.fault with stops := [0] } }.modPwr fun p => { p with stopUntil := some 0 }).setReg Off.faultCtl (2 ^ 28)) fun d => match d.pwr.stopUntil with | some x => [decide ((d.pwr.stopUntil = some x) ∧ (x ≤ d.transit) ∧ (d.fld Off.faultCtl 31 28 ≠ 0) ∧ (d.fld Off.faultCtl 31 28 ≤ d.stopsNow))] | _ => []) = true := by
  decide +kernel

theorem test_witness_PowerStates :
    (meets (tr 1 3 id) fun d => match d.pwr.running with | some x => [decide ((d.pwr.running = some x) ∧ (x.req.state < 2) ∧ ((x.old < 2 ∨ d.pwr.alive = true)) ∧ (d.pwr.phase ≠ .asleep))] | _ => []) = true ∧
    (meets (tr 2 0 fun p => { p with portsDown := true }) fun d => match d.pwr.running with | some x => [decide ((d.pwr.running = some x) ∧ (x.req.state = 2) ∧ (x.old ≠ 3) ∧ (d.pwr.portsDown = true) ∧ (d.pwr.phase ≠ .asleep))] | _ => []) = true ∧
    (meets (tr 2 3 fun p => { p with held := some ⟨4, 3, none⟩ }) fun d => match d.pwr.running with | some x => [decide ((d.pwr.running = some x) ∧ (x.req.state = 2) ∧ (x.old = 3) ∧ (d.pwr.phase = .started))] | _ => []) = true ∧
    (meets (tr 3 0 fun p => { p with portsDown := true }) fun d => match d.pwr.running with | some x => [decide ((d.pwr.running = some x) ∧ (x.req.state = 3) ∧ (d.pwr.portsDown = true) ∧ (d.pwr.held = none) ∧ (d.pwr.latched = 0))] | _ => []) = true ∧
    (meets (tr 3 0 fun p => { p with portsDown := true, latched := 16 }) fun d => match d.pwr.running with | some x => [decide ((d.pwr.running = some x) ∧ (x.req.state = 3) ∧ (d.pwr.portsDown = true) ∧ (d.pwr.latched ≠ 0))] | _ => []) = true ∧
    (meets (tr 4 0 fun p => { p with portsDown := true }) fun d => match d.pwr.running with | some x => [decide ((d.pwr.running = some x) ∧ (4 ≤ x.req.state) ∧ (d.pwr.portsDown = true))] | _ => []) = true ∧
    (meets (at_ (tr 2 0 fun p => { p with draining := true }) 1000) fun d => match d.pwr.running with | some x => [decide ((d.pwr.running = some x) ∧ (d.pwr.draining = true) ∧ ((d.buf.frames.isEmpty = true ∨ x.since + 1000 * d.fld Off.pwrCtl 31 16 ≤ d.transit)))] | _ => []) = true ∧
    (meets (dU.modPwr fun p => { p with phase := .off }) fun d => let a0 : Fin 5 := 1; let src := a0;
      [decide ((d.pwr.phase = .off) ∧ (src.val < 2))]) = true ∧ 
    (meets ((dU.setReg Off.pwrWakeEn 16).modPwr fun p => { p with phase := .asleep }) fun d => let a0 : Fin 5 := 4; let src := a0;
      [decide ((d.pwr.phase = .asleep) ∧ (d.flag Off.pwrWakeEn src = true))]) = true ∧ 
    (meets ((tr 3 0 id).setReg Off.pwrWakeEn 16) fun d => let a0 : Fin 5 := 4; let src := a0;
      match d.pwr.running with | some x => [decide ((d.pwr.phase ≠ .off) ∧ (d.pwr.phase ≠ .asleep) ∧ (d.pwr.running = some x) ∧ (x.req.state = 3) ∧ (d.flag Off.pwrWakeEn src = true))] | _ => []) = true ∧
    (meets (dU.modPwr fun p => { p with phase := .off }) fun d => [decide ((d.pwr.phase = .off))]) = true ∧
    (meets (dU) fun d => [decide ((d.pwr.phase ≠ .off) ∧
      (d.pwr.thermtrip = false ∨ signed 16 (d.fld Off.pwrTherm 15 0) < 1050))]) = true ∧ 
    (meets ((dU.setReg Off.pwrTherm 1050).modPwr fun p => { p with thermtrip := true }) fun d => [decide ((d.pwr.phase ≠ .off) ∧
      (d.pwr.thermtrip = true) ∧ (signed 16 (d.fld Off.pwrTherm 15 0) ≥ 1050))]) = true ∧ 
    (meets (dU) fun d => let a0 : Fin 10 := 0; let a1 : Bool := true; let which := a0; let lost := a1; [decide ((which.val = 0) ∧
      (lost = true) ∧ (d.fault.stopping = false) ∧ ((d.dom 0xC 0).state = .running))]) = true ∧ 
    (meets (dU.modPwr fun p => { p with phase := .asleep }) fun d => let a0 : Fin 10 := 1; let a1 : Bool := true; let which := a0;
      let lost := a1; [decide ((which.val = 1) ∧ (lost = true) ∧ (d.pwr.phase = .asleep))]) = true ∧ 
    (meets (dU) fun d => let a0 : Fin 10 := 1; let a1 : Bool := true; let which := a0; let lost := a1; [decide ((which.val = 1) ∧
      (lost = true) ∧ (d.pwr.phase ≠ .asleep))]) = true ∧ 
    (meets (dU) fun _ => let a1 : Bool := false; let lost := a1; [decide ((lost = false))]) = true ∧
    (meets (dU) fun d => let a0 : Fin 10 := 65; let a1 : Bool := true; let which := a0; let lost := a1; [decide ((2 ≤ which.val) ∧
      (lost = true) ∧ (d.fault.stopping = false) ∧ ((d.dom 0 (8 * (which.val - 2))).state = .running))]) = true := by
  decide +kernel

theorem test_witness_SheddingAndSupplies :
    (meets (dV) fun d => let a0 : Nat := 4; let a1 : Nat := 0; let level := a0; let vcore := a1; [decide ((d.shedJudged = true) ∧
      (d.shed < level) ∧ (level < 5) ∧ (400 * vcore < (10 * d.fld Off.pwrVcore 31 16) * (400 - d.shedThr level)) ∧
      (vcore < 65536))]) = true ∧ 
    (meets (dV) fun d => let a0 : Nat := 5; let a1 : Nat := 0; let level := a0; let vcore := a1; [decide ((d.shedJudged = true) ∧
      (d.shed < level) ∧ (level = 5) ∧ (d.pwr.s5At = none) ∧
      (400 * vcore < (10 * d.fld Off.pwrVcore 31 16) * (400 - d.shedThr level)))]) = true ∧ 
    (meets (at_ (dU.modPwr fun p => { p with s5At := some 8 }) 7) fun d => match d.pwr.s5At with | some x => [decide ((d.pwr.phase ≠ .off) ∧ (d.pwr.s5At = some x) ∧ (x ≤ d.transit + 1) ∧ (d.transit + 40 < 2 ^ 64))] | _ => []) = true ∧
    (meets (dV.setFld Off.pwrShedStatus 31 29 3) fun d => ((List.range 64).flatMap fun n => [decide ((d.pwr.phase ≠ .off) ∧
      ((d.pwr.s5At.all fun x => d.transit + 40 < x) = true) ∧ (n ∈ d.tilesMoved))])) = true ∧ 
    (meets (dV.setFld Off.pwrShedStatus 31 29 4) fun d => let a0 : Nat := 65535; let vcore := a0; [decide ((d.shed ≠ 0) ∧
      (d.shed < 5) ∧ ((10 * d.fld Off.pwrVcore 31 16) * (404 - d.shedThr d.shed) < 400 * vcore))]) = true ∧ 
    (meets (dV) fun d => let a0 : Nat := 3; let a1 : Nat := 1104; let a2 : Bool := true; let rail := a0; let mv := a1;
      let deep := a2;
      match railNominal a0 with | some n => [decide ((railNominal rail = some n) ∧ (deep = true) ∧ (100 * mv ≤ 92 * n) ∧ (d.shedJudged = true) ∧ (d.pwr.s5At = none))] | none => []) = true ∧
    (meets (dV) fun d => let a0 : Nat := 4; let a1 : Nat := 1; let a2 : Bool := false; let rail := a0; let mv := a1;
      let deep := a2;
      [decide ((deep = false ∨ d.shedJudged = false ∨ d.pwr.s5At.isSome = true ∨ (railNominal rail).all (fun n => decide (92 * n < 100 * mv)) = true))]) = true ∧
      
    (meets (dV) fun _ => [decide (True)]) = true ∧
    (meets (dU.setReg Off.pwrTherm 0) fun d => let a1 : Int := 0; let temp := a1; [decide ((d.pwr.thermtrip = false) ∧
      (d.pwr.warned = false) ∧ (10 * (d.fld Off.pwrTherm 23 16 : Int) ≤ temp))]) = true ∧ 
    (meets (dU.setReg Off.pwrTherm (95 * 2 ^ 16)) fun d => let a1 : Int := (-500); let temp := a1;
      [decide ((d.pwr.thermtrip = false) ∧ (temp ≤ 10 * (d.fld Off.pwrTherm 23 16 : Int) - 20))]) = true ∧ 
    (meets (dU.modPwr fun p => { p with thermtrip := true, latched := 1 }) fun d => let a1 : Int := 1049; let temp := a1;
      [decide ((d.pwr.thermtrip = true) ∧ (d.pwr.latched = 1) ∧ (temp < 1050))]) = true ∧ 
    (meets (dU.modPwr fun p => { p with thermtrip := true, latched := 1 }) fun d => let a1 : Int := 1050; let temp := a1;
      [decide ((d.pwr.thermtrip = true) ∧ (d.pwr.latched ≠ 1 ∨ 1050 ≤ temp))]) = true ∧ 
    (meets (dU.setReg Off.pwrTherm (95 * 2 ^ 16)) fun d => let a1 : Int := 931; let temp := a1;
      [decide ((d.pwr.thermtrip = false) ∧ (10 * (d.fld Off.pwrTherm 23 16 : Int) - 20 < temp) ∧
      (temp < 10 * (d.fld Off.pwrTherm 23 16 : Int) ∨ d.pwr.warned = true))]) = true ∧ 
    (meets (dU) fun d => let a1 : Int := 1250; let temp := a1; [decide ((1250 ≤ temp) ∧ (d.pwr.phase ≠ .off))]) = true := by
  decide +kernel

theorem test_witness_StartAndSwatches :
    (meets (dW .cold) fun d => let a0 : Straps := ⟨3, true, 7, true⟩; let straps := a0; [decide ((d.pwr.phase = .waits) ∧
      (straps.testmode = true))]) = true ∧ 
    (meets (dW .warm) fun d => let a0 : Straps := ⟨3, true, 7, false⟩; let straps := a0; [decide ((d.pwr.phase = .waits) ∧
      (straps.testmode = false) ∧ (straps.bootsrc = true))]) = true ∧ 
    (meets (dW .wake) fun d => let a0 : Straps := ⟨3, false, 7, false⟩; let straps := a0; (let straps := a0;
      let e := (let y := (d.sampleStraps straps).startTime; if d.pwr.kind = .cold then y.logReset.offWake else y);
      [decide ((d.pwr.phase = .waits) ∧ (straps.testmode = false) ∧ (straps.bootsrc = false) ∧
      (e = (let y := (d.sampleStraps straps).startTime; if d.pwr.kind = .cold then y.logReset.offWake else y) ))])) = true ∧ 
    (meets (dW .wake) fun d => let a0 : Straps := ⟨3, false, 7, false⟩; let straps := a0; (let straps := a0;
      let e := (let y := (d.sampleStraps straps).startTime; if d.pwr.kind = .cold then y.logReset.offWake else y);
      [decide ((d.pwr.phase = .waits) ∧ (straps.testmode = false) ∧ (straps.bootsrc = false) ∧
      (e = (let y := (d.sampleStraps straps).startTime; if d.pwr.kind = .cold then y.logReset.offWake else y)) ∧
      (e.chooseSwatch (if d.pwr.kind = .cold then straps.swatch.toNat else e.activeSwatch) = none))])) = true ∧ 
    (meets (dU.modPwr fun p => { p with phase := .tiles }) fun d => let a0 : Fin 64 := 63; let tile := a0;
      [decide ((d.pwr.phase = .tiles) ∧ (d.pwr.tiles.contains tile.val = false))]) = true ∧ 
    (meets (dU.modPwr fun p => { p with phase := .tiles, tiles := List.range 64 }) fun d => [decide ((d.pwr.phase = .tiles) ∧
      (d.pwr.tiles.length = 64) ∧ (d.pwr.awaiting = []) ∧ (d.pwr.portsDown = false) ∧ (d.fault.stopping = false) ∧
      (d.darbyRuns = true))]) = true ∧ 
    (meets (dU) fun d => [decide (((d.pwr.phase = .tiles ∨ d.pwr.phase = .started)) ∧ (d.fault.stopping = false) ∧
      (d.darbyRuns = true))]) = true ∧ 
    (meets (dU.modPwr fun p => { p with flashOp := some ⟨1, 0⟩ }) fun d => let a0 : Bool := true; let err := a0;
      match d.pwr.flashOp with | some o => [decide ((d.pwr.flashOp = some o) ∧ (err = true))] | _ => []) = true ∧
    (meets (dU.modPwr fun p => { p with flashOp := some ⟨1, 0x10000⟩, flash := [(0x10001, 7)] }) fun d => let a0 : Bool := false;
      let err := a0;
      match d.pwr.flashOp with | some o => [decide ((d.pwr.flashOp = some o) ∧ (err = false) ∧ (o.op = 1))] | _ => []) = true ∧
    (meets (dU.modPwr fun p => { p with flashOp := some ⟨0, 0x10000⟩, flash := [(0x10001, 7)] }) fun d => let a0 : Bool := false;
      let err := a0;
      match d.pwr.flashOp with | some o => ((List.range 64).flatMap fun n => [decide ((d.pwr.flashOp = some o) ∧ (err = false) ∧ (o.op ≠ 1) ∧ (o.op ≠ 2) ∧ (n < 64))]) | none => []) = true ∧
    (meets (dU.modPwr fun p => { p with switch := some ⟨none, 3, 0, false, false⟩ }) fun d => match d.pwr.switch with | some sw => [decide ((d.pwr.switch = some sw) ∧ (sw.checked = false) ∧ (d.swatchValid sw.swatch = false))] | _ => []) = true ∧
    (meets (dU.modPwr fun p => { p with switch := some ⟨none, 3, 20000, false, false⟩ }) fun d => match d.pwr.switch with | some sw => [decide ((d.pwr.switch = some sw) ∧ (sw.checked = false) ∧ (sw.time ≠ 0) ∧ (d.tbCount 0 + 10000 ≤ sw.time))] | _ => []) = true := by
  decide +kernel

theorem test_witness_FlashProgramming :
    (meets ((dU.setReg (Off.darbyFlashBuf 63) 0x11223344).modPwr fun p => { p with flashOp := some ⟨2, 0x10000⟩, flash := [(0x10001, 7)] }) fun d => let a0 : Bool := false;
      let err := a0;
      match d.pwr.flashOp with | some o => (let b := ((List.range 64).flatMap fun n => bytesLE 4 (d.reg (Off.darbyFlashBuf n))); [decide ((d.pwr.flashOp = some o) ∧ (err = false) ∧ (o.op = 2) ∧ (b = ((List.range 64).flatMap fun n => bytesLE 4 (d.reg (Off.darbyFlashBuf n)))))]) | none => []) = true := by
  decide +kernel

theorem test_witness_CountersAndExport :
    (meets (dB) fun d => ((List.range 256).flatMap fun n => if NMap.getD d.perf.enNow n false then [decide ((n < 256) ∧
      (NMap.getD d.perf.enNow n false = true) ∧ (d.perf.frozen = false) ∧ (NMap.get? d.perf.written n = none) ∧
      (d.perfChain n = false) ∧ (d.perf.snapNext = false))] else [])) = true ∧ 
    (meets ({ dU with perf := { dU.perf with written := [(0, 0xFFFFFFFFFFFF)] } }) fun d => (d.perf.written.flatMap fun nv => let n := nv.1;
      let v := nv.2; [decide ((n < 256) ∧ (NMap.getD d.perf.enNow n false = false) ∧ (NMap.get? d.perf.written n = some v) ∧
      (d.perf.snapNext = false))])) = true ∧ 
    (meets (dX (Off.telemFspaceCtl 2) 1) fun d => let a0 : Fin 16 := 2; let space := a0;
      [decide ((d.telemDue space (Off.telemFspaceCtl space) = true) ∧ (d.shed = 0) ∧
      (NMap.has d.telem.walks space = false))]) = true ∧ 
    (meets ((dX (Off.telemFspaceCtl 2) 1).modTelem fun t => { t with walks := [(2, ⟨0, 0, []⟩)] }) fun d => let a0 : Fin 16 := 2;
      let space := a0; [decide ((d.telemDue space (Off.telemFspaceCtl space) = true) ∧ (d.shed = 0) ∧
      (NMap.has d.telem.walks space = true))]) = true ∧ 
    (meets ((dX (Off.telemFspaceCtl 2) 1).modTelem fun t => { t with walks := [(2, ⟨0, 0xFFFF, []⟩)] }) fun d => let a0 : Fin 16 := 2;
      let space := a0;
      match NMap.get? d.telem.walks (a0 : Fin 16) with | some wk => (match d.walkNext (a0 : Fin 16) wk with | some (h, b) => [decide ((d.telemOn = true) ∧ (NMap.get? d.telem.walks space = some wk) ∧ (d.walkNext space wk = some (h, b)) ∧ (d.pwrState ≠ 2))] | none => []) | none => []) = true ∧
    (meets ((dX (Off.telemFspaceCtl 2) 1).modTelem fun t => { t with walks := [(2, ⟨0, 0xFFFF, [key4.key]⟩)] }) fun d => let a0 : Fin 16 := 2;
      let space := a0;
      match NMap.get? d.telem.walks (a0 : Fin 16) with | some wk => [decide ((d.telemOn = true) ∧ (NMap.get? d.telem.walks space = some wk) ∧ (d.walkNext space wk = none))] | none => []) = true ∧
    (meets ({ dX Off.telemQuote 1 with quotes := [(9, { q0 with active := true })] }) fun d => (d.quotes.flatMap fun p => let qid := p.1;
      let q := p.2; [decide ((d.telemDue 16 Off.telemQuote = true) ∧ (d.shed = 0) ∧ (d.quote qid = some q) ∧
      (q.active = true))])) = true ∧ 
    (meets (dX Off.telemCounter 1) fun d => [decide ((d.telemDue 17 Off.telemCounter = true) ∧ (d.shed = 0))]) = true ∧
    (meets ((dX Off.telemCounter 1).setFld Off.pwrShedStatus 31 29 1) fun d => [decide ((d.telemDue 17 Off.telemCounter = true) ∧
      (1 ≤ d.shed))]) = true ∧ 
    (meets (at_ ((dX Off.telemCounter 1).setReg Off.telemTiming 0) 1000000000) fun d => [decide ((d.flag Off.telemCtl 31 = true) ∧
      (d.telem.templates + 1000000000 * max 1 (d.fld Off.telemTiming 31 16) ≤ d.transit))]) = true ∧ 
    (meets (at_ (((dX Off.telemCounter 1).setReg Off.telemTiming 0).modTelem fun t => { t with open_ := [(511, ⟨[[1]], 0⟩)] }) 1000) fun d => let a0 : Nat := 511;
      let template := a0;
      match NMap.get? d.telem.open_ a0 with | some o => [decide ((NMap.get? d.telem.open_ template = some o) ∧ (d.telemOn = true) ∧ (o.first + 1000 * max 1 (d.fld Off.telemTiming 15 0) ≤ d.transit))] | _ => []) = true ∧
    (meets (txOf { done0 with bad := true } { cp0 with port := 516, cls := 0, pipe := 31 }) fun d => let a0 : Fin 32 := 31;
      let pipe := a0;
      match d.voq a0 516 (voqCls 516 0) with | c :: cs => (match d.copy c with | some y => (match d.frame y.frame with | some fr => [decide ((d.voq pipe 516 (voqCls 516 0) = c :: cs) ∧ (d.copy c = some y) ∧ (d.frame y.frame = some fr) ∧ (fr.bad = true))] | none => []) | none => []) | [] => []) = true ∧
    (meets (txOf done0 { cp0 with port := 516, cls := 0, pipe := 31 }) fun d => let a0 : Fin 32 := 31; let pipe := a0;
      match d.voq a0 516 (voqCls 516 0) with | c :: cs => (match d.copy c with | some y => (match d.frame y.frame with | some fr => [decide ((d.voq pipe 516 (voqCls 516 0) = c :: cs) ∧ (d.copy c = some y) ∧ (d.frame y.frame = some fr) ∧ (fr.bad = false) ∧ (fr.done = true) ∧ ((d.telemOn = false ∨ d.flag Off.telemSample 31 = false)))] | none => []) | none => []) | [] => []) = true ∧
    (meets (((txOf done0 { cp0 with port := 516, cls := 0, pipe := 31 }).setReg Off.telemCtl (2 ^ 31)).setReg Off.telemSample (2 ^ 31 + 1)) fun d => let a0 : Fin 32 := 31;
      let pipe := a0;
      match d.voq a0 516 (voqCls 516 0) with | c :: cs => (match d.copy c with | some y => (match d.frame y.frame with | some fr => [decide ((d.voq pipe 516 (voqCls 516 0) = c :: cs) ∧ (d.copy c = some y) ∧ (d.frame y.frame = some fr) ∧ (fr.bad = false) ∧ (fr.done = true) ∧ (d.telemOn = true) ∧ (d.flag Off.telemSample 31 = true) ∧ (d.telem.sampleSec = d.transit / 1000000000) ∧ (d.telem.sampleCount < 1000 * d.fld Off.telemSample 15 0))] | none => []) | none => []) | [] => []) = true := by
  decide +kernel

theorem test_witness_Doorbells :
    (meets (dC) fun d => let a0 : Fin 2 := 0; let a1 : Fin 8 := 7; let a2 : BitVec 32 := 15; let seat := a0; let ring := a1;
      let v := a2; [decide ((d.registersUp = true) ∧ (d.crEnabled seat ring = true) ∧ (v.toNat < d.crSize seat ring))]) = true ∧ 
    (meets (dC) fun d => let a0 : Fin 2 := 0; let a1 : Fin 8 := 7; let a2 : BitVec 32 := 16; let seat := a0; let ring := a1;
      let v := a2; [decide ((d.registersUp = true) ∧ ((d.crEnabled seat ring = false ∨ d.crSize seat ring ≤ v.toNat)))]) = true ∧ 
    (meets (dC.setReg (Off.seatNrTail 0 0) 15) fun d => let a0 : Fin 2 := 0; let a1 : Fin 8 := 0; let a2 : BitVec 32 := 15;
      let seat := a0; let ring := a1; let v := a2; [decide ((d.registersUp = true) ∧ (d.nrEnabled seat ring = true) ∧
      (v.toNat < d.nrSize seat ring) ∧
      (headWithin (d.nrSize seat ring) (d.fld (Off.seatNrHead seat ring) 15 0) (d.fld (Off.seatNrTail seat ring) 15 0) v.toNat = true))]) = true ∧
      
    (meets (dC.setReg (Off.seatNrTail 0 0) 14) fun d => let a0 : Fin 2 := 0; let a1 : Fin 8 := 0; let a2 : BitVec 32 := 15;
      let seat := a0; let ring := a1; let v := a2; [decide ((d.registersUp = true) ∧
      ((d.nrEnabled seat ring = false ∨ d.nrSize seat ring ≤ v.toNat ∨ headWithin (d.nrSize seat ring) (d.fld (Off.seatNrHead seat ring) 15 0) (d.fld (Off.seatNrTail seat ring) 15 0) v.toNat = false)))]) = true := by
  decide +kernel

theorem test_witness_UnassignedOffsets :
    (meets (dO) fun _ => let a1 : BitVec 26 := 0x00FFFFC; let off := a1; [decide ((isInd off.toNat = false) ∧
      (regDef? off.toNat = none))]) = true ∧ 
    (meets (dO) fun _ => let a1 : BitVec 26 := 3; let off := a1; [decide ((isInd off.toNat = false) ∧
      (regDef? off.toNat = none))]) = true := by
  decide +kernel

theorem test_witness_FramesOfOnePart :
    (meets (dU) fun d => [decide ((d.noneDueBefore 6 = true))]) = true := by
  decide +kernel

theorem test_witness_FramesOfLinks :
    (meets ((prt 511 fun x => { x with rxAsleepAt := some 0 }).setFlag (Off.laneStatus 511) 4 true) fun d => let a0 : Fin 512 := 511;
      let lane := a0;
      [decide ((((List.range 32).any fun s => d.spanEn s && (d.spanLanes s).contains lane.val) = false))]) = true := by
  decide +kernel

theorem test_witness_FramesOfComputing :
    (meets (lt (instWord ⟨0, false⟩ 0x0 ((⟨48, 49, 0, true, false, 0xFFFFFFFF⟩ : FmtA).enc)) (rs)) fun d => let a0 : Who := (.thr 31 7);
      let a1 : Pred := ⟨0, false⟩; let a2 : FmtA := ⟨48, 49, 0, true, false, 0xFFFFFFFF⟩; let q := a1; let f := a2;
      match (a0 : Who) with | .thr engine thread => (match d.threadAt engine thread q 0x00 f.enc with | some (id, x) => [decide ((d.threadAt engine thread q 0x00 f.enc = some (id, x)) ∧ (isS f.rd = true))] | none => []) | _ => []) = true ∧
    (meets (lt (instWord ⟨0, false⟩ 0x1 ((⟨63, 48, 50, false, false, 0⟩ : FmtA).enc)) (rs)) fun d => let a0 : Who := (.thr 31 7);
      let a1 : Pred := ⟨0, false⟩; let a2 : FmtA := ⟨63, 48, 50, false, false, 0⟩; let q := a1; let f := a2;
      match (a0 : Who) with | .thr engine thread => (match d.threadAt engine thread q 0x01 f.enc with | some (id, x) => [decide ((d.threadAt engine thread q 0x01 f.enc = some (id, x)) ∧ (isS f.rd = true))] | none => []) | _ => []) = true ∧
    (meets (lt (instWord ⟨0, false⟩ 0x2 ((⟨48, 49, 0, true, false, 0xFFFFFFFF⟩ : FmtA).enc)) (rs)) fun d => let a0 : Who := (.thr 31 7);
      let a1 : Pred := ⟨0, false⟩; let a2 : FmtA := ⟨48, 49, 0, true, false, 0xFFFFFFFF⟩; let q := a1; let f := a2;
      match (a0 : Who) with | .thr engine thread => (match d.threadAt engine thread q 0x02 f.enc with | some (id, x) => [decide ((d.threadAt engine thread q 0x02 f.enc = some (id, x)) ∧ (isS f.rd = true))] | none => []) | _ => []) = true ∧
    (meets (lt (instWord ⟨0, false⟩ 0x3 ((⟨63, 48, 50, false, false, 0⟩ : FmtA).enc)) (rs)) fun d => let a0 : Who := (.thr 31 7);
      let a1 : Pred := ⟨0, false⟩; let a2 : FmtA := ⟨63, 48, 50, false, false, 0⟩; let q := a1; let f := a2;
      match (a0 : Who) with | .thr engine thread => (match d.threadAt engine thread q 0x03 f.enc with | some (id, x) => [decide ((d.threadAt engine thread q 0x03 f.enc = some (id, x)) ∧ (isS f.rd = true))] | none => []) | _ => []) = true ∧
    (meets (lt (instWord ⟨0, false⟩ 0x4 ((⟨48, 49, 0, true, false, 0xFFFFFFFF⟩ : FmtA).enc)) (rs)) fun d => let a0 : Who := (.thr 31 7);
      let a1 : Pred := ⟨0, false⟩; let a2 : FmtA := ⟨48, 49, 0, true, false, 0xFFFFFFFF⟩; let q := a1; let f := a2;
      match (a0 : Who) with | .thr engine thread => (match d.threadAt engine thread q 0x04 f.enc with | some (id, x) => [decide ((d.threadAt engine thread q 0x04 f.enc = some (id, x)) ∧ (isS f.rd = true))] | none => []) | _ => []) = true ∧
    (meets (lt (instWord ⟨0, false⟩ 0x5 ((⟨63, 48, 50, false, false, 0⟩ : FmtA).enc)) (rs)) fun d => let a0 : Who := (.thr 31 7);
      let a1 : Pred := ⟨0, false⟩; let a2 : FmtA := ⟨63, 48, 50, false, false, 0⟩; let q := a1; let f := a2;
      match (a0 : Who) with | .thr engine thread => (match d.threadAt engine thread q 0x05 f.enc with | some (id, x) => [decide ((d.threadAt engine thread q 0x05 f.enc = some (id, x)) ∧ (isS f.rd = true))] | none => []) | _ => []) = true ∧
    (meets (lt (instWord ⟨0, false⟩ 0x6 ((⟨48, 49, 0, true, false, 0xFFFFFFFF⟩ : FmtA).enc)) (rs)) fun d => let a0 : Who := (.thr 31 7);
      let a1 : Pred := ⟨0, false⟩; let a2 : FmtA := ⟨48, 49, 0, true, false, 0xFFFFFFFF⟩; let q := a1; let f := a2;
      match (a0 : Who) with | .thr engine thread => (match d.threadAt engine thread q 0x06 f.enc with | some (id, x) => [decide ((d.threadAt engine thread q 0x06 f.enc = some (id, x)) ∧ (isS f.rd = true))] | none => []) | _ => []) = true ∧
    (meets (lt (instWord ⟨0, false⟩ 0x7 ((⟨63, 48, 50, false, false, 0⟩ : FmtA).enc)) (rs)) fun d => let a0 : Who := (.thr 31 7);
      let a1 : Pred := ⟨0, false⟩; let a2 : FmtA := ⟨63, 48, 50, false, false, 0⟩; let q := a1; let f := a2;
      match (a0 : Who) with | .thr engine thread => (match d.threadAt engine thread q 0x07 f.enc with | some (id, x) => [decide ((d.threadAt engine thread q 0x07 f.enc = some (id, x)) ∧ (isS f.rd = true))] | none => []) | _ => []) = true ∧
    (meets (lt (instWord ⟨0, false⟩ 0x8 ((⟨48, 49, 0, true, false, 0xFFFFFFFF⟩ : FmtA).enc)) (rs)) fun d => let a0 : Who := (.thr 31 7);
      let a1 : Pred := ⟨0, false⟩; let a2 : FmtA := ⟨48, 49, 0, true, false, 0xFFFFFFFF⟩; let q := a1; let f := a2;
      match (a0 : Who) with | .thr engine thread => (match d.threadAt engine thread q 0x08 f.enc with | some (id, x) => [decide ((d.threadAt engine thread q 0x08 f.enc = some (id, x)) ∧ (isS f.rd = true))] | none => []) | _ => []) = true ∧
    (meets (lt (instWord ⟨0, false⟩ 0x9 ((⟨63, 48, 50, false, false, 0⟩ : FmtA).enc)) (rs)) fun d => let a0 : Who := (.thr 31 7);
      let a1 : Pred := ⟨0, false⟩; let a2 : FmtA := ⟨63, 48, 50, false, false, 0⟩; let q := a1; let f := a2;
      match (a0 : Who) with | .thr engine thread => (match d.threadAt engine thread q 0x09 f.enc with | some (id, x) => [decide ((d.threadAt engine thread q 0x09 f.enc = some (id, x)) ∧ (isS f.rd = true))] | none => []) | _ => []) = true := by
  decide +kernel

theorem test_witness_FramesOfTimeAndStores :
    (meets (dU) fun d => [decide ((d.tilesMoved = []) ∧ ((d.pwr.s5At.all fun x => d.transit + 40 < x) = true))]) = true := by
  decide +kernel

theorem test_witness_FramesOfMemory :
    (meets (lt (instWord ⟨0, false⟩ 0x99 ((⟨31, 48, 1, 0xFE⟩ : FmtM).enc)) (rs)) fun d => let a0 : Fin 32 := 31;
      let a1 : Fin 8 := 7; let a2 : Pred := ⟨0, false⟩; let a3 : FmtM := ⟨31, 48, 1, 0xFE⟩; let engine := a0; let thread := a1;
      let q := a2; let f := a3;
      match d.threadAt engine thread q 0x99 f.enc with | some (id, x) => [decide ((d.threadAt engine thread q 0x99 f.enc = some (id, x)) ∧ ((x.regs.get f.ra + BitVec.signExtend 64 f.off).toNat % 2 ^ f.sz.toNat = 0) ∧ ((x.regs.get f.ra + BitVec.signExtend 64 f.off).toNat < heapStart) ∧ (d.badAddr id true 4 (x.regs.get f.ra + BitVec.signExtend 64 f.off).toNat (2 ^ f.sz.toNat) = none))] | none => []) = true ∧
    (meets ((lt (instWord ⟨0, false⟩ 0x9B ((⟨31, 51, 3, 0⟩ : FmtM).enc)) ({ rs with s := rs.s.set 3 0x100000000 })) |> fun d => hp d) fun d => let a0 : Fin 32 := 31;
      let a1 : Fin 8 := 7; let a2 : Pred := ⟨0, false⟩; let a3 : FmtM := ⟨31, 51, 3, 0⟩; let engine := a0; let thread := a1;
      let q := a2; let f := a3;
      match d.threadAt engine thread q 0x9B f.enc with | some (id, x) => (match d.heapAddr ((x.regs.get f.ra + BitVec.signExtend 64 f.off).toNat - heapStart) with | some a => [decide ((d.threadAt engine thread q 0x9B f.enc = some (id, x)) ∧ (f.sz = 3) ∧ ((x.regs.get f.ra + BitVec.signExtend 64 f.off).toNat % 8 = 0) ∧ (d.heapAddr ((x.regs.get f.ra + BitVec.signExtend 64 f.off).toNat - heapStart) = some a) ∧ (heapStart ≤ (x.regs.get f.ra + BitVec.signExtend 64 f.off).toNat) ∧ (d.badAddr id true 4 (x.regs.get f.ra + BitVec.signExtend 64 f.off).toNat 8 = none) ∧ (d.poisonedIn (x.regs.get f.ra + BitVec.signExtend 64 f.off).toNat 8 = none))] | none => []) | none => []) = true ∧
    (meets (dU.modPwr fun p => { p with flashOp := some ⟨1, 0x10000⟩, flash := [(0x10001, 7)] }) fun d => match d.pwr.flashOp with | some o => [decide ((d.pwr.flashOp = some o))] | _ => []) = true ∧
    (meets (dU.modPwr fun p => { p with flashOp := some ⟨2, 0x10000⟩ }) fun d => match d.pwr.flashOp with | some o => [decide ((d.pwr.flashOp = some o) ∧ (o.op ≠ 1))] | _ => []) = true ∧
    (meets (dU.modPwr fun p => { p with flashOp := some ⟨2, 0x10000⟩ }) fun d => let a0 : Bool := true; let err := a0;
      match d.pwr.flashOp with | some o => [decide ((d.pwr.flashOp = some o) ∧ (o.op ≠ 1) ∧ (o.op ≠ 2 ∨ err = true))] | _ => []) = true := by
  decide +kernel

/-! ### What the hypotheses of the statements over every instruction, microword and state ask -/

theorem test_witness_NonExecutingInstructions :
    (meets (ld 0 (instWord ⟨1, false⟩ 0x00 0) ra) fun d => match d.lineCtx (.ing 0) with
      | some x => [(Instr.add (.ing 0) ⟨1, false⟩ ⟨0, 0, 0, false, false, 0⟩).dravea == some (.ing 0, 0, false, instWord ⟨1, false⟩ 0 0) &&
          !x.regs.executes (wordPred (instWord ⟨1, false⟩ 0x00 0))]
      | none => []) = true ∧
    (meets (lt (instWord ⟨1, false⟩ 0x00 0) rs) fun d => match d.threadOn 31 7 (instWord ⟨1, false⟩ 0 0) with
      | some (_, x) => [(Instr.add (.thr 31 7) ⟨1, false⟩ ⟨0, 0, 0, false, false, 0⟩).dravea ==
            some (.thr 31 7, 0, false, instWord ⟨1, false⟩ 0 0) && !x.regs.executes (wordPred (instWord ⟨1, false⟩ 0 0))]
      | none => []) = true := by
  decide +kernel

theorem test_witness_DecodeOfEncode :
    (Instr.lkf (.ing 3) ⟨5, true⟩ ⟨2, 0, 5, 0, 14, 0, 0⟩ true).dravea.isSome = true := by
  decide +kernel

theorem test_witness_CanonicalKept :
    (let d := dU.modPwr fun p => { p with flashOp := some ⟨1, 0x10000⟩, flash := [(0x10001, 7)] }
     d.keepsForm (.flashDone false) && d.canonical && (match step ⟨d, [.flashDone false]⟩ with | .next _ => true | _ => false)) = true := by
  decide +kernel

theorem test_witness_Microwords :
    UOp.of 22 = some .ublk ∧ BOp.of 6 = some .sample ∧ MicroCond.of 12 = some .interrupt ∧ bits (0x17 * 2 ^ 27) 31 27 = 0x17 ∧
    bits (2 ^ 32 - 1) 31 27 = 0x1F ∧ MicroCond.holds .interrupt Micro.idle ⟨true, true, true, true, true, false⟩ = false ∧
    MicroCond.holds .zClear { Micro.idle with upc := some 0x47FF, stack := [1] } ⟨true, true, true, true, true, true⟩ = true := by
  decide +kernel

theorem test_witness_TestAccessPort : (List.replicate 41 true).length = 41 := by decide

/-! ### Decoding: words written out from R48 and R52, one for each family of instructions -/

/-- ADD r3 := r1 + 5: opcode 0x00 in bits 63:56, RD 3 in 51:46, RA 1 in 45:40, I in bit 33, the immediate in 31:0. -/
theorem test_decode_add : decodeDravea (.ing 0) 0 false 0x0000_C102_0000_0005 = some (.add (.ing 0) ⟨0, false⟩ ⟨3, 1, 0, true, false, 5⟩) := by
  decide +kernel

/-- The worked encoding of the key lookup, and of the NEXT that follows it. -/
theorem test_decode_lkf : decodeDravea (.ing 0) 0 false 0x3440_2140_3800_0000 = some (.lkf (.ing 0) ⟨4, false⟩ ⟨2, 0, 5, 0, 14, 0, 0⟩ false) := by
  decide +kernel

theorem test_decode_next : decodeDravea (.ing 0) 0 false 0x7002_A000_0000_0000 = some (.next (.ing 0) ⟨0, false⟩ ⟨1, 2, true⟩) := by
  decide +kernel

/-- LD on thread 1 of engine 2, and no instruction of line form. -/
theorem test_decode_ld : decodeDravea (.thr 2 1) 0 false 0x980C_71C0_0000_0010 = some (.ld 2 1 ⟨0, false⟩ ⟨49, 49, 3, 16⟩) ∧
    decodeDravea (.egr 0) 0 false 0x980C_71C0_0000_0010 = none := by
  decide +kernel

/-! ### Ill-formed commands, one for each check -/

def entry0 : CmdEntry := ⟨0, 7, 0, 0, 0, 0, List.replicate 48 0, [], true⟩

theorem test_illFormed_entry :
    (Instr.barrier entry0).wf = true ∧ (Instr.barrier { entry0 with param := [] }).wf = false ∧
    (Instr.tableWrite { entry0 with len := 1 }).wf = false := by decide

theorem test_illFormed_key :
    keyWf [] = false ∧ keyWf (List.replicate 48 0) = true ∧ keyWf (List.replicate 49 0) = false ∧
    (Instr.fetchReturn 0 []).wf = false ∧ (Instr.parkLimit 0 (List.replicate 49 0)).wf = false ∧
    (Instr.absentExpiry 0 []).wf = false ∧ (Instr.learnWindowExpiry 0 []).wf = false := by decide

theorem test_illFormed_damagedWord :
    (DamagedWord.entry [] []).wf = false ∧ (DamagedWord.entry [1] []).wf = false ∧ (DamagedWord.prefix_ [1] 9 [1]).wf = false ∧
    (DamagedWord.prefix_ [1] 8 []).wf = false ∧ (DamagedWord.node [1] 8 []).wf = false ∧ (DamagedWord.node [1] 8 [1]).wf = true ∧
    (UeWhere.table 0 0 (.entry [] [])).wf = false ∧ (UeWhere.lodge 16 [1]).wf = false ∧ (Instr.ueData (.lodge 0 [])).wf = false := by
  decide

theorem test_illFormed_data :
    (Instr.recoveryWrite ⟨0, 0, 0, 2, 0⟩ [1] false).wf = false ∧ (Instr.lathFrameReceive 0 0 0 [] 0).wf = false ∧
    (Instr.lof 0 16).wf = false ∧ (Instr.startUp ⟨0, false, 0, false⟩ true [32] []).wf = false := by decide

end Sys2Proof.Tests
end

section
/-! PROOFS. Every operation of the block keeps the register file and the byte memories in their one form: one lemma for each operation,
named after it, whose proof runs through the operations that it is made of. -/

namespace Sys2Proof

theorem NMap.sortedFrom_filter {α : Type} (p : Nat × α → Bool) : ∀ (m : NMap α) (lo : Nat), NMap.sortedFrom lo m = true →
    NMap.sortedFrom lo (m.filter p) = true
  | [], _, _ => rfl
  | (k, v) :: m, lo, h => by
    simp only [NMap.sortedFrom, Bool.and_eq_true, decide_eq_true_eq] at h
    have ih := NMap.sortedFrom_filter p m (k + 1) h.2
    rw [List.filter_cons]
    split
    · simp [NMap.sortedFrom, h.1, ih]
    · exact NMap.sortedFrom_mono (by omega) _ ih

theorem DMap.wf_filter {α : Type} [DecidableEq α] {dflt : Nat → α} {m : NMap α} {p : Nat × α → Bool} (h : DMap.wf dflt m = true) :
    DMap.wf dflt (m.filter p) = true := by
  simp only [DMap.wf, Bool.and_eq_true, List.all_eq_true] at h ⊢
  exact ⟨NMap.sortedFrom_filter p m 0 h.1, fun x hx => h.2 x (List.mem_of_mem_filter hx)⟩

theorem NMap.mem_of_get? {α : Type} {m : NMap α} {a : Nat} {v : α} (h : NMap.get? m a = some v) : (a, v) ∈ m := by
  induction m with
  | nil => simp at h
  | cons q t ih =>
    obtain ⟨k, w⟩ := q
    by_cases g : a = k
    · subst g
      obtain rfl : w = v := by simpa [NMap.get?] using h
      exact List.mem_cons_self
    · exact List.mem_cons_of_mem _ (ih (by simpa [NMap.get?, g] using h))

namespace Machine

/-- The block with its register file and every byte memory in their one form (`Device.canonical`), as a hypothesis to hand on from
one operation to the next. -/
def Device.Formed (d : Device) : Prop := d.canonical = true

/-- With no timed action due that R359 places before PPS_OUT, none is done. -/
theorem Device.dueBefore_of_noneDueBefore {d : Device} (h : d.noneDueBefore 6 = true) : d.dueBefore 6 = d := by
  obtain ⟨hcoat, hgates, hsnaps, hswitch⟩ :
      d.coatTime = false ∧ d.gatesDue = [] ∧ d.snapsDue = [] ∧ d.switchTime = false := by
    simpa [Device.noneDueBefore, and_assoc] using h
  simp [Device.dueBefore, hcoat, hgates, hsnaps, hswitch]

namespace Device.Formed

variable {d : Device} {off hi lo n v s r p c l k g a f w q t e i : Nat} {b : Bool} {bs : List Byte}

/-! ### Branches, loops and pairs -/

theorem ite {a b : Device} {q : Prop} {_ : Decidable q} (ha : a.Formed) (hb : b.Formed) : (if q then a else b).Formed := by
  split
  · exact ha
  · exact hb

theorem foldl {β : Type} {xs : List β} {f : Device → β → Device} (h : d.Formed) (hf : ∀ d x, Formed d → (f d x).Formed) :
    (xs.foldl f d).Formed := by
  induction xs generalizing d with
  | nil => exact h
  | cons x xs ih => exact ih (hf d x h)

theorem of_pair {β : Type} {x : Device × β} {t : Device} {y : β} (h : x.1.Formed) (e : x = (t, y)) : t.Formed := by
  subst e; exact h

/-! ### Parts that hold no memory -/

theorem withHawk {x : Hawk} (h : d.Formed) : ({ d with hawk := x }).Formed := h
theorem withFault {x : FaultMgr} (h : d.Formed) : ({ d with fault := x }).Formed := h
theorem withPerf {x : Perf} (h : d.Formed) : ({ d with perf := x }).Formed := h
theorem withCtxs {x : NMap Ctx} (h : d.Formed) : ({ d with ctxs := x }).Formed := h
theorem withEctxs {x : NMap Ctx} (h : d.Formed) : ({ d with ectxs := x }).Formed := h
theorem withQuotes {x : NMap Quote} (h : d.Formed) : ({ d with quotes := x }).Formed := h
theorem withFreeCtr (h : d.Formed) : ({ d with freeCtr := n }).Formed := h
theorem modPort {f : Port → Port} (h : d.Formed) : (d.modPort p f).Formed := h
theorem modSched {f : Sched → Sched} (h : d.Formed) : (d.modSched p f).Formed := h
theorem modSpan {f : Span → Span} (h : d.Formed) : (d.modSpan s f).Formed := h
theorem modGroup {f : Group → Group} (h : d.Formed) : (d.modGroup g f).Formed := h
theorem modPipe {f : Pipe → Pipe} (h : d.Formed) : (d.modPipe i f).Formed := h
theorem modBuf {f : Buf → Buf} (h : d.Formed) : (d.modBuf f).Formed := h
theorem modFlow {f : Flow → Flow} (h : d.Formed) : (d.modFlow f).Formed := h
theorem modPlumb {f : Plumb → Plumb} (h : d.Formed) : (d.modPlumb f).Formed := h
theorem modTelem {f : Telem → Telem} (h : d.Formed) : (d.modTelem f).Formed := h
theorem modDom {f : Domain → Domain} (h : d.Formed) : (d.modDom k i f).Formed := h
theorem modFrame {g : Frame → Frame} (h : d.Formed) : (d.modFrame f g).Formed := h.modBuf
theorem setFrame {x : Frame} (h : d.Formed) : (d.setFrame f x).Formed := h.modBuf
theorem unlease (h : d.Formed) : (d.unlease k i).Formed := h.withFault
theorem takeSeq (h : d.Formed) : d.takeSeq.1.Formed := h.withHawk
theorem setSlot {x : PendSlot} (h : d.Formed) : (d.setSlot x).Formed := h.withHawk
theorem occ {o : Occ} (h : d.Formed) : (d.occ o).Formed := h.withPerf
theorem occSeat {part : Option Nat} (h : d.Formed) : (d.occSeat c s n part).Formed := h.occ
theorem occPort {cls : Option Nat} (h : d.Formed) : (d.occPort c n cls p).Formed := h.occ
theorem occTask {x : Task} (h : d.Formed) : (d.occTask c e x).Formed := h.occ
theorem occRender {x : RReq} (h : d.Formed) : (d.occRender c n x).Formed := h.occ
theorem setTb {x : TimeBase} (h : d.Formed) : (d.setTb n x).Formed := h.modPlumb

/-! ### Registers -/

theorem setReg (h : d.Formed) : (d.setReg off v).Formed := d.canonical_setReg off v h
theorem setFld (h : d.Formed) : (d.setFld off hi lo v).Formed := d.canonical_setFld off hi lo v h
theorem setFlag (h : d.Formed) : (d.setFlag off n b).Formed := d.canonical_setFlag off n b h
theorem bump (h : d.Formed) : (d.bump off n).Formed := d.canonical_bump off n h
theorem setReg64 (h : d.Formed) : (d.setReg64 off v).Formed := h.setReg.setReg
theorem bump64 (h : d.Formed) : (d.bump64 off v).Formed := h.setReg64

/-! ### Parts that hold a memory -/

theorem seat_hostMem (h : d.Formed) : Mem.wf 0 (d.seat s).hostMem = true := by
  unfold Device.seat NMap.getD
  cases e : NMap.get? d.seats s with
  | none => rfl
  | some x =>
    simp only [Device.Formed, Device.canonical, Bool.and_eq_true, List.all_eq_true] at h
    exact h.2 _ (NMap.mem_of_get? e)

/-- A seat's change that leaves its host memory alone. -/
theorem modSeat {f : Seat → Seat} (h : d.Formed) (hf : ∀ x, (f x).hostMem = x.hostMem := by intro; rfl) : (d.modSeat s f).Formed :=
  d.canonical_modSeat s f h ((hf _).symm ▸ h.seat_hostMem)

theorem modNring {f : NoticeRing → NoticeRing} (h : d.Formed) : (d.modNring s r f).Formed := h.modSeat
theorem modCring {f : CmdRing → CmdRing} (h : d.Formed) : (d.modCring s r f).Formed := h.modSeat

/-- A change of the scaffold that leaves its memory alone. -/
theorem modScaf {f : Scaf → Scaf} (h : d.Formed) (hf : (f d.scaf).sram = d.scaf.sram := by rfl) : (d.modScaf f).Formed := by
  unfold Device.Formed Device.canonical Device.modScaf
  rw [hf]
  exact h

/-- A change of the render store that leaves its bytes alone. -/
theorem modRstore {f : Rstore → Rstore} (h : d.Formed) (hf : (f d.rstore).bytes = d.rstore.bytes := by rfl) : (d.modRstore f).Formed := by
  unfold Device.Formed Device.canonical Device.modRstore
  rw [hf]
  exact h

/-- A change of the power unit that leaves the flash alone. -/
theorem modPwr {f : Power → Power} (h : d.Formed) (hf : (f d.pwr).flash = d.pwr.flash := by rfl) : (d.modPwr f).Formed := by
  unfold Device.Formed Device.canonical Device.modPwr
  rw [hf]
  exact h

theorem modRchan {f : RChan → RChan} (h : d.Formed) : (d.modRchan c f).Formed := h.modRstore
theorem modTask {f : Task → Task} (h : d.Formed) : (d.modTask i f).Formed := h.modScaf
theorem setThr {x : Thread} (h : d.Formed) : (d.setThr k x).Formed := h.modScaf
theorem setReady {q : List ReadyItem} (h : d.Formed) : (d.setReady l q).Formed := h.modScaf
theorem setSram (h : d.Formed) : (d.setSram a bs).Formed := d.canonical_setSram a bs h
theorem flashWrite (h : d.Formed) : (d.flashWrite a bs).Formed := d.canonical_writeFlash a bs h
theorem flashProgram (h : d.Formed) : (d.flashProgram a bs).Formed := h.flashWrite
theorem storeWrite (h : d.Formed) : (d.storeWrite a bs).Formed := d.canonical_writeRstore a bs h

/-! ### Notices and events -/

theorem dropNotice (h : d.Formed) : (d.dropNotice s r n).Formed := h.bump.modNring.occSeat
theorem sendMsix (h : d.Formed) : (d.sendMsix s r).Formed := h.modSeat.modNring
theorem coalesce (h : d.Formed) : (d.coalesce s r).Formed := h.modNring.sendMsix.ite h.modNring

theorem writeHost (h : d.Formed) : (d.modSeat s fun x => { x with hostMem := Mem.writeN 0 x.hostMem a bs }).Formed :=
  d.canonical_modSeat s _ h (Mem.wf_writeN 0 bs _ a h.seat_hostMem)

theorem putEntry (h : d.Formed) : (d.putEntry s r n b v k bs).Formed := h.writeHost.setFld.modNring

theorem putNotice {o : Option (List Byte)} (h : d.Formed) : (d.putNotice s r n v k bs o b).1.Formed := by
  unfold Device.putNotice
  extract_lets need ring avail d₁ d₂ d₃
  have h₂ : d₂.Formed := (h.modNring.ite h).putEntry
  have h₃ : d₃.Formed := by
    cases o with
    | none => exact h₂
    | some x => exact h₂.putEntry
  split
  · exact h.dropNotice
  · split
    · exact h.dropNotice
    · exact h₃.occSeat.coalesce

theorem notice {o : Option (List Byte)} (h : d.Formed) : (d.notice s r n bs o).1.Formed := h.withHawk.putNotice

theorem deliver {x : Event} (h : d.Formed) : (d.deliver s x v k).Formed := h.putNotice.ite h

theorem logEntry {x : LogEntry} (h : d.Formed) : (d.logEntry x).Formed := (h.bump.ite h).withHawk

theorem stampEvent {x : Event} (h : d.Formed) : (d.stampEvent x).Formed :=
  have h₁ : Formed _ := h.withHawk.setFlag
  have h₂ : Formed _ := h₁.setFlag.ite h₁
  (h₂.logEntry.ite h₂).deliver.deliver

theorem raiseEvent {x : Event} (h : d.Formed) : (d.raiseEvent x).Formed := by
  unfold Device.raiseEvent
  extract_lets now fresh
  have hfresh : fresh.Formed := h.stampEvent.setSlot
  refine h.stampEvent.ite ?_
  split
  · exact hfresh
  · split
    · exact h.setSlot.bump
    · exact h.setSlot.bump.ite hfresh
    · exact hfresh

theorem raise (h : d.Formed) : (d.raise s v c a n).Formed := h.raiseEvent
theorem raiseDom (h : d.Formed) : (d.raiseDom s v c k i a n).Formed := h.raiseEvent
theorem raiseOpen (h : d.Formed) : (d.raiseOpen s v).Formed := h.withFreeCtr.withFreeCtr.withFreeCtr.raise

/-! ### Completions -/

theorem completeOne {op st tag : Nat} (h : d.Formed) : (d.completeOne s r op st tag n bs).Formed := by
  unfold Device.completeOne
  extract_lets d₁ d₂ mute d₃ ring
  have h₃ : d₃.Formed := (h.unlease.setFld.ite h.unlease).modCring
  split
  · exact h₃.dropNotice
  · split
    · exact h₃.modNring
    · split
      next e =>
      split
      next e' =>
      have h₄ := (h₃.takeSeq.of_pair e).putNotice.of_pair e'
      exact h₄.ite h₄.modNring

theorem releaseBarriers (h : d.Formed) : d.releaseBarriers.Formed :=
  h.foldl fun d i h => by
    split
    · exact h.completeOne.ite h
    · exact h

theorem complete {op st tag : Nat} (h : d.Formed) : (d.complete s r op st tag n bs).Formed :=
  h.completeOne.foldl fun _ _ h => h.releaseBarriers

theorem sendDone {x : Frame} (h : d.Formed) : (d.sendDone x).Formed := by
  unfold Device.sendDone
  split
  · exact h
  · split
    · exact h
    · split
      · exact h.complete
      · exact h.complete
      · exact h.withFreeCtr.complete

/-! ### PFC and the pools of the buffer -/

theorem notIdle (h : d.Formed) : (d.notIdle p).Formed := h.modPort.ite h

theorem sendOwn (h : d.Formed) : (d.sendOwn p bs).Formed := h.ite h.bump64.bump64.occPort.occPort.modPort.notIdle

theorem sendPfc {f : Nat → Nat} (h : d.Formed) : (d.sendPfc p n f).Formed := h.sendOwn.bump.modPort

theorem pfcFlush (h : d.Formed) : (d.pfcFlush p).Formed := h.ite h.modPort.sendPfc

theorem showPfc (h : d.Formed) : (d.showPfc p).Formed := h.ite (h.setFld.modPort.pfcFlush.ite h.setFld)

theorem assertOne {x : Nat × Nat} (h : d.Formed) : (d.assertOne x).Formed := h.modBuf.showPfc.ite h

theorem releaseOne {x : Nat × Nat} (h : d.Formed) : (d.releaseOne x).Formed := h.modBuf.showPfc.ite h

theorem pfcCheck (h : d.Formed) : d.pfcCheck.Formed :=
  foldl (h.foldl fun _ _ h => h.releaseOne) fun _ _ h => h.assertOne

theorem settlePools (h : d.Formed) : d.settlePools.Formed := h.modBuf

theorem poolsMoved (h : d.Formed) : d.poolsMoved.Formed := h.settlePools.pfcCheck

/-! ### Frames and copies -/

theorem freeFrame (h : d.Formed) : (d.freeFrame f).Formed := by
  unfold Device.freeFrame
  split
  · exact h
  · exact h.sendDone.modBuf.withCtxs.poolsMoved

theorem freeUnread (h : d.Formed) : (d.freeUnread f).Formed := by
  unfold Device.freeUnread
  refine h.ite ?_
  split
  · exact h
  · exact h.freeFrame.ite h.modFrame.poolsMoved

theorem drainLeave (h : d.Formed) : (d.drainLeave f p).Formed := by
  unfold Device.drainLeave
  split
  · exact h
  · refine h.ite ?_
    split
    · exact h.modFrame.poolsMoved
    · exact h.modFrame.poolsMoved

theorem dropCopy (h : d.Formed) : (d.dropCopy c).Formed := by
  unfold Device.dropCopy
  split
  · exact h
  · exact h.modBuf.withEctxs.unlease.drainLeave.freeUnread.notIdle

theorem rewriteWords {ws : List DWord} (h : d.Formed) : (d.rewriteWords s k c ws).Formed := h.modSpan

theorem endSpan (h : d.Formed) : (d.endSpan s c).Formed := by
  unfold Device.endSpan
  split
  · exact h
  · split
    · exact h.dropCopy
    · exact (h.bump.occPort.ite h).rewriteWords.dropCopy

theorem endWire (h : d.Formed) : (d.endWire c).Formed := by
  unfold Device.endWire
  split
  · exact h
  · exact h.modPort.dropCopy.pfcFlush

theorem abortCopy (h : d.Formed) : (d.abortCopy c).Formed := by
  unfold Device.abortCopy
  split
  · exact h
  · split
    · exact h.endSpan
    · exact h.bump.occPort.endWire

theorem turnBad (h : d.Formed) : (d.turnBad f b).Formed := by
  unfold Device.turnBad
  extract_lets cs d₁ d₂
  have h₁ : d₁.Formed := h.modFrame
  have h₂ : d₂.Formed := by
    show Formed (match d₁.frame f with | some x => _ | none => _)
    split
    · exact h₁.bump.ite h₁
    · exact h₁
  exact h₂.foldl fun _ _ h => h.abortCopy

theorem tags (h : d.Formed) : (d.tags p).Formed :=
  h.foldl fun _ _ h => (h.ite h.modSched).ite h.modSched

theorem setTokens {x : Int} (h : d.Formed) : (d.setTokens p c x).Formed := h.modSched

theorem idleBucket (h : d.Formed) : (d.idleBucket p c).Formed := h.setTokens.ite h

theorem hintSettle (h : d.Formed) : (d.hintSettle f).Formed := by
  unfold Device.hintSettle
  split
  · exact h
  · exact h.foldl fun _ _ h =>
      have h₁ : Formed _ := h.setTokens.idleBucket.tags.ite h
      h₁.ite (h₁.bump.bump.ite h₁.bump)

theorem returnCells (h : d.Formed) : (d.returnCells f).Formed := h.modFrame.poolsMoved

theorem rxBad (h : d.Formed) : (d.rxBad f).Formed := by
  unfold Device.rxBad
  split
  · exact h
  · have h₁ := (h.modFrame (f := f) (g := fun x => { x with done := true })).hintSettle (f := f) |>.turnBad (f := f) (b := true)
    exact h₁.freeFrame.ite (h₁.freeFrame.ite h₁.returnCells)

/-! ### Ports that go down -/

theorem overLanes {f : Device → Nat → Device} (h : d.Formed) (hf : ∀ d l, Formed d → (f d l).Formed) : (d.overLanes p f).Formed :=
  h.foldl hf

theorem exclude (h : d.Formed) : (d.exclude g n).Formed := h.modGroup.ite h.modGroup.raise

theorem excludeDown (h : d.Formed) : (d.excludeDown p).Formed := h.foldl fun _ _ h => h.exclude

theorem quoteNotice {x : Quote} (h : d.Formed) : (d.quoteNotice q x r p).Formed := h.notice

theorem quotesDown (h : d.Formed) : (d.quotesDown p).Formed := h.foldl fun _ _ h => h.quoteNotice

theorem cutRx (h : d.Formed) : (d.cutRx p).Formed := h.foldl fun _ _ h => h.bump.occPort.rxBad

theorem flushPort (h : d.Formed) : (d.flushPort p).Formed := by
  unfold Device.flushPort
  extract_lets d₁ d₂
  have h₁ : d₁.Formed := h.foldl fun _ _ h => (h.bump.ite h).dropCopy
  have h₂ : d₂.Formed := by
    show Formed (match d₁.spanOf p with | some s => _ | none => _)
    split
    · exact h₁.modSpan
    · exact h₁
  exact h₂.modPort

theorem portDown (h : d.Formed) : (d.portDown p b).Formed := by
  unfold Device.portDown
  extract_lets d₁
  have h₁ : d₁.Formed := h.modPort.ite h
  refine h₁.ite ?_
  exact
    have h₂ : Formed _ := h₁.withFreeCtr.setFlag.bump.raise.setFlag.setFld
    (h₂.overLanes fun _ _ h => h.setFld).modPort.flushPort.cutRx.quotesDown.excludeDown

theorem gateTile (h : d.Formed) : (d.gateTile t).Formed :=
  h.setFlag.ite (h.setFlag.foldl fun _ _ h => h.portDown.modPort)

theorem gateTiles (h : d.Formed) : d.gateTiles.Formed := h.foldl fun _ _ h => h.gateTile

/-! ### Time -/

theorem tickBase (h : d.Formed) : (d.tickBase n).Formed := h.setTb

theorem ppsTake (h : d.Formed) : (d.ppsTake n).Formed := h.ite h.modPlumb

theorem showOfs (h : d.Formed) : d.showOfs.Formed := (h.foldl fun _ _ h => h.setReg64).ite h

theorem tick (h : d.Formed) : d.tick.Formed := by
  unfold Device.tick
  refine h.ite (h.setTb.modPlumb.ite ?_)
  exact
    have h₁ : Formed _ := (h.foldl fun _ _ h => h.tickBase).ite h.tickBase
    h₁.modPlumb.modPlumb.showOfs.ppsTake

theorem ppsPulse (h : d.Formed) : d.ppsPulse.Formed := h.modPlumb.ite h

/-! ### The render store and the records of flows -/

theorem portError (h : d.Formed) : (d.portError p a n).Formed := h.modRstore

theorem stackWake (h : d.Formed) : (d.stackWake s).Formed := h.modRstore.setFlag.ite h.modRstore

theorem requestSend {m : Nat × Nat} (h : d.Formed) : (d.requestSend p m b a n).Formed := by
  unfold Device.requestSend
  split
  · exact h
  · exact h.ite h.stackWake.modRchan.modRstore

theorem requestBlock {m : Nat × Nat} (h : d.Formed) : (d.requestBlock p m b a n).Formed := by
  unfold Device.requestBlock
  split
  · exact h.portError
  · refine h.requestSend.ite ?_
    extract_lets d₁
    have h₁ : d₁.Formed := h.portError.ite h
    split
    · exact h₁.requestSend.ite h₁
    · exact h₁

theorem request {m : Nat × Nat} (h : d.Formed) : (d.request p m a b n).Formed := h.foldl fun _ _ h => h.requestBlock

theorem requestWrite (h : d.Formed) : (d.requestWrite k n).Formed := h.request

theorem requestRead (h : d.Formed) : (d.requestRead k).Formed := h.request

theorem setBase (h : d.Formed) : (d.setBase k bs).Formed := by
  unfold Device.setBase
  split
  · exact h.modFlow
  · exact h.modFlow.ite (h.modFlow.ite h.modFlow)

theorem settleRun (h : d.Formed) : (d.settleRun k).Formed := by
  unfold Device.settleRun
  extract_lets run gone rest d₁
  have h₁ : d₁.Formed := by
    show Formed (match d.baseCopy k with | some b => _ | none => d)
    split
    · exact h.ite h.setBase
    · exact h
  exact h₁.modFlow

theorem addRun {x : RunEntry} (h : d.Formed) : (d.addRun k x).Formed := h.modFlow.settleRun

theorem quietUpdate {us : List Upd} (h : d.Formed) : (d.quietUpdate k us).Formed := h.addRun.ite h

theorem update {us : List Upd} (h : d.Formed) : (d.update k us).Formed := h.quietUpdate

theorem bothUpdate {us : List Upd} (h : d.Formed) : (d.bothUpdate k us).Formed := by
  unfold Device.bothUpdate
  extract_lets d₁
  have h₁ : d₁.Formed := h.quietUpdate
  split
  · exact h₁.modFlow.ite h₁
  · exact h₁

theorem readHome (h : d.Formed) : (d.readHome k).Formed := h.ite h.requestRead

theorem commandUpdate {us : List Upd} (h : d.Formed) : (d.commandUpdate k us).Formed := h.readHome.bothUpdate.requestWrite

theorem dropLock {x : Issuer} (h : d.Formed) : (d.dropLock k x).Formed := by
  unfold Device.dropLock
  split
  · exact h.commandUpdate.unlease.ite h
  · exact h

theorem countUe (h : d.Formed) : (d.countUe c n).Formed := h.modRchan

theorem heapUe (h : d.Formed) : (d.heapUe a).Formed := by
  unfold Device.heapUe
  split
  · exact h
  · split
    · exact h
    · exact h.ite h.countUe.bump.raiseDom

theorem selfRefreshIdle (h : d.Formed) : (d.selfRefreshIdle s).Formed := h.setFlag.ite h

theorem dramRefresh (h : d.Formed) : (d.dramRefresh c k b).Formed :=
  have h₁ : Formed _ := h.foldl fun _ _ h => h.setFlag
  h₁.modRchan.ite h₁.modRchan

theorem absentExpiry {x : FlowId} (h : d.Formed) : (d.absentExpiry x).Formed := h.modFlow

theorem learnExpiry {x : FlowId} (h : d.Formed) : (d.learnExpiry x).Formed := h.modFlow

theorem moved (h : d.Formed) : (d.moved n).Formed := h.modFlow

theorem writeCopy (h : d.Formed) : (d.writeCopy p).Formed := by
  unfold Device.writeCopy
  split
  · exact h.moved.requestWrite.modFlow.ite h
  · exact h

theorem writeBackPeriod (h : d.Formed) : d.writeBackPeriod.Formed := h.ite (h.foldl fun _ _ h => h.writeCopy)

theorem writeBack (h : d.Formed) : (d.writeBack k).Formed := by
  unfold Device.writeBack
  split
  · exact h.moved.requestWrite.modFlow
  · exact h

theorem admitWaiting (h : d.Formed) : (d.admitWaiting c).Formed := h.modRchan

theorem sendReq {x : RReq} (h : d.Formed) : (d.sendReq c x).Formed := by
  unfold Device.sendReq
  extract_lets hit d₁ d₂ d₃
  have h₂ : d₂.Formed := h.occRender.occRender
  have h₃ : d₃.Formed := by
    show Formed (match d₂.locate x.addr with | some l => _ | none => d₂)
    split
    · exact h₂.modRchan
    · exact h₂
  exact h₃.modRchan.admitWaiting

theorem commandOpportunity {xs : List Nat} (h : d.Formed) : (d.commandOpportunity c p xs).Formed := by
  unfold Device.commandOpportunity
  refine h.ite ?_
  extract_lets pick d₁
  clear_value pick
  split
  · exact h.modRchan
  · exact h.modRchan.sendReq

/-! ### Threads and tasks of the scaffold -/

theorem endThread (h : d.Formed) : (d.endThread k).Formed := (h.modScaf).ite h.modScaf.modScaf

theorem taskGone (h : d.Formed) : (d.taskGone i).Formed := by
  unfold Device.taskGone
  split
  · exact h
  · next x _ =>
    extract_lets d₁ d₂ d₃
    have h₃ : d₃.Formed := Formed.unlease (modScaf (h.foldl fun _ _ h => h.dropLock))
    split
    · exact h₃.endThread
    · exact h₃

theorem abortTask (h : d.Formed) : (d.abortTask i).Formed := by
  unfold Device.abortTask
  split
  · exact h
  · extract_lets d₁
    have h₁ : d₁.Formed := h.bump.taskGone
    split
    · refine dropCopy ?_
      split
      · exact h₁.unlease
      · exact h₁
    · exact h₁

theorem taskException {x : Task} {y : Exc} (h : d.Formed) : (d.taskException e t i x y a).Formed :=
  h.setReg.setReg.setReg.setReg.bump.occTask.raiseDom.abortTask

theorem boundary (h : d.Formed) : (d.boundary e t i).Formed := by
  unfold Device.boundary
  split
  · exact h
  · exact h.taskException.ite (h.setThr.ite h)

theorem thrDone {x : Task} (h : d.Formed) : (d.thrDone e t i n x).Formed := h.modTask.bump.occTask.boundary

theorem taskLost (h : d.Formed) : (d.taskLost e i a).Formed := h.raiseDom.abortTask

end Device.Formed

/-- The block that an instruction of a thread leaves has its memories in their one form. -/
def ThrOut.Formed : ThrOut → Prop
  | .done d | .jump d _ | .again d | .excAt d _ _ | .lostAt d _ | .left d | .wait d => d.Formed
  | .exc _ _ | .lost _ => True

namespace Device.Formed

variable {d : Device} {off hi lo n v s r p c l k g a f w q t e i : Nat} {b : Bool} {bs : List Byte}

theorem thrRun {y : Pred} {op enc : Nat} {F : Device → Nat → Task → ThrOut} (h : d.Formed) (hF : ∀ i x, (F d i x).Formed) :
    (d.thrRun e t y op enc F).Formed := by
  unfold Device.thrRun
  extract_lets th
  split
  · next id x _ _ =>
    refine h.ite (h.taskException.ite (h.taskException.ite ((h.taskException.ite h.thrDone).ite (h.ite (h.thrDone.ite ?_)))))
    split
    · exact h.taskException
    · have hx := hF id x
      revert hx
      cases F d id x with
      | done | jump => exact fun hx => thrDone hx
      | again => exact fun hx => boundary hx
      | exc => exact fun _ => h.taskException
      | lost => exact fun _ => h.heapUe.taskLost
      | excAt => exact fun hx => taskException hx
      | lostAt => exact fun hx => (heapUe hx).taskLost
      | left => exact fun hx => (bump hx).occTask
      | wait => exact fun hx => modTask hx
  · exact h

theorem memWrite (h : d.Formed) : (d.memWrite a bs).Formed := by
  unfold Device.memWrite
  refine h.setSram.ite ?_
  split
  · exact h.storeWrite
  · exact h

theorem heapTraffic (h : d.Formed) : (d.heapTraffic e a n b).Formed := by
  unfold Device.heapTraffic
  refine h.ite ?_
  split
  · exact h.request
  · exact h

/-- What stops a store before it is made leaves no block of its own. -/
theorem memCheck_formed {o : ThrOut} {wr : Bool} (e : d.memCheck i b wr a n = some o) : o.Formed := by
  unfold Device.memCheck at e
  split at e
  · cases e; trivial
  · split at e
    · cases e; trivial
    · split at e
      · cases e; trivial
      · obtain ⟨_, _, rfl⟩ := Option.map_eq_some_iff.mp e
        trivial

theorem thrStore {y : Pred} {x : FmtM} (h : d.Formed) : (d.thrStore e t y b x).Formed :=
  h.thrRun fun i x => by
    show ThrOut.Formed (if _ then _ else match d.memCheck i b true _ _ with | some o => o | none => _)
    split
    · trivial
    · split
      · next e => exact memCheck_formed e
      · exact h.heapTraffic.memWrite

theorem saveDone (h : d.Formed) : (d.saveDone e t).Formed := h.endThread.ite h

theorem scafIdle (h : d.Formed) : (d.scafIdle e).Formed := h.modDom.ite h

theorem engineWake (h : d.Formed) : d.engineWake.Formed := (h.foldl fun _ _ h => h.modDom.ite h).ite h

theorem addReady {x : WorkItem} (h : d.Formed) : (d.addReady l x).Formed := h.setReady.engineWake

theorem wakeTask (h : d.Formed) : (d.wakeTask i).Formed := by
  unfold Device.wakeTask
  split
  · exact h.modTask.addReady
  · exact h

theorem timersDue (h : d.Formed) : d.timersDue.Formed := h.modScaf.foldl fun _ _ h => h.wakeTask

theorem pullAge (h : d.Formed) : (d.pullAge l).Formed := by
  unfold Device.pullAge
  refine h.ite ?_
  extract_lets q i
  split
  · exact h.setReady.addReady
  · exact h

theorem tickTask (h : d.Formed) : (d.tickTask n).Formed := by
  unfold Device.tickTask
  extract_lets period last d₁ found
  have h₁ : d₁.Formed := h.modScaf
  refine h.ite (h₁.bump.ite ?_)
  split
  · exact h₁.ite h₁.addReady
  · exact h₁

/-! ### Power, the flash and the recovery loader -/

theorem flashDone (h : d.Formed) : (d.flashDone b).Formed := by
  unfold Device.flashDone
  split
  · exact h
  · extract_lets d₁ buf d₂ d₃
    have h₁ : d₁.Formed := h.setFlag.modPwr
    have h₂ : d₂.Formed := h₁.setFld
    have h₃ : d₃.Formed := h₂.flashProgram
    exact h₁.setFld.raiseOpen.ite (h₂.flashWrite.ite ((h₃.ite h₃.setFld).ite (h₂.foldl fun _ _ h => h.setReg)))

theorem recAnswer {op done crc : Nat} (h : d.Formed) : (d.recAnswer op s done crc bs).Formed := h.modPwr.raise

theorem recRequest {op : Nat} {x : RecReq} {F : Device → Device} (h : d.Formed) (hF : (F d).Formed) : (d.recRequest op x b F).Formed :=
  h.ite (h.recAnswer.ite (h.recAnswer.raiseOpen.ite hF))

theorem recErase {x : RecReq} (h : d.Formed) : (d.recErase x b).Formed := h.recRequest h.flashWrite.recAnswer

theorem recWrite {x : RecReq} (h : d.Formed) : (d.recWrite x bs b).Formed := h.recRequest (h.recAnswer.ite h.flashProgram.recAnswer)

theorem recRead {x : RecReq} (h : d.Formed) : (d.recRead x b).Formed := h.recRequest h.recAnswer

theorem recIdent {x : RecReq} (h : d.Formed) : (d.recIdent x).Formed := h.recRequest h.recAnswer

theorem aliveRise (h : d.Formed) : d.aliveRise.Formed := h.modPwr.ite h

theorem hbToggle (h : d.Formed) : d.hbToggle.Formed := h.modPwr.ite h

theorem safeStop (h : d.Formed) : d.safeStop.Formed := h.ite h.setFld.modPwr.withFault

theorem thermal {x : Int} (h : d.Formed) : (d.thermal s x).Formed :=
  have h₁ : Formed _ := h.setFld
  (h₁.modPwr.ite h₁).ite (h₁.modPwr.raise.ite (h₁.modPwr.ite h₁))

theorem takeOver (h : d.Formed) : d.takeOver.Formed := h.ite (h.foldl fun _ _ h => h.setReg64)

theorem quotePinsEnd (h : d.Formed) : d.quotePinsEnd.Formed := h.modFlow

theorem logReset (h : d.Formed) : d.logReset.Formed := h.withFreeCtr.withFreeCtr.withHawk.logEntry

/-! ### Seats and their rings -/

theorem ringBell {F : Device → Device} (h : d.Formed) (hF : (F d).Formed) : (d.ringBell F).Formed := hF.ite h

theorem cmdDoorbell (h : d.Formed) : (d.cmdDoorbell s r v).Formed := h.setFld.ite h.setFlag

theorem noticeDoorbell (h : d.Formed) : (d.noticeDoorbell s r v).Formed := h.setFld.ite h.setFlag

theorem coalesceTimer (h : d.Formed) : (d.coalesceTimer s r).Formed := h.sendMsix.ite h

theorem holdoffExpiry (h : d.Formed) : (d.holdoffExpiry s c).Formed := by
  unfold Device.holdoffExpiry
  split
  · exact h.stampEvent.setSlot.ite h
  · exact h

theorem showSeat (h : d.Formed) : (d.showSeat s).Formed := h.setFlag.setFld.setFlag

theorem seatPresent (h : d.Formed) : (d.seatPresent s l).Formed := h.ite h.modSeat.showSeat.raise

theorem seatComes (h : d.Formed) : (d.seatComes s l).Formed := by
  unfold Device.seatComes
  split
  · exact h.seatPresent
  · exact h.seatPresent
  · exact h

/-! ### Quotes, the scheduler and the exports -/

theorem showQuotes (h : d.Formed) : d.showQuotes.Formed := h.setReg.setFlag

theorem quoteBecomesActive (h : d.Formed) : (d.quoteBecomesActive q).Formed := h.showQuotes.ite h

theorem policerRefill (h : d.Formed) : d.policerRefill.Formed := h.withQuotes

theorem refillPort (h : d.Formed) : (d.refillPort p).Formed :=
  h.ite (h.modSched.foldl fun _ _ h => h.ite h.setTokens.idleBucket)

theorem watchdogDisarm (h : d.Formed) : (d.watchdogDisarm p c).Formed := h.modPort.tags.ite h

theorem calendarSlot (h : d.Formed) : (d.calendarSlot p).Formed := h.ite (h.ite h.occPort).modSched

theorem unpause (h : d.Formed) : (d.unpause p c).Formed := h.ite h.setFlag.modPort.tags

theorem pauseExpiry (h : d.Formed) : (d.pauseExpiry p c).Formed := by
  unfold Device.pauseExpiry
  split
  · exact h.unpause.ite h
  · exact h

theorem telemTake (h : d.Formed) : (d.telemTake k).Formed := h.modTelem

theorem exportWalk (h : d.Formed) : (d.exportWalk s).Formed :=
  h.ite (h.telemTake.ite (h.telemTake.bump.ite h.telemTake.modTelem))

/-! ### Links -/

theorem startWake (h : d.Formed) : (d.startWake p b).Formed := h.modPort.ite h

theorem txWake (h : d.Formed) : (d.txWake p).Formed := h.ite h.startWake

theorem laneRefresh (h : d.Formed) : (d.laneRefresh p).Formed := h.startWake.ite h

theorem verifySend (h : d.Formed) : (d.verifySend p).Formed := h.modPort.ite h

theorem setTaps {pre main post : Nat} (h : d.Formed) : (d.setTaps l pre main post).Formed := h.setReg

theorem loadTaps (h : d.Formed) : (d.loadTaps l).Formed := by
  unfold Device.loadTaps
  split
  · exact h.setTaps
  · exact h

theorem startAttempt (h : d.Formed) : (d.startAttempt p).Formed := (h.overLanes fun _ _ h => h.loadTaps.bump.setFlag).modPort

theorem bringUpAttempt (h : d.Formed) : (d.bringUpAttempt p b).Formed := by
  unfold Device.bringUpAttempt
  split
  · exact h.startAttempt.ite h
  · exact h.modPort.ite h
  · exact h

theorem retry (h : d.Formed) : (d.retry p).Formed := h.startAttempt.ite h

theorem tileCalibrated (h : d.Formed) : (d.tileCalibrated t).Formed := h.ite (h.modPwr.foldl fun _ _ h => h.startAttempt)

theorem setTxAsleep (h : d.Formed) : (d.setTxAsleep p b).Formed := (h.setFlag.overLanes fun _ _ h => h.setFlag).modPort

theorem txAwake (h : d.Formed) : (d.txAwake p).Formed := by
  unfold Device.txAwake
  split
  · exact h.ite h.setTxAsleep.modPort
  · exact h

theorem setRxAsleep (h : d.Formed) : (d.setRxAsleep p b).Formed := h.setFlag.overLanes fun _ _ h => h.setFlag

theorem rxAwake (h : d.Formed) : (d.rxAwake p).Formed := h.setRxAsleep.modPort.ite h

theorem coefficientRequest (h : d.Formed) : (d.coefficientRequest l c b).Formed := by
  unfold Device.coefficientRequest
  split
  · exact h
  · exact h.ite ((h.setTaps.modPort.ite h.modPort).ite ((h.setTaps.modPort.ite h.modPort).ite
      ((h.setTaps.modPort.ite h.modPort).ite h.modPort)))

theorem helloExpiry (h : d.Formed) : (d.helloExpiry p).Formed := by
  unfold Device.helloExpiry
  split
  · exact h.ite h.setFlag.modPort.startWake
  · exact h

theorem signalReturn (h : d.Formed) : (d.signalReturn l).Formed := by
  unfold Device.signalReturn
  extract_lets d₁
  have h₁ : d₁.Formed := h.setFlag
  split
  · exact h₁.modPort.ite h₁
  · exact h₁

/-! ### Frames that a span receives -/

theorem dropStream (h : d.Formed) : (d.dropStream w c).Formed := (h.ite h.bump).modSpan

theorem countBytes (h : d.Formed) : (d.countBytes f).Formed := by
  unfold Device.countBytes
  split
  · exact modFrame (h.foldl fun _ _ h => h.update)
  · exact h

theorem overlenCheck (h : d.Formed) : (d.overlenCheck f).Formed := by
  unfold Device.overlenCheck
  split
  · refine Formed.ite ?_ h
    split
    · exact h.bump.turnBad.ite h
    · exact h
  · exact h

theorem endCheck (h : d.Formed) : (d.endCheck f).Formed := by
  unfold Device.endCheck
  split
  · exact h.bump.turnBad.ite h
  · exact h

theorem joinEntry (h : d.Formed) : (d.joinEntry f).Formed := by
  unfold Device.joinEntry
  split
  · exact h.modFrame.modPipe
  · exact h

theorem frameWhole (h : d.Formed) : (d.frameWhole f).Formed := by
  unfold Device.frameWhole
  split
  · exact h
  · exact
      have h₁ : Formed _ := h.modFrame.countBytes.returnCells.hintSettle
      have h₂ : Formed _ := (h₁.endCheck.ite h₁).overlenCheck
      h₂.joinEntry.ite (h₂.freeFrame.ite h₂)

theorem writeCells (h : d.Formed) : (d.writeCells f).Formed := by
  unfold Device.writeCells
  split
  · exact h
  · exact h.ite h.setFrame

theorem addFrame {x : Frame} (h : d.Formed) : (d.addFrame x).Formed := h.modBuf.writeCells

theorem admitFrame (h : d.Formed) : (d.admitFrame p c n).1.Formed := by
  unfold Device.admitFrame
  extract_lets d₁
  have h₁ : d₁.Formed := h.pfcCheck
  split
  · exact h₁.occPort.occPort
  · exact h₁.bump.occPort

theorem takeIn {x : Frame} (h : d.Formed) : (d.takeIn x b).Formed := by
  unfold Device.takeIn
  refine h.bump.addFrame.ite (h.bump.addFrame.ite (h.bump.occPort.addFrame.ite ?_))
  extract_lets prov
  split
  · next e => exact (h.admitFrame.of_pair e).addFrame
  · next e => exact (h.admitFrame.of_pair e).addFrame.poolsMoved

theorem spanFrame (h : d.Formed) : (d.spanFrame w c bs a).Formed := by
  unfold Device.spanFrame
  exact h.bump.occPort.ite h.bump.occPort.occPort.takeIn.frameWhole

theorem takeFrames (h : d.Formed) : (d.takeFrames w c n).Formed := by
  induction n generalizing d with
  | zero => exact h
  | succ n ih =>
    unfold Device.takeFrames
    extract_lets x put
    split
    · exact h
    · exact h.bump.bump.modSpan.ite ((ih h.modSpan).ite (h.ite (ih h.modSpan.spanFrame)))

theorem takeSlot {ws : List (Nat × DWord)} (h : d.Formed) : (d.takeSlot w ws).Formed := by
  unfold Device.takeSlot
  split
  · exact h
  · extract_lets ch first x new
    refine h.bump.dropStream.ite ?_
    clear_value new
    split
    · exact h
    · exact h.modSpan.takeFrames

theorem deliverOne {x : RxContainer} (h : d.Formed) : (d.deliverOne s w x).Formed :=
  have h₁ : Formed _ := h.ite (h.foldl fun _ _ h => h.dropStream)
  modSpan (h₁.foldl fun _ _ h => h.takeSlot)

theorem deliverHeld (h : d.Formed) : (d.deliverHeld w).Formed := h.ite (h.foldl fun _ _ h => h.deliverOne.ite h)

/-! ### Defects and protection of spans -/

theorem apsTurn (h : d.Formed) : (d.apsTurn w b).Formed := by
  unfold Device.apsTurn
  extract_lets d₁
  have h₁ : d₁.Formed := h.setFlag.bump
  refine deliverHeld ?_
  split
  · exact h₁.withFreeCtr.raise.bump.ite h₁.withFreeCtr.raise
  · exact h₁.withFreeCtr.raise

theorem apsLook (h : d.Formed) : (d.apsLook s).Formed := by
  unfold Device.apsLook
  extract_lets w
  split
  · exact h
  · refine h.ite ?_
    exact
      have h₁ : Formed _ := h.modSpan
      have h₂ : Formed _ := h₁.modSpan.ite ((h₁.modSpan.ite h₁.modSpan).ite h₁)
      have h₃ : Formed _ := h₂.ite h₂.setFld
      h₃.ite h₃.apsTurn

theorem showSpan (h : d.Formed) : (d.showSpan s).Formed := h.setFlag.flushPort.ite h.setFlag

theorem defectEvent (h : d.Formed) : (d.defectEvent s b).Formed := h.withFreeCtr.withFreeCtr.raise

theorem setDefect (h : d.Formed) : (d.setDefect s n b).Formed := h.ite h.setFlag.defectEvent.showSpan

theorem lwClear (h : d.Formed) : (d.lwClear s).Formed := h.ite (h.modSpan.ite (h.setDefect.ite h))

theorem laneSignal {F : Device → Nat → Device} (hF : (F d l).Formed) : (d.laneSignal l F).Formed := by
  unfold Device.laneSignal
  extract_lets was d₁
  have h₁ : d₁.Formed := hF
  refine h₁.ite ?_
  split
  · exact h₁.defectEvent.showSpan.lwClear.apsLook
  · exact h₁

/-! ### Resets -/

/-- A reset keeps some registers, the bytes of the render store, the flash and host memory, and clears the rest. -/
theorem coreReset (h : d.Formed) : (d.coreReset b).Formed := by
  refine setFld (setFlag (setFlag (setFld (foldl ?_ fun _ _ h => h.setFlag))))
  have ht := h.takeOver
  simp only [Device.Formed, Device.canonical, Bool.and_eq_true, List.all_eq_true] at ht ⊢
  obtain ⟨⟨⟨⟨hregs, -⟩, hbytes⟩, hflash⟩, hseats⟩ := ht
  refine ⟨⟨⟨⟨DMap.wf_filter hregs, rfl⟩, hbytes⟩, hflash⟩, fun x hx => ?_⟩
  obtain ⟨y, hy, rfl⟩ := List.mem_map.mp hx
  exact hseats y hy

theorem warmReset (h : d.Formed) : (d.warmReset c).Formed := h.quotePinsEnd.coreReset.setFld.logReset.modPwr

theorem s5Over (h : d.Formed) : d.s5Over.Formed := by
  unfold Device.s5Over
  split
  · exact h.warmReset.ite h
  · exact h

theorem dueBefore (h : d.Formed) (hn : d.noneDueBefore 6 = true) : (d.dueBefore 6).Formed := by
  rwa [dueBefore_of_noneDueBefore hn]

end Device.Formed

/-- Every command acts on the block alone and leaves the commands that wait. -/
theorem exec_next (c : Instr) (d : Device) (w : List Instr) : ∃ t, exec c ⟨d, w⟩ = .next ⟨t, w⟩ := by
  cases c <;> exact ⟨_, rfl⟩

/-- The commands of `keepsForm`, one by one: what each does to the block keeps the form. -/
theorem exec_keepsForm {c : Instr} {d t : Device} {w w' : List Instr} (hc : d.keepsForm c = true) (h : d.Formed)
    (e : exec c ⟨d, w⟩ = .next ⟨t, w'⟩) : t.Formed := by
  cases c with
  | tick => cases e; exact h.tick.gateTiles.s5Over
  | ppsOut => cases e; exact (h.dueBefore hc).ppsPulse
  | st | std => cases e; exact h.thrStore
  | flashDone => cases e; exact h.flashDone
  | recoveryErase => cases e; exact h.recErase
  | recoveryWrite => cases e; exact h.recWrite
  | recoveryRead => cases e; exact h.recRead
  | recoveryIdent => cases e; exact h.recIdent
  | commandDoorbell => cases e; exact (h.ringBell h.cmdDoorbell)
  | noticeDoorbell => cases e; exact (h.ringBell h.noticeDoorbell)
  | quoteActive => cases e; exact h.quoteBecomesActive
  | selfRefreshIdle => cases e; exact h.selfRefreshIdle
  | policerRefill => cases e; exact h.policerRefill
  | bucketRefill => cases e; exact h.refillPort
  | watchdogDisarm => cases e; exact h.watchdogDisarm
  | txWake => cases e; exact h.txWake
  | laneRefresh => cases e; exact h.laneRefresh
  | verifySend => cases e; exact h.verifySend
  | contextSaveDone => cases e; exact h.saveDone
  | absentExpiry => cases e; exact h.absentExpiry
  | learnWindowExpiry => cases e; exact h.learnExpiry
  | dramRefresh => cases e; exact h.dramRefresh
  | coalesceTimer => cases e; exact h.coalesceTimer
  | alive => cases e; exact h.aliveRise
  | hbToggle => cases e; exact h.hbToggle
  | scafIdle => cases e; exact h.scafIdle
  | exportWalk => cases e; exact h.exportWalk
  | safeStop => cases e; exact h.safeStop
  | bringUpAttempt => cases e; exact h.bringUpAttempt
  | retry => cases e; exact h.retry
  | signalReturn => cases e; exact (Device.Formed.laneSignal h.signalReturn)
  | txAwake => cases e; exact h.txAwake
  | rxAwake => cases e; exact h.rxAwake
  | coefficientRequest => cases e; exact h.coefficientRequest
  | pauseExpiry => cases e; exact h.pauseExpiry
  | helloExpiry => cases e; exact h.helloExpiry
  | writeBackPeriod => cases e; exact h.writeBackPeriod
  | writeBackComplete => cases e; exact h.writeBack
  | commandOpportunity => cases e; exact h.commandOpportunity
  | calendarSlot => cases e; exact h.calendarSlot
  | timerDue => cases e; exact h.timersDue
  | pullAge => cases e; exact h.pullAge
  | tickTask => cases e; exact h.tickTask
  | tileCalibrated => cases e; exact h.tileCalibrated
  | holdoffExpiry => cases e; exact h.holdoffExpiry
  | thermal => cases e; exact h.thermal
  | seatPresent => cases e; exact h.seatComes
  | _ => cases hc

/-- Settles O58: every operation that these commands are made of keeps the form (`Device.Formed`), so each command does. -/
theorem canonicalKept : Obligations.CanonicalKept := by
  unfold Obligations.CanonicalKept
  intro c d t w w' hc h e
  exact exec_keepsForm hc h e

/-- Settles O54, the clauses on `step` by its definition, the last by `exec_next`. -/
theorem stepRunsTheFront : Obligations.StepRunsTheFront := by
  unfold Obligations.StepRunsTheFront
  exact ⟨fun _ _ _ => rfl, fun _ => rfl, exec_next⟩

end Machine

end Sys2Proof
end

section
/-! PROOFS. A write of a register of the buffer or of a port lets the pools settle (R219, R224). What then changes by itself is no field of
the written register, except where the register written counts the pause frames that the settling sends. -/

namespace Sys2Proof.Machine

/-- Port 8, of partition 0 and so Seat A's, is up, and its class 0, lossless, shows XOFF though its account is empty again. -/
def xoffHeld : Device :=
  let d := { Device.reset with pwr := { Power.reset with phase := .started, squelch := false } }
  ((d.setFld (Off.portPfc 8) 6 0 1).setReg (Off.portStatus 8) (2 ^ 31 + 1)).modBuf fun b => { b with asserted := [(8, 0)] }

/-- The offset of PORT_PFC_TX of port 8 as a command carries it. -/
def pfcTxOff : BitVec 26 := BitVec.ofNat 26 (Off.portPfcTx 8)

/-- PORT_PFC_TX: one RC counter (R313). -/
def pfcTxDef : RegDef := ⟨"PORT_PFC_TX", 0x2400144, [(512, 0x1000)], 0, .single, [⟨31, 0, .rc, .live, []⟩]⟩

theorem regDef?_pfcTxOff : regDef? pfcTxOff.toNat = some pfcTxDef := by decide +kernel

theorem roleOf_pfcTxOff : roleOf pfcTxOff.toNat = .plain := by decide +kernel

theorem xoffHeld_mayReach : xoffHeld.mayReach 0 pfcTxOff.toNat = true := by decide +kernel

/-- A write of 0 to PORT_PFC_TX sets no field, but the pools settle: XOFF ends, and the pause frame that says so is counted. -/
theorem xoffHeld_regWrite_pfcTx : xoffHeld.reg pfcTxOff.toNat = 0 ∧ (xoffHeld.regWrite 0 pfcTxOff.toNat 0).reg pfcTxOff.toNat = 1 := by
  decide +kernel

/-- Refutes O1 at its first clause: `xoffHeld` and a write of PORT_PFC_TX meet its hypotheses, and the RC field, which the clause says
stays, goes from 0 to 1. -/
theorem not_registerAccess : ¬ Obligations.RegisterAccess := by
  unfold Obligations.RegisterAccess
  rintro ⟨hwrite, -⟩
  obtain ⟨t, ht, htaken⟩ := hwrite 0 pfcTxOff 0 pfcTxDef xoffHeld [] xoffHeld_mayReach (by decide) (by decide) regDef?_pfcTxOff rfl
    roleOf_pfcTxOff (by decide)
  cases ht
  obtain ⟨hold, hnew⟩ := xoffHeld_regWrite_pfcTx
  have hfalse : fieldsTaken pfcTxDef pfcTxOff.toNat 0 0 1 = true := by
    rw [← hold, ← hnew]
    exact htaken
  exact absurd hfalse (by decide)

end Sys2Proof.Machine
end

section
/-! PROOFS. What events, notices and completions leave alone: the block but for the Hawk, the seats, the leases and the counts, and every
register but those of the Hawk and of the notice rings (R429 to R444, R410 to R413). -/

namespace Sys2Proof.Machine

theorem Device.fld_congr {d t : Device} {off hi lo : Nat} (h : t.reg off = d.reg off) : t.fld off hi lo = d.fld off hi lo := by
  rw [Device.fld, Device.fld, h]

theorem Device.flag_congr {d t : Device} {off n : Nat} (h : t.reg off = d.reg off) : t.flag off n = d.flag off n := by
  rw [Device.flag, Device.flag, Device.fld_congr h]

/-- The registers that an event, a notice or a completion may write: the Hawk's page, SEAT_NR_LOST, at 0x010 of a seat's page, and
SEAT_NR_TAIL, at 0x0C of every 0x20 bytes of one; the last two whatever seat and ring are named. -/
def noteReg (o : Nat) : Bool := decide (0x100000 ≤ o ∧ o < 0x101000) || decide (o % 0x1000 = 0x10) || decide (o % 0x20 = 0xC)

theorem noteReg_hawkSticky {n : Nat} (h : n < 16) : noteReg (Off.hawkSticky n) = true := by
  have hpage : 0x100000 ≤ Off.hawkSticky n ∧ Off.hawkSticky n < 0x101000 := by unfold Off.hawkSticky; omega
  simp [noteReg, hpage]

theorem noteReg_seatNrLost (s : Nat) : noteReg (Off.seatNrLost s) = true := by
  have hplace : Off.seatNrLost s % 0x1000 = 0x10 := by unfold Off.seatNrLost; omega
  simp [noteReg, hplace]

theorem noteReg_seatNrTail (s r : Nat) : noteReg (Off.seatNrTail s r) = true := by
  have hplace : Off.seatNrTail s r % 0x20 = 0xC := by unfold Off.seatNrTail; omega
  simp [noteReg, hplace]

theorem noteReg_pwrStrap : noteReg Off.pwrStrap = false := rfl

theorem noteReg_pwrSwatch : noteReg Off.pwrSwatch = false := rfl

theorem noteReg_darbyFlashCmd : noteReg Off.darbyFlashCmd = false := rfl

/-- `t` is `d` after events, notices and completions at most. -/
def Device.Told (d t : Device) : Prop :=
  t = { d with regs := t.regs, hawk := t.hawk, fault := t.fault, seats := t.seats, perf := t.perf, freeCtr := t.freeCtr } ∧
    d.regsKept t noteReg

namespace Device.Told

variable {d t : Device} {off hi lo n v s r k l a i : Nat} {b : Bool} {bs : List Byte}

/-! ### What is kept -/

theorem pwr (h : d.Told t) : t.pwr = d.pwr := by rw [h.1]

theorem reg (h : d.Told t) (ho : noteReg off = false) : t.reg off = d.reg off := h.2 off ho

theorem fld (h : d.Told t) (ho : noteReg off = false) : t.fld off hi lo = d.fld off hi lo := Device.fld_congr (h.reg ho)

theorem flag (h : d.Told t) (ho : noteReg off = false) : t.flag off n = d.flag off n := Device.flag_congr (h.reg ho)

/-! ### Branches and loops -/

theorem refl (d : Device) : d.Told d := ⟨rfl, fun _ _ => rfl⟩

theorem ite {a b : Device} {q : Prop} {_ : Decidable q} (ha : d.Told a) (hb : d.Told b) : d.Told (if q then a else b) := by
  split
  · exact ha
  · exact hb

theorem foldl {β : Type} {xs : List β} {f : Device → β → Device} (h : d.Told t) (hf : ∀ t x, d.Told t → d.Told (f t x)) :
    d.Told (xs.foldl f t) := by
  induction xs generalizing t with
  | nil => exact h
  | cons x xs ih => exact ih (hf t x h)

/-! ### Single updates -/

theorem parts {w : Hawk} {x : FaultMgr} {y : NMap Seat} {z : Perf} (h : d.Told t) :
    d.Told { t with hawk := w, fault := x, seats := y, perf := z, freeCtr := n } := ⟨by rw [h.1], h.2⟩

theorem setReg (h : d.Told t) (ho : noteReg off = true) : d.Told (t.setReg off v) := by
  refine ⟨by rw [h.1]; rfl, fun o hn => ?_⟩
  have hne : o ≠ off := by
    rintro rfl
    simp [ho] at hn
  rw [t.reg_setReg_other v hne, h.reg hn]

theorem setFld (h : d.Told t) (ho : noteReg off = true) : d.Told (t.setFld off hi lo v) := h.setReg ho
theorem setFlag (h : d.Told t) (ho : noteReg off = true) : d.Told (t.setFlag off n b) := h.setReg ho
theorem bump (h : d.Told t) (ho : noteReg off = true) : d.Told (t.bump off n) := h.setReg ho
theorem modSeat {f : Seat → Seat} (h : d.Told t) : d.Told (t.modSeat s f) := h.parts
theorem modNring {f : NoticeRing → NoticeRing} (h : d.Told t) : d.Told (t.modNring s r f) := h.modSeat
theorem modCring {f : CmdRing → CmdRing} (h : d.Told t) : d.Told (t.modCring s r f) := h.modSeat
theorem occSeat {part : Option Nat} (h : d.Told t) : d.Told (t.occSeat k s n part) := h.parts
theorem setSlot {x : PendSlot} (h : d.Told t) : d.Told (t.setSlot x) := h.parts
theorem unlease (h : d.Told t) : d.Told (t.unlease k i) := h.parts
theorem takeSeq (h : d.Told t) : d.Told t.takeSeq.1 := h.parts

/-! ### Notices and events -/

theorem dropNotice (h : d.Told t) : d.Told (t.dropNotice s r n) := (h.bump (noteReg_seatNrLost s)).modNring.occSeat

theorem putEntry (h : d.Told t) : d.Told (t.putEntry s r n b v k bs) := by
  unfold Device.putEntry
  exact (h.modSeat.setFld (noteReg_seatNrTail s r)).modNring

theorem sendMsix (h : d.Told t) : d.Told (t.sendMsix s r) := by
  unfold Device.sendMsix
  exact h.modSeat.modNring

theorem coalesce (h : d.Told t) : d.Told (t.coalesce s r) := h.modNring.sendMsix.ite h.modNring

theorem putNotice {o : Option (List Byte)} (h : d.Told t) : d.Told (t.putNotice s r n v k bs o b).1 := by
  unfold Device.putNotice
  extract_lets need ring avail t₁ t₂ t₃
  have h₂ : d.Told t₂ := (h.modNring.ite h).putEntry
  have h₃ : d.Told t₃ := by
    cases o with
    | none => exact h₂
    | some x => exact h₂.putEntry
  split
  · exact h.dropNotice
  · split
    · exact h.dropNotice
    · exact h₃.occSeat.coalesce

theorem deliver {x : Event} (h : d.Told t) : d.Told (t.deliver s x v k) := h.putNotice.ite h

theorem logEntry {x : LogEntry} (h : d.Told t) : d.Told (t.logEntry x) :=
  have h₁ : d.Told _ := (h.bump rfl).ite h
  h₁.parts

theorem stampEvent {x : Event} (h : d.Told t) (hx : x.src < 512) : d.Told (t.stampEvent x) :=
  have h₁ : d.Told _ := h.takeSeq.setFlag (noteReg_hawkSticky (by omega))
  have h₂ : d.Told _ := (h₁.setFlag rfl).ite h₁
  (h₂.logEntry.ite h₂).deliver.deliver

theorem raiseEvent {x : Event} (h : d.Told t) (hx : x.src < 512) : d.Told (t.raiseEvent x) := by
  have hm : noteReg Off.hawkMerged = true := rfl
  unfold Device.raiseEvent
  extract_lets now fresh
  have hfresh : d.Told fresh := (h.stampEvent hx).setSlot
  refine (h.stampEvent hx).ite ?_
  split
  · exact hfresh
  · split
    · exact h.setSlot.bump hm
    · exact (h.setSlot.bump hm).ite hfresh
    · exact hfresh

theorem raise (h : d.Told t) (hs : s < 512) : d.Told (t.raise s v k a n) := h.raiseEvent hs

theorem raiseOpen (h : d.Told t) (hs : s < 512) : d.Told (t.raiseOpen s v) :=
  have h₁ : d.Told _ := h.parts
  h₁.raise hs

/-! ### Completions -/

theorem completeOne {op st tag : Nat} (h : d.Told t) (hop : op ≠ 0x0B) :
    d.Told (t.completeOne s r op st tag n bs) := by
  unfold Device.completeOne
  extract_lets t₀ t₁ mute t₂ ring
  have h₁ : d.Told t₁ := by
    rw [show t₁ = t₀ from if_neg fun hq => hop hq.1]
    exact h.unlease
  have h₂ : d.Told t₂ := h₁.modCring
  exact h₂.dropNotice.ite (h₂.modNring.ite (h₂.takeSeq.putNotice.ite h₂.takeSeq.putNotice.modNring))

theorem releaseBarriers (h : d.Told t) : d.Told t.releaseBarriers :=
  h.foldl fun t i h => by
    split
    · exact (h.completeOne (by simp)).ite h
    · exact h

theorem complete {op st tag : Nat} (h : d.Told t) (hop : op ≠ 0x0B) : d.Told (t.complete s r op st tag n bs) :=
  (h.completeOne hop).foldl fun _ _ h => h.releaseBarriers

end Device.Told

end Sys2Proof.Machine
end

section
/-! PROOFS. A start, ALIVE and HB, the flash and the check of a swatch (R29, R484 to R496): what each operation answers, case by case. -/

namespace Sys2Proof

theorem leNat_lt (bs : List Byte) : leNat bs < 256 ^ bs.length := by
  induction bs with
  | nil => simp [leNat]
  | cons b bs ih =>
    have hb : b.toNat < 256 := b.isLt
    rw [leNat, List.length_cons, Nat.pow_succ]
    omega

namespace Machine

namespace Device

variable {d : Device}

/-! ### What leaves the power unit alone -/

theorem pwr_foldl {β : Type} {f : Device → β → Device} (hf : ∀ d x, (f d x).pwr = d.pwr) (xs : List β) (d : Device) :
    (xs.foldl f d).pwr = d.pwr := by
  induction xs generalizing d with
  | nil => rfl
  | cons x xs ih => exact (ih (f d x)).trans (hf d x)

theorem pwr_loadTaps (d : Device) (l : Nat) : (d.loadTaps l).pwr = d.pwr := by
  unfold loadTaps
  split
  · rw [setTaps, setReg_pwr]
  · rfl

theorem pwr_startAttempt (d : Device) (p : Nat) : (d.startAttempt p).pwr = d.pwr := by
  unfold startAttempt overLanes
  refine pwr_foldl ?_ (d.lanesOf p) d
  intro d l
  rw [setFlag_pwr, bump_pwr, pwr_loadTaps]

/-! ### The straps and the time of a start (R363, R364, R484) -/

theorem pwr_sampleStraps (d : Device) (s : Straps) : (d.sampleStraps s).pwr = d.pwr := by
  unfold sampleStraps
  extract_lets d₁ d₂
  have h₂ : d₂.pwr = d.pwr := by simp only [d₂, d₁, setFlag_pwr, setFld_pwr]
  split
  · rw [setFld_pwr, h₂]
  · exact h₂

/-- SWATCH of PWR_STRAP stands apart from the other straps. -/
theorem fld_sampleStraps_swatch (d : Device) (s : Straps) : (d.sampleStraps s).fld Off.pwrStrap 1 0 = s.swatch.toNat := by
  unfold sampleStraps
  extract_lets d₁ d₂
  have h₂ : d₂.fld Off.pwrStrap 1 0 = s.swatch.toNat := by
    simp only [d₂, d₁, setFlag]
    rw [fld_setFld_apart _ _ _ (by omega) (by omega) (by omega), fld_setFld_apart _ _ _ (by omega) (by omega) (by omega),
      fld_setFld_self _ _ _ (by omega) (by omega)]
    exact Nat.mod_eq_of_lt s.swatch.isLt
  split
  · rw [fld_setFld_apart _ _ _ (by omega) (by omega) (by omega), h₂]
  · exact h₂

theorem pwr_startTime (d : Device) : d.startTime.pwr = d.pwr := by
  unfold startTime
  extract_lets d₁ base d₂
  have h₁ : d₁.pwr = d.pwr := d.setFlag_pwr _ _ _
  have h₂ : d₂.pwr = d.pwr := (pwr_foldl (fun e i => e.setTb_pwr (i + 1) _) (List.range 7) d₁).trans h₁
  split
  · exact h₁
  · split
    · rw [setFlag_pwr, h₂]
    · exact h₂

theorem reg_startTime_other (d : Device) {off : Nat} (h : off ≠ Off.plumbStatus) : d.startTime.reg off = d.reg off := by
  unfold startTime
  extract_lets d₁ base d₂
  have h₁ : d₁.reg off = d.reg off := d.reg_setFld_other _ _ _ h
  have h₂ : d₂.reg off = d.reg off := List.foldlRecOn (motive := fun t : Device => t.reg off = d.reg off) _ _ h₁ fun _ ht _ _ => ht
  split
  · exact h₁
  · split
    · exact (d₂.reg_setFld_other _ _ _ h).trans h₂
    · exact h₂

/-- A wake source that starts the device from Off tells so. -/
theorem Told.offWake {t : Device} (h : d.Told t) : d.Told t.offWake := by
  unfold Device.offWake
  refine h.ite ?_
  exact h.raise (by simp)

theorem Told.logReset {t : Device} (h : d.Told t) : d.Told t.logReset := by
  unfold Device.logReset
  have h₁ : d.Told { t with freeCtr := t.freeCtr + 1 + 1 } := h.parts
  exact h₁.takeSeq.logEntry

/-- The block of a start once the straps are sampled and the time runs, a cold start being logged. -/
def startClock (d : Device) (s : Straps) : Device :=
  let y := (d.sampleStraps s).startTime
  if d.pwr.kind = .cold then y.logReset.offWake else y

theorem told_startClock (d : Device) (s : Straps) : (d.sampleStraps s).startTime.Told (d.startClock s) :=
  Told.ite (Told.refl _).logReset.offWake (Told.refl _)

theorem pwr_startClock (d : Device) (s : Straps) : (d.startClock s).pwr = d.pwr := by
  rw [(d.told_startClock s).pwr, pwr_startTime, pwr_sampleStraps]

theorem fld_startClock_swatch (d : Device) (s : Straps) : (d.startClock s).fld Off.pwrStrap 1 0 = s.swatch.toNat := by
  rw [(d.told_startClock s).fld noteReg_pwrStrap, fld_congr (reg_startTime_other _ (by simp [Off.pwrStrap, Off.plumbStatus])), fld_sampleStraps_swatch]

/-! ### The steps of a start (R485, R486, R491) -/

/-- The swatch that a start looks at first (R490, R491). -/
def firstSwatch (d : Device) (s : Straps) : Nat := if d.pwr.kind = .cold then s.swatch.toNat else (d.startClock s).activeSwatch

section
variable {s : Straps} {kept : Bool} {bad0 bad1 : List Nat} (hd : d.pwr.phase = .waits)
include hd

/-- A start that waits runs from its clock on. -/
theorem startUp_of_waits :
    d.startUp s kept bad0 bad1 =
      if s.testmode then (d.startClock s).modPwr fun p => { p with phase := .test }
      else if s.bootsrc then (d.startClock s).toRecovery
      else ((d.startClock s).chooseSwatch (d.firstSwatch s)).elim (d.startClock s).toRecovery
        fun n => (d.startClock s).startUnder n (d.firstSwatch s) kept bad0 bad1 := by
  have hw : ¬ (d.pwr.phase != .waits) = true := by simp [hd]
  unfold startUp
  rw [if_neg hw]
  extract_lets d₁ d₂ first
  have h₂ : d₂ = d.startClock s := by
    simp only [d₂, d₁, startClock, pwr_startTime, pwr_sampleStraps]
  have hfirst : first = d.firstSwatch s := by
    simp only [first, firstSwatch, h₂, pwr_startClock]
  rw [h₂, hfirst]
  refine ite_congr rfl (fun _ => rfl) fun _ => ite_congr rfl (fun _ => rfl) fun _ => ?_
  split
  · next h => rw [h, Option.elim_none]
  · next h => rw [h, Option.elim_some]

theorem startUp_testmode (ht : s.testmode = true) :
    d.startUp s kept bad0 bad1 = (d.startClock s).modPwr fun p => { p with phase := .test } := by
  rw [startUp_of_waits hd, if_pos ht]

theorem startUp_bootsrc (ht : s.testmode = false) (hb : s.bootsrc = true) : d.startUp s kept bad0 bad1 = (d.startClock s).toRecovery := by
  rw [startUp_of_waits hd, if_neg (by simp [ht]), if_pos hb]

theorem startUp_swatch (ht : s.testmode = false) (hb : s.bootsrc = false) :
    d.startUp s kept bad0 bad1 = ((d.startClock s).chooseSwatch (d.firstSwatch s)).elim (d.startClock s).toRecovery
      fun n => (d.startClock s).startUnder n (d.firstSwatch s) kept bad0 bad1 := by
  rw [startUp_of_waits hd, if_neg (by simp [ht]), if_neg (by simp [hb])]

end

/-- After the steps under a swatch the tiles are calibrated, or, where the wake leads to Doze, the device has started. -/
theorem phase_startDone (d : Device) : d.startDone.pwr.phase = .tiles ∨ d.startDone.pwr.phase = .started := by
  unfold startDone
  extract_lets doze d₁
  split
  · exact .inr rfl
  · exact .inl rfl

theorem phase_startUnder (d : Device) (n first : Nat) (kept : Bool) (bad0 bad1 : List Nat) :
    (d.startUnder n first kept bad0 bad1).pwr.phase = .tiles ∨ (d.startUnder n first kept bad0 bad1).pwr.phase = .started := by
  unfold startUnder
  extract_lets
  exact phase_startDone _

/-! ### Tiles (R485) -/

theorem pwr_tileCalibrated {t : Nat} (ht : t < 64) (hp : d.pwr.phase = .tiles) (hn : d.pwr.tiles.contains t = false) :
    (d.tileCalibrated t).pwr = { d.pwr with tiles := d.pwr.tiles ++ [t] } := by
  unfold tileCalibrated
  rw [if_neg (by simpa [hp, ht] using hn)]
  exact pwr_foldl pwr_startAttempt _ _

/-! ### ALIVE and HB (R29, R485) -/

theorem aliveRise_of_tiles (hp : d.pwr.phase = .tiles) (ht : d.pwr.tiles.length = 64) (ha : d.pwr.awaiting = [])
    (hd : d.pwr.portsDown = false) (hs : d.fault.stopping = false) (hr : d.darbyRuns = true) :
    d.aliveRise = d.modPwr fun p => { p with alive := true, phase := .started, islandFrom := d.transit } := by
  simp [aliveRise, hp, ht, ha, hd, hs, hr]

theorem hbToggle_of_runs (hp : d.pwr.phase = .tiles ∨ d.pwr.phase = .started) (hs : d.fault.stopping = false)
    (hr : d.darbyRuns = true) : d.hbToggle = d.modPwr fun p => { p with hb := !p.hb } := by
  simp [hbToggle, hp, hs, hr]

/-! ### The flash (R494, R496) -/

@[simp] theorem length_flashBytes (d : Device) (a n : Nat) : (d.flashBytes a n).length = n := by
  unfold flashBytes
  induction n generalizing a with
  | zero => rfl
  | succ n ih => rw [Mem.readN, List.length_cons, ih]

theorem flashN_lt (d : Device) (a n : Nat) : d.flashN a n < 256 ^ n := by
  simpa [flashN] using leNat_lt (d.flashBytes a n)

@[simp] theorem fld_flashWrite (d : Device) (a off hi lo : Nat) (bs : List Byte) :
    (d.flashWrite a bs).fld off hi lo = d.fld off hi lo := rfl

@[simp] theorem flag_flashWrite (d : Device) (a off n : Nat) (bs : List Byte) : (d.flashWrite a bs).flag off n = d.flag off n := rfl

theorem flashN_congr {t : Device} {a n : Nat} (h : t.pwr.flash = d.pwr.flash) : t.flashN a n = d.flashN a n := by
  rw [flashN, flashN, flashBytes, flashBytes, h]

theorem flashBytes_flashWrite_self (d : Device) (a : Nat) (bs : List Byte) : (d.flashWrite a bs).flashBytes a bs.length = bs :=
  Mem.readN_writeN 0xFF bs d.pwr.flash a

/-- The block once the flash operation that ran is over. -/
def flashFree (d : Device) : Device := (d.setFlag Off.darbyFlashCmd 31 false).modPwr fun p => { p with flashOp := none }

theorem pwr_flashFree (d : Device) : d.flashFree.pwr = { d.pwr with flashOp := none } := by
  rw [flashFree, modPwr_pwr, setFlag_pwr]

theorem flag_flashFree (d : Device) : d.flashFree.flag Off.darbyFlashCmd 31 = false := by
  rw [flashFree, flag_modPwr, flag_setFlag_self _ _ _ (by omega)]

/-- STATUS of DARBY_FLASH_CMD stands apart from GO. -/
theorem flashFree_status (d : Device) (v : Nat) :
    (d.flashFree.setFld Off.darbyFlashCmd 30 28 v).fld Off.darbyFlashCmd 30 28 = v % 8 ∧
      (d.flashFree.setFld Off.darbyFlashCmd 30 28 v).flag Off.darbyFlashCmd 31 = false :=
  ⟨fld_setFld_self _ _ _ (by omega) (by omega),
    by rw [flag, fld_setFld_apart _ _ _ (by omega) (by omega) (by omega), ← flag, flag_flashFree]⟩

/-- The words of DARBY_FLASH_BUF that `ns` lists take the flash words from an address on. -/
def fillFlashBuf (d : Device) (a : Nat) (ns : List Nat) : Device :=
  ns.foldl (fun d n => d.setReg (Off.darbyFlashBuf n) (d.flashN (a + 4 * n) 4)) d

theorem reg_fillFlashBuf_other {a off : Nat} {ns : List Nat} (h : ∀ n ∈ ns, off ≠ Off.darbyFlashBuf n) :
    (d.fillFlashBuf a ns).reg off = d.reg off :=
  List.foldlRecOn (motive := fun t : Device => t.reg off = d.reg off) _ _ rfl
    fun t ht n hn => (t.reg_setReg_other _ (h n hn)).trans ht

theorem reg_fillFlashBuf_self {a n : Nat} {ns : List Nat} (h : n ∈ ns) :
    (d.fillFlashBuf a ns).reg (Off.darbyFlashBuf n) = d.flashN (a + 4 * n) 4 := by
  induction ns generalizing d with
  | nil => cases h
  | cons k ns ih =>
    rw [fillFlashBuf, List.foldl_cons, ← fillFlashBuf]
    by_cases hn : n ∈ ns
    · exact (ih hn).trans (flashN_congr (by rw [setReg_pwr]))
    · obtain rfl : n = k := (List.mem_cons.mp h).resolve_right hn
      rw [reg_fillFlashBuf_other, reg_setReg_self, Nat.mod_eq_of_lt (show _ < 2 ^ 32 from d.flashN_lt _ 4)]
      intro k hk e
      obtain rfl : n = k := by simpa [Off.darbyFlashBuf] using e
      exact hn hk

section
variable {o : FlashOp} (ho : d.pwr.flashOp = some o)
include ho

theorem flashDone_fails : d.flashDone true = (d.flashFree.setFld Off.darbyFlashCmd 30 28 2).raiseOpen 468 Sev.warn := by
  simp only [flashDone, ho]
  rfl

theorem flashDone_erase (hop : o.op = 1) :
    d.flashDone false = (d.flashFree.setFld Off.darbyFlashCmd 30 28 0).flashWrite o.addr (List.replicate 4096 0xFF) := by
  simp only [flashDone, ho, hop]
  rfl

theorem flashDone_read (h₁ : o.op ≠ 1) (h₂ : o.op ≠ 2) :
    d.flashDone false = (d.flashFree.setFld Off.darbyFlashCmd 30 28 0).fillFlashBuf o.addr (List.range 64) := by
  simp only [flashDone, ho, h₁, h₂]
  rfl

/-- A flash that fails shows STATUS 2, and no byte of it changes. -/
theorem flashDone_fails_shows :
    (d.flashDone true).fld Off.darbyFlashCmd 30 28 = 2 ∧ (d.flashDone true).flag Off.darbyFlashCmd 31 = false ∧
      (d.flashDone true).pwr.flash = d.pwr.flash ∧ (d.flashDone true).pwr.flashOp = none := by
  rw [flashDone_fails ho]
  have htold := (Told.refl (d.flashFree.setFld Off.darbyFlashCmd 30 28 2)).raiseOpen (s := 468) (v := Sev.warn) (by simp)
  obtain ⟨hstatus, hgo⟩ := d.flashFree_status 2
  rw [htold.fld noteReg_darbyFlashCmd, htold.flag noteReg_darbyFlashCmd, htold.pwr, setFld_pwr, pwr_flashFree]
  exact ⟨hstatus, hgo, rfl, rfl⟩

theorem flashDone_erase_shows (hop : o.op = 1) :
    (d.flashDone false).flashBytes o.addr 4096 = List.replicate 4096 0xFF ∧
      (d.flashDone false).fld Off.darbyFlashCmd 30 28 = 0 ∧ (d.flashDone false).flag Off.darbyFlashCmd 31 = false := by
  rw [flashDone_erase ho hop, fld_flashWrite, flag_flashWrite]
  have hread := (d.flashFree.setFld Off.darbyFlashCmd 30 28 0).flashBytes_flashWrite_self o.addr (List.replicate 4096 0xFF)
  rw [List.length_replicate] at hread
  exact ⟨hread, d.flashFree_status 0⟩

theorem flashDone_read_shows {n : Nat} (h₁ : o.op ≠ 1) (h₂ : o.op ≠ 2) (hn : n < 64) :
    (d.flashDone false).reg (Off.darbyFlashBuf n) = d.flashN (o.addr + 4 * n) 4 ∧
      (d.flashDone false).flag Off.darbyFlashCmd 31 = false := by
  rw [flashDone_read ho h₁ h₂]
  have hflash : (d.flashFree.setFld Off.darbyFlashCmd 30 28 0).pwr.flash = d.pwr.flash := by rw [setFld_pwr, pwr_flashFree]
  have hcmd : ∀ n ∈ List.range 64, Off.darbyFlashCmd ≠ Off.darbyFlashBuf n := fun n _ => by
    unfold Off.darbyFlashCmd Off.darbyFlashBuf
    omega
  obtain ⟨-, hgo⟩ := d.flashFree_status 0
  exact ⟨(reg_fillFlashBuf_self (List.mem_range.mpr hn)).trans (flashN_congr hflash),
    by rw [flag_congr (reg_fillFlashBuf_other hcmd), hgo]⟩

end

/-! ### The check of a swatch (R489, R492) -/

/-- A switch that ends is no longer pending, and PWR_SWATCH shows so; what completes with it is told. -/
theorem told_endSwitch {sw : Switch} (hs : d.pwr.switch = some sw) (st : Nat) :
    ((d.modPwr fun p => { p with switch := none }).setFlag Off.pwrSwatch 31 false).Told (d.endSwitch st) := by
  unfold endSwitch
  rw [hs]
  dsimp only
  split
  · split
    · exact (Told.refl _).complete (by simp)
    · exact Told.refl _
  · exact Told.refl _

theorem endSwitch_idle {sw : Switch} (hs : d.pwr.switch = some sw) (st : Nat) :
    (d.endSwitch st).pwr.switch = none ∧ (d.endSwitch st).flag Off.pwrSwatch 31 = false := by
  have h := told_endSwitch hs st
  exact ⟨by rw [h.pwr]; rfl, by rw [h.flag noteReg_pwrSwatch, flag_setFlag_self _ _ _ (by omega)]⟩

section
variable {sw : Switch} (hs : d.pwr.switch = some sw) (hc : sw.checked = false)
include hs hc

theorem swatchCheckEnd_invalid (hv : d.swatchValid sw.swatch = false) : d.swatchCheckEnd = d.endSwitch St.verify := by
  simp [swatchCheckEnd, hs, hc, hv]

/-- A valid swatch whose time is at least 10 µs away waits for it. -/
theorem swatchCheckEnd_waits (hv : d.swatchValid sw.swatch = true) (ht : sw.time ≠ 0) (hl : d.tbCount 0 + 10000 ≤ sw.time) :
    d.swatchCheckEnd = d.modPwr fun p => { p with switch := some { sw with checked := true } } := by
  have hnot : ¬ sw.time ≤ (d.modPwr fun p => { p with switch := some { sw with checked := true } }).tbCount 0 := by
    show ¬ sw.time ≤ d.tbCount 0
    omega
  simp [swatchCheckEnd, hs, hc, hv, ht, hl, switchDue, hnot]

end

end Device

/-- A command that answers `t`, with the same commands waiting, runs as any truth about `t` says. -/
theorem runs_of_exec {c : Instr} {d t : Device} {w : List Instr} {P : Device → Prop} (e : exec c ⟨d, w⟩ = .next ⟨t, w⟩) (h : P t) :
    Runs c d w P := ⟨t, e, h⟩

/-- Settles O43: each clause by what its operation answers in that case. -/
theorem startAndSwatches : Obligations.StartAndSwatches := by
  unfold Obligations.StartAndSwatches
  refine ⟨?testmode, ?bootsrc, ?start, ?noSwatch, ?tile, ?alive, ?hb, ?fails, ?erase, ?read, ?invalid, ?waits⟩
  case testmode =>
    intro s kept bad0 bad1 d w hd ht
    refine runs_of_exec (t := d.startUp s kept bad0 bad1) rfl ?_
    rw [Device.startUp_testmode hd ht]
    exact ⟨rfl, (Device.fld_modPwr ..).trans (d.fld_startClock_swatch s)⟩
  case bootsrc =>
    intro s kept bad0 bad1 d w hd ht hb
    refine runs_of_exec (t := d.startUp s kept bad0 bad1) rfl ?_
    rw [Device.startUp_bootsrc hd ht hb]
    exact ⟨rfl, (Device.fld_modPwr ..).trans (d.fld_startClock_swatch s)⟩
  case start =>
    rintro s kept bad0 bad1 e d w hd ht hb (rfl : e = d.startClock s)
    refine runs_of_exec (t := d.startUp s kept bad0 bad1) rfl ?_
    rw [Device.startUp_swatch hd ht hb, ← Device.firstSwatch]
    cases (d.startClock s).chooseSwatch (d.firstSwatch s) with
    | none =>
      rw [Option.isSome_none, if_neg Bool.false_ne_true, Option.elim_none]
      rfl
    | some n =>
      rw [Option.isSome_some, if_pos rfl, Option.elim_some]
      exact Device.phase_startUnder _ n _ kept bad0 bad1
  case noSwatch =>
    rintro s kept bad0 bad1 e d w hd ht hb (rfl : e = d.startClock s) hnone
    refine runs_of_exec (t := d.startUp s kept bad0 bad1) rfl ?_
    rw [Device.startUp_swatch hd ht hb, Device.firstSwatch, hnone, Option.elim_none]
    rfl
  case tile =>
    intro tile d w hp hn
    refine runs_of_exec (t := d.tileCalibrated tile) rfl ?_
    rw [Device.pwr_tileCalibrated tile.isLt hp hn]
  case alive =>
    intro d w hp ht ha hd hs hr
    refine runs_of_exec (t := d.aliveRise) rfl ?_
    rw [Device.aliveRise_of_tiles hp ht ha hd hs hr]
    exact ⟨rfl, rfl, rfl⟩
  case hb =>
    intro d w hp hs hr
    refine runs_of_exec (t := d.hbToggle) rfl ?_
    rw [Device.hbToggle_of_runs hp hs hr, Device.modPwr_pwr]
  case fails =>
    rintro _ o d w ho rfl
    exact runs_of_exec (t := d.flashDone true) rfl (Device.flashDone_fails_shows ho)
  case erase =>
    rintro _ o d w ho rfl hop
    exact runs_of_exec (t := d.flashDone false) rfl (Device.flashDone_erase_shows ho hop)
  case read =>
    rintro _ o n d w ho rfl h₁ h₂ hn
    exact runs_of_exec (t := d.flashDone false) rfl (Device.flashDone_read_shows ho h₁ h₂ hn)
  case invalid =>
    intro sw d w hs hc hv
    refine runs_of_exec (t := d.swatchCheckEnd) rfl ?_
    rw [Device.swatchCheckEnd_invalid hs hc hv]
    exact Device.endSwitch_idle hs St.verify
  case waits =>
    intro sw d w hs hc ht hl
    refine runs_of_exec (t := d.swatchCheckEnd) rfl ?_
    split
    · next hv =>
      rw [Device.swatchCheckEnd_waits hs hc hv ht hl]
      rfl
    · next hv =>
      rw [Device.swatchCheckEnd_invalid hs hc (by simpa using hv)]
      exact Device.endSwitch_idle hs St.verify

end Machine

end Sys2Proof
end

section
set_option Elab.async false
/-! PROOFS. The instruction word and its fields (R48, R52): the operand bits of every format lie below bit 52 (2 ^ 52 is
4503599627370496, written out as `simp` writes it), and each field of a format is read back from the word. The theorems of this part
and of the later ones are checked one after another, since some evaluate a whole state. -/

namespace Sys2Proof

/-! ### The fields of a word -/

/-- A field reads the number its bits hold. -/
theorem fieldAt_eq {w hi lo n : Nat} {b : BitVec n} (h : w / 2 ^ lo % 2 ^ (hi + 1 - lo) = b.toNat) :
    fieldAt w hi lo n = b := by
  rw [fieldAt, bits, h, BitVec.ofNat_toNat, BitVec.setWidth_eq]

theorem bit_eq {w k : Nat} {x : Bool} (h : w / 2 ^ k % 2 = (BitVec.ofBool x).toNat) : bit w k = x := by
  rw [bit, Nat.testBit_eq_decide_div_mod_eq, h]
  cases x <;> rfl

/-- A flag as a bit vector of width 1, so that its bound is known. -/
theorem b2n_eq_toNat (x : Bool) : b2n x = (BitVec.ofBool x).toNat := by cases x <;> rfl

@[simp] theorem FmtA.enc_lt (f : FmtA) : f.enc < 4503599627370496 := by
  simp only [FmtA.enc, place, b2n_eq_toNat]
  omega

@[simp] theorem FmtA.dec_word (q : Pred) (op : Nat) (f : FmtA) : .dec (instWord q op f.enc) = f := by
  simp only [FmtA.dec, FmtA.enc, instWord, place, b2n_eq_toNat]
  refine (FmtA.mk.injEq ..).mpr ⟨fieldAt_eq ?_, fieldAt_eq ?_, fieldAt_eq ?_, bit_eq ?_, bit_eq ?_, fieldAt_eq ?_⟩ <;> omega

@[simp] theorem FmtP.enc_lt (f : FmtP) : f.enc < 4503599627370496 := by
  simp only [FmtP.enc, place, b2n_eq_toNat]
  omega

@[simp] theorem FmtP.dec_word (q : Pred) (op : Nat) (f : FmtP) : .dec (instWord q op f.enc) = f := by
  simp only [FmtP.dec, FmtP.enc, instWord, place, b2n_eq_toNat]
  refine (FmtP.mk.injEq ..).mpr ⟨fieldAt_eq ?_, fieldAt_eq ?_, fieldAt_eq ?_, fieldAt_eq ?_, bit_eq ?_, fieldAt_eq ?_⟩ <;> omega

@[simp] theorem FmtH.enc_lt (f : FmtH) : f.enc < 4503599627370496 := by
  simp only [FmtH.enc, place]
  omega

@[simp] theorem FmtH.dec_word (q : Pred) (op : Nat) (f : FmtH) : .dec (instWord q op f.enc) = f := by
  simp only [FmtH.dec, FmtH.enc, instWord, place, b2n_eq_toNat]
  refine (FmtH.mk.injEq ..).mpr ⟨fieldAt_eq ?_, fieldAt_eq ?_, fieldAt_eq ?_, fieldAt_eq ?_, fieldAt_eq ?_⟩ <;> omega

@[simp] theorem FmtX.enc_lt (f : FmtX) : f.enc < 4503599627370496 := by
  simp only [FmtX.enc, place, b2n_eq_toNat]
  omega

@[simp] theorem FmtX.dec_word (q : Pred) (op : Nat) (f : FmtX) : .dec (instWord q op f.enc) = f := by
  simp only [FmtX.dec, FmtX.enc, instWord, place, b2n_eq_toNat]
  refine (FmtX.mk.injEq ..).mpr ⟨fieldAt_eq ?_, fieldAt_eq ?_, fieldAt_eq ?_, bit_eq ?_, bit_eq ?_, fieldAt_eq ?_⟩ <;> omega

@[simp] theorem FmtXM.enc_lt (f : FmtXM) : f.enc < 4503599627370496 := by
  simp only [FmtXM.enc, place]
  omega

@[simp] theorem FmtXM.dec_word (q : Pred) (op : Nat) (f : FmtXM) : .dec (instWord q op f.enc) = f := by
  simp only [FmtXM.dec, FmtXM.enc, instWord, place, b2n_eq_toNat]
  refine (FmtXM.mk.injEq ..).mpr ⟨fieldAt_eq ?_, fieldAt_eq ?_, fieldAt_eq ?_, fieldAt_eq ?_⟩ <;> omega

@[simp] theorem FmtXI.enc_lt (f : FmtXI) : f.enc < 4503599627370496 := by
  simp only [FmtXI.enc, place]
  omega

@[simp] theorem FmtXI.dec_word (q : Pred) (op : Nat) (f : FmtXI) : .dec (instWord q op f.enc) = f := by
  simp only [FmtXI.dec, FmtXI.enc, instWord, place, b2n_eq_toNat]
  refine (FmtXI.mk.injEq ..).mpr ⟨fieldAt_eq ?_, fieldAt_eq ?_, fieldAt_eq ?_, fieldAt_eq ?_⟩ <;> omega

@[simp] theorem FmtKB.enc_lt (f : FmtKB) : f.enc < 4503599627370496 := by
  simp only [FmtKB.enc, place, b2n_eq_toNat]
  omega

@[simp] theorem FmtKB.dec_word (q : Pred) (op : Nat) (f : FmtKB) : .dec (instWord q op f.enc) = f := by
  simp only [FmtKB.dec, FmtKB.enc, instWord, place, b2n_eq_toNat]
  refine (FmtKB.mk.injEq ..).mpr ⟨fieldAt_eq ?_, fieldAt_eq ?_, bit_eq ?_, fieldAt_eq ?_⟩ <;> omega

@[simp] theorem FmtAV.enc_lt (f : FmtAV) : f.enc < 4503599627370496 := by
  simp only [FmtAV.enc, place, b2n_eq_toNat]
  omega

@[simp] theorem FmtAV.dec_word (q : Pred) (op : Nat) (f : FmtAV) : .dec (instWord q op f.enc) = f := by
  simp only [FmtAV.dec, FmtAV.enc, instWord, place, b2n_eq_toNat]
  refine (FmtAV.mk.injEq ..).mpr ⟨fieldAt_eq ?_, bit_eq ?_, fieldAt_eq ?_⟩ <;> omega

@[simp] theorem FmtL.enc_lt (f : FmtL) : f.enc < 4503599627370496 := by
  simp only [FmtL.enc, place]
  omega

@[simp] theorem FmtL.dec_word (q : Pred) (op : Nat) (f : FmtL) : .dec (instWord q op f.enc) = f := by
  simp only [FmtL.dec, FmtL.enc, instWord, place, b2n_eq_toNat]
  refine (FmtL.mk.injEq ..).mpr ⟨fieldAt_eq ?_, fieldAt_eq ?_, fieldAt_eq ?_, fieldAt_eq ?_, fieldAt_eq ?_, fieldAt_eq ?_,
    fieldAt_eq ?_⟩ <;> omega

@[simp] theorem FmtFS.enc_lt (f : FmtFS) : f.enc < 4503599627370496 := by
  simp only [FmtFS.enc, place, b2n_eq_toNat]
  omega

@[simp] theorem FmtFS.dec_word (q : Pred) (op : Nat) (f : FmtFS) : .dec (instWord q op f.enc) = f := by
  simp only [FmtFS.dec, FmtFS.enc, instWord, place, b2n_eq_toNat]
  refine (FmtFS.mk.injEq ..).mpr ⟨fieldAt_eq ?_, fieldAt_eq ?_, fieldAt_eq ?_, fieldAt_eq ?_, fieldAt_eq ?_, fieldAt_eq ?_,
    bit_eq ?_, fieldAt_eq ?_⟩ <;> omega

@[simp] theorem FmtFL.enc_lt (f : FmtFL) : f.enc < 4503599627370496 := by
  simp only [FmtFL.enc, place]
  omega

@[simp] theorem FmtFL.dec_word (q : Pred) (op : Nat) (f : FmtFL) : .dec (instWord q op f.enc) = f := by
  simp only [FmtFL.dec, FmtFL.enc, instWord, place, b2n_eq_toNat]
  refine (FmtFL.mk.injEq ..).mpr ⟨fieldAt_eq ?_, fieldAt_eq ?_, fieldAt_eq ?_, fieldAt_eq ?_⟩ <;> omega

@[simp] theorem FmtE.enc_lt (f : FmtE) : f.enc < 4503599627370496 := by
  simp only [FmtE.enc, place, b2n_eq_toNat]
  omega

@[simp] theorem FmtE.dec_word (q : Pred) (op : Nat) (f : FmtE) : .dec (instWord q op f.enc) = f := by
  simp only [FmtE.dec, FmtE.enc, instWord, place, b2n_eq_toNat]
  refine (FmtE.mk.injEq ..).mpr ⟨fieldAt_eq ?_, fieldAt_eq ?_, bit_eq ?_, fieldAt_eq ?_, fieldAt_eq ?_⟩ <;> omega

@[simp] theorem FmtN.enc_lt (f : FmtN) : f.enc < 4503599627370496 := by
  simp only [FmtN.enc, place, b2n_eq_toNat]
  omega

@[simp] theorem FmtN.dec_word (q : Pred) (op : Nat) (f : FmtN) : .dec (instWord q op f.enc) = f := by
  simp only [FmtN.dec, FmtN.enc, instWord, place, b2n_eq_toNat]
  refine (FmtN.mk.injEq ..).mpr ⟨fieldAt_eq ?_, bit_eq ?_, fieldAt_eq ?_, fieldAt_eq ?_, fieldAt_eq ?_, fieldAt_eq ?_, bit_eq ?_⟩ <;> omega

@[simp] theorem FmtT.enc_lt (f : FmtT) : f.enc < 4503599627370496 := by
  simp only [FmtT.enc, place, b2n_eq_toNat]
  omega

@[simp] theorem FmtT.dec_word (q : Pred) (op : Nat) (f : FmtT) : .dec (instWord q op f.enc) = f := by
  simp only [FmtT.dec, FmtT.enc, instWord, place, b2n_eq_toNat]
  refine (FmtT.mk.injEq ..).mpr ⟨fieldAt_eq ?_, fieldAt_eq ?_, fieldAt_eq ?_, bit_eq ?_, fieldAt_eq ?_⟩ <;> omega

@[simp] theorem FmtG.enc_lt (f : FmtG) : f.enc < 4503599627370496 := by
  simp only [FmtG.enc, place]
  omega

@[simp] theorem FmtG.dec_word (q : Pred) (op : Nat) (f : FmtG) : .dec (instWord q op f.enc) = f := by
  simp only [FmtG.dec, FmtG.enc, instWord, place, b2n_eq_toNat]
  exact congrArg FmtG.mk (fieldAt_eq (by omega))

@[simp] theorem FmtW.enc_lt (f : FmtW) : f.enc < 4503599627370496 := by
  simp only [FmtW.enc, place, b2n_eq_toNat]
  omega

@[simp] theorem FmtW.dec_word (q : Pred) (op : Nat) (f : FmtW) : .dec (instWord q op f.enc) = f := by
  simp only [FmtW.dec, FmtW.enc, instWord, place, b2n_eq_toNat]
  refine (FmtW.mk.injEq ..).mpr ⟨fieldAt_eq ?_, bit_eq ?_, fieldAt_eq ?_, fieldAt_eq ?_⟩ <;> omega

@[simp] theorem FmtTM.encRd_lt (f : FmtTM) : f.encRd < 4503599627370496 := by
  simp only [FmtTM.encRd, place, b2n_eq_toNat]
  omega

@[simp] theorem FmtTM.dec_word (q : Pred) (op : Nat) (f : FmtTM) : .dec (instWord q op f.encRd) = f := by
  simp only [FmtTM.dec, FmtTM.encRd, instWord, place, b2n_eq_toNat]
  refine (FmtTM.mk.injEq ..).mpr ⟨fieldAt_eq ?_, fieldAt_eq ?_, fieldAt_eq ?_, fieldAt_eq ?_, bit_eq ?_, fieldAt_eq ?_⟩ <;> omega

@[simp] theorem FmtC.enc_lt (f : FmtC) : f.enc < 4503599627370496 := by
  simp only [FmtC.enc, place, b2n_eq_toNat]
  omega

@[simp] theorem FmtC.dec_word (q : Pred) (op : Nat) (f : FmtC) : .dec (instWord q op f.enc) = f := by
  simp only [FmtC.dec, FmtC.enc, instWord, place, b2n_eq_toNat]
  refine (FmtC.mk.injEq ..).mpr ⟨fieldAt_eq ?_, fieldAt_eq ?_, bit_eq ?_⟩ <;> omega

@[simp] theorem FmtJ.enc_lt (f : FmtJ) : f.enc < 4503599627370496 := by
  simp only [FmtJ.enc, place, b2n_eq_toNat]
  omega

@[simp] theorem FmtJ.dec_word (q : Pred) (op : Nat) (f : FmtJ) : .dec (instWord q op f.enc) = f := by
  simp only [FmtJ.dec, FmtJ.enc, instWord, place, b2n_eq_toNat]
  refine (FmtJ.mk.injEq ..).mpr ⟨fieldAt_eq ?_, bit_eq ?_, fieldAt_eq ?_⟩ <;> omega

@[simp] theorem FmtM.enc_lt (f : FmtM) : f.enc < 4503599627370496 := by
  simp only [FmtM.enc, place]
  omega

@[simp] theorem FmtM.dec_word (q : Pred) (op : Nat) (f : FmtM) : .dec (instWord q op f.enc) = f := by
  simp only [FmtM.dec, FmtM.enc, instWord, place, b2n_eq_toNat]
  refine (FmtM.mk.injEq ..).mpr ⟨fieldAt_eq ?_, fieldAt_eq ?_, fieldAt_eq ?_, fieldAt_eq ?_⟩ <;> omega

@[simp] theorem FmtQ.enc_lt (f : FmtQ) : f.enc < 4503599627370496 := by
  simp only [FmtQ.enc, place]
  omega

@[simp] theorem FmtQ.dec_word (q : Pred) (op : Nat) (f : FmtQ) : .dec (instWord q op f.enc) = f := by
  simp only [FmtQ.dec, FmtQ.enc, instWord, place, b2n_eq_toNat]
  refine (FmtQ.mk.injEq ..).mpr ⟨fieldAt_eq ?_, fieldAt_eq ?_, fieldAt_eq ?_, fieldAt_eq ?_, fieldAt_eq ?_⟩ <;> omega
theorem bits_instWord_op {q : Pred} {op enc : Nat} (hop : op < 256) (henc : enc < 4503599627370496) :
    bits (instWord q op enc) 63 56 = op := by
  simp only [bits, instWord, place, b2n_eq_toNat]
  omega

theorem wordPred_instWord {q : Pred} {op enc : Nat} (henc : enc < 4503599627370496) : wordPred (instWord q op enc) = q := by
  simp only [wordPred, bits, instWord, place, b2n_eq_toNat]
  refine (Pred.mk.injEq ..).mpr ⟨fieldAt_eq ?_, bit_eq ?_⟩ <;> omega

theorem instWord_mod {q : Pred} {op enc : Nat} (henc : enc < 4503599627370496) : instWord q op enc % 2 ^ 52 = enc := by
  simp only [instWord, place]
  omega

theorem instWord_lt {q : Pred} {op enc : Nat} (hop : op < 256) (henc : enc < 4503599627370496) : instWord q op enc < 2 ^ 64 := by
  simp only [instWord, place, b2n_eq_toNat]
  omega

namespace Machine

/-! ### Decoding an encoded instruction -/

theorem Instr.dravea_lt {i : Instr} {who : Who} {units word : Nat} {beyond : Bool}
    (h : i.dravea = some (who, units, beyond, word)) : word < 2 ^ 64 := by
  unfold Instr.dravea at h
  split at h <;> cases h <;> exact instWord_lt (by decide) (by simp)

/-- The opcode selects the instruction, and its format gives back the operands. -/
theorem Instr.decode_dravea {i : Instr} {who : Who} {units word : Nat} {beyond : Bool}
    (h : i.dravea = some (who, units, beyond, word)) : decodeDravea who units beyond word = some i := by
  unfold Instr.dravea at h
  split at h <;> cases h <;>
  · unfold decodeDravea
    rw [bits_instWord_op (by decide) (by simp), wordPred_instWord (by simp)]
    refine congrArg some ?_
    simp

/-- Settles O57: the operation of the word is its opcode, its predication and operands are those encoded. -/
theorem decodeOfEncode : Obligations.DecodeOfEncode := fun _ _ _ _ _ h =>
  ⟨Instr.decode_dravea h, Instr.dravea_lt h⟩

/-- Settles O56: each word decodes by evaluation. -/
theorem draveaWords : Obligations.DraveaWords := fun _ =>
  ⟨rfl, rfl, rfl, rfl, rfl, rfl, rfl, rfl⟩

end Machine
end Sys2Proof
end

section
set_option Elab.async false
/-! PROOFS. The ALU results as bit vectors (R35, R57). -/

namespace Sys2Proof.Machine

/-- The two-operand results of R57 on bit vectors of the width they are computed in. -/
def aluBits (op : AluOp) (x : Bool) {w : Nat} (a b : BitVec w) : BitVec w :=
  match op with
  | .add => a + b
  | .sub => a - b
  | .and => a &&& b
  | .or => a ||| b
  | .xor => a ^^^ b
  | .shl => a <<< (b.toNat % 64)
  | .shr => if x then a.sshiftRight (b.toNat % 64) else a >>> (b.toNat % 64)
  | .rot => a.rotateRight (b.toNat % w)
  | .min => if x then (if a.sle b then a else b) else (if a ≤ b then a else b)
  | .max => if x then (if a.sle b then b else a) else (if a ≤ b then b else a)

theorem signed_eq_toInt {w : Nat} (hw : 0 < w) (a : Nat) : signed w (a % 2 ^ w) = (BitVec.ofNat w a).toInt := by
  obtain ⟨w, rfl⟩ : ∃ v, w = v + 1 := ⟨w - 1, by omega⟩
  have h2 : 2 ^ (w + 1) = 2 * 2 ^ w := by rw [Nat.pow_succ, Nat.mul_comm]
  simp only [signed, Nat.mod_mod, BitVec.toInt_eq_toNat_cond, BitVec.toNat_ofNat, Nat.add_sub_cancel]
  split <;> split <;> omega

/-- Beyond the width an arithmetic shift gives no more than the sign. -/
theorem toInt_div_pow {w n : Nat} (a : BitVec w) (h : w ≤ n) : a.toInt / 2 ^ n = a.toInt / 2 ^ w := by
  have hpos : (0 : Int) < 2 ^ w := Int.pow_pos (by decide)
  have hle : (2 : Int) ^ w ≤ 2 ^ n := by exact_mod_cast Nat.pow_le_pow_right (by decide) h
  have hlo := BitVec.le_two_mul_toInt (x := a)
  have hhi := BitVec.two_mul_toInt_lt (x := a)
  by_cases hneg : a.toInt < 0
  · rw [Int.ediv_eq_neg_one_of_neg_of_le hneg (by omega), Int.ediv_eq_neg_one_of_neg_of_le hneg (by omega)]
  · rw [Int.ediv_eq_zero_of_lt (by omega) (by omega), Int.ediv_eq_zero_of_lt (by omega) (by omega)]

theorem sshiftRight_toNat {w : Nat} (a : BitVec w) (n : Nat) :
    (a.sshiftRight n).toNat = unsigned w (a.toInt / (2 ^ (if n < w then n else w) : Nat)) := by
  rw [BitVec.sshiftRight, BitVec.toNat_ofInt, Int.shiftRight_eq_div_pow, unsigned]
  split
  · rfl
  · next h => rw [Nat.cast_pow, Nat.cast_pow, Nat.cast_ofNat, toInt_div_pow a (by omega)]

theorem rotateRight_toNat {w k : Nat} (a : BitVec w) (hk : k < w) :
    (a.rotateRight k).toNat = (a.toNat / 2 ^ k + a.toNat * 2 ^ (w - k)) % 2 ^ w := by
  have hw : 2 ^ w = 2 ^ (w - k) * 2 ^ k := by rw [← Nat.pow_add]; congr 1; omega
  have hlow : a.toNat / 2 ^ k < 2 ^ (w - k) := by
    rw [Nat.div_lt_iff_lt_mul (by positivity), ← hw]
    exact a.isLt
  have hhigh : a.toNat <<< (w - k) % 2 ^ w = 2 ^ (w - k) * (a.toNat % 2 ^ k) := by
    rw [Nat.shiftLeft_eq, hw, Nat.mul_comm a.toNat, Nat.mul_mod_mul_left]
  have hsum : 2 ^ (w - k) * (a.toNat % 2 ^ k) + a.toNat / 2 ^ k < 2 ^ w := by
    have := Nat.mod_lt a.toNat (y := 2 ^ k) (by positivity)
    calc _ < 2 ^ (w - k) * (a.toNat % 2 ^ k) + 2 ^ (w - k) := by omega
      _ = 2 ^ (w - k) * (a.toNat % 2 ^ k + 1) := by ring
      _ ≤ 2 ^ w := by rw [hw]; exact Nat.mul_le_mul_left _ this
  rw [BitVec.toNat_rotateRight, Nat.mod_eq_of_lt hk, Nat.shiftRight_eq_div_pow, hhigh, Nat.or_comm,
    ← Nat.two_pow_add_eq_or_of_lt hlow, ← Nat.mod_eq_of_lt hsum]
  rw [← hhigh, Nat.shiftLeft_eq, Nat.mod_add_mod, Nat.add_comm]

/-- The result of R57 in width `w` is the one on bit vectors. -/
theorem aluResult_eq (op : AluOp) {w : Nat} (hw : 0 < w) (x : Bool) (a b : Nat) :
    aluResult op w x a b = (aluBits op x (BitVec.ofNat w a) (BitVec.ofNat w b)).toNat := by
  have ha : (BitVec.ofNat w a).toNat = a % 2 ^ w := rfl
  have hb : (BitVec.ofNat w b).toNat = b % 2 ^ w := rfl
  cases op with
  | add => simp only [aluResult, aluBits, BitVec.toNat_add, ha, hb]
  | sub =>
    have := Nat.mod_lt b (y := 2 ^ w) (by positivity)
    simp only [aluResult, aluBits, BitVec.toNat_sub, ha, hb]
    congr 1
    omega
  | and => simp only [aluResult, aluBits, BitVec.toNat_and, ha, hb]
  | or => simp only [aluResult, aluBits, BitVec.toNat_or, ha, hb]
  | xor => simp only [aluResult, aluBits, BitVec.toNat_xor, ha, hb]
  | shl =>
    simp only [aluResult, aluBits, BitVec.toNat_shiftLeft, Nat.shiftLeft_eq, ha, hb]
    split
    · rfl
    · next h =>
      obtain ⟨k, hk⟩ := Nat.pow_dvd_pow 2 (Nat.le_of_not_lt h)
      rw [hk, Nat.mul_left_comm, Nat.mul_mod_right]
  | shr =>
    cases x with
    | false =>
      simp only [aluResult, aluBits, Bool.not_false, if_true, Bool.false_eq_true, if_false,
        BitVec.toNat_ushiftRight, Nat.shiftRight_eq_div_pow, ha, hb]
      split
      · rfl
      · next h =>
        have := Nat.mod_lt a (y := 2 ^ w) (by positivity)
        exact (Nat.div_eq_of_lt (this.trans_le (Nat.pow_le_pow_right (by decide) (Nat.le_of_not_lt h)))).symm
    | true => simp only [aluResult, aluBits, sshiftRight_toNat, signed_eq_toInt hw, hb, Bool.not_true, if_true,
        Bool.false_eq_true, if_false]
  | rot =>
    rw [aluBits, rotateRight_toNat _ (Nat.mod_lt _ hw)]
    rfl
  | min =>
    simp only [aluResult, aluBits, signed_eq_toInt hw, BitVec.sle, BitVec.le_def, ha, hb, decide_eq_true_eq,
      Nat.min_def]
    split <;> split <;> rfl
  | max =>
    simp only [aluResult, aluBits, signed_eq_toInt hw, BitVec.sle, BitVec.le_def, ha, hb, decide_eq_true_eq,
      Nat.max_def]
    split <;> split <;> rfl

end Sys2Proof.Machine
end

section
set_option Elab.async false
/-! PROOFS. What an instruction of line form does, once for each shape of the model's line operations: with an instruction that issues,
with one that does not, and what it leaves unchanged (R32, R49, R50, R53). -/

namespace Sys2Proof.Machine

variable {d t : Device} {who : Who} {q : Pred} {op enc lat off : Nat} {x y : Ctx} {c : Instr} {w : List Instr}

/-! ### Contexts -/

@[simp] theorem Device.setLine_lineCtx (h : d.lineCtx who = some y) : (d.setLine who x).lineCtx who = some x := by
  cases who with
  | ing f => exact NMap.get?_set_self ..
  | egr c => exact NMap.get?_set_self ..
  | thr e k => cases h

/-- A line instruction's effect on a context alone leaves everything else. -/
theorem Device.lineKept_setLine : d.lineKept (d.setLine who x) who := by
  cases who with
  | ing f => exact ⟨rfl, fun _ h => NMap.get?_set_other _ _ h⟩
  | egr c => exact ⟨rfl, fun _ h => NMap.get?_set_other _ _ h⟩
  | thr e k => trivial

theorem Device.lineKept_self : d.lineKept d who := by
  cases who with
  | ing f => exact ⟨rfl, fun _ _ => rfl⟩
  | egr c => exact ⟨rfl, fun _ _ => rfl⟩
  | thr e k => trivial

/-- A context that issues is the executor's own with a slot more issued. -/
theorem Device.issues_some (h : d.issues who q op enc = some x) :
    ∃ y k, d.lineCtx who = some y ∧ x = { y with issued := k :: y.issued } := by
  obtain ⟨y, hy, hi⟩ := Option.bind_eq_some_iff.mp h
  obtain ⟨_, _, _, _, _, k, _, rfl⟩ := Device.issue_some hi
  exact ⟨y, k, hy, rfl⟩

theorem Device.issues_setLine (h : d.issues who q op enc = some x) : (d.setLine who y).lineCtx who = some y := by
  obtain ⟨z, _, hz, _⟩ := d.issues_some h
  exact Device.setLine_lineCtx hz

/-- Only a context issues in line form. -/
theorem byForm_line {full : Nat → Nat → Device} (h : d.lineCtx who = some y) : byForm who full t = t := by
  cases who with
  | ing f => rfl
  | egr c => rfl
  | thr e k => cases h

/-! ### An instruction that issues -/

theorem Device.lineResults_issued {f : Ctx → Except Exc (List Wr)} {ws : List Wr} (h : d.issues who q op enc = some x)
    (hf : f x = .ok ws) : d.lineResults who q op enc lat f = d.setLine who (x.sends lat ws) := by
  unfold Device.lineResults
  rw [Device.issues] at h
  rw [h]
  simp only [hf]
  rfl

theorem Device.lineDo_issued {f : Device → Ctx → Device} (h : d.issues who q op enc = some x) :
    d.lineDo who q op enc f = f (d.setLine who x) x := by
  unfold Device.lineDo
  rw [Device.issues] at h
  rw [h]

/-- An instruction of both forms, one of whose effects in line form are the results `ws`. -/
theorem runs_line {full : Nat → Nat → Device} {f : Ctx → Except Exc (List Wr)} {ws : List Wr}
    (e : exec c ⟨d, w⟩ = .next ⟨byForm who full (d.lineResults who q op enc lat f), w⟩)
    (h : d.issues who q op enc = some x) (hf : f x = .ok ws) :
    Runs c d w fun t => t.lineCtx who = some (x.sends lat ws) := by
  obtain ⟨y, _, hy, _⟩ := d.issues_some h
  refine runs_of_exec e ?_
  rw [byForm_line hy, Device.lineResults_issued h hf, Device.issues_setLine h]

/-- The same for an instruction that changes the device. -/
theorem runs_lineDo {full : Nat → Nat → Device} {f : Device → Ctx → Device} {P : Device → Prop}
    (e : exec c ⟨d, w⟩ = .next ⟨byForm who full (d.lineDo who q op enc f), w⟩)
    (h : d.issues who q op enc = some x) (hP : P (f (d.setLine who x) x)) : Runs c d w P := by
  obtain ⟨y, _, hy, _⟩ := d.issues_some h
  refine runs_of_exec e ?_
  rwa [byForm_line hy, Device.lineDo_issued h]

/-! ### An instruction that does not execute -/

/-- A context whose predicates do not let an instruction execute. -/
theorem Device.issues_idle (hx : d.lineCtx who = some x) (h : x.regs.executes q = false) : d.issues who q op enc = none := by
  cases hi : d.issues who q op enc with
  | none => rfl
  | some y =>
    obtain ⟨z, hz, hi⟩ := Option.bind_eq_some_iff.mp hi
    obtain ⟨_, he, _⟩ := Device.issue_some hi
    cases hx.symm.trans hz
    exact absurd he (Bool.eq_false_iff.mp h)

theorem Device.lineDo_idle {f : Device → Ctx → Device} (h : d.issues who q op enc = none) : d.lineDo who q op enc f = d := by
  unfold Device.lineDo
  rw [Device.issues] at h
  rw [h]

theorem Device.lineResults_idle {f : Ctx → Except Exc (List Wr)} (h : d.issues who q op enc = none) :
    d.lineResults who q op enc lat f = d := by
  unfold Device.lineResults
  rw [Device.issues] at h
  rw [h]

/-! ### What an instruction that computes leaves -/

theorem Device.lineKept_lineResults {f : Ctx → Except Exc (List Wr)} : d.lineKept (d.lineResults who q op enc lat f) who := by
  unfold Device.lineResults
  split
  · exact Device.lineKept_self
  · split
    · exact Device.lineKept_setLine
    · exact Device.lineKept_self

/-- An instruction that only computes in line form changes the context of its executor alone. -/
theorem runs_lineKept {full : Nat → Nat → Device} {f : Ctx → Except Exc (List Wr)}
    (e : exec c ⟨d, w⟩ = .next ⟨byForm who full (d.lineResults who q op enc lat f), w⟩) :
    Runs c d w fun t => d.lineKept t who := by
  refine runs_of_exec e ?_
  cases who with
  | ing f => exact Device.lineKept_lineResults
  | egr c => exact Device.lineKept_lineResults
  | thr e k => trivial

end Sys2Proof.Machine

/-! PROOFS. The ALU, the tests and the moves of bytes in line form (R34 to R36, R40, R42, R57, R58). -/

namespace Sys2Proof.Machine

theorem lineRegs_iff {f : FmtA} :
    lineRegs f = true ↔ isS f.rd = false ∧ isS f.ra = false ∧ (f.i = true ∨ isS f.rb = false) ∧ destOk f.rd = true := by
  simp [lineRegs, and_assoc]

@[simp] theorem specOk_line (s : BitVec 6) : specOk false s = !isS s := rfl

theorem widthOf_line {s : BitVec 6} (h : isS s = false) : widthOf s = 32 := by simp [widthOf, h]

theorem ofNat_srcOf (r : Regs) (f : FmtA) : BitVec.ofNat 32 (srcOf r f.i f.imm f.rb) = aluB r f := by
  cases h : f.i <;> simp [srcOf, aluB, h, BitVec.ofNat_toNat]

/-- An ALU instruction in line form computes in 32 bits. -/
theorem aluEff_line (op : AluOp) {r : Regs} {f : FmtA} (h : lineRegs f = true) :
    aluEff op false r f = .ok [.reg f.rd (BitVec.zeroExtend 64 (aluBits op f.x (aluA r f) (aluB r f)))] := by
  obtain ⟨hd, ha, hb, ho⟩ := lineRegs_iff.mp h
  have hb' : (f.i || !isS f.rb) = true := by simpa using hb
  simp only [aluEff, specOk_line, hd, ha, hb', ho, widthOf_line hd, aluResult_eq _ (by decide : 0 < 32), ofNat_srcOf,
    Bool.not_false, Bool.not_true, Bool.or_self, Bool.false_eq_true, if_false, BitVec.ofNat_toNat]
  rfl

end Sys2Proof.Machine
end

section
set_option Elab.async false
/-! PROOFS. Moves and selections in line form (R34 to R36, R57). -/

namespace Sys2Proof.Machine

/-- MOV in line form moves 32 bits: no source of line form is wider. -/
theorem get_line {r : Regs} {s : BitVec 6} (h : isS s = false) : r.get s = BitVec.zeroExtend 64 ((r.get s).truncate 32) := by
  have hs : s.toNat < 48 := by simpa [isS] using h
  have hz : ∀ v : BitVec 32, v.zeroExtend 64 = BitVec.zeroExtend 64 ((v.zeroExtend 64).truncate 32) := fun v => by
    simp
  unfold Regs.get
  simp only [hs, if_true]
  split <;> exact hz _

theorem movEff_line {r : Regs} {f : FmtA} (h : lineRegs f = true) :
    movEff false r f = .ok [.reg f.rd (BitVec.zeroExtend 64 (aluA r f))] := by
  obtain ⟨hd, ha, _, ho⟩ := lineRegs_iff.mp h
  simp only [movEff, specOk_line, hd, ha, ho, Bool.not_false, Bool.not_true, Bool.or_self, Bool.false_eq_true, if_false]
  rw [get_line ha]
  rfl

theorem moviEff_line {r : Regs} {f : FmtA} (hd : isS f.rd = false) (ho : destOk f.rd = true) (hx : f.x = false) :
    moviEff false r f = .ok [.reg f.rd (BitVec.zeroExtend 64 f.imm)] := by
  simp [moviEff, hd, ho, hx]

theorem selEff_line {r : Regs} {f : FmtA} (h : lineRegs f = true) (hb : isS f.rb = false) (hi : f.i = false) :
    selEff false r f = .ok [.reg f.rd (if r.pred (BitVec.truncate 3 f.imm) then r.get f.ra else r.get f.rb)] := by
  obtain ⟨hd, ha, _, ho⟩ := lineRegs_iff.mp h
  simp [selEff, hd, ha, hb, ho, hi]

/-- The ones of a number below bit `m` are those of its residue. -/
theorem length_ones (v m k : Nat) :
    ((List.range (m + k)).filter fun i => (v % 2 ^ m).testBit i).length = ((List.range m).filter v.testBit).length := by
  rw [List.range_add, List.filter_append, List.length_append]
  have hlow : (List.range m).filter (fun i => (v % 2 ^ m).testBit i) = (List.range m).filter v.testBit :=
    List.filter_congr fun i hi => by simp [Nat.testBit_mod_two_pow, List.mem_range.mp hi]
  have hhigh : ((List.range k).map (m + ·)).filter (fun i => (v % 2 ^ m).testBit i) = [] :=
    List.filter_eq_nil_iff.mpr fun i hi => by
      obtain ⟨j, _, rfl⟩ := List.mem_map.mp hi
      simp [Nat.testBit_mod_two_pow]
  rw [hlow, hhigh, List.length_nil, Nat.add_zero]

theorem popcEff_line {r : Regs} {f : FmtA} (hd : isS f.rd = false) (hb : (f.i || !isS f.rb) = true) (ho : destOk f.rd = true) :
    popcEff false r f =
      .ok [.reg f.rd (BitVec.ofNat 64 ((List.range 32).filter fun i => (aluB r f).getLsbD i).length)] := by
  have hbits : ∀ i < 32, (aluB r f).getLsbD i = (srcOf r f.i f.imm f.rb).testBit i := fun i hi => by
    rw [← ofNat_srcOf, BitVec.getLsbD_ofNat]
    simp [hi]
  simp only [popcEff, specOk_line, hd, hb, ho, widthOf_line hd, Bool.not_false, Bool.not_true, Bool.or_self,
    Bool.false_eq_true, if_false]
  rw [length_ones _ 32 32, List.filter_congr fun i hi => hbits i (List.mem_range.mp hi)]

/-- Settles O24: the operation of each instruction on the 32-bit sources. -/
theorem lineAlu : Obligations.LineAlu := by
  unfold Obligations.LineAlu
  refine ⟨?add, ?sub, ?and, ?or, ?xor, ?shl, ?shr, ?rot, ?min, ?max, ?mov, ?movi, ?sel, ?popc⟩
  case add => exact fun _ _ _ _ _ _ h hr => runs_line rfl h (aluEff_line .add hr)
  case sub => exact fun _ _ _ _ _ _ h hr => runs_line rfl h (aluEff_line .sub hr)
  case and => exact fun _ _ _ _ _ _ h hr => runs_line rfl h (aluEff_line .and hr)
  case or => exact fun _ _ _ _ _ _ h hr => runs_line rfl h (aluEff_line .or hr)
  case xor => exact fun _ _ _ _ _ _ h hr => runs_line rfl h (aluEff_line .xor hr)
  case shl => exact fun _ _ _ _ _ _ h hr => runs_line rfl h (aluEff_line .shl hr)
  case shr => exact fun _ _ _ _ _ _ h hr => runs_line rfl h (aluEff_line .shr hr)
  case rot => exact fun _ _ _ _ _ _ h hr => runs_line rfl h (aluEff_line .rot hr)
  case min => exact fun _ _ _ _ _ _ h hr => runs_line rfl h (aluEff_line .min hr)
  case max => exact fun _ _ _ _ _ _ h hr => runs_line rfl h (aluEff_line .max hr)
  case mov => exact fun _ _ _ _ _ _ h hr => runs_line rfl h (movEff_line hr)
  case movi => exact fun _ _ _ _ _ _ h hd ho hx => runs_line rfl h (moviEff_line hd ho hx)
  case sel => exact fun _ _ _ _ _ _ h hr hb hi => runs_line rfl h (selEff_line hr hb hi)
  case popc => exact fun _ _ _ _ _ _ h hd hb ho => runs_line rfl h (popcEff_line hd hb ho)

end Sys2Proof.Machine
end

section
set_option Elab.async false
/-! PROOFS. Tests, hashes, extraction and insertion in line form (R40, R42, R57, R58). -/

namespace Sys2Proof.Machine

theorem cmpEff_line {r : Regs} {f : FmtP} (ha : isS f.ra = false) (hb : (f.i || !isS f.rb) = true) :
    cmpEff false r f = .ok [.pred f.pd (cmpTest f.cond (r.get f.ra).toNat (srcOf r f.i f.imm f.rb))] := by
  simp only [cmpEff, specOk_line, ha, hb, Bool.not_false, Bool.not_true, Bool.or_self, Bool.false_eq_true, if_false]

theorem cmpTest_slt (a b : Nat) : cmpTest 6 a b = BitVec.slt (BitVec.ofNat 32 a) (BitVec.ofNat 32 b) := by
  rw [BitVec.slt, ← signed_eq_toInt (by decide), ← signed_eq_toInt (by decide)]
  rfl

theorem tstEff_line {r : Regs} {f : FmtP} (ha : isS f.ra = false) (hb : (f.i || !isS f.rb) = true) (hc : f.cond = 0) :
    tstEff false r f =
      .ok [.pred f.pd (BitVec.ofNat 32 (r.get f.ra).toNat &&& BitVec.ofNat 32 (srcOf r f.i f.imm f.rb) != 0)] := by
  have hne : ∀ a b : Nat, ((a % 2 ^ 32 &&& b % 2 ^ 32) != 0) = (BitVec.ofNat 32 a &&& BitVec.ofNat 32 b != 0) := fun a b => by
    rw [Bool.eq_iff_iff, bne_iff_ne, bne_iff_ne, ne_eq, ne_eq, BitVec.toNat_eq, BitVec.toNat_and]
    rfl
  simp only [tstEff, specOk_line, ha, hb, hc, hne, ne_eq, not_true, decide_false, Bool.not_false, Bool.not_true,
    Bool.or_self, Bool.false_eq_true, if_false]

theorem two_bits : ∀ v : BitVec 2, v = 0 ∨ v = 1 ∨ v = 2 ∨ v = 3 := by decide

theorem hashEff_line {r : Regs} {f : FmtH} (hd : isS f.rd = false) (ho : destOk f.rd = true)
    (hk : f.off.toNat + f.len.toNat ≤ 48) (hl : f.len ≠ 0) (hi : f.fn.toNat < 2 → f.imm = 0) :
    hashEff false r f = .ok [.reg f.rd (BitVec.ofNat 64 (if f.fn = 0 then h1 (sliceB r.key f.off.toNat f.len.toNat)
      else if f.fn = 1 then h2 (sliceB r.key f.off.toNat f.len.toNat)
      else if f.fn = 2 then crc32cWith f.imm.toNat (sliceB r.key f.off.toNat f.len.toNat)
      else spreadHash (sliceB r.key f.off.toNat f.len.toNat)))] := by
  have hne : (sliceB r.key f.off.toNat f.len.toNat).isEmpty = false := by
    have : f.len.toNat ≠ 0 := fun h => hl (BitVec.eq_of_toNat_eq h)
    simpa [sliceB, List.isEmpty_iff] using this
  have himm : (decide (f.fn.toNat < 2) && decide (f.imm ≠ 0)) = false := by simpa using hi
  simp only [hashEff, specOk_line, hd, ho, keyString, hk, himm, hne, if_true, Bool.not_false, Bool.not_true,
    Bool.false_eq_true, if_false]
  obtain h | h | h | h : f.fn = 0 ∨ f.fn = 1 ∨ f.fn = 2 ∨ f.fn = 3 := two_bits f.fn
  all_goals simp [h]

theorem csumEff_line {w : List Byte} {f : FmtH} (hd : isS f.rd = false) (ho : destOk f.rd = true)
    (hk : f.off.toNat + csumLen f ≤ 64) (hf : f.fn ≠ 3) (hl : f.fn = 0 → csumLen f % 2 = 0) :
    csumEff false w f = .ok [.reg f.rd (BitVec.ofNat 64 (if f.fn = 0 then onesSum (sliceB w f.off.toNat (csumLen f))
      else if f.fn = 1 then crc32With f.imm.toNat (sliceB w f.off.toNat (csumLen f))
      else crc32cWith f.imm.toNat (sliceB w f.off.toNat (csumLen f))))] := by
  simp only [csumEff, specOk_line, hd, ho, Nat.not_lt.mpr hk, Bool.not_false, Bool.not_true, Bool.false_eq_true, if_false]
  obtain h | h | h | h : f.fn = 0 ∨ f.fn = 1 ∨ f.fn = 2 ∨ f.fn = 3 := two_bits f.fn
  · simp [h, hl h]
  · simp [h]
  · simp [h]
  · exact absurd h hf

theorem extEff_line {r : Regs} {w : List Byte} {f : FmtX} (hd : isS f.rd = false) (ho : destOk f.rd = true)
    (ha : (!f.reg || !isS f.ra) = true) (hl : f.bit.toNat + f.len1.toNat + 1 ≤ (if f.srcK then 384 else 512)) :
    extEff false r w f = .ok [.reg f.rd (BitVec.ofNat 64 (bitField (if f.srcK then r.key else w)
      (f.bit.toNat + (if f.reg then 8 * ((r.get f.ra).toNat % 64) else 0)) (f.len1.toNat + 1)))] := by
  have hl' : decide ((if f.srcK = true then 384 else 512) < f.bit.toNat + (f.len1.toNat + 1)) = false :=
    decide_eq_false (Nat.not_lt.mpr hl)
  simp only [extEff, specOk_line, hd, ho, ha, hl', Bool.not_false, Bool.not_true, Bool.or_self, Bool.false_eq_true, if_false]

theorem extmEff_line {r : Regs} {f : FmtXM} (hd : isS f.rd = false) (ho : destOk f.rd = true)
    (hl : f.bit.toNat + f.len1.toNat + 1 ≤ 128) :
    extmEff false r f = .ok [.reg f.rd (BitVec.ofNat 64 (bits (r.k[f.ks.toNat]?.getD 0).toNat
      (f.bit.toNat + f.len1.toNat) f.bit.toNat))] := by
  have hl' : decide (128 < f.bit.toNat + (f.len1.toNat + 1)) = false := decide_eq_false (Nat.not_lt.mpr hl)
  have hw : f.bit.toNat + f.len1.toNat + 1 - f.bit.toNat = f.len1.toNat + 1 := by omega
  simp only [extmEff, specOk_line, hd, ho, hl', bits, hw, Bool.not_false, Bool.not_true, Bool.or_self, Bool.false_eq_true,
    if_false]

theorem insEff_line {r : Regs} {f : FmtXI} (hd : isS f.rd = false) (ha : isS f.ra = false) (ho : destOk f.rd = true)
    (hl : f.pos.toNat + f.len1.toNat + 1 ≤ 32) :
    insEff false r f = .ok [.reg f.rd (BitVec.ofNat 64 (setBits (r.get f.rd).toNat (f.pos.toNat + f.len1.toNat)
      f.pos.toNat ((r.get f.ra).toNat % 2 ^ (f.len1.toNat + 1))))] := by
  have hl' : decide (32 < f.pos.toNat + (f.len1.toNat + 1)) = false := decide_eq_false (Nat.not_lt.mpr hl)
  have hw : f.pos.toNat + (f.len1.toNat + 1) - 1 = f.pos.toNat + f.len1.toNat := by omega
  simp only [insEff, specOk_line, hd, ha, ho, widthOf_line hd, hl', hw, Bool.not_false, Bool.not_true, Bool.or_self,
    Bool.false_eq_true, if_false]

theorem keybEff_window {full : Bool} {r : Regs} {w : List Byte} {f : FmtKB} (hs : f.srcReg = false) (hp : 0 < f.len.toNat)
    (hl : f.len.toNat ≤ 16) (hk : f.koff.toNat + f.len.toNat ≤ 48) :
    keybEff full r w f = .ok [.key f.koff.toNat (sliceB w f.woff.toNat f.len.toNat)] := by
  simp [keybEff, hs, hp.ne', Nat.not_lt.mpr hl, Nat.not_lt.mpr hk]

theorem keybEff_reg {r : Regs} {w : List Byte} {f : FmtKB} (hs : f.srcReg = true) (ha : isS f.woff = false)
    (hp : 0 < f.len.toNat) (hl : f.len.toNat ≤ 4) (hk : f.koff.toNat + f.len.toNat ≤ 48) :
    keybEff false r w f = .ok [.key f.koff.toNat (bytesBE f.len.toNat (r.get f.woff).toNat)] := by
  simp [keybEff, hs, ha, hp.ne', Nat.not_lt.mpr hl, Nat.not_lt.mpr hk, show ¬ 16 < f.len.toNat by omega]

/-- Settles O25: each instruction's effect where its operands are those of line form. -/
theorem lineTestsAndBytes : Obligations.LineTestsAndBytes := by
  unfold Obligations.LineTestsAndBytes
  refine ⟨?lt, ?slt, ?cmp, ?tst, ?hash, ?csum, ?ext, ?extm, ?ins, ?keybW, ?keybR, ?adv⟩
  case cmp => exact fun _ _ _ _ _ _ h ha hb => runs_line rfl h (cmpEff_line ha hb)
  case lt =>
    intro _ _ f _ _ _ h ha hb hc
    exact runs_line rfl h ((cmpEff_line ha hb).trans (by rw [hc]; rfl))
  case slt =>
    intro _ _ f _ _ _ h ha hb hc
    exact runs_line rfl h ((cmpEff_line ha hb).trans (by rw [hc, cmpTest_slt]; rfl))
  case tst => exact fun _ _ _ _ _ _ h ha hb hc => runs_line rfl h (tstEff_line ha hb hc)
  case hash => exact fun _ _ _ _ _ _ h hd ho hk hl hi => runs_line rfl h (hashEff_line hd ho hk hl hi)
  case csum => exact fun _ _ _ _ _ _ _ h hd ho hk hf hl => runs_line rfl h (csumEff_line hd ho hk hf hl)
  case ext => exact fun _ _ _ _ _ _ h hd ho ha hl => runs_line rfl h (extEff_line hd ho ha hl)
  case extm => exact fun _ _ _ _ _ _ h hd ho hl => runs_line rfl h (extmEff_line hd ho hl)
  case ins => exact fun _ _ _ _ _ _ h hd ha ho hl => runs_line rfl h (insEff_line hd ha ho hl)
  case keybW => exact fun _ _ _ _ _ _ h hs hp hl hk => runs_line rfl h (keybEff_window hs hp hl hk)
  case keybR => exact fun _ _ _ _ _ _ h hs ha hp hl hk => runs_line rfl h (keybEff_reg hs ha hp hl hk)
  case adv =>
    intro who q f x d w h
    refine runs_lineDo rfl h ?_
    rw [Device.setLine_lineCtx (Device.issues_setLine h)]
    rfl

end Sys2Proof.Machine
end

section
set_option Elab.async false
/-! PROOFS. Edits in line form (R64 to R66, R274, R283, R347). -/

namespace Sys2Proof.Machine

@[simp] theorem Device.setLine_buf (d : Device) (who : Who) (x : Ctx) : (d.setLine who x).buf = d.buf := by
  cases who <;> rfl

@[simp] theorem Device.frame_setLine (d : Device) (who : Who) (x : Ctx) (f : Nat) : (d.setLine who x).frame f = d.frame f := by
  cases who <;> rfl

@[simp] theorem Device.copy_setLine (d : Device) (who : Who) (x : Ctx) (k : Nat) : (d.setLine who x).copy k = d.copy k := by
  cases who <;> rfl

/-- An ingress edit is staged with its frame. -/
theorem runs_edit_ing {c : Instr} {q : Pred} {op enc off fr : Nat} {o : Regs → EditOp} {x : Ctx} {y : Frame} {d : Device}
    {w : List Instr} (e : exec c ⟨d, w⟩ = .next ⟨d.edit (.ing fr) q op enc off o, w⟩)
    (h : d.issues (.ing fr) q op enc = some x) (hy : d.frame fr = some y) {es : List Edit}
    (hes : addEdit y.edits ⟨x.base + off, o x.regs⟩ = es) :
    Runs c d w fun t => ((t.frame fr).map fun z => z.edits) = some es := by
  refine runs_lineDo e h ?_
  rw [Device.frame_modFrame_self, Device.frame_setLine, hy]
  exact congrArg some hes

/-- Settles O28: the frame's or the copy's list of edits after the instruction. -/
theorem lineEdits : Obligations.LineEdits := by
  unfold Obligations.LineEdits
  refine ⟨?push, ?pushEgress, ?pop, ?setf, ?nata, ?tsi, ?seam, ?twin⟩
  case pushEgress =>
    intro q f k x y d w h hy
    refine runs_lineDo rfl h ?_
    rw [Device.copy_modCopy_self, Device.copy_setLine, hy]
    rfl
  all_goals exact fun _ _ _ _ _ _ _ h hy => runs_edit_ing rfl h hy rfl

end Sys2Proof.Machine

/-! PROOFS. What computing instructions leave (R34 to R36, R53, R57, R58, R73), and those that do not execute (R50). -/

namespace Sys2Proof.Machine

variable {d : Device} {e t : Nat} {q : Pred} {op enc id : Nat} {x : Task} {f : Device → Nat → Task → ThrOut}

/-! ### The end of an instruction of a thread -/

@[simp] theorem Device.thr_modTask (d : Device) (id k : Nat) (f : Task → Task) : (d.modTask id f).thr k = d.thr k := rfl

@[simp] theorem Device.task_setThr (d : Device) (k id : Nat) (y : Thread) : (d.setThr k y).task id = d.task id := rfl

/-- The boundary of a thread that has run within its budget: at most the thread stops there. -/
theorem Device.boundary_within (h : (d.thr (thrKey e t)).spent = false) :
    d.boundary e t id = d ∨ ∃ y, d.boundary e t id = d.setThr (thrKey e t) y := by
  unfold Device.boundary
  split
  · exact .inl rfl
  · simp only [h, Bool.false_eq_true, if_false]
    split
    · exact .inr ⟨_, rfl⟩
    · exact .inl rfl

/-- What an instruction that completes leaves of its device but for the task, the thread and the counts of instructions. -/
def Device.instrDone (d : Device) (e id pc : Nat) (x : Task) : Device :=
  ((d.modTask id fun x => { x with regs := { x.regs with pc := BitVec.ofNat 64 pc }, stall := false }).bump (Off.scafEngInstr e) 1).occTask
    0x603 e x

theorem Device.thrDone_within {pc : Nat} (h : (d.thr (thrKey e t)).spent = false) :
    d.thrDone e t id pc x = d.instrDone e id pc x ∨ ∃ y, d.thrDone e t id pc x = (d.instrDone e id pc x).setThr (thrKey e t) y :=
  Device.boundary_within h

@[simp] theorem Device.task_instrDone (d : Device) (e id pc : Nat) (x : Task) :
    (d.instrDone e id pc x).task id =
      (d.task id).map fun x => { x with regs := { x.regs with pc := BitVec.ofNat 64 pc }, stall := false } :=
  Device.task_modTask_self ..

/-- The registers of a task after an instruction that completes. -/
theorem Device.taskRegs_thrDone {pc : Nat} {y : Task} (h : (d.thr (thrKey e t)).spent = false) (hy : d.task id = some y) :
    (d.thrDone e t id pc x).taskRegs id { y.regs with pc := BitVec.ofNat 64 pc } := by
  obtain hd | ⟨z, hd⟩ := Device.thrDone_within (id := id) (pc := pc) (x := x) h <;>
    simp [Device.taskRegs, hd, hy]

theorem Device.threadKept_setThr {t : Device} {e k : Nat} {y : Thread} (h : d.threadKept t e id) :
    d.threadKept (t.setThr k y) e id := by
  obtain ⟨hd, htasks, hregs, hsram⟩ := h
  exact ⟨congrArg (·.setThr k y) hd, htasks, hregs, hsram⟩

/-- An instruction that completes on a device that has changed in its task alone. -/
theorem Device.threadKept_thrDone {t' : Device} {pc : Nat} {g : Task → Task} (h : (d.thr (thrKey e t)).spent = false)
    (ht : t' = d ∨ t' = d.modTask id g) : d.threadKept (t'.thrDone e t id pc x) e id := by
  have hs : (t'.thr (thrKey e t)).spent = false := by
    obtain rfl | rfl := ht
    · exact h
    · exact h
  have hk : d.threadKept (t'.instrDone e id pc x) e id := by
    refine ⟨?_, ?_, ?_, ?_⟩
    · obtain rfl | rfl := ht <;> rfl
    · intro j hj
      obtain rfl | rfl := ht
      · exact NMap.get?_modify_other _ _ hj
      · exact (NMap.get?_modify_other _ _ hj).trans (NMap.get?_modify_other _ _ hj)
    · intro o ho
      have ho : o ≠ Off.scafEngInstr e := by simpa using ho
      obtain rfl | rfl := ht <;> exact Device.reg_bump_other _ _ ho
    · obtain rfl | rfl := ht <;> rfl
  obtain hd | ⟨y, hd⟩ := Device.thrDone_within (id := id) (pc := pc) (x := x) hs
  · rwa [hd]
  · rw [hd]
    exact Device.threadKept_setThr hk

/-! ### A thread at an instruction word (R48 to R50, R76) -/

/-- What the way an instruction ends makes of the device. -/
def Device.outcome (d : Device) (e t id : Nat) (x : Task) : ThrOut → Device
  | .done d => d.thrDone e t id (x.regs.pc.toNat + 1) x
  | .jump d a => d.thrDone e t id a x
  | .again d => d.boundary e t id
  | .exc c a => d.taskException e t id x c a
  | .lost a => (d.heapUe a).taskLost e id a
  | .excAt d c a => d.taskException e t id x c a
  | .lostAt d a => (d.heapUe a).taskLost e id a
  | .left d => (d.bump (Off.scafEngInstr e) 1).occTask 0x603 e x
  | .wait d => d.modTask id fun x => { x with stall := true }

/-- A thread at an instruction word of its own task, before the word's own checks. -/
theorem Device.thrRun_on (h : d.threadOn e t (instWord q op enc) = some (id, x)) (hop : op < 256)
    (henc : enc < 4503599627370496) (hends : op = 0x70 ∨ op = 0x71 → q = ⟨0, false⟩) :
    d.thrRun e t q op enc f =
      if !x.regs.executes q then d.thrDone e t id (x.regs.pc.toNat + 1) x
      else match fullErr op enc with
        | some c => d.taskException e t id x c 0
        | none => d.outcome e t id x (f d id x) := by
  obtain ⟨htask, hid, hstate, hbound, -, hcmd, hdom, hruns, hregion, hword⟩ := Device.threadOn_some h
  have hpc : ¬(x.regs.pc.toNat < 144 ∨ d.bankLen x.bank ≤ x.regs.pc.toNat) := by
    simpa [Device.regionOk, not_or] using hregion
  have hplain : ((op == 0x70 || op == 0x71) && q != ⟨0, false⟩) = false := by
    simpa [or_imp] using hends
  unfold Device.thrRun
  simp only [htask, Option.bind_some, hid, Option.map_some, hstate, hbound, hcmd, hdom, hruns, hword, hpc, hplain,
    bits_instWord_op hop henc, wordPred_instWord henc, instWord_mod henc, Option.isSome_none, Bool.not_true,
    Bool.or_self, Bool.false_eq_true, if_false, ne_eq, not_true]
  cases hx : x.regs.executes q with
  | false => simp
  | true =>
    simp only [if_true, Bool.not_true, Bool.false_eq_true, if_false]
    cases he : fullErr op enc with
    | none =>
      simp only [Option.none_beq_some, Bool.false_eq_true, if_false]
      cases f d id x <;> rfl
    | some c =>
      split
      · next h => rw [Option.some.inj (beq_iff_eq.mp h)]
      · rfl

/-- An instruction that does not execute only advances the pc. -/
theorem Device.thrRun_idle (h : d.threadOn e t (instWord q op enc) = some (id, x)) (hop : op < 256)
    (henc : enc < 4503599627370496) (hends : op ≠ 0x70 ∧ op ≠ 0x71) (hx : x.regs.executes q = false) :
    d.thrRun e t q op enc f = d.thrDone e t id (x.regs.pc.toNat + 1) x := by
  rw [Device.thrRun_on h hop henc (fun h => absurd h (by simpa [not_or] using hends)), hx]
  rfl

/-- An instruction that executes and passes the checks of its word has its own effect. -/
theorem Device.thrRun_at (h : d.threadAt e t q op enc = some (id, x)) (hop : op < 256)
    (henc : enc < 4503599627370496) (hends : op = 0x70 ∨ op = 0x71 → q = ⟨0, false⟩) :
    d.thrRun e t q op enc f = d.outcome e t id x (f d id x) := by
  obtain ⟨hon, hx, herr⟩ := Device.threadAt_some h
  rw [Device.thrRun_on hon hop henc hends, hx, herr]
  rfl

end Sys2Proof.Machine
end

section
set_option Elab.async false
/-! PROOFS. Frames of computing instructions (R34 to R36, R53, R57, R58, R73) and instructions that do not execute (R50). -/

namespace Sys2Proof.Machine

/-! ### An ALU instruction of a thread on s registers (R35, R57) -/

theorem destOk_of_isS {s : BitVec 6} (h : isS s = true) : destOk s = true := by
  have : 48 ≤ s.toNat := by simpa [isS] using h
  simp [destOk, show ¬ s.toNat ≤ 38 by omega]

theorem widthOf_of_isS {s : BitVec 6} (h : isS s = true) : widthOf s = 64 := by simp [widthOf, h]

@[simp] theorem specOk_full (s : BitVec 6) : specOk true s = true := rfl

/-- The second source in 64 bits (R35, R57). -/
def wideB (r : Regs) (f : FmtA) : DWord := if f.i then BitVec.zeroExtend 64 f.imm else r.get f.rb

theorem ofNat_srcOf_wide (r : Regs) (f : FmtA) : BitVec.ofNat 64 (srcOf r f.i f.imm f.rb) = wideB r f := by
  cases h : f.i <;> simp [srcOf, wideB, h, BitVec.ofNat_toNat]

/-- With an s destination an ALU instruction of full form computes in 64 bits. -/
theorem aluEff_wide (op : AluOp) {r : Regs} {f : FmtA} (h : isS f.rd = true) :
    aluEff op true r f = .ok [.reg f.rd (aluBits op f.x (r.get f.ra) (wideB r f))] := by
  simp [aluEff, destOk_of_isS h, widthOf_of_isS h, aluResult_eq, ofNat_srcOf_wide]

section thread
variable {c : Instr} {d : Device} {engine : Fin 32} {thread : Fin 8} {q : Pred} {op enc id : Nat} {x : Task} {w : List Instr}
  {f : Device → Task → List Byte → Except Exc (List Wr)} {ws : List Wr}

/-- An instruction of a thread whose whole effect is results. -/
theorem Device.thrResults_at (h : d.threadAt engine thread q op enc = some (id, x)) (hop : op < 256)
    (henc : enc < 4503599627370496) (hends : op ≠ 0x70 ∧ op ≠ 0x71) (hf : f d x (d.taskWindow id x) = .ok ws) :
    d.thrResults engine thread q op enc f = (d.applyTask id ws).thrDone engine thread id (x.regs.pc.toNat + 1) x := by
  unfold Device.thrResults
  rw [Device.thrRun_at h hop henc (fun h => absurd h (by simpa [not_or] using hends))]
  simp only [hf]
  rfl

/-- An instruction of both forms that only computes, on a thread. -/
theorem Device.compute_at {g : Bool → Regs → List Byte → Except Exc (List Wr)} {lat : Nat}
    (h : d.threadAt engine thread q op enc = some (id, x)) (hop : op < 256) (henc : enc < 4503599627370496)
    (hends : op ≠ 0x70 ∧ op ≠ 0x71) (hg : g true x.regs (d.taskWindow id x) = .ok ws) :
    d.compute (.thr engine thread) q op enc lat g =
      (d.applyTask id ws).thrDone engine thread id (x.regs.pc.toNat + 1) x :=
  Device.thrResults_at (f := fun _ x w => g true x.regs w) h hop henc hends hg

/-- What computing results on a thread leaves unchanged. -/
theorem runs_threadKept {g : Bool → Regs → List Byte → Except Exc (List Wr)} {lat : Nat}
    (e : exec c ⟨d, w⟩ = .next ⟨d.compute (.thr engine thread) q op enc lat g, w⟩)
    (h : d.threadAt engine thread q op enc = some (id, x)) (hop : op < 256) (henc : enc < 4503599627370496)
    (hends : op ≠ 0x70 ∧ op ≠ 0x71) (hg : g true x.regs (d.taskWindow id x) = .ok ws) :
    Runs c d w fun t => d.threadKept t engine id := by
  refine runs_of_exec e ?_
  rw [Device.compute_at h hop henc hends hg]
  obtain ⟨hon, _, _⟩ := Device.threadAt_some h
  obtain ⟨-, -, -, -, hspent, -⟩ := Device.threadOn_some hon
  exact Device.threadKept_thrDone hspent (.inr rfl)

end thread

/-- Settles O51: in line form the context alone changes, on a thread what an instruction that completes changes. -/
theorem framesOfComputing : Obligations.FramesOfComputing := by
  unfold Obligations.FramesOfComputing
  refine ⟨?_, ?_, ?_, ?_, ?_, ?_, ?_, ?_, ?_, ?_, ?_, ?_, ?_, ?_, ?_, ?_, ?_, ?_, ?_, ?_, ?_, ?_, ?csum, ?add, ?sub, ?and, ?or,
    ?xor, ?shl, ?shr, ?rot, ?min, ?max⟩
  case csum => exact fun _ _ _ _ _ _ => runs_lineKept rfl
  case add => exact fun _ f _ _ _ _ _ _ h hs => runs_threadKept rfl h (by decide) f.enc_lt (by decide) (aluEff_wide .add hs)
  case sub => exact fun _ f _ _ _ _ _ _ h hs => runs_threadKept rfl h (by decide) f.enc_lt (by decide) (aluEff_wide .sub hs)
  case and => exact fun _ f _ _ _ _ _ _ h hs => runs_threadKept rfl h (by decide) f.enc_lt (by decide) (aluEff_wide .and hs)
  case or => exact fun _ f _ _ _ _ _ _ h hs => runs_threadKept rfl h (by decide) f.enc_lt (by decide) (aluEff_wide .or hs)
  case xor => exact fun _ f _ _ _ _ _ _ h hs => runs_threadKept rfl h (by decide) f.enc_lt (by decide) (aluEff_wide .xor hs)
  case shl => exact fun _ f _ _ _ _ _ _ h hs => runs_threadKept rfl h (by decide) f.enc_lt (by decide) (aluEff_wide .shl hs)
  case shr => exact fun _ f _ _ _ _ _ _ h hs => runs_threadKept rfl h (by decide) f.enc_lt (by decide) (aluEff_wide .shr hs)
  case rot => exact fun _ f _ _ _ _ _ _ h hs => runs_threadKept rfl h (by decide) f.enc_lt (by decide) (aluEff_wide .rot hs)
  case min => exact fun _ f _ _ _ _ _ _ h hs => runs_threadKept rfl h (by decide) f.enc_lt (by decide) (aluEff_wide .min hs)
  case max => exact fun _ f _ _ _ _ _ _ h hs => runs_threadKept rfl h (by decide) f.enc_lt (by decide) (aluEff_wide .max hs)
  all_goals exact fun _ _ _ _ _ => runs_lineKept rfl

/-! ### Instructions that do not execute (R50) -/

/-- NEXT and END take no predicate, and a context always lets them execute. -/
theorem executes_unpredicated {r : Regs} {q : Pred} (h : r.executes q = false) : ¬(q.pi = 0 ∧ (!q.ps) = true) := by
  rintro ⟨hpi, hps⟩
  have hps : q.ps = false := by simpa using hps
  simp [Regs.executes, Regs.pred, hpi, hps] at h

section idle
variable {d : Device} {who : Who} {q : Pred} {op enc lat off : Nat} {x : Ctx}

/-- No instruction with predication `q` issues for the executor, which is a context. -/
def Device.idles (d : Device) (who : Who) (q : Pred) : Prop :=
  (∃ x, d.lineCtx who = some x) ∧ ∀ op enc, d.issues who q op enc = none

theorem Device.idles_of (hx : d.lineCtx who = some x) (h : x.regs.executes q = false) : d.idles who q :=
  ⟨⟨x, hx⟩, fun _ _ => Device.issues_idle hx h⟩

theorem Device.idles.byForm {full : Nat → Nat → Device} {line : Device} (h : d.idles who q) : byForm who full line = line := by
  obtain ⟨⟨x, hx⟩, _⟩ := h
  exact byForm_line hx

theorem Device.idles.lineResults {f : Ctx → Except Exc (List Wr)} (h : d.idles who q) :
    d.lineResults who q op enc lat f = d := Device.lineResults_idle (h.2 _ _)

theorem Device.idles.lineDo {f : Device → Ctx → Device} (h : d.idles who q) : d.lineDo who q op enc f = d :=
  Device.lineDo_idle (h.2 _ _)

theorem Device.idles.compute {f : Bool → Regs → List Byte → Except Exc (List Wr)} (h : d.idles who q) :
    d.compute who q op enc lat f = d := h.byForm.trans h.lineResults

theorem Device.idles.edit {o : Regs → EditOp} (h : d.idles who q) : d.edit who q op enc off o = d :=
  h.byForm.trans h.lineDo

theorem Device.idles.forwardBy {f : FmtW} {line : Regs → List Wr} {full : Regs → Except Exc (List Wr)} (h : d.idles who q) :
    d.forwardBy who q op f line full = d := h.byForm.trans h.lineResults

end idle

theorem exec_to {c : Instr} {d t t' : Device} {w : List Instr} (e : exec c ⟨d, w⟩ = .next ⟨t, w⟩) (h : t = t') :
    exec c ⟨d, w⟩ = .next ⟨t', w⟩ := h ▸ e

end Sys2Proof.Machine
end

section
set_option Elab.async false
/-! PROOFS. Instructions that do not execute, of a context and of a thread (R50). -/

namespace Sys2Proof.Machine

/-- An instruction that does not execute has no effect in line form. -/
theorem exec_idle {i : Instr} {who : Who} {units word : Nat} {beyond : Bool} {x : Ctx} {d : Device} {w : List Instr}
    (h : i.dravea = some (who, units, beyond, word)) (hx : d.lineCtx who = some x)
    (hq : x.regs.executes (wordPred word) = false) : exec i ⟨d, w⟩ = .next ⟨d, w⟩ := by
  have idle : d.idles who (wordPred word) := Device.idles_of hx hq
  have plain := executes_unpredicated hq
  unfold Instr.dravea at h
  split at h <;> cases h <;> try cases hx
  all_goals rw [wordPred_instWord (by simp)] at idle plain
  all_goals
    refine exec_to rfl ?_
    simp only [idle.compute, idle.edit, idle.forwardBy, idle.byForm, idle.lineResults, idle.lineDo, plain, if_false,
      Device.lineAdv, Device.lineLookup, Device.lineLkf, Device.lineFld, Device.lineFst, Device.lineFadd, Device.lineFcas,
      Device.lineFstamp, Device.lineFlearn, Device.lineRecirc, Device.lineMirror, ite_self]

theorem byForm_thr {e : Fin 32} {k : Fin 8} {full : Nat → Nat → Device} {line : Device} :
    byForm (.thr e k) full line = full e k := by rw [byForm]

/-- An instruction of a thread that does not execute advances the pc. -/
theorem exec_thread_idle {i : Instr} {e : Fin 32} {k : Fin 8} {units word id : Nat} {beyond : Bool} {x : Task} {d : Device}
    {w : List Instr} (h : i.dravea = some (.thr e k, units, beyond, word)) (hon : d.threadOn e k word = some (id, x))
    (hnext : bits word 63 56 ≠ 0x70) (hend : bits word 63 56 ≠ 0x71) (hq : x.regs.executes (wordPred word) = false) :
    exec i ⟨d, w⟩ = .next ⟨d.thrDone e k id (x.regs.pc.toNat + 1) x, w⟩ := by
  unfold Instr.dravea at h
  split at h <;> cases h
  all_goals
    rw [wordPred_instWord (by simp)] at hq
    rw [bits_instWord_op (by decide) (by simp)] at hnext hend
    refine exec_to rfl ?_
    simp only [Device.compute, Device.edit, Device.forwardBy, Device.thrForward, Device.thrFld, byForm_thr]
    exact Device.thrRun_idle hon (by decide) (by simp) ⟨hnext, hend⟩ hq

/-- Settles O48: an instruction that does not execute issues nothing, and on a thread only completes. -/
theorem nonExecutingInstructions : Obligations.NonExecutingInstructions := by
  refine ⟨fun _ _ _ _ _ _ _ _ => exec_idle, ?_⟩
  intro i e k units beyond word id x d w h hon hnext hend hq
  obtain ⟨-, hid, -, -, hspent, -⟩ := Device.threadOn_some hon
  exact runs_of_exec (exec_thread_idle h hon hnext hend hq)
    ⟨Device.taskRegs_thrDone hspent hid, Device.threadKept_thrDone (g := fun y => y) hspent (.inl rfl)⟩

end Sys2Proof.Machine
end

section
set_option Elab.async false
/-! PROOFS. NEXT, END and the time instructions in line form (R53, R56, R70, R71, R86, R89). -/

namespace Sys2Proof.Machine

variable {d : Device} {who : Who} {x : Ctx}

/-! ### Results that become visible (R53, R54) -/

/-- The context at another step word of a station. -/
def Ctx.movedTo (x : Ctx) (s : Nat) (word : Option Nat) (issued : List Nat) : Ctx :=
  { x with station := s, word := word, issued := issued }

variable {s : Nat} {word : Option Nat} {issued : List Nat}

theorem Ctx.applyWr_movedTo (x : Ctx) (w : Wr) :
    (x.movedTo s word issued).applyWr w = (x.applyWr w).movedTo s word issued := by
  cases w <;> rfl

theorem Ctx.foldl_applyWr_movedTo (l : List (Nat × Wr)) (x : Ctx) :
    l.foldl (fun x p => x.applyWr p.2) (x.movedTo s word issued) =
      (l.foldl (fun x p => x.applyWr p.2) x).movedTo s word issued := by
  induction l generalizing x with
  | nil => rfl
  | cons p l ih => simp only [List.foldl_cons, Ctx.applyWr_movedTo, ih]

/-- Results are written to the registers alone, wherever the context stands. -/
theorem Ctx.settleAt_movedTo (x : Ctx) (n : Nat) :
    (x.movedTo s word issued).settleAt n = (x.settleAt n).movedTo s word issued := by
  have h := Ctx.foldl_applyWr_movedTo (s := s) (word := word) (issued := issued)
    ((x.pend.filter fun p => p.1 == n).filter fun p => !p.2.isLearn) { x with pend := x.pend.filter fun p => p.1 != n }
  unfold Ctx.settleAt
  simp only
  rw [← Ctx.foldl_applyWr_movedTo, ← h]
  rfl

/-! ### Reading a step word (R71, R85) -/

/-- The context with the times and the gates of its entry into a station. -/
def Ctx.stamped (x : Ctx) (d : Device) : Ctx := { x with tbs := (List.range 8).map d.tbNow, gates := d.gateShot }

theorem Device.readWord_of_reload (h : d.pipes.reload = []) : d.readWord who x = d.setLine who (x.stamped d) := by
  have hgone : ∀ (y : Ctx) n i, d.wordGone y n i = false := fun y n i => by
    unfold Device.wordGone
    split
    · rw [h]; rfl
    · rfl
  unfold Device.readWord
  simp only [hgone, Bool.and_false, Bool.false_eq_true, if_false]
  split <;> rfl

@[simp] theorem Device.setLine_pipes (d : Device) (who : Who) (x : Ctx) : (d.setLine who x).pipes = d.pipes := by
  cases who <;> rfl

theorem Ctx.stamped_setLine (d : Device) (who : Who) (x y : Ctx) : y.stamped (d.setLine who x) = y.stamped d := by
  cases who <;> rfl

/-! ### NEXT (R86, R89) -/

theorem exec_next_context {f : FmtC} {w : List Instr} (hx : d.lineCtx who = some x) :
    exec (.next who ⟨0, false⟩ f) ⟨d, w⟩ = .next ⟨d.lineNext who f, w⟩ :=
  exec_to rfl ((byForm_line hx).trans (if_pos ⟨rfl, rfl⟩))

/-- NEXT at the end of its step word moves the context to the successor. -/
theorem Device.lineNext_eq {f : FmtC} {i k : Nat} (hx : d.lineCtx who = some x) (hi : x.word = some i) (hl : x.live = true)
    (hc : (⟨((d.stationWords x x.station).getD i 0).toNat, []⟩ : WInfo).cword = instWord ⟨0, false⟩ 0x70 f.enc)
    (ho : d.owes x = false) (hs : x.station < x.last)
    (hk : k = (⟨((d.stationWords x x.station).getD i 0).toNat, []⟩ : WInfo).succ
      (b2n (x.regs.pred f.sa) + (if f.b2 then 2 * b2n (x.regs.pred f.sb) else 0)))
    (hlen : k < (d.stationWords x (x.station + 1)).length) :
    d.lineNext who f = d.moveOn who x (some k) := by
  subst hk
  unfold Device.lineNext
  simp only [hx, hi, hl, hc, ho, hs, hlen, beq_self_eq_true, Bool.not_false, decide_true, Bool.and_self, if_true]

/-- A context without a flow step due in the next station stands there, its results written. -/
theorem Device.lineCtx_moveOn {k : Nat} (hx : d.lineCtx who = some x) (hdue : x.flowDue (x.station + 1) = none)
    (hr : d.pipes.reload = []) :
    ∃ w, (d.moveOn who x (some k)).lineCtx who =
      some ({ (x.settleAt (x.station + 1)).movedTo (x.station + 1) (some k) [] with w := w }.stamped d) := by
  have harr : d.arrive who { x with word := some k, issued := [] } (x.station + 1) =
      d.setLine who ((x.settleAt (x.station + 1)).movedTo (x.station + 1) (some k) []) := by
    have hdue' : ({ x with word := some k, issued := [] } : Ctx).flowDue (x.station + 1) = none := hdue
    rw [← Ctx.settleAt_movedTo]
    unfold Device.arrive
    rw [hdue']
    cases who <;> rfl
  have hset (y z : Ctx) : ((d.setLine who y).readWord who z).lineCtx who = some (z.stamped d) := by
    rw [Device.readWord_of_reload (by simpa using hr), Device.setLine_lineCtx (Device.setLine_lineCtx hx),
      Ctx.stamped_setLine]
  unfold Device.moveOn
  simp only [hdue, harr, Device.setLine_lineCtx hx, hset]
  cases who with
  | ing f => exact ⟨_, rfl⟩
  | egr c => exact ⟨_, rfl⟩
  | thr e t => cases hx

/-! ### END (R56, R70) -/

theorem exec_end_context {w : List Instr} (hx : d.lineCtx who = some x) :
    exec (.end_ who ⟨0, false⟩) ⟨d, w⟩ = .next ⟨d.lineEnd who, w⟩ :=
  exec_to rfl ((byForm_line hx).trans (if_pos ⟨rfl, rfl⟩))

theorem Device.lineEnd_eq {i : Nat} (hx : d.lineCtx who = some x) (hi : x.word = some i) (hl : x.live = true)
    (hc : slotWord ((d.stationWords x x.station).getD i 0).toNat 5 = instWord ⟨0, false⟩ 0x71 0) (ho : d.owes x = false) :
    d.lineEnd who = d.setLine who { x with word := none } := by
  unfold Device.lineEnd
  simp only [hx, hi, Option.map_some, hl, hc, ho, beq_self_eq_true, Bool.not_false, Bool.and_self, if_true]

/-! ### Time (R71) -/

section time
variable {q : Pred} {op enc : Nat}

theorem Device.timeAt_of_issues {n : Nat} {b : TimeBase} (h : d.issues who q op enc = some x) (hb : x.tbs[n]? = some b) :
    d.timeAt who n = b := by
  obtain ⟨y, _, hy, rfl⟩ := Device.issues_some h
  have hb : y.tbs[n]? = some b := hb
  simp [Device.timeAt, hy, List.getD_eq_getElem?_getD, hb]

theorem Device.gateAt_of_issues {p k : Nat} (h : d.issues who q op enc = some x) :
    d.gateAt who p k = bit ((NMap.get? x.gates p).getD 255) k := by
  obtain ⟨y, _, hy, rfl⟩ := Device.issues_some h
  simp only [Device.gateAt, hy]
  rfl

theorem timePart_eq (b : TimeBase) (p : Nat) : timePart b p =
    if p = 0 then b.count % 2 ^ 32 else if p = 1 then b.count / 2 ^ 32 else if p = 2 then b.sec % 2 ^ 32 else b.ns := by
  unfold timePart
  split
  · rw [if_pos rfl]
  · rw [if_neg (by decide), if_pos rfl]
  · rw [if_neg (by decide), if_neg (by decide), if_pos rfl]
  · next h0 h1 h2 => rw [if_neg h0, if_neg h1, if_neg h2]

theorem timePart_count (b : TimeBase) {p : Nat} (h : p = 0) : timePart b p = b.count % 2 ^ 32 := by
  rw [timePart_eq, if_pos h]

theorem timePart_high (b : TimeBase) {p : Nat} (h : p = 1) : timePart b p = b.count / 2 ^ 32 := by
  rw [timePart_eq, h, if_neg (by decide), if_pos rfl]

theorem timePart_sec (b : TimeBase) {p : Nat} (h : p = 2) : timePart b p = b.sec % 2 ^ 32 := by
  rw [timePart_eq, h, if_neg (by decide), if_neg (by decide), if_pos rfl]

theorem timePart_ns (b : TimeBase) {p : Nat} (h : p = 3) : timePart b p = b.ns := by
  rw [timePart_eq, h, if_neg (by decide), if_neg (by decide), if_neg (by decide)]

theorem Device.arrivalOf_ing {fr : Nat} {y : Frame} (h : d.frame fr = some y) : d.arrivalOf (.ing fr) = y.arrTb0 := by
  simp only [Device.arrivalOf, Device.ctxArrival, h]

/-- The comparison of a time with a value is that of the signed 32-bit difference. -/
theorem timeCmp_eq (now v : Nat) : timeCmp now v = !BitVec.slt (BitVec.ofNat 32 now - BitVec.ofNat 32 v) 0 := by
  have hdiff : BitVec.ofNat 32 ((now % 2 ^ 32 + 2 ^ 32 - v % 2 ^ 32) % 2 ^ 32) = BitVec.ofNat 32 now - BitVec.ofNat 32 v := by
    apply BitVec.eq_of_toNat_eq
    simp only [BitVec.toNat_ofNat, BitVec.toNat_sub]
    omega
  rw [timeCmp, ← Nat.mod_mod, signed_eq_toInt (by decide), hdiff, BitVec.slt, ← decide_not]
  simp

end time

/-- Settles O30: NEXT by the context it leaves in the next station, the time instructions by what they read of the context. -/
theorem sequencerAndTime : Obligations.SequencerAndTime := by
  unfold Obligations.SequencerAndTime
  refine ⟨?next, ?end_, ?count, ?high, ?sec, ?ns, ?tcmp, ?tstamp, ?gate, ?noGate⟩
  case next =>
    intro who f x i k d w hx hi hl hc ho hs hdue hk hlen hr
    refine runs_of_exec (exec_next_context hx) ?_
    obtain ⟨v, hv⟩ := Device.lineCtx_moveOn (k := k) hx hdue hr
    rw [Device.lineNext_eq hx hi hl hc ho hs hk hlen, hv, Option.any_some]
    simp [Ctx.stamped, Ctx.movedTo]
  case end_ =>
    intro who x i d w hx hi hl hc ho
    refine runs_of_exec (exec_end_context hx) ?_
    rw [Device.lineEnd_eq hx hi hl hc ho, Device.setLine_lineCtx hx]
  case count =>
    intro who q f x b d w h hb hp
    exact runs_line rfl h (congrArg (fun v => Except.ok [Wr.reg f.rd (BitVec.ofNat 64 v)])
      (by rw [Device.timeAt_of_issues h hb, timePart_count _ (congrArg BitVec.toNat hp)]))
  case high =>
    intro who q f x b d w h hb hp
    exact runs_line rfl h (congrArg (fun v => Except.ok [Wr.reg f.rd (BitVec.ofNat 64 v)])
      (by rw [Device.timeAt_of_issues h hb, timePart_high _ (congrArg BitVec.toNat hp)]))
  case sec =>
    intro who q f x b d w h hb hp
    exact runs_line rfl h (congrArg (fun v => Except.ok [Wr.reg f.rd (BitVec.ofNat 64 v)])
      (by rw [Device.timeAt_of_issues h hb, timePart_sec _ (congrArg BitVec.toNat hp)]))
  case ns =>
    intro who q f x b d w h hb hp
    exact runs_line rfl h (congrArg (fun v => Except.ok [Wr.reg f.rd (BitVec.ofNat 64 v)])
      (by rw [Device.timeAt_of_issues h hb, timePart_ns _ (congrArg BitVec.toNat hp)]))
  case tcmp =>
    intro who q f x b d w h hb
    exact runs_line rfl h (congrArg (fun v => Except.ok [Wr.pred f.pd v])
      (by rw [Device.tcmp, Device.timeAt_of_issues h hb, timeCmp_eq]))
  case tstamp =>
    intro q f fr x y d w h hy ht hp
    exact runs_line rfl h (congrArg (fun v => Except.ok [Wr.reg f.rd (BitVec.ofNat 64 v)])
      (by rw [ht, timePart_count _ (congrArg BitVec.toNat hp), Device.arrivalOf_ing hy]; rfl))
  case gate =>
    intro who q f x g d w h hg
    exact runs_line rfl h (congrArg (fun v => Except.ok [Wr.pred f.pd v])
      (by rw [Device.gateAt_of_issues h, hg, Option.getD_some]))
  case noGate =>
    intro who q f x d w h hg
    have hopen : ∀ k < 8, bit 255 k = true := by decide
    exact runs_line rfl h (congrArg (fun v => Except.ok [Wr.pred f.pd v])
      (by rw [Device.gateAt_of_issues h, hg, Option.getD_none, hopen _ (Nat.mod_lt _ (by decide))]))

end Sys2Proof.Machine
end

section
set_option Elab.async false
/-! PROOFS. A frame that has left frees its cells, and the pause that its account held may end with it: the pause frame that says so follows
on the wire in the same step (R222, R224, R309, R313). -/

namespace Sys2Proof.Machine

/-- The frame that port 8 is sending: complete, and the one frame that the account of the port's class 0 holds. -/
def leavingFrame : Frame :=
  { Frame.blank 8 (List.replicate 64 0) with done := true, place := .out, acct := .shared 8 0, cells := 1 }

/-- Its copy, presented to the MAC of port 8. -/
def leavingCopy : Copy :=
  { frame := 0, pipe := 0, port := 8, cls := 0, quote := none, deadline := 0, egen := 0, m := zeroM, snap := [], edits := [], egEdits := [],
    spray := none, chan := none, cut := none, mirror := none, stage := .mac, cutThrough := false, hint := 64, presentAt := some 0,
    txTime := 0, held := false, pastClose := false }

/-- `xoffHeld` while its port 8 sends that frame. -/
def xoffSending : Device :=
  (xoffHeld.modBuf fun b => { b with frames := [(0, leavingFrame)], nextFrame := 1, copies := [(0, leavingCopy)], nextCopy := 1 }).modPort 8
    fun x => { x with tx := some 0 }

/-- The step counts two frames sent, the frame itself and the pause frame that ends XOFF. -/
theorem xoffSending_transmitComplete :
    xoffSending.reg64 (Off.portTxFramesLo 8) = 0 ∧
      (xoffSending.transmitComplete 8 0).reg64 (Off.portTxFramesLo 8) = 2 := by
  decide +kernel

/-- Refutes O14 at its clause on the end of a transmission: `xoffSending` meets its hypotheses, and two frames are counted where the clause
says one. -/
theorem not_transmission : ¬ Obligations.Transmission := by
  unfold Obligations.Transmission
  rintro ⟨-, -, -, -, -, -, hcomplete, -, -⟩
  obtain ⟨t, ht, -, hone⟩ := hcomplete 8 0 0 leavingCopy leavingFrame xoffSending [] (by decide +kernel) rfl (by decide +kernel) rfl rfl rfl
    rfl
  cases ht
  obtain ⟨-, hframes, -⟩ := hone rfl
  obtain ⟨hold, hnew⟩ := xoffSending_transmitComplete
  have htwo : 2 = (0 + 1) % 2 ^ 64 := by
    rw [← hold, ← hnew]
    exact hframes
  exact absurd htwo (by decide)

end Sys2Proof.Machine
end

section
set_option Elab.async false
/-! PROOFS. A task that an exception ends gives up its frame, and the pause that the frame's account held may end with it: a frame count of a
port moves in the same step (R76, R222, R224, R309, R313). The statements speak of every device, so also of one whose stale pause stands
at the index whose count has the offset of a thread's exception pc. -/

namespace Sys2Proof.Machine

/-- The index at which PORT_TX_FRAMES_LO has the offset of SCAF_THR_EPC of thread 0 of engine 0. -/
def epcPort : Nat := 0x810

theorem portTxFramesLo_epcPort : Off.portTxFramesLo epcPort = Off.scafThrEpc 0 0 := by decide

/-- A task at word 144 of bank 0 with the copy of a complete frame that nobody else reads. -/
def framedTask : Task :=
  { level := 15, bank := 0, disp := 0x7F, frame := some 0, frameless := false, at_ := .thread 0 0, regs := { Regs.zero with pc := 0x90 }, base := 0,
    f := none, hit := none, own := [], edits := [], mirror := none, locks := [], lockEngine := none, ran := 0, since := 0, budget := 0,
    rxTime := 0, rxTransit := 0, arrTb0 := 0, arrTransit := 0, len := 64, cmd := none, stall := false }

/-- The scaffold runs task `id` on thread 0 of engine 0, with `word` where its pc stands. -/
def runningTask (word id : Nat) (x : Task) (bound : Bool) : Scaf :=
  { Device.reset.scaf with
    sram := Mem.writeN 0 [] 0x480 (bytesLE 8 word), tasks := [(id, x)], threads := [(0, ⟨.running, some id, 0, false, false, bound⟩)] }

/-- That task's device, with a stale XOFF at `epcPort`. -/
def pausedTask (word : Nat) (x : Task) (bound : Bool) : Device :=
  let d := { Device.reset with
    pwr := { Power.reset with phase := .started, alive := true, squelch := false }, scaf := runningTask word 0 x bound }
  ((d.setReg Off.scafCodeLen0 0x92).setReg (Off.portStatus epcPort) (2 ^ 31 + 1)).modBuf fun b =>
    { b with asserted := [(epcPort, 0)], frames := [(0, leavingFrame)], nextFrame := 1, copies := [(0, leavingCopy)], nextCopy := 1 }

/-- JMP to word 0, outside the code region. -/
def outsideJump : FmtJ := ⟨0, false, 0⟩

/-- What a command leaves passes a test. -/
def endsIn (c : Instr) (d : Device) (b : Device → Bool) : Bool :=
  match exec c ⟨d, []⟩ with
  | .next s => b s.dev
  | _ => false

theorem endsIn_of_runs {c : Instr} {d : Device} {b : Device → Bool} (h : Runs c d [] fun t => b t = true) : endsIn c d b = true := by
  obtain ⟨t, ht, hb⟩ := h
  rw [endsIn, ht]
  exact hb

/-- The paused task at that jump. -/
def pausedJump : Device := pausedTask (instWord ⟨0, false⟩ 0x90 outsideJump.enc) framedTask false

/-- Refutes O31 at its ADDRESS clause: after the jump of `pausedJump` the exception pc of the thread is not the pc of the task. -/
theorem not_threadControl : ¬ Obligations.ThreadControl := by
  unfold Obligations.ThreadControl
  rintro ⟨-, haddress, -⟩
  have htook := haddress 0 0 ⟨0, false⟩ outsideJump 0 framedTask pausedJump [] (by decide +kernel) (by decide +kernel)
  exact absurd (endsIn_of_runs htook) (by decide +kernel)

/-- A load of 8 bytes at address 1, which is not aligned. -/
def skewLoad : FmtM := ⟨63, 48, 3, 1⟩

/-- The paused task at that load. -/
def pausedLoad : Device := pausedTask (instWord ⟨0, false⟩ 0x98 skewLoad.enc) framedTask false

/-- Refutes O32 at its ALIGN clause, in the same way with `pausedLoad`. -/
theorem not_threadMemory : ¬ Obligations.ThreadMemory := by
  unfold Obligations.ThreadMemory
  rintro ⟨-, halign, -⟩
  have htook := halign 0 0 ⟨0, false⟩ skewLoad 0 framedTask pausedLoad [] (by decide +kernel) (by decide +kernel) (by decide +kernel)
  exact absurd (endsIn_of_runs htook) (by decide +kernel)

/-- The paused task with a budget of 1 µs that it has spent, on a thread bound to it. -/
def pausedSpent : Device := pausedTask 0 { framedTask with budget := 1, ran := 1000 } true

/-- Refutes O36 at its clause on a bound thread, in the same way with `pausedSpent`. -/
theorem not_scaffoldTime : ¬ Obligations.ScaffoldTime := by
  unfold Obligations.ScaffoldTime
  rintro ⟨-, -, -, -, hbound, -⟩
  have htook := hbound 0 0 0 { framedTask with budget := 1, ran := 1000 } pausedSpent [] (by decide +kernel) (by decide +kernel)
    (by decide +kernel) (by decide +kernel)
  exact absurd (endsIn_of_runs htook) (by decide +kernel)

end Sys2Proof.Machine
end

section
set_option Elab.async false
/-! PROOFS. A contained pipeline passes its frame on as bad, which ends the copies already started; a frame that nothing else reads is freed
with the last of them (R233, R447), and no pass follows. -/

namespace Sys2Proof.Machine

/-- A context past the last station of pipeline 1, with m3 naming port 512. -/
def recircCtx : Ctx :=
  { pipe := 1, egress := false, slot := 0, tblSlot := 0, tblCoat := none, station := 23, word := none,
    regs := { Regs.zero with m := zeroM.set 3 512 }, entry := Regs.zero, w := List.replicate 64 0, base := 0, nextBase := 0, f := none,
    pend := [], stopAt := none, issued := [], tbs := [], gates := [], spaces := 0 }

/-- The frame of `leavingCopy` with that context, first in the line of pipeline 1, whose domain is under recovery. -/
def containedPass : Device :=
  let d := xoffHeld.modBuf fun b => { b with
    frames := [(0, { leavingFrame with pipe := 1 })], nextFrame := 1, copies := [(0, leavingCopy)], nextCopy := 1 }
  { d.modPipe 1 fun q => { q with line := [0] } with
    ctxs := [(0, recircCtx)], fault := { d.fault with doms := [(domKey 2 1, { Domain.reset with state := .stopped })] } }

/-- Refutes O12 at its clause on port 512: at the end of the pass of `containedPass` the frame is gone. -/
theorem not_passEntryAndExit : ¬ Obligations.PassEntryAndExit := by
  unfold Obligations.PassEntryAndExit
  rintro ⟨-, -, hrecirc, -⟩
  obtain ⟨t, ht, hframe, -⟩ := hrecirc 0 recircCtx { leavingFrame with pipe := 1 } containedPass [] rfl rfl rfl rfl rfl rfl (by decide +kernel)
    (by decide +kernel) (by decide +kernel) (by decide +kernel) (by decide +kernel)
  exact absurd (endsIn_of_runs (b := fun t => (t.frame 0).isSome) ⟨t, ht, Option.isSome_of_any hframe⟩) (by decide +kernel)

end Sys2Proof.Machine
end

section
set_option Elab.async false
/-! PROOFS. SCAF_THR_EXC holds 32 bits, so not every sum of its code and a task number (R76). -/

namespace Sys2Proof.Machine

/-- FWD to the port that v0 names. -/
def forwardV0 : FmtW := { reg := true, ra := 0, val := 0, aux := 0 }

/-- A task whose v0 names port 512. -/
def forwardTask : Task := { framedTask with frame := none, regs := { framedTask.regs with v := framedTask.regs.v.set 0 512 } }

/-- The scaffold runs it, under a number beyond every page, at that FWD. -/
def forwardPaused : Device :=
  { Device.reset.setReg Off.scafCodeLen0 0x92 with
    pwr := { Power.reset with phase := .started, alive := true, squelch := false }
    scaf := runningTask (instWord ⟨0, false⟩ 0x60 forwardV0.enc) (2 ^ 31) forwardTask false }

/-- Refutes O29 at its clause on a FWD of a thread that names no port: the value it claims for SCAF_THR_EXC takes 33 bits. -/
theorem not_lineForwarding : ¬ Obligations.LineForwarding := by
  unfold Obligations.LineForwarding
  rintro ⟨-, -, -, -, -, -, -, -, -, -, -, -, -, -, hbad, -⟩
  obtain ⟨t, -, -, hexc⟩ := hbad ⟨0, false⟩ forwardV0 0 0 (2 ^ 31) forwardTask forwardPaused [] (by decide +kernel) rfl (by decide +kernel)
  have hlt : 2 ^ 31 + 7 * 2 ^ 16 + 2 ^ 31 < 2 ^ 32 := hexc ▸ t.reg_lt _
  exact absurd hlt (by decide)

end Sys2Proof.Machine
end

section
set_option Elab.async false
/-! PROOFS. What a store of a thread, a flash operation and the recovery loader leave of the memories (R73, R199, R427, R496). -/

namespace Sys2Proof.Machine

/-! ### The store address of a thread -/

theorem memAddr_eq (r : Regs) (f : FmtM) : memAddr r f = (r.get f.ra + BitVec.signExtend 64 f.off).toNat := by
  have hsigned : signed 37 f.off.toNat = f.off.toInt := by
    have h := signed_eq_toInt (w := 37) (by decide) f.off.toNat
    rwa [Nat.mod_eq_of_lt f.off.isLt, BitVec.ofNat_toNat, BitVec.setWidth_eq] at h
  rw [memAddr, unsigned, hsigned, BitVec.toNat_add, BitVec.signExtend, BitVec.toNat_ofInt]
  omega

/-! ### Requests to the render store (R201) -/

/-- `t` is `d` after requests to the render store at most: its bytes stay, and of the registers RSTORE_SELFREF alone may change. -/
def Device.Asked (d t : Device) : Prop :=
  t = { d with regs := t.regs, rstore := t.rstore } ∧ t.rstore.bytes = d.rstore.bytes ∧ d.regsKept t (fun o => o == Off.rstoreSelfref)

namespace Device.Asked

variable {d t : Device}

theorem refl (d : Device) : d.Asked d := ⟨rfl, rfl, fun _ _ => rfl⟩

theorem modRstore {f : Rstore → Rstore} (h : d.Asked t) (hf : (f t.rstore).bytes = t.rstore.bytes) : d.Asked (t.modRstore f) := by
  obtain ⟨hd, hbytes, hregs⟩ := h
  exact ⟨by rw [hd]; rfl, hf.trans hbytes, hregs⟩

theorem setFlag {n : Nat} {b : Bool} (h : d.Asked t) : d.Asked (t.setFlag Off.rstoreSelfref n b) := by
  obtain ⟨hd, hbytes, hregs⟩ := h
  refine ⟨by rw [hd]; rfl, hbytes, fun o ho => ?_⟩
  exact (t.reg_setReg_other _ (by simpa using ho)).trans (hregs o ho)

theorem stackWake {st : Nat} (h : d.Asked t) : d.Asked (t.stackWake st) := by
  have hlast : d.Asked (t.modRstore fun r => { r with lastReq := NMap.set r.lastReq st t.transit }) := h.modRstore rfl
  unfold Device.stackWake
  extract_lets t'
  split
  · exact hlast.setFlag
  · exact hlast

theorem modRchan {c : Nat} {f : RChan → RChan} (h : d.Asked t) : d.Asked (t.modRchan c f) := h.modRstore rfl

theorem requestSend {p a n : Nat} {m : Nat × Nat} {b : Bool} (h : d.Asked t) : d.Asked (t.requestSend p m b a n) := by
  unfold Device.requestSend
  split
  · exact h
  · split
    · exact h
    · exact h.stackWake.modRchan.modRstore rfl

theorem portError {p a s : Nat} (h : d.Asked t) : d.Asked (t.portError p a s) := h.modRstore rfl

theorem requestBlock {p a n : Nat} {m : Nat × Nat} {b : Bool} (h : d.Asked t) : d.Asked (t.requestBlock p m b a n) := by
  unfold Device.requestBlock
  split
  · exact h.portError
  · split
    · exact h.requestSend
    · have herr : ∀ p a s, d.Asked (if 4 ≤ p then t.portError p a s else t) := fun p a s => by
        split
        · exact h.portError
        · exact h
      extract_lets t'
      split
      · split
        · exact (herr _ _ _).requestSend
        · exact herr _ _ _
      · exact herr _ _ _

theorem request {p a n : Nat} {m : Nat × Nat} {b : Bool} (h : d.Asked t) : d.Asked (t.request p m a b n) := by
  unfold Device.request
  exact List.foldlRecOn (motive := d.Asked) _ _ h fun t ht _ _ => Device.Asked.requestBlock ht

theorem heapTraffic {e a n : Nat} {b : Bool} (h : d.Asked t) : d.Asked (t.heapTraffic e a n b) := by
  unfold Device.heapTraffic
  split
  · exact h
  · split
    · exact h.request
    · exact h

theorem reg_region (h : d.Asked t) {n : Nat} (hn : n ∈ List.range 8) : t.reg (Off.rstoreRegion n) = d.reg (Off.rstoreRegion n) := by
  have hn : n < 8 := List.mem_range.mp hn
  have hne : Off.rstoreRegion n ≠ Off.rstoreSelfref := by
    unfold Off.rstoreRegion Off.rstoreSelfref
    omega
  exact h.2.2 _ (by simpa using hne)

theorem regionOf (h : d.Asked t) (a : Nat) : t.regionOf a = d.regionOf a :=
  List.find?_congr fun n hn => by simp only [h.reg_region hn]

theorem regionBase (h : d.Asked t) (k : Nat) : t.regionBase k = d.regionBase k := by
  have hfind := List.find?_congr (l := List.range 8)
    (p₁ := fun n => t.flag (Off.rstoreRegion n) 31 && t.fld (Off.rstoreRegion n) 30 28 == k)
    (p₂ := fun n => d.flag (Off.rstoreRegion n) 31 && d.fld (Off.rstoreRegion n) 30 28 == k)
    fun n hn => by simp only [Device.flag_congr (h.reg_region hn), Device.fld_congr (h.reg_region hn)]
  unfold Device.regionBase
  rw [hfind]
  refine Option.map_congr fun n hn => ?_
  rw [Device.fld_congr (h.reg_region (List.mem_of_find?_eq_some hn))]

theorem heapAddr (h : d.Asked t) (x : Nat) : t.heapAddr x = d.heapAddr x := by
  unfold Device.heapAddr
  rw [h.regionBase]
  simp only [h.regionOf]
  congr 1
  funext b
  split
  · next n hn => rw [Device.fld_congr (h.reg_region (List.mem_of_find?_eq_some hn))]
  · rfl

end Device.Asked

/-! ### A store of a thread -/

/-- A write of bytes changes those of its range alone. -/
theorem memKept_writeN {dflt : Byte} {m : Mem} {a n : Nat} {bs : List Byte} (h : bs.length = n) :
    memKept dflt m (Mem.writeN dflt m a bs) a n := fun b hb => Mem.read_writeN_outside dflt bs m a b (by omega)

section address
variable {d : Device} {e a n s : Nat} {b : Bool} {bs : List Byte}

theorem Device.poisonedIn_low (h : a < heapStart) : d.poisonedIn a n = none := if_pos (.inl h)

theorem Device.heapTraffic_low (h : a < heapStart) : d.heapTraffic e a n b = d := if_pos (.inl h)

theorem Device.memWrite_low (h : a < heapStart) : d.memWrite a bs = d.setSram a bs := if_pos h

theorem Device.memWrite_high (h : heapStart ≤ a) (hs : d.heapAddr (a - heapStart) = some s) : d.memWrite a bs = d.storeWrite s bs := by
  rw [Device.memWrite, if_neg (Nat.not_lt.mpr h), hs]

end address

section thread
variable {d : Device} {e t : Nat} {q : Pred} {f : FmtM} {id : Nat} {x : Task} {heap : Bool}

/-- A store that passes its checks. -/
theorem Device.thrStore_at (h : d.threadAt e t q (if heap then 0x9B else 0x99) f.enc = some (id, x)) (hsz : heap = true → f.sz = 3)
    (halign : memAddr x.regs f % 2 ^ f.sz.toNat = 0) (hside : decide (heapStart ≤ memAddr x.regs f) = heap)
    (hbad : d.badAddr id true 4 (memAddr x.regs f) (2 ^ f.sz.toNat) = none)
    (hgood : d.poisonedIn (memAddr x.regs f) (2 ^ f.sz.toNat) = none) :
    d.thrStore e t q heap f =
      ((d.heapTraffic e (memAddr x.regs f) (2 ^ f.sz.toNat) true).memWrite (memAddr x.regs f)
        (bytesLE (2 ^ f.sz.toNat) (x.regs.get f.rd).toNat)).thrDone e t id (x.regs.pc.toNat + 1) x := by
  have hkind : (heap && f.sz != 3) = false := by
    cases heap with
    | false => rfl
    | true => simp [hsz rfl]
  have hcheck : d.memCheck id heap true (memAddr x.regs f) (2 ^ f.sz.toNat) = none := by
    simp [Device.memCheck, halign, hside, hbad, hgood]
  unfold Device.thrStore
  rw [Device.thrRun_at h (by cases heap <;> decide) f.enc_lt (fun hends => absurd hends (by cases heap <;> decide))]
  simp only [hkind, hcheck]
  rfl

/-- The end of an instruction of a thread that has run within its budget reaches no memory. -/
theorem Device.thrDone_memories {pc : Nat} (h : (d.thr (thrKey e t)).spent = false) :
    (d.thrDone e t id pc x).scaf.sram = d.scaf.sram ∧ (d.thrDone e t id pc x).rstore = d.rstore ∧
      (d.thrDone e t id pc x).pwr = d.pwr ∧ (d.thrDone e t id pc x).seats = d.seats := by
  obtain hd | ⟨y, hd⟩ := Device.thrDone_within (id := id) (pc := pc) (x := x) h <;> rw [hd] <;> exact ⟨rfl, rfl, rfl, rfl⟩

end thread

/-! ### Flash (R427, R496) -/

/-- No memory but the flash has changed, and of the flash the `n` bytes at `a` alone. -/
def Device.flashAlone (d t : Device) (a n : Nat) : Prop :=
  memKept 0xFF d.pwr.flash t.pwr.flash a n ∧ t.scaf.sram = d.scaf.sram ∧ t.rstore.bytes = d.rstore.bytes

namespace Device

variable {d t u : Device} {a n m : Nat}

theorem flashAlone.refl (d : Device) : d.flashAlone d a n := ⟨fun _ _ => rfl, rfl, rfl⟩

theorem flashAlone.trans (h : d.flashAlone t a n) (h' : t.flashAlone u a n) : d.flashAlone u a n := by
  obtain ⟨hflash, hsram, hstore⟩ := h
  obtain ⟨hflash', hsram', hstore'⟩ := h'
  exact ⟨fun b hb => (hflash' b hb).trans (hflash b hb), hsram'.trans hsram, hstore'.trans hstore⟩

/-- A range that holds the changed one. -/
theorem flashAlone.widen (h : d.flashAlone t a n) (hn : n ≤ m) : d.flashAlone t a m := by
  obtain ⟨hflash, hkept⟩ := h
  exact ⟨fun b hb => hflash b (by omega), hkept⟩

/-- What changes no flash byte at all. -/
theorem flashAlone.anywhere (h : d.flashAlone t 0 0) (a n : Nat) : d.flashAlone t a n := by
  obtain ⟨hflash, hkept⟩ := h
  exact ⟨fun b _ => hflash b (by omega), hkept⟩

theorem Told.flashAlone (h : d.Told t) : d.flashAlone t 0 0 := by
  rw [h.1]
  exact flashAlone.refl d

theorem flashAlone_flashWrite (d : Device) (a : Nat) (bs : List Byte) : d.flashAlone (d.flashWrite a bs) a bs.length :=
  ⟨fun b hb => Mem.read_writeN_outside _ bs d.pwr.flash a b hb, rfl, rfl⟩

theorem flashAlone_flashProgram (d : Device) (a : Nat) (bs : List Byte) : d.flashAlone (d.flashProgram a bs) a bs.length :=
  (d.flashAlone_flashWrite a _).widen (by simp)

theorem flashAlone_fillFlashBuf (d : Device) (a : Nat) (ns : List Nat) : d.flashAlone (d.fillFlashBuf a ns) 0 0 :=
  List.foldlRecOn (motive := fun t => d.flashAlone t 0 0) _ _ (flashAlone.refl d) fun _ ht _ _ => ht.trans (flashAlone.refl _)

theorem flashAlone_setFld (d : Device) (off hi lo v : Nat) : d.flashAlone (d.setFld off hi lo v) a n := ⟨fun _ _ => rfl, rfl, rfl⟩

theorem flashAlone_flashFree (d : Device) : d.flashAlone d.flashFree a n := by
  refine ⟨fun _ _ => by rw [pwr_flashFree], ?_, ?_⟩
  · rw [flashFree, modPwr_scaf, setFlag_scaf]
  · rw [flashFree, modPwr_rstore, setFlag_rstore]

/-- The answer of the recovery loader. -/
theorem flashAlone_recAnswer (d : Device) (op s l k : Nat) (bs : List Byte) : d.flashAlone (d.recAnswer op s l k bs) 0 0 :=
  (flashAlone.refl _ : d.flashAlone (d.modPwr _) 0 0).trans ((Told.refl _).raise (by decide)).flashAlone

/-- A request of the recovery loader changes what its own effect changes. -/
theorem flashAlone_recRequest {op : Nat} {q : RecReq} {err : Bool} {f : Device → Device} (h : d.flashAlone (f d) a n) :
    d.flashAlone (d.recRequest op q err f) a n := by
  unfold recRequest
  split
  · exact flashAlone.refl d
  · split
    · exact (d.flashAlone_recAnswer op 1 0 0 []).anywhere a n
    · split
      · exact ((d.flashAlone_recAnswer op 3 0 0 []).trans ((Told.refl _).raiseOpen (by decide)).flashAlone).anywhere a n
      · exact h

theorem flashAlone_recErase (d : Device) (q : RecReq) (err : Bool) : d.flashAlone (d.recErase q err) q.addr.toNat q.len.toNat := by
  refine flashAlone_recRequest ?_
  have herase := d.flashAlone_flashWrite q.addr.toNat (List.replicate q.len.toNat 0xFF)
  rw [List.length_replicate] at herase
  exact herase.trans ((flashAlone_recAnswer ..).anywhere _ _)

theorem flashAlone_recWrite (d : Device) (q : RecReq) (data : List Byte) (err : Bool) :
    d.flashAlone (d.recWrite q data err) q.addr.toNat q.len.toNat := by
  have hprogram := d.flashAlone_flashProgram q.addr.toNat (fitB q.len.toNat data)
  rw [fitB, sliceB, List.length_map, List.length_range] at hprogram
  refine flashAlone_recRequest ?_
  split
  · exact (flashAlone_recAnswer ..).anywhere _ _
  · exact hprogram.trans ((flashAlone_recAnswer ..).anywhere _ _)

/-- The bytes of DARBY_FLASH_BUF (R496). -/
def flashBuf (d : Device) : List Byte := (List.range 64).flatMap fun n => bytesLE 4 (d.reg (Off.darbyFlashBuf n))

theorem length_flashBuf (d : Device) : d.flashBuf.length = 256 := by simp [flashBuf]

section
variable {o : FlashOp} (ho : d.pwr.flashOp = some o)
include ho

theorem flashDone_program (hop : o.op = 2) :
    let t := (d.flashFree.setFld Off.darbyFlashCmd 30 28 0).flashProgram o.addr d.flashFree.flashBuf
    d.flashDone false = t.setFld Off.darbyFlashCmd 30 28 3 ∨ d.flashDone false = t := by
  intro t
  unfold flashDone
  simp only [ho, hop]
  rw [if_neg (by decide), if_neg (by decide), if_pos trivial]
  split
  · exact .inr rfl
  · exact .inl rfl

/-- A flash that fails, or that is read, keeps its bytes. -/
theorem flashAlone_flashDone_keep {err : Bool} (hkeep : err = true ∨ o.op ≠ 1 ∧ o.op ≠ 2) : d.flashAlone (d.flashDone err) 0 0 := by
  have hstart : ∀ v, d.flashAlone (d.flashFree.setFld Off.darbyFlashCmd 30 28 v) 0 0 := fun v =>
    d.flashAlone_flashFree.trans (flashAlone_setFld ..)
  cases err with
  | true =>
    rw [flashDone_fails ho]
    exact (hstart 2).trans ((Told.refl _).raiseOpen (by decide)).flashAlone
  | false =>
    obtain ⟨h₁, h₂⟩ := hkeep.resolve_left (by decide)
    rw [flashDone_read ho h₁ h₂]
    exact (hstart 0).trans (flashAlone_fillFlashBuf ..)

/-- A flash operation that erases no block changes one page of 256 bytes at most. -/
theorem flashAlone_flashDone_page {err : Bool} (hop : o.op ≠ 1) : d.flashAlone (d.flashDone err) o.addr 256 := by
  by_cases hkeep : err = true ∨ o.op ≠ 1 ∧ o.op ≠ 2
  · exact (flashAlone_flashDone_keep ho hkeep).anywhere _ _
  · obtain ⟨herr, h₂⟩ := not_or.mp hkeep
    obtain rfl : err = false := by simpa using herr
    have hdone := (d.flashAlone_flashFree.trans (flashAlone_setFld ..)).trans
      (flashAlone_flashProgram (d.flashFree.setFld Off.darbyFlashCmd 30 28 0) o.addr d.flashFree.flashBuf)
    rw [length_flashBuf] at hdone
    obtain hv | hv := flashDone_program ho (not_not.mp fun h => h₂ ⟨hop, h⟩) <;> rw [hv]
    · exact hdone.trans (flashAlone_setFld ..)
    · exact hdone

/-- A flash operation that ends changes one block of 4096 bytes at most. -/
theorem flashAlone_flashDone_block {err : Bool} : d.flashAlone (d.flashDone err) o.addr 4096 := by
  by_cases hop : o.op = 1
  · cases err with
    | true => exact (flashAlone_flashDone_keep ho (.inl rfl)).anywhere _ _
    | false =>
      rw [flashDone_erase ho hop]
      have herase := (d.flashFree.setFld Off.darbyFlashCmd 30 28 0).flashAlone_flashWrite o.addr (List.replicate 4096 0xFF)
      rw [List.length_replicate] at herase
      exact (d.flashAlone_flashFree.trans (flashAlone_setFld ..)).trans herase
  · exact (flashAlone_flashDone_page ho hop).widen (by decide)

end

end Device

/-- Settles O53: each clause by what its operation writes, whose length is the length of its range. -/
theorem framesOfMemory : Obligations.FramesOfMemory := by
  unfold Obligations.FramesOfMemory
  refine ⟨?st, ?std, ?block, ?page, ?keep, ?erase, ?write, ?read, ?ident⟩
  case block => exact fun _ _ _ _ ho => runs_of_exec rfl (Device.flashAlone_flashDone_block ho)
  case page => exact fun _ _ _ _ ho hop => runs_of_exec rfl (Device.flashAlone_flashDone_page ho hop)
  case keep => exact fun _ _ _ _ ho h₁ h₂ => runs_of_exec rfl (Device.flashAlone_flashDone_keep ho (h₂.symm.imp_right fun h => ⟨h₁, h⟩))
  case erase => exact fun q err d _ => runs_of_exec rfl (d.flashAlone_recErase q err)
  case write => exact fun q data err d _ => runs_of_exec rfl (d.flashAlone_recWrite q data err)
  case read => exact fun q err d _ => runs_of_exec rfl (Device.flashAlone_recRequest (Device.flashAlone_recAnswer ..))
  case ident => exact fun q d _ => runs_of_exec rfl (Device.flashAlone_recRequest (Device.flashAlone_recAnswer ..))
  case st =>
    intro e t q f id x d w h halign hlow hbad
    simp only [← memAddr_eq] at halign hlow hbad ⊢
    obtain ⟨-, -, -, -, hspent, -⟩ := Device.threadOn_some (Device.threadAt_some h).1
    refine runs_of_exec (exec_to rfl (Device.thrStore_at (heap := false) h (fun hheap => absurd hheap (by decide)) halign
      (by simp [hlow]) hbad (Device.poisonedIn_low hlow))) ?_
    rw [Device.heapTraffic_low hlow, Device.memWrite_low hlow]
    obtain ⟨hsram, hstore, hpwr, hseats⟩ := Device.thrDone_memories (d := d.setSram _ _) (id := id) (x := x)
      (pc := x.regs.pc.toNat + 1) hspent
    rw [hsram, hstore, hpwr, hseats]
    exact ⟨memKept_writeN (length_bytesLE ..), rfl, rfl, rfl⟩
  case std =>
    intro e t q f id a x d w h hsz halign ha hhigh hbad hgood
    simp only [← memAddr_eq] at halign ha hhigh hbad hgood ⊢
    have h8 : 2 ^ f.sz.toNat = 8 := by rw [hsz]; rfl
    obtain ⟨-, -, -, -, hspent, -⟩ := Device.threadOn_some (Device.threadAt_some h).1
    refine runs_of_exec (exec_to rfl (Device.thrStore_at (heap := true) h (fun _ => hsz) (by rwa [h8]) (by simp [hhigh]) (by rwa [h8])
      (by rwa [h8]))) ?_
    have hasked : d.Asked (d.heapTraffic e (memAddr x.regs f) (2 ^ f.sz.toNat) true) := (Device.Asked.refl d).heapTraffic
    rw [Device.memWrite_high hhigh ((hasked.heapAddr _).trans ha)]
    obtain ⟨hd, hbytes, -⟩ := hasked
    have hthr : ((d.heapTraffic e (memAddr x.regs f) (2 ^ f.sz.toNat) true).storeWrite a
        (bytesLE (2 ^ f.sz.toNat) (x.regs.get f.rd).toNat)).thr (thrKey e t) = d.thr (thrKey e t) := by
      rw [hd]
      rfl
    obtain ⟨hsram, hstore, hpwr, hseats⟩ := Device.thrDone_memories (id := id) (x := x) (pc := x.regs.pc.toNat + 1)
      ((congrArg Thread.spent hthr).trans hspent)
    rw [hsram, hstore, hpwr, hseats]
    refine ⟨?_, ?_, ?_, ?_⟩
    · rw [← hbytes]
      exact memKept_writeN ((length_bytesLE ..).trans h8)
    all_goals rw [hd]; rfl

end Sys2Proof.Machine
end

section
set_option Elab.async false
/-! PROOFS. Flow state in line form: the field of F, a frame's updates at its place in the update order, and learn requests (R45, R62, R162,
R163, R184). -/

namespace Sys2Proof.Machine

variable {d : Device} {who : Who} {x y : Ctx} {q : Pred} {op enc : Nat}

/-! ### Waiting for the update order (R45) -/

/-- An instruction whose slot issues waits as its context did before. -/
theorem Device.turnCome_of_issues (h : d.issues who q op enc = some x) :
    (d.lineCtx who).all (d.turnCome who) = d.turnCome who x := by
  obtain ⟨y, k, hy, rfl⟩ := Device.issues_some h
  rw [hy]
  rfl

/-! ### Updates of a frame (R62, R163) -/

@[simp] theorem Device.runOf_setLine (d : Device) (who : Who) (x : Ctx) (h : Nat) : (d.setLine who x).runOf h = d.runOf h := by
  cases who <;> rfl

@[simp] theorem Device.viewOwn_setLine (d : Device) (who : Who) (x : Ctx) (h f : Nat) : (d.setLine who x).viewOwn h f = d.viewOwn h f := by
  cases who <;> rfl

@[simp] theorem Device.flow_setLine (d : Device) (who : Who) (x : Ctx) : (d.setLine who x).flow = d.flow := by
  cases who <;> rfl

/-- A frame's entry of an update order with more changes. -/
def RunEntry.extend (us : List Upd) (f : Nat) (e : RunEntry) : RunEntry :=
  if e.frame = some f ∧ !e.beyond then { e with upds := e.upds ++ us } else e

theorem RunEntry.frame_extend (us : List Upd) (f : Nat) (e : RunEntry) : (e.extend us f).frame = e.frame := by
  unfold RunEntry.extend
  split <;> rfl

/-- The one entry of a frame takes its program's update. -/
theorem Device.runOf_frameUpdate {h f : Nat} {us : List Upd} {e : RunEntry}
    (he : (d.runOf h).filter (fun e => e.frame == some f) = [e]) (hb : e.beyond = false) :
    ((d.frameUpdate h f us).runOf h).filter (fun e => e.frame == some f) = [{ e with upds := e.upds ++ us }] := by
  have hrun : (d.frameUpdate h f us).runOf h = (d.runOf h).map (RunEntry.extend us f) := by
    show ((NMap.get? (NMap.modify d.flow.runs h _) h).getD []) = ((NMap.get? d.flow.runs h).getD []).map _
    rw [NMap.get?_modify_self]
    cases NMap.get? d.flow.runs h <;> rfl
  have hmem : e ∈ (d.runOf h).filter fun e => e.frame == some f := by simp [he]
  have hframe : e.frame = some f := by simpa using (List.mem_filter.mp hmem).2
  have hcomp : ((fun e : RunEntry => e.frame == some f) ∘ RunEntry.extend us f) = fun e => e.frame == some f :=
    funext fun e => by rw [Function.comp_apply, RunEntry.frame_extend]
  rw [hrun, List.filter_map, hcomp, he, List.map_singleton, RunEntry.extend, if_pos ⟨hframe, by simp [hb]⟩]

/-- A program update in an ingress station goes to the record that the frame hit. -/
theorem Device.lineUpdate_ing {fr h : Nat} {y : Frame} {us : List Upd} (hf : x.f.isSome = true) (hy : d.frame fr = some y)
    (hh : y.hit = some h) : d.lineUpdate (.ing fr) x us = d.frameUpdate h fr us := by
  obtain ⟨b, hb⟩ := Option.isSome_iff_exists.mp hf
  simp [Device.lineUpdate, hb, hy, hh]

/-- FST, FADD and FSTAMP. -/
theorem runs_lineUpdate {c : Instr} {w : List Instr} {full : Nat → Nat → Device} {us : Device → Ctx → List Upd} {fr h : Nat} {y : Frame}
    {e : RunEntry} {new : List Upd}
    (ex : exec c ⟨d, w⟩ = .next ⟨byForm (.ing fr) full (d.lineDo (.ing fr) q op enc fun d x => d.lineUpdate (.ing fr) x (us d x)), w⟩)
    (hx : d.issues (.ing fr) q op enc = some x) (hf : x.f.isSome = true) (hy : d.frame fr = some y) (hh : y.hit = some h)
    (he : (d.runOf h).filter (fun e => e.frame == some fr) = [e]) (hb : e.beyond = false) (hus : us (d.setLine (.ing fr) x) x = new) :
    Runs c d w fun t => ((t.runOf h).filter fun e => e.frame == some fr) = [{ e with upds := e.upds ++ new }] := by
  refine runs_lineDo ex hx ?_
  rw [Device.lineUpdate_ing hf (by simpa using hy) hh, hus]
  exact Device.runOf_frameUpdate (by simpa using he) hb

/-! ### Learn requests (R184) -/

section learn
variable {i : FlowId} {part port hint : Nat}

theorem Device.Told.flow {t : Device} (h : d.Told t) : t.flow = d.flow := by rw [h.1]

theorem Device.Told.learnNotice {kind handle : Nat} {lost : Bool} : d.Told (d.learnNotice kind i part lost port hint handle) :=
  (Device.Told.refl d).takeSeq.putNotice

/-- Without a request of the identity under way, within the filter's size and the space's budget, a request is sent. -/
theorem Device.learnRequest_sent (hnew : (d.flow.learn.any fun a => a.1 == i && decide (d.transit < a.2)) = false)
    (hroom : (d.flow.learn.filter fun a => decide (d.transit < a.2)).length < 16384) (htok : 1000000 ≤ d.learnTokens i.space) :
    (d.learnRequest i part port hint).2 = false ∧ ((d.learnRequest i part port hint).1.flow.learn.any fun a => a.1 == i) = true ∧
      (d.learnRequest i part port hint).1.reg Off.flowLearnSent = sat32 (d.reg Off.flowLearnSent + 1) := by
  have hlive : (d.flow.learn.filter fun a => decide (d.transit < a.2) && a.1 != i).length < 16384 :=
    lt_of_le_of_lt (List.Sublist.length_le (List.monotone_filter_right _ fun a ha => by simp at ha ⊢; exact ha.1)) hroom
  unfold Device.learnRequest
  simp only [hnew, Bool.false_eq_true, if_false]
  rw [if_neg (by omega)]
  refine ⟨rfl, ?_, ?_⟩
  · rw [Device.Told.learnNotice.flow]
    simp
  · rw [Device.Told.learnNotice.reg (by decide), Device.reg_bump_self, Device.reg_modFlow]

theorem Device.learnRequest_refused (hnew : (d.flow.learn.any fun a => a.1 == i && decide (d.transit < a.2)) = false)
    (htok : d.learnTokens i.space < 1000000) : d.learnRequest i part port hint = (d.bump Off.flowLearnRefused 1, true) := by
  unfold Device.learnRequest
  simp only [hnew, Bool.false_eq_true, if_false]
  rw [if_pos (.inl htok)]

end learn

@[simp] theorem Device.reg_setLine (d : Device) (who : Who) (x : Ctx) (off : Nat) : (d.setLine who x).reg off = d.reg off := by
  cases who <;> rfl

@[simp] theorem Device.learnTokens_setLine (d : Device) (who : Who) (x : Ctx) (s : Nat) : (d.setLine who x).learnTokens s = d.learnTokens s := by
  cases who <;> rfl

@[simp] theorem Device.transit_setLine (d : Device) (who : Who) (x : Ctx) : (d.setLine who x).transit = d.transit := by
  cases who <;> rfl

@[simp] theorem Device.lineCtx_bump (d : Device) (who : Who) (off n : Nat) : (d.bump off n).lineCtx who = d.lineCtx who := by
  cases who <;> rfl

/-! ### FLD and FCAS (R62) -/

theorem Device.lineFld_ready {f : FmtFS} (h : d.issues who q 0x40 f.enc = some x) (ht : d.turnCome who x = true) :
    d.lineFld who q f = d.lineResults who q 0x40 f.enc 1 fun x =>
      .ok (resultTo f.rd (BitVec.ofNat 64 (match d.lineF who x with | some b => fieldLE b f.foff.toNat f.size | none => 0))) :=
  if_pos ((Device.turnCome_of_issues h).trans ht)

section cas
variable {f : FmtFS} {fr h : Nat} {y : Frame}

/-- FCAS of a context without a valid F fails. -/
theorem Device.lineFcas_none (hx : d.issues (.ing fr) q 0x43 f.enc = some x) (hf : x.f = none) :
    d.lineFcas (.ing fr) q f = (d.setLine (.ing fr) x).addPend (.ing fr) x 2 [.pred f.pd false] := by
  have hturn : (d.lineCtx (.ing fr)).all (d.turnCome (.ing fr)) = true := by
    rw [Device.turnCome_of_issues hx]
    simp [Device.turnCome, hf]
  unfold Device.lineFcas
  rw [if_neg (by simp [hturn]), Device.lineDo_issued hx]
  simp only [hf, Bool.false_eq_true, if_false]

/-- FCAS of four bytes whose comparison holds. -/
theorem Device.lineFcas_holds (hx : d.issues (.ing fr) q 0x43 f.enc = some x) (ht : d.turnCome (.ing fr) x = true)
    (hf : x.f.isSome = true) (hy : d.frame fr = some y) (hh : y.hit = some h) (hsz : f.sz = 2) (hap : d.updatesApply h fr = true)
    (hv : (d.viewOwn h fr).any (fun b => fieldLE b f.foff.toNat 4 == (x.regs.get f.rb).toNat % 2 ^ 32) = true) :
    d.lineFcas (.ing fr) q f =
      (((d.setLine (.ing fr) x).frameUpdate h fr [.put f.foff.toNat (bytesLE 4 ((x.regs.get f.rd).toNat % 2 ^ 32))]).addPend (.ing fr) x 2
        [.pred f.pd true]) := by
  obtain ⟨b, hb⟩ := Option.isSome_iff_exists.mp hf
  obtain ⟨v, hv, hwant⟩ := Option.any_eq_true _ _ |>.mp hv
  have hsize : f.size = 4 := by rw [FmtFS.size, hsz]; rfl
  have hsz3 : f.sz ≠ 3 := by rw [hsz]; decide
  have hap' : (d.setLine (.ing fr) x).updatesApply h fr = true := hap
  have hbind : ((d.setLine (.ing fr) x).frame fr).bind (fun y => y.hit) = some h := by rw [Device.frame_setLine, hy]; exact hh
  unfold Device.lineFcas
  rw [if_neg (by simp [Device.turnCome_of_issues hx, ht]), Device.lineDo_issued hx]
  simp only [hb, hbind, hap', Device.viewOwn_setLine, hv, hsize, if_neg hsz3, hwant, Bool.and_self, if_true]
  rw [Device.lineUpdate_ing hf (by simpa using hy) hh]

end cas

theorem Device.lineFlearn_issued {f : FmtFL} (h : d.issues who q 0x45 f.enc = some x) :
    d.lineFlearn who q f =
      let r := (d.setLine who x).learnRequest ⟨f.space.toNat, sliceB x.regs.key f.ko.toNat f.kl.toNat⟩ (bits (x.regs.mN 0) 13 10)
        (x.regs.mN 0 % 1024) ((x.regs.get f.ra).toNat % 2 ^ 32)
      if r.2 then r.1.addPend who x 1 [.learnRefused] else r.1 := by
  rw [Device.lineFlearn, Device.lineDo_issued h]

/-- Settles O27: FLD by the results of its context, the updates by the frame's place in the update order, FLEARN by the learn filter and the
space's budget. -/
theorem lineFlowState : Obligations.LineFlowState := by
  unfold Obligations.LineFlowState
  refine ⟨?fld, ?fst, ?fadd, ?fcas, ?fcasNone, ?fstamp, ?sent, ?refused⟩
  case fst =>
    intro q f fr x y h e d w hx hf hy hh he hb
    exact runs_lineUpdate rfl hx hf hy hh he hb rfl
  case fadd =>
    intro q f fr x y h e d w hx hf hy hh he hb hi
    exact runs_lineUpdate rfl hx hf hy hh he hb (by rw [faddValue, if_pos hi]; rfl)
  case fstamp =>
    intro q f fr x y h e d w hx hf hy hh he hb
    exact runs_lineUpdate rfl hx hf hy hh he hb rfl
  case fld =>
    intro who q f x d w hx hd ht
    exact runs_line (exec_to rfl (congrArg (byForm who _) (Device.lineFld_ready hx ht))) hx (by rw [resultTo, if_pos hd]; rfl)
  case fcas =>
    intro q f fr x y h e d w hx hf hy hh he hb hsz ht hv
    have hmem : e ∈ (d.runOf h).filter fun e => e.frame == some fr := by simp [he]
    have hap : d.updatesApply h fr = true := by
      obtain ⟨hrun, hframe⟩ := List.mem_filter.mp hmem
      exact List.any_eq_true.mpr ⟨e, hrun, by simp [hframe, hb]⟩
    refine runs_of_exec (exec_to rfl (Device.lineFcas_holds hx ht hf hy hh hsz hap hv)) ⟨?_, ?_⟩
    · exact Device.runOf_frameUpdate (by simpa using he) hb
    · exact Device.setLine_lineCtx (Device.issues_setLine hx)
  case fcasNone =>
    intro q f fr x d w hx hf
    refine runs_of_exec (exec_to rfl (Device.lineFcas_none hx hf)) ⟨?_, rfl⟩
    exact Device.setLine_lineCtx (Device.issues_setLine hx)
  case sent =>
    intro who q f x d w hx hnew hroom htok
    obtain ⟨y, _, hy, _⟩ := Device.issues_some hx
    refine runs_of_exec (exec_to rfl ((byForm_line hy).trans (Device.lineFlearn_issued hx))) ?_
    obtain ⟨htaken, hlearn, hreg⟩ := Device.learnRequest_sent (d := d.setLine who x) (part := bits (x.regs.mN 0) 13 10)
      (port := x.regs.mN 0 % 1024) (hint := (x.regs.get f.ra).toNat % 2 ^ 32) (by simpa using hnew) (by simpa using hroom)
      (by simpa using htok)
    rw [Device.reg_setLine] at hreg
    simp only [htaken, Bool.false_eq_true, if_false]
    exact ⟨hlearn, hreg⟩
  case refused =>
    intro who q f x d w hx hnew htok
    obtain ⟨y, _, hy, _⟩ := Device.issues_some hx
    refine runs_of_exec (exec_to rfl ((byForm_line hy).trans (Device.lineFlearn_issued hx))) ?_
    rw [Device.learnRequest_refused (by simpa using hnew) (by simpa using htok)]
    simp only [if_true]
    have hctx : ((d.setLine who x).bump Off.flowLearnRefused 1).lineCtx who = some x := by
      rw [Device.lineCtx_bump]
      exact Device.issues_setLine hx
    exact ⟨Device.setLine_lineCtx hctx, by rw [Device.addPend, Device.reg_setLine, Device.reg_bump_self, Device.reg_setLine]⟩

end Sys2Proof.Machine
end

section
set_option Elab.async false
/-! PROOFS. Lookups in line form: the results of a table lookup, and what the flow step makes of a flow lookup that returns (R43, R59, R61, R160,
R171). -/

namespace Sys2Proof.Machine

variable {d t : Device} {x : Ctx} {fr h : Nat} {y : Frame} {q : Pred}

/-! ### The record that a lookup hits (R154, R160) -/

theorem NMap.get?_isSome_of_mem {α : Type} {m : NMap α} {a : Nat} {v : α} (h : (a, v) ∈ m) : (NMap.get? m a).isSome = true := by
  induction m with
  | nil => cases h
  | cons p m ih =>
    obtain ⟨k, w⟩ := p
    rw [NMap.get?]
    split
    · rfl
    · next hne =>
      obtain he | hm := List.mem_cons.mp h
      · cases he
        exact absurd rfl hne
      · exact ih hm

/-- A flow lookup hits through a skim copy: the outcomes of R160 are split, and the two that hit name one. -/
theorem Device.skim_of_hit {f n : Nat} {i : FlowId} {en : Bool} (ho : d.lkfOutcome f n i en = .hit h) :
    ∃ p c, NMap.get? d.flow.skim p = some c ∧ c.handle = h := by
  unfold Device.lkfOutcome at ho
  grind

/-- A record with a skim copy has an authoritative copy. -/
theorem Device.authCopy_of_skim {p : Nat} {c : SkimCopy} (hc : NMap.get? d.flow.skim p = some c) (hh : c.handle = h) :
    ∃ b, d.authCopy h = some b := by
  have hfind : (d.flow.skim.find? fun p => p.2.handle == h).isSome = true :=
    List.find?_isSome.mpr ⟨(p, c), NMap.mem_of_get? hc, by simp [hh]⟩
  obtain ⟨⟨p', c'⟩, hp⟩ := Option.isSome_iff_exists.mp hfind
  obtain ⟨c'', hc''⟩ := Option.isSome_iff_exists.mp (NMap.get?_isSome_of_mem (List.mem_of_find?_eq_some hp))
  have hat : d.skimAt h = some p' := by rw [Device.skimAt, hp]; rfl
  have hbase : d.baseCopy h = some (d.carried c''.bytes) := by
    simp only [Device.baseCopy, hat, hc'', Option.map_some]
  exact ⟨_, by rw [Device.authCopy, hbase]; rfl⟩

/-! ### What a flow step leaves (R161, R162, R169) -/

/-- `t` is `d` but for the flow records. -/
def Device.FlowOnly (d t : Device) : Prop := t = { d with flow := t.flow }

namespace Device.FlowOnly

theorem refl (d : Device) : d.FlowOnly d := rfl

theorem modFlow {f : Flow → Flow} (hs : d.FlowOnly t) : d.FlowOnly (t.modFlow f) := by
  rw [hs]
  rfl

theorem setBase {b : List Byte} (hs : d.FlowOnly t) : d.FlowOnly (t.setBase h b) := by
  unfold Device.setBase
  split
  · exact hs.modFlow
  · split
    · exact hs.modFlow
    · split
      · exact hs.modFlow
      · exact hs.modFlow

theorem settleRun (hs : d.FlowOnly t) : d.FlowOnly (t.settleRun h) := by
  unfold Device.settleRun
  extract_lets r gone rest t'
  have ht' : d.FlowOnly t' := by
    unfold t'
    split
    · split
      · exact hs
      · exact hs.setBase
    · exact hs
  exact ht'.modFlow

theorem addRun {e : RunEntry} (hs : d.FlowOnly t) : d.FlowOnly (t.addRun h e) := hs.modFlow.settleRun

end Device.FlowOnly

/-- `t` is `d` but for the records, the registers, the render store and the leases. -/
def Device.FlowSide (d t : Device) : Prop := t = { d with flow := t.flow, regs := t.regs, rstore := t.rstore, fault := t.fault }

namespace Device.FlowSide

theorem refl (d : Device) : d.FlowSide d := rfl

theorem parts {f : Flow} {r : NMap Word} {s : Rstore} {l : FaultMgr} (h : d.FlowSide t) :
    d.FlowSide { t with flow := f, regs := r, rstore := s, fault := l } := by rw [h]; rfl

theorem modFlow {f : Flow → Flow} (h : d.FlowSide t) : d.FlowSide (t.modFlow f) := h.parts
theorem setReg {o v : Nat} (h : d.FlowSide t) : d.FlowSide (t.setReg o v) := h.parts
theorem bump {o n : Nat} (h : d.FlowSide t) : d.FlowSide (t.bump o n) := h.setReg
theorem lease {k a b c n : Nat} (h : d.FlowSide t) : d.FlowSide (t.lease k a b c n) := h.parts
theorem setLodge {i : FlowId} {f : LodgeEntry → LodgeEntry} (h : d.FlowSide t) : d.FlowSide (t.setLodge i f) := h.modFlow

theorem addRun {e : RunEntry} (hs : d.FlowSide t) : d.FlowSide (t.addRun h e) := by
  rw [(Device.FlowOnly.refl t).addRun]
  exact hs.parts

theorem request {p a n : Nat} {m : Nat × Nat} {b : Bool} (hs : d.FlowSide t) : d.FlowSide (t.request p m a b n) := by
  rw [((Device.Asked.refl t).request (p := p) (a := a) (n := n) (m := m) (b := b)).1]
  exact hs.parts

theorem issueFetch {i : FlowId} (hs : d.FlowSide t) : d.FlowSide (t.issueFetch i) := by
  unfold Device.issueFetch
  extract_lets t'
  split
  · exact hs.bump
  · exact hs.bump.modFlow.request.request

end Device.FlowSide

/-! ### A context that enters a station where a flow lookup returns (R43, R80) -/

/-- The context in its next station, at its next word. -/
def Ctx.entered (x : Ctx) (k : Nat) : Ctx := (x.settleAt (x.station + 1)).movedTo (x.station + 1) (some k) []

theorem Device.arrive_due {g : FmtL} {key : List Byte} {b : Bool} {k : Nat} (hdue : x.flowDue (x.station + 1) = some (g, key, b)) :
    d.arrive (.ing fr) { x with word := some k, issued := [] } (x.station + 1) =
      (d.setLine (.ing fr) (x.entered k)).flowStep fr g key b := by
  have hdue' : ({ x with word := some k, issued := [] } : Ctx).flowDue (x.station + 1) = some (g, key, b) := hdue
  rw [Ctx.entered, ← Ctx.settleAt_movedTo]
  unfold Device.arrive
  simp only [hdue']
  rfl

/-- With no frame ahead, the flow step is taken and the step word read. -/
theorem Device.moveOn_due {g : FmtL} {key : List Byte} {b : Bool} {k : Nat} {z : Ctx} (hdue : x.flowDue (x.station + 1) = some (g, key, b))
    (hahead : d.ahead x.pipe fr = []) (ht : (d.setLine (.ing fr) (x.entered k)).flowStep fr g key b = t)
    (hz : t.lineCtx (.ing fr) = some z) (hr : t.pipes.reload = []) :
    d.moveOn (.ing fr) x (some k) = t.setLine (.ing fr) (z.stamped t) := by
  have horder : d.inOrder x.pipe fr (x.station + 1) = true := by rw [Device.inOrder, hahead]; rfl
  unfold Device.moveOn
  simp only [hdue, horder, hahead, if_true, List.foldl_nil, Device.arrive_due hdue, ht, hz]
  exact Device.readWord_of_reload hr

/-- The whole of a NEXT into a flow step. -/
theorem runs_next_due {f : FmtC} {w : List Instr} {i : Nat} {g : FmtL} {key : List Byte} {b : Bool} {P : Device → Prop}
    (hx : d.lineCtx (.ing fr) = some x) (hi : x.word = some i) (hl : x.live = true)
    (hc : (⟨((d.stationWords x x.station).getD i 0).toNat, []⟩ : WInfo).cword = instWord ⟨0, false⟩ 0x70 f.enc)
    (ho : d.owes x = false) (hs : x.station < x.last)
    (hlen : (⟨((d.stationWords x x.station).getD i 0).toNat, []⟩ : WInfo).succ
      (b2n (x.regs.pred f.sa) + (if f.b2 then 2 * b2n (x.regs.pred f.sb) else 0)) < (d.stationWords x (x.station + 1)).length)
    (hdue : x.flowDue (x.station + 1) = some (g, key, b)) (hahead : d.ahead x.pipe fr = [])
    (hstep : ∀ k, ∃ t z, (d.setLine (.ing fr) (x.entered k)).flowStep fr g key b = t ∧ t.lineCtx (.ing fr) = some z ∧
      t.pipes.reload = [] ∧ P (t.setLine (.ing fr) (z.stamped t))) :
    Runs (.next (.ing fr) ⟨0, false⟩ f) d w P := by
  refine runs_of_exec (exec_to (exec_next_context hx) (Device.lineNext_eq hx hi hl hc ho hs rfl hlen)) ?_
  obtain ⟨t, z, ht, hz, hr, hP⟩ := hstep _
  rwa [Device.moveOn_due hdue hahead ht hz hr]

/-! ### The flow step (R59, R160) -/

section step
variable {g : FmtL} {key : List Byte} {b : Bool}

theorem Ctx.regs_applyWr (x : Ctx) (w : Wr) : (x.applyWr w).regs = x.regs.apply w := by
  cases w <;> rfl

theorem Regs.k_setPred (r : Regs) (i : BitVec 3) (v : Bool) : (r.setPred i v).k = r.k := by
  unfold Regs.setPred
  split <;> rfl

/-- A lookup's slot holds its result, whatever its predicate. -/
theorem Ctx.slot_lookupWrs (x : Ctx) (g : FmtL) (r e : BitVec 128) :
    (((lookupWrs g r).foldl Ctx.applyWr x).regs.k[g.kd.toNat]?.getD e) = r := by
  have hk : g.kd.toNat < 8 := g.kd.isLt
  unfold lookupWrs
  split <;> simp [Ctx.applyWr, Regs.apply, Regs.k_setPred, hk]

theorem Ctx.f_lookupWrs (x : Ctx) (g : FmtL) (r : BitVec 128) : ((lookupWrs g r).foldl Ctx.applyWr x).f = x.f := by
  unfold lookupWrs
  split <;> rfl

theorem Ctx.station_lookupWrs (x : Ctx) (g : FmtL) (r : BitVec 128) : ((lookupWrs g r).foldl Ctx.applyWr x).station = x.station := by
  unfold lookupWrs
  split <;> rfl

end step

/-! ### What the flow step changes beside its context (R161 to R163, R171) -/

theorem Device.hitRecord_eq (d : Device) (f h : Nat) (b : Bool) : ∃ t g, d.FlowSide t ∧ d.hitRecord f h b = t.modFrame f g ∧
    ∀ y, (g y).hit = some h := by
  unfold Device.hitRecord
  extract_lets whole t t'
  have ht : d.FlowSide t := (Device.FlowSide.refl d).addRun
  have ht' : d.FlowSide t' := by
    unfold t'
    split
    · exact ht.bump
    · exact ht
  exact ⟨t', _, ht', rfl, fun _ => rfl⟩

@[simp] theorem Device.flow_request (d : Device) (p a n : Nat) (m : Nat × Nat) (b : Bool) : (d.request p m a b n).flow = d.flow := by
  rw [((Device.Asked.refl d).request (p := p) (a := a) (n := n) (m := m) (b := b)).1]

theorem Device.lodge_issueFetch (d : Device) (i : FlowId) : (d.issueFetch i).flow.lodge = d.flow.lodge := by
  unfold Device.issueFetch
  extract_lets t
  split
  · rfl
  · simp only [Device.requestFetch, Device.flow_request]
    rfl

theorem Device.lodged?_congr (i : FlowId) (h : t.flow.lodge = d.flow.lodge) : t.lodged? i = d.lodged? i := by
  rw [Device.lodged?, Device.lodged?, h]

theorem Device.lodged?_setLodge {i : FlowId} {f : LodgeEntry → LodgeEntry} (hf : ∀ e, (f e).id = e.id) :
    (d.setLodge i f).lodged? i = (d.lodged? i).map f := by
  have hcomp : ((fun e : LodgeEntry => e.id == i) ∘ fun e => if e.id = i then f e else e) = fun e => e.id == i := by
    funext e
    simp only [Function.comp_apply]
    split
    · rw [hf]
    · rfl
  show ((d.flow.lodge.map fun e => if e.id = i then f e else e).find? fun e => e.id == i) = _
  rw [List.find?_map, hcomp]
  refine Option.map_congr fun e he => if_pos ?_
  simpa using List.find?_some he

/-- A frame that parks stands on the open entry of its identity. -/
theorem Device.parkOn_eq (d : Device) (f : Nat) (i : FlowId) : ∃ t g, d.FlowSide t ∧ d.parkOn f i = (t.modFrame f g).showLodge ∧
    ((t.lodged? i).any fun e => e.frames.contains (f, false)) = true := by
  unfold Device.parkOn
  extract_lets limit fresh t
  suffices hs : d.FlowSide t ∧ ((t.lodged? i).any fun e => e.frames.contains (f, false)) = true from ⟨t, _, hs.1, rfl, hs.2⟩
  unfold t
  have hself := Device.FlowSide.refl d
  split
  · next e he =>
    split
    · next hin =>
      extract_lets t'
      have ht' : d.FlowSide t' ∧ t'.lodged? i = some e := by
        unfold t'
        split
        · exact ⟨hself.issueFetch, (Device.lodged?_congr i (d.lodge_issueFetch i)).trans he⟩
        · exact ⟨hself, he⟩
      refine ⟨ht'.1.setLodge, ?_⟩
      rw [Device.lodged?_setLodge, ht'.2]
      · obtain ⟨p, hp, hpf⟩ := List.any_eq_true.mp hin
        exact List.contains_iff_mem.mpr (List.mem_map.mpr ⟨p, hp, if_pos (beq_iff_eq.mp hpf)⟩)
      · exact fun _ => rfl
    · refine ⟨hself.setLodge, ?_⟩
      rw [Device.lodged?_setLodge, he]
      · simp
      · exact fun _ => rfl
  · next hnone =>
    have hfresh : fresh.lodged? i = some ⟨i, d.transit, limit, .pending, [(f, false)]⟩ := by
      show (d.flow.lodge ++ [_]).find? _ = _
      rw [List.find?_append, show d.flow.lodge.find? _ = none from hnone]
      simp
    refine ⟨hself.modFlow.lease.issueFetch, ?_⟩
    rw [Device.lodged?_congr (d := fresh) (t := (fresh.lease 1 5 i.group (h1 i.input) 1).issueFetch i) i (Device.lodge_issueFetch _ i), hfresh]
    simp

/-! ### The outcomes of a flow step (R59, R61, R160) -/

section outcome
variable {g : FmtL} {key : List Byte} {b : Bool} (hx : d.lineCtx (.ing fr) = some x) (hy : d.frame fr = some y)
include hx hy

theorem Device.flowStep_hit {c : List Byte} (hc : d.authCopy h = some c)
    (ho : d.lkfOutcome fr y.parks ⟨g.tbl.toNat % 16, key⟩ (bit x.spaces (g.tbl.toNat % 16)) = .hit h) :
    (d.flowStep fr g key b).lineCtx (.ing fr) = some ((lookupWrs g (flowResult h c)).foldl Ctx.applyWr (x.applyWr (.flowHit h c))) ∧
      (d.flowStep fr g key b).pipes = d.pipes ∧ (((d.flowStep fr g key b).frame fr).map fun z => z.hit) = some (some h) := by
  have hx' : NMap.get? d.ctxs fr = some x := hx
  obtain ⟨t, u, hside, heq, hu⟩ := Device.hitRecord_eq
    ((d.occIng 0x201 y h).setLine (.ing fr) ((Wr.flowHit h c :: lookupWrs g (flowResult h c)).foldl Ctx.applyWr x)) fr h b
  have hstep : d.flowStep fr g key b = t.modFrame fr u := by
    rw [← heq]
    have hc' : (d.occIng 0x201 y h).authCopy h = some c := hc
    unfold Device.flowStep
    simp only [hx', hy, ho, hc', Option.getD_some]
  have hframe : t.frame fr = some y := by
    rw [hside]
    exact hy
  rw [hstep]
  refine ⟨?_, ?_, by rw [Device.frame_modFrame_self, hframe, Option.map_some, Option.map_some, hu]⟩
  · rw [hside]
    exact NMap.get?_set_self ..
  · rw [hside]
    rfl

theorem Device.flowStep_miss (ho : d.lkfOutcome fr y.parks ⟨g.tbl.toNat % 16, key⟩ (bit x.spaces (g.tbl.toNat % 16)) = .miss) :
    (d.flowStep fr g key b).lineCtx (.ing fr) = some ((lookupWrs g 0).foldl Ctx.applyWr x) ∧
      (d.flowStep fr g key b).pipes = d.pipes := by
  have hx' : NMap.get? d.ctxs fr = some x := hx
  have hstep : d.flowStep fr g key b =
      (d.occIng 0x202 y (g.tbl.toNat % 16)).setLine (.ing fr) ((lookupWrs g 0).foldl Ctx.applyWr x) := by
    unfold Device.flowStep
    simp only [hx', hy, ho]
  rw [hstep]
  exact ⟨NMap.get?_set_self .., rfl⟩

theorem Device.flowStep_park (ho : d.lkfOutcome fr y.parks ⟨g.tbl.toNat % 16, key⟩ (bit x.spaces (g.tbl.toNat % 16)) = .park) :
    (d.flowStep fr g key b).lineCtx (.ing fr) = some { x with stopAt := some x.station } ∧ (d.flowStep fr g key b).pipes = d.pipes ∧
      (((d.flowStep fr g key b).lodged? ⟨g.tbl.toNat % 16, key⟩).any fun e => e.frames.contains (fr, false)) = true := by
  have hx' : NMap.get? d.ctxs fr = some x := hx
  obtain ⟨t, u, hside, heq, hlodged⟩ := Device.parkOn_eq
    (((d.occIng 0x202 y (g.tbl.toNat % 16)).setLine (.ing fr) { x with stopAt := some x.station }).occIng 0x103 y y.port) fr
    ⟨g.tbl.toNat % 16, key⟩
  have hstep : d.flowStep fr g key b = (t.modFrame fr u).showLodge := by
    rw [← heq]
    unfold Device.flowStep
    simp only [hx', hy, ho]
  rw [hstep]
  refine ⟨?_, ?_, hlodged⟩
  · rw [hside]
    exact NMap.get?_set_self ..
  · rw [hside]
    rfl

end outcome

/-! ### Settled contexts -/

theorem Ctx.spaces_foldl (l : List (Nat × Wr)) (x : Ctx) : (l.foldl (fun x p => x.applyWr p.2) x).spaces = x.spaces :=
  List.foldlRecOn (motive := fun y : Ctx => y.spaces = x.spaces) _ _ rfl fun y h p _ => by
    rw [← h]
    cases p.2 <;> rfl

theorem Ctx.spaces_entered (x : Ctx) (k : Nat) : (x.entered k).spaces = x.spaces :=
  (Ctx.spaces_foldl _ _).trans (Ctx.spaces_foldl _ _)

/-- The outcome of a flow lookup does not depend on the contexts. -/
theorem Device.lkfOutcome_entered (d : Device) (who : Who) (x : Ctx) (k f n s : Nat) (i : FlowId) :
    (d.setLine who (x.entered k)).lkfOutcome f n i (bit (x.entered k).spaces s) = d.lkfOutcome f n i (bit x.spaces s) := by
  rw [Ctx.spaces_entered]
  cases who <;> rfl

/-- A table lookup. -/
theorem runs_lookup {c : Instr} {w : List Instr} {who : Who} {full : Nat → Nat → Device} {op lat : Nat} {f : FmtL} (kind : Nat)
    (e : exec c ⟨d, w⟩ = .next ⟨byForm who full (d.lineResults who q op f.enc lat fun x => .ok (lookupWrs f (d.lookup x kind f))), w⟩)
    (h : d.issues who q op f.enc = some x) :
    Runs c d w fun t => t.lineCtx who = some (x.sends lat (lookupWrs f (d.lookup x kind f))) := runs_line e h rfl

/-- Settles O26: table lookups by their results, flow lookups by the flow step of a NEXT. -/
theorem lineLookups : Obligations.LineLookups := by
  unfold Obligations.LineLookups
  refine ⟨?lkt, ?lkh, ?lkx, ?lkp, ?lkf, ?hit, ?miss, ?park⟩
  case lkf =>
    intro q f b fr x d w hx hok
    have hall : ((d.lineCtx (.ing fr)).all fun x => d.groupsOk ⟨f.tbl.toNat % 16, sliceB x.regs.key f.ko.toNat f.kl.toNat⟩) = true := by
      obtain ⟨y, k, hy, rfl⟩ := Device.issues_some hx
      rw [hy]
      exact hok
    refine runs_of_exec (exec_to rfl ((if_pos hall).trans (Device.lineDo_issued hx))) ?_
    exact Device.setLine_lineCtx (Device.issues_setLine hx)
  case hit =>
    intro f fr i x g key b y h d w hx hi hl hc ho hs hlen hr hdue hahead hy hout
    refine runs_next_due hx hi hl hc ho hs hlen hdue hahead fun k => ?_
    obtain ⟨p, c, hp, hh⟩ := Device.skim_of_hit hout
    obtain ⟨rec, hrec⟩ := Device.authCopy_of_skim hp hh
    obtain ⟨hctx, hpipes, hhit⟩ := Device.flowStep_hit (b := b) (Device.setLine_lineCtx (x := x.entered k) hx)
      (by simpa using hy) hrec ((Device.lkfOutcome_entered ..).trans hout)
    refine ⟨_, _, rfl, hctx, by rw [hpipes]; exact hr, by rw [Device.frame_setLine]; exact hhit, ?_⟩
    rw [Device.setLine_lineCtx hctx, hrec]
    simp only [Option.any_some, Ctx.stamped, Ctx.f_lookupWrs, Ctx.station_lookupWrs, Ctx.slot_lookupWrs, Option.getD_some]
    simp [Ctx.applyWr, Ctx.entered, Ctx.movedTo]
  case miss =>
    intro f fr i x g key b y d w hx hi hl hc ho hs hlen hr hdue hahead hy hout hf
    refine runs_next_due hx hi hl hc ho hs hlen hdue hahead fun k => ?_
    obtain ⟨hctx, hpipes⟩ := Device.flowStep_miss (b := b) (Device.setLine_lineCtx (x := x.entered k) hx) (by simpa using hy)
      ((Device.lkfOutcome_entered ..).trans hout)
    refine ⟨_, _, rfl, hctx, by rw [hpipes]; exact hr, ?_⟩
    rw [Device.setLine_lineCtx hctx]
    have hentered : (x.entered k).f = none := hf
    simp [Ctx.stamped, Ctx.f_lookupWrs, Ctx.slot_lookupWrs, hentered]
  case park =>
    intro f fr i x g key b y d w hx hi hl hc ho hs hlen hr hdue hahead hy hout
    refine runs_next_due hx hi hl hc ho hs hlen hdue hahead fun k => ?_
    obtain ⟨hctx, hpipes, hlodged⟩ := Device.flowStep_park (b := b) (Device.setLine_lineCtx (x := x.entered k) hx) (by simpa using hy)
      ((Device.lkfOutcome_entered ..).trans hout)
    refine ⟨_, _, rfl, hctx, by rw [hpipes]; exact hr, ?_, hlodged⟩
    rw [Device.setLine_lineCtx hctx]
    exact beq_self_eq_true _
  case lkt => exact fun _ _ _ _ _ _ h => runs_lookup 0 rfl h
  case lkh => exact fun _ _ _ _ _ _ h => runs_lookup 1 rfl h
  case lkx => exact fun _ _ _ _ _ _ h => runs_lookup 2 rfl h
  case lkp => exact fun _ _ _ _ _ _ h => runs_lookup 3 rfl h

end Sys2Proof.Machine
end

section
set_option Elab.async false
/-! PROOFS. What the buffer, a port's own frames and a command's completion leave alone: the scaffold and the counts of the frames received
(R217 to R227, R309, R313). -/

namespace Sys2Proof.Machine

/-! ### The receive counts (R313) -/

/-- The place in its port's page of a count of good frames and bytes and, with `all`, of a count of frames received with an error. -/
def rxCount (all : Bool) (o : Nat) : Bool :=
  decide (0x100 ≤ o % 0x1000 ∧ o % 0x1000 < 0x110) || all && decide (0x12C ≤ o % 0x1000 ∧ o % 0x1000 < 0x13C)

theorem rxCount_of_all {all : Bool} {o : Nat} (h : rxCount true o = false) : rxCount all o = false := by
  cases all with
  | true => exact h
  | false => simp [rxCount] at h ⊢; omega

theorem rxCount_of_residue {o r : Nat} (h : o % 0x1000 = r) (hr : rxCount true r = false) (hlt : r < 0x1000) : rxCount true o = false := by
  rw [rxCount, h, ← Nat.mod_eq_of_lt hlt]
  exact hr

theorem rxCount_portStatus (p : Nat) : rxCount true (Off.portStatus p) = false :=
  rxCount_of_residue (r := 0x10) (by unfold Off.portStatus; omega) rfl (by decide)

theorem rxCount_portTxFramesLo (p : Nat) : rxCount true (Off.portTxFramesLo p) = false :=
  rxCount_of_residue (r := 0x110) (by unfold Off.portTxFramesLo; omega) rfl (by decide)

theorem rxCount_portTxFramesHi (p : Nat) : rxCount true (Off.portTxFramesLo p + 4) = false :=
  rxCount_of_residue (r := 0x114) (by unfold Off.portTxFramesLo; omega) rfl (by decide)

theorem rxCount_portTxBytesLo (p : Nat) : rxCount true (Off.portTxBytesLo p) = false :=
  rxCount_of_residue (r := 0x118) (by unfold Off.portTxBytesLo; omega) rfl (by decide)

theorem rxCount_portTxBytesHi (p : Nat) : rxCount true (Off.portTxBytesLo p + 4) = false :=
  rxCount_of_residue (r := 0x11C) (by unfold Off.portTxBytesLo; omega) rfl (by decide)

theorem rxCount_portPfcTx (p : Nat) : rxCount true (Off.portPfcTx p) = false :=
  rxCount_of_residue (r := 0x144) (by unfold Off.portPfcTx; omega) rfl (by decide)

theorem rxCount_seatNrLost (s : Nat) : rxCount true (Off.seatNrLost s) = false :=
  rxCount_of_residue (r := 0x10) (by unfold Off.seatNrLost; omega) rfl (by decide)

theorem rxCount_pipeLenLate (p : Nat) : rxCount true (Off.pipeLenLate p) = false :=
  rxCount_of_residue (r := 0x34) (by unfold Off.pipeLenLate; omega) rfl (by decide)

theorem rxCount_seatNrTail (s : Nat) {r : Nat} (hr : r < 8) : rxCount true (Off.seatNrTail s r) = false := by
  have hplace : Off.seatNrTail s r % 0x1000 = 0x20C + 0x20 * r := by unfold Off.seatNrTail; omega
  simp [rxCount, hplace]
  omega

theorem rxCount_bufCtAbort (p : Nat) : rxCount true (Off.bufCtAbort p) = false := by
  have hplace : Off.bufCtAbort p % 0x40 = 0x1C := by unfold Off.bufCtAbort; omega
  simp [rxCount]
  omega

theorem rxCount_bufHintOver (p : Nat) : rxCount true (Off.bufHintOver p) = false := by
  have hplace : Off.bufHintOver p % 0x40 = 0x24 := by unfold Off.bufHintOver; omega
  simp [rxCount]
  omega

theorem rxCount_schedQOverlen (p : Nat) : rxCount true (Off.schedQOverlen p) = false := by
  have hplace : Off.schedQOverlen p % 0x100 = 0x8C := by unfold Off.schedQOverlen; omega
  simp [rxCount]
  omega

theorem rxCount_schedGateOverrun (p : Nat) : rxCount true (Off.schedGateOverrun p) = false := by
  have hplace : Off.schedGateOverrun p % 0x100 = 0x90 := by unfold Off.schedGateOverrun; omega
  simp [rxCount]
  omega

/-! ### The relation -/

/-- `t` has the scaffold of `d` and its receive counts, those of errors with `all`. -/
def Device.Clear (all : Bool) (d t : Device) : Prop := t.scaf = d.scaf ∧ ∀ o, rxCount all o = true → t.reg o = d.reg o

namespace Device.Clear

variable {all : Bool} {d t : Device} {off p s r c f h n v k i : Nat} {b : Bool} {bs : List Byte}

theorem refl (all : Bool) (d : Device) : d.Clear all d := ⟨rfl, fun _ _ => rfl⟩

/-- What changes neither. -/
theorem of_eq {u : Device} (h : d.Clear all t) (hs : u.scaf = t.scaf) (hr : u.regs = t.regs) : d.Clear all u := by
  obtain ⟨hscaf, hregs⟩ := h
  exact ⟨hs.trans hscaf, fun o ho => by rw [← hregs o ho, Device.reg, hr, ← Device.reg]⟩

/-! ### Single updates -/

theorem setReg_of (h : d.Clear all t) (ho : rxCount all off = false) : d.Clear all (t.setReg off v) := by
  obtain ⟨hscaf, hregs⟩ := h
  refine ⟨hscaf, fun o hk => ?_⟩
  have hne : o ≠ off := by
    rintro rfl
    exact absurd (hk.symm.trans ho) (by decide)
  rw [t.reg_setReg_other v hne, hregs o hk]

theorem setReg (h : d.Clear all t) (ho : rxCount true off = false) : d.Clear all (t.setReg off v) := h.setReg_of (rxCount_of_all ho)

theorem setFld {hi lo : Nat} (h : d.Clear all t) (ho : rxCount true off = false) : d.Clear all (t.setFld off hi lo v) := h.setReg ho
theorem setFlag (h : d.Clear all t) (ho : rxCount true off = false) : d.Clear all (t.setFlag off n b) := h.setReg ho
theorem bump (h : d.Clear all t) (ho : rxCount true off = false) : d.Clear all (t.bump off n) := h.setReg ho

theorem bump64 (h : d.Clear all t) (ho : rxCount true off = false) (ho4 : rxCount true (off + 4) = false) :
    d.Clear all (t.bump64 off n) := (h.setReg ho).setReg ho4

theorem modBuf {g : Buf → Buf} (h : d.Clear all t) : d.Clear all (t.modBuf g) := h.of_eq rfl rfl
theorem modFrame {g : Frame → Frame} (h : d.Clear all t) : d.Clear all (t.modFrame f g) := h.modBuf
theorem setFrame {x : Frame} (h : d.Clear all t) : d.Clear all (t.setFrame f x) := h.modBuf
theorem modPort {g : Port → Port} (h : d.Clear all t) : d.Clear all (t.modPort p g) := h.of_eq rfl rfl
theorem modPipe {g : Pipe → Pipe} (h : d.Clear all t) : d.Clear all (t.modPipe p g) := h.of_eq rfl rfl
theorem modSched {g : Sched → Sched} (h : d.Clear all t) : d.Clear all (t.modSched p g) := h.of_eq rfl rfl
theorem modSpan {g : Span → Span} (h : d.Clear all t) : d.Clear all (t.modSpan s g) := h.of_eq rfl rfl
theorem modSeat {g : Seat → Seat} (h : d.Clear all t) : d.Clear all (t.modSeat s g) := h.of_eq rfl rfl
theorem modNring {g : NoticeRing → NoticeRing} (h : d.Clear all t) : d.Clear all (t.modNring s r g) := h.modSeat
theorem modCring {g : CmdRing → CmdRing} (h : d.Clear all t) : d.Clear all (t.modCring s r g) := h.modSeat
theorem occ {x : Occ} (h : d.Clear all t) : d.Clear all (t.occ x) := h.of_eq rfl rfl
theorem occPort {cls : Option Nat} (h : d.Clear all t) : d.Clear all (t.occPort k n cls p) := h.occ
theorem occSeat {part : Option Nat} (h : d.Clear all t) : d.Clear all (t.occSeat k s n part) := h.occ
theorem unlease (h : d.Clear all t) : d.Clear all (t.unlease k i) := h.of_eq rfl rfl
theorem takeSeq (h : d.Clear all t) : d.Clear all t.takeSeq.1 := h.of_eq rfl rfl
theorem free (h : d.Clear all t) : d.Clear all (t.free k).1 := h.of_eq rfl rfl

theorem withCtxs {m : NMap Ctx} (h : d.Clear all t) : d.Clear all { t with ctxs := m } := h.of_eq rfl rfl
theorem withEctxs {m : NMap Ctx} (h : d.Clear all t) : d.Clear all { t with ectxs := m } := h.of_eq rfl rfl

theorem flowOnly {u : Device} (h : d.Clear all t) (hu : t.FlowOnly u) : d.Clear all u := by
  rw [hu]
  exact h.of_eq rfl rfl

/-! ### Loops -/

theorem foldl {β : Type} {xs : List β} {g : Device → β → Device} (h : d.Clear all t) (hg : ∀ u x, d.Clear all u → d.Clear all (g u x)) :
    d.Clear all (xs.foldl g t) := List.foldlRecOn (motive := d.Clear all) _ _ h fun u hu x _ => hg u x hu

/-! ### Notices and completions (R410 to R413) -/

theorem dropNotice (h : d.Clear all t) : d.Clear all (t.dropNotice s r n) := (h.bump (rxCount_seatNrLost s)).modNring.occSeat

theorem putEntry (h : d.Clear all t) (hr : r < 8) : d.Clear all (t.putEntry s r n b v k bs) := by
  unfold Device.putEntry
  exact (h.modSeat.setFld (rxCount_seatNrTail s hr)).modNring

theorem coalesce (h : d.Clear all t) : d.Clear all (t.coalesce s r) := by
  have hcount : ∀ g, d.Clear all (t.modNring s r g) := fun _ => h.modNring
  unfold Device.coalesce
  extract_lets ring t'
  split
  · exact (hcount _).modSeat.modNring
  · exact hcount _

theorem putNotice {o : Option (List Byte)} (h : d.Clear all t) (hr : r < 8) : d.Clear all (t.putNotice s r n v k bs o b).1 := by
  unfold Device.putNotice
  extract_lets need ring avail t₁ t₂ t₃
  have h₁ : d.Clear all t₁ := by
    unfold t₁
    split
    · exact h.modNring
    · exact h
  have h₃ : d.Clear all t₃ := by
    unfold t₃
    split
    · exact (h₁.putEntry hr).putEntry hr
    · exact h₁.putEntry hr
  split
  · exact h.dropNotice
  · split
    · exact h.dropNotice
    · exact h₃.occSeat.coalesce

theorem completeOne {op st tag : Nat} (h : d.Clear all t) : d.Clear all (t.completeOne s r op st tag n bs) := by
  unfold Device.completeOne
  extract_lets t₀ t₁ mute t₂ ring
  have h₁ : d.Clear all t₁ := by
    unfold t₁
    split
    · exact h.unlease.setFld rfl
    · exact h.unlease
  have h₂ : d.Clear all t₂ := h₁.modCring
  have hring : ring < 8 := bits_lt _ 2 0
  split
  · exact h₂.dropNotice
  · split
    · exact h₂.modNring
    · have hput : d.Clear all _ := h₂.takeSeq.putNotice (s := s) (n := 3) (v := t₂.takeSeq.2.1) (k := t₂.takeSeq.2.2)
        (bs := completionBody op st tag s r bs) (o := none) (b := true) hring
      simp only
      split
      · exact hput
      · exact hput.modNring

theorem complete {op st tag : Nat} (h : d.Clear all t) : d.Clear all (t.complete s r op st tag n bs) := by
  refine h.completeOne.foldl fun u _ hu => hu.foldl fun u i hu => ?_
  split
  · split
    · exact hu.completeOne
    · exact hu
  · exact hu

/-! ### Priority flow control (R224, R309) -/

theorem notIdle (h : d.Clear all t) : d.Clear all (t.notIdle p) := by
  unfold Device.notIdle
  split
  · exact h.modPort
  · exact h

theorem sendOwn (h : d.Clear all t) : d.Clear all (t.sendOwn p bs) := by
  unfold Device.sendOwn
  split
  · exact h
  · exact ((h.bump64 (rxCount_portTxFramesLo p) (rxCount_portTxFramesHi p)).bump64 (rxCount_portTxBytesLo p)
      (rxCount_portTxBytesHi p)).occPort.occPort.modPort.notIdle

theorem pfcFlush (h : d.Clear all t) : d.Clear all (t.pfcFlush p) := by
  unfold Device.pfcFlush
  extract_lets due on
  split
  · exact h
  · exact (h.modPort.sendOwn.bump (rxCount_portPfcTx p)).modPort

theorem showPfc (h : d.Clear all t) : d.Clear all (t.showPfc p) := by
  unfold Device.showPfc
  extract_lets new old t'
  have h' : d.Clear all t' := h.setFld (rxCount_portStatus p)
  split
  · exact h
  · split
    · exact h'.modPort.pfcFlush
    · exact h'

theorem releaseOne {a : Nat × Nat} (h : d.Clear all t) : d.Clear all (t.releaseOne a) := by
  unfold Device.releaseOne
  split
  · exact h.modBuf.showPfc
  · exact h

theorem assertOne {a : Nat × Nat} (h : d.Clear all t) : d.Clear all (t.assertOne a) := by
  unfold Device.assertOne
  split
  · exact h.modBuf.showPfc
  · exact h

theorem pfcCheck (h : d.Clear all t) : d.Clear all t.pfcCheck :=
  (h.foldl fun _ _ hu => hu.releaseOne).foldl fun _ _ hu => hu.assertOne

theorem settlePools (h : d.Clear all t) : d.Clear all t.settlePools := by
  unfold Device.settlePools
  exact h.modBuf

theorem poolsMoved (h : d.Clear all t) : d.Clear all t.poolsMoved := h.settlePools.pfcCheck

/-! ### The end of a copy and of a frame (R222, R233) -/

theorem sendDone {x : Frame} (h : d.Clear all t) : d.Clear all (t.sendDone x) := by
  unfold Device.sendDone
  split
  · exact h
  · split
    · exact h
    · split
      · exact h.complete
      · exact h.complete
      · exact (h.free (k := 1)).complete

theorem freeFrame (h : d.Clear all t) : d.Clear all (t.freeFrame f) := by
  unfold Device.freeFrame
  split
  · exact h
  · extract_lets t₁ t₂
    have h₂ : d.Clear all t₂ := h.sendDone.modBuf
    exact h₂.withCtxs.poolsMoved

theorem freeUnread (h : d.Clear all t) : d.Clear all (t.freeUnread f) := by
  unfold Device.freeUnread
  split
  · exact h
  · split
    · exact h
    · split
      · exact h.freeFrame
      · exact h.modFrame.poolsMoved

theorem drainLeave (h : d.Clear all t) : d.Clear all (t.drainLeave f p) := by
  unfold Device.drainLeave
  split
  · exact h
  · extract_lets left
    split
    · exact h
    · split
      · exact h.modFrame.poolsMoved
      · exact h.modFrame.poolsMoved

theorem dropCopy (h : d.Clear all t) : d.Clear all (t.dropCopy c) := by
  unfold Device.dropCopy
  split
  · exact h
  · extract_lets t₁
    have h₁ : d.Clear all t₁ := h.modBuf
    exact h₁.withEctxs.unlease.drainLeave.freeUnread.notIdle

theorem endWire (h : d.Clear all t) : d.Clear all (t.endWire c) := by
  unfold Device.endWire
  split
  · exact h
  · exact h.modPort.dropCopy.pfcFlush

theorem endSpan (h : d.Clear all t) : d.Clear all (t.endSpan s c) := by
  unfold Device.endSpan
  split
  · exact h
  · next x _ =>
    split
    · exact h.dropCopy
    · extract_lets bs left bad entered t'
      have h' : d.Clear all t' := by
        unfold t'
        split
        · exact (h.bump (rxCount_bufCtAbort x.port)).occPort
        · exact h
      exact h'.modSpan.dropCopy

theorem abortCopy (h : d.Clear all t) : d.Clear all (t.abortCopy c) := by
  unfold Device.abortCopy
  split
  · exact h
  · next x _ =>
    split
    · exact h.endSpan
    · exact (h.bump (rxCount_bufCtAbort x.port)).occPort.endWire

/-! ### A frame that ends (R217, R218, R233, R313) -/

/-- A frame that turns bad counts as an FCS error of its port where the ingress MAC has not counted it. -/
theorem turnBad (h : d.Clear all t) (hb : b = true ∨ all = false) : d.Clear all (t.turnBad f b) := by
  unfold Device.turnBad
  extract_lets cs t₁ t₂
  have h₁ : d.Clear all t₁ := h.modFrame
  have h₂ : d.Clear all t₂ := by
    unfold t₂
    split
    · next x _ =>
      split
      · next hcount =>
        have hnot : b ≠ true := fun hb => by simp [hb] at hcount
        rw [hb.resolve_left hnot] at h₁ ⊢
        refine h₁.setReg_of ?_
        have hplace : Off.portRxFcsErr x.port % 0x1000 = 0x12C := by unfold Off.portRxFcsErr; omega
        simp [rxCount, hplace]
      · exact h₁
    · exact h₁
  exact h₂.foldl fun _ _ hu => hu.abortCopy

theorem setTokens {x : Int} (h : d.Clear all t) : d.Clear all (t.setTokens p c x) := h.modSched

theorem idleBucket (h : d.Clear all t) : d.Clear all (t.idleBucket p c) := by
  unfold Device.idleBucket
  split
  · exact h.setTokens
  · exact h

theorem tags (h : d.Clear all t) : d.Clear all (t.tags p) :=
  h.foldl fun u c hu => by
    split
    · split
      · exact hu
      · exact hu.modSched
    · exact hu.modSched

theorem hintSettle (h : d.Clear all t) : d.Clear all (t.hintSettle f) := by
  unfold Device.hintSettle
  split
  · exact h
  · refine h.foldl fun u q hu => ?_
    obtain ⟨k, c⟩ := q
    dsimp -zeta only
    extract_lets whole real u₁ u₂
    have h₁ : d.Clear all u₁ := by
      unfold u₁
      split
      · exact hu.setTokens.idleBucket.tags
      · exact hu
    have h₂ : d.Clear all u₂ := h₁.bump (rxCount_bufHintOver c.port)
    split
    · exact h₁
    · split
      · exact h₂.bump (rxCount_schedGateOverrun c.port)
      · exact h₂

theorem returnCells (h : d.Clear all t) : d.Clear all (t.returnCells f) := h.modFrame.poolsMoved

theorem writeCells (h : d.Clear all t) : d.Clear all (t.writeCells f) := by
  unfold Device.writeCells
  split
  · exact h
  · split
    · exact h
    · exact h.setFrame

theorem appendBytes (h : d.Clear all t) : d.Clear all (t.appendBytes f bs) := h.modFrame.writeCells

theorem joinEntry (h : d.Clear all t) : d.Clear all (t.joinEntry f) := by
  unfold Device.joinEntry
  split
  · exact h.modFrame.modPipe
  · exact h

theorem update {us : List Upd} (h : d.Clear all t) : d.Clear all (t.update k us) := by
  unfold Device.update Device.quietUpdate
  split
  · exact h.flowOnly (Device.FlowOnly.refl t).addRun
  · exact h

theorem countBytes (h : d.Clear all t) : d.Clear all (t.countBytes f) := by
  unfold Device.countBytes
  split
  · exact (h.foldl fun _ _ hu => hu.update).modFrame
  · exact h

theorem endCheck (h : d.Clear false t) : d.Clear false (t.endCheck f) := by
  unfold Device.endCheck
  split
  · next x _ =>
    split
    · exact (h.bump (rxCount_pipeLenLate x.pipe)).turnBad (.inr rfl)
    · exact h
  · exact h

theorem overlenCheck (h : d.Clear false t) : d.Clear false (t.overlenCheck f) := by
  unfold Device.overlenCheck
  split
  · split
    · split
      · extract_lets port
        split
        · exact (h.bump (rxCount_schedQOverlen port)).turnBad (.inr rfl)
        · exact h
      · exact h
    · exact h
  · exact h

/-- A frame received with an error. -/
theorem rxBad (h : d.Clear all t) : d.Clear all (t.rxBad f) := by
  unfold Device.rxBad
  split
  · exact h
  · extract_lets t₁
    have h₁ : d.Clear all t₁ := h.modFrame.hintSettle.turnBad (.inl rfl)
    split
    · exact h₁.freeFrame
    · split
      · exact h₁.freeFrame
      · exact h₁.returnCells

/-- A frame received whole and good: a later check may yet count it as an error (R129, R233). -/
theorem frameWhole (h : d.Clear false t) : d.Clear false (t.frameWhole f) := by
  unfold Device.frameWhole
  split
  · exact h
  · extract_lets t₁ t₂ t₃
    have h₂ : d.Clear false t₂ := by
      have h₁ : d.Clear false t₁ := h.modFrame
      exact h₁.countBytes.returnCells.hintSettle
    have h₃ : d.Clear false t₃ := by
      unfold t₃
      split
      · exact h₂.endCheck.overlenCheck
      · exact h₂.overlenCheck
    split
    · exact h₃.joinEntry
    · split
      · exact h₃.freeFrame
      · exact h₃

end Device.Clear

end Sys2Proof.Machine
end

section
set_option Elab.async false
/-! PROOFS. A frame is received: its first bytes, its header window and its last byte (R95, R217, R307 to R313). -/

namespace Sys2Proof.Machine

variable {d t : Device} {f p off n : Nat} {x y : Frame} {rest : List Byte}

/-! ### Counts of 64 bits -/

theorem Device.reg64_congr (h : t.reg off = d.reg off) (h4 : t.reg (off + 4) = d.reg (off + 4)) : t.reg64 off = d.reg64 off := by
  rw [Device.reg64, Device.reg64, h, h4]

@[simp] theorem Device.reg64_bump64_self (d : Device) (off n : Nat) : (d.bump64 off n).reg64 off = (d.reg64 off + n) % 2 ^ 64 := by
  rw [Device.bump64, Device.setReg64, Device.reg64, Device.reg_setReg_other _ _ (by omega), Device.reg_setReg_self, Device.reg_setReg_self]
  omega

theorem Device.reg64_bump64_other (d : Device) {off off' : Nat} (n : Nat) (h : off + 4 < off' ∨ off' + 4 < off) :
    (d.bump64 off n).reg64 off' = d.reg64 off' := by
  refine Device.reg64_congr ?_ ?_ <;>
    rw [Device.bump64, Device.setReg64, Device.reg_setReg_other _ _ (by omega), Device.reg_setReg_other _ _ (by omega)]

/-! ### The last byte (R313) -/

theorem Device.Clear.reg {all : Bool} (h : d.Clear all t) (ho : rxCount all off = true) : t.reg off = d.reg off := h.2 off ho

theorem Device.Clear.reg64 {all : Bool} (h : d.Clear all t) (ho : rxCount all off = true) (ho4 : rxCount all (off + 4) = true) :
    t.reg64 off = d.reg64 off := Device.reg64_congr (h.reg ho) (h.reg ho4)

/-- A count's place is the same in the page of every port. -/
theorem rxCount_page {all : Bool} {p r : Nat} (h : rxCount all r = true) : rxCount all (0x2400000 + r + 0x1000 * p) = true := by
  have hplace : (0x2400000 + r + 0x1000 * p) % 0x1000 = r % 0x1000 := by omega
  rwa [rxCount, hplace, ← rxCount]

/-- What a frame received with an error counts. -/
theorem Device.rxBad_counts {k : Nat} {cls : Option Nat} (ho : rxCount true off = true) :
    ((((d.appendBytes f rest).bump off 1).occPort k n cls p).rxBad f).reg off = sat32 (d.reg off + 1) := by
  have hbad : ((d.appendBytes f rest).bump off 1).Clear true ((((d.appendBytes f rest).bump off 1).occPort k n cls p).rxBad f) :=
    (Device.Clear.refl true _).occPort.rxBad
  rw [hbad.reg ho, Device.reg_bump_self, (Device.Clear.refl true d).appendBytes.reg ho]

/-- What a frame received whole and good counts. -/
theorem Device.frameWhole_counts {u : Device} {len : Nat} (hu : ((((d.appendBytes f rest).bump64 (Off.portRxFramesLo p) 1).bump64
    (Off.portRxBytesLo p) len).Clear false u)) :
    (u.frameWhole f).reg64 (Off.portRxFramesLo p) = (d.reg64 (Off.portRxFramesLo p) + 1) % 2 ^ 64 ∧
      (u.frameWhole f).reg64 (Off.portRxBytesLo p) = (d.reg64 (Off.portRxBytesLo p) + len) % 2 ^ 64 := by
  have hframes : rxCount false (Off.portRxFramesLo p) = true := rxCount_page (r := 0x100) (by decide)
  have hframes4 : rxCount false (Off.portRxFramesLo p + 4) = true := by
    rw [show Off.portRxFramesLo p + 4 = 0x2400000 + 0x104 + 0x1000 * p by unfold Off.portRxFramesLo; omega]
    exact rxCount_page (by decide)
  have hbytes : rxCount false (Off.portRxBytesLo p) = true := rxCount_page (r := 0x108) (by decide)
  have hbytes4 : rxCount false (Off.portRxBytesLo p + 4) = true := by
    rw [show Off.portRxBytesLo p + 4 = 0x2400000 + 0x10C + 0x1000 * p by unfold Off.portRxBytesLo; omega]
    exact rxCount_page (by decide)
  have happend : d.Clear false (d.appendBytes f rest) := (Device.Clear.refl false d).appendBytes
  have hapart : Off.portRxFramesLo p + 4 < Off.portRxBytesLo p := by unfold Off.portRxFramesLo Off.portRxBytesLo; omega
  constructor
  · rw [hu.frameWhole.reg64 hframes hframes4, Device.reg64_bump64_other _ _ (.inr hapart), Device.reg64_bump64_self,
      happend.reg64 hframes hframes4]
  · rw [hu.frameWhole.reg64 hbytes hbytes4, Device.reg64_bump64_self, Device.reg64_bump64_other _ _ (.inl hapart),
      happend.reg64 hbytes hbytes4]

/-! ### The buffer's part (R217) -/

/-- `t` is `d` but for the frames held. -/
def Device.BufOnly (d t : Device) : Prop := t = { d with buf := t.buf }

theorem Device.bufOnly_writeCells (d : Device) (f : Nat) : d.BufOnly (d.writeCells f) := by
  unfold Device.writeCells
  split
  · rfl
  · split <;> rfl

theorem Device.bufOnly_appendBytes (d : Device) (f : Nat) (rest : List Byte) : d.BufOnly (d.appendBytes f rest) := by
  unfold Device.appendBytes
  rw [Device.bufOnly_writeCells]
  rfl

@[simp] theorem Device.rxVerdict_appendBytes (d : Device) (f p : Nat) (rest wire : List Byte) (e : Bool) :
    (d.appendBytes f rest).rxVerdict p wire e = d.rxVerdict p wire e := by
  rw [d.bufOnly_appendBytes]
  rfl

section last
variable {e : Bool} (hx : d.frame f = some x) (hd : x.done = false) (hp : x.port < 512)
include hx hd hp

theorem Device.frameEnd_oversize (hv : d.rxVerdict x.port (wireBytes (x.bytes ++ rest) x.removed) e = .oversize) :
    d.frameEnd f rest e =
      (((d.appendBytes f rest).bump (Off.portRxOversize x.port) 1).occPort 0x005 1 (some x.arrClass) x.port).rxBad f := by
  unfold Device.frameEnd
  simp only [hx, hd, Nat.not_le.mpr hp, Bool.false_or, decide_false, Bool.false_eq_true, if_false, Device.rxVerdict_appendBytes, hv]

theorem Device.frameEnd_runt (hv : d.rxVerdict x.port (wireBytes (x.bytes ++ rest) x.removed) e = .runt) :
    d.frameEnd f rest e =
      (((d.appendBytes f rest).bump (Off.portRxRunt x.port) 1).occPort 0x005 1 (some x.arrClass) x.port).rxBad f := by
  unfold Device.frameEnd
  simp only [hx, hd, Nat.not_le.mpr hp, Bool.false_or, decide_false, Bool.false_eq_true, if_false, Device.rxVerdict_appendBytes, hv]

theorem Device.frameEnd_badFcs (hv : d.rxVerdict x.port (wireBytes (x.bytes ++ rest) x.removed) e = .badFcs) :
    d.frameEnd f rest e =
      (((d.appendBytes f rest).bump (if e then Off.portRxFragErr x.port else Off.portRxFcsErr x.port) 1).occPort 0x005 1 (some x.arrClass)
        x.port).rxBad f := by
  unfold Device.frameEnd
  simp only [hx, hd, Nat.not_le.mpr hp, Bool.false_or, decide_false, Bool.false_eq_true, if_false, Device.rxVerdict_appendBytes, hv]

theorem Device.frameEnd_good (hv : d.rxVerdict x.port (wireBytes (x.bytes ++ rest) x.removed) e = .good) :
    d.frameEnd f rest e = (((((d.appendBytes f rest).bump64 (Off.portRxFramesLo x.port) 1).bump64 (Off.portRxBytesLo x.port)
      (wireBytes (x.bytes ++ rest) x.removed).length).occPort 0x001 1 (some x.arrClass) x.port).occPort 0x002
      (wireBytes (x.bytes ++ rest) x.removed).length (some x.arrClass) x.port).frameWhole f := by
  unfold Device.frameEnd
  simp only [hx, hd, Nat.not_le.mpr hp, Bool.false_or, decide_false, Bool.false_eq_true, if_false, Device.rxVerdict_appendBytes, hv]

end last

/-! ### The header window (R95) -/

theorem Device.frame_writeCells (h : d.frame f = some x) :
    ∃ y, (d.writeCells f).frame f = some y ∧ ∃ c k, y = { x with chain := c, drain := k } := by
  unfold Device.writeCells
  simp only [h]
  split
  · exact ⟨x, h, x.chain, x.drain, rfl⟩
  · exact ⟨_, Device.frame_setFrame_self .., _, _, rfl⟩

/-- Bytes that arrive leave a frame its pipeline. -/
theorem Device.frame_appendBytes (h : d.frame f = some x) : ∃ y, (d.appendBytes f rest).frame f = some y ∧ y.pipe = x.pipe := by
  unfold Device.appendBytes
  obtain ⟨y, hy, c, k, rfl⟩ := Device.frame_writeCells ((Device.frame_modFrame_self d f _).trans (congrArg _ h))
  exact ⟨_, hy, rfl⟩

theorem Device.headerWindow_eq (hx : d.frame f = some x) (hd : x.done = false) (hp : x.place = .rx)
    (hlen : 64 < x.bytes.length + rest.length) : d.headerWindow f rest = (d.appendBytes f rest).joinEntry f := by
  unfold Device.headerWindow
  simp [hx, hd, hp, hlen]

/-- A frame that joins its pipeline's entry queue is its last. -/
theorem Device.joinEntry_joins (h : d.frame f = some x) :
    ((d.joinEntry f).frame f).any (fun y => y.place == .entry) = true ∧
      ((d.joinEntry f).pipe x.pipe).entryQ = (d.pipe x.pipe).entryQ ++ [f] := by
  unfold Device.joinEntry
  simp only [h]
  refine ⟨?_, by rw [Device.pipe_modPipe_self]; rfl⟩
  show ((d.modFrame f _).frame f).any _ = true
  rw [Device.frame_modFrame_self, h]
  rfl

/-! ### The first bytes (R307, R308, R310) -/

/-- The frames held, and the number of the next. -/
def Device.FramesKept (d t : Device) : Prop := t.buf.frames = d.buf.frames ∧ t.buf.nextFrame = d.buf.nextFrame

namespace Device.FramesKept

theorem refl (d : Device) : d.FramesKept d := ⟨rfl, rfl⟩

theorem of_buf {u : Device} (h : d.FramesKept t) (hu : u.buf.frames = t.buf.frames) (hn : u.buf.nextFrame = t.buf.nextFrame) :
    d.FramesKept u := ⟨hu.trans h.1, hn.trans h.2⟩

theorem setReg {v : Nat} (h : d.FramesKept t) : d.FramesKept (t.setReg off v) := h.of_buf rfl rfl
theorem modPort {g : Port → Port} (h : d.FramesKept t) : d.FramesKept (t.modPort p g) := h.of_buf rfl rfl
theorem occ {o : Occ} (h : d.FramesKept t) : d.FramesKept (t.occ o) := h.of_buf rfl rfl

theorem notIdle (h : d.FramesKept t) : d.FramesKept (t.notIdle p) := by
  unfold Device.notIdle
  split
  · exact h.modPort
  · exact h

theorem sendOwn {bs : List Byte} (h : d.FramesKept t) : d.FramesKept (t.sendOwn p bs) := by
  unfold Device.sendOwn
  split
  · exact h
  · exact h.setReg.setReg.setReg.setReg.occ.occ.modPort.notIdle

theorem pfcFlush (h : d.FramesKept t) : d.FramesKept (t.pfcFlush p) := by
  unfold Device.pfcFlush
  extract_lets due on
  split
  · exact h
  · exact h.modPort.sendOwn.setReg.modPort

theorem showPfc (h : d.FramesKept t) : d.FramesKept (t.showPfc p) := by
  unfold Device.showPfc
  extract_lets new old t'
  have h' : d.FramesKept t' := h.setReg
  split
  · exact h
  · split
    · exact h'.modPort.pfcFlush
    · exact h'

theorem releaseOne {a : Nat × Nat} (h : d.FramesKept t) : d.FramesKept (t.releaseOne a) := by
  unfold Device.releaseOne
  split
  · exact FramesKept.showPfc (h.of_buf rfl rfl)
  · exact h

theorem assertOne {a : Nat × Nat} (h : d.FramesKept t) : d.FramesKept (t.assertOne a) := by
  unfold Device.assertOne
  split
  · exact FramesKept.showPfc (h.of_buf rfl rfl)
  · exact h

theorem pfcCheck (h : d.FramesKept t) : d.FramesKept t.pfcCheck :=
  List.foldlRecOn (motive := d.FramesKept) _ _
    (List.foldlRecOn (motive := d.FramesKept) _ _ h fun _ hu _ _ => hu.releaseOne) fun _ hu _ _ => hu.assertOne

theorem poolsMoved (h : d.FramesKept t) : d.FramesKept t.poolsMoved := by
  unfold Device.poolsMoved Device.settlePools
  exact FramesKept.pfcCheck (h.of_buf rfl rfl)

theorem frame (h : d.FramesKept t) (f : Nat) : t.frame f = d.frame f := by
  rw [Device.frame, h.1, ← Device.frame]

end Device.FramesKept

/-- What the arrival of a frame fixes of it. -/
def Frame.sameArrival (x y : Frame) : Prop :=
  y.port = x.port ∧ y.bytes = x.bytes ∧ y.done = x.done ∧ y.rxTransit = x.rxTransit ∧ y.arrClass = x.arrClass

/-- `t` holds one frame more than `d`, under the next number, as it arrived. -/
def Device.HasNew (d t : Device) (x : Frame) : Prop :=
  t.buf.nextFrame = d.buf.nextFrame + 1 ∧ ∃ y, t.frame d.buf.nextFrame = some y ∧ x.sameArrival y

/-- A new frame takes the next number. -/
theorem Device.hasNew_addFrame {x z : Frame} (h : d.FramesKept t) (hz : x.sameArrival z) : d.HasNew (t.addFrame z) x := by
  obtain ⟨y, hy, c, k, rfl⟩ := Device.frame_writeCells (f := t.buf.nextFrame) (x := z)
    (d := t.modBuf fun b => { b with frames := NMap.set b.frames b.nextFrame z, nextFrame := b.nextFrame + 1 }) (NMap.get?_set_self ..)
  unfold Device.HasNew
  rw [← h.2]
  refine ⟨?_, _, hy, hz⟩
  unfold Device.addFrame Device.writeCells
  split
  · rfl
  · split <;> rfl

theorem Device.HasNew.poolsMoved {x : Frame} (h : d.HasNew t x) : d.HasNew t.poolsMoved x := by
  have hkept := (Device.FramesKept.refl t).poolsMoved
  unfold Device.HasNew
  rw [hkept.2, hkept.frame]
  exact h

theorem Device.framesKept_admitFrame (d : Device) (p c n : Nat) : d.FramesKept (d.admitFrame p c n).1 := by
  have hpfc : d.FramesKept d.pfcCheck := (Device.FramesKept.refl d).pfcCheck
  unfold Device.admitFrame
  extract_lets t
  generalize (if 1048576 ≤ t.descriptors then none else t.admitTo p c n) = a
  cases a with
  | some a => exact hpfc.occ.occ
  | none => exact hpfc.setReg.occ

/-- An arriving frame is held, admitted or not. -/
theorem Device.hasNew_takeIn (d : Device) (x : Frame) (bad : Bool) : d.HasNew (d.takeIn x bad) x := by
  have hself := Device.FramesKept.refl d
  have hplace : ∀ z : Frame, z = { x with place := .out } → x.sameArrival z := fun z hz => hz ▸ ⟨rfl, rfl, rfl, rfl, rfl⟩
  have hadmit := d.framesKept_admitFrame x.port x.arrClass (d.provision x.port)
  unfold Device.takeIn
  extract_lets p cls prov
  split
  · exact Device.hasNew_addFrame hself.setReg (hplace _ rfl)
  · split
    · exact Device.hasNew_addFrame hself.setReg (hplace _ rfl)
    · split
      · exact Device.hasNew_addFrame hself.setReg.occ (hplace _ rfl)
      · split
        · next t ht =>
          rw [ht] at hadmit
          exact Device.hasNew_addFrame hadmit (hplace _ rfl)
        · next t a ht =>
          rw [ht] at hadmit
          exact (Device.hasNew_addFrame hadmit ⟨rfl, rfl, rfl, rfl, rfl⟩).poolsMoved

/-- A frame that a port begins to receive. -/
theorem Device.frameReceive_eq {bytes : List Byte} {pre : Bool} (hup : d.portUp p = true) (hasleep : d.flag (Off.portStatus p) 26 = false)
    (hmac : isMacControl bytes = false) (hsleep : isSleepFrame bytes = false) (hservo : d.isServoFrame p bytes = false)
    (hone : d.receiving p pre = false) :
    d.frameReceive p bytes pre = (d.disarm p).takeIn ((d.disarm p).strip p bytes pre none).1 ((d.disarm p).strip p bytes pre none).2 := by
  unfold Device.frameReceive
  simp only [hup, hasleep, hmac, hsleep, hservo, hone, Bool.not_true, Bool.or_self, Bool.false_eq_true, if_false]

/-- Settles O11: the first bytes by the frame they add, the last by the counts that what follows leaves alone. -/
theorem frameReception : Obligations.FrameReception := by
  unfold Obligations.FrameReception
  refine ⟨?first, ?window, ?good, ?fcs, ?oversize, ?runt, ?fragment⟩
  case first =>
    intro port bytes pre d w hup hasleep hmac hsleep hservo hone _
    refine runs_of_exec (exec_to rfl (Device.frameReceive_eq hup hasleep hmac hsleep hservo hone)) ?_
    obtain ⟨hnext, y, hy, hport, hbytes, hdone, htransit, hclass⟩ :=
      (d.disarm port).hasNew_takeIn ((d.disarm port).strip port bytes pre none).1 ((d.disarm port).strip port bytes pre none).2
    refine ⟨hnext, ?_⟩
    rw [show d.buf.nextFrame = (d.disarm port).buf.nextFrame from rfl, hy, Option.any_some, hport, hbytes, hdone, htransit, hclass]
    simp only [Bool.and_eq_true, beq_iff_eq, Bool.not_eq_true']
    exact ⟨⟨⟨⟨rfl, rfl⟩, rfl⟩, rfl⟩, rfl⟩
  case window =>
    intro f more x d w hx hd hp hlen
    obtain ⟨y, hy, hpipe⟩ := Device.frame_appendBytes (rest := more) hx
    obtain ⟨hplace, hqueue⟩ := Device.joinEntry_joins hy
    refine runs_of_exec (exec_to rfl (Device.headerWindow_eq hx hd hp hlen)) ⟨hplace, ?_⟩
    rw [← hpipe, hqueue, d.bufOnly_appendBytes]
    rfl
  case good =>
    intro f rest e x d w hx hd hp hv
    exact runs_of_exec (exec_to rfl (Device.frameEnd_good hx hd hp hv)) (Device.frameWhole_counts (Device.Clear.refl false _).occPort.occPort)
  case fcs =>
    intro f rest x d w hx hd hp hv
    exact runs_of_exec (exec_to rfl (Device.frameEnd_badFcs hx hd hp hv)) (Device.rxBad_counts (rxCount_page (r := 0x12C) (by decide)))
  case oversize =>
    intro f rest e x d w hx hd hp hv
    exact runs_of_exec (exec_to rfl (Device.frameEnd_oversize hx hd hp hv)) (Device.rxBad_counts (rxCount_page (r := 0x130) (by decide)))
  case runt =>
    intro f rest e x d w hx hd hp hv
    exact runs_of_exec (exec_to rfl (Device.frameEnd_runt hx hd hp hv)) (Device.rxBad_counts (rxCount_page (r := 0x134) (by decide)))
  case fragment =>
    intro f rest x d w hx hd hp
    exact runs_of_exec (exec_to rfl (Device.frameEnd_badFcs hx hd hp (by simp [Device.rxVerdict])))
      (Device.rxBad_counts (rxCount_page (r := 0x138) (by decide)))

end Sys2Proof.Machine
end

section
set_option Elab.async false
/-! PROOFS. The ALU of a thread, and the end of a task (R57, R69, R73, R76). -/

namespace Sys2Proof.Machine

variable {d t : Device} {id : Nat} {x : Task}

/-! ### Results of a task (R35, R73) -/

section alu
variable {c : Instr} {e k : Nat} {engine : Fin 32} {thread : Fin 8} {q : Pred} {op enc lat : Nat} {w : List Instr} {f : FmtA} {v : DWord}

/-- The registers of a task after an instruction whose one result goes to a register. -/
theorem Device.taskRegs_computed (h : d.threadAt e k q op enc = some (id, x)) (rd : BitVec 6) :
    ((d.applyTask id [.reg rd v]).thrDone e k id (x.regs.pc.toNat + 1) x).taskRegs id (x.nextRegs (x.regs.set rd v)) := by
  obtain ⟨-, hid, -, -, hspent, -⟩ := Device.threadOn_some (Device.threadAt_some h).1
  refine Device.taskRegs_thrDone (y := { x with regs := x.regs.set rd v }) hspent ?_
  rw [Device.applyTask, Device.task_modTask_self, hid]
  rfl

theorem runs_computed {g : Bool → Regs → List Byte → Except Exc (List Wr)}
    (ex : exec c ⟨d, w⟩ = .next ⟨d.compute (.thr engine thread) q op enc lat g, w⟩)
    (h : d.threadAt engine thread q op enc = some (id, x)) (hop : op < 256) (henc : enc < 4503599627370496) (hends : op ≠ 0x70 ∧ op ≠ 0x71)
    (hg : g true x.regs (d.taskWindow id x) = .ok [.reg f.rd v]) :
    Runs c d w fun t => t.taskRegs id (x.nextRegs (x.regs.set f.rd v)) :=
  runs_of_exec (exec_to ex (Device.compute_at h hop henc hends hg)) (Device.taskRegs_computed h f.rd)

theorem moviEff_high {r : Regs} (hs : isS f.rd = true) (hx : f.x = true) :
    moviEff true r f = .ok [.reg f.rd (BitVec.ofNat 64 (f.imm.toNat * 2 ^ 32 + (r.get f.rd).toNat % 2 ^ 32))] := by
  simp [moviEff, hs, hx, destOk_of_isS hs]

theorem Device.thrMov_plain (h : d.threadAt e k q 0x0C f.enc = some (id, x)) (hs : isS f.rd = true) (hx : f.x = false) :
    d.thrMov e k q f = (d.applyTask id [.reg f.rd (x.regs.get f.ra)]).thrDone e k id (x.regs.pc.toNat + 1) x := by
  have heff : movEff true x.regs f = .ok [.reg f.rd (x.regs.get f.ra)] := by simp [movEff, destOk_of_isS hs]
  unfold Device.thrMov
  rw [Device.thrRun_at h (by decide) f.enc_lt (fun hends => absurd hends (by decide))]
  simp only [hx, heff, Bool.not_false, if_true]
  rfl

end alu

/-! ### What becomes of a task's frame leaves the scaffold alone (R69, R217 to R222) -/

section frame
variable (d : Device) (f : Nat)

theorem Device.scaf_poolsMoved : d.poolsMoved.scaf = d.scaf := (Device.Clear.refl true d).poolsMoved.1

theorem Device.scaf_releaseFrame : (d.releaseFrame f).scaf = d.scaf := (Device.Clear.refl true d).modFrame.freeUnread.1

theorem Device.scaf_discardFrame (r : Nat) : (d.discardFrame f r).scaf = d.scaf := by
  unfold Device.discardFrame
  split
  · rfl
  · exact Device.scaf_releaseFrame ..

theorem Device.scaf_moveAcct (a : Account) : (d.moveAcct f a).scaf = d.scaf := Device.scaf_poolsMoved ..

theorem Device.scaf_fromRecirc : (d.fromRecirc f).scaf = d.scaf := by
  unfold Device.fromRecirc
  split
  · split
    · exact Device.scaf_moveAcct ..
    · rfl
  · rfl

theorem Device.scaf_toScaf : (d.toScaf f).1.scaf = d.scaf := by
  unfold Device.toScaf
  split
  · split
    · rfl
    · split
      · exact Device.scaf_moveAcct ..
      · rfl
  · rfl

theorem Device.scaf_joinInternal (p : Nat) (cut : Option Nat) : (d.joinInternal f p cut).scaf = d.scaf := by
  unfold Device.joinInternal
  split <;> rfl

theorem Device.scaf_channelJoin (s : Nat) (m : Vector Word 16) (hint arr : Nat) : (d.channelJoin s m hint arr).1.scaf = d.scaf := by
  unfold Device.channelJoin
  extract_lets c cost tok
  split
  · rfl
  · split <;> rfl

theorem Device.scaf_joinPort (pipe p cls : Nat) (quote : Option Nat) (spray : Option (Nat × Nat × Bool)) (cut : Option Nat) (snap : List Byte) :
    (d.joinPort f pipe p cls quote spray cut snap).scaf = d.scaf := by
  unfold Device.joinPort
  split
  · rfl
  · split
    · rfl
    · extract_lets hint
      split
      next t cls' chan dl ht =>
      have hscaf : t.scaf = d.scaf := by
        have ht := congrArg (fun r => r.1.scaf) ht
        simp only at ht
        rw [← ht]
        split
        · rfl
        · split
          · rfl
          · split
            · exact Device.scaf_channelJoin ..
            · rfl
      exact hscaf

theorem Device.scaf_applyLive (g : Nat) : (d.applyLive g).scaf = d.scaf := by
  unfold Device.applyLive
  extract_lets live old n table
  split <;> rfl

theorem Device.scaf_resolve (x : Frame) (g sel : Nat) : (d.resolve x g sel).1.scaf = d.scaf := by
  rw [← d.scaf_applyLive g]
  unfold Device.resolve
  extract_lets t
  split
  · split <;> rfl
  · split <;> rfl

theorem Device.scaf_toRepl (g pipe : Nat) (v : Policed) : (d.toRepl f g pipe v).scaf = d.scaf := by
  unfold Device.toRepl
  split
  · rfl
  · extract_lets q
    split
    · exact Device.scaf_discardFrame ..
    · rfl

theorem Device.scaf_joinTargets (pipe : Nat) (v : Policed) (snap : List Byte) : (d.joinTargets f pipe v snap).scaf = d.scaf := by
  unfold Device.joinTargets
  split
  · rfl
  · next x _ =>
    extract_lets m3
    split
    · exact (Device.scaf_releaseFrame ..).trans (Device.scaf_joinPort ..)
    · have hres := d.scaf_resolve x (m3 % 256) (bits m3 25 16)
      split
      · next t ht =>
        rw [ht] at hres
        exact (Device.scaf_discardFrame ..).trans hres
      · next t p spray ht =>
        rw [ht] at hres
        exact ((Device.scaf_releaseFrame ..).trans (Device.scaf_joinPort ..)).trans hres
    · exact Device.scaf_toRepl ..

theorem Device.scaf_numberTwins : (d.numberTwins f).scaf = d.scaf := by
  unfold Device.numberTwins
  split
  · rfl
  · split
    next t es ht =>
    show t.scaf = d.scaf
    rw [← congrArg (fun r => r.1.scaf) ht]
    refine List.foldlRecOn (motive := fun acc : Device × List Edit => acc.1.scaf = d.scaf) _ _ rfl fun acc hacc e _ => ?_
    split <;> exact hacc

theorem Device.scaf_forwardOwn (pipe : Nat) (snap : List Byte) : (d.forwardOwn f pipe snap).scaf = d.scaf := by
  unfold Device.forwardOwn
  extract_lets t
  split
  · exact Device.scaf_numberTwins ..
  · exact (Device.scaf_joinTargets ..).trans (Device.scaf_numberTwins ..)

theorem Device.scaf_toInternal (p : Nat) : (d.toInternal f p).scaf = d.scaf := by
  unfold Device.toInternal
  split
  · rfl
  · next x _ =>
    extract_lets t
    have ht : t.scaf = d.scaf := by
      unfold t
      split <;> rfl
    have hmoved := ((t.fromRecirc f).scaf_toScaf f).trans ((t.scaf_fromRecirc f).trans ht)
    split
    next u ok hu =>
    rw [hu] at hmoved
    split
    · exact ((Device.scaf_releaseFrame ..).trans (Device.scaf_joinInternal ..)).trans hmoved
    · exact (Device.scaf_releaseFrame ..).trans hmoved

theorem Device.scaf_makeMirror (p aux pipe : Nat) (snap : List Byte) : (d.makeMirror f p aux pipe snap).scaf = d.scaf := by
  unfold Device.makeMirror
  split
  · rfl
  · split
    · rfl
    · split
      · exact Device.scaf_joinInternal ..
      · exact Device.scaf_joinPort ..

theorem Device.scaf_disposeTask : (d.disposeTask f).scaf = d.scaf := by
  unfold Device.disposeTask
  split
  · rfl
  · extract_lets t m3
    have ht : t.scaf = d.scaf := by
      unfold t
      split
      · exact Device.scaf_makeMirror ..
      · rfl
    split
    · exact (Device.scaf_forwardOwn ..).trans ht
    · split
      · exact (Device.scaf_toInternal ..).trans ht
      · exact (Device.scaf_discardFrame ..).trans ht

theorem Device.scaf_takeAside : (d.takeAside f).scaf = d.scaf := by
  unfold Device.takeAside
  split
  · rfl
  · extract_lets a cell y t
    split
    · exact Device.scaf_poolsMoved ..
    · rfl

theorem Device.scaf_addFrame (x : Frame) : (d.addFrame x).scaf = d.scaf := (Device.Clear.refl true d).modBuf.writeCells.1

end frame

/-! ### The end of a task (R69, R76, R381) -/

theorem Device.task_congr (h : t.scaf = d.scaf) (i : Nat) : t.task i = d.task i := by
  rw [Device.task, h, ← Device.task]

theorem Device.thr_congr (h : t.scaf = d.scaf) (k : Nat) : t.thr k = d.thr k := by
  rw [Device.thr, h, ← Device.thr]

/-- A thread that ends is free, and no task is touched. -/
theorem Device.endThread_free (d : Device) (k : Nat) : ((d.endThread k).thr k).state = .free ∧ ∀ i, (d.endThread k).task i = d.task i := by
  have hfree : ∀ s : Scaf, ((NMap.get? (NMap.del s.threads k) k).getD Thread.idle).state = .free := fun s => by
    rw [NMap.get?_del_self]
    rfl
  unfold Device.endThread
  extract_lets t
  split
  · exact ⟨hfree d.scaf, fun _ => rfl⟩
  · exact ⟨hfree d.scaf, fun _ => rfl⟩

/-- A task that ends is gone, and its thread is free. -/
theorem Device.taskGone_gone {k : Nat} (hx : d.task id = some x) (hk : x.thread? = some k) :
    (d.taskGone id).task id = none ∧ ((d.taskGone id).thr k).state = .free := by
  unfold Device.taskGone
  simp only [hx, hk]
  obtain ⟨hfree, htask⟩ := Device.endThread_free (Device.unlease (Device.modScaf _ _) 3 id) k
  exact ⟨(htask id).trans (NMap.get?_del_self ..), hfree⟩

/-- After its task is gone the end of a task leaves the scaffold alone. -/
theorem Device.scaf_endTask (hx : d.task id = some x) : (d.endTask id).scaf = (d.taskGone id).scaf := by
  unfold Device.endTask
  simp only [hx]
  split
  · rfl
  · split
    · rfl
    · split
      · rfl
      · split
        · rfl
        · exact (Device.scaf_disposeTask ..).trans ((Device.scaf_takeAside ..).trans (Device.scaf_addFrame ..))

theorem Device.thrEnd_at {e k : Nat} (h : d.threadAt e k ⟨0, false⟩ 0x71 0 = some (id, x)) :
    d.thrEnd e k ⟨0, false⟩ = ((d.endTask id).bump (Off.scafEngInstr e) 1).occTask 0x603 e x := by
  unfold Device.thrEnd
  rw [Device.thrRun_at h (by decide) (by decide) fun _ => rfl]
  rfl

/-- Settles O33: the ALU by its results in 64 bits, END by the end of its task. -/
theorem threadAlu : Obligations.ThreadAlu := by
  unfold Obligations.ThreadAlu
  refine ⟨?add, ?sub, ?and, ?or, ?xor, ?shl, ?shr, ?rot, ?min, ?max, ?mov, ?movi, ?done⟩
  case add => exact fun q f _ _ _ _ _ _ h hs => runs_computed rfl h (by decide) f.enc_lt (by decide) (aluEff_wide .add hs)
  case sub => exact fun q f _ _ _ _ _ _ h hs => runs_computed rfl h (by decide) f.enc_lt (by decide) (aluEff_wide .sub hs)
  case and => exact fun q f _ _ _ _ _ _ h hs => runs_computed rfl h (by decide) f.enc_lt (by decide) (aluEff_wide .and hs)
  case or => exact fun q f _ _ _ _ _ _ h hs => runs_computed rfl h (by decide) f.enc_lt (by decide) (aluEff_wide .or hs)
  case xor => exact fun q f _ _ _ _ _ _ h hs => runs_computed rfl h (by decide) f.enc_lt (by decide) (aluEff_wide .xor hs)
  case shl => exact fun q f _ _ _ _ _ _ h hs => runs_computed rfl h (by decide) f.enc_lt (by decide) (aluEff_wide .shl hs)
  case shr => exact fun q f _ _ _ _ _ _ h hs => runs_computed rfl h (by decide) f.enc_lt (by decide) (aluEff_wide .shr hs)
  case rot => exact fun q f _ _ _ _ _ _ h hs => runs_computed rfl h (by decide) f.enc_lt (by decide) (aluEff_wide .rot hs)
  case min => exact fun q f _ _ _ _ _ _ h hs => runs_computed rfl h (by decide) f.enc_lt (by decide) (aluEff_wide .min hs)
  case max => exact fun q f _ _ _ _ _ _ h hs => runs_computed rfl h (by decide) f.enc_lt (by decide) (aluEff_wide .max hs)
  case movi => exact fun q f _ _ _ _ _ _ h hs hx => runs_computed rfl h (by decide) f.enc_lt (by decide) (moviEff_high hs hx)
  case mov =>
    intro q f e k id x d w h hs hx
    exact runs_of_exec (exec_to rfl (Device.thrMov_plain h hs hx)) (Device.taskRegs_computed h f.rd)
  case done =>
    intro e k id x d w h hat
    obtain ⟨-, hid, -⟩ := Device.threadOn_some (Device.threadAt_some h).1
    have hthread : x.thread? = some (thrKey e k) := by rw [Task.thread?, hat]
    obtain ⟨hgone, hfree⟩ := Device.taskGone_gone hid hthread
    have hscaf := Device.scaf_endTask hid
    refine runs_of_exec (exec_to rfl (Device.thrEnd_at h)) ⟨?_, ?_⟩
    · exact (Device.task_congr hscaf id).trans hgone
    · exact (congrArg Thread.state (Device.thr_congr hscaf (thrKey e k))).trans hfree

end Sys2Proof.Machine
end

section
set_option Elab.async false
/-! PROOFS. LEASE_QUERY shows a lease of buffer cells by the first cell of its frame and the cells it has, while the fault manager records it
by the frame (R448, R450). -/

namespace Sys2Proof.Machine

/-- What a statement says of a command holds of the block that the command leaves. -/
theorem prop_of_runs {c : Instr} {d t : Device} {w : List Instr} {P : Device → Prop} (h : Runs c d w P)
    (e : exec c ⟨d, w⟩ = .next ⟨t, w⟩) : P t := by
  obtain ⟨u, hu, hP⟩ := h
  rw [e] at hu
  cases hu
  exact hP

/-- What a lease record shows of a lease of the cells of a frame in the buffer. -/
theorem Device.shownLease_cells {d : Device} {l : Lease} {x : Frame} (hkind : l.kind = 0) (hframe : l.index < 2 ^ 31)
    (hx : d.frame l.index = some x) : d.shownLease l = { l with index := x.chain.headD 0, amount := x.cells } := by
  rw [Device.shownLease, if_neg (not_not.2 hkind)]
  simp only [if_neg (Nat.not_le.2 hframe), Option.bind_some, hx]

/-- A frame in a pass of pipeline 0, in cell 7. -/
def passingFrame : Frame := { Frame.blank 8 (List.replicate 64 0) with place := .pass, cells := 1, chain := [7] }

/-- Pipeline 0 holds the cell of frame 0. -/
def passingLease : Lease := ⟨0, 2, 0, 0, 1, 0⟩

/-- Seat A is present, its command ring 0 holds a command, and that frame is in the buffer under that lease. -/
def leasedCell : Device :=
  let d := { Device.reset with
    pwr := { Power.reset with phase := .started, alive := true, squelch := false }
    buf := { Device.reset.buf with frames := [(0, passingFrame)], nextFrame := 1 }
    fault := { Device.reset.fault with leases := [passingLease] }
    seats := [(0, { Seat.reset with present := true, link := 1 })] }
  ((d.setReg (Off.seatCrCtl 0 0) (2 ^ 31 + 4 * 2 ^ 16)).setReg (Off.seatCrTail 0 0) 1).setReg (Off.seatNrCtl 0 0) (2 ^ 31 + 4 * 2 ^ 16)

/-- A QUIET LEASE_QUERY of one record: buffer cells (kind 0), whoever holds them (DKIND 0xFF). -/
def cellsQuery : CmdEntry := ⟨0, 0, 0x80, 0, 16, 0x1000, fitB 48 [0, 0xFF], [], true⟩

theorem leasedCell_shownLease : leasedCell.shownLease passingLease = { passingLease with index := 7 } :=
  Device.shownLease_cells (x := passingFrame) rfl (by decide) rfl

theorem leasedCell_commandReady : leasedCell.commandReady cellsQuery 0x13 0 [(16, 1), (17, 1), (20, 4)] 0 = true := by decide +kernel

/-- The record in host memory has the lease as it is shown. -/
theorem leasedCell_leaseQuery :
    ((leasedCell.leaseQuery cellsQuery).seat 0).hostMem =
      Mem.writeN 0 [] 0x1000 (leaseRecord 0 (leasedCell.shownLease passingLease)) := by
  rw [leasedCell_shownLease]
  decide +kernel

/-- Refutes O8 at its clause on LEASE_QUERY: for `leasedCell` it claims a record with the lease as recorded, INDEX 0, and the record has
INDEX 7, the first cell. -/
theorem not_darbyCommands : ¬ Obligations.DarbyCommands := by
  unfold Obligations.DarbyCommands
  rintro ⟨-, -, -, -, -, -, -, -, -, -, -, -, hlease, -⟩
  obtain ⟨-, hmem⟩ := prop_of_runs (t := leasedCell.leaseQuery cellsQuery)
    (hlease cellsQuery leasedCell [] leasedCell_commandReady (by decide) (by decide) (by decide +kernel)) rfl
  have hrecorded : ((leasedCell.leaseQuery cellsQuery).seat 0).hostMem = Mem.writeN 0 [] 0x1000 (leaseRecord 0 passingLease) :=
    hmem
  rw [leasedCell_leaseQuery, leasedCell_shownLease] at hrecorded
  exact absurd hrecorded (by decide +kernel)

end Sys2Proof.Machine
end

section
set_option Elab.async false
/-! PROOFS. A coat that becomes current shows the registers it lists, after COAT_TIME has taken its commit time (R12, R108). The statement
speaks of every device, so also of one whose pending coat lists COAT_TIME_LO, which is no Coat-class register and which no image can
carry (R115). -/

namespace Sys2Proof.Machine

/-- A coat with that register among its own. -/
def strayCoat : Coat := { Coat.blank with id := 1, cregs := [(Off.coatTimeLo, 1)] }

/-- It is pending at TB0 time 0, with every slot free. -/
def strayPending : Device :=
  { Device.reset with coats := { Device.reset.coats with pending := some ⟨strayCoat, 0, none, none, [], false⟩ } }

/-- Its commit time is 0, and COAT_TIME shows what the coat lists. -/
theorem strayPending_coatDue : strayPending.tbCount 0 = 0 ∧ strayPending.coatDue.switchDone.reg64 Off.coatTimeLo = 1 := by
  decide +kernel

/-- Refutes O23 at its clause on the change of coats: `strayPending` meets its hypotheses, and COAT_TIME is not the commit time. -/
theorem not_coatLife : ¬ Obligations.CoatLife := by
  unfold Obligations.CoatLife
  rintro ⟨-, -, hcurrent, -⟩
  obtain ⟨-, -, -, -, htime⟩ := prop_of_runs (t := strayPending.coatDue.switchDone)
    (hcurrent ⟨strayCoat, 0, none, none, [], false⟩ 0 strayPending [] rfl (by decide +kernel) rfl (Nat.zero_le _) rfl
      (by decide +kernel) (by decide +kernel) (by decide +kernel)) rfl
  obtain ⟨hnow, hshown⟩ := strayPending_coatDue
  have hone : 1 = 0 % 2 ^ 64 := by
    rw [← hshown, ← hnow]
    exact htime
  exact absurd hone (by decide)

end Sys2Proof.Machine
end

section
set_option Elab.async false
/-! PROOFS. A dirty skim copy that is uncorrectable is lost with its record (R188): skim copy, queued copy and home go. What frames in
their passes still see of a removed record is kept under a number from 2 ^ 26 on, which is no handle (R43, R182). The statement speaks of
every device, so also of one that keeps such a copy under a handle in use. -/

namespace Sys2Proof.Machine

/-- A record image with no key and only DIRTY set. -/
def dirtyImage : List Byte := updsApply (List.replicate 128 0) [flagUpd 4 true]

/-- Skim place 0 holds the dirty copy of the record of handle 0, and a copy of a removed record is kept under that handle. -/
def keptUnderHandle : Device :=
  Device.reset.modFlow fun w => { w with skim := [(0, ⟨0, dirtyImage⟩)], ghosts := [(0, dirtyImage)] }

theorem keptUnderHandle_dirty : (keptUnderHandle.copyNow 0).any recDirty = true := by decide +kernel

/-- Both copies of the record go, and what the handle names is then the copy kept for frames. -/
theorem keptUnderHandle_ueData :
    (keptUnderHandle.ueData (.skim 0)).flow.skim = [] ∧ (keptUnderHandle.ueData (.skim 0)).authCopy 0 = some dirtyImage := by
  decide +kernel

/-- Refutes O40 at its clause on a dirty skim copy: `keptUnderHandle` meets its hypotheses, and the handle still names a copy. -/
theorem not_faultsAndStops : ¬ Obligations.FaultsAndStops := by
  unfold Obligations.FaultsAndStops
  rintro ⟨-, -, hdirty, -⟩
  have hnone : (keptUnderHandle.ueData (.skim 0)).authCopy 0 = none :=
    prop_of_runs (hdirty 0 ⟨0, dirtyImage⟩ keptUnderHandle [] rfl keptUnderHandle_dirty) rfl
  obtain ⟨-, hkept⟩ := keptUnderHandle_ueData
  exact Option.some_ne_none _ (hkept.symm.trans hnone)

end Sys2Proof.Machine
end

section
set_option Elab.async false
/-! PROOFS. The state after reset (R178, R518). -/

namespace Sys2Proof.Machine

/-- Settles O55: the state after reset lists no register, memory, map or seat, so each reads as at its reset. -/
theorem resetState : Obligations.ResetState := by
  unfold Obligations.ResetState
  refine ⟨?sound, rfl, rfl, rfl, fun _ => rfl, fun _ => rfl, ?threshold⟩
  case sound => decide
  case threshold => decide +kernel

end Sys2Proof.Machine
end

section
set_option Elab.async false
/-! PROOFS. What a tick leaves alone: all but the time unit and the registers that show offsets (R337, R339, R342). -/

namespace Sys2Proof.Machine

/-- TB_OFS of the bases 1 to 7, both halves. -/
def ofsReg (o : Nat) : Bool := decide (Off.plumbTbOfsLo 1 ≤ o ∧ o ≤ Off.plumbTbOfsLo 7 + 4)

theorem ofsReg_of_ge {o : Nat} (h : 0x500400 ≤ o) : ofsReg o = false := by
  simp [ofsReg, Off.plumbTbOfsLo]
  omega

/-- `t` is `d` but for the time unit and the registers that show offsets. -/
def Device.Ticked (d t : Device) : Prop := t = { d with regs := t.regs, plumb := t.plumb } ∧ d.regsKept t ofsReg

namespace Device.Ticked

variable {d t : Device} {n off i : Nat}

theorem refl (d : Device) : d.Ticked d := ⟨rfl, fun _ _ => rfl⟩

theorem modPlumb {f : Plumb → Plumb} (h : d.Ticked t) : d.Ticked (t.modPlumb f) := by
  obtain ⟨hd, hregs⟩ := h
  exact ⟨by rw [hd]; rfl, hregs⟩

theorem setReg {v : Nat} (h : d.Ticked t) (ho : ofsReg off = true) : d.Ticked (t.setReg off v) := by
  obtain ⟨hd, hregs⟩ := h
  refine ⟨by rw [hd]; rfl, fun o hn => ?_⟩
  have hne : o ≠ off := by
    rintro rfl
    exact absurd (ho.symm.trans hn) (by decide)
  rw [t.reg_setReg_other v hne, hregs o hn]

theorem tickBase (h : d.Ticked t) : d.Ticked (t.tickBase n) := by
  unfold Device.tickBase Device.setTb
  exact h.modPlumb

theorem showOfs (h : d.Ticked t) : d.Ticked t.showOfs := by
  unfold Device.showOfs
  split
  · refine List.foldlRecOn (motive := d.Ticked) _ _ h fun u hu i hi => ?_
    have hi : i < 7 := List.mem_range.mp hi
    refine Ticked.setReg (hu.setReg ?_) ?_
    · simp [ofsReg, Off.plumbTbOfsLo]
      omega
    · simp [ofsReg, Off.plumbTbOfsLo]
      omega
  · exact h

theorem ppsTake (h : d.Ticked t) : d.Ticked (t.ppsTake n) := by
  unfold Device.ppsTake
  extract_lets base
  split
  · exact h
  · exact h.modPlumb

theorem tick (d : Device) : d.Ticked d.tick := by
  have hself := refl d
  unfold Device.tick
  split
  · exact hself
  · split
    · exact hself.modPlumb.modPlumb
    · extract_lets sec t
      have ht : d.Ticked t := by
        unfold t
        split
        · exact List.foldlRecOn (motive := d.Ticked) _ _ hself fun u hu i _ => Ticked.tickBase hu
        · exact hself.tickBase
      exact ht.modPlumb.modPlumb.showOfs.ppsTake

theorem reg (h : d.Ticked t) (ho : ofsReg off = false) : t.reg off = d.reg off := h.2 off ho

theorem fld {hi lo : Nat} (h : d.Ticked t) (ho : ofsReg off = false) : t.fld off hi lo = d.fld off hi lo := Device.fld_congr (h.reg ho)

theorem flag (h : d.Ticked t) (ho : ofsReg off = false) : t.flag off n = d.flag off n := Device.flag_congr (h.reg ho)

/-! ### The tiles that S3 asks to gate (R477) -/

theorem spanEn (h : d.Ticked t) (s : Nat) : t.spanEn s = d.spanEn s :=
  h.flag (ofsReg_of_ge (by unfold Off.lathCtl; omega))

theorem spanLanes (h : d.Ticked t) (s : Nat) : t.spanLanes s = d.spanLanes s := by
  have ho : ofsReg (Off.lathCtl s) = false := ofsReg_of_ge (by unfold Off.lathCtl; omega)
  rw [Device.spanLanes, Device.spanL, Device.spanFirst, h.fld ho, h.fld ho]
  rfl

theorem tileQuoted (h : d.Ticked t) (n : Nat) : t.tileQuoted n = d.tileQuoted n := by
  have hquotes : t.quotes = d.quotes := by rw [h.1]
  have hchan : ∀ s c, t.flag (Off.lathChanCfg s c) 31 = d.flag (Off.lathChanCfg s c) 31 := fun s c =>
    h.flag (ofsReg_of_ge (by unfold Off.lathChanCfg; omega))
  have hservo : ofsReg Off.plumbServoCtl = false := by decide
  unfold Device.tileQuoted
  simp only [hquotes, h.spanEn, h.spanLanes, hchan, h.flag hservo, h.fld hservo]

theorem tilesMoved (h : d.Ticked t) : t.tilesMoved = d.tilesMoved := by
  have hshed : t.shed = d.shed := h.fld (by decide)
  have hgate : ∀ n, ofsReg (gateTileOff n) = false := fun n => by
    unfold gateTileOff
    split <;> decide
  unfold Device.tilesMoved
  simp only [hshed, h.flag (hgate _), h.tileQuoted]

end Device.Ticked

/-! ### The transit count (R337, R362) -/

theorem Device.transit_setReg64 (d : Device) (off v : Nat) : (d.setReg64 off v).transit = d.transit := rfl

theorem Device.transit_tickBase (d : Device) (n : Nat) : (d.tickBase n).transit = d.transit := rfl

theorem Device.transit_showOfs (d : Device) : d.showOfs.transit = d.transit := by
  unfold Device.showOfs
  split
  · exact List.foldlRecOn (motive := fun t : Device => t.transit = d.transit) _ _ rfl fun t ht _ _ => (t.transit_setReg64 _ _).trans ht
  · rfl

theorem Device.transit_ppsTake (d : Device) (sec : Nat) : (d.ppsTake sec).transit = d.transit := by
  unfold Device.ppsTake
  extract_lets base
  split <;> rfl

/-- A tick moves the transit count by 40 at most. -/
theorem Device.transit_tick_le (d : Device) : d.tick.transit ≤ d.transit + 40 := by
  unfold Device.tick
  split
  · omega
  · split
    · exact Nat.mod_le _ _
    · extract_lets sec t u
      have ht : t.transit = d.transit := by
        unfold t
        split
        · exact List.foldlRecOn (motive := fun t : Device => t.transit = d.transit) _ _ rfl fun t ht i _ => (t.transit_tickBase i).trans ht
        · exact d.transit_tickBase 0
      rw [Device.transit_ppsTake, Device.transit_showOfs]
      show (t.transit + 1) % 2 ^ 64 ≤ d.transit + 40
      rw [ht]
      exact (Nat.mod_le _ _).trans (by omega)

/-- With no tile to be gated and no S5 about to end, a tick is the tick of the time unit. -/
theorem Device.tick_alone {d : Device} (hm : d.tilesMoved = []) (hs : (d.pwr.s5At.all fun x => d.transit + 40 < x) = true) :
    d.tick.gateTiles.s5Over = d.tick := by
  have hticked := Device.Ticked.tick d
  have hgate : d.tick.gateTiles = d.tick := by
    rw [Device.gateTiles, hticked.tilesMoved, hm, List.foldl_nil]
  have hpwr : d.tick.pwr = d.pwr := by rw [hticked.1]
  have hle := d.transit_tick_le
  rw [hgate, Device.s5Over, hpwr]
  split
  · next x hx =>
    rw [hx] at hs
    have hlt : d.transit + 40 < x := by simpa using hs
    exact if_neg (by omega)
  · rfl

end Sys2Proof.Machine
end

section
set_option Elab.async false
/-! PROOFS. What write-backs, command opportunities and calendar slots leave alone (R155, R177, R203, R255). -/

namespace Sys2Proof.Machine

/-! ### Write-backs (R155, R177) -/

/-- `t` is `d` after write-backs at most. -/
def Device.Wrote (d t : Device) : Prop :=
  t = { d with regs := t.regs, flow := t.flow, rstore := t.rstore } ∧ t.rstore.bytes = d.rstore.bytes ∧
    d.regsKept t (fun o => o == Off.rstoreSelfref) ∧ t.flow.lodge = d.flow.lodge ∧ t.flow.absent = d.flow.absent ∧
    t.flow.runs = d.flow.runs

namespace Device.Wrote

variable {d t : Device}

theorem refl (d : Device) : d.Wrote d := ⟨rfl, rfl, fun _ _ => rfl, rfl, rfl, rfl⟩

theorem modFlow {f : Flow → Flow} (h : d.Wrote t) (hl : (f t.flow).lodge = t.flow.lodge) (ha : (f t.flow).absent = t.flow.absent)
    (hr : (f t.flow).runs = t.flow.runs) : d.Wrote (t.modFlow f) := by
  obtain ⟨hd, hbytes, hregs, hlodge, habsent, hruns⟩ := h
  exact ⟨by rw [hd]; rfl, hbytes, hregs, hl.trans hlodge, ha.trans habsent, hr.trans hruns⟩

theorem request {p a n : Nat} {m : Nat × Nat} {b : Bool} (h : d.Wrote t) : d.Wrote (t.request p m a b n) := by
  obtain ⟨hd, hbytes, hregs, hlodge, habsent, hruns⟩ := h
  obtain ⟨ht, hbytes', hregs'⟩ := (Device.Asked.refl t).request (p := p) (a := a) (n := n) (m := m) (b := b)
  refine ⟨?_, hbytes'.trans hbytes, fun o ho => (hregs' o ho).trans (hregs o ho), ?_, ?_, ?_⟩
  · rw [ht, hd]
  · rw [Device.flow_request, hlodge]
  · rw [Device.flow_request, habsent]
  · rw [Device.flow_request, hruns]

theorem moved {n : Nat} (h : d.Wrote t) : d.Wrote (t.moved n) := h.modFlow rfl rfl rfl

theorem requestWrite {k n : Nat} (h : d.Wrote t) : d.Wrote (t.requestWrite k n) := h.request

theorem writeCopy {p : Nat} (h : d.Wrote t) : d.Wrote (t.writeCopy p) := by
  unfold Device.writeCopy
  split
  · split
    · exact h.moved.requestWrite.modFlow rfl rfl rfl
    · exact h
  · exact h

theorem writeBackPeriod (h : d.Wrote t) : d.Wrote t.writeBackPeriod := by
  unfold Device.writeBackPeriod
  split
  · exact h
  · exact List.foldlRecOn (motive := d.Wrote) _ _ h fun _ hu _ _ => hu.writeCopy

theorem writeBack {k : Nat} (h : d.Wrote t) : d.Wrote (t.writeBack k) := by
  unfold Device.writeBack
  split
  · exact h.moved.requestWrite.modFlow rfl rfl rfl
  · exact h

end Device.Wrote

/-! ### A command opportunity (R203) -/

theorem keptAside.set {α : Type} {m m' : NMap α} {k : Nat} (h : keptAside m m' k) (v : α) : keptAside m (NMap.set m' k v) k :=
  fun j hj => (NMap.get?_set_other m' v hj).trans (h j hj)

/-- `t` is `d` but for one channel of the render store and the occurrences. -/
def Device.ChanOnly (c : Nat) (d t : Device) : Prop :=
  t = { d with perf := t.perf, rstore := { d.rstore with chans := t.rstore.chans } } ∧ keptAside d.rstore.chans t.rstore.chans c

namespace Device.ChanOnly

variable {d t : Device} {c : Nat}

theorem refl (c : Nat) (d : Device) : d.ChanOnly c d := ⟨rfl, fun _ _ => rfl⟩

theorem modRchan {f : RChan → RChan} (h : d.ChanOnly c t) : d.ChanOnly c (t.modRchan c f) := by
  obtain ⟨hd, hkept⟩ := h
  exact ⟨by rw [hd]; rfl, hkept.set _⟩

theorem occ {o : Occ} (h : d.ChanOnly c t) : d.ChanOnly c (t.occ o) := by
  obtain ⟨hd, hkept⟩ := h
  exact ⟨by rw [hd]; rfl, hkept⟩

theorem sendReq {r : RReq} (h : d.ChanOnly c t) : d.ChanOnly c (t.sendReq c r) := by
  unfold Device.sendReq
  extract_lets hit t₁ t₂ t₃
  have h₂ : d.ChanOnly c t₂ := h.occ.occ
  have h₃ : d.ChanOnly c t₃ := by
    unfold t₃
    split
    · exact h₂.modRchan
    · exact h₂
  exact h₃.modRchan.modRchan

theorem commandOpportunity {pc : Nat} {busy : List Nat} (h : d.ChanOnly c t) : d.ChanOnly c (t.commandOpportunity c pc busy) := by
  unfold Device.commandOpportunity
  split
  · exact h
  · extract_lets pick t'
    clear_value pick
    cases pick with
    | none => exact h.modRchan
    | some r => exact h.modRchan.sendReq

end Device.ChanOnly

/-! ### A calendar slot (R255) -/

theorem Device.calendarSlot_kept (d : Device) (p : Nat) :
    d.calendarSlot p = { d with perf := (d.calendarSlot p).perf, scheds := (d.calendarSlot p).scheds } ∧
      keptAside d.scheds (d.calendarSlot p).scheds p := by
  have hself : keptAside d.scheds d.scheds p := fun _ _ => rfl
  unfold Device.calendarSlot
  extract_lets now
  split
  · exact ⟨rfl, hself⟩
  next idle t grants _ =>
    have ht : t = { d with perf := t.perf } := by
      unfold t
      split <;> rfl
    have hscheds : t.scheds = d.scheds := by rw [ht]
    refine ⟨?_, ?_⟩
    · rw [ht]
      rfl
    · show keptAside d.scheds (NMap.set t.scheds p _) p
      rw [hscheds]
      exact hself.set _

end Sys2Proof.Machine
end

section
set_option Elab.async false
/-! PROOFS. What the scaffold's lists leave alone (R377, R385, R387, R465). -/

namespace Sys2Proof.Machine

/-! ### An item joins a ready list (R376, R465) -/

/-- `t` is `d` but for the ready lists and the engines that are powered again. -/
def Device.Listed (d t : Device) : Prop :=
  t = { d with fault := { d.fault with doms := t.fault.doms }, scaf := { d.scaf with ready := t.scaf.ready } } ∧ d.domsKept t 7

namespace Device.Listed

variable {d t : Device} {l : Nat}

theorem refl (d : Device) : d.Listed d := ⟨rfl, fun _ _ _ _ => rfl⟩

theorem setReady {q : List ReadyItem} (h : d.Listed t) : d.Listed (t.setReady l q) := by
  obtain ⟨hd, hdoms⟩ := h
  exact ⟨by rw [hd]; rfl, hdoms⟩

/-- The key of a domain of another kind is not that of an engine. -/
theorem dom_modDom_engine (d : Device) {k n e : Nat} (f : Domain → Domain) (hk : k ≠ 7) (hn : n < 1024) (he : e < 1024) :
    (d.modDom 7 e f).dom k n = d.dom k n := by
  have hkey : domKey k n ≠ domKey 7 e := by
    unfold domKey
    omega
  show (NMap.get? (NMap.set d.fault.doms (domKey 7 e) _) (domKey k n)).getD _ = _
  rw [NMap.get?_set_other _ _ hkey]
  rfl

theorem modDom {e : Nat} {f : Domain → Domain} (h : d.Listed t) (he : e < 1024) : d.Listed (t.modDom 7 e f) := by
  obtain ⟨hd, hdoms⟩ := h
  exact ⟨by rw [hd]; rfl, fun k n hk hn => (dom_modDom_engine t f hk hn he).trans (hdoms k n hk hn)⟩

theorem engineWake (h : d.Listed t) : d.Listed t.engineWake := by
  unfold Device.engineWake
  extract_lets push pull
  split
  · refine List.foldlRecOn (motive := d.Listed) _ _ h fun u hu e he => ?_
    have he : e < 32 := List.mem_range.mp he
    split
    · exact hu.modDom (by omega)
    · exact hu
  · exact h

theorem addReady {i : WorkItem} (h : d.Listed t) : d.Listed (t.addReady l i) := h.setReady.engineWake

theorem pullAge (h : d.Listed t) : d.Listed (t.pullAge l) := by
  unfold Device.pullAge
  extract_lets age q i
  split
  · exact h
  · split
    · exact h.setReady.addReady
    · exact h

end Device.Listed

/-! ### Timers and ticks (R385, R387) -/

/-- `t` is `d` but for the scaffold, its memory and its tasks' registers kept, and the engines that are powered again. -/
def Device.Woken (d t : Device) : Prop :=
  t = { d with fault := { d.fault with doms := t.fault.doms }, scaf := t.scaf } ∧ t.scaf.sram = d.scaf.sram ∧ d.taskRegsKept t ∧
    d.domsKept t 7

namespace Device.Woken

variable {d t u : Device}

theorem refl (d : Device) : d.Woken d := ⟨rfl, rfl, fun _ => rfl, fun _ _ _ _ => rfl⟩

theorem listed (h : d.Woken t) (hu : t.Listed u) : d.Woken u := by
  obtain ⟨hd, hsram, htasks, hdoms⟩ := h
  obtain ⟨ht, hdoms'⟩ := hu
  refine ⟨by rw [ht, hd], by rw [ht, hsram], fun i => ?_, fun k n hk hn => (hdoms' k n hk hn).trans (hdoms k n hk hn)⟩
  have htask : u.task i = t.task i := by rw [ht]; rfl
  rw [htask]
  exact htasks i

theorem modTask {id : Nat} {g : Task → Task} (h : d.Woken t) (hg : ∀ x, (g x).regs = x.regs) : d.Woken (t.modTask id g) := by
  obtain ⟨hd, hsram, htasks, hdoms⟩ := h
  refine ⟨by rw [hd]; rfl, hsram, fun i => ?_, hdoms⟩
  rw [← htasks i]
  by_cases hi : i = id
  · subst hi
    rw [Device.task_modTask_self, Option.map_map]
    exact Option.map_congr fun x _ => hg x
  · rw [Device.task_modTask_other _ _ hi]

theorem wakeTask {id : Nat} (h : d.Woken t) : d.Woken (t.wakeTask id) := by
  unfold Device.wakeTask
  split
  · have hmod := h.modTask (id := id) (g := fun x => { x with at_ := .ready }) fun _ => rfl
    exact hmod.listed (Device.Listed.refl _).addReady
  · exact h

theorem timersDue (d : Device) : d.Woken d.timersDue := by
  unfold Device.timersDue
  extract_lets due t
  have ht : d.Woken t := ⟨rfl, rfl, fun _ => rfl, fun _ _ _ _ => rfl⟩
  exact List.foldlRecOn (motive := d.Woken) _ _ ht fun _ hu _ _ => hu.wakeTask

end Device.Woken

/-- A tick task leaves memory and tasks alone, and of the registers SCAF_TICK_OVER alone may change. -/
theorem Device.tickTask_kept (d : Device) (n : Nat) :
    d.tickTask n = { d with regs := (d.tickTask n).regs, fault := { d.fault with doms := (d.tickTask n).fault.doms },
                            scaf := (d.tickTask n).scaf } ∧
      d.domsKept (d.tickTask n) 7 ∧ (d.tickTask n).scaf.sram = d.scaf.sram ∧ (d.tickTask n).scaf.tasks = d.scaf.tasks ∧
      d.regsKept (d.tickTask n) (fun o => o == Off.scafTickOver) := by
  have hdoms : d.domsKept d 7 := fun _ _ _ _ => rfl
  unfold Device.tickTask
  extract_lets period last t found
  split
  · exact ⟨rfl, hdoms, rfl, rfl, fun _ _ => rfl⟩
  · split
    · refine ⟨rfl, hdoms, rfl, rfl, fun o ho => ?_⟩
      exact t.reg_bump_other 1 (by simpa using ho)
    · split
      · split
        · exact ⟨rfl, hdoms, rfl, rfl, fun _ _ => rfl⟩
        · next l _ _ _ =>
          obtain ⟨hadd, hdoms'⟩ := (Device.Listed.refl t).addReady (l := l) (i := .tick n)
          refine ⟨?_, hdoms', ?_, ?_, fun o _ => ?_⟩
          all_goals
            rw [hadd]
            rfl
      · exact ⟨rfl, hdoms, rfl, rfl, fun _ _ => rfl⟩

/-- Settles O52: each clause by what its operation may write. -/
theorem framesOfTimeAndStores : Obligations.FramesOfTimeAndStores := by
  unfold Obligations.FramesOfTimeAndStores
  refine ⟨?tick, ?period, ?complete, ?command, ?calendar, ?timer, ?age, ?tickTask⟩
  case tick =>
    intro d w hm hs
    obtain ⟨hd, hregs⟩ := Device.Ticked.tick d
    refine runs_of_exec (exec_to rfl (Device.tick_alone hm hs)) ⟨hd, fun o ho => hregs o ?_⟩
    simp [ofsReg, Off.plumbTbOfsLo, Off.plumbCtl, Off.plumbTioCtl] at ho ⊢
    omega
  case period => exact fun d _ => runs_of_exec rfl (Device.Wrote.refl d).writeBackPeriod
  case complete => exact fun _ d _ => runs_of_exec rfl (Device.Wrote.refl d).writeBack
  case command => exact fun channel _ _ d _ => runs_of_exec rfl (Device.ChanOnly.refl channel d).commandOpportunity
  case calendar => exact fun port d _ => runs_of_exec rfl (d.calendarSlot_kept port)
  case timer =>
    intro d w
    obtain ⟨hd, hsram, htasks, hdoms⟩ := Device.Woken.timersDue d
    refine runs_of_exec (t := d.timersDue) rfl ⟨?_, hsram, htasks, hdoms⟩
    rw [hd]
  case age => exact fun _ d _ => runs_of_exec rfl (Device.Listed.refl d).pullAge
  case tickTask => exact fun n d _ => runs_of_exec rfl (d.tickTask_kept n)

end Sys2Proof.Machine
end

section
set_option Elab.async false
/-! PROOFS. What becomes of a frame past its passes leaves the flow stores alone: the buffer, the float unit, twin recovery and the
frame's disposition (R67, R217 to R224, R234, R257 to R259, R278 to R285, R309). -/

namespace Sys2Proof.Machine

namespace Device

variable (d : Device) (f p : Nat)

theorem flow_foldl {β : Type} {g : Device → β → Device} (hg : ∀ d x, (g d x).flow = d.flow) (xs : List β) :
    (xs.foldl g d).flow = d.flow :=
  List.foldlRecOn (motive := fun t : Device => t.flow = d.flow) _ _ rfl fun t ht x _ => (hg t x).trans ht

@[simp] theorem flow_bump (off n : Nat) : (d.bump off n).flow = d.flow := rfl

@[simp] theorem flow_modFrame (g : Frame → Frame) : (d.modFrame f g).flow = d.flow := rfl

@[simp] theorem flow_modQuote (q : Nat) (g : Quote → Quote) : (d.modQuote q g).flow = d.flow := rfl

/-! ### Priority flow control (R224, R309) -/

@[simp] theorem flow_notIdle : (d.notIdle p).flow = d.flow := by
  unfold notIdle
  split <;> rfl

@[simp] theorem flow_sendOwn (b : List Byte) : (d.sendOwn p b).flow = d.flow := by
  unfold sendOwn
  split
  · rfl
  · exact flow_notIdle _ p

@[simp] theorem flow_pfcFlush : (d.pfcFlush p).flow = d.flow := by
  unfold pfcFlush sendPfc
  extract_lets due on
  split
  · rfl
  · exact flow_sendOwn _ p _

@[simp] theorem flow_showPfc : (d.showPfc p).flow = d.flow := by
  unfold showPfc
  extract_lets new old t
  split
  · rfl
  · split
    · exact flow_pfcFlush _ p
    · rfl

@[simp] theorem flow_releaseOne (a : Nat × Nat) : (d.releaseOne a).flow = d.flow := by
  unfold releaseOne
  split
  · exact flow_showPfc _ a.1
  · rfl

@[simp] theorem flow_assertOne (a : Nat × Nat) : (d.assertOne a).flow = d.flow := by
  unfold assertOne
  split
  · exact flow_showPfc _ a.1
  · rfl

@[simp] theorem flow_poolsMoved : d.poolsMoved.flow = d.flow := by
  unfold poolsMoved pfcCheck
  extract_lets held rest
  rw [flow_foldl _ flow_assertOne, flow_foldl _ flow_releaseOne]
  rfl

/-! ### The end of a frame (R222) -/

@[simp] theorem flow_sendDone (x : Frame) : (d.sendDone x).flow = d.flow := by
  have hcomplete : ∀ {t : Device} {s r st tag n : Nat} {bs : List Byte}, (t.complete s r 0x12 st tag n bs).flow = t.flow :=
    fun {t} => ((Told.refl t).complete (by decide)).flow
  unfold sendDone
  split
  · rfl
  · split
    · rfl
    · split
      · exact hcomplete
      · exact hcomplete
      · exact hcomplete

@[simp] theorem flow_freeFrame : (d.freeFrame f).flow = d.flow := by
  unfold freeFrame
  split
  · rfl
  · extract_lets t₁ t₂
    exact (flow_poolsMoved _).trans (flow_sendDone d _)

@[simp] theorem flow_freeUnread : (d.freeUnread f).flow = d.flow := by
  unfold freeUnread
  split
  · rfl
  · split
    · rfl
    · split
      · exact d.flow_freeFrame f
      · exact flow_poolsMoved _

@[simp] theorem flow_releaseFrame : (d.releaseFrame f).flow = d.flow := flow_freeUnread _ f

@[simp] theorem flow_discardFrame (r : Nat) : (d.discardFrame f r).flow = d.flow := by
  unfold discardFrame
  split
  · rfl
  · exact flow_releaseFrame _ f

/-! ### Moves between accounts (R221) -/

@[simp] theorem flow_moveAcct (a : Account) : (d.moveAcct f a).flow = d.flow := flow_poolsMoved _

@[simp] theorem flow_fromRecirc : (d.fromRecirc f).flow = d.flow := by
  unfold fromRecirc
  split
  · split
    · exact d.flow_moveAcct f _
    · rfl
  · rfl

@[simp] theorem flow_toScaf : (d.toScaf f).1.flow = d.flow := by
  unfold toScaf
  split
  · split
    · rfl
    · split
      · exact d.flow_moveAcct f _
      · rfl
  · rfl

@[simp] theorem flow_moveContract (a : Bool) (c : Nat) : (d.moveContract f a c).1.flow = d.flow := by
  unfold moveContract
  split
  · rfl
  · split
    · split
      · exact d.flow_moveAcct f _
      · rfl
    · split
      · split
        · exact d.flow_moveAcct f _
        · rfl
      · rfl

/-! ### Queues (R228, R229, R235, R326) -/

@[simp] theorem flow_joinInternal (cut : Option Nat) : (d.joinInternal f p cut).flow = d.flow := by
  unfold joinInternal
  split <;> rfl

theorem flow_channelJoin (s : Nat) (m : Vector Word 16) (hint arr : Nat) : (d.channelJoin s m hint arr).1.flow = d.flow := by
  unfold channelJoin
  extract_lets c cost tok
  split
  · rfl
  · split <;> rfl

@[simp] theorem flow_joinPort (pipe cls : Nat) (quote : Option Nat) (spray : Option (Nat × Nat × Bool)) (cut : Option Nat)
    (snap : List Byte) : (d.joinPort f pipe p cls quote spray cut snap).flow = d.flow := by
  unfold joinPort
  split
  · rfl
  · split
    · rfl
    · extract_lets hint
      split
      next t cls' chan dl ht =>
      have hflow := congrArg (fun r => r.1.flow) ht
      show t.flow = d.flow
      rw [← show _ = t.flow from hflow]
      split
      · rfl
      · split
        · rfl
        · split
          · exact d.flow_channelJoin ..
          · rfl

@[simp] theorem flow_applyLive (g : Nat) : (d.applyLive g).flow = d.flow := by
  unfold applyLive
  extract_lets live old n table
  split <;> rfl

@[simp] theorem flow_resolve (x : Frame) (g sel : Nat) : (d.resolve x g sel).1.flow = d.flow := by
  rw [← d.flow_applyLive g]
  unfold resolve
  extract_lets t
  split
  · split <;> rfl
  · split <;> rfl

@[simp] theorem flow_toRepl (g pipe : Nat) (v : Policed) : (d.toRepl f g pipe v).flow = d.flow := by
  unfold toRepl
  split
  · rfl
  · extract_lets q
    split
    · exact flow_discardFrame _ f 0
    · rfl

@[simp] theorem flow_joinTargets (pipe : Nat) (v : Policed) (snap : List Byte) : (d.joinTargets f pipe v snap).flow = d.flow := by
  unfold joinTargets
  split
  · rfl
  · next x _ =>
    extract_lets m3
    split
    · simp
    · have hres := d.flow_resolve x (m3 % 256) (bits m3 25 16)
      split
      · next t ht =>
        rw [ht] at hres
        simpa using hres
      · next t p spray ht =>
        rw [ht] at hres
        simpa using hres
    · exact d.flow_toRepl f _ pipe v

@[simp] theorem flow_makeMirror (aux pipe : Nat) (snap : List Byte) : (d.makeMirror f p aux pipe snap).flow = d.flow := by
  unfold makeMirror
  split
  · rfl
  · split
    · rfl
    · split
      · exact d.flow_joinInternal f _ _
      · exact d.flow_joinPort ..

@[simp] theorem flow_numberTwins : (d.numberTwins f).flow = d.flow := by
  unfold numberTwins
  split
  · rfl
  · split
    next t es ht =>
    show t.flow = d.flow
    rw [← congrArg (fun r => r.1.flow) ht]
    refine List.foldlRecOn (motive := fun acc : Device × List Edit => acc.1.flow = d.flow) _ _ rfl fun acc hacc e _ => ?_
    split <;> exact hacc

/-! ### Dispositions (R67, R68, R257 to R260) -/

@[simp] theorem flow_policeFrame (ts : List Nat) : (d.policeFrame f ts).1.flow = d.flow := by
  unfold policeFrame
  -- The verdict stays a variable, also for the kernel: it would unfold the policer's multiplication to decide the match on it.
  generalize Quote.police = police
  revert police
  refine id fun police => ?_
  split
  · rfl
  · extract_lets cls qid
    split
    · rfl
    · split
      · rfl
      · split
        · rfl
        · extract_lets t0
          split
          next q ok _ =>
          extract_lets t onPort t₁ t₂
          have ht₁ : t₁.flow = d.flow := by
            unfold t₁
            split
            · exact flow_bump ..
            · rfl
          split
          · exact flow_modFrame ..
          · split
            · exact (flow_modQuote ..).trans ht₁
            · exact (flow_modFrame ..).trans ((flow_modQuote ..).trans ht₁)

@[simp] theorem flow_overlenDone (q : Option Nat) (ts : List Nat) : (d.overlenDone f q ts).flow = d.flow := by
  unfold overlenDone
  split
  · split <;> rfl
  · rfl

@[simp] theorem flow_forward (pipe : Nat) (snap : List Byte) : (d.forward f pipe snap).flow = d.flow := by
  unfold forward
  extract_lets t
  have ht : t.flow = d.flow := d.flow_fromRecirc f
  split
  · exact ht
  · next x _ =>
    have hpoliced := (t.flow_policeFrame f (t.targetsOf x)).trans ht
    split
    next u v hu =>
    rw [hu] at hpoliced
    split
    · simpa using hpoliced
    · have hmoved := (u.flow_moveContract f v.accepted.isSome v.cls).trans hpoliced
      split
      next y stays hy =>
      rw [hy] at hmoved
      split
      · simpa using hmoved
      · simpa using hmoved

@[simp] theorem flow_toInternal : (d.toInternal f p).flow = d.flow := by
  unfold toInternal
  split
  · rfl
  · next x _ =>
    extract_lets t
    have ht : t.flow = d.flow := by
      unfold t
      split <;> rfl
    have hmoved := ((t.fromRecirc f).flow_toScaf f).trans ((t.flow_fromRecirc f).trans ht)
    split
    next u ok hu =>
    rw [hu] at hmoved
    split
    · simpa using hmoved
    · exact (flow_releaseFrame _ f).trans hmoved

@[simp] theorem flow_disposeTo (pipe : Nat) (x : Frame) : (d.disposeTo f pipe x).flow = d.flow := by
  unfold disposeTo
  extract_lets m3
  split
  · simp
  · split
    · simp
    · split <;> simp

@[simp] theorem flow_raise (s v k a n : Nat) (hs : s < 512) : (d.raise s v k a n).flow = d.flow := ((Told.refl d).raise hs).flow

@[simp] theorem flow_twinRecover (w s : Nat) : (d.twinRecover w s).1.flow = d.flow := by
  unfold twinRecover
  extract_lets ctx prof
  split
  · rfl
  next c src _ =>
    split
    next c' v _ =>
    extract_lets c'' t
    split
    · rfl
    · rfl
    · next u sec _ _ =>
      split
      · rfl
      · exact flow_raise u 403 _ _ _ _ (by decide)

@[simp] theorem flow_dispose (pipe : Nat) (b : Bool) : (d.dispose f pipe b).flow = d.flow := by
  unfold dispose
  split
  · rfl
  · next x _ =>
    extract_lets snap t
    have ht : t.flow = d.flow := by
      unfold t
      split
      · simp
      · rfl
    split
    · simpa using ht
    · split
      · next s _ _ =>
        have hrec := (t.flow_twinRecover (fieldLE snap 40 4) s).trans ht
        split
        next u ok anchor hu =>
        rw [hu] at hrec
        split
        · simpa using hrec
        · simpa using hrec
      · simpa using ht

/-! ### The float unit (R279 to R281) -/

@[simp] theorem flow_floatRelease (fs : List Nat) : (d.floatRelease fs).flow = d.flow := by
  refine d.flow_foldl (fun t f => ?_) fs
  split
  · split
    · exact flow_dispose _ f _ true
    · rfl
  · rfl

@[simp] theorem flow_floatCounts (c : Nat) (r : FloatDo) (s : Nat) : (d.floatCounts c r s).flow = d.flow := by
  unfold floatCounts
  extract_lets t₁ sec src t₂ t₃
  have h₂ : t₂.flow = d.flow := by
    unfold t₂
    split
    · rfl
    · split
      · rfl
      · exact flow_raise t₁ 401 _ _ _ _ (by decide)
  have h₃ : t₃.flow = d.flow := by
    unfold t₃
    split
    · exact (flow_raise _ 402 _ _ _ _ (by decide)).trans h₂
    · exact h₂
  split
  · exact h₃
  · exact h₃

@[simp] theorem flow_floatExpireCtx (c : Nat) : (d.floatExpireCtx c).flow = d.flow := by
  unfold floatExpireCtx
  split
  · rfl
  · simp

@[simp] theorem flow_floatFull : d.floatFull.flow = d.flow := by
  unfold floatFull
  extract_lets oldest
  split
  · rfl
  · clear_value oldest
    cases oldest with
    | none => rfl
    | some p => exact flow_floatExpireCtx _ p.1

theorem flow_floatTurn (t : SeamTag) (fwd : Bool) {act : Device → Device} (hact : ∀ d, (act d).flow = d.flow) :
    (d.floatTurn f t fwd act).flow = d.flow := by
  unfold floatTurn
  split
  · rfl
  · extract_lets ctx t₁ r t₂ t₃ src t₄
    have h₂ : t₂.flow = d.flow := by simp [t₂, t₁]
    have h₄ : t₄.flow = d.flow := by
      unfold t₄
      split <;> exact h₂
    split
    · simpa using h₂
    · split
      · rw [flow_floatRelease, hact, h₂]
      · rw [flow_floatRelease, h₄]

theorem flow_takeTurn (fwd : Bool) {act : Device → Device} (hact : ∀ d, (act d).flow = d.flow) :
    (d.takeTurn f fwd act).flow = d.flow := by
  unfold takeTurn
  split
  · split
    · exact d.flow_floatTurn f _ fwd hact
    · exact hact d
  · exact hact d

/-! ### The end of the passes (R46, R216) -/

@[simp] theorem flow_takeAside : (d.takeAside f).flow = d.flow := by
  unfold takeAside
  split
  · rfl
  · extract_lets a cell y t
    split
    · exact flow_poolsMoved _
    · rfl

@[simp] theorem flow_endPasses : (d.endPasses f).flow = d.flow := flow_takeAside _ f

end Device

end Sys2Proof.Machine
end

section
set_option Elab.async false
/-! PROOFS. The replicator, and the entries of the lodge that close (R161, R170 to R172, R234, R235). -/

namespace Sys2Proof.Machine

variable {d t : Device} {i : FlowId} {f : Nat}

/-! ### The replicator (R235) -/

/-- A copy to an Ethernet or span port that is up joins its queue under the next number. -/
theorem Device.joinPort_copy {x : Frame} {pipe p cls : Nat} {snap : List Byte} (hx : d.frame f = some x) (hup : d.targetUp p = true)
    (hcls : cls ≠ 7) : ∃ c : Copy, (c.port = p ∧ c.cls = cls ∧ c.frame = f ∧ c.edits = x.edits) ∧
      d.joinPort f pipe p cls none none none snap = d.joinQueue c := by
  unfold Device.joinPort
  simp only [hx, hup, Bool.not_true, Bool.false_eq_true, if_false, ne_eq, hcls, not_false_eq_true, if_true]
  exact ⟨_, ⟨rfl, rfl, rfl, rfl⟩, rfl⟩

/-- An entry that names a port other than the frame's, or names it with SELF, makes its copy there. -/
theorem Device.replOne_port {it : ReplItem} {x : Frame} {e : BitVec 16} (hx : d.frame it.frame = some x) (hgroup : e.getLsbD 13 = false)
    (hself : e.toNat % 1024 = x.port → e.getLsbD 14 = true) (hquote : it.quote = none) :
    d.replOne it e = d.joinPort it.frame it.pipe (e.toNat % 1024) it.cls none none none x.snap := by
  have hown : ¬ (e.toNat % 1024 = x.port ∧ (!e.getLsbD 14) = true) := fun h => absurd (hself h.1) (by simpa using h.2)
  unfold Device.replOne
  simp only [hx, hgroup, Device.copyClass, hquote, Bool.false_eq_true, if_false]
  rw [if_neg hown]

/-- A frame that a copy still reads keeps its cells. -/
theorem Device.releaseFrame_read {c : Copy} {k : Nat} (hc : d.copy k = some c) (hf : c.frame = f) :
    d.releaseFrame f = d.modFrame f fun x => { x with place := .out } := by
  have hread : (d.modFrame f fun x => { x with place := .out }).hasReader f = true := by
    have hmem : (k, c) ∈ d.buf.copies := NMap.mem_of_get? hc
    have hany : (d.buf.copies.any fun c => c.2.frame == f) = true := List.any_eq_true.mpr ⟨_, hmem, by simp [hf]⟩
    unfold Device.hasReader
    rw [show (d.modFrame f fun x => { x with place := .out }).buf.copies = d.buf.copies from rfl, hany, Bool.or_true]
  unfold Device.releaseFrame Device.freeUnread
  rw [if_pos hread]

/-- The last entry of a list makes its copy, and the frame leaves the replicator. -/
theorem Device.replExpand_last {pipe : Nat} {it : ReplItem} {rest : List ReplItem} {x : Frame} {e : BitVec 16}
    (hrepl : NMap.getD d.buf.repl pipe [] = it :: rest) (hx : d.frame it.frame = some x)
    (hlast : (d.replList (x.mN 1 % 4) it.group).drop it.next = [e]) (hdesc : d.descriptors < 1048576) :
    d.replExpand pipe =
      ((d.replOne it e).modBuf fun b => { b with repl := NMap.set b.repl pipe rest }).releaseFrame it.frame := by
  unfold Device.replExpand
  simp only [hrepl, hx, hlast, Device.replRun, ge_iff_le, Nat.not_le.mpr hdesc, if_false, if_true]

/-! ### Entries of the lodge (R166, R171) -/

theorem Device.lodged?_eq_none_iff : d.lodged? i = none ↔ ∀ e ∈ d.flow.lodge, e.id ≠ i := by
  simp [Device.lodged?, List.find?_eq_none]

theorem Device.flow_closeLodge (d : Device) :
    d.closeLodge.flow = { d.flow with lodge := d.flow.lodge.filter fun e => !(e.frames.isEmpty && e.outcome != .pending) } := by
  unfold Device.closeLodge
  extract_lets gone t
  have ht : t.flow = d.flow := List.foldlRecOn (motive := fun t : Device => t.flow = d.flow) _ _ rfl fun _ ht _ _ => ht
  exact congrArg (fun w : Flow => { w with lodge := w.lodge.filter fun e => !(e.frames.isEmpty && e.outcome != Outcome.pending) }) ht

theorem Device.reg_closeLodge_other (d : Device) {o : Nat} (huse : o ≠ Off.flowLodgeUse) (hparked : o ≠ Off.flowParked) :
    d.closeLodge.reg o = d.reg o := by
  unfold Device.closeLodge
  extract_lets gone t
  have ht : t.reg o = d.reg o := List.foldlRecOn (motive := fun t : Device => t.reg o = d.reg o) _ _ rfl fun _ ht _ _ => ht
  exact ((Device.reg_setReg_other _ _ hparked).trans (Device.reg_setReg_other _ _ huse)).trans ht

theorem Device.lodged?_closeLodge (h : d.lodged? i = none) : d.closeLodge.lodged? i = none := by
  rw [Device.lodged?_eq_none_iff] at h ⊢
  rw [Device.flow_closeLodge]
  exact fun e he => h e (List.mem_of_mem_filter he)

theorem Device.lodged?_lodgeLeave (h : d.lodged? i = none) : (d.lodgeLeave f).lodged? i = none := by
  refine Device.lodged?_closeLodge ?_
  rw [Device.lodged?_eq_none_iff] at h ⊢
  rintro e he
  obtain ⟨e', he', rfl⟩ := List.mem_map.mp he
  exact h e' he'

/-! ### A frame that leaves the stations (R45) -/

theorem Device.lodge_setBase (d : Device) (h : Nat) (b : List Byte) : (d.setBase h b).flow.lodge = d.flow.lodge := by
  unfold Device.setBase
  split
  · rfl
  · split
    · rfl
    · split <;> rfl

theorem Device.lodge_settleRun (d : Device) (h : Nat) : (d.settleRun h).flow.lodge = d.flow.lodge := by
  unfold Device.settleRun
  extract_lets r gone rest t
  show t.flow.lodge = d.flow.lodge
  unfold t
  split
  · split
    · rfl
    · exact d.lodge_setBase h _
  · rfl

theorem Device.lodged?_leaveStations (h : d.lodged? i = none) : (d.leaveStations f).lodged? i = none := by
  unfold Device.leaveStations
  extract_lets t u
  have ht : t.flow.lodge = d.flow.lodge := by
    unfold t
    split
    · split
      · exact Device.lodge_settleRun _ _
      · rfl
    · rfl
  exact Device.lodged?_lodgeLeave ((Device.lodged?_congr i (d := d) ht).trans h)

/-- The end of a frame's passes opens no entry. -/
theorem Device.lodged?_leavePasses {b : Bool} (h : d.lodged? i = none) : (d.leavePasses f b).lodged? i = none := by
  unfold Device.leavePasses
  extract_lets t
  have ht : t.flow = d.flow := d.flow_endPasses f
  split
  · exact (Device.lodged?_congr i (congrArg Flow.lodge ht)).trans h
  · extract_lets fwd u
    have hu : u.flow = d.flow := by
      unfold u
      split
      · exact (t.flow_numberTwins f).trans ht
      · exact ht
    refine Device.lodged?_leaveStations ((Device.lodged?_congr i (congrArg Flow.lodge ?_)).trans h)
    exact (u.flow_takeTurn f fwd fun d => d.flow_dispose f _ b).trans hu

theorem Device.lodged?_puntParked {fs : List Nat} {reason off : Nat} (h : d.lodged? i = none) :
    (d.puntParked fs reason off).lodged? i = none := by
  refine List.foldlRecOn (motive := fun t : Device => t.lodged? i = none) _ _ h fun t ht f _ => ?_
  split
  · exact ht
  · extract_lets u
    split
    · exact Device.lodged?_leavePasses (d := u.modFrame f _) ht
    · exact ht

/-- An entry that closes is gone. -/
theorem Device.lodged?_closeEntry (d : Device) (i : FlowId) (reason off : Nat) : (d.closeEntry i reason off).lodged? i = none := by
  unfold Device.closeEntry
  split
  · next h => exact h
  · extract_lets t
    have ht : t.lodged? i = none := by
      rw [Device.lodged?_eq_none_iff]
      intro e he
      simpa using (List.mem_filter.mp he).2
    exact Device.lodged?_puntParked ht

/-! ### A fetch that finds no record (R161) -/

theorem Device.locate_congr (h : ∀ n, t.reg (Off.rstoreRegion n) = d.reg (Off.rstoreRegion n)) (a : Nat) : t.locate a = d.locate a := by
  unfold Device.locate Device.regionOf
  simp only [h]

/-- Where a record's home is depends on the render copies, and on the regions and failed channels of the render store alone. -/
theorem Device.homeOf_congr (hrender : t.flow.render = d.flow.render)
    (hregion : ∀ n, t.reg (Off.rstoreRegion n) = d.reg (Off.rstoreRegion n)) (hfailed : t.reg Off.rstoreFailed = d.reg Off.rstoreFailed) :
    t.homeOf i = d.homeOf i := by
  unfold Device.homeOf Device.bucketFailed Device.chanFailed
  simp only [hrender, Device.locate_congr hregion, hfailed]

theorem Device.fetchReturn_absent {e : LodgeEntry} (he : d.lodged? i = some e) (hp : e.outcome = .pending) (hh : d.homeOf i = none) :
    d.fetchReturn i = (((d.occ ⟨0x203, 1, none, none, some (8, 0), some i.space, none⟩).addAbsent i).setLodge i
      fun e => { e with outcome := .absent }).closeLodge := by
  unfold Device.fetchReturn
  simp [he, hp, hh]

theorem Device.absent_addAbsent (d : Device) (i : FlowId) : ((d.addAbsent i).flow.absent.any fun a => a.1 == i) = true := by
  simp [Device.addAbsent]

/-- Settles O13: the copy of the entry that is left, the identity added to the absent cache, and an entry that closes with no other
opened. -/
theorem replicationAndLodge : Obligations.ReplicationAndLodge := by
  unfold Obligations.ReplicationAndLodge
  refine ⟨?replicator, ?absent, ?limit⟩
  case replicator =>
    intro pipe it rest x e d w hrepl hx hlast hgroup hself hdesc hup hcls hquote
    obtain ⟨c, ⟨hport, hclass, hframe, hedits⟩, hjoin⟩ :=
      Device.joinPort_copy (pipe := it.pipe) (snap := x.snap) hx hup hcls
    have hcopy : ∀ g : Buf → NMap (List ReplItem),
        ((d.joinQueue c).modBuf fun b => { b with repl := g b }).copy d.buf.nextCopy = some c :=
      fun _ => NMap.get?_set_self ..
    have hdone : d.replExpand pipe = ((d.joinQueue c).modBuf fun b => { b with repl := NMap.set b.repl pipe rest }).modFrame it.frame
        fun x => { x with place := .out } := by
      rw [Device.replExpand_last hrepl hx hlast hdesc, Device.replOne_port hx hgroup hself hquote, hjoin]
      exact Device.releaseFrame_read (hcopy _) hframe
    refine runs_of_exec (exec_to rfl hdone) ⟨NMap.getD_set_self .., rfl, ?_⟩
    show (((d.joinQueue c).modBuf fun b => { b with repl := NMap.set b.repl pipe rest }).copy d.buf.nextCopy).any _ = true
    rw [hcopy, Option.any_some, hport, hclass, hframe, hedits]
    simp
  case absent =>
    intro space key e d w he hp hh
    refine runs_of_exec (exec_to rfl (Device.fetchReturn_absent he hp hh)) ⟨?_, ?_⟩
    · rw [Device.flow_closeLodge]
      exact Device.absent_addAbsent _ _
    · rw [← hh]
      refine Device.homeOf_congr ?_ (fun n => ?_) ?_
      · rw [Device.flow_closeLodge]
        rfl
      · exact Device.reg_closeLodge_other _ (by unfold Off.rstoreRegion Off.flowLodgeUse; omega)
          (by unfold Off.rstoreRegion Off.flowParked; omega)
      · exact Device.reg_closeLodge_other _ (by decide) (by decide)
  case limit =>
    intro space key e d w he hl hf
    have hcloses : d.parkLimit ⟨space, key⟩ = d.closeEntry ⟨space, key⟩ 0x23 Off.flowParkExpire := by
      unfold Device.parkLimit
      simp only [he]
      exact if_pos ⟨hl, hf⟩
    exact runs_of_exec (exec_to rfl hcloses) (Device.lodged?_closeEntry ..)

end Sys2Proof.Machine
end

section
set_option Elab.async false
/-! PROOFS. A record in an owned space carries the partition that owns the space now (R150), and a change of the record writes its home
with that partition. The statement speaks of every device, so also of one whose home still has the partition of an earlier owner. -/

namespace Sys2Proof.Machine

/-- The image of a valid record with a key of one byte, in space 0 and partition 1. -/
def formerOwnerImage : List Byte := updsApply (List.replicate 128 0) [flagUpd 0 true, .put 49 [1], .put 50 [16]]

/-- Home 0 holds that record, idle for the age timeout of 1 tick; partition 0 owns space 0, and shed level S1 is in force. -/
def formerOwnerIdle : Device :=
  let d := { Device.reset with plumb := { Device.reset.plumb with transit := 2 ^ 20 } }
  let d := d.modFlow fun w => { w with render := [(0, formerOwnerImage)] }
  (d.setReg (Off.flowSpaceAge 0) 1).setReg Off.pwrShedStatus (2 ^ 29)

/-- The record is not STALE and its time to be is there. -/
theorem formerOwnerIdle_due : recStale formerOwnerImage = false ∧
    min 7967232 (formerOwnerIdle.fld (Off.flowSpaceAge (recId formerOwnerImage).space) 22 0) ≠ 0 ∧
    min 7967232 (formerOwnerIdle.fld (Off.flowSpaceAge (recId formerOwnerImage).space) 22 0) ≤
      (formerOwnerIdle.ageTick + 2 ^ 24 - recStamp formerOwnerImage) % 2 ^ 24 := by
  decide +kernel

/-- The visit writes the record's home with partition 0. -/
theorem formerOwnerIdle_sanderVisit :
    (NMap.get? (formerOwnerIdle.sanderVisit 0).flow.render 0).map recPart = some 0 := by
  decide +kernel

/-- Refutes O37 at its clause on STALE: for `formerOwnerIdle` it claims that all but STALE and the age stamp stays, so partition 1, and the
home has partition 0. -/
theorem not_flowUpkeep : ¬ Obligations.FlowUpkeep := by
  unfold Obligations.FlowUpkeep
  rintro ⟨hstale, -⟩
  obtain ⟨hfresh, htimeout, hidle⟩ := formerOwnerIdle_due
  have hhome := prop_of_runs (t := formerOwnerIdle.sanderVisit 0)
    (hstale 0 formerOwnerImage formerOwnerIdle [] (by decide) rfl rfl rfl rfl (by decide +kernel) htimeout hfresh hidle
      (by decide +kernel)) rfl
  have hpart := formerOwnerIdle_sanderVisit
  rw [hhome] at hpart
  exact absurd hpart (by decide +kernel)

end Sys2Proof.Machine
end

section
set_option Elab.async false
/-! PROOFS. A FLOW_INSERT whose lodge entry waits for it installs the record in skim, and while that install waits for room in the
write-back queue the command is not taken (R166, R177). -/

namespace Sys2Proof.Machine

variable {d : Device}

/-- A flow command that has to wait leaves the device as it is. -/
theorem Device.ringFlow_waits {c : CmdEntry} {op : Nat} (h : d.flowWaits op c.flags.toNat (fitB 128 c.buf) = true) :
    d.ringFlow c op = d := by
  rw [Device.ringFlow, if_pos h]

/-- An insert that an open lodge entry awaits waits while its install does. -/
theorem Device.flowWaits_insert {flags : Nat} {img : List Byte} (hhome : d.homeOf (recId img) = none) (hpin : bit flags 1 = false)
    (hlodge : (d.lodged? (recId img)).isSome = true) (hinstall : d.installWaits (recId img) = true) :
    d.flowWaits 1 flags img = true := by
  simp [Device.flowWaits, hhome, hpin, hlodge, hinstall]

/-- An install waits whose ways are all taken, none to be had by a relocation, one by a demotion for which the queue has no room. -/
theorem Device.installWaits_of_full {i : FlowId} {p : Nat} (hnow : d.installsNow < 40)
    (hfree : (i.skimPlaces.find? fun p => !NMap.has d.flow.skim p) = none)
    (hmove : (d.relocatable i.skimPlaces fun p => d.displaceable p && d.copyTier p == 3) = none)
    (hold : (d.oldest i.skimPlaces fun p => d.displaceable p && d.copyTier p == 2) = some p) (hroom : d.wbqRoom = false) :
    d.installWaits i = true := by
  simp [Device.installWaits, Device.wayAmong, hnow, hfree, hmove, hold, hroom]

/-- A record image of TIER `tier` in space 0 with the one key byte `k`. -/
def smallRecord (tier : Nat) (k : Byte) : List Byte :=
  updsApply (List.replicate 128 0) [.put 0 [k], flagUpd 0 true, tierUpd tier, .put 49 [1]]

/-- The identity with key byte 0. -/
def awaitedId : FlowId := recId (smallRecord 0 0)

/-- The identity with key byte 0 has no record, as a fetch has found, and frame 0 still waits in its lodge entry; its eight ways of skim
hold transient copies of other records, and the write-back queue is full. Seat A is present and owns partition 0, and
its command ring 0 holds a command. -/
def fullQueue : Device :=
  let d := { Device.reset with
    pwr := { Power.reset with phase := .started, alive := true, squelch := false }
    seats := [(0, { Seat.reset with present := true, link := 1 })] }
  let d := d.modFlow fun w => { w with
    skim := awaitedId.skimPlaces.zipIdx.map fun (p, n) => (p, ⟨n, smallRecord 2 (BitVec.ofNat 8 (n + 1))⟩)
    lodge := [⟨awaitedId, 0, 10000, .absent, [(0, false)]⟩]
    wbq := List.replicate 4096 (9, smallRecord 2 9) }
  let d := (d.setReg (Off.flowSpaceCtl 0) (2 ^ 31)).setReg (Off.seatPart 0) 0
  ((d.setReg (Off.seatCrCtl 0 0) (2 ^ 31 + 4 * 2 ^ 16)).setReg (Off.seatCrTail 0 0) 1).setReg (Off.seatNrCtl 0 0) (2 ^ 31 + 4 * 2 ^ 16)

/-- A FLOW_INSERT of that identity, with no flag set. -/
def awaitedInsert : CmdEntry := ⟨0, 0, 0, 0, 128, 0x1000, List.replicate 48 0, smallRecord 0 0, true⟩

theorem fullQueue_commandReady :
    fullQueue.commandReady awaitedInsert 0x01 (flowFlagBits 0x01) (flowUsed 0x01 awaitedInsert.flags.toNat) 128 = true := by
  decide +kernel

theorem fullQueue_homeOf : fullQueue.homeOf (recId (cmdImage awaitedInsert 128)) = none := by
  decide +kernel

theorem fullQueue_wbqRoom : fullQueue.wbqRoom = false := by
  have hlen : fullQueue.flow.wbq.length = 4096 := List.length_replicate
  simp [Device.wbqRoom, hlen]

theorem fullQueue_installWaits : fullQueue.installWaits (recId (cmdImage awaitedInsert 128)) = true :=
  Device.installWaits_of_full (p := awaitedId.skimPlaces.headD 0) (by decide +kernel) (by decide +kernel) (by decide +kernel)
    (by decide +kernel) fullQueue_wbqRoom

/-- The command is not taken. -/
theorem fullQueue_ringFlow : fullQueue.ringFlow awaitedInsert 0x01 = fullQueue :=
  Device.ringFlow_waits (Device.flowWaits_insert fullQueue_homeOf (by decide) (by decide +kernel) fullQueue_installWaits)

/-- Refutes O7 at its clause on FLOW_INSERT: `fullQueue` meets its hypotheses, and the command has not completed. -/
theorem not_flowCommands : ¬ Obligations.FlowCommands := by
  unfold Obligations.FlowCommands
  rintro ⟨hinsert, -⟩
  obtain ⟨hdone, -⟩ := prop_of_runs
    (hinsert awaitedInsert fullQueue [] fullQueue_commandReady (by decide +kernel) (by decide +kernel) (by decide)
      (by decide +kernel) fullQueue_homeOf (by decide +kernel)) (exec_to rfl fullQueue_ringFlow)
  exact absurd hdone (by decide +kernel)

end Sys2Proof.Machine
end

section
set_option Elab.async false
/-! PROOFS. Frames of commands that change one part of the block (R29, R161, R206, R207, R238, R247, R257, R262, R303,
R304, R310, R358, R369, R411, R456, R465, R511). -/

namespace Sys2Proof.Machine

/-! ### One port's scheduler, one port (R238, R262, R303, R304, R310) -/

/-- `t` is `d` but for the scheduler of one port. -/
def Device.SchedOnly (p : Nat) (d t : Device) : Prop := keptAside d.scheds t.scheds p ∧ t = { d with scheds := t.scheds }

namespace Device.SchedOnly

variable {d t : Device} {p c : Nat}

theorem refl (p : Nat) (d : Device) : d.SchedOnly p d := ⟨fun _ _ => rfl, rfl⟩

theorem modSched {f : Sched → Sched} (h : d.SchedOnly p t) : d.SchedOnly p (t.modSched p f) := by
  obtain ⟨hkept, hd⟩ := h
  exact ⟨hkept.set _, by rw [hd]; rfl⟩

theorem setTokens {n : Int} (h : d.SchedOnly p t) : d.SchedOnly p (t.setTokens p c n) := h.modSched

theorem idleBucket (h : d.SchedOnly p t) : d.SchedOnly p (t.idleBucket p c) := by
  unfold Device.idleBucket
  split
  · exact h.setTokens
  · exact h

theorem refillPort (h : d.SchedOnly p t) : d.SchedOnly p (t.refillPort p) := by
  unfold Device.refillPort
  extract_lets n t'
  split
  · exact h
  · refine List.foldlRecOn (motive := d.SchedOnly p) _ _ h.modSched fun u hu c _ => ?_
    split
    · exact hu
    · exact hu.setTokens.idleBucket

theorem tags (h : d.SchedOnly p t) : d.SchedOnly p (t.tags p) := by
  refine List.foldlRecOn (motive := d.SchedOnly p) _ _ h fun u hu c _ => ?_
  split
  · split
    · exact hu
    · exact hu.modSched
  · exact hu.modSched

end Device.SchedOnly

/-- `t` is `d` but for one port. -/
def Device.PortOnly (p : Nat) (d t : Device) : Prop := keptAside d.ports t.ports p ∧ t = { d with ports := t.ports }

namespace Device.PortOnly

variable {d t : Device} {p : Nat}

theorem refl (p : Nat) (d : Device) : d.PortOnly p d := ⟨fun _ _ => rfl, rfl⟩

theorem modPort {f : Port → Port} (h : d.PortOnly p t) : d.PortOnly p (t.modPort p f) := by
  obtain ⟨hkept, hd⟩ := h
  exact ⟨hkept.set _, by rw [hd]; rfl⟩

theorem startWake {b : Bool} (h : d.PortOnly p t) : d.PortOnly p (t.startWake p b) := by
  unfold Device.startWake
  split
  · exact h.modPort
  · exact h

theorem txWake (d : Device) (p : Nat) : d.PortOnly p (d.txWake p) := by
  unfold Device.txWake
  split
  · exact refl p d
  · exact (refl p d).startWake

theorem laneRefresh (d : Device) (p : Nat) : d.PortOnly p (d.laneRefresh p) := by
  unfold Device.laneRefresh
  extract_lets x
  split
  · exact (refl p d).startWake
  · exact refl p d

theorem verifySend (d : Device) (p : Nat) : d.PortOnly p (d.verifySend p) := by
  unfold Device.verifySend
  extract_lets x
  split
  · exact (refl p d).modPort
  · exact refl p d

/-- What then changes in the scheduler of the port leaves the port alone. -/
theorem sched {u : Device} (h : d.PortOnly p t) (hu : t.SchedOnly p u) :
    keptAside d.ports u.ports p ∧ keptAside d.scheds u.scheds p ∧ u = { d with ports := u.ports, scheds := u.scheds } := by
  obtain ⟨hports, ht⟩ := h
  obtain ⟨hscheds, hu⟩ := hu
  have hsame : t.scheds = d.scheds := by rw [ht]
  refine ⟨?_, hsame ▸ hscheds, by rw [hu, ht]⟩
  rw [hu]
  exact hports

end Device.PortOnly

theorem Device.watchdogDisarm_kept (d : Device) (p c : Nat) :
    keptAside d.ports (d.watchdogDisarm p c).ports p ∧ keptAside d.scheds (d.watchdogDisarm p c).scheds p ∧
      d.watchdogDisarm p c = { d with ports := (d.watchdogDisarm p c).ports, scheds := (d.watchdogDisarm p c).scheds } := by
  unfold Device.watchdogDisarm
  extract_lets x
  split
  · exact (Device.PortOnly.refl p d).modPort.sched (Device.SchedOnly.refl p _).tags
  · exact (Device.PortOnly.refl p d).sched (Device.SchedOnly.refl p d)

/-! ### Quotes, time, the scaffold and seats (R247, R358, R369, R411, R465) -/

variable (d : Device)

theorem Device.quoteBecomesActive_kept (q : Nat) :
    d.quoteBecomesActive q = { d with regs := (d.quoteBecomesActive q).regs } ∧
      d.regsKept (d.quoteBecomesActive q) (fun o => o == Off.schedQuoteActive || o == Off.schedFitStatus) := by
  unfold Device.quoteBecomesActive
  split
  · refine ⟨rfl, fun o ho => ?_⟩
    obtain ⟨hactive, hfit⟩ : o ≠ Off.schedQuoteActive ∧ o ≠ Off.schedFitStatus := by simpa using ho
    exact (Device.reg_setFld_other _ _ _ _ hfit).trans (d.reg_setReg_other _ hactive)
  · exact ⟨rfl, fun _ _ => rfl⟩

theorem Device.ppsPulse_kept :
    d.ppsPulse = { d with plumb := { d.plumb with ppsSec := d.ppsPulse.plumb.ppsSec, ppsOff := d.ppsPulse.plumb.ppsOff } } := by
  unfold Device.ppsPulse
  split <;> rfl

theorem Device.saveDone_kept (e k : Nat) :
    d.saveDone e k = { d with scaf := (d.saveDone e k).scaf } ∧ (d.saveDone e k).scaf.sram = d.scaf.sram := by
  unfold Device.saveDone
  split
  · unfold Device.endThread
    extract_lets t
    split
    · exact ⟨rfl, rfl⟩
    · exact ⟨rfl, rfl⟩
  · exact ⟨rfl, rfl⟩

theorem Device.scafIdle_kept (e : Nat) : d.scafIdle e = { d with fault := { d.fault with doms := (d.scafIdle e).fault.doms } } := by
  unfold Device.scafIdle
  extract_lets powered idle from_
  split <;> rfl

theorem Device.coalesceTimer_kept (s r : Nat) :
    keptAside d.seats (d.coalesceTimer s r).seats s ∧ ((d.coalesceTimer s r).seat s).hostMem = (d.seat s).hostMem ∧
      d.coalesceTimer s r = { d with seats := (d.coalesceTimer s r).seats } := by
  have hself : keptAside d.seats d.seats s := fun _ _ => rfl
  unfold Device.coalesceTimer
  extract_lets n limit
  split
  · unfold Device.sendMsix
    refine ⟨(hself.set _).set _, ?_, rfl⟩
    rw [Device.modNring, Device.seat_modSeat_self, Device.seat_modSeat_self]
  · exact ⟨hself, rfl, rfl⟩

/-! ### The render store (R206, R207) -/

theorem Device.selfRefreshIdle_kept (st : Nat) :
    d.selfRefreshIdle st = { d with regs := (d.selfRefreshIdle st).regs } ∧
      d.regsKept (d.selfRefreshIdle st) (fun o => o == Off.rstoreSelfref) := by
  unfold Device.selfRefreshIdle
  split
  · exact ⟨rfl, fun o ho => d.reg_setFld_other _ _ _ (by simpa using ho)⟩
  · exact ⟨rfl, fun _ _ => rfl⟩

/-- The channels of the stack of channel `c` show HOT or do not. -/
def Device.showHot (d : Device) (c : Nat) (hot : Bool) : Device :=
  (List.range 16).foldl (fun d k => d.setFlag (Off.rstoreChStatus (c / 16 * 16 + k)) 4 hot) d

theorem Device.showHot_eq_regs (c : Nat) (hot : Bool) : d.showHot c hot = { d with regs := (d.showHot c hot).regs } :=
  List.foldlRecOn (motive := fun t : Device => t = { d with regs := t.regs }) _ _ rfl fun t ht k _ => by rw [ht]; rfl

/-- Of the registers, RSTORE_CH_STATUS of the channels of the stack alone may change. -/
theorem Device.regsKept_showHot {c : Nat} (hc : c < 32) (hot : Bool) :
    d.regsKept (d.showHot c hot) (fun o => (List.range 32).any fun c => o == Off.rstoreChStatus c) := by
  intro o ho
  simp only [List.any_eq_false, beq_iff_eq, List.mem_range] at ho
  refine List.foldlRecOn (motive := fun t : Device => t.reg o = d.reg o) _ _ rfl fun t ht k hk => ?_
  have hk : k < 16 := List.mem_range.mp hk
  exact (t.reg_setFld_other _ _ _ (ho _ (by omega))).trans ht

/-- A refresh, or one postponed, changes the channel once HOT is shown. -/
theorem Device.dramRefresh_eq (c bank : Nat) (hot : Bool) : ∃ f, d.dramRefresh c bank hot = (d.showHot c hot).modRchan c f := by
  unfold Device.dramRefresh
  extract_lets t n
  split
  · exact ⟨_, rfl⟩
  · exact ⟨_, rfl⟩

/-- A change of one channel after changes of registers alone. -/
theorem Device.modRchan_kept {d t : Device} (ht : t = { d with regs := t.regs }) (c : Nat) (f : RChan → RChan) :
    keptAside d.rstore.chans (t.modRchan c f).rstore.chans c ∧
      t.modRchan c f = { d with regs := (t.modRchan c f).regs,
                                rstore := { d.rstore with chans := (t.modRchan c f).rstore.chans } } := by
  have hrstore : t.rstore = d.rstore := by rw [ht]
  refine ⟨fun j hj => ?_, by rw [ht]; rfl⟩
  rw [← hrstore]
  exact NMap.get?_set_other _ _ hj

theorem Device.dramRefresh_kept {c : Nat} (hc : c < 32) (bank : Nat) (hot : Bool) :
    keptAside d.rstore.chans (d.dramRefresh c bank hot).rstore.chans c ∧
      d.dramRefresh c bank hot = { d with regs := (d.dramRefresh c bank hot).regs,
                                          rstore := { d.rstore with chans := (d.dramRefresh c bank hot).rstore.chans } } ∧
      d.regsKept (d.dramRefresh c bank hot) (fun o => (List.range 32).any fun c => o == Off.rstoreChStatus c) := by
  obtain ⟨f, hf⟩ := d.dramRefresh_eq c bank hot
  obtain ⟨hchans, hrest⟩ := Device.modRchan_kept (d.showHot_eq_regs c hot) c f
  rw [hf]
  exact ⟨hchans, hrest, fun o ho => (Device.reg_modRchan ..).trans (d.regsKept_showHot hc hot o ho)⟩

/-! ### Power, the walk of a space and the safe stop (R29, R456, R511) -/

theorem Device.hbToggle_kept : d.hbToggle = { d with pwr := { d.pwr with hb := d.hbToggle.pwr.hb } } := by
  unfold Device.hbToggle
  split <;> rfl

theorem Device.aliveRise_kept :
    d.aliveRise = { d with pwr := { d.pwr with alive := d.aliveRise.pwr.alive, phase := d.aliveRise.pwr.phase,
                                               islandFrom := d.aliveRise.pwr.islandFrom } } := by
  unfold Device.aliveRise
  extract_lets up
  split <;> rfl

theorem Device.exportWalk_kept (s : Nat) :
    d.exportWalk s = { d with regs := (d.exportWalk s).regs,
                              telem := { d.telem with last := (d.exportWalk s).telem.last, walks := (d.exportWalk s).telem.walks } } ∧
      d.regsKept (d.exportWalk s) (fun o => o == Off.telemWalkLate) := by
  unfold Device.exportWalk
  split
  · exact ⟨rfl, fun _ _ => rfl⟩
  · extract_lets t walk
    split
    · exact ⟨rfl, fun _ _ => rfl⟩
    · split
      · exact ⟨rfl, fun o ho => t.reg_bump_other 1 (by simpa using ho)⟩
      · exact ⟨rfl, fun _ _ => rfl⟩

theorem Device.safeStop_kept :
    d.safeStop = { d with regs := d.safeStop.regs, pwr := d.safeStop.pwr, fault := { d.fault with stops := d.safeStop.fault.stops } } ∧
      d.regsKept d.safeStop (fun o => o == Off.faultResetCause) ∧ d.safeStop.pwr.flash = d.pwr.flash := by
  unfold Device.safeStop
  split
  · exact ⟨rfl, fun _ _ => rfl, rfl⟩
  · exact ⟨rfl, fun o ho => d.reg_setFld_other _ _ _ (by simpa using ho), rfl⟩

/-- Settles O49: each clause by what its operation may write. -/
theorem framesOfOnePart : Obligations.FramesOfOnePart := by
  unfold Obligations.FramesOfOnePart
  refine ⟨?quote, ?selfRefresh, ?policer, ?bucket, ?watchdog, ?wake, ?lane, ?verify, ?pps, ?save, ?absent, ?learn, ?refresh, ?coalesce,
    ?hb, ?alive, ?idle, ?walk, ?stop⟩
  case quote => exact fun q d _ => runs_of_exec rfl (d.quoteBecomesActive_kept q)
  case selfRefresh => exact fun stack d _ => runs_of_exec rfl (d.selfRefreshIdle_kept stack)
  case policer => exact fun _ _ => runs_of_exec rfl rfl
  case bucket => exact fun port d _ => runs_of_exec rfl (Device.SchedOnly.refl port d).refillPort
  case watchdog => exact fun port cls d _ => runs_of_exec rfl (d.watchdogDisarm_kept port cls)
  case wake => exact fun port d _ => runs_of_exec rfl (Device.PortOnly.txWake d port)
  case lane => exact fun port d _ => runs_of_exec rfl (Device.PortOnly.laneRefresh d port)
  case verify => exact fun port d _ => runs_of_exec rfl (Device.PortOnly.verifySend d port)
  case pps =>
    intro d w hnone
    exact runs_of_exec (exec_to rfl (congrArg Device.ppsPulse (Device.dueBefore_of_noneDueBefore hnone))) d.ppsPulse_kept
  case save => exact fun engine thread d _ => runs_of_exec rfl (d.saveDone_kept engine thread)
  case absent => exact fun _ _ _ _ => runs_of_exec rfl rfl
  case learn => exact fun _ _ _ _ => runs_of_exec rfl rfl
  case refresh => exact fun channel bank d _ => runs_of_exec rfl (d.dramRefresh_kept channel.isLt bank.bank bank.hot)
  case coalesce => exact fun seat ring d _ => runs_of_exec rfl (d.coalesceTimer_kept seat ring)
  case hb => exact fun d _ => runs_of_exec rfl d.hbToggle_kept
  case alive => exact fun d _ => runs_of_exec rfl d.aliveRise_kept
  case idle => exact fun engine d _ => runs_of_exec rfl (d.scafIdle_kept engine)
  case walk => exact fun space d _ => runs_of_exec rfl (d.exportWalk_kept space)
  case stop => exact fun d _ => runs_of_exec rfl d.safeStop_kept

end Sys2Proof.Machine
end

section
set_option Elab.async false
/-! PROOFS. Requests and refreshes of the render channels (R198, R203, R205 to R207). -/

namespace Sys2Proof.Machine

variable {d t : Device} {c : Nat} {r : RReq}

/-! ### Where a store address lies (R194, R196) -/

/-- The registers of the regions read alike. -/
def Device.regionsKept (d t : Device) : Prop := ∀ n < 8, t.reg (Off.rstoreRegion n) = d.reg (Off.rstoreRegion n)

theorem Device.regionOf_lt {a n : Nat} (h : d.regionOf a = some n) : n < 8 := List.mem_range.mp (List.mem_of_find?_eq_some h)

theorem Device.regionsKept.regionOf (h : d.regionsKept t) (a : Nat) : t.regionOf a = d.regionOf a :=
  List.find?_congr fun n hn => by simp only [h n (List.mem_range.mp hn)]

theorem Device.regionsKept.locate (h : d.regionsKept t) (a : Nat) : t.locate a = d.locate a := by
  unfold Device.locate
  rw [h.regionOf]
  refine Option.map_congr fun n hn => ?_
  simp only [h n (Device.regionOf_lt hn)]

/-- The kind of the region that holds an address. -/
def Device.regionKind (d : Device) (a : Nat) : Option Nat := (d.regionOf a).map fun n => d.fld (Off.rstoreRegion n) 30 28

theorem Device.regionsKept.regionKind (h : d.regionsKept t) (a : Nat) : t.regionKind a = d.regionKind a := by
  unfold Device.regionKind
  rw [h.regionOf]
  exact Option.map_congr fun n hn => Device.fld_congr (h n (Device.regionOf_lt hn))

/-- The registers of the channels stand apart from those of the regions. -/
theorem Device.regionsKept_of_regs (h : ∀ o < Off.rstoreChStatus 0, t.reg o = d.reg o) : d.regionsKept t :=
  fun n hn => h _ (by unfold Off.rstoreRegion Off.rstoreChStatus; omega)

/-! ### A command opportunity (R203, R205) -/

theorem Device.commandOpportunity_picks {pc : Nat} {busy : List Nat} (hrun : d.flag (Off.rstoreChStatus c) 0 = true)
    (hdom : d.domainOk 6 c = true) (hpick : d.pickReq c pc busy = some r) :
    d.commandOpportunity c pc busy = (d.modRchan c fun ch => { ch with batch := ch.batchNow d.transit }).sendReq c r := by
  unfold Device.commandOpportunity
  simp [hrun, hdom, hpick]

/-- The open rows of a channel once the row of an address is open. -/
def Device.rowsWith (d : Device) (c a : Nat) : NMap Nat :=
  match d.locate a with
  | some l => NMap.set (d.rchan c).rows l.bank l.row
  | none => (d.rchan c).rows

theorem Device.row_open (d : Device) (c a : Nat) :
    ((d.locate a).all fun l => NMap.get? (d.rowsWith c a) l.bank == some l.row) = true := by
  unfold Device.rowsWith
  cases d.locate a with
  | none => rfl
  | some l => simp

/-- A request sent while none waits at its port. -/
theorem Device.rchan_sendReq (hwait : (d.rchan c).waiting = []) :
    ((d.sendReq c r).rchan c).issued = (d.rchan c).issued ++ [r] ∧
      ((d.sendReq c r).rchan c).queue = (d.rchan c).queue.filter (fun q => q.id ≠ r.id) ∧
      ((d.sendReq c r).rchan c).rows = d.rowsWith c r.addr := by
  unfold Device.sendReq
  extract_lets hit t₁ t₂ t₃
  have h₂ : t₂.rchan c = d.rchan c := rfl
  have hlocate : t₂.locate r.addr = d.locate r.addr := rfl
  obtain ⟨hissued, hqueue, hrows, hwait₃⟩ : (t₃.rchan c).issued = (d.rchan c).issued ∧ (t₃.rchan c).queue = (d.rchan c).queue ∧
      (t₃.rchan c).rows = d.rowsWith c r.addr ∧ (t₃.rchan c).waiting = [] := by
    unfold t₃ Device.rowsWith
    rw [hlocate]
    cases d.locate r.addr with
    | none => exact ⟨rfl, rfl, rfl, hwait⟩
    | some l =>
      simp only [Device.rchan_modRchan_self, h₂]
      exact ⟨trivial, trivial, trivial, hwait⟩
  rw [Device.admitWaiting, Device.rchan_modRchan_self, Device.rchan_modRchan_self]
  simp only [hwait₃, List.foldl_nil]
  exact ⟨by rw [hissued], by rw [hqueue], hrows⟩

/-! ### A request that completes (R198, R213) -/

theorem Device.rchan_reqDone (d : Device) (c : Nat) (r : RReq) :
    (d.reqDone c r).rchan c = { d.rchan c with issued := (d.rchan c).issued.filter fun q => q.id ≠ r.id } := by
  have hself : ∀ f, (d.modRchan c f).rchan c = f (d.rchan c) := fun f => d.rchan_modRchan_self c f
  unfold Device.reqDone
  extract_lets t₁ age t₂
  have h₂ : t₂.rchan c = t₁.rchan c := by
    unfold t₂
    split <;> rfl
  split
  · exact h₂.trans (hself _)
  · exact h₂.trans (hself _)

theorem Device.reg_reqDone_other {o : Nat} (ho : o ≠ Off.rstoreChMaxlat c) : (d.reqDone c r).reg o = d.reg o := by
  unfold Device.reqDone
  extract_lets t₁ age t₂
  have h₂ : t₂.reg o = d.reg o := by
    unfold t₂
    split <;> rfl
  split
  · exact (t₂.reg_setFld_other _ _ _ ho).trans h₂
  · exact h₂

/-- The request is done, its codewords counted: `ce` corrected and `ue` uncorrectable ones. -/
def Device.completed (d : Device) (c : Nat) (r : RReq) (ce ue : Nat) : Device :=
  (((d.bump (Off.rstoreChCe c) ce).reqDone c r).countUe c ue).bump (Off.rstoreChUe c) ue

theorem Device.issued_completed (d : Device) (c : Nat) (r : RReq) (ce ue : Nat) :
    ((d.completed c r ce ue).rchan c).issued = (d.rchan c).issued.filter fun q => q.id ≠ r.id := by
  show (((((d.bump _ ce).reqDone c r).countUe c ue)).rchan c).issued = _
  rw [Device.countUe, Device.rchan_modRchan_self, Device.rchan_reqDone]
  rfl

theorem Device.reg_completed_ce (d : Device) (c : Nat) (r : RReq) (ce ue : Nat) :
    (d.completed c r ce ue).reg (Off.rstoreChCe c) = sat32 (d.reg (Off.rstoreChCe c) + ce) := by
  rw [Device.completed, Device.reg_bump_other _ _ (by unfold Off.rstoreChCe Off.rstoreChUe; omega), Device.countUe,
    Device.reg_modRchan, Device.reg_reqDone_other (by unfold Off.rstoreChCe Off.rstoreChMaxlat; omega), Device.reg_bump_self]

theorem Device.reg_completed_ue (d : Device) (c : Nat) (r : RReq) (ce ue : Nat) :
    (d.completed c r ce ue).reg (Off.rstoreChUe c) = sat32 (d.reg (Off.rstoreChUe c) + ue) := by
  rw [Device.completed, Device.reg_bump_self, Device.countUe, Device.reg_modRchan,
    Device.reg_reqDone_other (by unfold Off.rstoreChUe Off.rstoreChMaxlat; omega),
    Device.reg_bump_other _ _ (by unfold Off.rstoreChCe Off.rstoreChUe; omega)]

theorem Device.regionsKept_completed (d : Device) (c : Nat) (r : RReq) (ce ue : Nat) : d.regionsKept (d.completed c r ce ue) := by
  refine Device.regionsKept_of_regs fun o ho => ?_
  have hlow : o < 0x1A01000 := ho
  rw [Device.completed, Device.reg_bump_other _ _ (by unfold Off.rstoreChUe; omega), Device.countUe, Device.reg_modRchan,
    Device.reg_reqDone_other (by unfold Off.rstoreChMaxlat; omega),
    Device.reg_bump_other _ _ (by unfold Off.rstoreChCe; omega)]

theorem Device.requestComplete_sound {id ce : Nat} (hr : (d.rchan c).issued.find? (fun r => r.id == id) = some r) :
    d.requestComplete c id ce [] = d.completed c r ce 0 := by
  unfold Device.requestComplete
  simp only [hr, List.filter_nil, ite_self]
  rfl

/-- A read with one codeword poisoned. -/
theorem Device.requestComplete_poisoned {id ce k : Nat} (hr : (d.rchan c).issued.find? (fun r => r.id == id) = some r)
    (hread : r.write = false) (hk : k < 2 * r.bursts) :
    ∃ lost, d.requestComplete c id ce [k] = (d.completed c r ce 1).poisonedAt c r lost (r.addr + 16 * k) := by
  have hbad : [k].filter (fun k => decide (k < 2 * r.bursts)) = [k] := by simp [hk]
  unfold Device.requestComplete
  simp only [hr, hread, hbad, Bool.false_eq_true, if_false]
  exact ⟨_, rfl⟩

/-- Outside the records, a poisoned codeword is told and asked for again: the registers of the Hawk, of the notice rings and
RSTORE_SELFREF alone may change. -/
theorem Device.reg_poisonedAt {a o : Nat} {lost : Bool} (hc : c < 32) (hkind : d.regionKind a ≠ some 0) (hnote : noteReg o = false)
    (hself : o ≠ Off.rstoreSelfref) : (d.poisonedAt c r lost a).reg o = d.reg o := by
  unfold Device.poisonedAt
  extract_lets raised
  have htold : raised.reg o = d.reg o := ((Device.Told.refl d).raiseEvent (by simp; omega)).reg hnote
  have hasked : ∀ u : Device, u.reg o = d.reg o → ∀ x w, (u.darbyAccess x w 1).reg o = d.reg o := fun u hu x w => by
    obtain ⟨-, -, hregs⟩ := (Device.Asked.refl u).request (p := 5) (m := (4, 0)) (a := x) (b := w) (n := 1)
    exact (hregs o (by simpa using hself)).trans hu
  split
  · exact htold
  · next n hn =>
    split
    · next hzero =>
      rw [Device.regionKind, hn, Option.map_some, hzero] at hkind
      exact absurd rfl hkind
    · unfold Device.poisonWord
      split
      · exact htold
      · exact htold
    · exact hasked _ (hasked _ htold _ _) _ _
    · exact htold
    · exact htold

theorem noteReg_rstoreChUe (c : Nat) : noteReg (Off.rstoreChUe c) = false := by
  have hplace : Off.rstoreChUe c % 0x100 = 0x24 := by unfold Off.rstoreChUe; omega
  have hpage : 0x101000 ≤ Off.rstoreChUe c := by unfold Off.rstoreChUe; omega
  simp only [noteReg, Bool.or_eq_false_iff, decide_eq_false_iff_not]
  omega

/-! ### Refresh (R206) -/

theorem Device.rchan_showHot (d : Device) (c k : Nat) (hot : Bool) : (d.showHot c hot).rchan k = d.rchan k := by
  have hrstore : (d.showHot c hot).rstore = d.rstore := by rw [d.showHot_eq_regs]
  rw [Device.rchan, hrstore, ← Device.rchan]

theorem Device.regionsKept_showHot (d : Device) (c : Nat) (hot : Bool) : d.regionsKept (d.showHot c hot) := by
  refine Device.regionsKept_of_regs fun o ho => ?_
  have hlow : o < 0x1A01000 := ho
  refine List.foldlRecOn (motive := fun t : Device => t.reg o = d.reg o) _ _ rfl fun t ht k _ => ?_
  exact (t.reg_setFld_other _ _ _ (by unfold Off.rstoreChStatus; omega)).trans ht

theorem Device.bankWaited_showHot (d : Device) (c bank : Nat) (hot : Bool) :
    (d.showHot c hot).bankWaited c bank = d.bankWaited c bank := by
  have htransit : (d.showHot c hot).transit = d.transit := by
    have hplumb : (d.showHot c hot).plumb = d.plumb := by rw [d.showHot_eq_regs]
    rw [Device.transit, hplumb, ← Device.transit]
  unfold Device.bankWaited
  simp only [d.rchan_showHot, htransit, (d.regionsKept_showHot c hot).locate]

/-- A flag set in a list of registers reads back in each. -/
theorem Device.flag_foldl_setFlag {off : Nat → Nat} {o n : Nat} {v : Bool} (hn : n < 32) (ks : List Nat) {d : Device}
    (h : d.flag o n = v ∨ ∃ k ∈ ks, off k = o) : (ks.foldl (fun d k => d.setFlag (off k) n v) d).flag o n = v := by
  induction ks generalizing d with
  | nil => simpa using h
  | cons k ks ih =>
    refine ih ?_
    by_cases hk : o = off k
    · subst hk
      exact .inl (d.flag_setFlag_self _ _ hn)
    · rw [d.flag_setFlag_other n n v hk]
      refine h.imp_right fun ⟨j, hj, ho⟩ => ⟨j, ?_, ho⟩
      exact (List.mem_cons.mp hj).resolve_left fun e => hk (e ▸ ho.symm)

theorem Device.flag_showHot (d : Device) (c : Nat) (hot : Bool) : (d.showHot c hot).flag (Off.rstoreChStatus c) 4 = hot := by
  refine Device.flag_foldl_setFlag (by omega) _ (.inr ⟨c % 16, List.mem_range.mpr (by omega), ?_⟩)
  rw [Nat.div_add_mod']

/-- A refresh is postponed while a class-0 request waits for its bank and fewer than 8 are. -/
theorem Device.dramRefresh_postpones {bank : Nat} (hot : Bool) (hwait : d.bankWaited c bank = true)
    (hfew : NMap.getD (d.rchan c).postponed bank 0 < 8) :
    d.dramRefresh c bank hot = (d.showHot c hot).modRchan c fun ch =>
      { ch with postponed := NMap.set ch.postponed bank (NMap.getD (d.rchan c).postponed bank 0 + 1) } := by
  unfold Device.dramRefresh
  rw [← Device.showHot]
  simp only [d.rchan_showHot, d.bankWaited_showHot]
  rw [if_pos ⟨hwait, hfew⟩]

/-- Otherwise the bank is refreshed, which closes its row. -/
theorem Device.dramRefresh_refreshes {bank : Nat} (hot : Bool)
    (h : d.bankWaited c bank = false ∨ 8 ≤ NMap.getD (d.rchan c).postponed bank 0) :
    d.dramRefresh c bank hot = (d.showHot c hot).modRchan c fun ch => { ch with
      rows := NMap.del ch.rows bank
      postponed := if NMap.getD (d.rchan c).postponed bank 0 ≤ 1 then NMap.del ch.postponed bank
        else NMap.set ch.postponed bank (NMap.getD (d.rchan c).postponed bank 0 - 1) } := by
  have hnot : ¬ (d.bankWaited c bank = true ∧ NMap.getD (d.rchan c).postponed bank 0 < 8) := by
    rintro ⟨hwait, hfew⟩
    obtain hw | hmany := h
    · exact absurd (hwait.symm.trans hw) (by decide)
    · omega
  unfold Device.dramRefresh
  rw [← Device.showHot]
  simp only [d.rchan_showHot, d.bankWaited_showHot]
  rw [if_neg hnot]

/-- One postponed refresh fewer: a bank with none left is not listed. -/
theorem getD_one_fewer {m : NMap Nat} {a n : Nat} (hn : NMap.getD m a 0 = n) :
    NMap.getD (if n ≤ 1 then NMap.del m a else NMap.set m a (n - 1)) a 0 = n - 1 := by
  split
  · have hnone : NMap.getD (NMap.del m a) a 0 = 0 := by rw [NMap.getD, NMap.get?_del_self, Option.getD_none]
    omega
  · exact NMap.getD_set_self ..

end Sys2Proof.Machine
end

section
set_option Elab.async false
/-! PROOFS. A channel that fails stays failed and without requests while its records and its reads go (R188, R198, R212), and with it the
statement on the render channels. -/

namespace Sys2Proof.Machine

/-- The channel, one of the 32, is listed and shown as failed, no request is in its queue, and none has been sent. -/
def Device.Stopped (c : Nat) (t : Device) : Prop :=
  c < 32 ∧ t.chanFailed c = true ∧ t.fld (Off.rstoreChStatus c) 2 0 = 6 ∧ (t.rchan c).queue = [] ∧ (t.rchan c).issued = []

theorem noteReg_rstoreChStatus (c : Nat) : noteReg (Off.rstoreChStatus c) = false := by
  have hplace : Off.rstoreChStatus c % 0x100 = 0 := by unfold Off.rstoreChStatus; omega
  have hpage : 0x101000 ≤ Off.rstoreChStatus c := by unfold Off.rstoreChStatus; omega
  simp only [noteReg, Bool.or_eq_false_iff, decide_eq_false_iff_not]
  omega

theorem noteReg_rstoreFailed : noteReg Off.rstoreFailed = false := rfl

namespace Device.Stopped

variable {c : Nat} {t u : Device}

/-- What leaves the channel, the list of failed channels and the channel's status as they are. -/
theorem of_kept (h : t.Stopped c) (hchan : u.rchan c = t.rchan c) (hfailed : u.reg Off.rstoreFailed = t.reg Off.rstoreFailed)
    (hstatus : u.reg (Off.rstoreChStatus c) = t.reg (Off.rstoreChStatus c)) : u.Stopped c := by
  unfold Device.Stopped Device.chanFailed Device.fld
  rw [hchan, hfailed, hstatus]
  exact h

theorem of_eq (h : t.Stopped c) (hregs : u.regs = t.regs) (hstore : u.rstore = t.rstore) : u.Stopped c := by
  have hreg : ∀ o, u.reg o = t.reg o := fun o => by rw [Device.reg, hregs, ← Device.reg]
  exact h.of_kept (by rw [Device.rchan, hstore, ← Device.rchan]) (hreg _) (hreg _)

theorem told (h : t.Stopped c) (hu : t.Told u) : u.Stopped c := by
  have hstore : u.rstore = t.rstore := by rw [hu.1]
  exact h.of_kept (by rw [Device.rchan, hstore, ← Device.rchan]) (hu.reg noteReg_rstoreFailed) (hu.reg (noteReg_rstoreChStatus c))

theorem foldl {β : Type} {xs : List β} {f : Device → β → Device} (h : t.Stopped c) (hf : ∀ u x, u.Stopped c → (f u x).Stopped c) :
    (xs.foldl f t).Stopped c := List.foldlRecOn (motive := Device.Stopped c) _ _ h fun u hu x _ => hf u x hu

/-- The registers below RSTORE_FAILED, those up to the first channel's and those beyond the last channel's stand apart from
RSTORE_FAILED and from the status of the channel. -/
theorem setReg {o v : Nat} (h : t.Stopped c)
    (ho : o < Off.rstoreFailed ∨ Off.rstoreFailed < o ∧ o < Off.rstoreChStatus 0 ∨ Off.rstoreChStatus 32 ≤ o) :
    (t.setReg o v).Stopped c := by
  obtain ⟨hc, -⟩ := id h
  have hstatus : Off.rstoreChStatus c ≠ o := by
    unfold Off.rstoreChStatus Off.rstoreFailed at *
    omega
  have hfailed : Off.rstoreFailed ≠ o := by
    unfold Off.rstoreChStatus Off.rstoreFailed at *
    omega
  exact h.of_kept rfl (t.reg_setReg_other v hfailed) (t.reg_setReg_other v hstatus)

theorem modFlow {f : Flow → Flow} (h : t.Stopped c) : (t.modFlow f).Stopped c := h.of_eq rfl rfl
theorem unlease {k n : Nat} (h : t.Stopped c) : (t.unlease k n).Stopped c := h.of_eq rfl rfl

theorem bump {o n : Nat} (h : t.Stopped c) (ho : o < Off.rstoreFailed) : (t.bump o n).Stopped c := h.setReg (.inl ho)

/-! ### Requests (R201, R207, R212) -/

/-- What changes no channel of the render store. -/
theorem modRstore {f : Rstore → Rstore} (h : t.Stopped c) (hf : (f t.rstore).chans = t.rstore.chans) : (t.modRstore f).Stopped c :=
  h.of_kept (by rw [Device.rchan, Device.modRstore_rstore, hf, ← Device.rchan]) rfl rfl

theorem stackWake {n : Nat} (h : t.Stopped c) : (t.stackWake n).Stopped c := by
  have hlast := h.modRstore (f := fun r => { r with lastReq := NMap.set r.lastReq n t.transit }) rfl
  unfold Device.stackWake
  extract_lets u
  split
  · exact hlast.setReg (.inr (.inl (by decide)))
  · exact hlast

/-- A request goes to another channel, since this one has failed. -/
theorem requestSend {p a n : Nat} {m : Nat × Nat} {b : Bool} (h : t.Stopped c) : (t.requestSend p m b a n).Stopped c := by
  unfold Device.requestSend
  split
  · exact h
  · next l _ =>
    split
    · exact h
    · next hrun =>
      obtain ⟨-, hfailed, -⟩ := id h
      have hother : c ≠ l.chan := by
        rintro rfl
        exact hrun hfailed
      have hwake := h.stackWake (n := l.chan / 16)
      exact (hwake.of_kept (u := Device.modRchan _ l.chan _) (Device.rchan_modRchan_other _ _ hother) rfl rfl).modRstore rfl

theorem portError {p a n : Nat} (h : t.Stopped c) : (t.portError p a n).Stopped c := h.modRstore rfl

theorem requestBlock {p a n : Nat} {m : Nat × Nat} {b : Bool} (h : t.Stopped c) : (t.requestBlock p m b a n).Stopped c := by
  unfold Device.requestBlock
  split
  · exact h.portError
  · split
    · exact h.requestSend
    · extract_lets u
      have hu : u.Stopped c := by
        unfold u
        split
        · exact h.portError
        · exact h
      split
      · split
        · exact hu.requestSend
        · exact hu
      · exact hu

theorem request {p a n : Nat} {m : Nat × Nat} {b : Bool} (h : t.Stopped c) : (t.request p m a b n).Stopped c :=
  h.foldl fun _ _ hu => hu.requestBlock

theorem darbyAccess {a n : Nat} {b : Bool} (h : t.Stopped c) : (t.darbyAccess a b n).Stopped c := h.request

/-! ### Records that go (R188) -/

theorem notIdle {p : Nat} (h : t.Stopped c) : (t.notIdle p).Stopped c := by
  unfold Device.notIdle
  split
  · exact h.of_eq rfl rfl
  · exact h

theorem showQuotes (h : t.Stopped c) : t.showQuotes.Stopped c :=
  Device.Stopped.setReg (h.setReg (.inr (.inr (by decide)))) (.inr (.inr (by decide)))

theorem startRelease {q reason p : Nat} {ring : Option (Nat × Nat)} (h : t.Stopped c) : (t.startRelease q reason p ring).Stopped c := by
  unfold Device.startRelease
  split
  · exact h
  · split
    · exact h
    · extract_lets u
      have hu : u.Stopped c := h.of_eq rfl rfl
      exact hu.showQuotes.foldl fun _ _ hv => hv.notIdle

theorem quoteLost {i : FlowId} (h : t.Stopped c) : (t.quoteLost i).Stopped c := by
  unfold Device.quoteLost
  split
  · exact h.startRelease
  · exact h

theorem showCount {s : Nat} {n : Int} (h : t.Stopped c) (hs : s < 16) : (t.showCount s n).Stopped c :=
  h.setReg (.inl (by unfold Off.flowSpaceCount Off.rstoreFailed; omega))

theorem touchBlock {i : FlowId} (h : t.Stopped c) : (t.touchBlock i).Stopped c := by
  unfold Device.touchBlock
  split
  · exact h
  · exact h.modFlow

theorem keepGhost {k : Nat} {b : List Byte} (h : t.Stopped c) : (t.keepGhost k b).Stopped c := by
  unfold Device.keepGhost
  extract_lets g run seen mv u
  have hu : u.Stopped c := by
    unfold u
    split
    · exact h.modFlow
    · exact h
  exact hu.of_eq rfl rfl

theorem removeRecord {k : Nat} (h : t.Stopped c) : (t.removeRecord k).Stopped c := by
  unfold Device.removeRecord
  split
  · exact h
  · extract_lets i
    have hspace : i.space < 16 := Nat.mod_lt _ (by decide)
    exact (h.showCount hspace).touchBlock.unlease.keepGhost.modFlow.request

theorem ageOut {k : Nat} {b : Bool} (h : t.Stopped c) : (t.ageOut k b).Stopped c := by
  unfold Device.ageOut
  split
  · exact h
  · exact h.removeRecord.told Device.Told.learnNotice

theorem closeLodge (h : t.Stopped c) : t.closeLodge.Stopped c := by
  unfold Device.closeLodge
  extract_lets gone u
  have hu : u.Stopped c := h.foldl fun _ _ hv => hv.unlease
  exact Device.Stopped.setReg (Device.Stopped.setReg hu.modFlow (.inl (by decide))) (.inl (by decide))

theorem loseRecord {k : Nat} {lost notice : Bool} (h : t.Stopped c) : (t.loseRecord k lost notice).Stopped c := by
  unfold Device.loseRecord
  split
  · exact h
  · extract_lets i u v
    have hv : v.Stopped c := by
      unfold v
      split
      · exact h.quoteLost.ageOut
      · exact h.quoteLost.removeRecord
    exact Device.Stopped.closeLodge hv.modFlow

theorem channelRecords (h : t.Stopped c) : (t.channelRecords c).Stopped c := by
  refine h.foldl fun u k hu => ?_
  split
  · exact hu
  · extract_lets s n
    split
    · exact (hu.bump (by decide)).loseRecord
    · exact hu.modFlow.loseRecord

/-! ### Reads that return poisoned data (R198) -/

/-- A read of another region than the records. -/
theorem poisonedRead {r : RReq} (h : t.Stopped c) : (t.poisonedRead c r).Stopped c := by
  obtain ⟨hc, -⟩ := id h
  unfold Device.poisonedRead
  split
  · exact h
  · exact h
  · exact h
  · next n hzero hone hn =>
    unfold Device.poisonedAt
    extract_lets raised
    have hraised : raised.Stopped c := h.told ((Device.Told.refl t).raiseEvent (by simp; omega))
    split
    · exact hraised
    · next m hm =>
      split
      · next hkind =>
        rw [hm, Option.map_some, hkind] at hn
        exact absurd (Option.some.inj hn).symm hzero
      · unfold Device.poisonWord
        split
        · exact hraised
        · exact hraised.modRstore rfl
      · exact hraised.darbyAccess.darbyAccess
      · exact hraised
      · exact hraised.portError

end Device.Stopped

/-- A bit set in RSTORE_FAILED reads as a failed channel. -/
theorem Device.chanFailed_setFld {d : Device} {c : Nat} (hc : c < 32) : (d.setFld Off.rstoreFailed c c 1).chanFailed c = true := by
  have hbit : (d.setFld Off.rstoreFailed c c 1).fld Off.rstoreFailed c c = 1 := by
    rw [Device.fld_setFld_self _ _ _ hc (by omega), Nat.add_sub_cancel_left]
    rfl
  rw [Device.fld, bits, Nat.add_sub_cancel_left, pow_one] at hbit
  exact bit_eq (x := true) hbit

theorem Device.stopped_failChannel (d : Device) {c : Nat} (hc : c < 32) : (d.failChannel c).Stopped c := by
  unfold Device.failChannel
  split
  next d₁ why _ =>
  extract_lets t₁ t₂ t₃ reads t₄
  have h₁ : t₁.chanFailed c = true := Device.chanFailed_setFld (d := d₁) hc
  have hstatus : t₂.fld (Off.rstoreChStatus c) 2 0 = 6 := t₁.fld_setFld_self _ _ (by decide) (by decide)
  have hfailed : t₂.chanFailed c = true := by
    rw [Device.chanFailed, t₁.reg_setFld_other _ _ _ (by unfold Off.rstoreFailed Off.rstoreChStatus; omega)]
    exact h₁
  have htold : t₂.Told t₃ := (Device.Told.refl t₂).raiseEvent (by simp; omega)
  have hempty : (t₃.modRchan c fun x => { x with queue := [], waiting := [], issued := [] }).Stopped c := by
    refine ⟨hc, ?_, (htold.fld (noteReg_rstoreChStatus c)).trans hstatus, ?_, ?_⟩
    · exact (congrArg (bit · c) (htold.reg noteReg_rstoreFailed)).trans hfailed
    · rw [Device.rchan_modRchan_self]
    · rw [Device.rchan_modRchan_self]
  exact hempty.channelRecords.foldl fun _ _ h => h.poisonedRead

/-- A channel with more uncorrectable codewords than the limit fails. -/
theorem Device.channelFailed_fails {d : Device} {c : Nat} (hrun : d.chanFailed c = false)
    (hmany : d.fld Off.rstoreUeLimit 15 0 < ((d.rchan c).ues.map (·.2)).sum) : d.channelFailed c = d.failChannel c := by
  unfold Device.channelFailed
  simp only [hrun, Bool.false_or, decide_eq_true_eq]
  rw [if_neg (Nat.not_le.mpr hmany)]

/-- An idle stack in Doze is in self-refresh again. -/
theorem Device.flag_selfRefreshIdle {d : Device} {n : Nat} (hn : n < 32) (hdoze : d.pwrState = 2)
    (hidle : NMap.getD d.rstore.lastReq n 0 + 100000 ≤ d.transit) : (d.selfRefreshIdle n).flag Off.rstoreSelfref n = true := by
  rw [Device.selfRefreshIdle, if_pos ⟨hdoze, hidle⟩, Device.flag_setFlag_self _ _ _ hn]

/-- Settles O38: each clause by what the channel and its registers are after its operation. -/
theorem renderChannels : Obligations.RenderChannels := by
  unfold Obligations.RenderChannels
  refine ⟨?command, ?complete, ?poisoned, ?postponed, ?refresh, ?failed, ?idle⟩
  case command =>
    intro channel pc busy r d w hrun hdom hwait hpick
    refine runs_of_exec (exec_to rfl (Device.commandOpportunity_picks hrun hdom hpick)) ?_
    have hchan := d.rchan_modRchan_self channel fun ch => { ch with batch := ch.batchNow d.transit }
    have hwait' : ((d.modRchan channel fun ch => { ch with batch := ch.batchNow d.transit }).rchan channel).waiting = [] := by
      rw [hchan]
      exact hwait
    obtain ⟨hissued, hqueue, hrows⟩ := Device.rchan_sendReq (r := r) hwait'
    refine ⟨?_, ?_, ?_⟩
    · rw [hissued, hchan]
    · rw [hqueue, hchan]
    · rw [hrows]
      exact Device.row_open _ channel r.addr
  case complete =>
    intro channel id ce poisoned r d w hr hnone
    subst hnone
    obtain rfl : r.id = id := by simpa using List.find?_some hr
    exact runs_of_exec (exec_to rfl (Device.requestComplete_sound hr)) ⟨d.issued_completed .., d.reg_completed_ce ..⟩
  case poisoned =>
    intro channel id ce poisoned r k d w hr hone hread hk hkind
    subst hone
    obtain ⟨lost, hpoisoned⟩ := Device.requestComplete_poisoned (ce := ce) hr hread hk
    refine runs_of_exec (exec_to rfl hpoisoned) ?_
    have hkind' : (d.completed channel r ce 1).regionKind (r.addr + 16 * k) ≠ some 0 := by
      rw [(d.regionsKept_completed channel r ce 1).regionKind]
      exact hkind
    rw [Device.reg_poisonedAt channel.isLt hkind' (noteReg_rstoreChUe _) (by unfold Off.rstoreChUe Off.rstoreSelfref; omega)]
    exact d.reg_completed_ue ..
  case postponed =>
    intro channel bank d w hwait hfew
    refine runs_of_exec (exec_to rfl (Device.dramRefresh_postpones bank.hot hwait hfew)) ?_
    rw [Device.rchan_modRchan_self, NMap.getD_set_self]
  case refresh =>
    intro channel bank d w h
    refine runs_of_exec (exec_to rfl (Device.dramRefresh_refreshes bank.hot h)) ⟨?_, ?_, ?_⟩
    · rw [Device.rchan_modRchan_self, NMap.get?_del_self]
    · rw [Device.rchan_modRchan_self, d.rchan_showHot]
      exact getD_one_fewer rfl
    · exact (Device.flag_modRchan ..).trans (d.flag_showHot channel bank.hot)
  case failed =>
    intro channel d w hrun hmany
    obtain ⟨-, hstopped⟩ := d.stopped_failChannel channel.isLt
    exact runs_of_exec (exec_to rfl (Device.channelFailed_fails hrun hmany)) hstopped
  case idle => exact fun stack d w hdoze hidle => runs_of_exec rfl (Device.flag_selfRefreshIdle (by omega) hdoze hidle)

end Sys2Proof.Machine
end

section
set_option Elab.async false
/-! PROOFS. A port that has come up stays up while its event and the notices of its quotes go out (R236, R250, R251, R276, R297). -/

namespace Sys2Proof.Machine

/-- The port is up and its flush is over. -/
def Device.LinkUp (p : Nat) (t : Device) : Prop := t.portUp p = true ∧ (t.port p).flushing = false

theorem Device.portUp_eq (d : Device) (p : Nat) : d.portUp p = decide (2 ^ 31 ≤ d.reg (Off.portStatus p)) := by
  have hlt := d.reg_lt (Off.portStatus p)
  rw [Bool.eq_iff_iff, Device.portUp, Device.flag, Device.fld, bits, beq_iff_eq, decide_eq_true_eq]
  omega

namespace Device.LinkUp

variable {t u : Device} {p s r n v k a off : Nat} {b : Bool} {bs : List Byte}

/-! ### Single updates -/

/-- What leaves the registers and the port as they are. -/
theorem of_eq (h : t.LinkUp p) (hregs : u.regs = t.regs) (hport : u.ports = t.ports) : u.LinkUp p := by
  obtain ⟨hup, hflush⟩ := h
  refine ⟨?_, by rwa [Device.port, hport]⟩
  rwa [Device.portUp, Device.flag_congr (t := u) (d := t) (by rw [Device.reg, hregs]; rfl)]

theorem ite {q : Prop} {_ : Decidable q} (ht : t.LinkUp p) (hu : u.LinkUp p) : (if q then t else u).LinkUp p := by
  split
  · exact ht
  · exact hu

theorem foldl {β : Type} {xs : List β} {f : Device → β → Device} (h : t.LinkUp p) (hf : ∀ u x, u.LinkUp p → (f u x).LinkUp p) :
    (xs.foldl f t).LinkUp p := List.foldlRecOn (motive := Device.LinkUp p) _ _ h fun u hu x _ => hf u x hu

theorem setReg (h : t.LinkUp p) (ho : off ≠ Off.portStatus p) : (t.setReg off v).LinkUp p := by
  obtain ⟨hup, hflush⟩ := h
  exact ⟨(Device.flag_congr (t.reg_setReg_other v ho.symm)).trans hup, hflush⟩

theorem setFld {hi lo : Nat} (h : t.LinkUp p) (ho : off ≠ Off.portStatus p) : (t.setFld off hi lo v).LinkUp p := h.setReg ho
theorem setFlag (h : t.LinkUp p) (ho : off ≠ Off.portStatus p) : (t.setFlag off n b).LinkUp p := h.setReg ho

/-- A flag of PORT_STATUS below UP. -/
theorem setLowFlag (h : t.LinkUp p) (hn : n < 31) : (t.setFlag (Off.portStatus p) n b).LinkUp p := by
  obtain ⟨hup, hflush⟩ := h
  refine ⟨?_, hflush⟩
  rw [Device.portUp, Device.flag] at hup ⊢
  rwa [Device.setFlag, Device.fld_setFld_apart _ _ _ (by omega) (by omega) (.inr hn)]

/-- A counter saturates, so that no count clears the highest bit of a register: SEAT_NR_LOST of a seat number out of range may
stand where a PORT_STATUS stands. -/
theorem bump (h : t.LinkUp p) : (t.bump off n).LinkUp p := by
  by_cases ho : off = Off.portStatus p
  · obtain ⟨hup, hflush⟩ := h
    refine ⟨?_, hflush⟩
    rw [Device.portUp_eq, decide_eq_true_eq] at hup ⊢
    rw [ho, Device.reg_bump_self, sat32]
    omega
  · exact h.setReg ho

theorem modSeat {f : Seat → Seat} (h : t.LinkUp p) : (t.modSeat s f).LinkUp p := h.of_eq rfl rfl
theorem modNring {f : NoticeRing → NoticeRing} (h : t.LinkUp p) : (t.modNring s r f).LinkUp p := h.modSeat
theorem occSeat {part : Option Nat} (h : t.LinkUp p) : (t.occSeat k s n part).LinkUp p := h.of_eq rfl rfl
theorem takeSeq (h : t.LinkUp p) : t.takeSeq.1.LinkUp p := h.of_eq rfl rfl
theorem setSlot {x : PendSlot} (h : t.LinkUp p) : (t.setSlot x).LinkUp p := h.of_eq rfl rfl
theorem setQuote {q : Nat} {x : Quote} (h : t.LinkUp p) : (t.setQuote q x).LinkUp p := h.of_eq rfl rfl
theorem modGroup {g : Nat} {f : Group → Group} (h : t.LinkUp p) : (t.modGroup g f).LinkUp p := h.of_eq rfl rfl

/-- A change of a port that does not begin a flush. -/
theorem modPort {q : Nat} {f : Port → Port} (h : t.LinkUp p) (hf : ∀ x, (f x).flushing = x.flushing) : (t.modPort q f).LinkUp p := by
  obtain ⟨hup, hflush⟩ := h
  refine ⟨hup, ?_⟩
  by_cases hq : p = q
  · subst hq
    rw [Device.port_modPort_self, hf, hflush]
  · rw [Device.port_modPort_other _ _ hq, hflush]

/-! ### Notices and events (R410, R429 to R440) -/

theorem dropNotice (h : t.LinkUp p) : (t.dropNotice s r n).LinkUp p := h.bump.modNring.occSeat

theorem putEntry (h : t.LinkUp p) : (t.putEntry s r n b v k bs).LinkUp p := by
  unfold Device.putEntry
  exact (h.modSeat.setFld (by unfold Off.seatNrTail Off.portStatus; omega)).modNring

theorem sendMsix (h : t.LinkUp p) : (t.sendMsix s r).LinkUp p := by
  unfold Device.sendMsix
  exact h.modSeat.modNring

theorem coalesce (h : t.LinkUp p) : (t.coalesce s r).LinkUp p := h.modNring.sendMsix.ite h.modNring

theorem putNotice {o : Option (List Byte)} (h : t.LinkUp p) : (t.putNotice s r n v k bs o b).1.LinkUp p := by
  unfold Device.putNotice
  extract_lets need ring avail t₁ t₂ t₃
  have h₂ : t₂.LinkUp p := (h.modNring.ite h).putEntry
  have h₃ : t₃.LinkUp p := by
    cases o with
    | none => exact h₂
    | some x => exact h₂.putEntry
  split
  · exact h.dropNotice
  · split
    · exact h.dropNotice
    · exact h₃.occSeat.coalesce

theorem notice {o : Option (List Byte)} (h : t.LinkUp p) : (t.notice s r n bs o).1.LinkUp p := h.takeSeq.putNotice

theorem deliver {x : Event} (h : t.LinkUp p) : (t.deliver s x v k).LinkUp p := h.putNotice.ite h

theorem logEntry {x : LogEntry} (h : t.LinkUp p) : (t.logEntry x).LinkUp p :=
  have hfull : Device.LinkUp p _ := h.bump.ite h
  hfull.of_eq rfl rfl

theorem stampEvent {x : Event} (h : t.LinkUp p) (hx : x.src < 512) : (t.stampEvent x).LinkUp p :=
  have hsticky : Device.LinkUp p _ := h.takeSeq.setFlag (by unfold Off.hawkSticky Off.portStatus; omega)
  have hsev : Device.LinkUp p _ := (hsticky.setFlag (by unfold Off.hawkStatus Off.portStatus; omega)).ite hsticky
  (hsev.logEntry.ite hsev).deliver.deliver

theorem raise (h : t.LinkUp p) (hs : s < 512) : (t.raise s v k a n).LinkUp p := by
  unfold Device.raise Device.raiseEvent
  extract_lets now fresh
  have hfresh : fresh.LinkUp p := (h.stampEvent hs).setSlot
  refine (h.stampEvent hs).ite ?_
  split
  · exact hfresh
  · split
    · exact h.setSlot.bump
    · exact h.setSlot.bump.ite hfresh
    · exact hfresh

/-! ### Members and quotes of the port (R250, R251, R276) -/

theorem countReadmit (h : t.LinkUp p) : (t.countReadmit p).LinkUp p := h.foldl fun _ _ hu => hu.modGroup.ite hu

theorem quoteNotice {q : Nat} {x : Quote} (h : t.LinkUp p) : (t.quoteNotice q x r k).LinkUp p := h.notice

theorem showQuotes (h : t.LinkUp p) : t.showQuotes.LinkUp p := by
  have hactive : Off.schedQuoteActive ≠ Off.portStatus p := by unfold Off.schedQuoteActive Off.portStatus; omega
  have hstatus : Off.schedFitStatus ≠ Off.portStatus p := by unfold Off.schedFitStatus Off.portStatus; omega
  unfold Device.showQuotes
  exact (h.setReg hactive).setFlag hstatus

theorem notIdle {q : Nat} (h : t.LinkUp p) : (t.notIdle q).LinkUp p := by
  unfold Device.notIdle
  split
  · exact h.modPort fun _ => rfl
  · exact h

theorem startRelease {q : Nat} {ring : Option (Nat × Nat)} (h : t.LinkUp p) : (t.startRelease q r k ring).LinkUp p := by
  unfold Device.startRelease
  split
  · exact h
  · split
    · exact h
    · exact h.setQuote.showQuotes.foldl fun _ _ hu => hu.notIdle

theorem refitQuote {q : Nat} (h : t.LinkUp p) : (t.refitQuote p q).LinkUp p := by
  unfold Device.refitQuote
  split
  · exact h
  · extract_lets same others bare
    split
    · exact h
    · split
      · exact h.quoteNotice
      · split
        · exact h.setQuote.quoteNotice
        · exact h.startRelease

theorem refitPort (h : t.LinkUp p) : (t.refitPort p).LinkUp p := h.foldl fun _ _ hu => hu.refitQuote

end Device.LinkUp

/-! ### The check that declares a port up (R297) -/

/-- Whether a port is to be declared up. -/
def Device.comesUp (d : Device) (p : Nat) : Bool :=
  d.macEn p && !d.portUp p && (d.port p).bring == .up && (d.port p).aligned && !(d.port p).faultSet && !(d.port p).flushing &&
    (d.lanesOf p).all fun l => d.flag (Off.laneStatus l) 0

theorem Device.portUpCheck_stays {d : Device} {p : Nat} (h : d.comesUp p = false) : d.portUpCheck p = d :=
  if_neg (Bool.eq_false_iff.mp h)

theorem Device.linkUp_portUpCheck {d : Device} {p : Nat} (hp : p < 512) (h : d.comesUp p = true) : (d.portUpCheck p).LinkUp p := by
  have hflush : (d.port p).flushing = false := by
    simp only [Device.comesUp, Bool.and_eq_true, Bool.not_eq_true'] at h
    obtain ⟨⟨-, hflush⟩, -⟩ := h
    exact hflush
  have hsource : portSource p < 512 := by unfold portSource; omega
  have hset : (d.setFlag (Off.portStatus p) 31 true).LinkUp p := by
    have hup : (d.setFlag (Off.portStatus p) 31 true).flag (Off.portStatus p) 31 = true := d.flag_setFlag_self _ true (by decide)
    refine ⟨hup, ?_⟩
    rw [Device.port, Device.setFlag_ports]
    exact hflush
  unfold Device.portUpCheck
  extract_lets x t₁ t₂ t₃
  split
  case isTrue =>
    have h₃ : t₃.LinkUp p := ((hset.setLowFlag (by omega)).setLowFlag (by omega)).modPort fun _ => rfl
    exact (h₃.raise hsource).countReadmit.refitPort
  case isFalse hnot => exact absurd h hnot

end Sys2Proof.Machine
end

section
set_option Elab.async false
/-! PROOFS. The pauses that a partner asks for and those that a port asks for (R237, R309). -/

namespace Sys2Proof

theorem NMap.filterMap_set {α β : Type} {f : Nat × α → Option β} {a : Nat} (hf : ∀ v, f (a, v) = none) (m : NMap α) (v : α) :
    (NMap.set m a v).filterMap f = m.filterMap f := by
  induction m with
  | nil => simp [NMap.set, hf]
  | cons q t ih =>
    obtain ⟨k, w⟩ := q
    rw [NMap.set]
    split
    · simp [hf]
    · split
      case isTrue hk => simp [← hk, hf]
      case isFalse => simp [List.filterMap_cons, ih]

theorem DMap.filterMap_put {α β : Type} [DecidableEq α] {dflt : Nat → α} {f : Nat × α → Option β} {a : Nat}
    (hf : ∀ v, f (a, v) = none) (m : NMap α) (v : α) : (DMap.put dflt m a v).filterMap f = m.filterMap f := by
  unfold DMap.put
  split
  · rw [NMap.del, List.filterMap_filter]
    refine List.filterMap_congr fun ⟨k, w⟩ _ => ?_
    by_cases hk : k = a
    · simp [hk, hf]
    · simp [hk]
  · exact NMap.filterMap_set hf m v

/-- A list of updates that keeps a premise and in which only `c` bears on the outcome reaches it. -/
theorem foldl_reaches {α β : Type} {f : α → β → α} {I Q : α → Prop} {c : β} {xs : List β} {t : α}
    (hI : ∀ t x, I t → I (f t x)) (hQ : ∀ t, I t → Q (f t c)) (hkeep : ∀ t, ∀ x ∈ xs, x ≠ c → Q t → Q (f t x))
    (ht : I t) (h : c ∈ xs ∨ Q t) : Q (xs.foldl f t) := by
  induction xs generalizing t with
  | nil => simpa using h
  | cons x xs ih =>
    refine ih (fun t y hy => hkeep t y (List.mem_cons_of_mem x hy)) (hI t x ht) ?_
    by_cases hx : x = c
    · exact .inr (hx ▸ hQ t ht)
    · exact h.imp (fun hc => (List.mem_cons.mp hc).resolve_left (Ne.symm hx)) (hkeep t x List.mem_cons_self hx)

/-- The mask of the numbers below `n` that satisfy `q`. -/
theorem testBit_mask (q : Nat → Bool) (n c : Nat) :
    (((List.range n).filter q).foldl (fun a c => a + 2 ^ c) 0).testBit c = (decide (c < n) && q c) ∧
      ((List.range n).filter q).foldl (fun a c => a + 2 ^ c) 0 < 2 ^ n := by
  induction n with
  | zero => simp
  | succ n ih =>
    obtain ⟨hbit, hlt⟩ := ih
    rw [List.range_succ, List.filter_append, List.foldl_append, Nat.pow_succ]
    generalize ((List.range n).filter q).foldl (fun a c => a + 2 ^ c) 0 = m at hbit hlt ⊢
    by_cases hq : q n = true
    · simp only [List.filter_cons, hq, if_true, List.filter_nil, List.foldl_cons, List.foldl_nil]
      refine ⟨?_, by omega⟩
      rw [Nat.add_comm]
      rcases Nat.lt_trichotomy c n with hc | rfl | hc
      · rw [Nat.testBit_two_pow_add_gt hc, hbit]
        simp [hc, Nat.lt_succ_of_lt hc]
      · rw [Nat.testBit_two_pow_add_eq, hbit]
        simp [hq]
      · have hle : 2 ^ (n + 1) ≤ 2 ^ c := Nat.pow_le_pow_right (by omega) hc
        rw [Nat.testBit_lt_two_pow (by rw [Nat.pow_succ] at hle; omega)]
        simp [show ¬ c < n + 1 by omega]
    · simp only [List.filter_cons, hq, Bool.false_eq_true, if_false, List.filter_nil, List.foldl_nil]
      refine ⟨?_, by omega⟩
      rw [hbit]
      by_cases hc : c = n
      · simp [hc, hq]
      · simp [show (c < n + 1) = (c < n) from propext (by omega)]

namespace Machine

variable {d t : Device} {p c off : Nat}

/-! ### The rate of a port while registers of ports change -/

theorem Device.listed_setReg {base stride count : Nat} (v : Nat) (h : off < base) :
    (d.setReg off v).listed base stride count = d.listed base stride count :=
  DMap.filterMap_put (fun _ => if_neg fun hb => absurd hb.1 (Nat.not_le.mpr h)) d.regs _

/-- The registers of the Lath stand above those of the ports, and of a port's own only PORT_CFG tells its rate. -/
theorem Device.portRate_setReg (v : Nat) (hlath : off < Off.lathCtl 0) (hcfg : off ≠ Off.portCfg p) :
    (d.setReg off v).portRate p = d.portRate p := by
  have hctl (s : Nat) : (d.setReg off v).reg (Off.lathCtl s) = d.reg (Off.lathCtl s) :=
    d.reg_setReg_other v (by unfold Off.lathCtl at *; omega)
  have haps (s : Nat) : (d.setReg off v).reg (Off.lathApsCtl s) = d.reg (Off.lathApsCtl s) :=
    d.reg_setReg_other v (by unfold Off.lathCtl Off.lathApsCtl at *; omega)
  have hspan : (d.setReg off v).spanOf p = d.spanOf p := by
    simp only [Device.spanOf, Device.protects, Device.spanEn, Device.flag, Device.fld, hctl, haps, Device.listed_setReg v hlath,
      Device.listed_setReg v (show off < Off.lathApsCtl 0 by unfold Off.lathCtl Off.lathApsCtl at *; omega)]
  simp only [Device.portRate, hspan, Device.spanL, Device.fld, hctl, d.reg_setReg_other v hcfg.symm]

theorem Device.portRate_congr (h : t.regs = d.regs) : t.portRate p = d.portRate p := by
  simp only [Device.portRate, Device.spanOf, Device.protects, Device.spanEn, Device.spanL, Device.flag, Device.fld, Device.reg,
    Device.listed, h]

/-- The candidate tags of a port stand in its scheduler alone. -/
theorem Device.tags_eq (d : Device) (p : Nat) : d.tags p = { d with scheds := (d.tags p).scheds } :=
  (Device.SchedOnly.refl p d).tags.2

@[simp] theorem Device.port_tags (d : Device) (p q : Nat) : (d.tags p).port q = d.port q := by rw [d.tags_eq p]; rfl

@[simp] theorem Device.flag_tags (d : Device) (p off n : Nat) : (d.tags p).flag off n = d.flag off n := by rw [d.tags_eq p]; rfl

/-- The clock and the rate of a port stay. -/
def Device.PaceKept (p : Nat) (d t : Device) : Prop := t.transit = d.transit ∧ t.portRate p = d.portRate p

namespace Device.PaceKept

theorem refl (p : Nat) (d : Device) : d.PaceKept p d := ⟨rfl, rfl⟩

theorem of_eq {u : Device} (h : d.PaceKept p t) (hplumb : u.plumb = t.plumb) (hregs : u.regs = t.regs) : d.PaceKept p u := by
  obtain ⟨htime, hrate⟩ := h
  exact ⟨by rw [Device.transit, hplumb, ← Device.transit, htime], by rw [Device.portRate_congr hregs, hrate]⟩

theorem setReg {v : Nat} (h : d.PaceKept p t) (ho : off < Off.lathCtl 0 ∧ off ≠ Off.portCfg p) : d.PaceKept p (t.setReg off v) := by
  obtain ⟨htime, hrate⟩ := h
  exact ⟨htime, by rw [Device.portRate_setReg v ho.1 ho.2, hrate]⟩

theorem setFlag {n : Nat} {v : Bool} (h : d.PaceKept p t) (ho : off < Off.lathCtl 0 ∧ off ≠ Off.portCfg p) :
    d.PaceKept p (t.setFlag off n v) := h.setReg ho

theorem bump {n : Nat} (h : d.PaceKept p t) (ho : off < Off.lathCtl 0 ∧ off ≠ Off.portCfg p) : d.PaceKept p (t.bump off n) :=
  h.setReg ho

theorem bump64 {n : Nat} (h : d.PaceKept p t) (ho : off < Off.lathCtl 0 ∧ off ≠ Off.portCfg p)
    (ho4 : off + 4 < Off.lathCtl 0 ∧ off + 4 ≠ Off.portCfg p) : d.PaceKept p (t.bump64 off n) := by
  unfold Device.bump64 Device.setReg64
  exact (h.setReg ho).setReg ho4

theorem modPort {f : Port → Port} (h : d.PaceKept p t) : d.PaceKept p (t.modPort p f) := h.of_eq rfl rfl

theorem occPort {k n : Nat} {cls : Option Nat} (h : d.PaceKept p t) : d.PaceKept p (t.occPort k n cls p) := h.of_eq rfl rfl

theorem tags (h : d.PaceKept p t) : d.PaceKept p (t.tags p) := by
  rw [t.tags_eq p]
  exact h.of_eq rfl rfl

theorem portStatus_apart (hp : p < 512) : Off.portStatus p < Off.lathCtl 0 ∧ Off.portStatus p ≠ Off.portCfg p := by
  unfold Off.portStatus Off.lathCtl Off.portCfg
  omega

theorem unpause (h : d.PaceKept p t) (hp : p < 512) : d.PaceKept p (t.unpause p c) := by
  unfold Device.unpause
  split
  · exact h
  · exact (h.setFlag (portStatus_apart hp)).modPort.tags

theorem pauseClass {q : Nat} (h : d.PaceKept p t) (hp : p < 512) : d.PaceKept p (t.pauseClass p c q) := by
  unfold Device.pauseClass
  split
  · exact h.unpause hp
  · exact (h.setFlag (portStatus_apart hp)).modPort.tags

end Device.PaceKept

/-! ### The pause of one class -/

theorem Device.flag_eq_testBit (d : Device) (off n : Nat) : d.flag off n = (d.reg off).testBit n := by
  rw [Device.flag, Device.fld, bits, show n + 1 - n = 1 by omega, Nat.testBit_eq_decide_div_mod_eq]
  rfl

/-- The classes that a port shows as paused by the partner. -/
theorem Device.bit_paused (d : Device) (off : Nat) (hc : c < 8) : bit (d.fld off 15 8) c = d.flag off (8 + c) := by
  rw [Device.flag_eq_testBit, bit, Device.fld, bits, Nat.testBit_mod_two_pow, Nat.testBit_div_two_pow, Nat.add_comm c 8]
  simp [hc]

theorem Device.unpause_idle (hc : c < 8) (h : d.flag (Off.portStatus p) (8 + c) = false) : d.unpause p c = d :=
  if_pos (by rw [d.bit_paused _ hc, h]; rfl)

theorem Device.unpause_paused (hc : c < 8) (h : d.flag (Off.portStatus p) (8 + c) = true) :
    (d.unpause p c).flag (Off.portStatus p) (8 + c) = false ∧ NMap.get? ((d.unpause p c).port p).pauseEnd c = none := by
  have hpaused : ¬ (!bit (d.fld (Off.portStatus p) 15 8) c) = true := by simp [d.bit_paused _ hc, h]
  rw [Device.unpause, if_neg hpaused]
  refine ⟨?_, by simp⟩
  rw [Device.flag_tags, Device.flag_modPort, Device.flag_setFlag_self _ _ _ (by omega)]

theorem Device.flag_unpause (hc : c < 8) : (d.unpause p c).flag (Off.portStatus p) (8 + c) = false := by
  cases h : d.flag (Off.portStatus p) (8 + c) with
  | false => rw [Device.unpause_idle hc h, h]
  | true => exact (Device.unpause_paused hc h).1

theorem Device.pauseClass_pauses {q : Nat} (hc : c < 8) (hq : 0 < q) :
    (d.pauseClass p c q).flag (Off.portStatus p) (8 + c) = true ∧
      NMap.get? ((d.pauseClass p c q).port p).pauseEnd c = some (d.transit + ceilDiv (q * 512) (max 1 (d.portRate p))) := by
  rw [Device.pauseClass, if_neg (by omega)]
  refine ⟨?_, by simp⟩
  rw [Device.flag_tags, Device.flag_modPort, Device.flag_setFlag_self _ _ _ (by omega)]

/-- Class `c` of the port is paused, and until when, as before. -/
def Device.ClassKept (p c : Nat) (d t : Device) : Prop :=
  t.flag (Off.portStatus p) (8 + c) = d.flag (Off.portStatus p) (8 + c) ∧
    NMap.get? (t.port p).pauseEnd c = NMap.get? (d.port p).pauseEnd c

theorem Device.classKept_change {x : Nat} {v : Bool} {f : Port → Port} (hx : x < 8) (hne : c ≠ x)
    (hf : NMap.get? (f (d.port p)).pauseEnd c = NMap.get? (d.port p).pauseEnd c) :
    d.ClassKept p c (((d.setFlag (Off.portStatus p) (8 + x) v).modPort p f).tags p) := by
  refine ⟨?_, ?_⟩
  · rw [Device.flag_tags, Device.flag_modPort, Device.flag, Device.setFlag,
      Device.fld_setFld_apart _ _ _ (by omega) (by omega) (by omega), Device.flag]
  · rw [Device.port_tags, Device.port_modPort_self]
    exact hf

theorem Device.classKept_unpause {x : Nat} (hx : x < 8) (hne : c ≠ x) : d.ClassKept p c (d.unpause p x) := by
  unfold Device.unpause
  split
  · exact ⟨rfl, rfl⟩
  · exact Device.classKept_change hx hne (NMap.get?_del_other _ hne)

theorem Device.classKept_pauseClass {x q : Nat} (hx : x < 8) (hne : c ≠ x) : d.ClassKept p c (d.pauseClass p x q) := by
  unfold Device.pauseClass
  split
  · exact Device.classKept_unpause hx hne
  · exact Device.classKept_change hx hne (NMap.get?_set_other _ _ hne)

/-! ### A MAC control frame (R237, R309) -/

variable {b : List Byte}

theorem Device.reg_bump64_other (d : Device) {o : Nat} (n : Nat) (h : o ≠ off ∧ o ≠ off + 4) : (d.bump64 off n).reg o = d.reg o := by
  rw [Device.bump64, Device.setReg64, Device.reg_setReg_other _ _ h.2, Device.reg_setReg_other _ _ h.1]

/-- The port once it has counted a good frame that its MAC consumes. -/
def Device.rxCounted (d : Device) (p : Nat) (b : List Byte) : Device :=
  (((d.bump64 (Off.portRxFramesLo p) 1).bump64 (Off.portRxBytesLo p) b.length).occPort 0x001 1 (some (d.arrivalClass p b)) p).occPort
    0x002 b.length (some (d.arrivalClass p b)) p

theorem Device.macOwn_good (h : d.rxVerdict p b false = .good) : d.macOwn p b = (d.rxCounted p b, true) := by
  rw [Device.macOwn, h]
  rfl

theorem Device.reg_rxCounted_other (h : off < Off.portRxFramesLo p ∨ Off.portRxBytesLo p + 4 < off) :
    (d.rxCounted p b).reg off = d.reg off := by
  unfold Off.portRxFramesLo Off.portRxBytesLo at h
  have hbytes := (d.bump64 (Off.portRxFramesLo p) 1).reg_bump64_other b.length (off := Off.portRxBytesLo p) (o := off)
    (by unfold Off.portRxBytesLo; omega)
  exact hbytes.trans (d.reg_bump64_other 1 (by unfold Off.portRxFramesLo; omega))

/-- The port once it has counted a PFC frame and the bits of its mask that it ignores. -/
def Device.pfcCounted (d : Device) (p : Nat) (b : List Byte) : Device :=
  (((d.disarm p).rxCounted p b).bump (Off.portPfcRx p) 1).bump (Off.portPauseIgnored p)
    (popcount 8 (fieldBE b 16 2 % 256 &&& (255 ^^^ d.fld (Off.portPfc p) 14 8 % 128)))

/-- What a PFC frame asks for one class, where the port honours it. -/
def Device.honour (p : Nat) (b : List Byte) (en : Nat) (t : Device) (c : Nat) : Device :=
  if bit (fieldBE b 16 2 % 256) c && bit en c then t.pauseClass p c (fieldBE b (18 + 2 * c) 2) else t

theorem Device.pfcReceive_pause (hopen : d.rxOpen p = true) (hmac : isMacControl b = true) (hv : d.rxVerdict p b false = .good)
    (hop : fieldBE b 14 2 = 1) : d.pfcReceive p b = ((d.disarm p).rxCounted p b).bump (Off.portPauseIgnored p) 1 := by
  have hv' : (d.disarm p).rxVerdict p b false = .good := hv
  simp [Device.pfcReceive, hopen, hmac, Device.macOwn_good hv', hop]

theorem Device.pfcReceive_pfc (hopen : d.rxOpen p = true) (hmac : isMacControl b = true) (hv : d.rxVerdict p b false = .good)
    (hop : fieldBE b 14 2 = 0x0101) :
    d.pfcReceive p b = (List.range 7).foldl (Device.honour p b (d.fld (Off.portPfc p) 14 8)) (d.pfcCounted p b) := by
  have hv' : (d.disarm p).rxVerdict p b false = .good := hv
  have hen : (((d.disarm p).rxCounted p b).bump (Off.portPfcRx p) 1).fld (Off.portPfc p) 14 8 = d.fld (Off.portPfc p) 14 8 := by
    refine Device.fld_congr ?_
    rw [Device.reg_bump_other _ _ (by unfold Off.portPfc Off.portPfcRx; omega),
      Device.reg_rxCounted_other (.inl (by unfold Off.portPfc Off.portRxFramesLo; omega))]
    rfl
  simp only [Device.pfcReceive, hopen, hmac, Device.macOwn_good hv', hop, hen, Device.pfcCounted]
  rfl

theorem Device.paceKept_pfcCounted (hp : p < 512) : d.PaceKept p (d.pfcCounted p b) := by
  have hdisarm : d.PaceKept p (d.disarm p) := (Device.PaceKept.refl p d).modPort
  have hframes : d.PaceKept p ((d.disarm p).bump64 (Off.portRxFramesLo p) 1) := by
    refine hdisarm.bump64 ?_ ?_ <;> unfold Off.portRxFramesLo Off.lathCtl Off.portCfg <;> omega
  have hbytes : d.PaceKept p (((d.disarm p).bump64 (Off.portRxFramesLo p) 1).bump64 (Off.portRxBytesLo p) b.length) := by
    refine hframes.bump64 ?_ ?_ <;> unfold Off.portRxBytesLo Off.lathCtl Off.portCfg <;> omega
  have hcounted : d.PaceKept p ((d.disarm p).rxCounted p b) := hbytes.occPort.occPort
  have hpfc : d.PaceKept p (((d.disarm p).rxCounted p b).bump (Off.portPfcRx p) 1) :=
    hcounted.bump (by unfold Off.portPfcRx Off.lathCtl Off.portCfg; omega)
  exact hpfc.bump (by unfold Off.portPauseIgnored Off.lathCtl Off.portCfg; omega)

/-- What a PFC frame does to one class that it names and the port honours: its own pause alone bears on it. -/
theorem Device.pfc_reaches {en : Nat} {u : Device} {Q : Device → Prop} (hp : p < 512) (hc : c < 7)
    (hmask : bit (fieldBE b 16 2 % 256) c = true) (hen : bit en c = true) (hu : d.PaceKept p u)
    (hQ : ∀ t, d.PaceKept p t → Q (t.pauseClass p c (fieldBE b (18 + 2 * c) 2)))
    (hkeep : ∀ t t', t.ClassKept p c t' → Q t → Q t') : Q ((List.range 7).foldl (Device.honour p b en) u) := by
  refine foldl_reaches (I := d.PaceKept p) (c := c) ?_ ?_ ?_ hu (.inl (List.mem_range.mpr hc))
  · intro t x ht
    unfold Device.honour
    split
    · exact ht.pauseClass hp
    · exact ht
  · intro t ht
    rw [Device.honour, hmask, hen]
    exact hQ t ht
  · intro t x hx hne ht
    have hx' : x < 7 := List.mem_range.mp hx
    unfold Device.honour
    split
    · exact hkeep _ _ (Device.classKept_pauseClass (by omega) hne.symm) ht
    · exact ht

/-! ### A PFC frame of the port's own (R309) -/

/-- Of the registers, a frame of the port's own changes the counts of frames sent alone; the clock stays. -/
theorem Device.sendOwn_kept (h : off < Off.portTxFramesLo p ∨ Off.portTxBytesLo p + 4 < off) :
    (d.sendOwn p b).reg off = d.reg off ∧ (d.sendOwn p b).transit = d.transit := by
  have hcounted : ((d.bump64 (Off.portTxFramesLo p) 1).bump64 (Off.portTxBytesLo p) b.length).reg off = d.reg off := by
    unfold Off.portTxFramesLo Off.portTxBytesLo at h
    rw [Device.reg_bump64_other _ _ (by unfold Off.portTxBytesLo; omega), Device.reg_bump64_other _ _ (by unfold Off.portTxFramesLo; omega)]
  unfold Device.sendOwn Device.notIdle
  split
  · exact ⟨rfl, rfl⟩
  · split
    · exact ⟨hcounted, rfl⟩
    · exact ⟨hcounted, rfl⟩

theorem Device.sendPfc_sends {mask : Nat} {time : Nat → Nat} (hc : c < 8) (hmask : bit mask c = true) :
    NMap.get? ((d.sendPfc p mask time).port p).pfcSent c = some d.transit ∧
      (d.sendPfc p mask time).reg (Off.portPfcTx p) = sat32 (d.reg (Off.portPfcTx p) + 1) := by
  obtain ⟨hreg, htime⟩ := Device.sendOwn_kept (d := d) (p := p) (b := d.pfcFrame p mask time) (off := Off.portPfcTx p)
    (.inr (by unfold Off.portTxBytesLo Off.portPfcTx; omega))
  refine ⟨?_, ?_⟩
  · rw [Device.sendPfc, Device.port_modPort_self]
    refine foldl_reaches (I := fun _ => True) (Q := fun m => NMap.get? m c = some d.transit) (c := c) (fun _ _ _ => trivial)
      (fun m _ => ?_) (fun m x _ hne hm => ?_) trivial (.inl (List.mem_range.mpr hc))
    · rw [if_pos hmask, NMap.get?_set_self]
      exact congrArg some htime
    · split
      · rw [NMap.get?_set_other _ _ hne.symm, hm]
      · exact hm
  · exact (Device.reg_bump_self ..).trans (by rw [hreg])

/-- The classes that a port asserts and whose last frame is half a pause old. -/
def Device.pfcDueMask (d : Device) (p : Nat) : Nat :=
  ((List.range 8).filter fun c => bit (d.fld (Off.portStatus p) 7 0) c && decide (NMap.getD (d.port p).pfcSent c 0 +
    d.fld (Off.portPfc p) 31 16 * 256 / max 1 (d.portRate p) ≤ d.transit)).foldl (fun a c => a + 2 ^ c) 0

theorem Device.pfcRefresh_sends (hsq : d.pwr.squelch = false) (hup : d.portUp p = true) (hdue : bit (d.pfcDueMask p) c = true) :
    d.pfcRefresh p = d.sendPfc p (d.pfcDueMask p) fun _ => d.fld (Off.portPfc p) 31 16 := by
  have hany : d.pfcDueMask p ≠ 0 := by
    intro h
    simp [h, bit] at hdue
  exact if_pos ⟨hany, hup, by rw [hsq]; rfl⟩

end Machine

end Sys2Proof
end

section
set_option Elab.async false
/-! PROOFS. The pause watchdog and the end of a flush (R236, R238, R297), and with them the statement on flow control. -/

namespace Sys2Proof.Machine

variable {d t : Device} {p c : Nat}

/-! ### The watchdog (R238) -/

theorem Device.watchdogTrip_trips {x : Nat} (hfrom : NMap.get? (d.port p).pauseFrom c = some x) (htime : x ≤ d.transit)
    (hon : d.flag Off.bufWd 31 = true) (hwait : d.classWaits p c = true) (hnew : (d.port p).wd.contains c = false) :
    d.watchdogTrip p c =
      ((d.modPort p fun x => { x with wd := x.wd ++ [c] }).tags p).raise (portSource p) Sev.warn Cause.pauseWd p c := by
  unfold Device.watchdogTrip
  simp only [hfrom, hon, htime, hwait, hnew, decide_true, Bool.and_self, Bool.not_false, if_true]

theorem Device.Told.port (h : d.Told t) (q : Nat) : t.port q = d.port q := by rw [h.1]; rfl

theorem Device.watchdogDisarm_disarms (htrip : (d.port p).wd.contains c = true) (hpause : bit (d.fld (Off.portStatus p) 15 8) c = false)
    (htime : NMap.getD (d.port p).unpaused c 0 + 1000000 ≤ d.transit) : ((d.watchdogDisarm p c).port p).wd.contains c = false := by
  unfold Device.watchdogDisarm
  simp only [htrip, hpause, htime, decide_true, Bool.and_self, Bool.not_false, if_true, Device.port_tags, Device.port_modPort_self,
    List.contains_eq_mem, List.mem_filter, ne_eq, not_true_eq_false, decide_false, Bool.false_eq_true, and_false]

/-! ### The end of a flush (R236, R297) -/

theorem Device.flushComplete_ends (h : (d.port p).flushing = true) :
    d.flushComplete p = (d.modPort p fun x => { x with flushing := false }).portUpCheck p := if_pos h

/-- Settles O16: each clause by what the port and its registers are after its operation. -/
theorem flowControl : Obligations.FlowControl := by
  unfold Obligations.FlowControl
  refine ⟨?pause, ?resume, ?ignored, ?expiry, ?refresh, ?trip, ?disarm, ?flushed, ?up⟩
  case pause =>
    intro port bytes c d w hopen hmac hv hop hc hmask hen hq
    refine runs_of_exec (exec_to rfl (Device.pfcReceive_pfc hopen hmac hv hop)) ?_
    refine Device.pfc_reaches (Q := fun t => t.flag (Off.portStatus port) (8 + c) = true ∧ NMap.get? (t.port port).pauseEnd c = some
      (d.transit + ceilDiv (fieldBE bytes (18 + 2 * c) 2 * 512) (max 1 (d.portRate port)))) port.isLt hc hmask hen
      (Device.paceKept_pfcCounted port.isLt) ?_ ?_
    · rintro t ⟨htime, hrate⟩
      rw [← htime, ← hrate]
      exact Device.pauseClass_pauses (by omega) hq
    · rintro t t' ⟨hflag, hend⟩ ⟨hpaused, hstop⟩
      exact ⟨hflag.trans hpaused, hend.trans hstop⟩
  case resume =>
    intro port bytes c d w hopen hmac hv hop hc hmask hen hq
    refine runs_of_exec (exec_to rfl (Device.pfcReceive_pfc hopen hmac hv hop)) ?_
    refine Device.pfc_reaches (Q := fun t => t.flag (Off.portStatus port) (8 + c) = false) port.isLt hc hmask hen
      (Device.paceKept_pfcCounted port.isLt) ?_ ?_
    · intro t _
      rw [Device.pauseClass, if_pos hq]
      exact Device.flag_unpause (by omega)
    · rintro t t' ⟨hflag, -⟩ hclear
      exact hflag.trans hclear
  case ignored =>
    intro port bytes d w hopen hmac hv hop
    refine runs_of_exec (exec_to rfl (Device.pfcReceive_pause hopen hmac hv hop)) ?_
    rw [Device.reg_bump_self, Device.reg_rxCounted_other (.inr (by unfold Off.portRxBytesLo Off.portPauseIgnored; omega))]
    rfl
  case expiry =>
    intro port cls x d w hend htime hpaused
    have hexpiry : d.pauseExpiry port cls = d.unpause port cls := by
      unfold Device.pauseExpiry
      rw [hend]
      exact if_pos htime
    exact runs_of_exec (exec_to rfl hexpiry) (Device.unpause_paused cls.isLt hpaused)
  case refresh =>
    intro port c d w hsq hup hc hon htime
    have hdue : bit (d.pfcDueMask port) c = true := by
      rw [bit, Device.pfcDueMask, (testBit_mask _ 8 c).1]
      simp [hc, hon, htime]
    exact runs_of_exec (exec_to rfl (Device.pfcRefresh_sends hsq hup hdue)) (Device.sendPfc_sends hc hdue)
  case trip =>
    intro port cls x d w hfrom htime hon hwait hnew
    have hsource : portSource port < 512 := by unfold portSource; omega
    refine runs_of_exec (exec_to rfl (Device.watchdogTrip_trips hfrom htime hon hwait hnew)) ?_
    rw [((Device.Told.refl _).raise hsource).port, Device.port_tags, Device.port_modPort_self]
  case disarm =>
    exact fun port cls d w htrip hpause htime => runs_of_exec rfl (Device.watchdogDisarm_disarms htrip hpause htime)
  case flushed =>
    intro port d w hflush
    refine runs_of_exec (exec_to rfl (Device.flushComplete_ends hflush)) ?_
    cases hcomes : (d.modPort port fun x => { x with flushing := false }).comesUp port with
    | false => rw [Device.portUpCheck_stays hcomes, Device.port_modPort_self]
    | true => exact (Device.linkUp_portUpCheck port.isLt hcomes).2
  case up =>
    intro port d w hflush hmac hdown hbring haligned hfault hlock
    refine runs_of_exec (exec_to rfl (Device.flushComplete_ends hflush)) (Device.linkUp_portUpCheck port.isLt ?_).1
    simp only [Device.comesUp, Device.port_modPort_self, hbring, haligned, hfault, beq_self_eq_true, Bool.not_false, Bool.and_true,
      Bool.and_eq_true, Bool.not_eq_true']
    exact ⟨⟨hmac, hdown⟩, hlock⟩

end Sys2Proof.Machine
end

section
set_option Elab.async false
/-! PROOFS. The cap of a class bucket (R262). `Device.burstOf` counts in 2^−16 byte, the unit of the tokens; the statement multiplies it by
2^16 again, so that the cap it claims is 2^16 times the burst. A bucket that its refills fill shows the difference. -/

namespace Sys2Proof.Machine

/-- A port whose class 0 is shaped. -/
def shapedPort : Fin 512 := 8

/-- Its class 0 is shaped to 1,000 Mbit/s in CREDIT mode, with BURST 0 and an empty bucket, and 1,000 refills of 125 ns have come due. -/
def emptyBucket : Device :=
  { Device.reset with plumb := { Device.reset.plumb with transit := 125000 } }.setReg (Off.schedShapeRate shapedPort 0) (2 ^ 31 + 1000)

theorem emptyBucket_due : emptyBucket.transit / 125 = 1000 ∧ (emptyBucket.sched shapedPort).refilled = 0 ∧
    emptyBucket.tokensOf shapedPort 0 = 0 := by
  decide +kernel

/-- The refill takes RATE over and fills the bucket to its burst: RATE / 64 bytes, a frame of 1,522 bytes and 20 bytes more. -/
theorem emptyBucket_refillPort :
    NMap.getD ((emptyBucket.refillPort shapedPort).sched shapedPort).shape 0 0 = 2 ^ 31 + 1000 ∧
      (emptyBucket.refillPort shapedPort).burstOf shapedPort 0 = 1000 * 1024 + (1522 + 20) * 65536 ∧
      (emptyBucket.refillPort shapedPort).tokensOf shapedPort 0 = 1000 * 1024 + (1522 + 20) * 65536 := by
  decide +kernel

/-- Refutes O15 at its clause on bucket refills: `emptyBucket` meets its hypothesis, and for class 0 it claims what 1,000 refills come to,
1,000 × RATE × 1,024 units, where the bucket stops at its burst. -/
theorem not_shapingAndGates : ¬ Obligations.ShapingAndGates := by
  unfold Obligations.ShapingAndGates
  rintro ⟨-, -, hrefill, -⟩
  obtain ⟨hnow, hlast, hempty⟩ := emptyBucket_due
  obtain ⟨hshape, hburst, hfull⟩ := emptyBucket_refillPort
  obtain ⟨-, hclasses⟩ := prop_of_runs (t := emptyBucket.refillPort shapedPort)
    (hrefill shapedPort emptyBucket [] (by rw [hnow, hlast]; decide)) rfl
  have hclaim := List.all_eq_true.mp hclasses 0 (by decide)
  have hon : bit (2 ^ 31 + 1000) 31 = true := by decide
  have hcredit : bit (2 ^ 31 + 1000) 30 = false := by decide
  simp only [Device.bucketOn, hshape, hburst, hfull, hempty, hnow, hlast, hon, hcredit, Bool.not_true, Bool.false_or, Bool.false_and,
    Bool.false_eq_true, if_false, beq_iff_eq] at hclaim
  have hfalse : (1000 * 1024 + (1522 + 20) * 65536 : Int) = 1000 * 1000 * 1024 := hclaim.trans (by decide)
  exact absurd hfalse (by decide)

end Sys2Proof.Machine
end

section
set_option Elab.async false
/-! PROOFS. The notices to the quotes of a port whose verification succeeds (R250, R310). A notice for a seat that is not present is lost and
counted in SEAT_NR_LOST of that seat (R401, R410); a quote's seat is any number in the model, and for one of them that register is the
PORT_STATUS of a port. -/

namespace Sys2Proof

theorem NMap.get?_map_const {α : Type} {v : α} {ks : List Nat} {k : Nat} (h : k ∈ ks) :
    NMap.get? (ks.map fun k => (k, v)) k = some v := by
  induction ks with
  | nil => cases h
  | cons j ks ih =>
    by_cases hj : k = j
    · simp [NMap.get?, hj]
    · simpa [NMap.get?, hj] using ih ((List.mem_cons.mp h).resolve_left hj)

namespace Machine

/-- An active quote of seat `s` on port `p` that has no fit there. -/
def Quote.Unfitted (q : Quote) (s p : Nat) : Prop := q.seat = s ∧ q.active = true ∧ q.names p = true ∧ q.fitOn p = none

/-- `t` has the quotes of `d`, and seat `s`, which is not present in it, has lost `n` notices more, with the count saturated. -/
def Device.Lost (s n : Nat) (d t : Device) : Prop :=
  t.quotes = d.quotes ∧ t.present s = false ∧ t.reg (Off.seatNrLost s) = sat32 (d.reg (Off.seatNrLost s) + n)

/-! ### Notices to a seat that is not present (R401, R410) -/

namespace Device.Lost

variable {d t : Device} {q : Quote} {s p n r k l : Nat}

theorem refl (h : d.present s = false) : d.Lost s 0 d := by
  have hlt := d.reg_lt (Off.seatNrLost s)
  exact ⟨rfl, h, by unfold sat32; omega⟩

theorem takeSeq (h : d.Lost s n t) : d.Lost s n t.takeSeq.1 := h

theorem dropNotice (h : d.Lost s n t) : d.Lost s (n + 1) (t.dropNotice s r k) := by
  obtain ⟨hquotes, habsent, hreg⟩ := h
  refine ⟨hquotes, ?_, ?_⟩
  · show (((t.bump (Off.seatNrLost s) 1).modNring s r fun n => { n with lost := true }).seat s).present = false
    rw [Device.modNring, Device.seat_modSeat_self]
    exact habsent
  · show (t.bump (Off.seatNrLost s) 1).reg (Off.seatNrLost s) = _
    rw [Device.reg_bump_self, hreg]
    unfold sat32
    omega

theorem quoteNotice (h : d.Lost s n t) (hs : q.seat = s) : d.Lost s (n + 1) (t.quoteNotice k q l p) := by
  have habsent : t.takeSeq.1.present s = false := h.takeSeq.2.1
  unfold Device.quoteNotice Device.notice Device.putNotice
  simp only [hs, habsent, Bool.not_false, Bool.true_or, if_true]
  exact h.takeSeq.dropNotice

theorem refitQuote (h : d.Lost s n t) (hget : d.quote k = some q) (hq : q.Unfitted s p) : d.Lost s (n + 1) (t.refitQuote p k) := by
  obtain ⟨hs, hactive, hnames, hfit⟩ := hq
  have hget' : t.quote k = some q := by rw [Device.quote, h.1, ← Device.quote, hget]
  unfold Device.refitQuote
  simp only [hget', hactive, hnames, hfit, Bool.not_true, Bool.or_self, Bool.false_eq_true, if_false, if_true]
  exact h.quoteNotice hs

/-- Each of these quotes loses its notice. -/
theorem refitQuotes {ks : List Nat} (h : d.Lost s n t) (hks : ∀ k ∈ ks, ∃ q, d.quote k = some q ∧ q.Unfitted s p) :
    d.Lost s (n + ks.length) (ks.foldl (fun t k => t.refitQuote p k) t) := by
  induction ks generalizing n t with
  | nil => exact h
  | cons k ks ih =>
    obtain ⟨q, hget, hq⟩ := hks k List.mem_cons_self
    have hrest := ih (h.refitQuote hget hq) fun k hk => hks k (List.mem_cons_of_mem _ hk)
    rw [List.length_cons, Nat.add_comm ks.length, ← Nat.add_assoc]
    exact hrest

end Device.Lost

theorem Device.lost_refitPort {d : Device} {s p : Nat} (habsent : d.present s = false)
    (hquotes : ∀ k ∈ d.quotes.map (·.1), ∃ q, d.quote k = some q ∧ q.Unfitted s p) : d.Lost s d.quotes.length (d.refitPort p) := by
  have hlost := (Device.Lost.refl habsent).refitQuotes hquotes
  rwa [List.length_map, Nat.zero_add] at hlost

/-! ### A port whose quotes are those of such a seat -/

/-- The seat whose SEAT_NR_LOST would lie where PORT_STATUS of port 0 lies. -/
def straySeat : Nat := 8703

theorem seatNrLost_straySeat : Off.seatNrLost straySeat = Off.portStatus 0 := rfl

/-- A quote of that seat on port 0. -/
def strayQuote : Quote :=
  { seat := straySeat, ring := 0, space := 0, key := [], inPort := 8, portA := 0, portB := none, b := 1522, rate := 1, lmin := 64,
    lmax := 1522, dreq := 100000, demote := 5, fits := [], d := 0, claim := 0, active := true, activeAt := 0, tokens := 0, filled := 0,
    release := none, accepted := 0, demoted := 0, discarded := 0, expired := 0, slack := none, residence := 0, xSlack := none,
    xResidence := 0, lastExpiry := none }

theorem strayQuote_unfitted : strayQuote.Unfitted straySeat 0 := ⟨rfl, rfl, rfl, rfl⟩

/-- PORT_STATUS of port 0 with the port up and preemption active: bits 31, 29 to 26 and 24 to 0 are set, and VERIFY_FAIL is clear. -/
def strayStatus : Nat := 2 ^ 31 + (2 ^ 30 - 2 ^ 26) + (2 ^ 25 - 1)

/-- Port 0 is up with that PORT_STATUS, has preemption and its verification enabled, and has sent one verify frame. -/
def verifyingPort : Device :=
  ((Device.reset.setReg (Off.portStatus 0) strayStatus).setReg (Off.portCfg 0) (2 ^ 22 + 2 ^ 21)).modPort 0 fun x =>
    { x with verifySent := 1 }

/-- That block with `n` such quotes. -/
def verifyingQuotes (n : Nat) : Device := { verifyingPort with quotes := (List.range n).map fun k => (k, strayQuote) }

theorem verifyingQuotes_verifying (n : Nat) : (verifyingQuotes n).verifying? 0 = true ∧ ((verifyingQuotes n).port 0).verifySent ≠ 0 :=
  show verifyingPort.verifying? 0 = true ∧ (verifyingPort.port 0).verifySent ≠ 0 by decide +kernel

/-- The block when its port has been marked, and before its quotes are refitted. -/
def verifiedQuotes (n : Nat) : Device :=
  ((verifyingQuotes n).setFlag (Off.portStatus 0) 29 true).modPort 0 fun x => { x with verified := true }

theorem verifiedQuotes_portStatus (n : Nat) : (verifiedQuotes n).reg (Off.portStatus 0) = strayStatus := by
  have hstatus : (verifyingQuotes n).reg (Off.portStatus 0) = strayStatus :=
    show verifyingPort.reg (Off.portStatus 0) = strayStatus by decide +kernel
  rw [verifiedQuotes, Device.reg_modPort, Device.setFlag, Device.reg_setFld_self _ _ _ (by decide) (by decide), hstatus]
  decide

theorem verifiedQuotes_seats (n : Nat) : (verifiedQuotes n).seats = Device.reset.seats := rfl

theorem verifiedQuotes_absent (n : Nat) : (verifiedQuotes n).present straySeat = false := by
  rw [Device.present, Device.seat, verifiedQuotes_seats]
  rfl

theorem verifiedQuotes_quotes (n : Nat) : (verifiedQuotes n).quotes = (List.range n).map fun k => (k, strayQuote) := rfl

theorem verifyingQuotes_verifyAnswered (n : Nat) : (verifyingQuotes n).verifyAnswered 0 = (verifiedQuotes n).refitPort 0 := by
  obtain ⟨hverifying, hsent⟩ := verifyingQuotes_verifying n
  unfold Device.verifyAnswered
  rw [hverifying, bne_iff_ne.mpr hsent]
  rfl

/-- Each of the quotes has lost its notice, and PORT_STATUS has counted it. -/
theorem verifyAnswered_portStatus (n : Nat) : ((verifyingQuotes n).verifyAnswered 0).reg (Off.portStatus 0) = sat32 (strayStatus + n) := by
  have hquotes : ∀ k ∈ (verifiedQuotes n).quotes.map (·.1), ∃ q, (verifiedQuotes n).quote k = some q ∧ q.Unfitted straySeat 0 := by
    intro k hk
    refine ⟨strayQuote, NMap.get?_map_const ?_, strayQuote_unfitted⟩
    simpa [verifiedQuotes_quotes] using hk
  obtain ⟨-, -, hlost⟩ := Device.lost_refitPort (verifiedQuotes_absent n) hquotes
  rw [seatNrLost_straySeat, verifiedQuotes_portStatus, verifiedQuotes_quotes, List.length_map, List.length_range] at hlost
  rw [verifyingQuotes_verifyAnswered, hlost]

theorem verifyAnswered_flag (n : Nat) :
    ((verifyingQuotes n).verifyAnswered 0).flag (Off.portStatus 0) 29 = (bits (sat32 (strayStatus + n)) 29 29 == 1) := by
  rw [Device.flag, Device.fld, verifyAnswered_portStatus]

/-- Refutes O19 at its clause on the answer to a verify frame, which bounds neither the quotes nor their seats: `verifyingQuotes` with
2^25 + 1 quotes meets its hypotheses, and the notices that they lose carry PORT_STATUS from bit 29 over into bit 30. The device has at
most 2^20 quotes (R246, R247), and Seats A and B issue them (R400), whose SEAT_NR_LOST is no PORT_STATUS. -/
theorem not_verificationAndSpread : ¬ Obligations.VerificationAndSpread := by
  unfold Obligations.VerificationAndSpread
  rintro ⟨-, hanswered, -⟩
  have hactive (n : Nat) : ((verifyingQuotes n).verifyAnswered 0).flag (Off.portStatus 0) 29 = true := by
    obtain ⟨hverifying, hsent⟩ := verifyingQuotes_verifying n
    exact (prop_of_runs (t := (verifyingQuotes n).verifyAnswered 0) (hanswered 0 (verifyingQuotes n) [] hverifying hsent) rfl).1
  have hclaim := hactive (2 ^ 25 + 1)
  rw [verifyAnswered_flag] at hclaim
  exact absurd hclaim (by decide)

end Machine

end Sys2Proof
end

section
set_option Elab.async false
/-! PROOFS. A lane that loses lock takes its port down, and the frame that the port is receiving ends as a bad one (R236, R296, R297). The hint
of each of its cut-through copies settles then (R232). The statements speak of every device, so also of one with a copy to a port number
whose count of long frames has the offset of the lane's count of losses of lock. -/

namespace Sys2Proof.Machine

/-- The index at which BUF_HINT_OVER has the offset of LANE_LOL_CNT of lane 0. -/
def lolPort : Nat := 0xFC00

theorem bufHintOver_lolPort : Off.bufHintOver lolPort = Off.laneLolCnt 0 := rfl

/-- A frame of which 64 bytes have come in on port 0. -/
def arrivingFrame : Frame := { Frame.blank 0 (List.replicate 64 0) with place := .out }

/-- A copy that has cut through to that index, longer by now than its hint. -/
def hintedCopy : Copy :=
  { frame := 0, pipe := 0, port := lolPort, cls := 7, quote := none, deadline := 0, egen := 0, m := zeroM, snap := [], edits := [], egEdits := [],
    spray := none, chan := none, cut := none, mirror := none, stage := .mac, cutThrough := true, hint := 0, presentAt := some 0,
    txTime := 0, held := false, pastClose := false }

/-- Port 0 is up and receives that frame. -/
def arrivalCut : Device :=
  ((Device.reset.setFlag (Off.portCfg 0) 31 true).setFlag (Off.portStatus 0) 31 true).modBuf fun b =>
    { b with frames := [(0, arrivingFrame)], nextFrame := 1, copies := [(0, hintedCopy)], nextCopy := 1 }

theorem arrivalCut_lane : arrivalCut.laneAssigned 0 = true ∧
    (arrivalCut.portOfLane 0).all (fun p => !arrivalCut.rxAsleep p || (arrivalCut.port p).rxAsleepAt.isNone) = true := by
  decide +kernel

/-- The register counts the loss of lock, and then the long copy. -/
theorem arrivalCut_lossOfLock :
    arrivalCut.reg (Off.laneLolCnt 0) = 0 ∧ (arrivalCut.laneSignal 0 Device.lossOfLock).reg (Off.laneLolCnt 0) = 2 := by
  decide +kernel

/-- Refutes O17 at its clause on the loss of lock: `arrivalCut` meets its hypotheses, and LANE_LOL_CNT goes from 0 to 2 where the clause
says 1. No port of the device has the number of that copy (R288, R314). -/
theorem not_bringUp : ¬ Obligations.BringUp := by
  unfold Obligations.BringUp
  rintro ⟨-, -, -, -, -, -, -, -, hlock, -⟩
  obtain ⟨hassigned, hawake⟩ := arrivalCut_lane
  obtain ⟨hold, hnew⟩ := arrivalCut_lossOfLock
  obtain ⟨-, -, hcount, -⟩ := prop_of_runs (t := arrivalCut.laneSignal 0 Device.lossOfLock)
    (hlock 0 arrivalCut [] hassigned hawake) rfl
  have hone : 2 = sat32 (0 + 1) := hnew.symm.trans (hcount.trans (by rw [← hold]; rfl))
  exact absurd hone (by decide)

end Sys2Proof.Machine
end

section
set_option Elab.async false
/-! PROOFS. A receive direction whose signal does not return wakes, and the loss of signal takes its port down, with a notice to each of the
port's quotes (R250, R296, R305). The notice of a quote whose seat is none of the device's is counted where `seatNrLost_straySeat` says. -/

namespace Sys2Proof.Machine

/-- PORT_STATUS of port 0 with the port up and bits 25 to 0 set: one count more sets bit 26, RX_ASLEEP. -/
def carryStatus : Nat := 2 ^ 31 + (2 ^ 26 - 1)

/-- Port 0 is up with that PORT_STATUS, `strayQuote` is on it, and its receive direction has waited 2 ms for its signal. -/
def silentPort : Device :=
  let d := ((Device.reset.setFlag (Off.portCfg 0) 31 true).setReg (Off.portStatus 0) carryStatus).modPort 0 fun x =>
    { x with rxAsleepAt := some 0 }
  { d with plumb := { d.plumb with transit := 2000000 }, quotes := [(0, strayQuote)] }

theorem silentPort_waited :
    (silentPort.port 0).rxAsleepAt = some 0 ∧ 0 + 2 * (silentPort.port 0).rxArmed.getD 1 * 1000000 ≤ silentPort.transit := by
  decide +kernel

/-- The port goes down with RX_ASLEEP clear; then the lost notice carries into it. -/
theorem silentPort_rxNoReturn : (silentPort.rxNoReturn 0).rxAsleep 0 = true := by decide +kernel

/-- Refutes O18 at its clause on a signal that does not return: `silentPort` meets its hypotheses, and its receive direction, which the
clause says is awake, shows asleep. Seats A and B issue the quotes (R400), and their SEAT_NR_LOST is no PORT_STATUS. -/
theorem not_laneSleep : ¬ Obligations.LaneSleep := by
  unfold Obligations.LaneSleep
  rintro ⟨-, -, -, -, -, -, -, -, -, -, -, hsilent⟩
  obtain ⟨hsince, hwaited⟩ := silentPort_waited
  obtain ⟨hawake, -⟩ := prop_of_runs (t := silentPort.rxNoReturn 0) (hsilent 0 0 silentPort [] hsince hwaited) rfl
  exact absurd (hawake.symm.trans silentPort_rxNoReturn) (by decide)

end Sys2Proof.Machine
end

section
set_option Elab.async false
/-! PROOFS. Frames of the commands of a port's link: its bring-up, its lanes' sleep and the end of a pause (R291 to R296, R301 to R305,
R309). -/

namespace Sys2Proof.Machine

theorem linkReg_laneTxTap {l : Nat} (hl : l < 1024) : linkReg (Off.laneTxTap l) = true :=
  decide_eq_true (by unfold Off.laneTxTap Off.laneCtl Off.portCfg; omega)

theorem linkReg_laneStatus {l : Nat} (hl : l < 1024) : linkReg (Off.laneStatus l) = true :=
  decide_eq_true (by unfold Off.laneStatus Off.laneCtl Off.portCfg; omega)

theorem linkReg_laneRetrain {l : Nat} (hl : l < 1024) : linkReg (Off.laneRetrain l) = true :=
  decide_eq_true (by unfold Off.laneRetrain Off.laneCtl Off.portCfg; omega)

theorem linkReg_portStatus {p : Nat} (hp : p < 512) : linkReg (Off.portStatus p) = true :=
  decide_eq_true (by unfold Off.laneCtl Off.portCfg Off.portStatus; omega)

/-- The lanes of a port are at most the eight from its own number on. -/
theorem Device.lt_of_mem_lanesOf {d : Device} {p l : Nat} (h : l ∈ d.lanesOf p) : l < p + 8 := by
  obtain ⟨k, hk, rfl⟩ := List.mem_map.mp h
  have hbits : d.fld (Off.portCfg p) 26 25 < 4 := bits_lt _ 26 25
  have hpow : 2 ^ d.fld (Off.portCfg p) 26 25 ≤ 2 ^ 3 := Nat.pow_le_pow_right (by decide) (by omega)
  have hk : k < 2 ^ d.fld (Off.portCfg p) 26 25 := List.mem_range.mp hk
  omega

/-- `t` is `d` but for one port and the registers of lanes and ports. -/
def Device.LinkOnly (p : Nat) (d t : Device) : Prop :=
  t = { d with regs := t.regs, ports := t.ports } ∧ keptAside d.ports t.ports p ∧ d.regsKept t linkReg

namespace Device.LinkOnly

variable {d t : Device} {p l off n v : Nat} {b : Bool}

theorem refl (p : Nat) (d : Device) : d.LinkOnly p d := ⟨rfl, fun _ _ => rfl, fun _ _ => rfl⟩

theorem modPort {f : Port → Port} (h : d.LinkOnly p t) : d.LinkOnly p (t.modPort p f) := by
  obtain ⟨hd, hports, hregs⟩ := h
  exact ⟨by rw [hd]; rfl, hports.set _, hregs⟩

theorem setReg (h : d.LinkOnly p t) (ho : linkReg off = true) : d.LinkOnly p (t.setReg off v) := by
  obtain ⟨hd, hports, hregs⟩ := h
  refine ⟨by rw [hd]; rfl, hports, fun o hn => ?_⟩
  have hne : o ≠ off := by
    rintro rfl
    exact absurd (hn.symm.trans ho) (by decide)
  exact (t.reg_setReg_other v hne).trans (hregs o hn)

theorem setFlag (h : d.LinkOnly p t) (ho : linkReg off = true) : d.LinkOnly p (t.setFlag off n b) := h.setReg ho

theorem bump (h : d.LinkOnly p t) (ho : linkReg off = true) : d.LinkOnly p (t.bump off n) := h.setReg ho

/-- A change of each of the port's lanes. -/
theorem overLanes {f : Device → Nat → Device} (h : d.LinkOnly p t) (hp : p < 512)
    (hf : ∀ u l, l < 1024 → d.LinkOnly p u → d.LinkOnly p (f u l)) : d.LinkOnly p (t.overLanes p f) :=
  List.foldlRecOn (motive := d.LinkOnly p) _ _ h fun u hu l hl => by
    have hlane : l < p + 8 := Device.lt_of_mem_lanesOf hl
    exact hf u l (by omega) hu

theorem setTaps {pre main post : Nat} (h : d.LinkOnly p t) (hl : l < 1024) : d.LinkOnly p (t.setTaps l pre main post) :=
  h.setReg (linkReg_laneTxTap hl)

theorem loadTaps (h : d.LinkOnly p t) (hl : l < 1024) : d.LinkOnly p (t.loadTaps l) := by
  unfold Device.loadTaps
  split
  · exact h.setTaps hl
  · exact h

theorem startAttempt (h : d.LinkOnly p t) (hp : p < 512) : d.LinkOnly p (t.startAttempt p) := by
  unfold Device.startAttempt
  refine (h.overLanes hp fun u l hl hu => ?_).modPort
  exact ((hu.loadTaps hl).bump (linkReg_laneRetrain hl)).setFlag (linkReg_laneStatus hl)

theorem bringUpAttempt (hp : p < 512) (b : Bool) : d.LinkOnly p (d.bringUpAttempt p b) := by
  have hd := refl p d
  unfold Device.bringUpAttempt
  split
  · split
    · exact hd.startAttempt hp
    · exact hd
  · split
    · exact hd.modPort
    · exact hd
  · exact hd

theorem retry (hp : p < 512) : d.LinkOnly p (d.retry p) := by
  unfold Device.retry
  extract_lets x
  split
  · exact (refl p d).startAttempt hp
  · exact refl p d

theorem setTxAsleep (h : d.LinkOnly p t) (hp : p < 512) : d.LinkOnly p (t.setTxAsleep p b) := by
  unfold Device.setTxAsleep
  refine ((h.setFlag (linkReg_portStatus hp)).overLanes hp fun u l hl hu => ?_).modPort
  exact hu.setFlag (linkReg_laneStatus hl)

theorem setRxAsleep (h : d.LinkOnly p t) (hp : p < 512) : d.LinkOnly p (t.setRxAsleep p b) := by
  unfold Device.setRxAsleep
  refine (h.setFlag (linkReg_portStatus hp)).overLanes hp fun u l hl hu => ?_
  exact hu.setFlag (linkReg_laneStatus hl)

theorem txAwake (hp : p < 512) : d.LinkOnly p (d.txAwake p) := by
  unfold Device.txAwake
  split
  · split
    · exact refl p d
    · exact ((refl p d).setTxAsleep hp).modPort
  · exact refl p d

theorem rxAwake (hp : p < 512) : d.LinkOnly p (d.rxAwake p) := by
  unfold Device.rxAwake
  split
  · exact ((refl p d).setRxAsleep hp).modPort
  · exact refl p d

theorem startWake (h : d.LinkOnly p t) : d.LinkOnly p (t.startWake p b) := by
  unfold Device.startWake
  split
  · exact h.modPort
  · exact h

theorem helloExpiry (hp : p < 512) : d.LinkOnly p (d.helloExpiry p) := by
  unfold Device.helloExpiry
  split
  · split
    · exact refl p d
    · exact ((refl p d).setFlag (linkReg_portStatus hp)).modPort.startWake
  · exact refl p d

theorem signalReturn (hl : l < 512) : ∃ p, d.LinkOnly p (d.signalReturn l) := by
  have hstatus (p : Nat) : d.LinkOnly p (d.setFlag (Off.laneStatus l) 4 false) :=
    (refl p d).setFlag (linkReg_laneStatus (by omega))
  unfold Device.signalReturn
  extract_lets t
  split
  · split
    · exact ⟨_, (hstatus _).modPort⟩
    · exact ⟨0, hstatus 0⟩
  · exact ⟨0, hstatus 0⟩

theorem coefficientRequest (hl : l < 512) (coef : Nat) (up : Bool) : ∃ p, d.LinkOnly p (d.coefficientRequest l coef up) := by
  unfold Device.coefficientRequest
  split
  · exact ⟨0, refl 0 d⟩
  · rename_i p _
    refine ⟨p, ?_⟩
    extract_lets t pre main post one answer take
    have hanswer {u : Device} (n : Nat) (hu : d.LinkOnly p u) : d.LinkOnly p (answer u n) := hu.modPort
    have htake (x y z : Int) : d.LinkOnly p (take x y z) := by
      unfold take
      split
      · exact hanswer 1 ((refl p d).setTaps (by omega))
      · exact hanswer 3 (refl p d)
    split
    · exact refl p d
    · split
      · exact htake _ _ _
      · split
        · exact htake _ _ _
        · split
          · exact htake _ _ _
          · exact hanswer 2 (refl p d)

/-- What then changes in the scheduler of the port leaves the link alone. -/
theorem sched {u : Device} (h : d.LinkOnly p t) (hu : t.SchedOnly p u) :
    u = { d with regs := u.regs, ports := u.ports, scheds := u.scheds } ∧ keptAside d.ports u.ports p ∧ d.regsKept u linkReg ∧
      keptAside d.scheds u.scheds p := by
  obtain ⟨ht, hports, hregs⟩ := h
  obtain ⟨hscheds, hu⟩ := hu
  have hsame : t.scheds = d.scheds := by rw [ht]
  refine ⟨by rw [hu, ht], ?_, ?_, hsame ▸ hscheds⟩
  · rw [hu]
    exact hports
  · rw [hu]
    exact hregs

theorem pauseExpiry {c : Nat} (hp : p < 512) :
    d.pauseExpiry p c = { d with regs := (d.pauseExpiry p c).regs, ports := (d.pauseExpiry p c).ports, scheds := (d.pauseExpiry p c).scheds } ∧
      keptAside d.ports (d.pauseExpiry p c).ports p ∧ d.regsKept (d.pauseExpiry p c) linkReg ∧
      keptAside d.scheds (d.pauseExpiry p c).scheds p := by
  have hsame := (refl p d).sched (Device.SchedOnly.refl p d)
  unfold Device.pauseExpiry
  split
  · split
    · unfold Device.unpause
      split
      · exact hsame
      · exact ((refl p d).setFlag (linkReg_portStatus hp)).modPort.sched (Device.SchedOnly.refl p _).tags
    · exact hsame
  · exact hsame

end Device.LinkOnly

/-! ### The lanes of spans (R296, R330) -/

/-- The span that shows the loss of signal of a lane. -/
def Device.spanOfLane (d : Device) (l : Nat) : Option Nat :=
  (d.listed (Off.lathCtl 0) 0x4000 32).find? fun s => d.spanEn s && (d.spanLanes s).contains l

theorem Device.lt_of_mem_listed {d : Device} {base stride count n : Nat} (h : n ∈ d.listed base stride count) : n < count := by
  obtain ⟨q, -, hq⟩ := List.mem_filterMap.mp h
  split at hq
  case isTrue hn =>
    obtain ⟨-, -, hlt⟩ := hn
    cases hq
    exact hlt
  case isFalse => cases hq

theorem Device.spanOfLane_eq_none {d : Device} {l : Nat}
    (h : ((List.range 32).any fun s => d.spanEn s && (d.spanLanes s).contains l) = false) : d.spanOfLane l = none := by
  refine List.find?_eq_none.mpr fun s hs => ?_
  rw [List.any_eq_false] at h
  exact h s (List.mem_range.mpr (Device.lt_of_mem_listed hs))

/-- A signal of a lane of no span. -/
theorem Device.laneSignal_alone {d : Device} {l : Nat} {f : Device → Nat → Device} (h : (f d l).spanOfLane l = none) :
    d.laneSignal l f = f d l := by
  unfold Device.laneSignal
  extract_lets was t
  split
  · rfl
  · show (match t.spanOfLane l with | some s => _ | none => t) = t
    rw [show t.spanOfLane l = none from h]

/-- The registers of the Lath are none of those of the lanes and ports. -/
theorem Device.LinkOnly.spans {d t : Device} {p : Nat} (h : d.LinkOnly p t) (s : Nat) :
    t.spanEn s = d.spanEn s ∧ t.spanLanes s = d.spanLanes s := by
  have hctl : t.reg (Off.lathCtl s) = d.reg (Off.lathCtl s) :=
    h.2.2 _ (decide_eq_false (by unfold Off.lathCtl Off.portCfg; omega))
  have hfld (hi lo : Nat) : t.fld (Off.lathCtl s) hi lo = d.fld (Off.lathCtl s) hi lo := Device.fld_congr hctl
  exact ⟨Device.flag_congr hctl, by rw [Device.spanLanes, Device.spanL, Device.spanFirst, hfld, hfld]; rfl⟩

theorem Device.LinkOnly.laneSignal {d : Device} {p l : Nat} {f : Device → Nat → Device} (h : d.LinkOnly p (f d l))
    (hspan : ((List.range 32).any fun s => d.spanEn s && (d.spanLanes s).contains l) = false) : d.laneSignal l f = f d l := by
  refine Device.laneSignal_alone (Device.spanOfLane_eq_none ?_)
  rw [← hspan]
  congr 1
  funext s
  obtain ⟨hen, hlanes⟩ := h.spans s
  rw [hen, hlanes]

/-- Settles O50: each clause by what its operation changes. -/
theorem framesOfLinks : Obligations.FramesOfLinks := by
  unfold Obligations.FramesOfLinks
  refine ⟨?attempt, ?retry, ?txAwake, ?rxAwake, ?pause, ?hello, ?signal, ?coefficient⟩
  case attempt => exact fun port fallback d w => runs_of_exec rfl (Device.LinkOnly.bringUpAttempt port.isLt fallback)
  case retry => exact fun port d w => runs_of_exec rfl (Device.LinkOnly.retry port.isLt)
  case txAwake => exact fun port d w => runs_of_exec rfl (Device.LinkOnly.txAwake port.isLt)
  case rxAwake => exact fun port d w => runs_of_exec rfl (Device.LinkOnly.rxAwake port.isLt)
  case pause => exact fun port cls d w => runs_of_exec rfl (Device.LinkOnly.pauseExpiry port.isLt)
  case hello => exact fun port d w => runs_of_exec rfl (Device.LinkOnly.helloExpiry port.isLt)
  case signal =>
    intro lane d w hspan
    obtain ⟨p, hlink⟩ := Device.LinkOnly.signalReturn (d := d) lane.isLt
    have hrun : d.laneSignal lane Device.signalReturn = d.signalReturn lane := hlink.laneSignal hspan
    obtain ⟨hd, -, hregs⟩ := hlink
    exact runs_of_exec (exec_to rfl hrun) ⟨hd, hregs⟩
  case coefficient =>
    intro lane coef up d w
    obtain ⟨p, hd, -, hregs⟩ := Device.LinkOnly.coefficientRequest (d := d) lane.isLt coef up
    exact runs_of_exec rfl ⟨hd, hregs⟩

end Sys2Proof.Machine
end

section
set_option Elab.async false
/-! PROOFS. A write of one register: which register an offset of a replicated set names (R518), what its write does (R8), and that
the access itself changes only the counts of events and the island's time (R405, R422). -/

namespace Sys2Proof.Machine

/-! ### The register at an offset (R518) -/

/-- The extent of nested replicated sets: one more than the distance of their last member. -/
def repsExtent : List (Nat × Nat) → Nat
  | [] => 1
  | (n, st) :: rest => n * st + repsExtent rest

theorem lt_repsExtent {reps : List (Nat × Nat)} {x : Nat} (h : onInstance reps x = true) : x < repsExtent reps := by
  induction reps generalizing x with
  | nil =>
    have hx : x = 0 := by simpa [onInstance] using h
    simp [repsExtent, hx]
  | cons a rest ih =>
    obtain ⟨n, st⟩ := a
    simp only [onInstance, Bool.and_eq_true, decide_eq_true_eq] at h
    obtain ⟨hn, hrest⟩ := h
    have hmod := ih hrest
    have hle : x / st * st ≤ n * st := Nat.mul_le_mul_right _ hn.le
    have hx : x / st * st + x % st = x := Nat.div_add_mod' x st
    simp only [repsExtent]
    omega

/-- The register names none of the `n` offsets `st` apart from `b` on: it lies above or below them, or its own instances, a
divisor of `st` apart, fall elsewhere. -/
def RegDef.misses (r : RegDef) (b st n : Nat) : Bool :=
  decide (b + st * n < r.base + st) || decide (r.base + repsExtent r.reps ≤ b) ||
    (match r.reps with
    | [] => false
    | (_, sr) :: rest => decide (0 < sr ∧ st % sr = 0) && !onInstance rest ((b + sr - r.base % sr) % sr))

theorem RegDef.covers_of_misses {r : RegDef} {b st n i : Nat} (h : r.misses b st n = true) (hi : i < n) :
    r.covers (b + st * i) = false := by
  by_contra hcov
  rw [Bool.not_eq_false] at hcov
  simp only [RegDef.covers, Bool.and_eq_true, decide_eq_true_eq] at hcov
  obtain ⟨hbase, hon⟩ := hcov
  have hlast : st * i + st ≤ st * n := Nat.mul_le_mul_left st hi
  have hext := lt_repsExtent hon
  unfold RegDef.misses at h
  rw [Bool.or_eq_true, Bool.or_eq_true, decide_eq_true_eq, decide_eq_true_eq] at h
  obtain (h | h) | h := h
  · omega
  · omega
  · split at h
    · cases h
    · rename_i c sr rest hreps
      rw [hreps] at hon
      simp only [onInstance, Bool.and_eq_true, decide_eq_true_eq] at hon
      rw [Bool.and_eq_true, decide_eq_true_eq, Bool.not_eq_true'] at h
      obtain ⟨⟨hpos, hdvd⟩, hoff⟩ := h
      obtain ⟨k, rfl⟩ := Nat.dvd_of_mod_eq_zero hdvd
      have hplace : (b + sr * k * i - r.base) % sr = (b + sr - r.base % sr) % sr := by
        have hr : r.base = sr * (r.base / sr) + r.base % sr := (Nat.div_add_mod ..).symm
        have hlt : r.base % sr < sr := Nat.mod_lt _ hpos
        have hsum : b + sr * k * i - r.base + sr * (r.base / sr + 1) = b + sr - r.base % sr + sr * (k * i) := by
          rw [Nat.mul_add, Nat.mul_one, ← Nat.mul_assoc]
          omega
        rw [← Nat.add_mul_mod_self_left (b + sr * k * i - r.base) sr (r.base / sr + 1), hsum, Nat.add_mul_mod_self_left]
      rw [hplace, hoff] at hon
      exact absurd hon.2 (by decide)

/-- `r` alone of the register table names offsets of the set of `n`, `st` apart, from `b` on. -/
def aloneAt (r : RegDef) (b st n : Nat) : Bool :=
  (regTable.any fun x => x.base == r.base && decide (x = r)) && regTable.all fun x => x.misses b st n || decide (x = r)

theorem regDef?_of_aloneAt {r : RegDef} {b st n i : Nat} (h : aloneAt r b st n = true) (hi : i < n) (hcov : r.covers (b + st * i) = true) :
    regDef? (b + st * i) = some r := by
  rw [aloneAt, Bool.and_eq_true, List.any_eq_true, List.all_eq_true] at h
  obtain ⟨⟨x, hmem, hx⟩, hall⟩ := h
  obtain rfl : x = r := of_decide_eq_true (Bool.and_eq_true_iff.mp hx).2
  unfold regDef? findReg
  cases hfind : regTable.find? fun y => y.covers (b + st * i) with
  | none => exact absurd (List.find?_eq_none.mp hfind x hmem) (by simp [hcov])
  | some y =>
    have hy := hall y (List.mem_of_find?_eq_some hfind)
    rw [Bool.or_eq_true, decide_eq_true_eq] at hy
    obtain hmiss | rfl := hy
    · exact absurd (List.find?_some hfind) (by simp [RegDef.covers_of_misses hmiss hi])
    · rfl

/-- The outermost instances of a register are its own. -/
theorem RegDef.covers_outer {r : RegDef} {n st k i : Nat} {rest : List (Nat × Nat)} (hreps : r.reps = (n, st) :: rest) (hi : i < n)
    (hk : k < st) (hrest : onInstance rest k = true) : r.covers (r.base + k + st * i) = true := by
  have hdist : r.base + k + st * i - r.base = k + st * i := by omega
  have hst : 0 < st := by omega
  simp only [RegDef.covers, hreps, onInstance, hdist, Nat.add_mul_div_left _ _ hst, Nat.div_eq_of_lt hk, Nat.add_mul_mod_self_left,
    Nat.mod_eq_of_lt hk, hrest, Bool.and_true, Bool.and_eq_true, decide_eq_true_eq]
  omega

/-- The registers of a set that is replicated once. -/
theorem regDef?_instance {r : RegDef} {n st i : Nat} (h : aloneAt r r.base st n = true) (hreps : r.reps = [(n, st)]) (hst : 0 < st)
    (hi : i < n) : regDef? (r.base + st * i) = some r :=
  regDef?_of_aloneAt h hi (RegDef.covers_outer hreps hi hst rfl)

/-! ### The member that an offset names -/

theorem instOf_instance {b st n i : Nat} (hst : 0 < st) (hi : i < n) : instOf b st n (b + st * i) = some i := by
  have hlast : st * i + st ≤ st * n := Nat.mul_le_mul_left st hi
  have hdist : b + st * i - b = st * i := Nat.add_sub_cancel_left ..
  rw [instOf, if_pos ⟨by omega, by omega, by rw [hdist, Nat.mul_mod_right]⟩, hdist, Nat.mul_div_cancel_left _ hst]

theorem instOf_eq_none {b st n off : Nat} (h : off < b ∨ b + st * n ≤ off ∨ (off - b) % st ≠ 0) : instOf b st n off = none :=
  if_neg fun ⟨hle, hlt, hmod⟩ => by omega

/-! ### An access (R8, R405) -/

/-- `d` with other occurrences counted. -/
def Device.counted (d : Device) (o : List Occ) : Device := { d with perf := { d.perf with occ := o } }

@[simp] theorem Device.reg_counted (d : Device) (o : List Occ) (off : Nat) : (d.counted o).reg off = d.reg off := (rfl)

@[simp] theorem Device.fld_counted (d : Device) (o : List Occ) (off hi lo : Nat) : (d.counted o).fld off hi lo = d.fld off hi lo := (rfl)

@[simp] theorem Device.flag_counted (d : Device) (o : List Occ) (off n : Nat) : (d.counted o).flag off n = d.flag off n := (rfl)

/-- `d` with the time of the island rule counted from `i`. -/
def Device.islandAt (d : Device) (i : Nat) : Device := d.modPwr fun p => { p with islandFrom := i }

section islandAt

variable (d : Device) (i off hi lo n : Nat)

@[simp] theorem Device.reg_islandAt : (d.islandAt i).reg off = d.reg off := (rfl)
@[simp] theorem Device.fld_islandAt : (d.islandAt i).fld off hi lo = d.fld off hi lo := (rfl)
@[simp] theorem Device.flag_islandAt : (d.islandAt i).flag off n = d.flag off n := (rfl)
@[simp] theorem Device.devOwner_islandAt : (d.islandAt i).devOwner = d.devOwner := (rfl)
@[simp] theorem Device.hawk_islandAt : (d.islandAt i).hawk = d.hawk := (rfl)
@[simp] theorem Device.perf_islandAt : (d.islandAt i).perf = d.perf := (rfl)
@[simp] theorem Device.seat_islandAt : (d.islandAt i).seat n = d.seat n := (rfl)
@[simp] theorem Device.sched_islandAt : (d.islandAt i).sched n = d.sched n := (rfl)
@[simp] theorem Device.port_islandAt : (d.islandAt i).port n = d.port n := (rfl)
@[simp] theorem Device.group_islandAt : (d.islandAt i).group n = d.group n := (rfl)
@[simp] theorem Device.running_islandAt : (d.islandAt i).pwr.running = d.pwr.running := (rfl)

end islandAt

theorem Device.islandTrack_eq (d before : Device) : ∃ i, d.islandTrack before = d.islandAt i := by
  unfold Device.islandTrack
  split
  · exact ⟨d.transit, rfl⟩
  · exact ⟨d.pwr.islandFrom, rfl⟩

/-- A write that is taken, of a register that is no half of a pair. -/
theorem Device.regWrite_single {d : Device} {s off v : Nat} {r : RegDef} (hmay : d.mayReach s off = true) (hscratch : Off.devScratch < off)
    (hind : off < Off.indAddr) (hr : regDef? off = some r) (hhalf : r.half = .single) :
    ∃ o i, d.regWrite s off v = ((d.counted o).writeOne ⟨s, false⟩ off v).islandAt i := by
  rw [Device.mayReach, Bool.and_eq_true] at hmay
  obtain ⟨hreach, hmay⟩ := hmay
  obtain ⟨i, hi⟩ := ((d.occSeat 0x702 s off (d.regPart off)).writeOne ⟨s, false⟩ off v).islandTrack_eq d
  refine ⟨_, i, Eq.trans ?_ hi⟩
  have hmay' : (d.occSeat 0x702 s off (d.regPart off)).mayWrite s off = true := hmay
  have hplace : isInd off = false := decide_eq_false (by omega)
  have hno : off ≠ Off.devScratch := by omega
  unfold Device.regWrite Device.busWrite Device.writeReg
  simp [hreach, hplace, hr, hmay', hno, hhalf]

/-- The write of a register at this place is followed by nothing: no learn bucket, no idle time and no pool depends on it. -/
def unfollowed (off : Nat) : Bool :=
  decide (Off.devScratch < off ∧ off < Off.indAddr) && (instOf (Off.flowSpaceLearn 0) 0x40 16 off).isNone &&
    (instOf (Off.portSleep 0) 0x1000 512 off).isNone &&
    !decide ((0x1C00000 ≤ off ∧ off < 0x1C18000) ∨ (0x2400000 ≤ off ∧ off < 0x2600000))

/-- The registers that stand apart from those of the flow spaces, the buffer and the ports. -/
theorem unfollowed_of_place {off : Nat} (hlow : Off.devScratch < off) (hhigh : off < Off.indAddr)
    (hbuf : off < 0x1800000 ∨ 0x1C18000 ≤ off) (hport : off < 0x2400000 ∨ 0x2600000 ≤ off) : unfollowed off = true := by
  have hlearn : instOf (Off.flowSpaceLearn 0) 0x40 16 off = none := instOf_eq_none (by unfold Off.flowSpaceLearn; omega)
  have hsleep : instOf (Off.portSleep 0) 0x1000 512 off = none := instOf_eq_none (by unfold Off.portSleep; omega)
  have hpools : ¬((0x1C00000 ≤ off ∧ off < 0x1C18000) ∨ (0x2400000 ≤ off ∧ off < 0x2600000)) := by omega
  simp [unfollowed, hlow, hhigh, hlearn, hsleep, hpools]

/-- A write that is taken, of a register that is no half of a pair and that nothing follows, does what its role says. -/
theorem Device.regWrite_alone {d : Device} {s off v : Nat} {r : RegDef} (hmay : d.mayReach s off = true) (hplace : unfollowed off = true)
    (hr : regDef? off = some r) (hhalf : r.half = .single) :
    ∃ o i, d.regWrite s off v = ((d.counted o).writeRole ⟨s, false⟩ off v).islandAt i := by
  simp only [unfollowed, Bool.and_eq_true, decide_eq_true_eq, Option.isNone_iff_eq_none, Bool.not_eq_true', decide_eq_false_iff_not] at hplace
  obtain ⟨⟨⟨⟨hlow, hhigh⟩, hlearn⟩, hsleep⟩, hpools⟩ := hplace
  obtain ⟨o, i, hwrite⟩ := Device.regWrite_single (v := v) hmay hlow hhigh hr hhalf
  refine ⟨o, i, hwrite.trans ?_⟩
  rw [Device.writeOne, Device.beforeWrite, hlearn, Device.afterWrite, hsleep]
  exact congrArg (Device.islandAt · i) (if_neg hpools)

/-- The same of a register that the pools follow (R219, R224). -/
theorem Device.regWrite_pools {d : Device} {s off v : Nat} {r : RegDef} (hmay : d.mayReach s off = true)
    (hsleep : instOf (Off.portSleep 0) 0x1000 512 off = none)
    (hpools : (0x1C00000 ≤ off ∧ off < 0x1C18000) ∨ (0x2400000 ≤ off ∧ off < 0x2600000))
    (hr : regDef? off = some r) (hhalf : r.half = .single) :
    ∃ o i, d.regWrite s off v = ((d.counted o).writeRole ⟨s, false⟩ off v).poolsMoved.islandAt i := by
  have hlearn : instOf (Off.flowSpaceLearn 0) 0x40 16 off = none := instOf_eq_none (by unfold Off.flowSpaceLearn; omega)
  obtain ⟨o, i, hwrite⟩ := Device.regWrite_single (v := v) hmay (by unfold Off.devScratch; omega) (by unfold Off.indAddr; omega) hr hhalf
  refine ⟨o, i, hwrite.trans ?_⟩
  rw [Device.writeOne, Device.beforeWrite, hlearn, Device.afterWrite, hsleep]
  exact congrArg (Device.islandAt · i) (if_pos hpools)

/-! ### A write handled by its fields -/

/-- Where no field is flagged and none waits for a start, the register takes the new value and nothing else changes. -/
theorem Device.plainWrite_eq {d : Device} {w : Writer} {off v n : Nat} {skip : List Nat} {r : RegDef} (hr : regDef? off = some r)
    (hboot : r.fields.any (fun f => f.chg == .boot && f.acc == .rw) = false) (hn : d.newValue w off v r skip = (n, false)) :
    d.plainWrite w off v skip = d.setReg off n := by
  have hnone : (r.fields.filter fun f => f.chg == .boot && f.acc == .rw) = [] :=
    List.filter_eq_nil_iff.mpr fun f hf hb => by
      rw [List.any_eq_false] at hboot
      exact hboot f hf hb
  unfold Device.plainWrite Device.bootWrite
  simp [hr, hn, hnone]

theorem isCoatReg_eq_false {off : Nat} {r : RegDef} (hr : regDef? off = some r) (h : r.fields.any (fun f => f.chg == .coat) = false) :
    isCoatReg off = false := by
  rw [isCoatReg, hr]
  exact h

end Sys2Proof.Machine
end

section
set_option Elab.async false
/-! PROOFS. What the registers of guarded writes are, and which role their write has (R290, R219, R496, R336, R406, R400, R265, R503, R435,
R440, R460). -/

namespace Sys2Proof.Machine

/-- The registers whose write has a role of their own, each at one place. -/
def lonePlaces : List Nat :=
  [Off.bufPoolContract, Off.bufPoolRecirc, Off.bufPoolScaf, Off.telemCtl, Off.pwrShedThr, Off.plumbCtl, Off.seatOwner, Off.hawkRaise,
   Off.hawkLogCtl, Off.pwrReqL, Off.darbyFlashCmd, Off.perfCtl, Off.plumbAlarmHi, Off.plumbServoCtl, Off.scafCodeCtl, Off.scafCodeIdx,
   Off.scafCodeDataHi, Off.scafSignal]

theorem roleOf_of_set {off : Nat} {r : RegDef} (hr : regDef? off = some r) (hcoat : r.fields.any (fun f => f.chg == .coat) = false)
    (hlone : off ∉ lonePlaces) : roleOf off = ((roleTraffic off) <|> (roleRest off)).getD .plain := by
  simp only [lonePlaces, List.mem_cons, List.not_mem_nil, or_false, not_or] at hlone
  simp [roleOf, isCoatReg_eq_false hr hcoat, hlone]

/-- None of them lies among the registers of the pipelines, the schedulers, the lanes, the ports, the Lath and the spread. -/
theorem not_lone_of_traffic {off : Nat} (h : 0x1C0000C ≤ off ∧ off < 0x2C00000) : off ∉ lonePlaces := fun hmem => by
  have hout : ∀ x ∈ lonePlaces, x < 0x1C0000C ∨ 0x2C00000 ≤ x := by decide
  have hoff := hout off hmem
  omega

/-! ### LANE_TX_TAP -/

def laneTxTapDef : RegDef :=
  ⟨"LANE_TX_TAP", 0x2000004, [(512, 0x1000)], 0x0, .single, [⟨20, 16, .rw, .live, []⟩, ⟨14, 8, .rw, .live, []⟩, ⟨4, 0, .rw, .live, []⟩]⟩

theorem regDef?_laneTxTap {l : Nat} (hl : l < 512) : regDef? (Off.laneTxTap l) = some laneTxTapDef :=
  regDef?_instance (r := laneTxTapDef) (st := 0x1000) (by decide +kernel) rfl (by decide) hl

theorem roleOf_laneTxTap {l : Nat} (hl : l < 512) : roleOf (Off.laneTxTap l) = .tap l := by
  have htap : instOf (Off.laneTxTap 0) 0x1000 512 (Off.laneTxTap l) = some l := instOf_instance (by decide) hl
  rw [roleOf_of_set (regDef?_laneTxTap hl) rfl (not_lone_of_traffic (by unfold Off.laneTxTap; omega)), roleTraffic, htap]
  rfl

theorem Device.regWrite_laneTxTap {d : Device} {s l v : Nat} (hl : l < 512) (hmay : d.mayReach s (Off.laneTxTap l) = true) :
    ∃ o i, d.regWrite s (Off.laneTxTap l) v = ((d.counted o).writeTaps l v).islandAt i := by
  have hplace : unfollowed (Off.laneTxTap l) = true := by
    unfold Off.laneTxTap
    exact unfollowed_of_place (by unfold Off.devScratch; omega) (by unfold Off.indAddr; omega) (by omega) (by omega)
  have hwrite := Device.regWrite_alone (v := v) hmay hplace (regDef?_laneTxTap hl) rfl
  simpa only [Device.writeRole, roleOf_laneTxTap hl] using hwrite

/-! ### SCHED_GATE_CTL -/

def schedGateCtlDef : RegDef :=
  ⟨"SCHED_GATE_CTL", 0x1E10060, [(512, 0x100)], 0x10, .single,
    [⟨31, 31, .rw, .live, []⟩, ⟨30, 30, .wo, .live, []⟩, ⟨29, 29, .ro, .live, []⟩, ⟨28, 26, .rw, .live, []⟩, ⟨15, 0, .rw, .live, []⟩]⟩

theorem regDef?_schedGateCtl {p : Nat} (hp : p < 512) : regDef? (Off.schedGateCtl p) = some schedGateCtlDef :=
  regDef?_instance (r := schedGateCtlDef) (st := 0x100) (by decide +kernel) rfl (by decide) hp

theorem roleOf_schedGateCtl {p : Nat} (hp : p < 512) : roleOf (Off.schedGateCtl p) = .gateCtl p := by
  have hctl : instOf (Off.schedGateCtl 0) 0x100 512 (Off.schedGateCtl p) = some p := instOf_instance (by decide) hp
  have habove {b st n : Nat} (hb : 0x1E30060 ≤ b) : instOf b st n (Off.schedGateCtl p) = none :=
    instOf_eq_none (.inl (by unfold Off.schedGateCtl; omega))
  have hspan : spanRegOf (Off.schedGateCtl p) = none := if_neg fun ⟨hb, _⟩ => by unfold Off.lathCtl Off.schedGateCtl at hb; omega
  have hbelow : instOf (Off.bufPortHeadroom 0) 0x40 512 (Off.schedGateCtl p) = none :=
    instOf_eq_none (.inr (.inl (by unfold Off.bufPortHeadroom Off.schedGateCtl; omega)))
  rw [roleOf_of_set (regDef?_schedGateCtl hp) rfl (not_lone_of_traffic (by unfold Off.schedGateCtl; omega))]
  simp (disch := decide) [roleTraffic, hctl, habove, hspan, hbelow]

theorem Device.regWrite_schedGateCtl {d : Device} {s p v : Nat} (hp : p < 512) (hmay : d.mayReach s (Off.schedGateCtl p) = true) :
    ∃ o i, d.regWrite s (Off.schedGateCtl p) v = ((d.counted o).writeGateCtl ⟨s, false⟩ p v).islandAt i := by
  have hplace : unfollowed (Off.schedGateCtl p) = true := by
    unfold Off.schedGateCtl
    exact unfollowed_of_place (by unfold Off.devScratch; omega) (by unfold Off.indAddr; omega) (by omega) (by omega)
  have hwrite := Device.regWrite_alone (v := v) hmay hplace (regDef?_schedGateCtl hp) rfl
  simpa only [Device.writeRole, roleOf_schedGateCtl hp] using hwrite

/-! ### The registers of a seat -/

def seatClaimDef : RegDef := ⟨"SEAT_CLAIM", 0x20100C, [(2, 0x1000)], 0x0, .single, [⟨0, 0, .wo, .live, []⟩]⟩

def seatKeepaliveDef : RegDef := ⟨"SEAT_KEEPALIVE", 0x201008, [(2, 0x1000)], 0x0, .single, [⟨31, 0, .wo, .live, []⟩]⟩

theorem regDef?_seatClaim {t : Nat} (ht : t < 2) : regDef? (Off.seatClaim t) = some seatClaimDef :=
  regDef?_instance (r := seatClaimDef) (st := 0x1000) (by decide +kernel) rfl (by decide) ht

theorem regDef?_seatKeepalive {t : Nat} (ht : t < 2) : regDef? (Off.seatKeepalive t) = some seatKeepaliveDef :=
  regDef?_instance (r := seatKeepaliveDef) (st := 0x1000) (by decide +kernel) rfl (by decide) ht

theorem roleOf_seatClaim {t : Nat} (ht : t < 2) : roleOf (Off.seatClaim t) = .claim t := by
  obtain rfl | rfl : t = 0 ∨ t = 1 := by omega
  all_goals decide +kernel

theorem roleOf_seatKeepalive {t : Nat} (ht : t < 2) : roleOf (Off.seatKeepalive t) = .keepalive t := by
  obtain rfl | rfl : t = 0 ∨ t = 1 := by omega
  all_goals decide +kernel

theorem Device.regWrite_seatClaim {d : Device} {s t v : Nat} (ht : t < 2) (hmay : d.mayReach s (Off.seatClaim t) = true) :
    ∃ o i, d.regWrite s (Off.seatClaim t) v = (if bit v 0 && s == t then (d.counted o).claim t else d.counted o).islandAt i := by
  have hplace : unfollowed (Off.seatClaim t) = true := by
    unfold Off.seatClaim
    exact unfollowed_of_place (by unfold Off.devScratch; omega) (by unfold Off.indAddr; omega) (by omega) (by omega)
  have hwrite := Device.regWrite_alone (v := v) hmay hplace (regDef?_seatClaim ht) rfl
  simpa only [Device.writeRole, roleOf_seatClaim ht] using hwrite

theorem Device.regWrite_seatKeepalive {d : Device} {s t v : Nat} (ht : t < 2) (hmay : d.mayReach s (Off.seatKeepalive t) = true) :
    ∃ o i, d.regWrite s (Off.seatKeepalive t) v = ((d.counted o).keepalive t).islandAt i := by
  have hplace : unfollowed (Off.seatKeepalive t) = true := by
    unfold Off.seatKeepalive
    exact unfollowed_of_place (by unfold Off.devScratch; omega) (by unfold Off.indAddr; omega) (by omega) (by omega)
  have hwrite := Device.regWrite_alone (v := v) hmay hplace (regDef?_seatKeepalive ht) rfl
  simpa only [Device.writeRole, roleOf_seatKeepalive ht] using hwrite

/-! ### The registers that stand once -/

section lone

variable {d : Device} {s v : Nat}

def pwrShedThrDef : RegDef := ⟨"PWR_SHED_THR", 0x400024, [], 0x2479848C, .single, [⟨29, 0, .rw, .live, []⟩]⟩

def plumbCtlDef : RegDef := ⟨"PLUMB_CTL", 0x500000, [], 0x0, .single, [⟨31, 31, .rw, .boot, []⟩, ⟨30, 30, .rw, .live, []⟩]⟩

def seatOwnerDef : RegDef := ⟨"SEAT_OWNER", 0x200000, [], 0x0, .single, [⟨1, 0, .rw, .live, [3]⟩]⟩

def perfCtlDef : RegDef := ⟨"PERF_CTL", 0x3000000, [], 0x0, .single, [⟨31, 31, .rw, .live, []⟩, ⟨30, 30, .wo, .live, []⟩]⟩

def hawkRaiseDef : RegDef := ⟨"HAWK_RAISE", 0x100018, [], 0x0, .single, [⟨20, 16, .wo, .live, []⟩, ⟨15, 0, .wo, .live, []⟩]⟩

def hawkLogCtlDef : RegDef :=
  ⟨"HAWK_LOG_CTL", 0x100030, [], 0x0, .single, [⟨31, 31, .wo, .live, []⟩, ⟨23, 16, .ro, .live, []⟩, ⟨8, 0, .ro, .live, []⟩]⟩

def pwrReqLDef : RegDef := ⟨"PWR_REQ_L", 0x400008, [], 0x0, .single, [⟨15, 8, .ro, .live, []⟩, ⟨2, 0, .wo, .live, []⟩]⟩

theorem regDef?_pwrShedThr : regDef? Off.pwrShedThr = some pwrShedThrDef := by decide +kernel

theorem regDef?_plumbCtl : regDef? Off.plumbCtl = some plumbCtlDef := by decide +kernel

theorem Device.regWrite_pwrShedThr (hmay : d.mayReach s Off.pwrShedThr = true) :
    ∃ o i, d.regWrite s Off.pwrShedThr v = ((d.counted o).writeShedThr ⟨s, false⟩ v).islandAt i :=
  have hrole : roleOf Off.pwrShedThr = .shedThr := by decide +kernel
  by simpa only [Device.writeRole, hrole] using Device.regWrite_alone (v := v) hmay (by decide) regDef?_pwrShedThr rfl

theorem Device.regWrite_plumbCtl (hmay : d.mayReach s Off.plumbCtl = true) :
    ∃ o i, d.regWrite s Off.plumbCtl v = ((d.counted o).writePlumbCtl ⟨s, false⟩ v).islandAt i :=
  have hrole : roleOf Off.plumbCtl = .plumbCtl := by decide +kernel
  by simpa only [Device.writeRole, hrole] using Device.regWrite_alone (v := v) hmay (by decide) regDef?_plumbCtl rfl

theorem Device.regWrite_seatOwner (hmay : d.mayReach s Off.seatOwner = true) :
    ∃ o i, d.regWrite s Off.seatOwner v = ((d.counted o).writeOwner v).islandAt i :=
  have hr : regDef? Off.seatOwner = some seatOwnerDef := by decide +kernel
  have hrole : roleOf Off.seatOwner = .owner := by decide +kernel
  by simpa only [Device.writeRole, hrole] using Device.regWrite_alone (v := v) hmay (by decide) hr rfl

theorem Device.regWrite_perfCtl (hmay : d.mayReach s Off.perfCtl = true) :
    ∃ o i, d.regWrite s Off.perfCtl v = ((d.counted o).writePerfCtl ⟨s, false⟩ v).islandAt i :=
  have hr : regDef? Off.perfCtl = some perfCtlDef := by decide +kernel
  have hrole : roleOf Off.perfCtl = .perfCtl := by decide +kernel
  by simpa only [Device.writeRole, hrole] using Device.regWrite_alone (v := v) hmay (by decide) hr rfl

theorem Device.regWrite_hawkRaise (hmay : d.mayReach s Off.hawkRaise = true) :
    ∃ o i, d.regWrite s Off.hawkRaise v = ((d.counted o).softwareEvent v).islandAt i :=
  have hr : regDef? Off.hawkRaise = some hawkRaiseDef := by decide +kernel
  have hrole : roleOf Off.hawkRaise = .hawkRaise := by decide +kernel
  by simpa only [Device.writeRole, hrole] using Device.regWrite_alone (v := v) hmay (by decide) hr rfl

theorem Device.regWrite_hawkLogCtl (hmay : d.mayReach s Off.hawkLogCtl = true) :
    ∃ o i, d.regWrite s Off.hawkLogCtl v = (if bit v 31 then (d.counted o).clearLog else d.counted o).islandAt i :=
  have hr : regDef? Off.hawkLogCtl = some hawkLogCtlDef := by decide +kernel
  have hrole : roleOf Off.hawkLogCtl = .logCtl := by decide +kernel
  by simpa only [Device.writeRole, hrole] using Device.regWrite_alone (v := v) hmay (by decide) hr rfl

theorem Device.regWrite_pwrReqL (hmay : d.mayReach s Off.pwrReqL = true) :
    ∃ o i, d.regWrite s Off.pwrReqL v = ((d.counted o).powerAskL (v % 8)).islandAt i :=
  have hr : regDef? Off.pwrReqL = some pwrReqLDef := by decide +kernel
  have hrole : roleOf Off.pwrReqL = .reqL := by decide +kernel
  by simpa only [Device.writeRole, hrole] using Device.regWrite_alone (v := v) hmay (by decide) hr rfl

end lone

/-! ### The pool sizes -/

/-- The registers of the pool sizes, each one field of 20 bits. -/
theorem regDef?_pool {off : Nat} (h : [Off.bufPoolContract, Off.bufPoolRecirc, Off.bufPoolScaf].contains off = true) :
    ∃ r, regDef? off = some r ∧ r.half = .single ∧ r.fields = [⟨19, 0, .rw, .live, []⟩] := by
  have hall : ∀ o ∈ [Off.bufPoolContract, Off.bufPoolRecirc, Off.bufPoolScaf],
      ((regDef? o).any fun r => r.half == .single && r.fields == [⟨19, 0, .rw, .live, []⟩]) = true := by decide +kernel
  obtain ⟨r, hr, hform⟩ := (Option.any_eq_true _ _).mp (hall off (List.contains_iff_mem.mp h))
  rw [Bool.and_eq_true, beq_iff_eq, beq_iff_eq] at hform
  exact ⟨r, hr, hform⟩

/-- They stand at the beginning of the buffer's registers. -/
theorem pool_place {off : Nat} (h : [Off.bufPoolContract, Off.bufPoolRecirc, Off.bufPoolScaf].contains off = true) :
    0x1C00000 ≤ off ∧ off < 0x1C0000C ∧ off % 4 = 0 := by
  have hall : ∀ o ∈ [Off.bufPoolContract, Off.bufPoolRecirc, Off.bufPoolScaf], 0x1C00000 ≤ o ∧ o < 0x1C0000C ∧ o % 4 = 0 := by decide
  exact hall off (List.contains_iff_mem.mp h)

theorem roleOf_pool {off : Nat} (h : [Off.bufPoolContract, Off.bufPoolRecirc, Off.bufPoolScaf].contains off = true) :
    roleOf off = .pool := by
  have hall : ∀ o ∈ [Off.bufPoolContract, Off.bufPoolRecirc, Off.bufPoolScaf], roleOf o = .pool := by decide +kernel
  exact hall off (List.contains_iff_mem.mp h)

theorem Device.regWrite_pool {d : Device} {s off v : Nat} (h : [Off.bufPoolContract, Off.bufPoolRecirc, Off.bufPoolScaf].contains off = true)
    (hmay : d.mayReach s off = true) : ∃ o i, d.regWrite s off v = ((d.counted o).writePool ⟨s, false⟩ off v).poolsMoved.islandAt i := by
  obtain ⟨hlow, hhigh, -⟩ := pool_place h
  obtain ⟨r, hr, hhalf, -⟩ := regDef?_pool h
  have hsleep : instOf (Off.portSleep 0) 0x1000 512 off = none := instOf_eq_none (.inl (by unfold Off.portSleep; omega))
  have hwrite := Device.regWrite_pools (v := v) hmay hsleep (by omega) hr hhalf
  simpa only [Device.writeRole, roleOf_pool h] using hwrite

end Sys2Proof.Machine
end

section
set_option Elab.async false
/-! PROOFS. What the settling of the pools leaves alone (R219, R224), and what an event leaves alone outside the Hawk's registers and those of
the notice rings (R429 to R436). -/

namespace Sys2Proof.Machine

/-! ### The pools -/

/-- The registers that priority flow control may write: PORT_STATUS, the counts of frames and bytes sent, and PORT_PFC_TX, of whatever
port is named. -/
def pauseReg (o : Nat) : Bool :=
  decide (0x2400000 ≤ o) && (decide (o % 0x1000 = 0x10) || decide (0x110 ≤ o % 0x1000 ∧ o % 0x1000 ≤ 0x11C) || decide (o % 0x1000 = 0x144))

/-- `t` is `d` after the pools have settled, as far as the bring-up of ports, the other registers and the upper bits of PORT_STATUS go. -/
def Device.Settled (d t : Device) : Prop :=
  d.regsKept t pauseReg ∧ (∀ q n, 8 ≤ n → t.flag (Off.portStatus q) n = d.flag (Off.portStatus q) n) ∧
    ∀ q, (t.port q).bring = (d.port q).bring

namespace Device.Settled

variable {d t : Device} {off n v p : Nat} {bs : List Byte}

theorem refl (d : Device) : d.Settled d := ⟨fun _ _ => rfl, fun _ _ _ => rfl, fun _ => rfl⟩

theorem of_eq {u : Device} (h : d.Settled t) (hregs : u.regs = t.regs) (hports : u.ports = t.ports) : d.Settled u := by
  obtain ⟨hkept, hstatus, hbring⟩ := h
  have hreg (o : Nat) : u.reg o = t.reg o := by rw [Device.reg, hregs, ← Device.reg]
  refine ⟨fun o ho => (hreg o).trans (hkept o ho), fun q n hn => (Device.flag_congr (hreg _)).trans (hstatus q n hn), fun q => ?_⟩
  rw [Device.port, hports, ← Device.port, hbring]

theorem modPort {f : Port → Port} (h : d.Settled t) (hf : (f (t.port p)).bring = (t.port p).bring) : d.Settled (t.modPort p f) := by
  obtain ⟨hkept, hstatus, hbring⟩ := h
  refine ⟨hkept, hstatus, fun q => ?_⟩
  by_cases hq : q = p
  · subst hq
    rw [Device.port_modPort_self, hf, hbring]
  · rw [Device.port_modPort_other _ _ hq, hbring]

/-- A count of a port. -/
theorem setReg (h : d.Settled t) (ho : pauseReg off = true) (hstatus : off % 0x1000 ≠ 0x10) : d.Settled (t.setReg off v) := by
  obtain ⟨hkept, hflag, hbring⟩ := h
  refine ⟨fun o hn => ?_, fun q n hn => ?_, hbring⟩
  · have hne : o ≠ off := by
      rintro rfl
      exact absurd (hn.symm.trans ho) (by decide)
    exact (t.reg_setReg_other v hne).trans (hkept o hn)
  · have hne : Off.portStatus q ≠ off := by unfold Off.portStatus; omega
    exact (Device.flag_congr (t.reg_setReg_other v hne)).trans (hflag q n hn)

/-- PORT_STATUS.PAUSED_TX. -/
theorem paused (h : d.Settled t) : d.Settled (t.setFld (Off.portStatus p) 7 0 v) := by
  obtain ⟨hkept, hflag, hbring⟩ := h
  have hplace : pauseReg (Off.portStatus p) = true := by
    have hmod : Off.portStatus p % 0x1000 = 0x10 := by unfold Off.portStatus; omega
    have hlow : 0x2400000 ≤ Off.portStatus p := by unfold Off.portStatus; omega
    simp [pauseReg, hmod, hlow]
  refine ⟨fun o hn => ?_, fun q n hn => Eq.trans ?_ (hflag q n hn), hbring⟩
  · have hne : o ≠ Off.portStatus p := by
      rintro rfl
      exact absurd (hn.symm.trans hplace) (by decide)
    exact (t.reg_setReg_other _ hne).trans (hkept o hn)
  · rw [Device.flag, Device.flag]
    by_cases hq : Off.portStatus q = Off.portStatus p
    · rw [hq, Device.fld_setFld_apart _ _ _ (by omega) (by omega) (.inr (by omega))]
    · rw [Device.fld_setFld_other _ _ _ _ _ _ hq]

theorem notIdle (h : d.Settled t) : d.Settled (t.notIdle p) := by
  unfold Device.notIdle
  split
  · exact h.modPort rfl
  · exact h

/-- A count of 64 bits among those of the port's own traffic. -/
theorem bump64 {k : Nat} (h : d.Settled t) (hk : 0x110 ≤ k ∧ k ≤ 0x118) (hoff : off = 0x2400000 + k + 0x1000 * p) :
    d.Settled (t.bump64 off n) := by
  have hplace {o j : Nat} (hj : 0x110 ≤ j ∧ j ≤ 0x11C) (ho : o = 0x2400000 + j + 0x1000 * p) : pauseReg o = true ∧ o % 0x1000 ≠ 0x10 := by
    have hmod : o % 0x1000 = j := by omega
    have hlow : 0x2400000 ≤ o := by omega
    simp [pauseReg, hmod, hlow, hj]
    omega
  obtain ⟨hlo, hlo'⟩ := hplace (by omega) hoff
  obtain ⟨hhi, hhi'⟩ := hplace (o := off + 4) (j := k + 4) (by omega) (by omega)
  exact (h.setReg hlo hlo').setReg hhi hhi'

theorem sendOwn (h : d.Settled t) : d.Settled (t.sendOwn p bs) := by
  unfold Device.sendOwn
  split
  · exact h
  · have hframes : d.Settled (t.bump64 (Off.portTxFramesLo p) 1) := h.bump64 (k := 0x110) (by omega) rfl
    have hbytes : d.Settled _ := hframes.bump64 (off := Off.portTxBytesLo p) (k := 0x118) (n := bs.length) (by omega) rfl
    have hcounted : d.Settled (((t.bump64 (Off.portTxFramesLo p) 1).bump64 (Off.portTxBytesLo p) bs.length).occPort 0x003 1 none p |>.occPort
      0x004 bs.length none p) := hbytes.of_eq rfl rfl
    exact (hcounted.modPort rfl).notIdle

theorem pfcFlush (h : d.Settled t) : d.Settled (t.pfcFlush p) := by
  unfold Device.pfcFlush
  extract_lets due on
  split
  · exact h
  · have hmod : Off.portPfcTx p % 0x1000 = 0x144 := by unfold Off.portPfcTx; omega
    have hlow : 0x2400000 ≤ Off.portPfcTx p := by unfold Off.portPfcTx; omega
    have hsent (bs : List Byte) : d.Settled ((t.modPort p fun x => { x with pfcDue := 0 }).sendOwn p bs) := (h.modPort rfl).sendOwn
    exact ((hsent _).setReg (by simp [pauseReg, hmod, hlow]) (by omega)).modPort rfl

theorem showPfc (h : d.Settled t) : d.Settled (t.showPfc p) := by
  unfold Device.showPfc
  extract_lets new old t'
  have h' : d.Settled t' := h.paused
  split
  · exact h
  · split
    · exact (h'.modPort rfl).pfcFlush
    · exact h'

theorem releaseOne {a : Nat × Nat} (h : d.Settled t) : d.Settled (t.releaseOne a) := by
  unfold Device.releaseOne
  split
  · exact (h.of_eq (u := t.modBuf _) rfl rfl).showPfc
  · exact h

theorem assertOne {a : Nat × Nat} (h : d.Settled t) : d.Settled (t.assertOne a) := by
  unfold Device.assertOne
  split
  · exact (h.of_eq (u := t.modBuf _) rfl rfl).showPfc
  · exact h

theorem pfcCheck (h : d.Settled t) : d.Settled t.pfcCheck := by
  have hheld : d.Settled _ := List.foldlRecOn (motive := d.Settled) t.buf.asserted Device.releaseOne h fun _ hu _ _ => hu.releaseOne
  exact List.foldlRecOn (motive := d.Settled) _ _ hheld fun _ hu _ _ => hu.assertOne

theorem poolsMoved (h : d.Settled t) : d.Settled t.poolsMoved := by
  have hpools : d.Settled t.settlePools := by
    unfold Device.settlePools
    exact h.of_eq rfl rfl
  exact hpools.pfcCheck

end Device.Settled

/-! ### Events -/

/-- The registers of the Hawk, and those of the two seats' notice rings. -/
def raiseReg (o : Nat) : Bool := decide (0x100000 ≤ o ∧ o < 0x101000) || decide (0x201000 ≤ o ∧ o < 0x203000)

/-- `t` is `d` after notices to the two seats. -/
def Device.Noted (d t : Device) : Prop :=
  t = { d with regs := t.regs, seats := t.seats, perf := t.perf } ∧ d.regsKept t fun o => decide (0x201000 ≤ o ∧ o < 0x203000)

namespace Device.Noted

variable {d t : Device} {off n v s r k l a i : Nat} {b : Bool} {bs : List Byte}

theorem refl (d : Device) : d.Noted d := ⟨rfl, fun _ _ => rfl⟩

theorem modSeat {f : Seat → Seat} (h : d.Noted t) : d.Noted (t.modSeat s f) := ⟨by rw [h.1]; rfl, h.2⟩

theorem occSeat {part : Option Nat} (h : d.Noted t) : d.Noted (t.occSeat k s n part) := ⟨by rw [h.1]; rfl, h.2⟩

theorem modNring {f : NoticeRing → NoticeRing} (h : d.Noted t) : d.Noted (t.modNring s r f) := h.modSeat

theorem setReg (h : d.Noted t) (ho : 0x201000 ≤ off ∧ off < 0x203000) : d.Noted (t.setReg off v) := by
  obtain ⟨ht, hkept⟩ := h
  refine ⟨by rw [ht]; rfl, fun o hn => ?_⟩
  have hne : o ≠ off := by
    rintro rfl
    simp [ho] at hn
  exact (t.reg_setReg_other v hne).trans (hkept o hn)

theorem dropNotice (h : d.Noted t) (hs : s < 2) : d.Noted (t.dropNotice s r n) :=
  have h₁ : d.Noted (t.bump (Off.seatNrLost s) 1) := h.setReg (by unfold Off.seatNrLost; omega)
  h₁.modNring.occSeat

theorem putEntry (h : d.Noted t) (hs : s < 2) (hr : r < 8) : d.Noted (t.putEntry s r n b v k bs) := by
  unfold Device.putEntry
  extract_lets ring tail addr u next
  have hu : d.Noted u := h.modSeat
  have h₁ : d.Noted (u.setFld (Off.seatNrTail s r) 15 0 next) := hu.setReg (by unfold Off.seatNrTail; omega)
  exact h₁.modNring

theorem coalesce (h : d.Noted t) : d.Noted (t.coalesce s r) := by
  have hcount (g) : d.Noted (t.modNring s r g) := h.modNring
  unfold Device.coalesce Device.sendMsix
  extract_lets ring u
  split
  · exact (hcount _).modSeat.modNring
  · exact hcount _

theorem putNotice (h : d.Noted t) (hs : s < 2) (hr : r < 8) : d.Noted (t.putNotice s r n v k bs none b).1 := by
  unfold Device.putNotice
  extract_lets need ring avail t₁ t₂ t₃
  have h₁ : d.Noted t₁ := by
    unfold t₁
    split
    · exact h.modNring
    · exact h
  split
  · exact h.dropNotice hs
  · split
    · exact h.dropNotice hs
    · exact (h₁.putEntry hs hr).occSeat.coalesce

theorem deliver {x : Event} (h : d.Noted t) (hs : s < 2) : d.Noted (t.deliver s x v k) := by
  unfold Device.deliver
  split
  · exact h.putNotice hs (bits_lt _ 5 3)
  · exact h

end Device.Noted

/-- The numbering, the sticky bit, the status and the log of an event, before its notices. -/
def Device.logged (d : Device) (e : Event) : Device :=
  let numbered := d.takeSeq.1.setFlag (Off.hawkSticky (e.src / 32)) (e.src % 32) true
  let shown := if eventSev e.code = Sev.escalated then numbered.setFlag Off.hawkStatus 0 true else numbered
  if eventSev e.code ≥ Sev.fault || shown.srcBit Off.hawkLogmask e.src then
    shown.logEntry ⟨d.takeSeq.2.1, e.src, e.code, e.count, e.dkind, e.dinst, d.takeSeq.2.2, e.arg0⟩ else shown

theorem Device.stampEvent_noted (d : Device) (e : Event) : (d.logged e).Noted (d.stampEvent e) :=
  ((Device.Noted.refl _).deliver (by decide)).deliver (by decide)

/-- What numbering and the sticky bit bring about, and the status and the log keep, holds of an event that is logged. -/
theorem Device.logged_of {P : Device → Prop} {d : Device} {e : Event}
    (hnumbered : P (d.takeSeq.1.setFlag (Off.hawkSticky (e.src / 32)) (e.src % 32) true))
    (hstatus : ∀ u, P u → P (u.setFlag Off.hawkStatus 0 true)) (hlog : ∀ u x, P u → P (u.logEntry x)) : P (d.logged e) := by
  unfold Device.logged
  extract_lets numbered shown
  have hshown : P shown := by
    unfold shown
    split
    · exact hstatus _ hnumbered
    · exact hnumbered
  split
  · exact hlog _ _ hshown
  · exact hshown

theorem Device.reg_logEntry {d : Device} {x : LogEntry} {o : Nat} (ho : o ≠ Off.hawkLogOvf) : (d.logEntry x).reg o = d.reg o := by
  unfold Device.logEntry
  extract_lets h full t
  have ht : t.reg o = d.reg o := by
    unfold t
    split
    · exact d.reg_setReg_other _ ho
    · rfl
  exact ht

theorem Device.seq_stampEvent (d : Device) (e : Event) : (d.stampEvent e).hawk.seq = (d.hawk.seq + 1) % 2 ^ 48 := by
  have hlogged : (d.logged e).hawk.seq = (d.hawk.seq + 1) % 2 ^ 48 :=
    Device.logged_of (P := fun t => t.hawk.seq = (d.hawk.seq + 1) % 2 ^ 48) rfl (fun _ hu => hu) fun _ _ hu => hu
  rw [(d.stampEvent_noted e).1]
  exact hlogged

/-- The sticky bit of an event's source is set (R436). -/
theorem Device.sticky_stampEvent (d : Device) (e : Event) (hsrc : e.src < 16384) :
    (d.stampEvent e).flag (Off.hawkSticky (e.src / 32)) (e.src % 32) = true := by
  have hstatus : Off.hawkSticky (e.src / 32) ≠ Off.hawkStatus := by unfold Off.hawkSticky Off.hawkStatus; omega
  have hovf : Off.hawkSticky (e.src / 32) ≠ Off.hawkLogOvf := by unfold Off.hawkSticky Off.hawkLogOvf; omega
  have hpage : decide (0x201000 ≤ Off.hawkSticky (e.src / 32) ∧ Off.hawkSticky (e.src / 32) < 0x203000) = false :=
    decide_eq_false (by unfold Off.hawkSticky; omega)
  rw [Device.flag_congr ((d.stampEvent_noted e).2 _ hpage)]
  exact Device.logged_of (P := fun t => t.flag (Off.hawkSticky (e.src / 32)) (e.src % 32) = true)
    (Device.flag_setFlag_self _ _ _ (by omega)) (fun u hu => (u.flag_setFlag_other _ _ _ hstatus).trans hu)
    fun u x hu => (Device.flag_congr (Device.reg_logEntry hovf)).trans hu

theorem Device.reg_stampEvent {d : Device} {e : Event} {o : Nat} (hsrc : e.src < 16384) (ho : raiseReg o = false) :
    (d.stampEvent e).reg o = d.reg o := by
  rw [raiseReg, Bool.or_eq_false_iff] at ho
  obtain ⟨hhawk, hseat⟩ := ho
  rw [decide_eq_false_iff_not] at hhawk
  have hne (x : Nat) (hx : 0x100000 ≤ x ∧ x < 0x101000) : o ≠ x := by omega
  rw [(d.stampEvent_noted e).2 o hseat]
  exact Device.logged_of (P := fun t => t.reg o = d.reg o) (Device.reg_setReg_other _ _ (hne _ (by unfold Off.hawkSticky; omega)))
    (fun u hu => (u.reg_setReg_other _ (hne _ (by decide))).trans hu) fun u x hu => (Device.reg_logEntry (hne _ (by decide))).trans hu

/-- An event writes no register but the Hawk's and those of the notice rings. -/
theorem Device.reg_raise {d : Device} {src sev cause arg0 arg1 o : Nat} (hsrc : src < 16384) (ho : raiseReg o = false) :
    (d.raise src sev cause arg0 arg1).reg o = d.reg o := by
  have hmerged : o ≠ Off.hawkMerged := by
    rintro rfl
    exact absurd ho (by decide)
  have hbump (u : Device) (hu : u.reg o = d.reg o) : (u.bump Off.hawkMerged 1).reg o = d.reg o :=
    (u.reg_setReg_other _ hmerged).trans hu
  unfold Device.raise Device.raiseEvent
  extract_lets now fresh
  have hfresh : fresh.reg o = d.reg o := Device.reg_stampEvent hsrc ho
  split
  · exact Device.reg_stampEvent hsrc ho
  · split
    · exact hfresh
    · split
      · exact hbump _ rfl
      · split
        · exact hbump _ rfl
        · exact hfresh
      · exact hfresh

end Sys2Proof.Machine
end

section
set_option Elab.async false
/-! PROOFS. Writes that their rule takes or refuses (R290, R219, R496, R336, R406, R400, R265, R503, R504, R435, R440, R460). -/

namespace Sys2Proof.Machine

/-! ### Fields of the written registers -/

theorem Device.newValue_pool {d : Device} {w : Writer} {off v : Nat} {r : RegDef} (hfields : r.fields = [⟨19, 0, .rw, .live, []⟩]) :
    d.newValue w off v r [] = (setBits (d.reg off) 19 0 (v % 2 ^ 20), false) := by
  simp [Device.newValue, hfields, fieldWrite, Field.takes, bits]

theorem Device.plainWrite_pool {d : Device} {w : Writer} {off v : Nat}
    (h : [Off.bufPoolContract, Off.bufPoolRecirc, Off.bufPoolScaf].contains off = true) :
    d.plainWrite w off v [] = d.setFld off 19 0 (v % 2 ^ 20) := by
  obtain ⟨r, hr, -, hfields⟩ := regDef?_pool h
  exact Device.plainWrite_eq hr (by rw [hfields]; rfl) (Device.newValue_pool hfields)

theorem Device.plainWrite_pwrShedThr {d : Device} {w : Writer} {v : Nat} :
    d.plainWrite w Off.pwrShedThr v [] = d.setFld Off.pwrShedThr 29 0 (bits v 29 0) :=
  Device.plainWrite_eq regDef?_pwrShedThr rfl rfl

/-- The TCLK_SRC bit is taken; MULTI waits for a start (R12). -/
theorem Device.flag_plainWrite_plumbCtl {d : Device} {s v : Nat} :
    (d.plainWrite ⟨s, false⟩ Off.plumbCtl v []).flag Off.plumbCtl 30 = bit v 30 := by
  have hnew : d.newValue ⟨s, false⟩ Off.plumbCtl v plumbCtlDef [] = (setBits (d.reg Off.plumbCtl) 30 30 (bits v 30 30), false) := rfl
  have hregs : (d.plainWrite ⟨s, false⟩ Off.plumbCtl v []).regs = (d.setFld Off.plumbCtl 30 30 (bits v 30 30)).regs := by
    simp only [Device.plainWrite, regDef?_plumbCtl, hnew]
    rfl
  have hreg : (d.plainWrite ⟨s, false⟩ Off.plumbCtl v []).reg Off.plumbCtl = (d.setFld Off.plumbCtl 30 30 (bits v 30 30)).reg Off.plumbCtl := by
    rw [Device.reg, hregs, ← Device.reg]
  rw [Device.flag_congr hreg, Device.flag, Device.fld_setFld_self _ _ _ (by omega) (by omega), bit, Nat.testBit_eq_decide_div_mod_eq, bits,
    Nat.mod_mod]
  rfl

theorem bit_eq_bits (v n : Nat) : bit v n = decide (bits v n n = 1) := by
  rw [bit, Nat.testBit_eq_decide_div_mod_eq, bits, show n + 1 - n = 1 by omega, Nat.pow_one]

theorem Device.setFlag_sched (d : Device) (off n : Nat) (b : Bool) (p : Nat) : (d.setFlag off n b).sched p = d.sched p := rfl

/-- A register written with its own fields shows what it showed. -/
theorem setBits_bits (x hi lo : Nat) : setBits x hi lo (bits x hi lo) = x := by
  rw [setBits_eq, Nat.mod_eq_of_lt (bits_lt x hi lo), bits, Nat.div_add_mod', Nat.div_add_mod']

/-! ### The taps of a lane (R290) -/

theorem Device.fld_setTaps {d : Device} {l pre main post : Nat} (hpre : pre < 32) (hmain : main < 128) (hpost : post < 32) :
    (d.setTaps l pre main post).fld (Off.laneTxTap l) 20 16 = pre ∧ (d.setTaps l pre main post).fld (Off.laneTxTap l) 14 8 = main ∧
      (d.setTaps l pre main post).fld (Off.laneTxTap l) 4 0 = post := by
  unfold Device.setTaps Device.fld
  rw [Device.reg_setReg_self]
  simp only [bits, Nat.reduceAdd, Nat.reduceSub, Nat.reducePow]
  omega

/-! ### The gate list (R265) -/

/-- The admin list as COMMIT takes it comes from the registers, the entries written and the time bases. -/
theorem Device.adminList_congr {d t : Device} {p : Nat} (hreg : ∀ o, t.reg o = d.reg o) (hadmin : (t.sched p).admin = (d.sched p).admin)
    (hplumb : t.plumb = d.plumb) : t.adminList p = d.adminList p := by
  have hfld (o hi lo : Nat) : t.fld o hi lo = d.fld o hi lo := Device.fld_congr (hreg o)
  have htb : t.tbCount = d.tbCount := funext fun n => by
    have hmulti : t.multi = d.multi := Device.flag_congr (hreg _)
    simp only [Device.tbCount, Device.tbNow, Device.tbOfs, Device.tb, Device.reg64, hplumb, hmulti, hreg]
  have hbase : t.reg64 (Off.schedGateBaseLo p) = d.reg64 (Off.schedGateBaseLo p) := by rw [Device.reg64, Device.reg64, hreg, hreg]
  unfold Device.adminList
  rw [hbase, hreg, hfld, hfld, hadmin, htb]

/-- `t` is `d` as far as the registers, the time bases and the written gate entries of a port go. -/
def Device.AdminKept (p : Nat) (d t : Device) : Prop :=
  (∀ o, t.reg o = d.reg o) ∧ (t.sched p).admin = (d.sched p).admin ∧ t.plumb = d.plumb

namespace Device.AdminKept

variable {d t : Device} {p c : Nat}

theorem refl (p : Nat) (d : Device) : d.AdminKept p d := ⟨fun _ => rfl, rfl, rfl⟩

theorem modSched {f : Sched → Sched} (h : d.AdminKept p t) (hf : ∀ s, (f s).admin = s.admin) : d.AdminKept p (t.modSched p f) := by
  obtain ⟨hregs, hadmin, hplumb⟩ := h
  exact ⟨hregs, by rw [Device.sched_modSched_self, hf, hadmin], hplumb⟩

theorem gateBucket (h : d.AdminKept p t) : d.AdminKept p (t.gateBucket p c) := by
  unfold Device.gateBucket
  split
  · exact h.modSched fun _ => rfl
  · exact h

theorem tags (h : d.AdminKept p t) : d.AdminKept p (t.tags p) :=
  List.foldlRecOn (motive := d.AdminKept p) _ _ h fun u hu c _ => by
    split
    · split
      · exact hu
      · exact hu.modSched fun _ => rfl
    · exact hu.modSched fun _ => rfl

theorem preempt (h : d.AdminKept p t) : d.AdminKept p (t.preempt p c) := h

theorem gatesMoved (h : d.AdminKept p t) : d.AdminKept p (t.gatesMoved p) := by
  unfold Device.gatesMoved
  extract_lets old new t₁ t₂ t₃ t₄
  have h₁ : d.AdminKept p t₁ := h.modSched fun _ => rfl
  have h₂ : d.AdminKept p t₂ := List.foldlRecOn (motive := d.AdminKept p) _ _ h₁ fun u hu c _ => by
    split
    · exact hu.gateBucket
    · exact hu
  have h₃ : d.AdminKept p t₃ := h₂
  have h₄ : d.AdminKept p t₄ := h₃.tags
  split
  · exact h
  · split
    · split
      · split
        · exact h₄
        · exact h₄.preempt
      · exact h₄
    · exact h₄

end Device.AdminKept

/-- A write of SCHED_GATE_CTL with its own value changes no register (R8). -/
theorem Device.AdminKept.rewrite {d : Device} {p w : Nat} (hp : p < 512) :
    d.AdminKept p (d.plainWrite ⟨w, false⟩ (Off.schedGateCtl p) (setBits (d.reg (Off.schedGateCtl p)) 30 30 1) []) := by
  have hnew : d.newValue ⟨w, false⟩ (Off.schedGateCtl p) (setBits (d.reg (Off.schedGateCtl p)) 30 30 1) schedGateCtlDef [] =
      (d.reg (Off.schedGateCtl p), false) := by
    simp [Device.newValue, schedGateCtlDef, fieldWrite, Field.takes, bits_setBits_above _ 30 1 _ (show 30 < 31 by omega),
      bits_setBits_below _ 30 1 _ (show 28 < 30 by omega), bits_setBits_below _ 30 1 _ (show 15 < 30 by omega), setBits_bits]
  rw [Device.plainWrite_eq (regDef?_schedGateCtl hp) rfl hnew]
  refine ⟨fun o => ?_, rfl, rfl⟩
  by_cases ho : o = Off.schedGateCtl p
  · rw [ho, Device.reg_setReg_self, Nat.mod_eq_of_lt (d.reg_lt _)]
  · exact d.reg_setReg_other _ ho

theorem Device.adminList_counted (d : Device) (o : List Occ) (p : Nat) : (d.counted o).adminList p = d.adminList p :=
  Device.adminList_congr (Device.reg_counted d o) rfl rfl

/-- COMMIT makes the admin list pending, whatever the gates then do (R265). -/
theorem Device.commit_pend {d : Device} {s p v : Nat} (hp : p < 512) (hfree : d.flag (Off.schedGateCtl p) 29 = false)
    (hv : v = setBits (d.reg (Off.schedGateCtl p)) 30 30 1) :
    (d.writeGateCtl ⟨s, false⟩ p v).flag (Off.schedGateCtl p) 29 = true ∧
      ((d.writeGateCtl ⟨s, false⟩ p v).sched p).pend = some (d.adminList p) := by
  subst hv
  have hcommit : bit (setBits (d.reg (Off.schedGateCtl p)) 30 30 1) 30 = true := by
    rw [bit_eq_bits, bits_setBits_self]
    rfl
  have hwritten := Device.AdminKept.rewrite (d := d) (w := s) hp
  unfold Device.writeGateCtl
  simp only [hfree, hcommit, Bool.false_and, Bool.false_eq_true, if_false, if_true]
  unfold Device.gateCommit
  have hmoved (u : Device) (hu : d.AdminKept p u) :
      ((((u.gatesMoved p).modSched p fun s => { s with pend := some ((u.gatesMoved p).adminList p) }).setFlag (Off.schedGateCtl p) 29
        true).sched p).pend = some (d.adminList p) := by
    obtain ⟨hreg, hadmin, hplumb⟩ := hu.gatesMoved
    rw [← Device.adminList_congr hreg hadmin hplumb]
    rw [Device.setFlag_sched, Device.sched_modSched_self]
  refine ⟨Device.flag_setFlag_self _ _ _ (by omega), hmoved _ ?_⟩
  split
  · exact hwritten
  · exact hwritten.modSched fun _ => rfl

/-! ### FREEZE and SNAP (R503, R504) -/

def Device.withPerf (d : Device) (p : Perf) : Device := { d with perf := p }

theorem Device.flag_withPerf (d : Device) (p : Perf) (off n : Nat) : (d.withPerf p).flag off n = d.flag off n := rfl

theorem Device.freeze_eq (d : Device) (on : Bool) :
    d.freeze on = (d.setFlag Off.perfCtl 31 on).withPerf { d.perf with freezeNext := some on } := rfl

theorem Device.freeze_shows (d : Device) (on : Bool) :
    (d.freeze on).flag Off.perfCtl 31 = on ∧ (d.freeze on).perf = { d.perf with freezeNext := some on } := by
  rw [Device.freeze_eq]
  exact ⟨by rw [Device.flag_withPerf, d.flag_setFlag_self _ _ (by omega)], rfl⟩

/-- SNAP is taken where none is under way and none was made of late. -/
theorem Device.snap_taken {d : Device} {s : Nat} (hnext : d.perf.snapNext = false) (hat : d.perf.snapAt = none) :
    (d.snap s).perf.snapNext = true := by
  rw [Device.snap, hat, hnext]
  rfl

/-! ### A power state asked for by Seat L (R460) -/

/-- A transition between states that run the core begins. -/
theorem Device.startTrans_running {d : Device} {r : PwrReq} (hold : d.pwrState < 2) (hstate : r.state < 3) :
    ∃ u : Device, d.startTrans r = u.showPower ∧ u.pwr.running = some ⟨r, [], d.pwrState, d.transit⟩ ∧ u.regs = d.regs := by
  refine ⟨_, rfl, ?_⟩
  split
  · exact ⟨rfl, rfl⟩
  · rw [if_neg (by omega), if_neg (by omega), if_neg (by omega)]
    exact ⟨rfl, rfl⟩

theorem Device.pwr_showPower (d : Device) : d.showPower.pwr = d.pwr := by
  unfold Device.showPower
  extract_lets t
  rw [Device.setFld_pwr]
  unfold t
  rw [Device.setFlag_pwr, Device.setFlag_pwr]

theorem Device.fld_showPower {d : Device} {off hi lo : Nat} (h : off ≠ Off.pwrStatus) : d.showPower.fld off hi lo = d.fld off hi lo := by
  unfold Device.showPower Device.setFlag
  rw [Device.fld_setFld_other _ _ _ _ _ _ h, Device.fld_setFld_other _ _ _ _ _ _ h, Device.fld_setFld_other _ _ _ _ _ _ h]

/-- Where no transition runs, a request for another state begins one, on the device as the mailbox shows the request. -/
theorem Device.powerAsk_idle {d t : Device} {r : PwrReq} (hshown : (if r.who = 2 then d.setFld Off.pwrReqL 15 8 0xFF else d) = t)
    (hrunning : t.pwr.running = none) (hnew : r.state ≠ t.pwrState) : d.powerAsk r = t.startTrans r := by
  unfold Device.powerAsk
  simp only [hshown, hrunning, if_neg hnew]

/-- Where no transition runs, one to another state that runs the core begins; the mailbox shows that it is not done. -/
theorem Device.powerAskL_starts {d : Device} {state : Nat} (hphase : d.pwr.phase = .started) (hrunning : d.pwr.running = none)
    (hold : d.pwrState < 2) (hstate : state < 3) (hnew : state ≠ d.pwrState) :
    (d.powerAskL state).pwr.running = some ⟨⟨state, 2, none⟩, [], d.pwrState, d.transit⟩ ∧
      (d.powerAskL state).fld Off.pwrReqL 15 8 = 0xFF := by
  have hoff : d.pwr.phase ≠ .off := by
    rw [hphase]
    decide
  have hanswer : (d.setFld Off.pwrReqL 15 8 0xFF).fld Off.pwrReqL 15 8 = 0xFF := d.fld_setFld_self _ _ (by omega) (by omega)
  have hkept : (d.setFld Off.pwrReqL 15 8 0xFF).pwrState = d.pwrState := d.fld_setFld_other _ _ _ _ _ (by decide)
  have htransit : (d.setFld Off.pwrReqL 15 8 0xFF).transit = d.transit := by rw [Device.transit, Device.setFld_plumb, ← Device.transit]
  have hidle : (d.setFld Off.pwrReqL 15 8 0xFF).pwr.running = none := by rw [Device.setFld_pwr, hrunning]
  rw [Device.powerAskL, if_neg hoff, if_neg (by omega)]
  generalize ht : d.setFld Off.pwrReqL 15 8 0xFF = t at hanswer hkept htransit hidle
  obtain ⟨u, hu, hrun, hregs⟩ := Device.startTrans_running (d := t) (r := ⟨state, 2, none⟩) (hkept ▸ hold) hstate
  have hother : state ≠ t.pwrState := by rwa [hkept]
  rw [Device.powerAsk_idle (r := ⟨state, 2, none⟩) ((if_pos rfl).trans ht) hidle hother, hu, Device.pwr_showPower, Device.fld_showPower (by decide), hrun,
    hkept, htransit]
  exact ⟨rfl, by rw [← hanswer, Device.fld, Device.reg, hregs, ← Device.reg, ← Device.fld]⟩

/-! ### Software events (R435) -/

/-- A software event of a code below ESCALATED whose source and code have no slot is numbered, and sets its sticky bit. -/
theorem Device.softwareEvent_fresh {d : Device} {v : Nat} (hsev : bits v 15 14 < 3)
    (hslot : d.slot? (512 + bits v 20 16) (v % 2 ^ 16) = none) :
    (d.softwareEvent v).hawk.seq = (d.hawk.seq + 1) % 2 ^ 48 ∧ (d.softwareEvent v).flag (Off.hawkSticky 16) (bits v 20 16) = true := by
  have hcode : eventSev (v % 2 ^ 16) = bits v 15 14 := by
    simp only [eventSev, bits]
    omega
  have hfresh : d.softwareEvent v = (d.stampEvent ⟨512 + bits v 20 16, v % 2 ^ 16, 1, 0xFF, 0, d.reg64 Off.hawkRaiseArgLo, 0, d.transit⟩).setSlot
      ⟨512 + bits v 20 16, v % 2 ^ 16, none, some d.transit⟩ := by
    have hsev' : eventSev (v % 2 ^ 16) ≠ Sev.escalated := by
      unfold Sev.escalated
      omega
    simp only [Device.softwareEvent, Device.raiseEvent, hsev', if_false, hslot]
  have hlt : bits v 20 16 < 32 := bits_lt v 20 16
  rw [hfresh]
  refine ⟨Device.seq_stampEvent _ _, ?_⟩
  have hsticky := d.sticky_stampEvent ⟨512 + bits v 20 16, v % 2 ^ 16, 1, 0xFF, 0, d.reg64 Off.hawkRaiseArgLo, 0, d.transit⟩
    (by dsimp only; omega)
  dsimp only at hsticky
  rwa [show (512 + bits v 20 16) / 32 = 16 by omega, show (512 + bits v 20 16) % 32 = bits v 20 16 by omega] at hsticky

end Sys2Proof.Machine
end

section
set_option Elab.async false
/-! PROOFS. O4: each guarded write by the rule of its register. -/

namespace Sys2Proof.Machine

theorem Device.poolsOk_counted (d : Device) (o : List Occ) : (d.counted o).poolsOk = d.poolsOk := rfl

/-- The refusal of a pool size. -/
theorem Device.pool_refused {d : Device} {off v k : Nat} (hplace : 0x1C00000 ≤ off ∧ off < 0x1C0000C) :
    let t := ((d.setFlag Off.bufStatus 0 true).raise 192 Sev.warn k off v).poolsMoved
    t.reg off = d.reg off ∧ t.flag Off.bufStatus 0 = true := by
  intro t
  obtain ⟨hlow, hhigh⟩ := hplace
  have hkept (o : Nat) (ho : 0x1C00000 ≤ o ∧ o < 0x1C00018) : t.reg o = (d.setFlag Off.bufStatus 0 true).reg o := by
    have hpause : pauseReg o = false := by
      have hport : ¬0x2400000 ≤ o := by omega
      simp [pauseReg, hport]
    have hraise : raiseReg o = false := by
      have hhawk : ¬o < 0x101000 := by omega
      have hseat : ¬o < 0x203000 := by omega
      simp [raiseReg, hhawk, hseat]
    exact ((Device.Settled.refl _).poolsMoved.1 o hpause).trans (Device.reg_raise (by decide) hraise)
  refine ⟨(hkept off (by omega)).trans (d.reg_setReg_other _ (by unfold Off.bufStatus; omega)), ?_⟩
  rw [Device.flag_congr (hkept _ (by decide)), Device.flag_setFlag_self _ _ _ (by omega)]

/-- The size of a pool that is taken. -/
theorem Device.pool_taken {d : Device} {off v : Nat} (hplace : 0x1C00000 ≤ off ∧ off < 0x1C0000C) :
    ((d.setFld off 19 0 (v % 2 ^ 20)).poolsMoved.poolsMoved).fld off 19 0 = v % 2 ^ 20 := by
  have hpause : pauseReg off = false := by
    have hport : ¬0x2400000 ≤ off := by omega
    simp [pauseReg, hport]
  rw [Device.fld_congr ((Device.Settled.refl _).poolsMoved.poolsMoved.1 off hpause), Device.fld_setFld_self _ _ _ (by omega) (by omega),
    Nat.mod_mod]

/-- The refusal of the values of a lane's taps. -/
theorem Device.taps_refused {d : Device} {l v : Nat} (hl : l < 512) (h : tapsOk (bits v 20 16) (bits v 14 8) (bits v 4 0) = false) :
    (d.writeTaps l v).reg (Off.laneTxTap l) = d.reg (Off.laneTxTap l) ∧ (d.writeTaps l v).flag (Off.laneStatus l) 1 = true := by
  have hraise (o : Nat) (ho : 0x2000000 ≤ o) : raiseReg o = false := by
    have hhawk : ¬o < 0x101000 := by omega
    have hseat : ¬o < 0x203000 := by omega
    simp [raiseReg, hhawk, hseat]
  unfold Device.writeTaps
  simp only [h, Bool.and_false, Bool.false_eq_true, if_false]
  constructor
  · rw [Device.reg_raise (by omega) (hraise _ (by unfold Off.laneTxTap; omega))]
    exact d.reg_setReg_other _ (by unfold Off.laneTxTap Off.laneStatus; omega)
  · rw [Device.flag_congr (Device.reg_raise (by omega) (hraise _ (by unfold Off.laneStatus; omega))),
      Device.flag_setFlag_self _ _ _ (by omega)]

/-- The taps of a lane of no port. -/
theorem Device.taps_taken {d : Device} {l v : Nat} (hport : d.portOfLane l = none)
    (h : tapsOk (bits v 20 16) (bits v 14 8) (bits v 4 0) = true) :
    d.writeTaps l v = d.setTaps l (bits v 20 16) (bits v 14 8) (bits v 4 0) := by
  unfold Device.writeTaps
  simp [hport, h]

/-- The seats show which of them is the device owner (R406). -/
theorem Device.setOwner_shows {d : Device} {n : Nat} (hn : n < 3) :
    (d.setOwner n).devOwner = n ∧ (d.setOwner n).flag (Off.seatStatus 0) 2 = decide (n = 0) ∧
      (d.setOwner n).flag (Off.seatStatus 1) 2 = decide (n = 1) := by
  have hnote (o : Nat) (ho : noteReg o = false) : (d.setOwner n).reg o = (d.nameOwner n).reg o :=
    ((Device.Told.refl _).raise (by omega)).reg ho
  have hname : (d.nameOwner n).fld Off.seatOwner 1 0 = n ∧ (d.nameOwner n).flag (Off.seatStatus 0) 2 = decide (n = 0) ∧
      (d.nameOwner n).flag (Off.seatStatus 1) 2 = decide (n = 1) := by
    unfold Device.nameOwner
    refine ⟨?_, ?_, Device.flag_setFlag_self _ _ _ (by omega)⟩
    · unfold Device.setFlag
      rw [Device.fld_setFld_other _ _ _ _ _ _ (by decide), Device.fld_setFld_other _ _ _ _ _ _ (by decide),
        Device.fld_setFld_self _ _ _ (by omega) (by omega)]
      exact Nat.mod_eq_of_lt (by omega)
    · rw [Device.flag_setFlag_other _ _ _ _ (by decide), Device.flag_setFlag_self _ _ _ (by omega)]
  obtain ⟨howner, hzero, hone⟩ := hname
  exact ⟨(Device.fld_congr (hnote _ rfl)).trans howner, (Device.flag_congr (hnote _ rfl)).trans hzero,
    (Device.flag_congr (hnote _ rfl)).trans hone⟩

/-- Settles O4. -/
theorem guardedWrites : Obligations.GuardedWrites := by
  unfold Obligations.GuardedWrites
  refine ⟨?taps, ?tapsRefused, ?pool, ?poolRefused, ?shed, ?shedRefused, ?tclk, ?owner, ?claim, ?keepalive, ?commit, ?freeze, ?snap, ?event,
    ?clear, ?power⟩
  case taps =>
    intro seat lane v d w hmay hport hok
    obtain ⟨o, i, hwrite⟩ := Device.regWrite_laneTxTap (v := v.toNat) lane.isLt hmay
    rw [Device.taps_taken (d := d.counted o) hport hok] at hwrite
    refine runs_of_exec (exec_to rfl hwrite) ?_
    simp only [Device.fld_islandAt]
    exact Device.fld_setTaps (bits_lt _ 20 16) (bits_lt _ 14 8) (bits_lt _ 4 0)
  case tapsRefused =>
    intro seat lane v d w hmay hbad
    obtain ⟨o, i, hwrite⟩ := Device.regWrite_laneTxTap (v := v.toNat) lane.isLt hmay
    refine runs_of_exec (exec_to rfl hwrite) ?_
    simp only [Device.reg_islandAt, Device.flag_islandAt]
    exact Device.taps_refused (d := d.counted o) lane.isLt hbad
  case pool =>
    intro seat off v d w hoff hmay hok
    obtain ⟨o, i, hwrite⟩ := Device.regWrite_pool (v := v.toNat) hoff hmay
    obtain ⟨hlow, hhigh, -⟩ := pool_place hoff
    have hok' : ((d.counted o).setFld off.toNat 19 0 (v.toNat % 2 ^ 20)).poolsOk = true :=
      (Device.poolsOk_counted (d.setFld off.toNat 19 0 (v.toNat % 2 ^ 20)) o).trans hok
    simp only [Device.writePool, Device.plainWrite_pool hoff, hok', if_true] at hwrite
    refine runs_of_exec (exec_to rfl hwrite) ?_
    simp only [Device.fld_islandAt]
    exact Device.pool_taken (d := d.counted o) ⟨hlow, hhigh⟩
  case poolRefused =>
    intro seat off v d w hoff hmay hbad
    obtain ⟨o, i, hwrite⟩ := Device.regWrite_pool (v := v.toNat) hoff hmay
    obtain ⟨hlow, hhigh, -⟩ := pool_place hoff
    have hbad' : ((d.counted o).setFld off.toNat 19 0 (v.toNat % 2 ^ 20)).poolsOk = false :=
      (Device.poolsOk_counted (d.setFld off.toNat 19 0 (v.toNat % 2 ^ 20)) o).trans hbad
    simp only [Device.writePool, Device.plainWrite_pool hoff, hbad', Bool.false_eq_true, if_false] at hwrite
    refine runs_of_exec (exec_to rfl hwrite) ?_
    simp only [Device.reg_islandAt, Device.flag_islandAt]
    exact Device.pool_refused (d := d.counted o) ⟨hlow, hhigh⟩
  case shed =>
    intro seat v d w hmay hok
    obtain ⟨o, i, hwrite⟩ := Device.regWrite_pwrShedThr (v := v.toNat) hmay
    simp only [Device.writeShedThr, hok, if_true, Device.plainWrite_pwrShedThr] at hwrite
    refine runs_of_exec (exec_to rfl hwrite) ?_
    simp only [Device.fld_islandAt]
    exact ((d.counted o).fld_setFld_self _ _ (by omega) (by omega)).trans (Nat.mod_eq_of_lt (bits_lt v.toNat 29 0))
  case shedRefused =>
    intro seat v d w hmay hbad
    obtain ⟨o, i, hwrite⟩ := Device.regWrite_pwrShedThr (v := v.toNat) hmay
    simp only [Device.writeShedThr, hbad, Bool.false_eq_true, if_false] at hwrite
    refine runs_of_exec (exec_to rfl hwrite) ?_
    simp only [Device.reg_islandAt]
    exact ((Device.Told.refl (d.counted o)).raise (by omega)).reg rfl
  case tclk =>
    intro seat v d w hmay
    obtain ⟨o, i, hwrite⟩ := Device.regWrite_plumbCtl (v := v.toNat) hmay
    rw [Device.writePlumbCtl] at hwrite
    refine runs_of_exec (exec_to rfl hwrite) ?_
    simp only [Device.flag_islandAt]
    refine ⟨?_, Device.flag_setFlag_self _ _ _ (by omega)⟩
    rw [Device.flag_setFlag_other _ _ _ _ (by decide), Device.flag_plainWrite_plumbCtl]
  case owner =>
    intro seat v d w hmay hphase hlt hne
    obtain ⟨o, i, hwrite⟩ := Device.regWrite_seatOwner (v := v.toNat) hmay
    have hstarted : (d.counted o).pwr.phase ≠ .waits := by
      rw [show (d.counted o).pwr = d.pwr from rfl, hphase]
      decide
    have hne' : v.toNat % 4 ≠ (d.counted o).devOwner := hne
    rw [Device.writeOwner, if_neg (by omega), if_neg hstarted, if_neg hne'] at hwrite
    refine runs_of_exec (exec_to rfl hwrite) ?_
    simp only [Device.devOwner_islandAt, Device.flag_islandAt]
    exact Device.setOwner_shows hlt
  case claim =>
    intro seat v d w hmay hbit hok
    obtain ⟨o, i, hwrite⟩ := Device.regWrite_seatClaim (v := v.toNat) seat.isLt hmay
    have hok' : (d.counted o).claimOk = true := hok
    simp only [hbit, beq_self_eq_true, Bool.and_self, if_true, Device.claim, hok'] at hwrite
    refine runs_of_exec (exec_to rfl hwrite) ?_
    simp only [Device.devOwner_islandAt]
    exact (Device.setOwner_shows (d := d.counted o) (n := seat) (by omega)).1
  case keepalive =>
    intro seat v d w hmay
    obtain ⟨o, i, hwrite⟩ := Device.regWrite_seatKeepalive (v := v.toNat) seat.isLt hmay
    refine runs_of_exec (exec_to rfl hwrite) ?_
    simp only [Device.seat_islandAt]
    exact congrArg Seat.lastKeep ((d.counted o).seat_modSeat_self seat _)
  case commit =>
    intro seat port d w hmay hfree
    obtain ⟨o, i, hwrite⟩ := Device.regWrite_schedGateCtl (v := setBits (d.reg (Off.schedGateCtl port)) 30 30 1) port.isLt hmay
    refine runs_of_exec (exec_to rfl hwrite) ?_
    simp only [Device.flag_islandAt, Device.sched_islandAt]
    rw [← Device.adminList_counted d o]
    exact Device.commit_pend port.isLt ((d.flag_counted o _ _).trans hfree) (by rw [Device.reg_counted])
  case freeze =>
    intro seat on d w hmay
    obtain ⟨o, i, hwrite⟩ := Device.regWrite_perfCtl (v := 2 ^ 31 * b2n on) hmay
    have hbits : bit (2 ^ 31 * b2n on) 31 = on ∧ bit (2 ^ 31 * b2n on) 30 = false := by cases on <;> decide
    obtain ⟨hfreeze, hsnap⟩ := hbits
    simp only [Device.writePerfCtl, hfreeze, hsnap, Bool.false_eq_true, if_false] at hwrite
    refine runs_of_exec (exec_to rfl hwrite) ?_
    obtain ⟨hflag, hperf⟩ := (d.counted o).freeze_shows on
    simp only [Device.flag_islandAt, Device.perf_islandAt, hflag, hperf, and_self]
  case snap =>
    intro seat d w hmay hnext hat
    obtain ⟨o, i, hwrite⟩ := Device.regWrite_perfCtl (v := setBits (d.reg Off.perfCtl) 30 30 1) hmay
    have hsnap : bit (setBits (d.reg Off.perfCtl) 30 30 1) 30 = true := by
      rw [bit_eq_bits, bits_setBits_self]
      rfl
    simp only [Device.writePerfCtl, hsnap, if_true] at hwrite
    refine runs_of_exec (exec_to rfl hwrite) ?_
    obtain ⟨-, hperf⟩ := (d.counted o).freeze_shows (bit (setBits (d.reg Off.perfCtl) 30 30 1) 31)
    simp only [Device.perf_islandAt]
    exact Device.snap_taken (by rw [hperf]; exact hnext) (by rw [hperf]; exact hat)
  case event =>
    intro seat v d w hmay hsev hslot
    obtain ⟨o, i, hwrite⟩ := Device.regWrite_hawkRaise (v := v.toNat) hmay
    refine runs_of_exec (exec_to rfl hwrite) ?_
    simp only [Device.hawk_islandAt, Device.flag_islandAt]
    exact Device.softwareEvent_fresh (d := d.counted o) hsev hslot
  case clear =>
    intro seat d w hmay
    obtain ⟨o, i, hwrite⟩ := Device.regWrite_hawkLogCtl (v := 2 ^ 31) hmay
    have hbit : bit (2 ^ 31) 31 = true := by decide
    simp only [hbit, if_true] at hwrite
    refine runs_of_exec (exec_to rfl hwrite) ?_
    simp only [Device.hawk_islandAt]
    rfl
  case power =>
    intro seat v d w hmay hphase hrunning hold hstate hnew
    obtain ⟨o, i, hwrite⟩ := Device.regWrite_pwrReqL (v := v.toNat) hmay
    refine runs_of_exec (exec_to rfl hwrite) ?_
    simp only [Device.running_islandAt, Device.fld_islandAt]
    exact Device.powerAskL_starts (d := d.counted o) hphase hrunning hold hstate hnew
end Sys2Proof.Machine
end

section
set_option Elab.async false
/-! PROOFS. What the end of copies, the reception of a span's frames and the telemetry's own frames leave alone: the registers that enable
ports, spans and the telemetry, and LATH_STATUS, whatever numbers the frames and copies held name (R217, R222, R233, R321, R334, R512). -/

namespace Sys2Proof.Machine

/-- The places of PORT_CFG, LATH_CTL, LATH_STATUS and TELEM_CTL within their pages, from the ports' registers on. -/
def enableReg (o : Nat) : Bool := decide (0x2400000 ≤ o ∧ (o % 0x1000 = 0 ∨ o % 0x1000 = 4))

/-- `t` has these registers as `d`. -/
def Device.EnablesKept (d t : Device) : Prop := ∀ o, enableReg o = true → t.reg o = d.reg o

namespace Device.EnablesKept

variable {d t : Device} {off p s r c f h n v k i w : Nat} {b : Bool} {bs : List Byte}

theorem refl (d : Device) : d.EnablesKept d := fun _ _ => rfl

theorem of_eq {u : Device} (h : d.EnablesKept t) (hregs : u.regs = t.regs) : d.EnablesKept u := fun o ho => by
  rw [Device.reg, hregs, ← Device.reg, h o ho]

theorem foldl {β : Type} {xs : List β} {g : Device → β → Device} (h : d.EnablesKept t)
    (hg : ∀ u x, d.EnablesKept u → d.EnablesKept (g u x)) : d.EnablesKept (xs.foldl g t) :=
  List.foldlRecOn (motive := d.EnablesKept) _ _ h fun u hu x _ => hg u x hu

/-! ### Single updates -/

theorem setReg (h : d.EnablesKept t) (hoff : off < 0x2400000 ∨ off % 0x1000 ≠ 0 ∧ off % 0x1000 ≠ 4) :
    d.EnablesKept (t.setReg off v) := fun o ho => by
  have hne : o ≠ off := by
    rintro rfl
    rw [enableReg, decide_eq_true_eq] at ho
    omega
  exact (t.reg_setReg_other v hne).trans (h o ho)

theorem setFld {hi lo : Nat} (h : d.EnablesKept t) (hoff : off < 0x2400000 ∨ off % 0x1000 ≠ 0 ∧ off % 0x1000 ≠ 4) :
    d.EnablesKept (t.setFld off hi lo v) := h.setReg hoff

theorem setFlag (h : d.EnablesKept t) (hoff : off < 0x2400000 ∨ off % 0x1000 ≠ 0 ∧ off % 0x1000 ≠ 4) :
    d.EnablesKept (t.setFlag off n b) := h.setReg hoff

theorem bump (h : d.EnablesKept t) (hoff : off < 0x2400000 ∨ off % 0x1000 ≠ 0 ∧ off % 0x1000 ≠ 4) :
    d.EnablesKept (t.bump off n) := h.setReg hoff

theorem modBuf {g : Buf → Buf} (h : d.EnablesKept t) : d.EnablesKept (t.modBuf g) := h.of_eq rfl
theorem modFrame {g : Frame → Frame} (h : d.EnablesKept t) : d.EnablesKept (t.modFrame f g) := h.of_eq rfl
theorem modPort {g : Port → Port} (h : d.EnablesKept t) : d.EnablesKept (t.modPort p g) := h.of_eq rfl
theorem modPipe {g : Pipe → Pipe} (h : d.EnablesKept t) : d.EnablesKept (t.modPipe p g) := h.of_eq rfl
theorem modSched {g : Sched → Sched} (h : d.EnablesKept t) : d.EnablesKept (t.modSched p g) := h.of_eq rfl
theorem modSpan {g : Span → Span} (h : d.EnablesKept t) : d.EnablesKept (t.modSpan s g) := h.of_eq rfl
theorem modSeat {g : Seat → Seat} (h : d.EnablesKept t) : d.EnablesKept (t.modSeat s g) := h.of_eq rfl
theorem modNring {g : NoticeRing → NoticeRing} (h : d.EnablesKept t) : d.EnablesKept (t.modNring s r g) := h.of_eq rfl
theorem modCring {g : CmdRing → CmdRing} (h : d.EnablesKept t) : d.EnablesKept (t.modCring s r g) := h.of_eq rfl
theorem modGroup {g : Group → Group} (h : d.EnablesKept t) : d.EnablesKept (t.modGroup k g) := h.of_eq rfl
theorem occ {x : Occ} (h : d.EnablesKept t) : d.EnablesKept (t.occ x) := h.of_eq rfl
theorem occPort {cls : Option Nat} (h : d.EnablesKept t) : d.EnablesKept (t.occPort k n cls p) := h.of_eq rfl
theorem occSeat {part : Option Nat} (h : d.EnablesKept t) : d.EnablesKept (t.occSeat k s n part) := h.of_eq rfl
theorem unlease (h : d.EnablesKept t) : d.EnablesKept (t.unlease k i) := h.of_eq rfl
theorem takeSeq (h : d.EnablesKept t) : d.EnablesKept t.takeSeq.1 := h.of_eq rfl
theorem free (h : d.EnablesKept t) : d.EnablesKept (t.free k).1 := h.of_eq rfl

theorem setTokens {x : Int} (h : d.EnablesKept t) : d.EnablesKept (t.setTokens p c x) := h.of_eq rfl

/-- An event. -/
theorem raise {cause a : Nat} (h : d.EnablesKept t) (hs : s < 512) : d.EnablesKept (t.raise s v cause a n) := fun o ho => by
  rw [enableReg, decide_eq_true_eq] at ho
  have hraise : raiseReg o = false := by
    have hhawk : ¬o < 0x101000 := by omega
    have hseat : ¬o < 0x203000 := by omega
    simp [raiseReg, hhawk, hseat]
  rw [Device.reg_raise (by omega) hraise, h o (by rw [enableReg, decide_eq_true_eq]; exact ho)]

/-- The settling of the pools, and the pause frames that it sends. -/
theorem settled {u : Device} (h : d.EnablesKept t) (hu : t.Settled u) : d.EnablesKept u := fun o ho => by
  have hpause : pauseReg o = false := by
    rw [enableReg, decide_eq_true_eq] at ho
    simp [pauseReg]
    omega
  rw [hu.1 o hpause, h o ho]

theorem poolsMoved (h : d.EnablesKept t) : d.EnablesKept t.poolsMoved := h.settled (Device.Settled.refl t).poolsMoved

theorem pfcCheck (h : d.EnablesKept t) : d.EnablesKept t.pfcCheck := h.settled (Device.Settled.refl t).pfcCheck

theorem pfcFlush (h : d.EnablesKept t) : d.EnablesKept (t.pfcFlush p) := h.settled (Device.Settled.refl t).pfcFlush

theorem notIdle (h : d.EnablesKept t) : d.EnablesKept (t.notIdle p) := h.settled (Device.Settled.refl t).notIdle

/-! ### Completions (R410 to R413) -/

theorem dropNotice (h : d.EnablesKept t) : d.EnablesKept (t.dropNotice s r n) :=
  have hlost : d.EnablesKept (t.bump (Off.seatNrLost s) 1) := h.bump (by unfold Off.seatNrLost; omega)
  hlost.modNring.occSeat

theorem putEntry (h : d.EnablesKept t) : d.EnablesKept (t.putEntry s r n b v k bs) := by
  have htail (u : Device) (x : Nat) (hu : d.EnablesKept u) : d.EnablesKept (u.setFld (Off.seatNrTail s r) 15 0 x) :=
    hu.setFld (by unfold Off.seatNrTail; omega)
  unfold Device.putEntry
  exact (htail _ _ h.modSeat).modNring

theorem coalesce (h : d.EnablesKept t) : d.EnablesKept (t.coalesce s r) := by
  have hcount (g) : d.EnablesKept (t.modNring s r g) := h.modNring
  unfold Device.coalesce Device.sendMsix
  extract_lets ring u
  split
  · exact (hcount _).modSeat.modNring
  · exact hcount _

theorem putNotice (h : d.EnablesKept t) : d.EnablesKept (t.putNotice s r n v k bs none b).1 := by
  unfold Device.putNotice
  extract_lets need ring avail t₁ t₂ t₃
  have h₁ : d.EnablesKept t₁ := by
    unfold t₁
    split
    · exact h.modNring
    · exact h
  split
  · exact h.dropNotice
  · split
    · exact h.dropNotice
    · exact h₁.putEntry.occSeat.coalesce

theorem completeOne {op st tag : Nat} (h : d.EnablesKept t) : d.EnablesKept (t.completeOne s r op st tag n bs) := by
  unfold Device.completeOne
  extract_lets t₀ t₁ mute t₂ ring
  have h₁ : d.EnablesKept t₁ := by
    unfold t₁
    split
    · exact h.unlease.setFld (by decide)
    · exact h.unlease
  have h₂ : d.EnablesKept t₂ := h₁.modCring
  split
  · exact h₂.dropNotice
  · split
    · exact h₂.modNring
    · have hput : d.EnablesKept _ := h₂.takeSeq.putNotice (s := s) (r := ring) (n := 3) (v := t₂.takeSeq.2.1) (k := t₂.takeSeq.2.2)
        (bs := completionBody op st tag s r bs) (b := true)
      simp only
      split
      · exact hput
      · exact hput.modNring

theorem complete {op st tag : Nat} (h : d.EnablesKept t) : d.EnablesKept (t.complete s r op st tag n bs) := by
  refine h.completeOne.foldl fun u _ hu => hu.foldl fun u i hu => ?_
  split
  · split
    · exact hu.completeOne
    · exact hu
  · exact hu

/-! ### The end of a copy and of a frame (R222, R233) -/

theorem sendDone {x : Frame} (h : d.EnablesKept t) : d.EnablesKept (t.sendDone x) := by
  unfold Device.sendDone
  split
  · exact h
  · split
    · exact h
    · split
      · exact h.complete
      · exact h.complete
      · exact (h.free (k := 1)).complete

theorem freeFrame (h : d.EnablesKept t) : d.EnablesKept (t.freeFrame f) := by
  unfold Device.freeFrame
  split
  · exact h
  · extract_lets t₁ t₂
    have h₂ : d.EnablesKept t₂ := h.sendDone.modBuf
    exact (h₂.of_eq (u := { t₂ with ctxs := NMap.del t₂.ctxs f }) rfl).poolsMoved

theorem freeUnread (h : d.EnablesKept t) : d.EnablesKept (t.freeUnread f) := by
  unfold Device.freeUnread
  split
  · exact h
  · split
    · exact h
    · split
      · exact h.freeFrame
      · exact h.modFrame.poolsMoved

theorem drainLeave (h : d.EnablesKept t) : d.EnablesKept (t.drainLeave f p) := by
  unfold Device.drainLeave
  split
  · exact h
  · extract_lets left
    split
    · exact h
    · split
      · exact h.modFrame.poolsMoved
      · exact h.modFrame.poolsMoved

theorem dropCopy (h : d.EnablesKept t) : d.EnablesKept (t.dropCopy c) := by
  unfold Device.dropCopy
  split
  · exact h
  · extract_lets t₁
    have h₁ : d.EnablesKept { t₁ with ectxs := NMap.del t₁.ectxs c } := h.of_eq rfl
    exact h₁.unlease.drainLeave.freeUnread.notIdle

theorem flushPort (h : d.EnablesKept t) : d.EnablesKept (t.flushPort p) := by
  unfold Device.flushPort
  extract_lets t₁ t₂
  have h₁ : d.EnablesKept t₁ := h.foldl fun u q hu => by
    obtain ⟨k, x⟩ := q
    dsimp -zeta only
    extract_lets u'
    have hu' : d.EnablesKept u' := by
      unfold u'
      split
      · exact hu.bump (by unfold Off.bufFlush; omega)
      · exact hu
    exact hu'.dropCopy
  have h₂ : d.EnablesKept t₂ := by
    unfold t₂
    split
    · exact h₁.modSpan
    · exact h₁
  exact h₂.modPort

theorem endWire (h : d.EnablesKept t) : d.EnablesKept (t.endWire c) := by
  unfold Device.endWire
  split
  · exact h
  · exact h.modPort.dropCopy.pfcFlush

/-- The count of copies cut short. -/
theorem ctAbort (h : d.EnablesKept t) : d.EnablesKept (t.bump (Off.bufCtAbort p) 1) := h.bump (by unfold Off.bufCtAbort; omega)

theorem endSpan (h : d.EnablesKept t) : d.EnablesKept (t.endSpan s c) := by
  unfold Device.endSpan
  split
  · exact h
  · split
    · exact h.dropCopy
    · extract_lets bs left bad entered t'
      have h' : d.EnablesKept t' := by
        unfold t'
        split
        · exact h.ctAbort.occPort
        · exact h
      exact h'.modSpan.dropCopy

theorem abortCopy (h : d.EnablesKept t) : d.EnablesKept (t.abortCopy c) := by
  unfold Device.abortCopy
  split
  · exact h
  · split
    · exact h.endSpan
    · exact h.ctAbort.occPort.endWire

/-! ### A frame that ends (R217, R218, R233, R313) -/

theorem turnBad (h : d.EnablesKept t) : d.EnablesKept (t.turnBad f b) := by
  unfold Device.turnBad
  extract_lets cs t₁ t₂
  have h₁ : d.EnablesKept t₁ := h.modFrame
  have h₂ : d.EnablesKept t₂ := by
    unfold t₂
    split
    · split
      · exact h₁.bump (by unfold Off.portRxFcsErr; omega)
      · exact h₁
    · exact h₁
  exact h₂.foldl fun _ _ hu => hu.abortCopy

theorem idleBucket (h : d.EnablesKept t) : d.EnablesKept (t.idleBucket p c) := by
  unfold Device.idleBucket
  split
  · exact h.setTokens
  · exact h

theorem tags (h : d.EnablesKept t) : d.EnablesKept (t.tags p) := by
  rw [t.tags_eq p]
  exact h.of_eq rfl

theorem hintSettle (h : d.EnablesKept t) : d.EnablesKept (t.hintSettle f) := by
  unfold Device.hintSettle
  split
  · exact h
  · refine h.foldl fun u q hu => ?_
    obtain ⟨k, x⟩ := q
    dsimp -zeta only
    extract_lets whole real u₁ u₂
    have h₁ : d.EnablesKept u₁ := by
      unfold u₁
      split
      · exact hu.setTokens.idleBucket.tags
      · exact hu
    have h₂ : d.EnablesKept u₂ := h₁.bump (by unfold Off.bufHintOver; omega)
    split
    · exact h₁
    · split
      · exact h₂.bump (by unfold Off.schedGateOverrun; omega)
      · exact h₂

theorem returnCells (h : d.EnablesKept t) : d.EnablesKept (t.returnCells f) := h.modFrame.poolsMoved

theorem writeCells (h : d.EnablesKept t) : d.EnablesKept (t.writeCells f) := by
  rw [t.bufOnly_writeCells f]
  exact h.of_eq rfl

theorem addFrame {x : Frame} (h : d.EnablesKept t) : d.EnablesKept (t.addFrame x) := h.modBuf.writeCells

theorem joinEntry (h : d.EnablesKept t) : d.EnablesKept (t.joinEntry f) := by
  unfold Device.joinEntry
  split
  · exact h.modFrame.modPipe
  · exact h

theorem update {us : List Upd} (h : d.EnablesKept t) : d.EnablesKept (t.update k us) := by
  unfold Device.update Device.quietUpdate
  split
  · rw [(Device.FlowOnly.refl t).addRun]
    exact h.of_eq rfl
  · exact h

theorem countBytes (h : d.EnablesKept t) : d.EnablesKept (t.countBytes f) := by
  unfold Device.countBytes
  split
  · exact (h.foldl fun _ _ hu => hu.update).modFrame
  · exact h

theorem endCheck (h : d.EnablesKept t) : d.EnablesKept (t.endCheck f) := by
  have hlate (p : Nat) : d.EnablesKept (t.bump (Off.pipeLenLate p) 1) := h.bump (by unfold Off.pipeLenLate; omega)
  unfold Device.endCheck
  split
  · split
    · exact (hlate _).turnBad
    · exact h
  · exact h

theorem overlenCheck (h : d.EnablesKept t) : d.EnablesKept (t.overlenCheck f) := by
  have hover (p : Nat) : d.EnablesKept (t.bump (Off.schedQOverlen p) 1) := h.bump (by unfold Off.schedQOverlen; omega)
  unfold Device.overlenCheck
  split
  · split
    · split
      · extract_lets port
        split
        · exact (hover port).turnBad
        · exact h
      · exact h
    · exact h
  · exact h

theorem frameWhole (h : d.EnablesKept t) : d.EnablesKept (t.frameWhole f) := by
  unfold Device.frameWhole
  split
  · exact h
  · extract_lets t₁ t₂ t₃
    have h₁ : d.EnablesKept t₁ := h.modFrame
    have h₂ : d.EnablesKept t₂ := h₁.countBytes.returnCells.hintSettle
    have h₃ : d.EnablesKept t₃ := by
      unfold t₃
      split
      · exact h₂.endCheck.overlenCheck
      · exact h₂.overlenCheck
    split
    · exact h₃.joinEntry
    · split
      · exact h₃.freeFrame
      · exact h₃

/-! ### A frame taken in (R217, R219, R224) -/

theorem admitFrame (h : d.EnablesKept t) : d.EnablesKept (t.admitFrame p c n).1 := by
  have hdrop (off : Nat) (ho : off = Off.bufHrDrop p ∨ off = Off.bufInDrop p) : d.EnablesKept (t.pfcCheck.bump off 1) :=
    h.pfcCheck.bump (by unfold Off.bufHrDrop Off.bufInDrop at ho; omega)
  unfold Device.admitFrame
  extract_lets t₁
  split
  · exact h.pfcCheck.occPort.occPort
  · rename_i off _ _
    refine (hdrop off ?_).occPort
    unfold off
    split
    · exact .inl rfl
    · exact .inr rfl

theorem takeIn {x : Frame} (h : d.EnablesKept t) : d.EnablesKept (t.takeIn x b) := by
  unfold Device.takeIn
  extract_lets p cls prov
  split
  · exact (h.bump (by decide)).addFrame
  · split
    · exact (h.bump (by unfold Off.bufInDrop; omega)).addFrame
    · split
      · exact (h.bump (by decide)).occPort.addFrame
      · have hadmit : d.EnablesKept (t.admitFrame p cls prov).1 := h.admitFrame
        split
        · next u e =>
          rw [e] at hadmit
          exact hadmit.addFrame
        · next u a e =>
          rw [e] at hadmit
          exact hadmit.addFrame.poolsMoved

/-! ### What a span receives (R321, R325, R334) -/

theorem spanFrame {cls ago : Nat} (h : d.EnablesKept t) : d.EnablesKept (t.spanFrame w cls bs ago) := by
  have hbad : d.EnablesKept (t.bump (Off.lathRxFcsErr w) 1) := h.bump (by unfold Off.lathRxFcsErr; omega)
  have hgood : d.EnablesKept (t.bump (Off.lathRxFrames w) 1) := h.bump (by unfold Off.lathRxFrames; omega)
  unfold Device.spanFrame
  extract_lets p t₁ t₂ f
  split
  · exact hbad.occPort
  · have h₂ : d.EnablesKept t₂ := hgood.occPort.occPort
    exact h₂.takeIn.frameWhole

theorem takeFrames (h : d.EnablesKept t) (fuel : Nat) : d.EnablesKept (t.takeFrames w c fuel) := by
  have hbad (u : Device) (hu : d.EnablesKept u) : d.EnablesKept ((u.bump (Off.lathHdrErr w) 1).bump (Off.lathRxFcsErr w) 1) :=
    (hu.bump (by unfold Off.lathHdrErr; omega)).bump (by unfold Off.lathRxFcsErr; omega)
  induction fuel generalizing t with
  | zero => exact h
  | succ fuel ih =>
    unfold Device.takeFrames
    extract_lets x put
    split
    · exact h
    · split
      · exact (hbad t h).modSpan
      · extract_lets len n
        split
        · exact ih h.modSpan
        · split
          · exact h
          · exact ih h.modSpan.spanFrame

theorem dropStream (h : d.EnablesKept t) : d.EnablesKept (t.dropStream w c) := by
  unfold Device.dropStream
  extract_lets x t₁
  have h₁ : d.EnablesKept t₁ := by
    unfold t₁
    split
    · exact h
    · exact h.bump (by unfold Off.lathRxFcsErr; omega)
  exact h₁.modSpan

theorem takeSlot {words : List (Nat × DWord)} (h : d.EnablesKept t) : d.EnablesKept (t.takeSlot w words) := by
  have hbad : d.EnablesKept (t.bump (Off.lathHdrErr w) 1) := h.bump (by unfold Off.lathHdrErr; omega)
  unfold Device.takeSlot
  split
  · exact h
  · extract_lets ch first x new
    split
    · exact hbad.dropStream
    · clear_value new
      cases new with
      | none => exact h
      | some ws => exact h.modSpan.takeFrames _

theorem deliverOne {x : RxContainer} (h : d.EnablesKept t) : d.EnablesKept (t.deliverOne s w x) := by
  unfold Device.deliverOne
  extract_lets follows t₁ t₂
  have h₁ : d.EnablesKept t₁ := by
    unfold t₁
    split
    · exact h
    · exact h.foldl fun _ _ hu => hu.dropStream
  have h₂ : d.EnablesKept t₂ := h₁.foldl fun _ _ hu => hu.takeSlot
  exact h₂.modSpan

theorem deliverHeld (h : d.EnablesKept t) : d.EnablesKept (t.deliverHeld w) := by
  unfold Device.deliverHeld
  extract_lets s
  split
  · exact h
  · refine h.foldl fun u x hu => ?_
    extract_lets fresh
    split
    · exact hu.deliverOne
    · exact hu

end Device.EnablesKept

end Sys2Proof.Machine
end

section
set_option Elab.async false
/-! PROOFS. What a telemetry message leaves alone: the same registers (R510, R512, R513). -/

namespace Sys2Proof.Machine

namespace Device.EnablesKept

variable {d t : Device} {p s c f n v k i a port pipe cls : Nat} {b write : Bool} {bs : List Byte} {master : Nat × Nat}

/-! ### The render store's requests (R201 to R204) -/

theorem portError (h : d.EnablesKept t) : d.EnablesKept (t.portError p a v) := h.of_eq rfl

theorem stackWake (h : d.EnablesKept t) : d.EnablesKept (t.stackWake s) := by
  unfold Device.stackWake
  extract_lets t₁
  have h₁ : d.EnablesKept t₁ := h.of_eq rfl
  split
  · exact h₁.setFlag (by decide)
  · exact h₁

theorem requestSend (h : d.EnablesKept t) : d.EnablesKept (t.requestSend port master write a n) := by
  unfold Device.requestSend
  split
  · exact h
  · split
    · exact h
    · extract_lets r
      exact h.stackWake.of_eq rfl

theorem requestBlock (h : d.EnablesKept t) : d.EnablesKept (t.requestBlock port master write a n) := by
  unfold Device.requestBlock
  split
  · exact h.portError
  · split
    · exact h.requestSend
    · extract_lets t₁
      have h₁ : d.EnablesKept t₁ := by
        unfold t₁
        split
        · exact h.portError
        · exact h
      split
      · split
        · exact h₁.requestSend
        · exact h₁
      · exact h₁

theorem request (h : d.EnablesKept t) : d.EnablesKept (t.request port master a write n) :=
  h.foldl fun _ _ hu => hu.requestBlock

/-! ### A frame's way to its queues (R173, R227, R229, R273) -/

theorem releaseFrame (h : d.EnablesKept t) : d.EnablesKept (t.releaseFrame f) := h.modFrame.freeUnread

theorem discardFrame (h : d.EnablesKept t) : d.EnablesKept (t.discardFrame f n) := by
  unfold Device.discardFrame
  split
  · exact h
  · exact h.occ.releaseFrame

theorem joinQueue {x : Copy} (h : d.EnablesKept t) : d.EnablesKept (t.joinQueue x) := h.of_eq rfl

theorem channelJoin {m : Vector Word 16} (h : d.EnablesKept t) : d.EnablesKept (t.channelJoin s m n a).1 := by
  have hremap : d.EnablesKept (t.bump (Off.lathC7Remap s) 1) := h.bump (by unfold Off.lathC7Remap; omega)
  have hdemote : d.EnablesKept (t.bump (Off.lathChanDemote s) 1) := h.bump (by unfold Off.lathChanDemote; omega)
  unfold Device.channelJoin
  extract_lets c cost tokens
  split
  · exact hremap
  · split
    · exact hdemote
    · exact h.modSpan

theorem joinPort {quote cut : Option Nat} {spray : Option (Nat × Nat × Bool)} (h : d.EnablesKept t) :
    d.EnablesKept (t.joinPort f pipe port cls quote spray cut bs) := by
  have hflush : d.EnablesKept (t.bump (Off.bufFlush port) 1) := h.bump (by unfold Off.bufFlush; omega)
  have hremap : d.EnablesKept (t.bump (Off.schedC7Remap port) 1) := h.bump (by unfold Off.schedC7Remap; omega)
  have hjoin (q m n a) : d.EnablesKept (t.channelJoin q m n a).1 := h.channelJoin
  unfold Device.joinPort
  split
  · exact h
  · split
    · exact hflush
    · extract_lets hint
      split
      next u c chan dl e =>
      refine joinQueue ?_
      split at e
      · cases e
        exact h
      · split at e
        · cases e
          exact h
        · split at e
          · rw [← show _ = u from congrArg Prod.fst e]
            exact hjoin _ _ _ _
          · cases e
            exact hremap

theorem applyLive (h : d.EnablesKept t) : d.EnablesKept (t.applyLive k) := by
  unfold Device.applyLive
  extract_lets live old m table
  split
  · exact h
  · exact h.modGroup

theorem resolve {x : Frame} (h : d.EnablesKept t) : d.EnablesKept (t.resolve x k n).1 := by
  have hnone : d.EnablesKept ((t.applyLive k).bump Off.spreadNoMember 1) := h.applyLive.bump (by decide)
  unfold Device.resolve
  extract_lets t₁
  split
  · split
    · exact hnone
    · exact h.applyLive.modGroup.occ
  · split
    · exact hnone
    · exact h.applyLive

theorem numberTwins (h : d.EnablesKept t) : d.EnablesKept (t.numberTwins f) := by
  unfold Device.numberTwins
  split
  · exact h
  · next x _ =>
    refine modFrame (List.foldlRecOn (motive := fun acc : Device × List Edit => d.EnablesKept acc.1) x.edits _ h fun acc hacc e _ => ?_)
    split
    · exact hacc.of_eq rfl
    · exact hacc

theorem toRepl {x : Policed} (h : d.EnablesKept t) : d.EnablesKept (t.toRepl f k pipe x) := by
  have hdrop : d.EnablesKept (t.bump Off.bufReplDrop 1) := h.bump (by decide)
  unfold Device.toRepl
  split
  · exact h
  · extract_lets q
    split
    · exact hdrop.discardFrame
    · exact h.modBuf.modFrame

theorem joinTargets {x : Policed} (h : d.EnablesKept t) : d.EnablesKept (t.joinTargets f pipe x bs) := by
  unfold Device.joinTargets
  split
  · exact h
  · next y _ =>
    extract_lets m3
    split
    · exact h.joinPort.releaseFrame
    · have hresolve : d.EnablesKept (t.resolve y (m3 % 256) (bits m3 25 16)).1 := h.resolve
      split
      · next u e =>
        rw [e] at hresolve
        exact hresolve.discardFrame
      · next u q spray e =>
        rw [e] at hresolve
        exact hresolve.joinPort.releaseFrame
    · exact h.toRepl

theorem forwardOwn (h : d.EnablesKept t) : d.EnablesKept (t.forwardOwn f pipe bs) := by
  unfold Device.forwardOwn
  extract_lets t₁
  split
  · exact h.numberTwins
  · exact h.numberTwins.joinTargets

/-! ### A telemetry message (R510) -/

theorem telemLose (h : d.EnablesKept t) : d.EnablesKept (t.telemLose n v) :=
  have hmsg : d.EnablesKept (t.bump Off.telemDropMsg 1) := h.bump (by decide)
  have hrec : d.EnablesKept ((t.bump Off.telemDropMsg 1).bump Off.telemDropRec n) := hmsg.bump (by decide)
  hrec.raise (by decide)

theorem telemStage (h : d.EnablesKept t) : d.EnablesKept (t.telemStage a n) := by
  unfold Device.telemStage
  split
  next u v e =>
  have hu : d.EnablesKept u := by
    have hfree : d.EnablesKept (t.free 12).1 := h.free
    rwa [e] at hfree
  split
  · exact hu
  · exact hu.request

theorem telemSend (h : d.EnablesKept t) : d.EnablesKept (t.telemSend k n bs) := by
  unfold Device.telemSend
  extract_lets seq b t₁
  have h₁ : d.EnablesKept t₁ := (h.setReg (by decide)).setReg (by decide)
  split
  · exact h₁.telemLose
  · extract_lets t₂ f pipe m x
    have h₂ : d.EnablesKept t₂ := h₁.telemStage
    split
    · exact h₂.telemLose
    · exact (h₂.bump (by decide)).addFrame.forwardOwn

theorem templateSet (h : d.EnablesKept t) : d.EnablesKept t.templateSet := by
  unfold Device.templateSet
  extract_lets t₁
  have h₁ : d.EnablesKept t₁ := h.of_eq rfl
  split
  · exact h₁.telemSend
  · exact h₁

end Device.EnablesKept

end Sys2Proof.Machine
end

section
set_option Elab.async false
/-! PROOFS. What the registers of enabling writes are, which role their write has, and what a write leaves of their fields (R8, R12, R289,
R314, R328, R329, R274, R510). -/

namespace Sys2Proof.Machine

/-! ### PORT_CFG -/

def portCfgDef : RegDef :=
  ⟨"PORT_CFG", 0x2400000, [(512, 0x1000)], 0x302005F2, .single,
    [⟨31, 31, .rw, .live, []⟩, ⟨30, 27, .rw, .quiet, [7, 8, 9, 10, 11, 12, 13, 14, 15]⟩, ⟨26, 25, .rw, .quiet, []⟩,
     ⟨24, 23, .rw, .quiet, [3]⟩, ⟨22, 22, .rw, .quiet, []⟩, ⟨21, 21, .rw, .quiet, []⟩, ⟨20, 20, .rw, .live, []⟩,
     ⟨13, 0, .rw, .quiet, []⟩]⟩

theorem regDef?_portCfg {p : Nat} (hp : p < 512) : regDef? (Off.portCfg p) = some portCfgDef :=
  regDef?_instance (r := portCfgDef) (st := 0x1000) (by decide +kernel) rfl (by decide) hp

theorem roleOf_portCfg {p : Nat} (hp : p < 512) : roleOf (Off.portCfg p) = .portCfg p := by
  have hcfg : instOf (Off.portCfg 0) 0x1000 512 (Off.portCfg p) = some p := instOf_instance (by decide) hp
  have htap : instOf (Off.laneTxTap 0) 0x1000 512 (Off.portCfg p) = none :=
    instOf_eq_none (.inr (.inl (by unfold Off.laneTxTap Off.portCfg; omega)))
  rw [roleOf_of_set (regDef?_portCfg hp) rfl (not_lone_of_traffic (by unfold Off.portCfg; omega)), roleTraffic, htap, hcfg]
  rfl

theorem Device.regWrite_portCfg {d : Device} {s p v : Nat} (hp : p < 512) (hmay : d.mayReach s (Off.portCfg p) = true) :
    ∃ o i, d.regWrite s (Off.portCfg p) v = ((d.counted o).writePortCfg ⟨s, false⟩ p v).poolsMoved.islandAt i := by
  have hsleep : instOf (Off.portSleep 0) 0x1000 512 (Off.portCfg p) = none := by
    refine instOf_eq_none ?_
    unfold Off.portSleep Off.portCfg
    omega
  have hwrite := Device.regWrite_pools (v := v) hmay hsleep (by unfold Off.portCfg; omega) (regDef?_portCfg hp) rfl
  simpa only [Device.writeRole, roleOf_portCfg hp] using hwrite

/-! ### The registers of a span -/

def lathCtlDef : RegDef :=
  ⟨"LATH_CTL", 0x2800000, [(32, 0x4000)], 0x0, .single,
    [⟨31, 31, .rw, .live, []⟩, ⟨30, 29, .rw, .quiet, []⟩, ⟨28, 28, .rw, .live, []⟩, ⟨27, 27, .rw1c, .live, []⟩,
     ⟨8, 0, .rw, .quiet, []⟩]⟩

def lathChanCfgDef : RegDef :=
  ⟨"LATH_CHAN_CFG", 0x2800108, [(32, 0x4000), (63, 0x8)], 0x0, .single,
    [⟨31, 31, .rw, .live, []⟩, ⟨30, 16, .rw, .quiet, []⟩, ⟨15, 0, .rw, .quiet, []⟩]⟩

def lathMapDef : RegDef :=
  ⟨"LATH_MAP", 0x2800400, [(32, 0x4000), (40, 0x4)], 0x0, .single,
    [⟨5, 0, .rw, .live, []⟩, ⟨13, 8, .rw, .live, []⟩, ⟨21, 16, .rw, .live, []⟩, ⟨29, 24, .rw, .live, []⟩]⟩

/-- `r` alone names offsets of the `m` sets of `n`, `st` apart, that begin `sm` apart from its base on. Registers outside the whole range
are told by their extent. -/
def aloneAtEach (r : RegDef) (st n sm m : Nat) : Bool :=
  (regTable.any fun x => x.base == r.base && decide (x = r)) && regTable.all fun x =>
    decide (r.base + sm * m + st * n < x.base + st) || decide (x.base + repsExtent x.reps ≤ r.base) ||
      ((List.range m).all fun j => x.misses (r.base + sm * j) st n) || decide (x = r)

theorem aloneAt_of_each {r : RegDef} {st n sm m j : Nat} (h : aloneAtEach r st n sm m = true) (hj : j < m) :
    aloneAt r (r.base + sm * j) st n = true := by
  rw [aloneAtEach, Bool.and_eq_true, List.all_eq_true] at h
  obtain ⟨hmem, hall⟩ := h
  rw [aloneAt, Bool.and_eq_true, List.all_eq_true]
  refine ⟨hmem, fun x hx => ?_⟩
  have hset : sm * j ≤ sm * m := Nat.mul_le_mul_left sm hj.le
  have hcase := hall x hx
  simp only [Bool.or_eq_true, decide_eq_true_eq, List.all_eq_true, List.mem_range] at hcase
  obtain ((habove | hbelow) | hmiss) | heq := hcase
  · simp [RegDef.misses, show r.base + sm * j + st * n < x.base + st by omega]
  · simp [RegDef.misses, show x.base + repsExtent x.reps ≤ r.base + sm * j by omega]
  · simp [hmiss j hj]
  · simp [heq]

theorem regDef?_lathCtl {s : Nat} (hs : s < 32) : regDef? (Off.lathCtl s) = some lathCtlDef :=
  regDef?_instance (r := lathCtlDef) (st := 0x4000) (by decide +kernel) rfl (by decide) hs

theorem regDef?_lathChanCfg {s k : Nat} (hs : s < 32) (hk : k < 63) : regDef? (Off.lathChanCfg s k) = some lathChanCfgDef := by
  have hall : aloneAtEach lathChanCfgDef 0x4000 32 8 63 = true := by decide +kernel
  have hrest : onInstance [(63, 8)] (8 * k) = true := by
    simp [onInstance, hk]
  have hplace : lathChanCfgDef.base + 8 * k + 0x4000 * s = Off.lathChanCfg s k := by
    unfold Off.lathChanCfg lathChanCfgDef
    dsimp only
    omega
  rw [← hplace]
  exact regDef?_of_aloneAt (aloneAt_of_each hall hk) hs (RegDef.covers_outer rfl hs (by omega) hrest)

theorem regDef?_lathMap {s n : Nat} (hs : s < 32) (hn : n < 40) : regDef? (Off.lathMap s n) = some lathMapDef := by
  have hall : aloneAtEach lathMapDef 0x4000 32 4 40 = true := by decide +kernel
  have hrest : onInstance [(40, 4)] (4 * n) = true := by
    simp [onInstance, hn]
  have hplace : lathMapDef.base + 4 * n + 0x4000 * s = Off.lathMap s n := by
    unfold Off.lathMap lathMapDef
    dsimp only
    omega
  rw [← hplace]
  exact regDef?_of_aloneAt (aloneAt_of_each hall hn) hs (RegDef.covers_outer rfl hs (by omega) hrest)

/-- The span that a register of one names. -/
theorem spanRegOf_eq {s off : Nat} (hs : s < 32) (hoff : Off.lathCtl s ≤ off ∧ off < Off.lathCtl s + 0x4000) : spanRegOf off = some s := by
  unfold Off.lathCtl at hoff
  unfold spanRegOf Off.lathCtl
  rw [if_pos (by omega)]
  congr 1
  omega

/-- The roles of registers from the Lath's on. -/
theorem roleTraffic_of_lath {off : Nat} (h : 0x2800000 ≤ off) : roleTraffic off =
    (((instOf (Off.lathCtl 0) 0x4000 32 off).map Role.lathCtl) <|>
      ((instOf (Off.lathApsCtl 0) 0x4000 32 off).map Role.lathAps) <|>
      ((spanRegOf off).bind fun s => (instOf (Off.lathChanCfg s 0) 8 63 off).map (Role.chanCfg s)) <|>
      ((spanRegOf off).bind fun s => (instOf (Off.lathMap s 0) 4 40 off).map (Role.lathMap s)) <|>
      ((instOf (Off.spreadGrpCtl 0) 0x200 256 off).map Role.grpCtl)) := by
  have hbelow {b st n : Nat} (hb : b + st * n ≤ 0x2800000) : instOf b st n off = none := instOf_eq_none (.inr (.inl (by omega)))
  unfold roleTraffic
  rw [hbelow (b := Off.laneTxTap 0) (by decide), hbelow (b := Off.portCfg 0) (by decide), hbelow (b := Off.bufPortHeadroom 0) (by decide),
    hbelow (b := Off.schedGateCtl 0) (by decide), hbelow (b := Off.schedGateBaseHi 0) (by decide),
    hbelow (b := Off.schedGateCycle 0) (by decide), hbelow (b := Off.schedGateLen 0) (by decide),
    hbelow (b := Off.schedGateData 0) (by decide), hbelow (b := Off.pipeArb 0) (by decide)]
  simp

theorem roleOf_lathCtl {s : Nat} (hs : s < 32) : roleOf (Off.lathCtl s) = .lathCtl s := by
  have hctl : instOf (Off.lathCtl 0) 0x4000 32 (Off.lathCtl s) = some s := instOf_instance (by decide) hs
  rw [roleOf_of_set (regDef?_lathCtl hs) rfl (not_lone_of_traffic (by unfold Off.lathCtl; omega)),
    roleTraffic_of_lath (by unfold Off.lathCtl; omega), hctl]
  rfl

/-- The registers of a span's page that are neither LATH_CTL nor LATH_APS_CTL. -/
theorem instOf_spanReg_eq_none {s k : Nat} (hk : k < 0x4000) (hctl : k ≠ 0) (haps : k ≠ 0xC) :
    instOf (Off.lathCtl 0) 0x4000 32 (0x2800000 + 0x4000 * s + k) = none ∧
      instOf (Off.lathApsCtl 0) 0x4000 32 (0x2800000 + 0x4000 * s + k) = none := by
  constructor
  · refine instOf_eq_none (.inr (.inr ?_))
    unfold Off.lathCtl
    omega
  · refine instOf_eq_none ?_
    unfold Off.lathApsCtl
    omega

theorem roleOf_lathChanCfg {s k : Nat} (hs : s < 32) (hk : k < 63) : roleOf (Off.lathChanCfg s k) = .chanCfg s k := by
  have hplace : Off.lathChanCfg s k = 0x2800000 + 0x4000 * s + (0x108 + 8 * k) := by unfold Off.lathChanCfg; omega
  obtain ⟨hctl, haps⟩ := instOf_spanReg_eq_none (s := s) (k := 0x108 + 8 * k) (by omega) (by omega) (by omega)
  rw [← hplace] at hctl haps
  have hspan : spanRegOf (Off.lathChanCfg s k) = some s := spanRegOf_eq hs (by unfold Off.lathCtl Off.lathChanCfg; omega)
  have hchan : instOf (Off.lathChanCfg s 0) 8 63 (Off.lathChanCfg s k) = some k := instOf_instance (by decide) hk
  rw [roleOf_of_set (regDef?_lathChanCfg hs hk) rfl (not_lone_of_traffic (by omega)), roleTraffic_of_lath (by omega), hctl, haps, hspan,
    Option.bind_some, hchan]
  rfl

theorem roleOf_lathMap {s n : Nat} (hs : s < 32) (hn : n < 40) : roleOf (Off.lathMap s n) = .lathMap s n := by
  have hplace : Off.lathMap s n = 0x2800000 + 0x4000 * s + (0x400 + 4 * n) := by unfold Off.lathMap; omega
  obtain ⟨hctl, haps⟩ := instOf_spanReg_eq_none (s := s) (k := 0x400 + 4 * n) (by omega) (by omega) (by omega)
  rw [← hplace] at hctl haps
  have hspan : spanRegOf (Off.lathMap s n) = some s := spanRegOf_eq hs (by unfold Off.lathCtl Off.lathMap; omega)
  have hchan : instOf (Off.lathChanCfg s 0) 8 63 (Off.lathMap s n) = none :=
    instOf_eq_none (.inr (.inl (by unfold Off.lathChanCfg Off.lathMap; omega)))
  have hmap : instOf (Off.lathMap s 0) 4 40 (Off.lathMap s n) = some n := instOf_instance (by decide) hn
  rw [roleOf_of_set (regDef?_lathMap hs hn) rfl (not_lone_of_traffic (by omega)), roleTraffic_of_lath (by omega), hctl, haps, hspan,
    Option.bind_some, hchan, Option.bind_some, hmap]
  rfl

theorem unfollowed_of_lath {off : Nat} (h : 0x2800000 ≤ off ∧ off < 0x3F00000) : unfollowed off = true :=
  unfollowed_of_place (by unfold Off.devScratch; omega) (by unfold Off.indAddr; omega) (.inr (by omega)) (.inr (by omega))

theorem Device.regWrite_lathCtl {d : Device} {t s v : Nat} (hs : s < 32) (hmay : d.mayReach t (Off.lathCtl s) = true) :
    ∃ o i, d.regWrite t (Off.lathCtl s) v = ((d.counted o).writeLathCtl ⟨t, false⟩ s v).islandAt i := by
  have hwrite := Device.regWrite_alone (v := v) hmay (unfollowed_of_lath (by unfold Off.lathCtl; omega)) (regDef?_lathCtl hs) rfl
  simpa only [Device.writeRole, roleOf_lathCtl hs] using hwrite

theorem Device.regWrite_lathChanCfg {d : Device} {t s k v : Nat} (hs : s < 32) (hk : k < 63)
    (hmay : d.mayReach t (Off.lathChanCfg s k) = true) :
    ∃ o i, d.regWrite t (Off.lathChanCfg s k) v = ((d.counted o).writeChanCfg ⟨t, false⟩ s k v).islandAt i := by
  have hwrite := Device.regWrite_alone (v := v) hmay (unfollowed_of_lath (by unfold Off.lathChanCfg; omega)) (regDef?_lathChanCfg hs hk) rfl
  simpa only [Device.writeRole, roleOf_lathChanCfg hs hk] using hwrite

theorem Device.regWrite_lathMap {d : Device} {t s n v : Nat} (hs : s < 32) (hn : n < 40) (hmay : d.mayReach t (Off.lathMap s n) = true) :
    ∃ o i, d.regWrite t (Off.lathMap s n) v = ((d.counted o).writeLathMap ⟨t, false⟩ s n v).islandAt i := by
  have hwrite := Device.regWrite_alone (v := v) hmay (unfollowed_of_lath (by unfold Off.lathMap; omega)) (regDef?_lathMap hs hn) rfl
  simpa only [Device.writeRole, roleOf_lathMap hs hn] using hwrite

/-! ### SPREAD_GRP_CTL and TELEM_CTL -/

def spreadGrpCtlDef : RegDef :=
  ⟨"SPREAD_GRP_CTL", 0x2A01000, [(256, 0x200)], 0x8000, .single,
    [⟨31, 31, .rw, .live, []⟩, ⟨30, 30, .rw, .quiet, []⟩, ⟨29, 22, .rw, .quiet, []⟩, ⟨21, 15, .rw, .quiet, []⟩]⟩

def telemCtlDef : RegDef :=
  ⟨"TELEM_CTL", 0x3100000, [], 0x80005DC, .single,
    [⟨31, 31, .rw, .live, []⟩, ⟨30, 30, .rw, .quiet, []⟩, ⟨29, 29, .rw, .quiet, []⟩, ⟨28, 26, .rw, .quiet, []⟩,
     ⟨25, 16, .rw, .quiet, []⟩, ⟨13, 0, .rw, .quiet, []⟩]⟩

theorem regDef?_spreadGrpCtl {g : Nat} (hg : g < 256) : regDef? (Off.spreadGrpCtl g) = some spreadGrpCtlDef :=
  regDef?_instance (r := spreadGrpCtlDef) (st := 0x200) (by decide +kernel) rfl (by decide) hg

theorem regDef?_telemCtl : regDef? Off.telemCtl = some telemCtlDef := by decide +kernel

theorem roleOf_spreadGrpCtl {g : Nat} (hg : g < 256) : roleOf (Off.spreadGrpCtl g) = .grpCtl g := by
  have hctl : instOf (Off.lathCtl 0) 0x4000 32 (Off.spreadGrpCtl g) = none :=
    instOf_eq_none (.inr (.inl (by unfold Off.lathCtl Off.spreadGrpCtl; omega)))
  have haps : instOf (Off.lathApsCtl 0) 0x4000 32 (Off.spreadGrpCtl g) = none :=
    instOf_eq_none (.inr (.inl (by unfold Off.lathApsCtl Off.spreadGrpCtl; omega)))
  have hspan : spanRegOf (Off.spreadGrpCtl g) = none := if_neg fun ⟨_, hlt⟩ => by unfold Off.lathCtl Off.spreadGrpCtl at hlt; omega
  have hgrp : instOf (Off.spreadGrpCtl 0) 0x200 256 (Off.spreadGrpCtl g) = some g := instOf_instance (by decide) hg
  rw [roleOf_of_set (regDef?_spreadGrpCtl hg) rfl (not_lone_of_traffic (by unfold Off.spreadGrpCtl; omega)),
    roleTraffic_of_lath (by unfold Off.spreadGrpCtl; omega), hctl, haps, hspan, hgrp]
  rfl

theorem Device.regWrite_spreadGrpCtl {d : Device} {s g v : Nat} (hg : g < 256) (hmay : d.mayReach s (Off.spreadGrpCtl g) = true) :
    ∃ o i, d.regWrite s (Off.spreadGrpCtl g) v = ((d.counted o).writeGrpCtl ⟨s, false⟩ g v).islandAt i := by
  have hwrite := Device.regWrite_alone (v := v) hmay (unfollowed_of_lath (by unfold Off.spreadGrpCtl; omega)) (regDef?_spreadGrpCtl hg) rfl
  simpa only [Device.writeRole, roleOf_spreadGrpCtl hg] using hwrite

theorem Device.regWrite_telemCtl {d : Device} {s v : Nat} (hmay : d.mayReach s Off.telemCtl = true) :
    ∃ o i, d.regWrite s Off.telemCtl v = ((d.counted o).writeTelemCtl ⟨s, false⟩ v).islandAt i :=
  have hrole : roleOf Off.telemCtl = .telemCtl := by decide +kernel
  by simpa only [Device.writeRole, hrole] using Device.regWrite_alone (v := v) hmay (by decide) regDef?_telemCtl rfl

/-! ### What a write leaves of a register's fields (R8, R12) -/

/-- A field leaves every bit above it. -/
theorem testBit_fieldWrite {off v n : Nat} {open_ boot : Field → Bool} {acc : Nat × Bool} {f : Field} (hhi : f.hi < n) (hlo : f.lo ≤ f.hi) :
    (fieldWrite off v open_ boot acc f).1.testBit n = acc.1.testBit n := by
  have hset (x : Nat) : (setBits acc.1 f.hi f.lo x).testBit n = acc.1.testBit n := by
    have hbits := bits_setBits_above acc.1 f.lo x n hhi (by omega)
    rw [← bit, ← bit, bit_eq_bits, bit_eq_bits, hbits]
  unfold fieldWrite
  extract_lets x o
  split
  · exact hset _
  · split
    · exact hset _
    · rfl
  · split
    · rfl
    · split
      · exact hset _
      · rfl
  · split
    · exact hset _
    · rfl
  · rfl

theorem Device.testBit_newValue {d : Device} {w : Writer} {off v : Nat} {r : RegDef} {skip : List Nat}
    (h : ∀ f ∈ r.fields.filter fun f => !skip.contains f.lo, f.hi < 31 ∧ f.lo ≤ f.hi) :
    (d.newValue w off v r skip).1.testBit 31 = (d.reg off).testBit 31 := by
  refine List.foldlRecOn (motive := fun acc : Nat × Bool => acc.1.testBit 31 = (d.reg off).testBit 31) _ _ rfl fun acc hacc f hf => ?_
  obtain ⟨hhi, hlo⟩ := h f hf
  exact (testBit_fieldWrite hhi hlo).trans hacc

/-- A write of a register none of whose fields waits for a start: it takes the new value, and may be flagged under R12. -/
theorem Device.plainWrite_cases {d : Device} {w : Writer} {off v : Nat} {skip : List Nat} {r : RegDef} (hr : regDef? off = some r)
    (hboot : r.fields.any (fun f => f.chg == .boot && f.acc == .rw) = false) :
    d.plainWrite w off v skip = d.setReg off (d.newValue w off v r skip).1 ∨
      d.plainWrite w off v skip = (d.setReg off (d.newValue w off v r skip).1).quietFlag w.seat off v := by
  have hnone : (r.fields.filter fun f => f.chg == .boot && f.acc == .rw) = [] :=
    List.filter_eq_nil_iff.mpr fun f hf hb => by
      rw [List.any_eq_false] at hboot
      exact hboot f hf hb
  unfold Device.plainWrite Device.bootWrite
  simp only [hr, hnone, List.isEmpty_nil, Bool.or_true, if_true]
  cases (d.newValue w off v r skip).2
  · exact .inl rfl
  · exact .inr rfl

/-- Outside the Hawk's registers and those of the notice rings a write changes at most its own. -/
theorem Device.reg_plainWrite {d : Device} {w : Writer} {off v o : Nat} {skip : List Nat} {r : RegDef} (hr : regDef? off = some r)
    (hboot : r.fields.any (fun f => f.chg == .boot && f.acc == .rw) = false) (ho : raiseReg o = false) :
    (d.plainWrite w off v skip).reg o = (d.setReg off (d.newValue w off v r skip).1).reg o := by
  have hquiet : o ≠ Off.hawkQuiet ∧ o ≠ Off.hawkQuietVal := by
    constructor <;> (rintro rfl; exact absurd ho (by decide))
  obtain ⟨hq, hqv⟩ := hquiet
  rcases Device.plainWrite_cases (d := d) (w := w) (v := v) (skip := skip) hr hboot with hw | hw
  · rw [hw]
  · rw [hw]
    generalize d.setReg off (d.newValue w off v r skip).1 = t
    have hraise : (((t.setReg Off.hawkQuiet (2 ^ 31 + w.seat % 4 * 2 ^ 29 + off % 2 ^ 26)).setReg Off.hawkQuietVal v).raise 465 Sev.warn
        Cause.writeIgnored off (v + w.seat % 4 * 2 ^ 62)).reg o = t.reg o := by
      rw [Device.reg_raise (by decide) ho, Device.reg_setReg_other _ _ hqv, Device.reg_setReg_other _ _ hq]
    exact hraise

/-- A write that leaves out the highest bit of a register leaves it, and every other register but the Hawk's and those of the rings. -/
theorem Device.plainWrite_keeps {d : Device} {w : Writer} {off v : Nat} {r : RegDef} (hr : regDef? off = some r)
    (hboot : r.fields.any (fun f => f.chg == .boot && f.acc == .rw) = false)
    (hfields : ∀ f ∈ r.fields.filter fun f => !([31] : List Nat).contains f.lo, f.hi < 31 ∧ f.lo ≤ f.hi) (hoff : raiseReg off = false) :
    (d.plainWrite w off v [31]).flag off 31 = d.flag off 31 ∧
      ∀ o, raiseReg o = false → o ≠ off → (d.plainWrite w off v [31]).reg o = d.reg o := by
  refine ⟨?_, fun o ho hne => (Device.reg_plainWrite hr hboot ho).trans (d.reg_setReg_other _ hne)⟩
  rw [Device.flag_eq_testBit, Device.flag_eq_testBit, Device.reg_plainWrite hr hboot hoff, Device.reg_setReg_self, Nat.testBit_mod_two_pow,
    Device.testBit_newValue hfields]
  simp

end Sys2Proof.Machine
end

section
set_option Elab.async false
/-! PROOFS. The values that writes of the enabling registers leave while what they enable is disabled (R12, R289, R314, R328, R274, R510). -/

namespace Sys2Proof.Machine

/-! ### A Quiet field is open while its part is disabled (R12) -/

theorem portOf_portCfg {p : Nat} (hp : p < 512) : portOf (Off.portCfg p) = some p := by
  have hcell : ¬(Off.bufPortCt 0 ≤ Off.portCfg p ∧ Off.portCfg p < Off.bufPortCt 0 + 0x40 * 512) := by
    unfold Off.bufPortCt Off.portCfg
    omega
  have hcal : ¬(Off.schedCal 0 ≤ Off.portCfg p ∧ Off.portCfg p < Off.schedCal 0 + 0x100 * 512) := by
    unfold Off.schedCal Off.portCfg
    omega
  have hcfg : Off.portCfg 0 ≤ Off.portCfg p ∧ Off.portCfg p < Off.portCfg 0 + 0x1000 * 512 := by
    unfold Off.portCfg
    omega
  have hdiv : (Off.portCfg p - Off.portCfg 0) / 0x1000 = p := by
    unfold Off.portCfg
    omega
  simp only [portOf, if_neg hcell, if_neg hcal, if_pos hcfg, hdiv]
  rfl

theorem Device.stoppedFor_portCfg {d : Device} {p : Nat} {f : Field} (hp : p < 512) : d.stoppedFor (Off.portCfg p) f = !d.macEn p := by
  have hcal : Off.portCfg p ≠ Off.schedCal p := by
    unfold Off.portCfg Off.schedCal
    omega
  simp only [Device.stoppedFor, portOf_portCfg hp, if_neg hcal]

/-- The registers above the ports' own that are not of SPREAD_PORT name no port and no flow space. -/
theorem portOf_spaceOf_eq_none {off : Nat} (h : 0x2600000 ≤ off) (hport : off < 0x2A40000 ∨ 0x2A40800 ≤ off) :
    portOf off = none ∧ spaceOf off = none := by
  have hout {b st : Nat} (hb : off < b ∨ b + st * 512 ≤ off) : ¬(b ≤ off ∧ off < b + st * 512) := by omega
  constructor
  · simp only [portOf, if_neg (hout (b := Off.bufPortCt 0) (st := 0x40) (.inr (by unfold Off.bufPortCt; omega))),
      if_neg (hout (b := Off.schedCal 0) (st := 0x100) (.inr (by unfold Off.schedCal; omega))),
      if_neg (hout (b := Off.portCfg 0) (st := 0x1000) (.inr (by unfold Off.portCfg; omega))),
      if_neg (hout (b := Off.spreadPort 0) (st := 4) (by unfold Off.spreadPort; omega)),
      if_neg (hout (b := Off.plumbPortTs 0) (st := 0x10) (.inr (by unfold Off.plumbPortTs; omega)))]
    rfl
  · exact if_neg fun ⟨_, hlt⟩ => by
      unfold Off.flowSpaceCtl at hlt
      omega

theorem Device.stoppedFor_lathCtl {d : Device} {s : Nat} {f : Field} (hs : s < 32) : d.stoppedFor (Off.lathCtl s) f = !d.spanEn s := by
  obtain ⟨hport, hspace⟩ := portOf_spaceOf_eq_none (off := Off.lathCtl s) (by unfold Off.lathCtl; omega) (by unfold Off.lathCtl; omega)
  have haps : Off.lathCtl s ≠ Off.lathApsCtl s := by
    unfold Off.lathCtl Off.lathApsCtl
    omega
  have hchan : instOf (Off.lathChanCfg s 0) 8 63 (Off.lathCtl s) = none :=
    instOf_eq_none (.inl (by unfold Off.lathCtl Off.lathChanCfg; omega))
  simp only [Device.stoppedFor, hport, hspace, spanRegOf_eq hs (show Off.lathCtl s ≤ Off.lathCtl s ∧ _ by omega), if_neg haps, hchan]

theorem Device.stoppedFor_lathChanCfg {d : Device} {s k : Nat} {f : Field} (hs : s < 32) (hk : k < 63) :
    d.stoppedFor (Off.lathChanCfg s k) f = !d.flag (Off.lathChanCfg s k) 31 := by
  have hplace : Off.lathChanCfg s k = 0x2800108 + 0x4000 * s + 8 * k := rfl
  obtain ⟨hport, hspace⟩ := portOf_spaceOf_eq_none (off := Off.lathChanCfg s k) (by omega) (by omega)
  have haps : Off.lathChanCfg s k ≠ Off.lathApsCtl s := by
    unfold Off.lathApsCtl
    omega
  have hspan : spanRegOf (Off.lathChanCfg s k) = some s := spanRegOf_eq hs (by unfold Off.lathCtl; omega)
  have hchan : instOf (Off.lathChanCfg s 0) 8 63 (Off.lathChanCfg s k) = some k := instOf_instance (by decide) hk
  simp only [Device.stoppedFor, hport, hspace, hspan, if_neg haps, hchan]

theorem Device.stoppedFor_spreadGrpCtl {d : Device} {g : Nat} {f : Field} (hg : g < 256) :
    d.stoppedFor (Off.spreadGrpCtl g) f = !d.groupEn g := by
  have hplace : Off.spreadGrpCtl g = 0x2A01000 + 0x200 * g := rfl
  obtain ⟨hport, hspace⟩ := portOf_spaceOf_eq_none (off := Off.spreadGrpCtl g) (by omega) (by omega)
  have hspan : spanRegOf (Off.spreadGrpCtl g) = none := if_neg fun ⟨_, hlt⟩ => by
    unfold Off.lathCtl at hlt
    omega
  have hchan : ¬(Off.rstoreChStatus 0 ≤ Off.spreadGrpCtl g ∧ Off.spreadGrpCtl g < Off.rstoreChStatus 0 + 0x100 * 32) := by
    unfold Off.rstoreChStatus
    omega
  have hgroup : Off.spreadGrpCtl 0 ≤ Off.spreadGrpCtl g ∧ Off.spreadGrpCtl g < Off.spreadGrpCtl 0 + 0x200 * 256 := by
    unfold Off.spreadGrpCtl
    omega
  have hdiv : (Off.spreadGrpCtl g - Off.spreadGrpCtl 0) / 0x200 = g := by
    unfold Off.spreadGrpCtl
    omega
  simp only [Device.stoppedFor, hport, hspace, hspan, if_neg hchan, if_pos hgroup, hdiv]
  rfl

theorem Device.stoppedFor_telemCtl {d : Device} {f : Field} : d.stoppedFor Off.telemCtl f = !d.flag Off.telemCtl 31 := rfl

/-! ### Fields written -/

/-- A Quiet field that is open and is written with its own value, or with one it does not take, stays. -/
theorem fieldWrite_quiet_same {off v : Nat} {open_ boot : Field → Bool} {acc : Nat × Bool} {hi lo : Nat} {resv : List Nat}
    (hopen : open_ ⟨hi, lo, .rw, .quiet, resv⟩ = true) (hsame : bits v hi lo = bits acc.1 hi lo) :
    fieldWrite off v open_ boot acc ⟨hi, lo, .rw, .quiet, resv⟩ = acc := by
  simp [fieldWrite, hopen, hsame, setBits_bits]

theorem testBit_bits (x hi lo i : Nat) : (bits x hi lo).testBit i = (decide (i < hi + 1 - lo) && x.testBit (lo + i)) := by
  rw [bits, Nat.testBit_mod_two_pow, Nat.testBit_div_two_pow, Nat.add_comm i lo]

/-- A part of a field that two values share. -/
theorem bits_sub {v r hi lo hi' lo' : Nat} (h : bits v hi lo = bits r hi lo) (hlo : lo ≤ lo') (hhi : hi' ≤ hi) :
    bits v hi' lo' = bits r hi' lo' := by
  refine Nat.eq_of_testBit_eq fun i => ?_
  rw [testBit_bits, testBit_bits]
  by_cases hin : i < hi' + 1 - lo'
  · have hbit := congrArg (·.testBit (lo' - lo + i)) h
    have hwhole : lo' - lo + i < hi + 1 - lo := by omega
    simp only [testBit_bits, show lo + (lo' - lo + i) = lo' + i by omega, hwhole, decide_true, Bool.true_and] at hbit
    rw [hbit]
  · simp [hin]

theorem fieldWrite_quiet_open {off v : Nat} {open_ boot : Field → Bool} {acc : Nat × Bool} {hi lo : Nat} (hlo : lo ≠ 0 ∨ hi ≠ 11)
    (hopen : open_ ⟨hi, lo, .rw, .quiet, []⟩ = true) :
    fieldWrite off v open_ boot acc ⟨hi, lo, .rw, .quiet, []⟩ = (setBits acc.1 hi lo (bits v hi lo), acc.2) := by
  have hplain : ¬(lo = 0 ∧ hi = 11 ∧ (instOf (Off.perfSel 0) 0x20 256 off).isSome) := fun ⟨h0, h11, _⟩ => by omega
  simp [fieldWrite, Field.takes, hopen, if_neg hplain]

theorem fieldWrite_live {off v : Nat} {open_ boot : Field → Bool} {acc : Nat × Bool} {hi lo : Nat} (hlo : lo ≠ 0 ∨ hi ≠ 11) :
    fieldWrite off v open_ boot acc ⟨hi, lo, .rw, .live, []⟩ = (setBits acc.1 hi lo (bits v hi lo), acc.2) := by
  have hplain : ¬(lo = 0 ∧ hi = 11 ∧ (instOf (Off.perfSel 0) 0x20 256 off).isSome) := fun ⟨h0, h11, _⟩ => by omega
  simp [fieldWrite, Field.takes, if_neg hplain]

variable {d : Device} {p s k g v w : Nat}

/-- PORT_CFG written with its own mode: bit 20 alone is taken. -/
theorem Device.newValue_portCfg (hp : p < 512) (hoff : d.macEn p = false) (hmode : bits v 30 21 = d.fld (Off.portCfg p) 30 21)
    (hlen : bits v 13 0 = d.fld (Off.portCfg p) 13 0) :
    d.newValue ⟨w, false⟩ (Off.portCfg p) v portCfgDef [31] = (setBits (d.reg (Off.portCfg p)) 20 20 (bits v 20 20), false) := by
  have hopen (f : Field) : (false || d.stoppedFor (Off.portCfg p) f) = true := by
    rw [Device.stoppedFor_portCfg hp, hoff]
    rfl
  have hkeep (hi lo : Nat) (resv : List Nat) (hlo : 21 ≤ lo) (hhi : hi ≤ 30) :
      fieldWrite (Off.portCfg p) v (fun f => false || d.stoppedFor (Off.portCfg p) f) (fun _ => false) (d.reg (Off.portCfg p), false)
        ⟨hi, lo, .rw, .quiet, resv⟩ = (d.reg (Off.portCfg p), false) := fieldWrite_quiet_same (hopen _) (bits_sub hmode hlo hhi)
  have hlow : bits v 13 0 = bits (setBits (d.reg (Off.portCfg p)) 20 20 (bits v 20 20)) 13 0 :=
    hlen.trans (bits_setBits_below _ _ _ _ (by omega)).symm
  show List.foldl _ _ [_, _, _, _, _, _, _] = _
  simp only [List.foldl_cons, List.foldl_nil]
  rw [hkeep 30 27 _ (by omega) (by omega), hkeep 26 25 _ (by omega) (by omega), hkeep 24 23 _ (by omega) (by omega),
    hkeep 22 22 _ (by omega) (by omega), hkeep 21 21 _ (by omega) (by omega), fieldWrite_live (by omega),
    fieldWrite_quiet_same (hopen _) hlow]

/-- LATH_CTL written with its own lanes: bits 28 and 27 alone may change. -/
theorem Device.newValue_lathCtl (hs : s < 32) (hoff : d.spanEn s = false) (hcount : bits v 30 29 = d.fld (Off.lathCtl s) 30 29)
    (hfirst : bits v 8 0 = d.fld (Off.lathCtl s) 8 0) :
    ∃ a b, d.newValue ⟨w, false⟩ (Off.lathCtl s) v lathCtlDef [31] = (setBits (setBits (d.reg (Off.lathCtl s)) 28 28 a) 27 27 b, false) := by
  have hopen (f : Field) : (false || d.stoppedFor (Off.lathCtl s) f) = true := by
    rw [Device.stoppedFor_lathCtl hs, hoff]
    rfl
  have hlow (a b : Nat) : bits v 8 0 = bits (setBits (setBits (d.reg (Off.lathCtl s)) 28 28 a) 27 27 b) 8 0 := by
    rw [bits_setBits_below _ _ _ _ (by omega), bits_setBits_below _ _ _ _ (by omega)]
    exact hfirst
  let shown := setBits (d.reg (Off.lathCtl s)) 28 28 (bits v 28 28)
  refine ⟨bits v 28 28, bits shown 27 27 - (bits shown 27 27 &&& bits v 27 27), ?_⟩
  show List.foldl _ _ [_, _, _, _] = _
  simp only [List.foldl_cons, List.foldl_nil]
  rw [fieldWrite_quiet_same (acc := (d.reg (Off.lathCtl s), false)) (hopen _) hcount, fieldWrite_live (by omega)]
  exact fieldWrite_quiet_same (hopen _) (hlow _ _)

/-- LATH_CHAN_CFG written with its own rate and burst. -/
theorem Device.newValue_lathChanCfg (hs : s < 32) (hk : k < 63) (hoff : d.flag (Off.lathChanCfg s k) 31 = false)
    (hsame : bits v 30 0 = d.fld (Off.lathChanCfg s k) 30 0) :
    d.newValue ⟨w, false⟩ (Off.lathChanCfg s k) v lathChanCfgDef [31] = (d.reg (Off.lathChanCfg s k), false) := by
  have hopen (f : Field) : (false || d.stoppedFor (Off.lathChanCfg s k) f) = true := by
    rw [Device.stoppedFor_lathChanCfg hs hk, hoff]
    rfl
  have hkeep (hi lo : Nat) (hhi : hi ≤ 30) :
      fieldWrite (Off.lathChanCfg s k) v (fun f => false || d.stoppedFor (Off.lathChanCfg s k) f) (fun _ => false) (d.reg (Off.lathChanCfg s k), false) ⟨hi, lo, .rw, .quiet, []⟩ =
        (d.reg (Off.lathChanCfg s k), false) := fieldWrite_quiet_same (hopen _) (bits_sub hsame (by omega) hhi)
  show List.foldl _ _ [_, _] = _
  simp only [List.foldl_cons, List.foldl_nil]
  rw [hkeep 30 16 (by omega), hkeep 15 0 (by omega)]

/-- TELEM_CTL written with its own fields. -/
theorem Device.newValue_telemCtl (hoff : d.flag Off.telemCtl 31 = false) (hsame : bits v 30 0 = d.fld Off.telemCtl 30 0) :
    d.newValue ⟨w, false⟩ Off.telemCtl v telemCtlDef [31] = (d.reg Off.telemCtl, false) := by
  have hopen (f : Field) : (false || d.stoppedFor Off.telemCtl f) = true := by
    rw [Device.stoppedFor_telemCtl, hoff]
    rfl
  have hkeep (hi lo : Nat) (hhi : hi ≤ 30) :
      fieldWrite Off.telemCtl v (fun f => false || d.stoppedFor Off.telemCtl f) (fun _ => false) (d.reg Off.telemCtl, false) ⟨hi, lo, .rw, .quiet, []⟩ =
        (d.reg Off.telemCtl, false) := fieldWrite_quiet_same (hopen _) (bits_sub hsame (by omega) hhi)
  show List.foldl _ _ [_, _, _, _, _] = _
  simp only [List.foldl_cons, List.foldl_nil]
  rw [hkeep 30 30 (by omega), hkeep 29 29 (by omega),
    hkeep 28 26 (by omega), hkeep 25 16 (by omega),
    hkeep 13 0 (by omega)]

/-- SPREAD_GRP_CTL of a disabled group takes the kind of group. -/
theorem Device.newValue_spreadGrpCtl (hg : g < 256) (hoff : d.groupEn g = false) :
    (d.newValue ⟨w, false⟩ (Off.spreadGrpCtl g) v spreadGrpCtlDef [31]).1.testBit 30 = bit v 30 := by
  have hopen (f : Field) : (false || d.stoppedFor (Off.spreadGrpCtl g) f) = true := by
    rw [Device.stoppedFor_spreadGrpCtl hg, hoff]
    rfl
  show (List.foldl (fieldWrite _ _ _ _) _ [_, _, _]).1.testBit 30 = _
  simp only [List.foldl_cons, List.foldl_nil]
  rw [testBit_fieldWrite (by decide) (by decide), testBit_fieldWrite (by decide) (by decide), fieldWrite_quiet_open (by omega) (hopen _),
    ← bit, bit_eq_bits, bit_eq_bits, bits_setBits_self, Nat.mod_eq_of_lt (bits_lt v 30 30)]

end Sys2Proof.Machine
end

section
set_option Elab.async false
/-! PROOFS. A span that is enabled stays so while it shows its defects and its protection group is looked at; one that is disabled shows
nothing (R314, R321, R334). -/

namespace Sys2Proof.Machine

variable {d t : Device} {s n v w x : Nat} {b : Bool}

theorem enableReg_lathCtl (s : Nat) : enableReg (Off.lathCtl s) = true := decide_eq_true (by unfold Off.lathCtl; omega)

theorem enableReg_lathStatus (s : Nat) : enableReg (Off.lathStatus s) = true := decide_eq_true (by unfold Off.lathStatus; omega)

theorem Device.working_lt (hs : s < 32) : d.working s < 32 := by
  unfold Device.working Device.protects
  cases hfind : (d.listed (Off.lathApsCtl 0) 0x4000 32).find? fun w =>
      d.flag (Off.lathApsCtl w) 31 && d.fld (Off.lathApsCtl w) 28 24 == s && w != s with
  | none => exact hs
  | some w => exact Device.lt_of_mem_listed (List.mem_of_find?_eq_some hfind)

/-! ### A span shown (R321) -/

/-- A span that is shown writes LATH_STATUS.UP alone of the enabling registers. -/
theorem Device.showSpan_kept : (d.setFlag (Off.lathStatus s) 31 (d.spanEn s && !d.spanFailed s)).EnablesKept (d.showSpan s) := by
  unfold Device.showSpan
  extract_lets w before t
  split
  · exact (Device.EnablesKept.refl t).flushPort
  · exact Device.EnablesKept.refl t

theorem Device.EnablesKept.defectEvent (h : d.EnablesKept t) (hs : s < 32) : d.EnablesKept (t.defectEvent s b) := by
  have hfree : d.EnablesKept ((t.free 5).1.free 5).1 := h.free.free
  unfold Device.defectEvent
  exact hfree.raise (by unfold spanSource; omega)

/-- A defect of a span that changes is shown with an event. -/
theorem Device.setDefect_eq (hne : d.flag (Off.lathStatus s) n ≠ b) :
    d.setDefect s n b = ((d.setFlag (Off.lathStatus s) n b).defectEvent s b).showSpan s := by
  rw [Device.setDefect, if_neg (by simpa using hne)]

/-- LATH_CTL of every span is left by a defect, by a span shown, and by a look at a protection group. -/
theorem Device.lathCtl_showSpan : (d.showSpan s).reg (Off.lathCtl x) = d.reg (Off.lathCtl x) :=
  (Device.showSpan_kept _ (enableReg_lathCtl x)).trans (d.reg_setReg_other _ (by unfold Off.lathCtl Off.lathStatus; omega))

theorem Device.lathCtl_setDefect (hs : s < 32) : (d.setDefect s n b).reg (Off.lathCtl x) = d.reg (Off.lathCtl x) := by
  by_cases hsame : d.flag (Off.lathStatus s) n = b
  · rw [Device.setDefect, hsame, beq_self_eq_true, if_pos rfl]
  · rw [Device.setDefect_eq hsame, Device.lathCtl_showSpan,
      (Device.EnablesKept.refl _).defectEvent hs _ (enableReg_lathCtl x)]
    exact d.reg_setReg_other _ (by unfold Off.lathCtl Off.lathStatus; omega)

theorem Device.EnablesKept.apsTurn (h : d.EnablesKept t) (hw : w < 32) : d.EnablesKept (t.apsTurn w b) := by
  have hturn : d.EnablesKept ((t.setFlag (Off.lathApsStatus w) 31 b).bump (Off.lathApsSwitch w) 1) :=
    (h.setFlag (by unfold Off.lathApsStatus; omega)).bump (by unfold Off.lathApsSwitch; omega)
  have hlost (u : Device) (k : Nat) (hu : d.EnablesKept u) : d.EnablesKept (u.bump (Off.lathApsLost w) k) :=
    hu.bump (by unfold Off.lathApsLost; omega)
  unfold Device.apsTurn
  extract_lets t₁
  split
  next u a e =>
  have hu : d.EnablesKept u := by
    rw [← show (t₁.free 5).1 = u from congrArg Prod.fst e]
    exact hturn.free
  extract_lets u₁ held u₂
  have h₁ : d.EnablesKept u₁ := hu.raise (by unfold spanSource; omega)
  have h₂ : d.EnablesKept u₂ := by
    unfold u₂
    split
    · extract_lets next
      split
      · exact hlost _ _ h₁
      · exact h₁
    · exact h₁
  exact h₂.deliverHeld

theorem Device.EnablesKept.apsLook (h : d.EnablesKept t) (hs : s < 32) : d.EnablesKept (t.apsLook s) := by
  unfold Device.apsLook
  extract_lets w old bad cleared t₁ t₂
  have hw : w < 32 := Device.working_lt hs
  split
  · exact h
  · split
    · exact h
    · extract_lets now t₃ sel
      have h₁ : d.EnablesKept t₁ := h.modSpan
      have h₂ : d.EnablesKept t₂ := by
        unfold t₂
        split
        · exact h₁.modSpan
        · split
          · split
            · exact h₁.modSpan
            · exact h₁.modSpan
          · exact h₁
      have h₃ : d.EnablesKept t₃ := by
        unfold t₃
        split
        · exact h₂
        · exact h₂.setFld (by unfold Off.lathApsStatus; omega)
      split
      · exact h₃
      · exact h₃.apsTurn hw

/-! ### A span enabled (R314) -/

/-- Where the rule of a span's lanes is met, EN is taken. -/
theorem Device.enableSpan_taken (hs : s < 32) (hok : d.spanOk s = true) : (d.enableSpan s v).spanEn s = true := by
  have hctl : Off.lathCtl s ≠ Off.lathStatus s := by unfold Off.lathCtl Off.lathStatus; omega
  unfold Device.enableSpan
  simp only [hok, Bool.not_true, Bool.false_eq_true, if_false]
  generalize hstart : (d.setFlag (Off.lathCtl s) 31 true).modSpan s _ = t
  have hen : t.reg (Off.lathCtl s) = (d.setFlag (Off.lathCtl s) 31 true).reg (Off.lathCtl s) := by
    rw [← hstart, Device.reg_modSpan]
  have hdefects : (((List.range (t.spanL s)).foldl (fun u i => u.setDefect s i true) (t.setReg (Off.lathStatus s) 0)).reg (Off.lathCtl s)) =
      t.reg (Off.lathCtl s) :=
    List.foldlRecOn (motive := fun u : Device => u.reg (Off.lathCtl s) = t.reg (Off.lathCtl s)) _ _ (t.reg_setReg_other _ hctl)
      fun u hu i _ => (Device.lathCtl_setDefect hs).trans hu
  have hlook (u : Device) : (u.apsLook s).reg (Off.lathCtl s) = u.reg (Off.lathCtl s) :=
    (Device.EnablesKept.refl u).apsLook hs _ (enableReg_lathCtl s)
  rw [Device.spanEn, Device.flag_congr ((hlook _).trans (Device.lathCtl_showSpan.trans (hdefects.trans hen))),
    Device.flag_setFlag_self _ _ _ (by omega)]

/-- Otherwise it is refused, and MAP_ERR shows it. -/
theorem Device.spanRefuse_shows {off : Nat} (hs : s < 32) (hoff : d.spanEn s = false) :
    (d.spanRefuse s off v).spanEn s = false ∧ (d.spanRefuse s off v).flag (Off.lathCtl s) 27 = true := by
  have hraise : (d.spanRefuse s off v).reg (Off.lathCtl s) = (d.setFlag (Off.lathCtl s) 27 true).reg (Off.lathCtl s) :=
    (Device.EnablesKept.refl _).raise (by unfold spanSource; omega) _ (enableReg_lathCtl s)
  refine ⟨?_, (Device.flag_congr hraise).trans (Device.flag_setFlag_self _ _ _ (by omega))⟩
  rw [Device.spanEn, Device.flag_congr hraise, ← hoff]
  unfold Device.flag Device.setFlag
  rw [Device.fld_setFld_apart _ _ _ (by omega) (by omega) (.inr (by omega))]
  rfl

/-! ### A span disabled (R314) -/

/-- The span is disabled, and of LATH_STATUS the defects below `k` and UP are clear. -/
def Device.Dark (s k : Nat) (d : Device) : Prop :=
  d.spanEn s = false ∧ ∀ i, i < k ∨ i = 31 → d.flag (Off.lathStatus s) i = false

theorem Device.Dark.of_kept {k : Nat} (h : Device.Dark s k d) (hkept : d.EnablesKept t) : Device.Dark s k t := by
  obtain ⟨hen, hstatus⟩ := h
  exact ⟨(Device.flag_congr (hkept _ (enableReg_lathCtl s))).trans hen,
    fun i hi => (Device.flag_congr (hkept _ (enableReg_lathStatus s))).trans (hstatus i hi)⟩

theorem Device.flag_setFlag_apart {off m : Nat} (hm : m < 32) (hne : n ≠ m) : (d.setFlag off m b).flag off n = d.flag off n := by
  unfold Device.flag Device.setFlag
  rw [Device.fld_setFld_apart _ _ _ hm (by omega) (by omega)]

/-- A defect cleared. -/
theorem Device.Dark.clear {k : Nat} (h : Device.Dark s k d) (hk : k < 31) :
    Device.Dark s (k + 1) (d.setFlag (Off.lathStatus s) k false) := by
  obtain ⟨hen, hstatus⟩ := h
  have hctl : Off.lathCtl s ≠ Off.lathStatus s := by unfold Off.lathCtl Off.lathStatus; omega
  refine ⟨(Device.flag_setFlag_other _ _ _ _ hctl).trans hen, fun i hi => ?_⟩
  by_cases heq : i = k
  · rw [heq, Device.flag_setFlag_self _ _ _ (by omega)]
  · rw [Device.flag_setFlag_apart (by omega) heq]
    exact hstatus i (by omega)

/-- A disabled span that is shown is down. -/
theorem Device.Dark.showSpan {k : Nat} (hen : d.spanEn s = false) (h : ∀ i, i < k → d.flag (Off.lathStatus s) i = false) :
    Device.Dark s k (d.showSpan s) := by
  have hctl : Off.lathCtl s ≠ Off.lathStatus s := by unfold Off.lathCtl Off.lathStatus; omega
  have hdown : Device.Dark s k (d.setFlag (Off.lathStatus s) 31 (d.spanEn s && !d.spanFailed s)) := by
    rw [hen, Bool.false_and]
    refine ⟨(Device.flag_setFlag_other _ _ _ _ hctl).trans hen, fun i hi => ?_⟩
    by_cases heq : i = 31
    · rw [heq, Device.flag_setFlag_self _ _ _ (by omega)]
    · rw [Device.flag_setFlag_apart (by omega) heq]
      exact h i (by omega)
  exact hdown.of_kept Device.showSpan_kept

theorem Device.Dark.setDefect {k : Nat} (h : Device.Dark s k d) (hs : s < 32) (hk : k < 31) :
    Device.Dark s (k + 1) (d.setDefect s k false) := by
  by_cases hsame : d.flag (Off.lathStatus s) k = false
  · rw [Device.setDefect, hsame, beq_self_eq_true, if_pos rfl]
    obtain ⟨hen, hstatus⟩ := h
    refine ⟨hen, fun i hi => ?_⟩
    by_cases heq : i = k
    · rw [heq, hsame]
    · exact hstatus i (by omega)
  · rw [Device.setDefect_eq hsame]
    obtain ⟨hen, hstatus⟩ := (h.clear hk).of_kept ((Device.EnablesKept.refl _).defectEvent (b := false) hs)
    exact Device.Dark.showSpan hen fun i hi => hstatus i (.inl hi)

/-- A span that is disabled shows nothing. -/
theorem Device.disableSpan_dark (hs : s < 32) : (d.disableSpan s).spanEn s = false ∧ (d.disableSpan s).reg (Off.lathStatus s) = 0 := by
  have hstart : Device.Dark s 0 ((d.setFlag (Off.lathCtl s) 31 false).showSpan s) :=
    Device.Dark.showSpan (Device.flag_setFlag_self _ _ _ (by omega)) fun i hi => absurd hi (by omega)
  have hclear (k : Nat) (hk : k ≤ 31) : Device.Dark s k
      ((List.range k).foldl (fun u n => u.setDefect s n false) ((d.setFlag (Off.lathCtl s) 31 false).showSpan s)) := by
    induction k with
    | zero =>
      rw [List.range_zero, List.foldl_nil]
      exact hstart
    | succ k ih =>
      rw [List.range_succ, List.foldl_append, List.foldl_cons, List.foldl_nil]
      exact (ih (by omega)).setDefect hs (by omega)
  obtain ⟨hen, hstatus⟩ := hclear 31 (by omega)
  unfold Device.disableSpan
  extract_lets t
  generalize (List.range 31).foldl (fun u n => u.setDefect s n false) t = u at hen hstatus ⊢
  rw [Device.spanEn, Device.flag_modSpan, Device.reg_modSpan]
  refine ⟨hen, Nat.eq_of_testBit_eq fun i => ?_⟩
  rw [Nat.zero_testBit]
  by_cases hi : i < 32
  · rw [← hstatus i (by omega), Device.flag_eq_testBit]
  · exact Nat.testBit_lt_two_pow (lt_of_lt_of_le (Device.reg_lt _ _) (Nat.pow_le_pow_right (by decide) (by omega)))

end Sys2Proof.Machine
end

section
set_option Elab.async false
/-! PROOFS. A port disabled, enabled or refused (R219, R289), and the other enabling registers (R274, R328, R329, R510). -/

namespace Sys2Proof

/-- A key set to one value or to another: the keys are the same. -/
theorem NMap.keys_set {α : Type} (m : NMap α) (a : Nat) (v w : α) : NMap.keys (NMap.set m a v) = NMap.keys (NMap.set m a w) := by
  induction m with
  | nil => rfl
  | cons x m ih =>
    obtain ⟨k, u⟩ := x
    unfold NMap.set
    split
    · rfl
    · split
      · rfl
      · exact congrArg (k :: ·) ih

/-- In a canonical map the last of two values put at a key counts. -/
theorem DMap.put_put {α : Type} [DecidableEq α] {d : Nat → α} {m : NMap α} (h : DMap.wf d m = true) (a : Nat) (v w : α) :
    DMap.put d (DMap.put d m a v) a w = DMap.put d m a w := by
  refine DMap.ext_wf d _ _ (DMap.wf_put _ _ _ _ (DMap.wf_put _ _ _ _ h)) (DMap.wf_put _ _ _ _ h) fun b => ?_
  by_cases hb : b = a
  · rw [hb, DMap.get_put_self, DMap.get_put_self]
  · rw [DMap.get_put_other _ _ _ hb, DMap.get_put_other _ _ _ hb, DMap.get_put_other _ _ _ hb]

namespace Machine

variable {d t : Device} {p v n m : Nat}

/-! ### What the rules of a port read -/

/-- Which instances of a set have registers that differ from their reset value depends on the keys alone. -/
theorem Device.listed_congr (h : NMap.keys t.regs = NMap.keys d.regs) (base stride count : Nat) :
    t.listed base stride count = d.listed base stride count := by
  have hkeys (u : Device) : u.listed base stride count = (NMap.keys u.regs).filterMap fun k =>
      if base ≤ k ∧ (k - base) % stride = 0 ∧ (k - base) / stride < count then some ((k - base) / stride) else none := by
    rw [NMap.keys, List.filterMap_map]
    rfl
  rw [hkeys, hkeys, h]

/-- The fields of PORT_CFG that the rules of R219 and R289 read. -/
def Device.sameCfg (d t : Device) : Prop :=
  ∀ q, t.macEn q = d.macEn q ∧ ∀ hi lo, (21 ≤ lo ∧ hi ≤ 30 ∨ hi ≤ 13) → t.fld (Off.portCfg q) hi lo = d.fld (Off.portCfg q) hi lo

/-- Two tests that agree on the elements of a list agree on the list. -/
theorem all_congr_mem {α : Type} {xs : List α} {f g : α → Bool} (h : ∀ x ∈ xs, f x = g x) : xs.all f = xs.all g := by
  rw [Bool.eq_iff_iff, List.all_eq_true, List.all_eq_true]
  exact forall₂_congr fun x hx => by rw [h x hx]

theorem Device.portModeOk_congr (hcfg : d.sameCfg t) (hlane : ∀ l, l < p + 8 → t.reg (Off.laneCtl l) = d.reg (Off.laneCtl l)) :
    t.portModeOk p = d.portModeOk p := by
  have hmac (q : Nat) : t.macEn q = d.macEn q := (hcfg q).1
  have hmode (q hi lo : Nat) (h : 21 ≤ lo ∧ hi ≤ 30) : bits (t.reg (Off.portCfg q)) hi lo = bits (d.reg (Off.portCfg q)) hi lo :=
    (hcfg q).2 hi lo (.inl h)
  have hlanes (q : Nat) : t.lanesOf q = d.lanesOf q := by rw [Device.lanesOf, Device.fld, hmode q 26 25 (by omega)]; rfl
  have hmodes : (d.lanesOf p).all (fun l => portModes.contains (bits (d.reg (Off.portCfg p)) 30 27, bits (d.reg (Off.portCfg p)) 26 25,
      t.fld (Off.laneCtl l) 23 22, bits (d.reg (Off.portCfg p)) 24 23)) = (d.lanesOf p).all fun l =>
        portModes.contains (bits (d.reg (Off.portCfg p)) 30 27, bits (d.reg (Off.portCfg p)) 26 25, d.fld (Off.laneCtl l) 23 22,
          bits (d.reg (Off.portCfg p)) 24 23) :=
    all_congr_mem fun l hl => by rw [Device.fld_congr (hlane l (Device.lt_of_mem_lanesOf hl))]
  have howner : (d.lanesOf p).all (fun l => t.fld (Off.laneCtl l) 21 20 == 0) =
      (d.lanesOf p).all fun l => d.fld (Off.laneCtl l) 21 20 == 0 :=
    all_congr_mem fun l hl => by rw [Device.fld_congr (hlane l (Device.lt_of_mem_lanesOf hl))]
  unfold Device.portModeOk
  simp only [hlanes, hmac, hmode p 30 27 (by omega), hmode p 26 25 (by omega), hmode p 24 23 (by omega), hmodes, howner]

theorem Device.poolsOk_congr (hbuf : t.buf = d.buf) (hkeys : NMap.keys t.regs = NMap.keys d.regs) (hcfg : d.sameCfg t)
    (hreg : ∀ o, (∀ q, o ≠ Off.portCfg q) → t.reg o = d.reg o) : t.poolsOk = d.poolsOk := by
  have hmac (q : Nat) : t.macEn q = d.macEn q := (hcfg q).1
  have hlen (q : Nat) : t.fld (Off.portCfg q) 13 0 = d.fld (Off.portCfg q) 13 0 := (hcfg q).2 13 0 (.inr (by omega))
  have hpre (q : Nat) : t.flag (Off.portCfg q) 22 = d.flag (Off.portCfg q) 22 := by
    rw [Device.flag, Device.flag, (hcfg q).2 22 22 (.inl (by omega))]
  have hfld (o hi lo : Nat) (ho : o < 0x2400000 ∨ o % 0x1000 ≠ 0) : t.fld o hi lo = d.fld o hi lo :=
    Device.fld_congr (hreg o fun q hq => by unfold Off.portCfg at hq; omega)
  have hdrain : t.drainWant = d.drainWant := funext fun q => by
    simp only [Device.drainWant, Device.provision, Device.maxLen, hmac, hlen, hpre]
  have hhead : t.headroomWant = d.headroomWant := funext fun k => by
    have hpfc : Off.portPfc (k / 8) < 0x2400000 ∨ Off.portPfc (k / 8) % 0x1000 ≠ 0 := by unfold Off.portPfc; omega
    have hroom : Off.bufPortHeadroom (k / 8) < 0x2400000 ∨ Off.bufPortHeadroom (k / 8) % 0x1000 ≠ 0 := by unfold Off.bufPortHeadroom; omega
    rw [Device.headroomWant, Device.pfcTxEn, hfld _ _ _ hpfc, hfld _ _ _ hroom, Device.headroomWant, Device.pfcTxEn]
  have hports : t.enabledPorts = d.enabledPorts := by
    rw [Device.enabledPorts, Device.enabledPorts, Device.listed_congr hkeys, show t.macEn = d.macEn from funext hmac]
  have huse : t.use = d.use := funext fun q => by rw [Device.use, Device.use, hbuf]
  have hdrainUse : t.drainUse = d.drainUse := funext fun q => by rw [Device.drainUse, Device.drainUse, hbuf]
  have hshared : t.settlePools.sharedNow = d.settlePools.sharedNow := by
    unfold Device.settlePools Device.sharedNow
    simp only [Device.acctUse, Device.listed_congr hkeys, hfld Off.bufPoolContract 19 0 (by decide),
      hfld Off.bufPoolRecirc 19 0 (by decide), hfld Off.bufPoolScaf 19 0 (by decide), hdrain, hhead, hports, huse, hdrainUse,
      Device.modBuf, hbuf]
  rw [Device.poolsOk, hshared, ← Device.poolsOk]

/-! ### PORT_CFG written with its own mode -/

theorem regReset_portCfg (hp : p < 512) : regReset (Off.portCfg p) = 0x302005F2 := by
  have hplace : Off.portCfg p = 0x2400000 + 0x1000 * p := rfl
  have hregion : (Off.rstoreRegion 0 ≤ Off.portCfg p && Off.portCfg p < Off.rstoreRegion 8) = false := by
    have hhigh : ¬Off.portCfg p < Off.rstoreRegion 8 := by unfold Off.rstoreRegion; omega
    simp [hhigh]
  have hport : (Off.rstorePort 0 ≤ Off.portCfg p && Off.portCfg p < Off.rstorePort 6) = false := by
    have hhigh : ¬Off.portCfg p < Off.rstorePort 6 := by unfold Off.rstorePort; omega
    simp [hhigh]
  rw [regReset, hregion, hport, Nat.mod_eq_of_lt (by omega), regDef?_portCfg hp]
  rfl

/-- A value with the highest bit is not that of reset. -/
theorem portCfg_ne_reset (hp : p < 512) (x : Nat) : BitVec.ofNat 32 (setBits x 31 31 (b2n true)) ≠ regReset (Off.portCfg p) := by
  rw [regReset_portCfg hp]
  intro h
  have hbit := congrArg (fun y : BitVec 32 => y.toNat.testBit 31) h
  have hset : (setBits x 31 31 (b2n true)).testBit 31 = true := by
    rw [← bit, bit_eq_bits, bits_setBits_self]
    rfl
  simp only [BitVec.toNat_ofNat, Nat.testBit_mod_two_pow, hset] at hbit
  exact absurd hbit (by decide)

theorem Device.regs_setFld (d : Device) (o hi lo v : Nat) :
    (d.setFld o hi lo v).regs = DMap.put regReset d.regs o (BitVec.ofNat 32 (setBits (d.reg o) hi lo v)) := rfl

/-- MAC_EN set in a register whose bit 20 was written first: the pools see what they would see without that bit. -/
theorem Device.poolsOk_enable (hp : p < 512) (hwf : DMap.wf regReset d.regs = true) (b : Nat) :
    ((d.setFld (Off.portCfg p) 20 20 b).setFlag (Off.portCfg p) 31 true).poolsOk = (d.setFlag (Off.portCfg p) 31 true).poolsOk := by
  refine Device.poolsOk_congr ?buf ?keys (fun q => ⟨?mac, fun hi lo hrange => ?fields⟩) fun o ho => ?rest
  case buf => rw [Device.setFlag_buf, Device.setFld_buf, Device.setFlag_buf]
  case keys =>
    unfold Device.setFlag
    rw [Device.regs_setFld, Device.regs_setFld, Device.regs_setFld, DMap.put_put hwf, DMap.put, if_neg (portCfg_ne_reset hp _),
      DMap.put, if_neg (portCfg_ne_reset hp _)]
    exact NMap.keys_set _ _ _ _
  case mac =>
    by_cases hq : Off.portCfg q = Off.portCfg p
    · rw [Device.macEn, Device.macEn, hq, Device.flag_setFlag_self _ _ _ (by omega), Device.flag_setFlag_self _ _ _ (by omega)]
    · rw [Device.macEn, Device.macEn, Device.flag_setFlag_other _ _ _ _ hq, Device.flag_setFlag_other _ _ _ _ hq,
        Device.flag_congr (d.reg_setFld_other _ _ _ hq)]
  case fields =>
    unfold Device.setFlag
    by_cases hq : Off.portCfg q = Off.portCfg p
    · rw [hq, Device.fld_setFld_apart _ _ _ (by omega) (by omega) (.inl (by omega)),
        Device.fld_setFld_apart _ _ _ (by omega) (by omega) (by omega),
        Device.fld_setFld_apart _ _ _ (by omega) (by omega) (.inl (by omega))]
    · rw [Device.fld_setFld_other _ _ _ _ _ _ hq, Device.fld_setFld_other _ _ _ _ _ _ hq, Device.fld_setFld_other _ _ _ _ _ _ hq]
  case rest =>
    unfold Device.setFlag
    rw [Device.reg_setFld_other _ _ _ _ (ho p), Device.reg_setFld_other _ _ _ _ (ho p), Device.reg_setFld_other _ _ _ _ (ho p)]

/-- No register above those of the seats is written by an event. -/
theorem raiseReg_eq_false {o : Nat} (h : 0x203000 ≤ o) : raiseReg o = false := by
  have hhawk : ¬o < 0x101000 := by omega
  have hseat : ¬o < 0x203000 := by omega
  simp [raiseReg, hhawk, hseat]

theorem pauseReg_portCfg (p : Nat) : pauseReg (Off.portCfg p) = false := by
  have hplace : Off.portCfg p % 0x1000 = 0 := by unfold Off.portCfg; omega
  simp [pauseReg, hplace]

/-- The pools settle; MAC_EN and the bring-up are as they were. -/
theorem Device.Settled.shows (h : d.Settled t) : t.macEn p = d.macEn p ∧ (t.port p).bring = (d.port p).bring :=
  ⟨Device.flag_congr (h.1 _ (pauseReg_portCfg p)), h.2.2 p⟩

theorem Device.port_firstEnded (d : Device) (p q : Nat) : (d.firstEnded p).port q = d.port q := rfl

theorem Device.macEn_firstEnded (d : Device) (p q : Nat) : (d.firstEnded p).macEn q = d.macEn q := rfl

theorem Device.macEn_modPort (d : Device) (p q : Nat) (f : Port → Port) : (d.modPort p f).macEn q = d.macEn q := rfl

/-- The port is down and its MAC disabled, whatever it was. -/
theorem Device.disablePort_shows (d : Device) (p : Nat) :
    (d.disablePort p).poolsMoved.macEn p = false ∧ ((d.disablePort p).poolsMoved.port p).bring = .off := by
  have hend (u : Device) (hoff : u.macEn p = false) :
      ((u.modPort p fun x => { x with bring := .off, aligned := false }).firstEnded p).poolsMoved.poolsMoved.macEn p = false ∧
        (((u.modPort p fun x => { x with bring := .off, aligned := false }).firstEnded p).poolsMoved.poolsMoved.port p).bring = .off := by
    obtain ⟨hmac, hbring⟩ := (Device.Settled.refl ((u.modPort p fun x =>
      { x with bring := .off, aligned := false }).firstEnded p)).poolsMoved.poolsMoved.shows (p := p)
    rw [hmac, hbring, Device.macEn_firstEnded, Device.macEn_modPort, Device.port_firstEnded, Device.port_modPort_self]
    exact ⟨hoff, rfl⟩
  unfold Device.disablePort
  exact hend _ (Device.flag_setFlag_self _ _ _ (by omega))

/-- A mode that is not listed is refused, and CFG_ERR shows it. -/
theorem Device.enablePort_refused (hp : p < 512) (hoff : d.macEn p = false) (hmode : d.portModeOk p = false) :
    (d.enablePort p v).poolsMoved.macEn p = false ∧ (d.enablePort p v).poolsMoved.flag (Off.portStatus p) 24 = true := by
  have hsource : portSource p < 16384 := by
    unfold portSource
    omega
  have hne : Off.portCfg p ≠ Off.portStatus p := by unfold Off.portCfg Off.portStatus; omega
  unfold Device.enablePort
  extract_lets on
  rw [if_pos (by rw [hmode]; rfl)]
  generalize hu : (d.setFlag (Off.portStatus p) 24 true).raise (portSource p) Sev.warn Cause.cfgRefused (Off.portCfg p) v = u
  have hreg (o : Nat) (ho : 0x2400000 ≤ o) : u.reg o = (d.setFlag (Off.portStatus p) 24 true).reg o := by
    rw [← hu, Device.reg_raise hsource (raiseReg_eq_false (by omega))]
  obtain ⟨hkept, hstatus, -⟩ := (Device.Settled.refl u).poolsMoved
  constructor
  · rw [Device.macEn, Device.flag_congr ((hkept _ (pauseReg_portCfg p)).trans (hreg _ (by unfold Off.portCfg; omega))),
      Device.flag_setFlag_other _ _ _ _ hne]
    exact hoff
  · rw [hstatus p 24 (by omega), Device.flag_congr (hreg _ (by unfold Off.portStatus; omega)), Device.flag_setFlag_self _ _ _ (by omega)]

/-- A listed mode that the pools allow is taken. -/
theorem Device.enablePort_taken (hmode : d.portModeOk p = true) (hpools : (d.setFlag (Off.portCfg p) 31 true).poolsOk = true) :
    (d.enablePort p v).poolsMoved.macEn p = true ∧ ((d.enablePort p v).poolsMoved.port p).bring = .down := by
  have hend (u : Device) (hon : u.macEn p = true) :
      (u.modPort p fun x => { x with bring := .down, faultSet := false, aligned := false }).poolsMoved.poolsMoved.macEn p = true ∧
        ((u.modPort p fun x => { x with bring := .down, faultSet := false, aligned := false }).poolsMoved.poolsMoved.port p).bring =
          .down := by
    obtain ⟨hmac, hbring⟩ := (Device.Settled.refl (u.modPort p fun x =>
      { x with bring := .down, faultSet := false, aligned := false })).poolsMoved.poolsMoved.shows (p := p)
    rw [hmac, hbring, Device.macEn_modPort, Device.port_modPort_self]
    exact ⟨hon, rfl⟩
  have hen := d.flag_setFlag_self (Off.portCfg p) true (show 31 < 32 by omega)
  have hmode' : ¬(!d.portModeOk p) = true := by simp [hmode]
  have hpools' : ¬(!(d.setFlag (Off.portCfg p) 31 true).poolsOk) = true := by simp [hpools]
  unfold Device.enablePort
  rw [if_neg hmode', if_neg hpools']
  refine hend _ ?_
  have hpwr (u : Device) (q : Power) (hu : u.macEn p = true) : ({ u with pwr := q } : Device).macEn p = true := hu
  split
  · exact hpwr _ _ hen
  · exact hen

end Machine
end Sys2Proof
end


section
set_option Elab.async false
/-! PROOFS. What a write of each enabling register does, by whether its part is enabled and its rule is met (R289, R314, R328, R329, R274,
R510). -/

namespace Sys2Proof.Machine

variable {d t u : Device} {p s k g n v x w : Nat}

/-- A register set to its own value: every register reads as before. -/
theorem Device.reg_setReg_own (d : Device) (off o : Nat) : (d.setReg off (d.reg off)).reg o = d.reg o := by
  by_cases ho : o = off
  · rw [ho, Device.reg_setReg_self, Nat.mod_eq_of_lt (d.reg_lt off)]
  · exact d.reg_setReg_other _ ho

/-! ### MAC_EN (R289) -/

/-- A write of PORT_CFG leaves MAC_EN to the rule that enables. -/
theorem Device.macEn_plainWrite (hp : p < 512) : (d.plainWrite ⟨w, false⟩ (Off.portCfg p) v [31]).macEn p = d.macEn p :=
  (Device.plainWrite_keeps (regDef?_portCfg hp) rfl (by decide) (raiseReg_eq_false (by unfold Off.portCfg; omega))).1

theorem Device.writePortCfg_disables (hp : p < 512) (hon : d.macEn p = true) (hv : bit v 31 = false) :
    (d.writePortCfg ⟨w, false⟩ p v).poolsMoved.macEn p = false ∧ ((d.writePortCfg ⟨w, false⟩ p v).poolsMoved.port p).bring = .off := by
  have hwrite : d.writePortCfg ⟨w, false⟩ p v = (d.plainWrite ⟨w, false⟩ (Off.portCfg p) v [31]).disablePort p := by
    unfold Device.writePortCfg
    simp only [Bool.false_and, Bool.false_eq_true, if_false, hv, Device.macEn_plainWrite hp, hon]
  rw [hwrite]
  exact Device.disablePort_shows _ p

/-- PORT_CFG of a disabled port, written with its own mode. -/
theorem Device.plainWrite_portCfg (hp : p < 512) (hoff : d.macEn p = false) (hmode : bits v 30 21 = d.fld (Off.portCfg p) 30 21)
    (hlen : bits v 13 0 = d.fld (Off.portCfg p) 13 0) :
    d.plainWrite ⟨w, false⟩ (Off.portCfg p) v [31] = d.setFld (Off.portCfg p) 20 20 (bits v 20 20) :=
  Device.plainWrite_eq (regDef?_portCfg hp) rfl (Device.newValue_portCfg hp hoff hmode hlen)

theorem Device.writePortCfg_asks (hp : p < 512) (hoff : d.macEn p = false) (hv : bit v 31 = true)
    (hmode : bits v 30 21 = d.fld (Off.portCfg p) 30 21) (hlen : bits v 13 0 = d.fld (Off.portCfg p) 13 0) :
    d.writePortCfg ⟨w, false⟩ p v = (d.setFld (Off.portCfg p) 20 20 (bits v 20 20)).enablePort p v := by
  rw [← Device.plainWrite_portCfg (w := w) hp hoff hmode hlen]
  unfold Device.writePortCfg
  simp only [Bool.false_and, Bool.false_eq_true, if_false, hv, Device.macEn_plainWrite hp, hoff]

/-- Bit 20 of PORT_CFG is none that the mode of a port depends on. -/
theorem Device.sameCfg_setFld (d : Device) (p x : Nat) : d.sameCfg (d.setFld (Off.portCfg p) 20 20 x) := fun q => by
  have hfld (hi lo : Nat) (h : hi < 20 ∨ 20 < lo) :
      (d.setFld (Off.portCfg p) 20 20 x).fld (Off.portCfg q) hi lo = d.fld (Off.portCfg q) hi lo := by
    by_cases hq : Off.portCfg q = Off.portCfg p
    · rw [hq, Device.fld_setFld_apart _ _ _ (by omega) (by omega) h]
    · exact d.fld_setFld_other _ _ _ _ _ hq
  refine ⟨?_, fun hi lo h => hfld hi lo (by omega)⟩
  rw [Device.macEn, Device.flag, hfld 31 31 (by omega), ← Device.flag, ← Device.macEn]

theorem Device.portModeOk_setFld : (d.setFld (Off.portCfg p) 20 20 x).portModeOk p = d.portModeOk p :=
  Device.portModeOk_congr (d.sameCfg_setFld p x) fun l hl => d.reg_setFld_other _ _ _ (by unfold Off.laneCtl Off.portCfg; omega)

theorem Device.writePortCfg_enables (hp : p < 512) (hwf : DMap.wf regReset d.regs = true) (hoff : d.macEn p = false) (hv : bit v 31 = true)
    (hmode : bits v 30 21 = d.fld (Off.portCfg p) 30 21) (hlen : bits v 13 0 = d.fld (Off.portCfg p) 13 0) (hok : d.portModeOk p = true)
    (hpools : (d.setFlag (Off.portCfg p) 31 true).poolsOk = true) :
    (d.writePortCfg ⟨w, false⟩ p v).poolsMoved.macEn p = true ∧ ((d.writePortCfg ⟨w, false⟩ p v).poolsMoved.port p).bring = .down := by
  rw [Device.writePortCfg_asks hp hoff hv hmode hlen]
  exact Device.enablePort_taken (Device.portModeOk_setFld.trans hok) ((Device.poolsOk_enable hp hwf _).trans hpools)

theorem Device.writePortCfg_refuses (hp : p < 512) (hoff : d.macEn p = false) (hv : bit v 31 = true)
    (hmode : bits v 30 21 = d.fld (Off.portCfg p) 30 21) (hlen : bits v 13 0 = d.fld (Off.portCfg p) 13 0) (hbad : d.portModeOk p = false) :
    (d.writePortCfg ⟨w, false⟩ p v).poolsMoved.macEn p = false ∧
      (d.writePortCfg ⟨w, false⟩ p v).poolsMoved.flag (Off.portStatus p) 24 = true := by
  rw [Device.writePortCfg_asks hp hoff hv hmode hlen]
  exact Device.enablePort_refused hp ((d.sameCfg_setFld p _ p).1.trans hoff) (Device.portModeOk_setFld.trans hbad)

/-! ### EN of a span (R314) -/

theorem Device.spanEn_plainWrite (hs : s < 32) : (d.plainWrite ⟨w, false⟩ (Off.lathCtl s) v [31]).spanEn s = d.spanEn s :=
  (Device.plainWrite_keeps (regDef?_lathCtl hs) rfl (by decide) (raiseReg_eq_false (by unfold Off.lathCtl; omega))).1

theorem Device.writeLathCtl_disables (hs : s < 32) (hon : d.spanEn s = true) (hv : bit v 31 = false) :
    (d.writeLathCtl ⟨w, false⟩ s v).spanEn s = false ∧ (d.writeLathCtl ⟨w, false⟩ s v).reg (Off.lathStatus s) = 0 := by
  have hwrite : d.writeLathCtl ⟨w, false⟩ s v = (d.plainWrite ⟨w, false⟩ (Off.lathCtl s) v [31]).disableSpan s := by
    unfold Device.writeLathCtl
    simp only [hv, Device.spanEn_plainWrite hs, hon]
  rw [hwrite]
  exact Device.disableSpan_dark hs

theorem Device.writeLathCtl_asks (hs : s < 32) (hoff : d.spanEn s = false) (hv : bit v 31 = true) :
    d.writeLathCtl ⟨w, false⟩ s v = (d.plainWrite ⟨w, false⟩ (Off.lathCtl s) v [31]).enableSpan s v := by
  unfold Device.writeLathCtl
  simp only [hv, Device.spanEn_plainWrite hs, hoff]

/-- What the rule of a span's lanes reads of LATH_CTL: every field but bits 28 and 27. -/
theorem Device.spanOk_congr (hctl : ∀ q hi lo, hi < 27 ∨ 28 < lo → t.fld (Off.lathCtl q) hi lo = d.fld (Off.lathCtl q) hi lo)
    (hlane : ∀ l, l < 512 → t.reg (Off.laneCtl l) = d.reg (Off.laneCtl l)) : t.spanOk s = d.spanOk s := by
  have hen (q : Nat) : t.spanEn q = d.spanEn q := by
    rw [Device.spanEn, Device.flag, hctl q 31 31 (.inr (by omega)), ← Device.flag, ← Device.spanEn]
  have hwidth (q : Nat) : t.spanL q = d.spanL q := by rw [Device.spanL, hctl q 30 29 (.inr (by omega)), ← Device.spanL]
  have hfirst (q : Nat) : t.spanFirst q = d.spanFirst q := by rw [Device.spanFirst, hctl q 8 0 (.inl (by omega)), ← Device.spanFirst]
  have hlanes (q : Nat) : t.spanLanes q = d.spanLanes q := by rw [Device.spanLanes, hwidth, hfirst, ← Device.spanLanes]
  have hmodes : (d.spanLanes s).all (fun l => decide (l < 512) && t.fld (Off.laneCtl l) 21 20 == 1 && t.fld (Off.laneCtl l) 23 22 == 1) =
      (d.spanLanes s).all fun l => decide (l < 512) && d.fld (Off.laneCtl l) 21 20 == 1 && d.fld (Off.laneCtl l) 23 22 == 1 :=
    all_congr_mem fun l _ => by
      by_cases hl : l < 512
      · rw [Device.fld_congr (hlane l hl), Device.fld_congr (hlane l hl)]
      · simp [hl]
  unfold Device.spanOk
  simp only [hen, hwidth, hfirst, hlanes, hmodes]

/-- LATH_CTL of a disabled span, written with its own lanes: the rule of its lanes is met as before. -/
theorem Device.spanOk_plainWrite (hs : s < 32) (hoff : d.spanEn s = false) (hcount : bits v 30 29 = d.fld (Off.lathCtl s) 30 29)
    (hfirst : bits v 8 0 = d.fld (Off.lathCtl s) 8 0) :
    (d.plainWrite ⟨w, false⟩ (Off.lathCtl s) v [31]).spanOk s = d.spanOk s := by
  obtain ⟨a, b, hnew⟩ := Device.newValue_lathCtl (w := w) hs hoff hcount hfirst
  rw [Device.plainWrite_eq (regDef?_lathCtl hs) rfl hnew]
  refine Device.spanOk_congr (fun q hi lo h => ?_) fun l hl => d.reg_setReg_other _ (by unfold Off.laneCtl Off.lathCtl; omega)
  by_cases hq : Off.lathCtl q = Off.lathCtl s
  · have hlt : setBits (setBits (d.reg (Off.lathCtl s)) 28 28 a) 27 27 b < 2 ^ 32 :=
      setBits_lt _ (setBits_lt _ (d.reg_lt _) (by omega) (by omega)) (by omega) (by omega)
    rw [hq, Device.fld, Device.reg_setReg_self, Nat.mod_eq_of_lt hlt, Device.fld]
    rcases h with h | h
    · rw [bits_setBits_below _ _ _ _ (by omega), bits_setBits_below _ _ _ _ (by omega)]
    · rw [bits_setBits_above _ _ _ _ (by omega) (by omega), bits_setBits_above _ _ _ _ (by omega) (by omega)]
  · exact d.fld_setReg_other _ _ _ hq

theorem Device.writeLathCtl_enables (hs : s < 32) (hoff : d.spanEn s = false) (hv : bit v 31 = true)
    (hcount : bits v 30 29 = d.fld (Off.lathCtl s) 30 29) (hfirst : bits v 8 0 = d.fld (Off.lathCtl s) 8 0) (hok : d.spanOk s = true) :
    (d.writeLathCtl ⟨w, false⟩ s v).spanEn s = true := by
  rw [Device.writeLathCtl_asks hs hoff hv]
  exact Device.enableSpan_taken hs ((Device.spanOk_plainWrite hs hoff hcount hfirst).trans hok)

theorem Device.writeLathCtl_refuses (hs : s < 32) (hoff : d.spanEn s = false) (hv : bit v 31 = true)
    (hcount : bits v 30 29 = d.fld (Off.lathCtl s) 30 29) (hfirst : bits v 8 0 = d.fld (Off.lathCtl s) 8 0) (hbad : d.spanOk s = false) :
    (d.writeLathCtl ⟨w, false⟩ s v).spanEn s = false ∧ (d.writeLathCtl ⟨w, false⟩ s v).flag (Off.lathCtl s) 27 = true := by
  rw [Device.writeLathCtl_asks hs hoff hv, Device.enableSpan, if_pos (by rw [Device.spanOk_plainWrite hs hoff hcount hfirst, hbad]; rfl)]
  exact Device.spanRefuse_shows hs ((Device.spanEn_plainWrite hs).trans hoff)

/-! ### EN of a channel (R328) -/

theorem Device.writeChanCfg_disables (hv : bit v 31 = false) :
    (d.writeChanCfg ⟨w, false⟩ s k v).flag (Off.lathChanCfg s k) 31 = false := by
  have hclear : ¬bit v 31 = true := by simp [hv]
  rw [Device.writeChanCfg, if_neg hclear]
  exact Device.flag_setFlag_self _ _ _ (by omega)

section
variable (hreg : ∀ o, t.reg o = d.reg o)
include hreg

theorem Device.slotChannel_congr (j : Nat) : t.slotChannel s j = d.slotChannel s j := by
  unfold Device.slotChannel
  rw [Device.fld_congr (hreg _)]

theorem Device.spanL_congr : t.spanL s = d.spanL s := by rw [Device.spanL, Device.fld_congr (hreg _), ← Device.spanL]

theorem Device.chanCap_congr (c y m : Nat) : t.chanCap s c y m = d.chanCap s c y m := by
  unfold Device.chanCap
  simp only [Device.slotChannel_congr hreg, Device.spanL_congr hreg]

theorem Device.chanWait_congr (c b r y fuel m have_ : Nat) : t.chanWait s c b r y fuel m have_ = d.chanWait s c b r y fuel m have_ := by
  induction fuel generalizing m have_ with
  | zero => rfl
  | succ fuel ih =>
    unfold Device.chanWait
    simp only [ih, Device.slotChannel_congr hreg, Device.spanL_congr hreg]

theorem Device.chanWmax_congr (c b r : Nat) : t.chanWmax s c b r = d.chanWmax s c b r := by
  unfold Device.chanWmax
  simp only [Device.chanWait_congr hreg, Device.chanCap_congr hreg]

end

/-- A channel whose rate its slots give, and whose wait is in bounds, is enabled with its bound. -/
theorem Device.enableChannel_taken (hrate : d.fld (Off.lathChanCfg s k) 30 16 + 1 ≤ d.chanCap s (k + 1) 0 160)
    (hwait : d.chanWmax s (k + 1) (d.fld (Off.lathChanCfg s k) 15 0) (d.fld (Off.lathChanCfg s k) 30 16) = x) (hx : x ≤ 1600) :
    (d.enableChannel s k v).flag (Off.lathChanCfg s k) 31 = true ∧
      (d.enableChannel s k v).fld (Off.lathChanD s k) 15 0 = ceilDiv (4000 + (x + 1) * 1024) 10000 := by
  have hne : Off.lathChanCfg s k ≠ Off.lathChanD s k := by unfold Off.lathChanCfg Off.lathChanD; omega
  have hbound : ceilDiv (4000 + (x + 1) * 1024) 10000 < 2 ^ 16 := by unfold ceilDiv; omega
  unfold Device.enableChannel
  extract_lets c off r b wmax dc fresh
  have hwmax : wmax = x := hwait
  have hfits : ¬1600 < wmax := by omega
  rw [if_neg (Nat.not_lt.mpr hrate), if_neg hfits, Device.flag_modSpan, Device.fld_modSpan]
  refine ⟨(Device.flag_congr (Device.reg_setFld_other _ _ _ _ hne)).trans (Device.flag_setFlag_self _ _ _ (by omega)), ?_⟩
  rw [Device.fld_setFld_self _ _ _ (by omega) (by omega)]
  unfold dc
  rw [hwmax]
  exact Nat.mod_eq_of_lt hbound

theorem Device.writeChanCfg_enables (hs : s < 32) (hk : k < 63) (hoff : d.flag (Off.lathChanCfg s k) 31 = false) (hv : bit v 31 = true)
    (hsame : bits v 30 0 = d.fld (Off.lathChanCfg s k) 30 0) (hrate : d.fld (Off.lathChanCfg s k) 30 16 + 1 ≤ d.chanCap s (k + 1) 0 160)
    (hwait : d.chanWmax s (k + 1) (d.fld (Off.lathChanCfg s k) 15 0) (d.fld (Off.lathChanCfg s k) 30 16) = x) (hx : x ≤ 1600) :
    (d.writeChanCfg ⟨w, false⟩ s k v).flag (Off.lathChanCfg s k) 31 = true ∧
      (d.writeChanCfg ⟨w, false⟩ s k v).fld (Off.lathChanD s k) 15 0 = ceilDiv (4000 + (x + 1) * 1024) 10000 := by
  rw [Device.writeChanCfg, if_pos hv,
    Device.plainWrite_eq (regDef?_lathChanCfg hs hk) rfl (Device.newValue_lathChanCfg hs hk hoff hsame)]
  have hreg := d.reg_setReg_own (Off.lathChanCfg s k)
  generalize d.setReg (Off.lathChanCfg s k) (d.reg (Off.lathChanCfg s k)) = t at hreg ⊢
  refine Device.enableChannel_taken ?_ ?_ hx
  · rw [Device.fld_congr (hreg _), Device.chanCap_congr hreg]
    exact hrate
  · rw [Device.fld_congr (hreg _), Device.fld_congr (hreg _), Device.chanWmax_congr hreg]
    exact hwait

/-! ### A map register (R329) -/

/-- The four slots of a map register whose channels may change are taken whole. -/
theorem Device.writeLathMap_takes {j : Nat} (hs : s < 32) (hn : n < 40) (hpos : 0 < n) (hok : d.mapOk s n v = true) (hj : j < 4) :
    (d.writeLathMap ⟨w, false⟩ s n v).fld (Off.lathMap s n) (8 * j + 5) (8 * j) = bits v (8 * j + 5) (8 * j) := by
  have hnew : d.newValue ⟨w, false⟩ (Off.lathMap s n) v lathMapDef [] =
      (setBits (setBits (setBits (setBits (d.reg (Off.lathMap s n)) 5 0 (bits v 5 0)) 13 8 (bits v 13 8)) 21 16 (bits v 21 16)) 29 24
        (bits v 29 24), false) := by
    show List.foldl _ _ [_, _, _, _] = _
    simp only [List.foldl_cons, List.foldl_nil]
    rw [fieldWrite_live (by omega), fieldWrite_live (by omega), fieldWrite_live (by omega), fieldWrite_live (by omega)]
  have hslots : (if n = 0 then [0] else []) = ([] : List Nat) := if_neg (by omega)
  have hlt (y hi lo z : Nat) (hy : y < 2 ^ 32) (hhi : hi < 32) (hlo : lo ≤ hi) : setBits y hi lo z < 2 ^ 32 :=
    setBits_lt z hy hhi (by omega)
  rw [Device.writeLathMap, Bool.false_or, hok, if_pos rfl, hslots, Device.plainWrite_eq (regDef?_lathMap hs hn) rfl hnew, Device.fld,
    Device.reg_setReg_self, Nat.mod_eq_of_lt (hlt _ _ _ _ (hlt _ _ _ _ (hlt _ _ _ _ (hlt _ _ _ _ (d.reg_lt _) (by omega) (by omega))
      (by omega) (by omega)) (by omega) (by omega)) (by omega) (by omega))]
  have hself (y hi lo : Nat) : bits (setBits y hi lo (bits v hi lo)) hi lo = bits v hi lo := by
    rw [bits_setBits_self, Nat.mod_eq_of_lt (bits_lt v hi lo)]
  match j, hj with
  | 0, _ =>
    rw [bits_setBits_below _ _ _ _ (by omega), bits_setBits_below _ _ _ _ (by omega), bits_setBits_below _ _ _ _ (by omega)]
    exact hself _ _ _
  | 1, _ =>
    rw [bits_setBits_below _ _ _ _ (by omega), bits_setBits_below _ _ _ _ (by omega)]
    exact hself _ _ _
  | 2, _ =>
    rw [bits_setBits_below _ _ _ _ (by omega)]
    exact hself _ _ _
  | 3, _ => exact hself _ _ _

end Sys2Proof.Machine
end

section
set_option Elab.async false
/-! PROOFS. O3: EN of a spread group and of the telemetry, and each enabling write by the rule of its register. -/

namespace Sys2Proof.Machine

variable {d : Device} {g v w : Nat}

/-! ### EN of a group (R274) -/

theorem Device.groupEn_plainWrite (hg : g < 256) : (d.plainWrite ⟨w, false⟩ (Off.spreadGrpCtl g) v [31]).groupEn g = d.groupEn g :=
  (Device.plainWrite_keeps (regDef?_spreadGrpCtl hg) rfl (by decide) (raiseReg_eq_false (by unfold Off.spreadGrpCtl; omega))).1

/-- A group is spray as the write says. -/
theorem Device.groupSpray_plainWrite (hg : g < 256) (hoff : d.groupEn g = false) :
    (d.plainWrite ⟨w, false⟩ (Off.spreadGrpCtl g) v [31]).groupSpray g = bit v 30 := by
  rw [Device.groupSpray, Device.flag_eq_testBit,
    Device.reg_plainWrite (regDef?_spreadGrpCtl hg) rfl (raiseReg_eq_false (by unfold Off.spreadGrpCtl; omega)), Device.reg_setReg_self,
    Nat.testBit_mod_two_pow, Device.newValue_spreadGrpCtl hg hoff]
  simp

theorem Device.groupEn_resetGroup (d : Device) (g : Nat) : (d.resetGroup g).groupEn g = d.groupEn g := d.flag_modGroup _ _ _ _

/-- A write of SPREAD_GRP_CTL that is not refused turns EN as it says. -/
theorem Device.writeGrpCtl_turns (hg : g < 256)
    (hok : (bit v 31 && (d.plainWrite ⟨w, false⟩ (Off.spreadGrpCtl g) v [31]).groupSpray g) = false) :
    ∃ t : Device,
      (bit v 31 = true → d.groupEn g = false → d.writeGrpCtl ⟨w, false⟩ g v = (t.setFlag (Off.spreadGrpCtl g) 31 true).resetGroup g) ∧
        (bit v 31 = false → d.groupEn g = true → d.writeGrpCtl ⟨w, false⟩ g v = t.setFlag (Off.spreadGrpCtl g) 31 false) := by
  have hwritten := Device.groupEn_plainWrite (d := d) (v := v) (w := w) hg
  unfold Device.writeGrpCtl
  extract_lets off n moved t
  have htaken : ¬(bit v 31 && n.groupSpray g && !n.ratesEqual g) = true := by
    rw [show (bit v 31 && n.groupSpray g) = false from hok]
    simp
  have hen : t.groupEn g = d.groupEn g := by
    unfold t
    split
    · exact (n.groupEn_resetGroup g).trans hwritten
    · exact hwritten
  rw [if_neg htaken]
  exact ⟨t, fun hv hoff => by simp only [hv, hen, hoff, off], fun hv hon => by simp only [hv, hen, hon, off]⟩

theorem Device.writeGrpCtl_disables (hg : g < 256) (hon : d.groupEn g = true) (hv : bit v 31 = false) :
    (d.writeGrpCtl ⟨w, false⟩ g v).groupEn g = false := by
  obtain ⟨t, -, hwrite⟩ := Device.writeGrpCtl_turns (d := d) (w := w) (v := v) hg (by rw [hv, Bool.false_and])
  rw [hwrite hv hon]
  exact Device.flag_setFlag_self _ _ _ (by omega)

theorem Device.writeGrpCtl_enables (hg : g < 256) (hoff : d.groupEn g = false) (hv : bit v 31 = true) (hspray : bit v 30 = false) :
    (d.writeGrpCtl ⟨w, false⟩ g v).groupEn g = true ∧ ((d.writeGrpCtl ⟨w, false⟩ g v).group g).streams = [] := by
  obtain ⟨t, hwrite, -⟩ := Device.writeGrpCtl_turns (d := d) (w := w) (v := v) hg
    (by rw [Device.groupSpray_plainWrite hg hoff, hspray, Bool.and_false])
  rw [hwrite hv hoff]
  refine ⟨(Device.groupEn_resetGroup _ _).trans (Device.flag_setFlag_self _ _ _ (by omega)), ?_⟩
  exact congrArg Group.streams (Device.group_modGroup_self _ _ _)

/-! ### EN of the telemetry (R510) -/

theorem Device.telemCtl_plainWrite (d : Device) (w v : Nat) :
    (d.plainWrite ⟨w, false⟩ Off.telemCtl v [31]).flag Off.telemCtl 31 = d.flag Off.telemCtl 31 :=
  (Device.plainWrite_keeps regDef?_telemCtl rfl (by decide) (raiseReg_eq_false (by decide))).1

theorem Device.writeTelemCtl_disables (hon : d.flag Off.telemCtl 31 = true) (hv : bit v 31 = false) :
    (d.writeTelemCtl ⟨w, false⟩ v).flag Off.telemCtl 31 = false := by
  unfold Device.writeTelemCtl
  simp only [hv, d.telemCtl_plainWrite, hon]
  exact Device.flag_setFlag_self _ _ _ (by omega)

theorem Device.writeTelemCtl_asks (hoff : d.flag Off.telemCtl 31 = false) (hv : bit v 31 = true) :
    d.writeTelemCtl ⟨w, false⟩ v = (d.plainWrite ⟨w, false⟩ Off.telemCtl v [31]).telemEnable := by
  unfold Device.writeTelemCtl
  simp only [hv, d.telemCtl_plainWrite, hoff]

theorem Device.writeTelemCtl_enables (hoff : d.flag Off.telemCtl 31 = false) (hv : bit v 31 = true)
    (hsame : bits v 30 0 = d.fld Off.telemCtl 30 0) (hpen : d.reg Off.telemPen ≠ 0) (hport : d.macEn d.telemPort = true) :
    (d.writeTelemCtl ⟨w, false⟩ v).flag Off.telemCtl 31 = true := by
  rw [Device.writeTelemCtl_asks hoff hv, Device.plainWrite_eq regDef?_telemCtl rfl (Device.newValue_telemCtl hoff hsame)]
  have hreg := d.reg_setReg_own Off.telemCtl
  generalize d.setReg Off.telemCtl (d.reg Off.telemCtl) = t at hreg ⊢
  have hopen : t.exportRefused = false := by
    have hdest : t.telemPort = d.telemPort := by rw [Device.telemPort, Device.fld_congr (hreg _), ← Device.telemPort]
    have hmac : t.macEn d.telemPort = true := (Device.flag_congr (hreg _)).trans hport
    rw [Device.exportRefused, hdest, hmac, hreg]
    simpa using hpen
  have hkept := (Device.EnablesKept.refl (t.setFlag Off.telemCtl 31 true)).templateSet Off.telemCtl (by decide)
  rw [Device.telemEnable, hopen, if_neg (by decide), Device.flag_congr hkept]
  exact Device.flag_setFlag_self _ _ _ (by omega)

theorem Device.writeTelemCtl_refuses (hoff : d.flag Off.telemCtl 31 = false) (hv : bit v 31 = true) (hpen : d.reg Off.telemPen = 0) :
    (d.writeTelemCtl ⟨w, false⟩ v).flag Off.telemCtl 31 = false ∧ (d.writeTelemCtl ⟨w, false⟩ v).flag Off.telemStatus 0 = true := by
  have hkept := (Device.plainWrite_keeps (d := d) (w := ⟨w, false⟩) (v := v) regDef?_telemCtl rfl (by decide)
    (raiseReg_eq_false (by decide))).2 Off.telemPen (raiseReg_eq_false (by decide)) (by decide)
  have hwritten := d.telemCtl_plainWrite w v
  rw [Device.writeTelemCtl_asks hoff hv]
  generalize d.plainWrite ⟨w, false⟩ Off.telemCtl v [31] = t at hkept hwritten ⊢
  have hclosed : t.exportRefused = true := by
    rw [Device.exportRefused, hkept, hpen]
    rfl
  rw [Device.telemEnable, hclosed, if_pos rfl]
  exact ⟨(Device.flag_setFlag_other _ _ _ _ (by decide)).trans (hwritten.trans hoff), Device.flag_setFlag_self _ _ _ (by omega)⟩

/-! ### The writes -/

section access
variable (d : Device) (i n m q : Nat)

theorem Device.macEn_islandAt : (d.islandAt i).macEn n = d.macEn n := (rfl)
theorem Device.spanEn_islandAt : (d.islandAt i).spanEn n = d.spanEn n := (rfl)
theorem Device.groupEn_islandAt : (d.islandAt i).groupEn n = d.groupEn n := (rfl)

variable (o : List Occ)

theorem Device.setFlag_counted (b : Bool) : (d.counted o).setFlag n m b = (d.setFlag n m b).counted o := (rfl)
theorem Device.portModeOk_counted : (d.counted o).portModeOk n = d.portModeOk n := (rfl)
theorem Device.spanOk_counted : (d.counted o).spanOk n = d.spanOk n := (rfl)
theorem Device.mapOk_counted : (d.counted o).mapOk n m q = d.mapOk n m q := (rfl)

end access

/-- Settles O3: each write by the rule of its register, on the device with its access counted. -/
theorem enableWrites : Obligations.EnableWrites := by
  unfold Obligations.EnableWrites
  refine ⟨?portOff, ?portOn, ?portRefused, ?spanOff, ?spanOn, ?spanRefused, ?chanOff, ?chanOn, ?groupOff, ?groupOn, ?exportOff, ?exportOn,
    ?exportRefused, ?map⟩
  case portOff =>
    intro seat port v d w hmay hon hv
    obtain ⟨o, i, hwrite⟩ := Device.regWrite_portCfg (v := v.toNat) port.isLt hmay
    refine runs_of_exec (exec_to rfl hwrite) ?_
    simp only [Device.macEn_islandAt, Device.port_islandAt]
    exact Device.writePortCfg_disables port.isLt ((d.flag_counted o _ _).trans hon) hv
  case portOn =>
    intro seat port v d w hcanon hmay hoff hv hmode hlen hok hpools
    obtain ⟨o, i, hwrite⟩ := Device.regWrite_portCfg (v := v.toNat) port.isLt hmay
    have hwf : DMap.wf regReset d.regs = true := by
      simp only [Device.canonical, Bool.and_eq_true] at hcanon
      obtain ⟨⟨⟨⟨hregs, -⟩, -⟩, -⟩, -⟩ := hcanon
      exact hregs
    have hpools' : ((d.counted o).setFlag (Off.portCfg port) 31 true).poolsOk = true := by
      rw [Device.setFlag_counted, Device.poolsOk_counted]
      exact hpools
    refine runs_of_exec (exec_to rfl hwrite) ?_
    simp only [Device.macEn_islandAt, Device.port_islandAt]
    exact Device.writePortCfg_enables port.isLt hwf ((d.flag_counted o _ _).trans hoff) hv (hmode.trans (d.fld_counted o _ _ _).symm)
      (hlen.trans (d.fld_counted o _ _ _).symm) ((d.portModeOk_counted _ o).trans hok) hpools'
  case portRefused =>
    intro seat port v d w hmay hoff hv hmode hlen hbad
    obtain ⟨o, i, hwrite⟩ := Device.regWrite_portCfg (v := v.toNat) port.isLt hmay
    refine runs_of_exec (exec_to rfl hwrite) ?_
    simp only [Device.macEn_islandAt, Device.flag_islandAt]
    exact Device.writePortCfg_refuses port.isLt ((d.flag_counted o _ _).trans hoff) hv (hmode.trans (d.fld_counted o _ _ _).symm)
      (hlen.trans (d.fld_counted o _ _ _).symm) ((d.portModeOk_counted _ o).trans hbad)
  case spanOff =>
    intro seat span v d w hmay hon hv
    obtain ⟨o, i, hwrite⟩ := Device.regWrite_lathCtl (v := v.toNat) span.isLt hmay
    refine runs_of_exec (exec_to rfl hwrite) ?_
    simp only [Device.spanEn_islandAt, Device.reg_islandAt]
    exact Device.writeLathCtl_disables span.isLt ((d.flag_counted o _ _).trans hon) hv
  case spanOn =>
    intro seat span v d w hmay hoff hv hcount hfirst hok
    obtain ⟨o, i, hwrite⟩ := Device.regWrite_lathCtl (v := v.toNat) span.isLt hmay
    refine runs_of_exec (exec_to rfl hwrite) ?_
    simp only [Device.spanEn_islandAt]
    exact Device.writeLathCtl_enables span.isLt ((d.flag_counted o _ _).trans hoff) hv (hcount.trans (d.fld_counted o _ _ _).symm)
      (hfirst.trans (d.fld_counted o _ _ _).symm) ((d.spanOk_counted _ o).trans hok)
  case spanRefused =>
    intro seat span v d w hmay hoff hv hcount hfirst hbad
    obtain ⟨o, i, hwrite⟩ := Device.regWrite_lathCtl (v := v.toNat) span.isLt hmay
    refine runs_of_exec (exec_to rfl hwrite) ?_
    simp only [Device.spanEn_islandAt, Device.flag_islandAt]
    exact Device.writeLathCtl_refuses span.isLt ((d.flag_counted o _ _).trans hoff) hv (hcount.trans (d.fld_counted o _ _ _).symm)
      (hfirst.trans (d.fld_counted o _ _ _).symm) ((d.spanOk_counted _ o).trans hbad)
  case chanOff =>
    intro seat span chan v d w hmay _ hv
    obtain ⟨o, i, hwrite⟩ := Device.regWrite_lathChanCfg (v := v.toNat) span.isLt chan.isLt hmay
    refine runs_of_exec (exec_to rfl hwrite) ?_
    simp only [Device.flag_islandAt]
    exact Device.writeChanCfg_disables hv
  case chanOn =>
    intro seat span chan v x d w hmay hoff hv hsame hrate hwait hx
    obtain ⟨o, i, hwrite⟩ := Device.regWrite_lathChanCfg (v := v.toNat) span.isLt chan.isLt hmay
    have hreg := d.reg_counted o
    refine runs_of_exec (exec_to rfl hwrite) ?_
    simp only [Device.flag_islandAt, Device.fld_islandAt]
    refine Device.writeChanCfg_enables span.isLt chan.isLt ((d.flag_counted o _ _).trans hoff) hv
      (hsame.trans (d.fld_counted o _ _ _).symm) ?_ ?_ hx
    · rw [Device.fld_counted, Device.chanCap_congr hreg]
      exact hrate
    · rw [Device.fld_counted, Device.fld_counted, Device.chanWmax_congr hreg]
      exact hwait
  case groupOff =>
    intro seat group v d w hmay hon hv
    obtain ⟨o, i, hwrite⟩ := Device.regWrite_spreadGrpCtl (v := v.toNat) group.isLt hmay
    refine runs_of_exec (exec_to rfl hwrite) ?_
    simp only [Device.groupEn_islandAt]
    exact Device.writeGrpCtl_disables group.isLt ((d.flag_counted o _ _).trans hon) hv
  case groupOn =>
    intro seat group v d w hmay hoff hv hspray
    obtain ⟨o, i, hwrite⟩ := Device.regWrite_spreadGrpCtl (v := v.toNat) group.isLt hmay
    refine runs_of_exec (exec_to rfl hwrite) ?_
    simp only [Device.groupEn_islandAt, Device.group_islandAt]
    exact Device.writeGrpCtl_enables group.isLt ((d.flag_counted o _ _).trans hoff) hv hspray
  case exportOff =>
    intro seat v d w hmay hon hv
    obtain ⟨o, i, hwrite⟩ := Device.regWrite_telemCtl (v := v.toNat) hmay
    refine runs_of_exec (exec_to rfl hwrite) ?_
    simp only [Device.flag_islandAt]
    exact Device.writeTelemCtl_disables ((d.flag_counted o _ _).trans hon) hv
  case exportOn =>
    intro seat v d w hmay hoff hv hsame hpen hport
    obtain ⟨o, i, hwrite⟩ := Device.regWrite_telemCtl (v := v.toNat) hmay
    refine runs_of_exec (exec_to rfl hwrite) ?_
    simp only [Device.flag_islandAt]
    refine Device.writeTelemCtl_enables ((d.flag_counted o _ _).trans hoff) hv (hsame.trans (d.fld_counted o _ _ _).symm)
      (by rw [Device.reg_counted]; exact hpen) ?_
    rw [Device.telemPort, Device.fld_counted, ← Device.telemPort, Device.macEn, Device.flag_counted]
    exact hport
  case exportRefused =>
    intro seat v d w hmay hoff hv hpen
    obtain ⟨o, i, hwrite⟩ := Device.regWrite_telemCtl (v := v.toNat) hmay
    refine runs_of_exec (exec_to rfl hwrite) ?_
    simp only [Device.flag_islandAt]
    exact Device.writeTelemCtl_refuses ((d.flag_counted o _ _).trans hoff) hv ((d.reg_counted o _).trans hpen)
  case map =>
    intro seat span n v d w hmay hok hpos
    obtain ⟨o, i, hwrite⟩ := Device.regWrite_lathMap (v := v.toNat) span.isLt n.isLt hmay
    refine runs_of_exec (exec_to rfl hwrite) ?_
    simp only [Device.fld_islandAt, List.all_eq_true, List.mem_range, beq_iff_eq]
    exact fun j hj => Device.writeLathMap_takes span.isLt n.isLt hpos ((d.mapOk_counted _ _ _ o).trans hok) hj

end Sys2Proof.Machine
end

section
set_option Elab.async false
/-! PROOFS. The test access port (R532): edges of TCK one after another, the way into Test-Logic-Reset, and what shifting puts on TDO. -/

namespace Sys2Proof.Machine

/-- Edges of TCK are those of a first part and then those of the rest. -/
theorem Device.jtagClocks_append (xs ys : List (Bool × Bool)) (d : Device) :
    (d.jtagClocks (xs ++ ys)).2 = (d.jtagClocks xs).2 ++ ((d.jtagClocks xs).1.jtagClocks ys).2 := by
  induction xs generalizing d with
  | nil => rfl
  | cons x xs ih => exact congrArg _ (ih _)

theorem Device.length_jtagClocks (xs : List (Bool × Bool)) (d : Device) : (d.jtagClocks xs).2.length = xs.length := by
  induction xs generalizing d with
  | nil => rfl
  | cons x xs ih => exact congrArg (· + 1) (ih _)

/-- What is shifted out comes in its order, whatever is shifted in behind it. -/
theorem Device.jtagClocks_shiftDr (tdi : List Bool) {d : Device} (htap : d.jtag.tap = .shiftDr)
    (hlen : tdi.length ≤ d.jtag.shift.length) :
    (d.jtagClocks ((List.replicate tdi.length false).zip tdi)).2 = d.jtag.shift.take tdi.length := by
  induction tdi generalizing d with
  | nil => rfl
  | cons b tdi ih =>
    cases hshift : d.jtag.shift with
    | nil => simp [hshift] at hlen
    | cons q qs =>
      have hjtag : d.jtag = ⟨.shiftDr, d.jtag.instr, q :: qs⟩ := by rw [← htap, ← hshift]
      have hnext : (d.jtagClock false b).1.jtag = { d.jtag with shift := qs ++ [b] } := by
        rw [Device.jtagClock, hjtag]
        rfl
      have hout : (d.jtagClock false b).2 = q := by
        rw [Device.jtagClock, hjtag]
        rfl
      have hrest := ih (d := (d.jtagClock false b).1) (by rw [hnext, htap]) (by
        rw [hnext]
        simp only [hshift, List.length_cons] at hlen
        simp only [List.length_append]
        omega)
      simp only [hshift, List.length_cons, Nat.add_le_add_iff_right] at hlen
      rw [hnext, List.take_append_of_le_length hlen] at hrest
      rw [List.length_cons, List.replicate_succ, List.zip_cons_cons, List.take_succ_cons, ← hrest, ← hout]
      rfl

/-- Five edges with TMS high lead to Test-Logic-Reset from every state. -/
theorem Tap.reset_of_five_high (t : Tap) : (((((t.next true).next true).next true).next true).next true) = .reset := by
  cases t <;> rfl

/-- From Test-Logic-Reset the way to the data register captures IDCODE. -/
theorem Device.jtagClocks_toIdcode {d : Device} (htap : d.jtag.tap = .reset) (b₀ b₁ b₂ b₃ : Bool) :
    (d.jtagClocks [(false, b₀), (true, b₁), (false, b₂), (false, b₃)]).1.jtag = ⟨.shiftDr, .idcode, jtagCapture .idcode⟩ := by
  have hjtag : d = { d with jtag := ⟨.reset, d.jtag.instr, d.jtag.shift⟩ } := by rw [← htap]
  rw [hjtag]
  rfl

/-- Settles O60. -/
theorem testAccessPort : Obligations.TestAccessPort := by
  unfold Obligations.TestAccessPort
  constructor
  · intro d tdi htdi
    obtain ⟨a₀, a₁, a₂, a₃, a₄, b₀, b₁, b₂, b₃, rest, rfl⟩ : ∃ a₀ a₁ a₂ a₃ a₄ b₀ b₁ b₂ b₃ rest,
        tdi = [a₀, a₁, a₂, a₃, a₄] ++ ([b₀, b₁, b₂, b₃] ++ rest) := by
      match tdi, htdi with
      | a₀ :: a₁ :: a₂ :: a₃ :: a₄ :: b₀ :: b₁ :: b₂ :: b₃ :: rest, _ => exact ⟨a₀, a₁, a₂, a₃, a₄, b₀, b₁, b₂, b₃, rest, rfl⟩
    have hrest : rest.length = 32 := by simpa using htdi
    have hedges : (List.replicate 5 true ++ [false, true, false, false] ++ List.replicate 32 false).zip
        ([a₀, a₁, a₂, a₃, a₄] ++ ([b₀, b₁, b₂, b₃] ++ rest)) =
        [(true, a₀), (true, a₁), (true, a₂), (true, a₃), (true, a₄)] ++
          ([(false, b₀), (true, b₁), (false, b₂), (false, b₃)] ++ (List.replicate rest.length false).zip rest) := by
      rw [hrest]
      rfl
    generalize hhigh : [(true, a₀), (true, a₁), (true, a₂), (true, a₃), (true, a₄)] = high at hedges
    generalize hway : [(false, b₀), (true, b₁), (false, b₂), (false, b₃)] = way at hedges
    have hreset : (d.jtagClocks high).1.jtag.tap = .reset := by
      rw [← hhigh]
      exact Tap.reset_of_five_high d.jtag.tap
    have hready := Device.jtagClocks_toIdcode hreset b₀ b₁ b₂ b₃
    rw [hway] at hready
    rw [hedges, Device.jtagClocks_append, Device.jtagClocks_append,
      Device.jtagClocks_shiftDr rest (congrArg Jtag.tap hready) (by rw [hready, hrest]; decide), hready, hrest, ← List.append_assoc,
      List.drop_append_of_le_length (by simp [Device.length_jtagClocks, ← hhigh, ← hway]),
      List.drop_of_length_le (by simp [Device.length_jtagClocks, ← hhigh, ← hway])]
    decide
  · intro d i
    cases i <;> simp [Device.jtagActs, Device.testMode]

end Sys2Proof.Machine
end

section
set_option Elab.async false
/-! PROOFS. Microwords of both formats (R391): a word spelt from its fields decodes to them, and what each operation does. -/

namespace Sys2Proof.Machine

/-! ### Words and their fields -/

/-- What stands above the lowest lo bits of a number, taken apart into a field of k bits and the rest. -/
theorem field_above {x y v lo k : Nat} (h : x / 2 ^ lo = y * 2 ^ k + v) (hv : v < 2 ^ k) : x / 2 ^ lo % 2 ^ k = v ∧ x / 2 ^ (lo + k) = y := by
  rw [Nat.pow_add, ← Nat.div_div_eq_div_mul, h]
  refine ⟨Nat.mul_add_mod_of_lt hv, ?_⟩
  rw [Nat.mul_comm, Nat.mul_add_div (Nat.two_pow_pos k), Nat.div_eq_of_lt hv, Nat.add_zero]

theorem bit_of_parts {x r n : Nat} {b : Bool} (h : x / 2 ^ n = r * 2 + b2n b) : bit x n = b := by
  rw [bit, Nat.testBit_eq_decide_div_mod_eq, h]
  cases b <;> simp [b2n]

theorem b2n_lt_two (b : Bool) : b2n b < 2 := by cases b <;> decide

/-- A word of format U. -/
theorem decodeMicro_u {op dst a b sel : Nat} {wait : Bool} {o : UOp} (ho : UOp.of op = some o) (hd : dst ≤ 0x53) (ha : a ≤ 0x53)
    (hb : b ≤ 0x53) (hs : sel < 32) :
    decodeMicro (op * 2 ^ 27 + b2n wait * 2 ^ 26 + dst * 2 ^ 19 + a * 2 ^ 12 + b * 2 ^ 5 + sel) = some (.u o wait dst a b sel) := by
  have hop : op < 23 := (List.getElem?_eq_some_iff.mp ho).1
  generalize hx : op * 2 ^ 27 + b2n wait * 2 ^ 26 + dst * 2 ^ 19 + a * 2 ^ 12 + b * 2 ^ 5 + sel = x
  have hparts : x / 2 ^ 0 = ((((op * 2 + b2n wait) * 2 ^ 7 + dst) * 2 ^ 7 + a) * 2 ^ 7 + b) * 2 ^ 5 + sel := by omega
  obtain ⟨h4, hparts⟩ := field_above hparts hs
  obtain ⟨h11, hparts⟩ := field_above hparts (hb.trans_lt (by decide))
  obtain ⟨h18, hparts⟩ := field_above hparts (ha.trans_lt (by decide))
  obtain ⟨h25, hparts⟩ := field_above hparts (hd.trans_lt (by decide))
  have h26 : bit x 26 = wait := bit_of_parts hparts
  obtain ⟨-, hparts⟩ := field_above (k := 1) hparts (b2n_lt_two wait)
  have h31 : bits x 31 27 = op := (congrArg (· % 2 ^ 5) hparts).trans (Nat.mod_eq_of_lt (hop.trans (by decide)))
  replace h25 : bits x 25 19 = dst := h25
  replace h18 : bits x 18 12 = a := h18
  replace h11 : bits x 11 5 = b := h11
  replace h4 : x % 32 = sel := by rwa [pow_zero, Nat.div_one] at h4
  unfold decodeMicro
  simp only [h31, h25, h18, h11, h26, h4, ho]
  simp [microReg, hd, ha, hb]
  omega

/-- A word of format B. -/
theorem decodeMicro_b {op cond target arg : Nat} {wait : Bool} {o : BOp} {c : MicroCond} (ho : BOp.of op = some o)
    (hc : MicroCond.of cond = some c) (ht : target < 2 ^ 15) (ha : arg < 128) (hwait : o = .waitc → wait = true) :
    decodeMicro ((0x18 + op) * 2 ^ 27 + b2n wait * 2 ^ 26 + cond * 2 ^ 22 + target * 2 ^ 7 + arg) = some (.b o wait c target arg) := by
  have hop : op < 7 := (List.getElem?_eq_some_iff.mp ho).1
  have hcond : cond < 13 := (List.getElem?_eq_some_iff.mp hc).1
  generalize hx : (0x18 + op) * 2 ^ 27 + b2n wait * 2 ^ 26 + cond * 2 ^ 22 + target * 2 ^ 7 + arg = x
  have hparts : x / 2 ^ 0 = ((((0x18 + op) * 2 + b2n wait) * 2 ^ 4 + cond) * 2 ^ 15 + target) * 2 ^ 7 + arg := by omega
  obtain ⟨h6, hparts⟩ := field_above hparts ha
  obtain ⟨h21, hparts⟩ := field_above hparts ht
  obtain ⟨h25, hparts⟩ := field_above hparts (hcond.trans (by decide))
  have h26 : bit x 26 = wait := bit_of_parts hparts
  obtain ⟨-, hparts⟩ := field_above (k := 1) hparts (b2n_lt_two wait)
  have h31 : bits x 31 27 = 0x18 + op := (congrArg (· % 2 ^ 5) hparts).trans (Nat.mod_eq_of_lt (by omega))
  replace h25 : bits x 25 22 = cond := h25
  replace h21 : bits x 21 7 = target := h21
  replace h6 : x % 128 = arg := by rwa [pow_zero, Nat.div_one] at h6
  have hno : ¬0x18 + op < 0x18 := by omega
  unfold decodeMicro
  simp only [h31, h25, h21, h26, h6, hno, if_false, Nat.add_sub_cancel_left, ho, hc]
  cases wait
  · simpa using hwait
  · simp

theorem decodeMicro_reserved {x : Nat} (h : bits x 31 27 = 0x17 ∨ bits x 31 27 = 0x1F) : decodeMicro x = none := by
  unfold decodeMicro
  rcases h with h | h <;> simp [h, UOp.of, BOp.of]

/-! ### Micro-registers -/

theorem microGet_reg (r : Regs) (m : Micro) (iw : Nat) (i : BitVec 6) : microGet r m iw i.toNat = r.get i := by
  rw [microGet, if_pos i.isLt, BitVec.ofNat_toNat, BitVec.setWidth_eq]

theorem microSet_reg (r : Regs) (m : Micro) (k : BitVec 6) (x : DWord) : microSet r m k.toNat x = (r.set k x, m) := by
  rw [microSet, if_pos k.isLt, BitVec.ofNat_toNat, BitVec.setWidth_eq]

/-- Settles O59: the words by their fields, the operations by what each of them does. -/
theorem microwords : Obligations.Microwords := by
  unfold Obligations.Microwords
  refine ⟨fun _ _ _ _ _ _ _ => decodeMicro_u, fun _ _ _ _ _ _ _ => decodeMicro_b, fun _ => decodeMicro_reserved, ?idle, ?acts, ?computes⟩
  case idle =>
    intro e r m op wait c target arg hc
    simp [microB, hc]
  case acts =>
    intro e r m wait c target arg u hc hu
    refine ⟨by simp [microB, hc], ?call, ?ret, ?eoi, by simp [microB, hc], fun hint => by simp [microB, hc, hint]⟩
    case call =>
      by_cases hdepth : m.stack.length < 8
      · simp [microB, hc, hu, hdepth, Nat.not_le.mpr hdepth]
      · simp [microB, hc, hdepth, Nat.not_lt.mp hdepth]
    case ret =>
      intro v l hl
      simp [microB, hc, hl]
    case eoi =>
      have heven : (!bit arg 0) = (arg % 2 == 0) := by
        rw [bit, Nat.testBit_zero]
        rcases Nat.mod_two_eq_zero_or_one arg with h | h <;> simp [h]
      simp [microB, hc, heven]
  case computes =>
    intro tb iw sel r m i j k op x hmem
    simp only [List.mem_cons, Prod.mk.injEq, List.not_mem_nil, or_false] at hmem
    rcases hmem with ⟨rfl, rfl⟩ | ⟨rfl, rfl⟩ | ⟨rfl, rfl⟩ | ⟨rfl, rfl⟩ | ⟨rfl, rfl⟩ | ⟨rfl, rfl⟩ | ⟨rfl, rfl⟩ <;>
      refine ⟨_, by simp only [microU, microGet_reg, microSet_reg]; rfl, rfl, fun hmov hldi => ?_⟩
    case inr.inr.inr.inr.inr.inl => exact absurd rfl hmov
    case inr.inr.inr.inr.inr.inr => exact absurd rfl hldi
    all_goals exact ⟨rfl, rfl⟩

end Sys2Proof.Machine
end

section
set_option Elab.async false
/-! PROOFS. Doorbells, offsets that name no register, and programming the flash (R408, R496, R519). -/

namespace Sys2Proof.Machine

/-! ### Doorbells (R408) -/

theorem Device.ringSize_le (x : Nat) : 2 ^ clampN 4 16 x ≤ 2 ^ 16 := Nat.pow_le_pow_right (by omega) (by unfold clampN; omega)

/-- A doorbell value that fits its ring fits the field of the register. -/
theorem Device.fld_doorbell (d : Device) (off : Nat) {x v : Nat} (hv : v < 2 ^ clampN 4 16 x) : (d.setFld off 15 0 v).fld off 15 0 = v := by
  rw [fld_setFld_self _ _ _ (by omega) (by omega)]
  exact Nat.mod_eq_of_lt (hv.trans_le (ringSize_le x))

theorem Device.doorbellErr_shows (d : Device) (s : Nat) :
    (d.doorbellErr s).flag (Off.seatStatus s) 0 = true ∧ d.doorbellErr s = { d with regs := (d.doorbellErr s).regs } ∧
      d.regsKept (d.doorbellErr s) (fun o => o == Off.seatStatus s) :=
  ⟨flag_setFlag_self _ _ _ (by omega), rfl, fun _ ho => d.reg_setReg_other _ (by simpa using ho)⟩

theorem Device.ringBell_up {d : Device} (h : d.registersUp = true) (f : Device → Device) : d.ringBell f = f d := if_pos h

/-- Settles O46: a doorbell writes its own field where it is taken, and DOORBELL_ERR where it is not. -/
theorem doorbells : Obligations.Doorbells := by
  refine ⟨?cmd, ?cmdRefused, ?notice, ?noticeRefused⟩
  case cmd =>
    intro seat ring v d w hup hen hv
    refine runs_of_exec (exec_to rfl (d.ringBell_up hup _)) ?_
    rw [Device.cmdDoorbell, if_pos (by simp [hen, hv])]
    exact ⟨d.fld_doorbell _ hv, rfl, fun _ ho => d.reg_setReg_other _ (by simpa using ho)⟩
  case cmdRefused =>
    intro seat ring v d w hup hno
    refine runs_of_exec (exec_to rfl (d.ringBell_up hup _)) ?_
    rw [Device.cmdDoorbell, if_neg (by rcases hno with h | h <;> simp [h])]
    exact d.doorbellErr_shows seat
  case notice =>
    intro seat ring v d w hup hen hv hhead
    refine runs_of_exec (exec_to rfl (d.ringBell_up hup _)) ?_
    simp only [Device.noticeDoorbell]
    rw [if_pos (by simp [hen, hv, hhead])]
    exact ⟨d.fld_doorbell _ hv, rfl, fun _ ho => d.reg_setReg_other _ (by simpa using ho)⟩
  case noticeRefused =>
    intro seat ring v d w hup hno
    refine runs_of_exec (exec_to rfl (d.ringBell_up hup _)) ?_
    simp only [Device.noticeDoorbell]
    rw [if_neg (by rcases hno with h | h | h <;> simp [h])]
    exact d.doorbellErr_shows seat

/-! ### Offsets that name no register (R519) -/

theorem Device.islandTrack_self (d : Device) : d.islandTrack d = d := if_neg (by simp)

/-- Settles O47: the write goes nowhere, and the read returns 0. -/
theorem unassignedOffsets : Obligations.UnassignedOffsets := by
  refine ⟨?write, ?read⟩
  case write =>
    intro seat off v d w hind hnone
    have hbus : d.busWrite seat off.toNat v.toNat = d := by
      simp [Device.busWrite, hind, Device.writeReg, hnone]
    have hwrite : d.regWrite seat off.toNat v.toNat = d := by rw [Device.regWrite, hbus, Device.islandTrack_self]
    exact runs_of_exec (exec_to rfl hwrite) rfl
  case read =>
    intro seat off d w hind hnone
    have hvalue : d.busValue seat off.toNat = (d, 0) := by
      simp [Device.busValue, hind, Device.readReg, hnone]
    have hread : d.busRead seat off.toNat = d.modPwr fun p => { p with data := NMap.set p.data seat 0 } := by
      rw [Device.busRead, hvalue]
    refine runs_of_exec (exec_to rfl hread) ⟨?_, rfl⟩
    simp [NMap.getD, Device.modPwr]

/-! ### Programming the flash (R496) -/

namespace Device

variable {d : Device}

/-- Freeing the flash keeps the buffer. -/
theorem flashBuf_flashFree (d : Device) : d.flashFree.flashBuf = d.flashBuf := by
  have hreg (n : Nat) : d.flashFree.reg (Off.darbyFlashBuf n) = d.reg (Off.darbyFlashBuf n) := by
    rw [flashFree, reg_modPwr, setFlag, reg_setFld_other _ _ _ _ (by unfold Off.darbyFlashBuf Off.darbyFlashCmd; omega)]
  simp only [flashBuf, hreg]

/-- What stands in the flash after a program operation of as many bytes as are read back. -/
theorem flashBytes_flashProgram (d : Device) (a : Nat) {bs : List Byte} {n : Nat} (hn : bs.length = n) :
    (d.flashProgram a bs).flashBytes a n = List.zipWith (fun x y => x &&& y) (d.flashBytes a n) bs := by
  subst hn
  have h := d.flashBytes_flashWrite_self a (List.zipWith (fun x y => x &&& y) (d.flashBytes a bs.length) bs)
  rwa [List.length_zipWith, length_flashBytes, Nat.min_self] at h

/-- The block when the bytes of a program operation are in the flash, before it is seen whether they read back. -/
def programmed (d : Device) (a : Nat) : Device :=
  (d.flashFree.setFld Off.darbyFlashCmd 30 28 0).flashProgram a d.flashFree.flashBuf

theorem flashBytes_programmed (d : Device) (a : Nat) :
    (d.programmed a).flashBytes a 256 = List.zipWith (fun x y => x &&& y) (d.flashBytes a 256) d.flashBuf := by
  have hcells : (d.flashFree.setFld Off.darbyFlashCmd 30 28 0).flashBytes a 256 = d.flashBytes a 256 := by
    rw [flashBytes, flashBytes, setFld_pwr, pwr_flashFree]
  rw [programmed, flashBytes_flashProgram _ _ (length_flashBuf _), hcells, flashBuf_flashFree]

section
variable {o : FlashOp} (ho : d.pwr.flashOp = some o) (hop : o.op = 2)
include ho hop

theorem flashDone_of_readsBack (h : (d.programmed o.addr).flashBytes o.addr 256 = d.flashFree.flashBuf) :
    d.flashDone false = d.programmed o.addr := by
  unfold flashDone
  simp only [ho, hop]
  rw [if_neg (by decide), if_neg (by decide), if_pos trivial]
  exact if_pos h

theorem flashDone_of_readsElse (h : (d.programmed o.addr).flashBytes o.addr 256 ≠ d.flashFree.flashBuf) :
    d.flashDone false = (d.programmed o.addr).setFld Off.darbyFlashCmd 30 28 3 := by
  unfold flashDone
  simp only [ho, hop]
  rw [if_neg (by decide), if_neg (by decide), if_pos trivial]
  exact if_neg h

end

end Device

/-- Settles O44: the cells take the bits both have; STATUS tells whether what was to be programmed reads back. -/
theorem flashProgramming : Obligations.FlashProgramming := by
  intro err o b d w ho herr hop hb
  subst herr
  change b = d.flashBuf at hb
  rw [hb]
  have hbytes := d.flashBytes_programmed o.addr
  by_cases hback : (d.programmed o.addr).flashBytes o.addr 256 = d.flashFree.flashBuf
  · refine runs_of_exec (exec_to rfl (Device.flashDone_of_readsBack ho hop hback)) ⟨hbytes, ?_⟩
    rw [if_pos (hback.trans d.flashBuf_flashFree), Device.programmed, Device.flashProgram, Device.fld_flashWrite]
    exact (d.flashFree_status 0).1
  · refine runs_of_exec (exec_to rfl (Device.flashDone_of_readsElse ho hop hback)) ?_
    have hsame : ((d.programmed o.addr).setFld Off.darbyFlashCmd 30 28 3).flashBytes o.addr 256 = (d.programmed o.addr).flashBytes o.addr 256 := by
      rw [Device.flashBytes, Device.flashBytes, Device.setFld_pwr]
    rw [d.flashBuf_flashFree] at hback
    rw [hsame, if_neg hback, Device.fld_setFld_self _ _ _ (by omega) (by omega)]
    exact ⟨hbytes, rfl⟩

end Sys2Proof.Machine
end

section
set_option Elab.async false
/-! PROOFS. What a reset with VAON held leaves of the power unit, and the recovery loader (R427, R442, R469). -/

namespace Sys2Proof

theorem fitB_of_length {n : Nat} {bs : List Byte} (h : bs.length = n) : fitB n bs = bs := by
  subst h
  refine List.ext_getElem (by simp [fitB, sliceB]) fun i hi hb => ?_
  simp [fitB, sliceB, hb]

/-- Flash cells that are erased take what is programmed. -/
theorem zipWith_and_erased (bs : List Byte) : List.zipWith (fun x y => x &&& y) (List.replicate bs.length 0xFF) bs = bs := by
  induction bs with
  | nil => rfl
  | cons b bs ih =>
    rw [List.length_cons, List.replicate_succ, List.zipWith_cons_cons, ih]
    exact congrArg (· :: bs) (BitVec.allOnes_and (x := b))

namespace Machine.Device

variable {d : Device}

/-! ### Resets -/

theorem pwr_takeOver (d : Device) : d.takeOver.pwr = d.pwr := by
  unfold takeOver
  split
  · rfl
  · exact pwr_foldl (fun e i => e.setReg64_pwr _ _) (List.range 7) d

/-- The power unit from which the device starts again with VAON held. -/
def restartPower (d : Device) : Power :=
  { Power.reset with
    flash := d.pwr.flash, boot := d.pwr.boot, wakeAddr := d.pwr.wakeAddr, data := d.pwr.data, lwSpans := d.pwr.lwSpans
    islandFrom := d.pwr.islandFrom, tioHeld := d.pwr.tioHeld, heldAt := d.pwr.heldAt }

theorem pwr_coreReset (d : Device) (asleep : Bool) : (d.coreReset asleep).pwr = d.restartPower := by
  unfold coreReset
  extract_lets d₁ keep z _ _ _ _ _ _ _ _ n n₁ n₂ n₃ n₄
  have h₁ : n₁.pwr = n.pwr := pwr_foldl (fun e i => e.setFlag_pwr _ _ _) (List.range 8) n
  have h₄ : n₄.pwr = n.pwr := by
    simp only [n₄, n₃, n₂]
    rw [setFlag_pwr, setFlag_pwr, setFld_pwr, h₁]
  rw [setFld_pwr, h₄]
  have hd₁ : d₁.pwr = d.pwr := d.pwr_takeOver
  simp only [n, hd₁]
  rfl

/-- The block of a warm reset before it is logged. -/
def warmBase (d : Device) (cause : Nat) : Device := (d.quotePinsEnd.coreReset false).setFld Off.faultResetCause 3 0 cause

theorem told_warmBase (d : Device) (cause : Nat) : (d.warmBase cause).Told (d.warmBase cause).logReset := (Told.refl _).logReset

theorem pwr_warmReset (d : Device) (cause : Nat) : (d.warmReset cause).pwr = { d.restartPower with kind := .warm } := by
  rw [warmReset, modPwr_pwr, ← warmBase, (d.told_warmBase cause).pwr, warmBase, setFld_pwr, pwr_coreReset]
  rfl

theorem reg_logReset_other (d : Device) {off : Nat} (h : off ≠ Off.hawkLogOvf) : d.logReset.reg off = d.reg off :=
  reg_logEntry h

theorem fld_warmReset_cause (d : Device) {cause : Nat} (h : cause < 16) : (d.warmReset cause).fld Off.faultResetCause 3 0 = cause := by
  rw [warmReset, fld_modPwr, ← warmBase, fld_congr ((d.warmBase cause).reg_logReset_other (by decide)), warmBase,
    fld_setFld_self _ _ _ (by omega) (by omega)]
  exact Nat.mod_eq_of_lt h

/-! ### The recovery loader (R427) -/

/-- The block that shows an answer, once the answer's event is told. -/
theorem told_recAnswer (d : Device) (op status done crc : Nat) (data : List Byte) :
    (d.modPwr fun p => { p with recovery := recoveryBytes op status done crc data }).Told (d.recAnswer op status done crc data) :=
  (Told.refl _).raise (by decide)

theorem pwr_recAnswer (d : Device) (op status done crc : Nat) (data : List Byte) :
    (d.recAnswer op status done crc data).pwr = { d.pwr with recovery := recoveryBytes op status done crc data } :=
  (d.told_recAnswer op status done crc data).pwr

theorem flashBytes_recAnswer (d : Device) (op status done crc a n : Nat) (data : List Byte) :
    (d.recAnswer op status done crc data).flashBytes a n = d.flashBytes a n := by
  rw [flashBytes, flashBytes, pwr_recAnswer]

section
variable {op : Nat} {q : RecReq} {f : Device → Device} (hphase : d.pwr.phase = .recovery)
include hphase

theorem recRequest_ok (hok : recReqOk op q = true) : d.recRequest op q false f = f d := by
  simp [recRequest, hphase, hok]

theorem recRequest_malformed {err : Bool} (hbad : recReqOk op q = false) : d.recRequest op q err f = d.recAnswer op 1 0 0 [] := by
  simp [recRequest, hphase, hbad]

theorem recRequest_flashError (hok : recReqOk op q = true) : d.recRequest op q true f = (d.recAnswer op 3 0 0 []).raiseOpen 468 Sev.warn := by
  simp [recRequest, hphase, hok]

theorem recErase_ok (hok : recReqOk 1 q = true) :
    d.recErase q false = (d.flashWrite q.addr.toNat (List.replicate q.len.toNat 0xFF)).recAnswer 1 0 q.len.toNat 0 [] :=
  recRequest_ok hphase hok

variable {data : List Byte} (hok : recReqOk 2 q = true) (hlen : data.length = q.len.toNat)
include hok hlen

/-- WRITE of the data its CRC names, into erased flash: it reads back. -/
theorem recWrite_erased (hcrc : crc32c data = q.crc.toNat)
    (hff : d.flashBytes q.addr.toNat q.len.toNat = List.replicate q.len.toNat 0xFF) :
    d.recWrite q data false = (d.flashProgram q.addr.toNat data).recAnswer 2 0 q.len.toNat (crc32c data) [] ∧
      (d.flashProgram q.addr.toNat data).flashBytes q.addr.toNat q.len.toNat = data := by
  have hback : (d.flashProgram q.addr.toNat data).flashBytes q.addr.toNat q.len.toNat = data := by
    rw [flashBytes_flashProgram d _ hlen, hff, ← hlen, zipWith_and_erased]
  refine ⟨?_, hback⟩
  rw [recWrite, fitB_of_length hlen, Bool.false_and, recRequest_ok hphase hok, if_neg (by simp [hcrc])]
  simp only [hback, if_pos]

theorem recWrite_crc {err : Bool} (hcrc : crc32c data ≠ q.crc.toNat) : d.recWrite q data err = d.recAnswer 2 2 0 0 [] := by
  rw [recWrite, fitB_of_length hlen, beq_false_of_ne hcrc, Bool.and_false, recRequest_ok hphase hok, if_pos hcrc]

end
end Machine.Device

namespace Machine

/-- Settles O10: each request by its answer and by what it leaves in the flash. -/
theorem recoveryLoader : Obligations.RecoveryLoader := by
  refine ⟨?erase, ?eraseFails, ?eraseBad, ?write, ?writeCrc, ?read, ?ident, ?reset⟩
  case erase =>
    intro q d w hphase hok
    refine runs_of_exec (exec_to rfl (Device.recErase_ok hphase hok)) ⟨by rw [Device.pwr_recAnswer], ?_⟩
    rw [Device.flashBytes_recAnswer]
    have h := d.flashBytes_flashWrite_self q.addr.toNat (List.replicate q.len.toNat 0xFF)
    rwa [List.length_replicate] at h
  case eraseFails =>
    intro q d w hphase hok
    have htold : (d.recAnswer 1 3 0 0 []).Told ((d.recAnswer 1 3 0 0 []).raiseOpen 468 Sev.warn) := (Device.Told.refl _).raiseOpen (by decide)
    refine runs_of_exec (exec_to rfl (Device.recRequest_flashError hphase hok)) ?_
    rw [htold.pwr, Device.pwr_recAnswer]
    exact ⟨rfl, rfl⟩
  case eraseBad =>
    intro q err d w hphase hbad
    refine runs_of_exec (exec_to rfl (Device.recRequest_malformed hphase hbad)) ?_
    rw [Device.pwr_recAnswer]
    exact ⟨rfl, rfl⟩
  case write =>
    intro q data d w hphase hok hlen hcrc hff
    obtain ⟨hwrite, hback⟩ := Device.recWrite_erased hphase hok hlen hcrc hff
    refine runs_of_exec (exec_to rfl hwrite) ⟨by rw [Device.pwr_recAnswer], ?_⟩
    rw [Device.flashBytes_recAnswer, hback]
  case writeCrc =>
    intro q data err d w hphase hok hlen hcrc
    refine runs_of_exec (exec_to rfl (Device.recWrite_crc hphase hok hlen hcrc)) ?_
    rw [Device.pwr_recAnswer]
    exact ⟨rfl, rfl⟩
  case read =>
    intro q d w hphase hok
    refine runs_of_exec (exec_to rfl (Device.recRequest_ok hphase hok)) ?_
    rw [Device.pwr_recAnswer]
  case ident =>
    intro q d w hphase hok
    refine runs_of_exec (exec_to rfl (Device.recRequest_ok hphase hok)) ?_
    rw [Device.pwr_recAnswer]
  case reset =>
    intro q d w hphase hok
    refine runs_of_exec (exec_to rfl (Device.recRequest_ok hphase hok)) ?_
    rw [Device.modPwr_pwr, Device.fld_modPwr, Device.pwr_warmReset, Device.fld_warmReset_cause _ (by omega), Device.restartPower,
      Device.pwr_recAnswer]
    exact ⟨rfl, rfl, rfl, rfl, rfl⟩

end Machine
end Sys2Proof
end

section
set_option Elab.async false
/-! PROOFS. The wake port of a device that has started (R475), and registers that are read as those of one instant (R341, R357, R441). -/

namespace Sys2Proof.Machine

/-! ### The wake port (R460, R463, R475) -/

namespace Device

variable {d : Device}

/-- PWR_STATUS shows whether a transition runs. -/
theorem flag_showPower (d : Device) : d.showPower.flag Off.pwrStatus 31 = d.pwr.running.isSome := by
  unfold showPower
  extract_lets t
  rw [flag, fld_setFld_apart _ _ _ (by omega) (by omega) (by omega), ← flag]
  simp only [t]
  rw [flag_setFlag_apart (by omega) (by omega), flag_setFlag_self _ _ _ (by omega)]

theorem flag_startTrans (d : Device) (r : PwrReq) : (d.startTrans r).flag Off.pwrStatus 31 = (d.startTrans r).pwr.running.isSome := by
  unfold startTrans
  rw [pwr_showPower]
  exact flag_showPower _

section
variable (hphase : d.pwr.phase = .started) (hrunning : d.pwr.running = none)
include hphase hrunning

/-- A started device with no transition has nothing to wake from. -/
theorem wakePort_started (f : Device → Device) : d.wakePort f = f d := by
  have hwake : d.wake 0 = d := by
    unfold wake
    simp only [hphase, hrunning]
  rw [wakePort, if_neg (by simp [hphase]), hwake]

end

/-- PWR_STATUS shows the transition that Seat L's request begins. -/
theorem flag_powerAskL {state : Nat} (hphase : d.pwr.phase = .started) (hrunning : d.pwr.running = none)
    (hstate : state < 3) (hnew : state ≠ d.pwrState) :
    (d.powerAskL state).flag Off.pwrStatus 31 = (d.powerAskL state).pwr.running.isSome := by
  have hidle : (d.setFld Off.pwrReqL 15 8 0xFF).pwr.running = none := by rw [setFld_pwr, hrunning]
  have hother : state ≠ (d.setFld Off.pwrReqL 15 8 0xFF).pwrState := by
    rwa [pwrState, d.fld_setFld_other _ _ _ _ _ (by decide), ← pwrState]
  rw [powerAskL, if_neg (by simp [hphase]), if_neg (by omega), powerAsk_idle (r := ⟨state, 2, none⟩) (if_pos rfl) hidle hother, flag_startTrans]

/-- Seat L writes DEV_SCRATCH of a started device. -/
theorem busWrite_scratch {v : Nat} (hphase : d.pwr.phase = .started) :
    d.busWrite 2 Off.devScratch v = (d.counted (d.occSeat 0x702 2 Off.devScratch (d.regPart Off.devScratch)).perf.occ).setReg (ownOff 2 Off.devScratch) v := by
  have hreach : d.reaches 2 Off.devScratch = true := by
    unfold reaches
    rw [hphase]
  have hind : isInd Off.devScratch = false := by decide
  have hmay : ∀ t : Device, t.mayWrite 2 Off.devScratch = true := fun t => by
    rw [mayWrite, if_pos (by decide)]
    decide +kernel
  obtain ⟨r, hr⟩ : ∃ r, regDef? Off.devScratch = some r := Option.isSome_iff_exists.mp (by decide +kernel)
  simp only [busWrite, hreach, hind, writeReg, hr, hmay, Bool.not_true, Bool.false_eq_true, if_false, if_true]
  rfl

end Device

/-- Settles O9: the port's accesses are those of Seat L on the bus, the address moving on by 4. -/
theorem wakePort : Obligations.WakePort := by
  refine ⟨?addr, ?read, ?write, ?power, ?status⟩
  case addr =>
    intro addr d w hphase hrunning
    exact runs_of_exec (exec_to rfl (Device.wakePort_started hphase hrunning _)) rfl
  case read =>
    intro d w hphase hrunning
    have hread : d.wakePortData none = (d.busRead 2 d.pwr.wakeAddr).modPwr fun p => { p with wakeAddr := (d.pwr.wakeAddr + 4) % 2 ^ 32 } :=
      Device.wakePort_started hphase hrunning _
    obtain ⟨i, hi⟩ := (d.wakePortData none).islandTrack_eq d
    refine runs_of_exec (exec_to rfl hi) ?_
    rw [hread]
    refine ⟨rfl, ?_⟩
    simp [Device.islandAt, Device.busRead, Device.modPwr, NMap.getD]
  case write =>
    intro v d w hphase hrunning haddr
    have hwrite : d.wakePortData (some v.toNat) =
        (d.busWrite 2 d.pwr.wakeAddr v.toNat).modPwr fun p => { p with wakeAddr := (d.pwr.wakeAddr + 4) % 2 ^ 32 } :=
      Device.wakePort_started hphase hrunning _
    obtain ⟨i, hi⟩ := (d.wakePortData (some v.toNat)).islandTrack_eq d
    refine runs_of_exec (exec_to rfl hi) ?_
    rw [hwrite]
    refine ⟨rfl, ?_⟩
    rw [Device.reg_islandAt, Device.reg_modPwr, haddr, Device.busWrite_scratch hphase, Device.reg_setReg_self, Nat.mod_eq_of_lt v.isLt]
  case power =>
    intro state d w hphase hrunning hold hstate hnew
    obtain ⟨hrun, hreq⟩ := Device.powerAskL_starts hphase hrunning hold hstate hnew
    refine runs_of_exec (exec_to rfl (Device.wakePort_started hphase hrunning _)) ⟨hrun, ?_, hreq⟩
    rw [Device.flag_powerAskL hphase hrunning hstate hnew, hrun]
    rfl
  case status =>
    intro d w hphase hrunning
    refine runs_of_exec (exec_to rfl (Device.wakePort_started hphase hrunning _)) ?_
    simp [Device.modPwr, Device.registersUp, hphase, hrunning, b2n]

end Sys2Proof.Machine
end

section
set_option Elab.async false
/-! PROOFS. Reads that put what belongs to the same instant into the seat's shadow (R341, R357, R441). -/

namespace Sys2Proof.Machine

def plumbTbSecLoDef : RegDef := ⟨"PLUMB_TB_SEC_LO", 0x500110, [(8, 0x40)], 0x0, .lo, [⟨31, 0, .ro, .live, []⟩]⟩

theorem regDef?_plumbTbSecLo {n : Nat} (hn : n < 8) : regDef? (Off.plumbTbSecLo n) = some plumbTbSecLoDef :=
  regDef?_instance (r := plumbTbSecLoDef) (st := 0x40) (by decide +kernel) rfl (by decide) hn

def plumbTioCapLoDef : RegDef := ⟨"PLUMB_TIO_CAP_LO", 0x500418, [(16, 0x20)], 0x0, .lo, [⟨31, 0, .ro, .live, []⟩]⟩

theorem regDef?_plumbTioCapLo {k : Nat} (hk : k < 16) : regDef? (Off.plumbTioCapLo k) = some plumbTioCapLoDef :=
  regDef?_instance (r := plumbTioCapLoDef) (st := 0x20) (by decide +kernel) rfl (by decide) hk

def hawkLogWDef : RegDef := ⟨"HAWK_LOG_W", 0x101000, [(256, 0x20), (8, 0x4)], 0x0, .single, [⟨31, 0, .ro, .live, []⟩]⟩

theorem regDef?_hawkLogW0 {n : Nat} (hn : n < 256) : regDef? (Off.hawkLogW n 0) = some hawkLogWDef :=
  regDef?_of_aloneAt (r := hawkLogWDef) (b := 0x101000) (st := 0x20) (n := 256) (by decide +kernel) hn
    (RegDef.covers_outer (r := hawkLogWDef) (k := 0) rfl hn (by decide) (by decide))

namespace Device

variable {d : Device} {s off off' v : Nat}

@[simp] theorem shadow?_setShadow_self (d : Device) (s off v : Nat) : (d.setShadow s off v).shadow? s off = some v := by
  simp [shadow?, setShadow, modSeat, setSeat, seat]

theorem shadow?_setShadow_other (h : off' ≠ off) : (d.setShadow s off v).shadow? s off' = d.shadow? s off' := by
  simp [shadow?, setShadow, modSeat, setSeat, seat, NMap.get?_set_other _ _ h]

/-- The shadow of what a list of names goes to, each at a place of its own. -/
theorem shadow?_foldl_setShadow {ns : List Nat} {place val : Nat → Nat} (hplace : ∀ i ∈ ns, ∀ j ∈ ns, place i = place j → i = j)
    {i : Nat} (hi : i ∈ ns) : (ns.foldl (fun e i => e.setShadow s (place i) (val i)) d).shadow? s (place i) = some (val i) := by
  induction ns using List.reverseRecOn with
  | nil => cases hi
  | append_singleton ns k ih =>
    rw [List.foldl_append, List.foldl_cons, List.foldl_nil]
    by_cases hik : i = k
    · subst hik
      exact shadow?_setShadow_self ..
    · have hmem : i ∈ ns := by simpa [hik] using hi
      have hne : place i ≠ place k := fun h => hik (hplace i hi k (by simp) h)
      rw [shadow?_setShadow_other hne]
      exact ih (fun a ha b hb => hplace a (by simp [ha]) b (by simp [hb])) hmem

/-- The block once a read by a seat is counted. -/
def readCounted (d : Device) (s off : Nat) : Device := d.occSeat 0x701 s off (d.regPart off)

section
variable {r : RegDef} (hreach : d.reaches s off = true) (hr : regDef? off = some r) (hoff : off < 0x3000000)
include hreach hr hoff

/-- Registers below the counters whose read is a capture, a time or a log entry. -/
theorem busValue_shadowed :
    (∀ k, instOf (Off.plumbTioCapLo 0) 0x20 16 off = some k → d.busValue s off = (d.readCounted s off).readCapture s k) ∧
      (instOf (Off.plumbTioCapLo 0) 0x20 16 off = none → ∀ n, instOf (Off.plumbTbSecLo 0) 0x40 8 off = some n →
        d.busValue s off = (d.readCounted s off).readSecLo s n) ∧
      (instOf (Off.plumbTioCapLo 0) 0x20 16 off = none → instOf (Off.plumbTbSecLo 0) 0x40 8 off = none →
        ∀ n, instOf (Off.hawkLogW 0 0) 0x20 256 off = some n → d.busValue s off = (d.readCounted s off).readLog0 s n) := by
  have hind : isInd off = false := decide_eq_false (by unfold Off.indAddr; omega)
  have hcounter : perfCounterOf off = none := by
    rw [perfCounterOf, instOf_eq_none (.inl (by unfold Off.perfCntLo; omega)), instOf_eq_none (.inl (by unfold Off.perfCntHi; omega)),
      if_neg (by unfold Off.perfSnapLo; omega)]
    rfl
  have hovf : instOf (Off.perfOvf 0) 4 8 off = none := instOf_eq_none (.inl (by unfold Off.perfOvf; omega))
  unfold busValue readReg
  refine ⟨fun k hk => ?_, fun hk n hn => ?_, fun hk hn e he => ?_⟩
  · simp only [hreach, hind, hr, hcounter, hovf, hk, Bool.not_true, Bool.not_false, Bool.false_eq_true, if_false, if_true]
    rfl
  · simp only [hreach, hind, hr, hcounter, hovf, hk, hn, Bool.not_true, Bool.not_false, Bool.false_eq_true, if_false, if_true]
    rfl
  · simp only [hreach, hind, hr, hcounter, hovf, hk, hn, he, Bool.not_true, Bool.not_false, Bool.false_eq_true, if_false, if_true]
    rfl

end

/-- What a bus read returns, and the block that its value's rule leaves. -/
theorem busRead_of_value {x : Device × Nat} (h : d.busValue s off = x) :
    d.busRead s off = x.1.modPwr fun p => { p with data := NMap.set p.data s x.2 } := by
  rw [busRead, h]

theorem data_busRead {e : Device} : NMap.getD (e.modPwr fun p => { p with data := NMap.set p.data s v }).pwr.data s off = v := by
  simp [modPwr]

end Device

/-- Settles O2: each read by its rule, and by where it puts the rest of what it took. -/
theorem shadowedReads : Obligations.ShadowedReads := by
  refine ⟨?time, ?capture, ?log⟩
  case time =>
    intro seat base d w hreach
    have hlt := base.isLt
    have hcap : instOf (Off.plumbTioCapLo 0) 0x20 16 (Off.plumbTbSecLo base) = none :=
      instOf_eq_none (.inl (by unfold Off.plumbTioCapLo Off.plumbTbSecLo; omega))
    obtain ⟨-, hvalue, -⟩ := Device.busValue_shadowed hreach (regDef?_plumbTbSecLo hlt) (by unfold Off.plumbTbSecLo; omega)
    refine runs_of_exec (exec_to rfl (Device.busRead_of_value (hvalue hcap base (instOf_instance (by decide) hlt)))) ?_
    have hsec : Off.plumbTbSecHi base ≠ Off.plumbTbNs base ∧ Off.plumbTbSecHi base ≠ Off.plumbTbFrac base ∧
        Off.plumbTbNs base ≠ Off.plumbTbFrac base := by
      unfold Off.plumbTbSecHi Off.plumbTbNs Off.plumbTbFrac
      omega
    obtain ⟨hhn, hhf, hnf⟩ := hsec
    refine ⟨Device.data_busRead, ?_, ?_, ?_⟩
    · exact (Device.shadow?_setShadow_other hhf).trans ((Device.shadow?_setShadow_other hhn).trans (Device.shadow?_setShadow_self ..))
    · exact (Device.shadow?_setShadow_other hnf).trans (Device.shadow?_setShadow_self ..)
    · exact Device.shadow?_setShadow_self ..
  case capture =>
    intro seat pin x up rest d w hreach hfifo
    have hlt := pin.isLt
    obtain ⟨hvalue, -⟩ := Device.busValue_shadowed hreach (regDef?_plumbTioCapLo hlt) (by unfold Off.plumbTioCapLo; omega)
    have hread : (d.readCounted seat (Off.plumbTioCapLo pin)).readCapture seat pin =
        ((((d.readCounted seat (Off.plumbTioCapLo pin)).setTio pin { d.tio pin with fifo := rest }).setShadow seat (Off.plumbTioCapHi pin)
          (x / 2 ^ 32)).setShadow seat (Off.plumbTioCtl pin) (b2n up), x % 2 ^ 32) := by
      have hfifo' : ((d.readCounted seat (Off.plumbTioCapLo pin)).tio pin).fifo = (x, up) :: rest := hfifo
      simp only [Device.readCapture, hfifo']
      rfl
    refine runs_of_exec (exec_to rfl (Device.busRead_of_value ((hvalue pin (instOf_instance (by decide) hlt)).trans hread))) ?_
    have hne : Off.plumbTioCapHi pin ≠ Off.plumbTioCtl pin := by unfold Off.plumbTioCapHi Off.plumbTioCtl; omega
    refine ⟨Device.data_busRead, ?_, ?_, ?_⟩
    · exact (Device.shadow?_setShadow_other hne).trans (Device.shadow?_setShadow_self ..)
    · exact Device.shadow?_setShadow_self ..
    · exact congrArg TioPin.fifo (Device.tio_setTio_self ..)
  case log =>
    intro seat entry d w hreach
    have hlt := entry.isLt
    have hcap : instOf (Off.plumbTioCapLo 0) 0x20 16 (Off.hawkLogW entry 0) = none :=
      instOf_eq_none (.inl (by unfold Off.plumbTioCapLo Off.hawkLogW; omega))
    have hsec : instOf (Off.plumbTbSecLo 0) 0x40 8 (Off.hawkLogW entry 0) = none :=
      instOf_eq_none (.inl (by unfold Off.plumbTbSecLo Off.hawkLogW; omega))
    obtain ⟨-, -, hvalue⟩ := Device.busValue_shadowed hreach (regDef?_hawkLogW0 hlt) (by unfold Off.hawkLogW; omega)
    refine runs_of_exec (exec_to rfl (Device.busRead_of_value (hvalue hcap hsec entry (instOf_instance (by decide) hlt)))) ⟨Device.data_busRead, ?_⟩
    rw [List.all_eq_true]
    intro i hi
    rw [beq_iff_eq]
    exact Device.shadow?_foldl_setShadow (place := fun i => Off.hawkLogW entry (i + 1)) (val := fun i => d.logWord entry (i + 1))
      (fun i _ j _ h => by unfold Off.hawkLogW at h; omega) hi

end Sys2Proof.Machine
end

section
set_option Elab.async false
/-! PROOFS. The commands of a time base (R340), and what a step of a base leaves alone. -/

namespace Sys2Proof.Machine

def plumbTbCmdDef : RegDef := ⟨"PLUMB_TB_CMD", 0x500100, [(8, 0x40)], 0x0, .single, [⟨1, 0, .wo, .live, []⟩]⟩

theorem regDef?_plumbTbCmd {n : Nat} (hn : n < 8) : regDef? (Off.plumbTbCmd n) = some plumbTbCmdDef :=
  regDef?_instance (r := plumbTbCmdDef) (st := 0x40) (by decide +kernel) rfl (by decide) hn

theorem roleOf_plumbTbCmd (n : Fin 8) : roleOf (Off.plumbTbCmd n) = .tbCmd n := by
  decide +revert +kernel

theorem Device.regWrite_plumbTbCmd {d : Device} {s v : Nat} {n : Fin 8} (hmay : d.mayReach s (Off.plumbTbCmd n) = true) :
    ∃ o i, d.regWrite s (Off.plumbTbCmd n) v = ((d.counted o).tbCommand s n v).islandAt i := by
  have hplace : unfollowed (Off.plumbTbCmd n) = true := by
    have hn := n.isLt
    unfold Off.plumbTbCmd
    exact unfollowed_of_place (by unfold Off.devScratch; omega) (by unfold Off.indAddr; omega) (by omega) (by omega)
  have hwrite := Device.regWrite_alone (v := v) hmay hplace (regDef?_plumbTbCmd n.isLt) rfl
  simpa only [Device.writeRole, roleOf_plumbTbCmd n] using hwrite

end Sys2Proof.Machine
end

section
set_option Elab.async false
/-! PROOFS. The commands of a time base (R340): what a step of a base leaves alone, and what each command does to the base and its status. -/

namespace Sys2Proof.Machine

/-- The registers that a step of a time base writes beside the base's status: those of an event, and SKIP of the pins' registers. -/
def stepReg (o : Nat) : Bool := raiseReg o || decide (0x500400 ≤ o ∧ o < 0x500600)

theorem stepReg_plumbTbStatus (n : Fin 8) : stepReg (Off.plumbTbStatus n) = false := by decide +revert

/-- `t` is `d` as far as the time bases and the registers outside `stepReg` go. -/
def Device.StepKept (d t : Device) : Prop := t.plumb.tbs = d.plumb.tbs ∧ d.regsKept t stepReg

namespace Device.StepKept

variable {d t u : Device} {off hi lo n k : Nat}

theorem refl (d : Device) : d.StepKept d := ⟨rfl, fun _ _ => rfl⟩

theorem trans (h : d.StepKept t) (h' : t.StepKept u) : d.StepKept u := by
  obtain ⟨htb, hreg⟩ := h
  obtain ⟨htb', hreg'⟩ := h'
  exact ⟨htb'.trans htb, fun o ho => (hreg' o ho).trans (hreg o ho)⟩

theorem tb (h : d.StepKept t) (n : Nat) : t.tb n = d.tb n := by rw [Device.tb, Device.tb, h.1]

theorem reg (h : d.StepKept t) (ho : stepReg off = false) : t.reg off = d.reg off := h.2 off ho

theorem flag (h : d.StepKept t) (ho : stepReg off = false) : t.flag off n = d.flag off n := flag_congr (h.reg ho)

theorem raise {src sev cause a b : Nat} (h : d.StepKept t) (hs : src < 512) : d.StepKept (t.raise src sev cause a b) := by
  refine h.trans ⟨by rw [((Told.refl t).raise hs).1], fun o ho => reg_raise (by omega) ?_⟩
  rw [stepReg, Bool.or_eq_false_iff] at ho
  exact ho.1

theorem modPlumb {f : Plumb → Plumb} (h : d.StepKept t) (hf : ∀ p, (f p).tbs = p.tbs) : d.StepKept (t.modPlumb f) :=
  h.trans ⟨hf _, fun _ _ => rfl⟩

theorem setReg {v : Nat} (h : d.StepKept t) (hoff : stepReg off = true) : d.StepKept (t.setReg off v) := by
  refine h.trans ⟨by rw [setReg_plumb], fun o ho => reg_setReg_other _ _ ?_⟩
  rintro rfl
  rw [hoff] at ho
  exact absurd ho (by decide)

theorem ppsAgain (h : d.StepKept t) : d.StepKept (t.ppsAgain n) := by
  unfold Device.ppsAgain
  split
  · exact h.modPlumb fun _ => rfl
  · exact h

theorem tioStep (h : d.StepKept t) (hk : k < 16) : d.StepKept (t.tioStep k) := by
  unfold Device.tioStep
  extract_lets x next skipped t₁
  have hpin : 0x500400 ≤ Off.plumbTioCtl k ∧ Off.plumbTioCtl k < 0x500600 := by unfold Off.plumbTioCtl; omega
  have h₁ : d.StepKept t₁ := h.modPlumb fun _ => rfl
  exact h₁.setReg (by simp [stepReg, hpin])

theorem gatesStepped (h : d.StepKept t) : d.StepKept t.gatesStepped :=
  List.foldlRecOn (motive := d.StepKept) _ _ h fun u hu q _ => by
    obtain ⟨hreg, -, hplumb⟩ := (AdminKept.refl q.1 u).gatesMoved
    exact hu.trans ⟨by rw [hplumb], fun o _ => hreg o⟩

/-- A step of a base shows STEPPED, and else changes what an event, PPS_OUT and the pins change. -/
theorem stepped (d : Device) (n : Fin 8) (delta : Int) : (d.setFlag (Off.plumbTbStatus n) 0 true).StepKept (d.stepped n delta) := by
  have htold := (refl (d.setFlag (Off.plumbTbStatus n) 0 true)).raise (src := 352 + n) (sev := Sev.info) (cause := Cause.timeStep)
    (a := n) (b := unsigned 64 delta) (by omega)
  refine List.foldlRecOn (motive := (d.setFlag (Off.plumbTbStatus n) 0 true).StepKept) _ _ htold.ppsAgain fun u hu k hk => ?_
  split
  · exact hu.tioStep (List.mem_range.mp hk)
  · exact hu

end Device.StepKept

namespace Device

variable {d : Device}

theorem tb_islandAt (d : Device) (i n : Nat) : (d.islandAt i).tb n = d.tb n := (rfl)

theorem tb_counted (d : Device) (o : List Occ) (n : Nat) : (d.counted o).tb n = d.tb n := (rfl)

theorem multi_counted (d : Device) (o : List Occ) : (d.counted o).multi = d.multi := (rfl)

theorem reg64_counted (d : Device) (o : List Occ) (off : Nat) : (d.counted o).reg64 off = d.reg64 off := (rfl)

/-! ### The parts of a command -/

theorem flag_stepped (d : Device) (n : Fin 8) (delta : Int) : (d.stepped n delta).flag (Off.plumbTbStatus n) 0 = true := by
  rw [(StepKept.stepped d n delta).flag (stepReg_plumbTbStatus n), flag_setFlag_self _ _ _ (by omega)]

theorem tb_stepped (d : Device) (n : Fin 8) (delta : Int) (m : Nat) : (d.stepped n delta).tb m = d.tb m :=
  (StepKept.stepped d n delta).tb m

/-- VALID is shown, and the other status bits and the bases stay. -/
theorem setValid_shows (d : Device) (n : Fin 8) :
    (d.setValid n).flag (Off.plumbTbStatus n) 3 = true ∧ (d.setValid n).flag (Off.plumbTbStatus n) 0 = d.flag (Off.plumbTbStatus n) 0 ∧
      ∀ m, (d.setValid n).tb m = d.tb m := by
  unfold setValid
  split
  · next h => exact ⟨h, rfl, fun _ => rfl⟩
  · have htold := (StepKept.refl (d.setFlag (Off.plumbTbStatus n) 3 true)).raise (src := 352 + n) (sev := Sev.info) (cause := Cause.timeValid)
      (a := n) (b := 0) (by omega)
    rw [htold.flag (stepReg_plumbTbStatus n), htold.flag (stepReg_plumbTbStatus n), flag_setFlag_self _ _ _ (by omega),
      flag_setFlag_apart (by omega) (by omega)]
    exact ⟨rfl, rfl, htold.tb⟩

/-- The base as it stands when a slew that runs has ended. -/
def unslewed (t : TimeBase) : TimeBase := if t.slewing then { t with slewLeft := 0, slewing := false } else t

theorem endSlew_base (d : Device) (n : Fin 8) :
    (d.endSlew n).tb n = unslewed (d.tb n) ∧ ∀ o, stepReg o = false → o ≠ Off.plumbTbStatus n → (d.endSlew n).reg o = d.reg o := by
  unfold endSlew unslewed
  by_cases hslew : (d.tb n).slewing = true
  · simp only [hslew, Bool.not_true, Bool.false_eq_true, if_false, if_true]
    have htold := (StepKept.refl ((d.setTb n { d.tb n with slewLeft := 0, slewing := false }).setFlag (Off.plumbTbStatus n) 1 false)).raise
      (src := 352 + n) (sev := Sev.info) (cause := Cause.slewEnd) (a := n) (b := 0) (by omega)
    exact ⟨(htold.tb n).trans (tb_setTb_self d n _), fun o ho hne => (htold.reg ho).trans (reg_setReg_other _ _ hne)⟩
  · simp [hslew]

theorem unslewed_slewing (t : TimeBase) : (unslewed t).slewing = false := by
  unfold unslewed
  split
  · rfl
  · next h => simpa using h

theorem unslewed_time (t : TimeBase) : (unslewed t).sec = t.sec ∧ (unslewed t).ns = t.ns ∧ (unslewed t).frac = t.frac := by
  unfold unslewed
  split <;> exact ⟨rfl, rfl, rfl⟩

/-- A base that counts by itself does so when its slew has ended. -/
theorem multi_endSlew (d : Device) (n : Fin 8) : (d.endSlew n).multi = d.multi :=
  flag_congr ((d.endSlew_base n).2 _ (by decide) (by decide +revert))

/-! ### SET, ADD and SLEW (R340) -/

/-- A whole number of nanoseconds added to a base moves its count by it (R339). -/
theorem count_advance (t : TimeBase) (hfrac : t.frac < 2 ^ 32) (delta : Int) :
    ((((t.advance (delta * 2 ^ 32)).sec * 1000000000 + (t.advance (delta * 2 ^ 32)).ns : Nat) : Int)) =
      (((t.sec * 1000000000 + t.ns : Nat) : Int) + delta) % (2 ^ 48 * 1000000000) := by
  simp only [TimeBase.advance, Nat.div_add_mod']
  obtain ⟨count, hcount⟩ : ∃ c, t.sec * 1000000000 + t.ns = c := ⟨_, rfl⟩
  rw [hcount]
  omega

section
variable {n : Fin 8} (hown : (n : Nat) = 0 ∨ d.multi = true)
include hown

theorem tbSet_own {s : Nat} (hns : d.fld (Off.plumbTbSetNs n) 29 0 < 1000000000) :
    ((d.tbSet s n).tb n).sec = d.reg64 (Off.plumbTbSetSecLo n) % 2 ^ 48 ∧ ((d.tbSet s n).tb n).ns = d.fld (Off.plumbTbSetNs n) 29 0 ∧
      ((d.tbSet s n).tb n).frac = 0 ∧ ((d.tbSet s n).tb n).slewing = false ∧ (d.tbSet s n).flag (Off.plumbTbStatus n) 0 = true ∧
      (d.tbSet s n).flag (Off.plumbTbStatus n) 3 = true := by
  have hown' : (n : Nat) = 0 ∨ (d.endSlew n).multi = true := by rwa [multi_endSlew]
  unfold tbSet
  extract_lets sec ns e delta
  rw [if_neg (by omega), if_pos hown']
  generalize hx : (e.setTb n { e.tb n with sec := sec, ns := ns, frac := 0 }) = x
  have hbase : x.tb n = { unslewed (d.tb n) with sec := sec, ns := ns, frac := 0 } := by
    rw [← hx, tb_setTb_self, (d.endSlew_base n).1]
  obtain ⟨hvalid, hstep, htb⟩ := setValid_shows (x.stepped n delta) n
  rw [hvalid, hstep, htb, tb_stepped, hbase, flag_stepped]
  exact ⟨rfl, rfl, rfl, unslewed_slewing _, rfl, rfl⟩

theorem tbAdd_own :
    (d.tbAdd n).tb n = (unslewed (d.tb n)).advance (signed 64 (d.reg64 (Off.plumbTbDeltaLo n)) * 2 ^ 32) ∧
      (d.tbAdd n).flag (Off.plumbTbStatus n) 0 = true := by
  have hown' : (n : Nat) = 0 ∨ (d.endSlew n).multi = true := by rwa [multi_endSlew]
  rw [tbAdd, addTb, if_pos hown', tb_stepped, flag_stepped, tb_setTb_self, (d.endSlew_base n).1]
  exact ⟨rfl, rfl⟩

theorem tbSlew_own :
    (d.tbSlew n).tb n =
        { unslewed (d.tb n) with slewLeft := signed 64 (d.reg64 (Off.plumbTbDeltaLo n)) * 2 ^ 32, slewing := true } ∧
      (d.tbSlew n).flag (Off.plumbTbStatus n) 1 = true := by
  have hown' : (n : Nat) = 0 ∨ (d.endSlew n).multi = true := by rwa [multi_endSlew]
  simp only [tbSlew]
  rw [if_pos hown', flag_setFlag_self _ _ _ (by omega), ← (d.endSlew_base n).1]
  exact ⟨tb_setTb_self .., rfl⟩

end

/-- A slew that has nothing left to add ends, and leaves its base's time as it was. -/
theorem slewDone_ended {n : Fin 8} (hslew : (d.tb n).slewing = true) (hleft : (d.tb n).slewLeft = 0) :
    ((d.slewDone n).tb n).slewing = false ∧ (d.slewDone n).flag (Off.plumbTbStatus n) 1 = false ∧
      ((d.slewDone n).tb n).ns = (d.tb n).ns := by
  obtain ⟨-, hns, -⟩ := unslewed_time (d.tb n)
  have hflag : (d.endSlew n).flag (Off.plumbTbStatus n) 1 = false := by
    unfold endSlew
    simp only [hslew, Bool.not_true, Bool.false_eq_true, if_false]
    have htold := (StepKept.refl ((d.setTb n { d.tb n with slewLeft := 0, slewing := false }).setFlag (Off.plumbTbStatus n) 1 false)).raise
      (src := 352 + n) (sev := Sev.info) (cause := Cause.slewEnd) (a := n) (b := 0) (by omega)
    rw [htold.flag (stepReg_plumbTbStatus n), flag_setFlag_self _ _ _ (by omega)]
  rw [slewDone, if_pos hleft, (d.endSlew_base n).1]
  exact ⟨unslewed_slewing _, hflag, hns⟩

end Device

theorem Device.tbCommand_set (d : Device) (s n : Nat) : d.tbCommand s n 1 = (d.tbSet s n).gatesStepped := (rfl)

theorem Device.tbCommand_add (d : Device) (s n : Nat) : d.tbCommand s n 2 = (d.tbAdd n).gatesStepped := (rfl)

theorem Device.tbCommand_slew (d : Device) (s n : Nat) : d.tbCommand s n 3 = (d.tbSlew n).gatesStepped := (rfl)

/-- Settles O5: each command by what it makes of its base; the gates that follow keep it. -/
theorem timeBaseCommands : Obligations.TimeBaseCommands := by
  refine ⟨?set, ?add, ?slew, ?done⟩
  case set =>
    intro seat base d w hmay hown hns
    obtain ⟨o, i, hwrite⟩ := Device.regWrite_plumbTbCmd (v := 1) hmay
    have hkept := (Device.StepKept.refl ((d.counted o).tbSet seat base)).gatesStepped
    refine runs_of_exec (exec_to rfl hwrite) ?_
    rw [Device.tb_islandAt, Device.flag_islandAt, Device.flag_islandAt, Device.tbCommand_set, hkept.tb, hkept.flag (stepReg_plumbTbStatus base), hkept.flag (stepReg_plumbTbStatus base)]
    rw [← d.multi_counted o] at hown
    rw [← d.fld_counted o] at hns
    rw [← d.reg64_counted o, ← d.fld_counted o]
    exact Device.tbSet_own hown hns
  case add =>
    intro seat base d w hmay hown hfrac
    obtain ⟨o, i, hwrite⟩ := Device.regWrite_plumbTbCmd (v := 2) hmay
    have hkept := (Device.StepKept.refl ((d.counted o).tbAdd base)).gatesStepped
    refine runs_of_exec (exec_to rfl hwrite) ?_
    rw [Device.tb_islandAt, Device.flag_islandAt, Device.tbCommand_add, hkept.tb, hkept.flag (stepReg_plumbTbStatus base)]
    rw [← d.multi_counted o] at hown
    obtain ⟨hbase, hstep⟩ := Device.tbAdd_own hown
    obtain ⟨hsec, hns, hfrac'⟩ := Device.unslewed_time (d.tb base)
    rw [hbase, hstep, d.tb_counted, d.reg64_counted]
    refine ⟨?_, Device.unslewed_slewing _, rfl⟩
    rw [← hsec, ← hns]
    exact Device.count_advance _ (hfrac'.trans_lt hfrac) _
  case slew =>
    intro seat base d w hmay hown
    obtain ⟨o, i, hwrite⟩ := Device.regWrite_plumbTbCmd (v := 3) hmay
    have hkept := (Device.StepKept.refl ((d.counted o).tbSlew base)).gatesStepped
    refine runs_of_exec (exec_to rfl hwrite) ?_
    rw [Device.tb_islandAt, Device.flag_islandAt, Device.tbCommand_slew, hkept.tb, hkept.flag (stepReg_plumbTbStatus base)]
    rw [← d.multi_counted o] at hown
    obtain ⟨hbase, hslew⟩ := Device.tbSlew_own hown
    obtain ⟨hsec, hns, -⟩ := Device.unslewed_time (d.tb base)
    rw [hbase, hslew, d.tb_counted, d.reg64_counted]
    exact ⟨rfl, rfl, hsec, hns, rfl⟩
  case done =>
    intro base d w hslew hleft
    exact runs_of_exec rfl (Device.slewDone_ended hslew hleft)

end Sys2Proof.Machine
end

section
set_option Elab.async false
/-! PROOFS. Writes of the code bank, of SWITCH, of a signal and of a flash operation (R371, R372, R386, R494, R496). -/

namespace Sys2Proof.Machine

def scafCodeCtlDef : RegDef :=
  ⟨"SCAF_CODE_CTL", 0x2C00010, [], 0x0, .single,
    [⟨31, 31, .wo, .live, []⟩, ⟨30, 30, .ro, .live, []⟩, ⟨29, 29, .ro, .live, []⟩, ⟨28, 28, .rw1c, .live, []⟩]⟩

def scafCodeDataHiDef : RegDef := ⟨"SCAF_CODE_DATA_HI", 0x2C00024, [], 0x0, .hi, [⟨31, 0, .wo, .live, []⟩]⟩

def scafSignalDef : RegDef := ⟨"SCAF_SIGNAL", 0x2C0003C, [], 0x0, .single, [⟨15, 0, .wo, .live, []⟩]⟩

def darbyFlashCmdDef : RegDef :=
  ⟨"DARBY_FLASH_CMD", 0x600104, [], 0x0, .single, [⟨31, 31, .ro, .live, []⟩, ⟨30, 28, .ro, .live, []⟩, ⟨1, 0, .wo, .live, []⟩]⟩

theorem regDef?_scafCodeCtl : regDef? Off.scafCodeCtl = some scafCodeCtlDef := by decide +kernel

namespace Device

variable {d : Device} {s v : Nat}

theorem regWrite_scafCodeCtl (hmay : d.mayReach s Off.scafCodeCtl = true) :
    ∃ o i, d.regWrite s Off.scafCodeCtl v = ((d.counted o).writeCodeCtl ⟨s, false⟩ v).islandAt i :=
  have hrole : roleOf Off.scafCodeCtl = .codeCtl := by decide +kernel
  by simpa only [writeRole, hrole] using regWrite_alone (v := v) hmay (by decide) regDef?_scafCodeCtl rfl

theorem regWrite_scafSignal (hmay : d.mayReach s Off.scafSignal = true) :
    ∃ o i, d.regWrite s Off.scafSignal v = ((d.counted o).raiseSignal (v % 2 ^ 16)).islandAt i :=
  have hr : regDef? Off.scafSignal = some scafSignalDef := by decide +kernel
  have hrole : roleOf Off.scafSignal = .signal := by decide +kernel
  by simpa only [writeRole, hrole] using regWrite_alone (v := v) hmay (by decide) hr rfl

theorem regWrite_darbyFlashCmd (hmay : d.mayReach s Off.darbyFlashCmd = true) :
    ∃ o i, d.regWrite s Off.darbyFlashCmd v = ((d.counted o).flashCmd s v).islandAt i :=
  have hr : regDef? Off.darbyFlashCmd = some darbyFlashCmdDef := by decide +kernel
  have hrole : roleOf Off.darbyFlashCmd = .flash := by decide +kernel
  by simpa only [writeRole, hrole] using regWrite_alone (v := v) hmay (by decide) hr rfl

/-- The high half of a code word goes to the bank with the low half that the seat wrote last. -/
theorem regWrite_scafCodeDataHi {x : Nat} (hmay : d.mayReach s Off.scafCodeDataHi = true)
    (hheld : NMap.get? (d.seat s).heldLo (Off.scafCodeDataHi - 4) = some x) :
    ∃ o i, d.regWrite s Off.scafCodeDataHi v =
      ((((d.counted o).modSeat s fun y => { y with heldLo := NMap.del y.heldLo (Off.scafCodeDataHi - 4) }).modScaf fun z =>
        { z with codeLo := x }).storeCode s v).islandAt i := by
  have hr : regDef? Off.scafCodeDataHi = some scafCodeDataHiDef := by decide +kernel
  have hrole : roleOf Off.scafCodeDataHi = .codeData := by decide +kernel
  rw [mayReach, Bool.and_eq_true] at hmay
  obtain ⟨hreach, hmay⟩ := hmay
  have hmay' : (d.occSeat 0x702 s Off.scafCodeDataHi (d.regPart Off.scafCodeDataHi)).mayWrite s Off.scafCodeDataHi = true := hmay
  have hheld' : NMap.get? ((d.occSeat 0x702 s Off.scafCodeDataHi (d.regPart Off.scafCodeDataHi)).seat s).heldLo (Off.scafCodeDataHi - 4) = some x :=
    hheld
  have hplace : isInd Off.scafCodeDataHi = false := by decide
  have hno : Off.scafCodeDataHi ≠ Off.devScratch := by decide
  have hhalf : scafCodeDataHiDef.half = .hi := rfl
  obtain ⟨i, hi⟩ := ((d.occSeat 0x702 s Off.scafCodeDataHi (d.regPart Off.scafCodeDataHi)).pairHi s Off.scafCodeDataHi v).islandTrack_eq d
  refine ⟨(d.occSeat 0x702 s Off.scafCodeDataHi (d.regPart Off.scafCodeDataHi)).perf.occ, i, Eq.trans ?_ (hi.trans ?_)⟩
  · unfold regWrite busWrite writeReg
    simp [hreach, hplace, hr, hmay', hno, hhalf]
  · simp only [pairHi, hheld', Option.getD_some, writePair, hrole]
    rfl

/-! ### Code words and banks (R371, R372) -/

theorem storeCode_stores (hdrain : d.bankDraining = false) (hover : d.scaf.idxOver = false) :
    Mem.readN 0 (d.storeCode s v).scaf.sram (0x200000 * (1 - d.bankActive) + 8 * d.fld Off.scafCodeIdx 17 0) 8 =
        bytesLE 4 d.scaf.codeLo ++ bytesLE 4 v ∧
      (d.storeCode s v).fld Off.scafCodeIdx 17 0 = (d.fld Off.scafCodeIdx 17 0 + 1) % 2 ^ 18 := by
  have hwrite : d.storeCode s v =
      (((d.setSram (0x200000 * (1 - d.bankActive) + 8 * d.fld Off.scafCodeIdx 17 0) (bytesLE 4 d.scaf.codeLo ++ bytesLE 4 v)).setFld
        Off.scafCodeIdx 17 0 (d.fld Off.scafCodeIdx 17 0 + 1)).modScaf fun s =>
          { s with idxOver := d.fld Off.scafCodeIdx 17 0 + 1 == 262144 }) := by
    rw [storeCode, if_neg (by simp [hdrain, hover])]
  rw [hwrite]
  exact ⟨Mem.readN_writeN 0 (bytesLE 4 d.scaf.codeLo ++ bytesLE 4 v) d.scaf.sram _, fld_setFld_self _ _ _ (by omega) (by omega)⟩

theorem bankActive_lt (d : Device) : d.bankActive < 2 := bits_lt ..

theorem bankActive_codeSwitched (d : Device) (sev : Nat) :
    (d.codeSwitched sev).bankActive = d.bankActive ∧ (d.codeSwitched sev).flag Off.scafCodeCtl 28 = d.flag Off.scafCodeCtl 28 := by
  have hreg : (d.codeSwitched sev).reg Off.scafCodeCtl = d.reg Off.scafCodeCtl := reg_raise (by decide) (by decide)
  exact ⟨fld_congr hreg, flag_congr hreg⟩

theorem switchCode_taken (hok : d.bankOk (1 - d.bankActive) = true) (hdrain : d.bankDraining = false) :
    (d.switchCode s).bankActive = 1 - d.bankActive := by
  have hlt := d.bankActive_lt
  rw [switchCode, if_neg (by simp [hok]), if_neg (by simp [hdrain]), (bankActive_codeSwitched _ _).1, bankActive,
    fld_setFld_self _ _ _ (by omega) (by omega)]
  exact Nat.mod_eq_of_lt (by omega)

theorem switchCode_refused (hbad : d.bankOk (1 - d.bankActive) = false) :
    (d.switchCode s).bankActive = d.bankActive ∧ (d.switchCode s).flag Off.scafCodeCtl 28 = true := by
  rw [switchCode, if_pos (by simp [hbad]), (bankActive_codeSwitched _ _).1, (bankActive_codeSwitched _ _).2, bankActive,
    flag_setFlag_self _ _ _ (by omega), setFlag, fld_setFld_apart _ _ _ (by omega) (by omega) (by omega)]
  exact ⟨rfl, rfl⟩

/-- Writing SWITCH alone changes no field of SCAF_CODE_CTL before the switch. -/
theorem writeCodeCtl_switch (d : Device) (s : Nat) :
    d.writeCodeCtl ⟨s, false⟩ (2 ^ 31) = (d.setReg Off.scafCodeCtl (d.reg Off.scafCodeCtl)).switchCode s := by
  have hnew : d.newValue ⟨s, false⟩ Off.scafCodeCtl (2 ^ 31) scafCodeCtlDef [] = (d.reg Off.scafCodeCtl, false) := by
    have hnone : bits (2 ^ 31) 28 28 = 0 := by decide
    simp only [newValue, scafCodeCtlDef, List.contains_nil, Bool.not_false, List.filter_true, List.foldl_cons, List.foldl_nil, fieldWrite,
      hnone, Nat.and_zero, Nat.sub_zero, setBits_bits]
  rw [writeCodeCtl, plainWrite_eq regDef?_scafCodeCtl rfl hnew, if_pos (by decide)]

/-- A register that takes the value it has: the registers, and what the banks are read from, stay. -/
theorem bank_setReg_same (d : Device) (off : Nat) :
    (d.setReg off (d.reg off)).bankActive = d.bankActive ∧ (∀ b, (d.setReg off (d.reg off)).bankOk b = d.bankOk b) ∧
      (d.setReg off (d.reg off)).bankDraining = d.bankDraining := by
  have hreg (o : Nat) : (d.setReg off (d.reg off)).reg o = d.reg o := by
    by_cases ho : o = off
    · rw [ho, reg_setReg_self, Nat.mod_eq_of_lt (d.reg_lt _)]
    · exact d.reg_setReg_other _ ho
  have hactive : (d.setReg off (d.reg off)).bankActive = d.bankActive := fld_congr (hreg _)
  refine ⟨hactive, fun b => ?_, ?_⟩
  · have hlen : (d.setReg off (d.reg off)).bankLen b = d.bankLen b := fld_congr (hreg _)
    unfold bankOk
    rw [hlen]
    rfl
  · unfold bankDraining
    rw [hactive]
    rfl

/-! ### Flash operations (R494, R496) -/

theorem flashCmd_starts {op a : Nat} (hbusy : d.flag Off.darbyFlashCmd 31 = false) (hop : 0 < op ∧ op < 4)
    (hfree : op < 3 → d.touchesActive (flashSpan op (d.fld Off.darbyFlashAddr 27 0)).1 (flashSpan op (d.fld Off.darbyFlashAddr 27 0)).2 = false)
    (ha : (flashSpan op (d.fld Off.darbyFlashAddr 27 0)).1 = a) :
    (d.flashCmd s op).flag Off.darbyFlashCmd 31 = true ∧ (d.flashCmd s op).pwr.flashOp = some ⟨op, a⟩ := by
  have hmod : op % 4 = op := Nat.mod_eq_of_lt hop.2
  have hstart : d.flashCmd s op = (d.setFlag Off.darbyFlashCmd 31 true).modPwr fun p => { p with flashOp := some ⟨op, a⟩ } := by
    simp only [flashCmd, hbusy, hmod, Bool.false_eq_true, if_false]
    rw [if_neg (by omega), if_neg fun h => by simp [hfree h.1] at h, ha]
  rw [hstart, flag_modPwr, flag_setFlag_self _ _ _ (by omega)]
  exact ⟨rfl, rfl⟩

/-! ### Signals (R386) -/

theorem raiseSignal_pending {n : Nat} (hwait : (d.scaf.waiters.all fun x => x.1 != n) = true) :
    (d.raiseSignal n).scaf.signals.contains n = true := by
  have hnone : (d.scaf.waiters.filter fun w => w.1 == n) = [] := by
    rw [List.all_eq_true] at hwait
    exact List.filter_eq_nil_iff.mpr fun w hw => by simpa using hwait w hw
  simp only [raiseSignal, hnone, List.isEmpty_nil, if_true]
  split
  · next h => exact h
  · simp [modScaf]

end Device

/-- Settles O6: each write by what its role does with the block. -/
theorem codeSignalsFlash : Obligations.CodeSignalsFlash := by
  refine ⟨?code, ?switch, ?switchRefused, ?signal, ?erase, ?program, ?read⟩
  case code =>
    intro seat v x d w hmay hdrain hover hheld
    obtain ⟨o, i, hwrite⟩ := Device.regWrite_scafCodeDataHi (v := v.toNat) hmay hheld
    exact runs_of_exec (exec_to rfl hwrite) (Device.storeCode_stores hdrain hover)
  case switch =>
    intro seat d w hmay hok hdrain
    obtain ⟨o, i, hwrite⟩ := Device.regWrite_scafCodeCtl (v := 2 ^ 31) hmay
    obtain ⟨hactive, hbank, hdraining⟩ := (d.counted o).bank_setReg_same Off.scafCodeCtl
    refine runs_of_exec (exec_to rfl (hwrite.trans (congrArg (Device.islandAt · i) (Device.writeCodeCtl_switch ..)))) ?_
    refine (Device.switchCode_taken ?_ (hdraining.trans hdrain)).trans (congrArg (1 - ·) hactive)
    rw [hactive, hbank]
    exact hok
  case switchRefused =>
    intro seat d w hmay hbad
    obtain ⟨o, i, hwrite⟩ := Device.regWrite_scafCodeCtl (v := 2 ^ 31) hmay
    obtain ⟨hactive, hbank, -⟩ := (d.counted o).bank_setReg_same Off.scafCodeCtl
    refine runs_of_exec (exec_to rfl (hwrite.trans (congrArg (Device.islandAt · i) (Device.writeCodeCtl_switch ..)))) ?_
    have hrefused : ((d.counted o).setReg Off.scafCodeCtl ((d.counted o).reg Off.scafCodeCtl)).bankOk
        (1 - ((d.counted o).setReg Off.scafCodeCtl ((d.counted o).reg Off.scafCodeCtl)).bankActive) = false := by
      rw [hactive, hbank]
      exact hbad
    obtain ⟨hkept, herr⟩ := Device.switchCode_refused (s := seat) hrefused
    exact ⟨hkept.trans hactive, herr⟩
  case signal =>
    intro seat v d w hmay hwait
    obtain ⟨o, i, hwrite⟩ := Device.regWrite_scafSignal (v := v.toNat) hmay
    exact runs_of_exec (exec_to rfl hwrite) (Device.raiseSignal_pending (d := d.counted o) hwait)
  case erase =>
    intro seat d w hmay hbusy hfree
    obtain ⟨o, i, hwrite⟩ := Device.regWrite_darbyFlashCmd (v := 1) hmay
    exact runs_of_exec (exec_to rfl hwrite) (Device.flashCmd_starts (d := d.counted o) hbusy (by omega) (fun _ => hfree) rfl)
  case program =>
    intro seat d w hmay hbusy hfree
    obtain ⟨o, i, hwrite⟩ := Device.regWrite_darbyFlashCmd (v := 2) hmay
    exact runs_of_exec (exec_to rfl hwrite) (Device.flashCmd_starts (d := d.counted o) hbusy (by omega) (fun _ => hfree) rfl)
  case read =>
    intro seat d w hmay hbusy
    obtain ⟨o, i, hwrite⟩ := Device.regWrite_darbyFlashCmd (v := 3) hmay
    exact runs_of_exec (exec_to rfl hwrite) (Device.flashCmd_starts (d := d.counted o) hbusy (by omega) (fun h => by omega) rfl)

end Sys2Proof.Machine
end

section
set_option Elab.async false
/-! PROOFS. A command snapshot that waits for a seat that the device has not (R398, R504): the statements speak of every device, so also of
one whose waiting snapshot names the seat whose count of lost notices has the offset of PERF_SNAP_PEND. -/

namespace Sys2Proof.Machine

/-- The seat at which SEAT_NR_LOST has the offset of PERF_SNAP_PEND. -/
def pendSeat : Nat := 0x2DFF

theorem seatNrLost_pendSeat : Off.seatNrLost pendSeat = Off.perfSnapPend := by decide

/-- The snapshot that waits for that seat, and its command, whose COMPLETION is discarded. -/
def pendSnap : SnapReq := ⟨pendSeat, 0, 0, 0⟩

def pendCmd : OutCmd := ⟨0x0E, 0, 0, 0, 0, [], []⟩

/-- A device that holds that snapshot and nothing else that is due. -/
def pendDevice : Device :=
  { Device.reset with
    seats := [(pendSeat, { Seat.reset with cr := [(0, { CmdRing.reset with out := some pendCmd, mute := true })] })]
    perf := { Device.reset.perf with waiting := [pendSnap] } }

/-- Refutes O21 at its clause on a waiting snapshot: the discarded COMPLETION of `pendSnap` counts a lost notice where PERF_SNAP_PEND
shows 0. -/
theorem not_timeBases : ¬ Obligations.TimeBases := by
  unfold Obligations.TimeBases
  rintro ⟨-, -, hsnap, -⟩
  obtain ⟨t, ht, -, hpend, -⟩ := hsnap pendSnap pendCmd pendDevice [] rfl rfl rfl rfl rfl (by decide) (by decide +kernel) (by decide +kernel)
  have hruns : Runs .timeTrigger pendDevice [] fun t => (t.fld Off.perfSnapPend 2 0 == 0) = true := ⟨t, ht, beq_iff_eq.mpr hpend⟩
  exact absurd (endsIn_of_runs hruns) (by decide +kernel)

end Sys2Proof.Machine
end

section
set_option Elab.async false
/-! PROOFS. The servo (R351, R352): what an offset makes of its base and of its state, and the frames of its port. -/

namespace Sys2Proof.Machine

/-- The registers that a change of the servo's state may write: those of an event, SERVO_STATUS, and the status of the time bases. -/
def servoReg (o : Nat) : Bool :=
  raiseReg o || o == Off.plumbServoStatus || decide (0x500100 ≤ o ∧ o < 0x500300 ∧ o % 0x40 = 4)

/-- `t` is `d` as far as the time unit, STEPPED of the bases and the registers outside `servoReg` go. -/
def Device.ServoKept (d t : Device) : Prop :=
  t.plumb = d.plumb ∧ d.regsKept t servoReg ∧ ∀ n : Fin 8, t.flag (Off.plumbTbStatus n) 0 = d.flag (Off.plumbTbStatus n) 0

theorem Device.servoBase_eq (d : Device) : ∃ n : Fin 8, d.servoBase = n := ⟨⟨d.servoBase, bits_lt ..⟩, rfl⟩

theorem plumbTbStatus_ne_servoStatus (n : Fin 8) : Off.plumbTbStatus n ≠ Off.plumbServoStatus := by decide +revert

theorem servoReg_plumbTbStatus (n : Fin 8) : servoReg (Off.plumbTbStatus n) = true := by decide +revert

theorem raiseReg_plumbTbStatus (n : Fin 8) : raiseReg (Off.plumbTbStatus n) = false := by decide +revert

namespace Device.ServoKept

variable {d t u : Device}

theorem refl (d : Device) : d.ServoKept d := ⟨rfl, fun _ _ => rfl, fun _ => rfl⟩

theorem trans (h : d.ServoKept t) (h' : t.ServoKept u) : d.ServoKept u := by
  obtain ⟨hplumb, hreg, hstep⟩ := h
  obtain ⟨hplumb', hreg', hstep'⟩ := h'
  exact ⟨hplumb'.trans hplumb, fun o ho => (hreg' o ho).trans (hreg o ho), fun n => (hstep' n).trans (hstep n)⟩

theorem raise {src sev cause a b : Nat} (h : d.ServoKept t) (hs : src < 512) : d.ServoKept (t.raise src sev cause a b) := by
  refine h.trans ⟨by rw [((Told.refl t).raise hs).1], fun o ho => reg_raise (by omega) ?_,
    fun n => flag_congr (reg_raise (by omega) (raiseReg_plumbTbStatus n))⟩
  rw [servoReg, Bool.or_assoc, Bool.or_eq_false_iff] at ho
  exact ho.1

/-- A status bit of a base other than STEPPED. -/
theorem setStatus {b : Bool} {i : Nat} (h : d.ServoKept t) (n : Fin 8) (hi : i < 32) (h0 : i ≠ 0) :
    d.ServoKept (t.setFlag (Off.plumbTbStatus n) i b) := by
  refine h.trans ⟨rfl, fun o ho => reg_setReg_other _ _ ?_, fun m => ?_⟩
  · rintro rfl
    rw [servoReg_plumbTbStatus] at ho
    exact absurd ho (by decide)
  · by_cases hmn : m = n
    · rw [hmn, flag_setFlag_apart hi h0.symm]
    · exact flag_setFlag_other _ _ _ _ fun he => hmn (Fin.ext (by unfold Off.plumbTbStatus at he; omega))

theorem setValid (h : d.ServoKept t) (n : Fin 8) : d.ServoKept (t.setValid n) := by
  unfold Device.setValid
  split
  · exact h
  · exact (h.setStatus n (by omega) (by omega)).raise (by omega)

theorem setServo (h : d.ServoKept t) (st : Nat) : d.ServoKept (t.setServo st) := by
  unfold Device.setServo
  split
  · exact h
  · extract_lets t₁ t₂ t₃
    have h₁ : d.ServoKept t₁ := by
      refine h.trans ⟨setFld_plumb .., fun o ho => reg_setFld_other _ _ _ _ ?_, fun n =>
        flag_congr (reg_setFld_other _ _ _ _ (plumbTbStatus_ne_servoStatus n))⟩
      intro he
      exact absurd (he ▸ ho) (by decide)
    have h₂ : d.ServoKept t₂ := by
      obtain ⟨n, hn⟩ := t₁.servoBase_eq
      simp only [t₂, hn]
      exact h₁.setStatus n (by omega) (by omega)
    have h₃ : d.ServoKept t₃ := h₂.raise (by omega)
    split
    · obtain ⟨n, hn⟩ := t₃.servoBase_eq
      rw [hn]
      exact h₃.setValid n
    · exact h₃

theorem gatesStepped (h : d.ServoKept t) : d.ServoKept t.gatesStepped :=
  List.foldlRecOn (motive := d.ServoKept) _ _ h fun u hu q _ => by
    obtain ⟨hreg, -, hplumb⟩ := (AdminKept.refl q.1 u).gatesMoved
    exact hu.trans ⟨hplumb, fun o _ => hreg o, fun n => flag_congr (hreg _)⟩

end Device.ServoKept

namespace Device

variable {d : Device}

/-! ### The state -/

theorem servoState_congr {t : Device} (h : t.reg Off.plumbServoStatus = d.reg Off.plumbServoStatus) : t.servoState = d.servoState :=
  fld_congr h

theorem servoState_setValid (d : Device) (n : Fin 8) : (d.setValid n).servoState = d.servoState := by
  unfold setValid
  split
  · rfl
  · refine servoState_congr ((reg_raise (by omega) (by decide)).trans (reg_setReg_other _ _ (plumbTbStatus_ne_servoStatus n).symm))

theorem servoState_setServo (d : Device) {st : Nat} (hst : st < 4) : (d.setServo st).servoState = st := by
  unfold setServo
  split
  · next h => exact h
  · extract_lets t₁ t₂ t₃
    have h₁ : t₁.servoState = st := (fld_setFld_self _ _ _ (by omega) (by omega)).trans (Nat.mod_eq_of_lt hst)
    have h₂ : t₂.servoState = st := by
      obtain ⟨n, hn⟩ := t₁.servoBase_eq
      simp only [t₂, hn]
      exact (servoState_congr (reg_setReg_other _ _ (plumbTbStatus_ne_servoStatus n).symm)).trans h₁
    have h₃ : t₃.servoState = st := (servoState_congr (reg_raise (by omega) (by decide))).trans h₂
    split
    · obtain ⟨n, hn⟩ := t₃.servoBase_eq
      rw [hn, servoState_setValid, h₃]
    · exact h₃

theorem servoState_gatesStepped (d : Device) : d.gatesStepped.servoState = d.servoState :=
  List.foldlRecOn (motive := fun t : Device => t.servoState = d.servoState) _ _ rfl fun u hu q _ => by
    obtain ⟨hreg, -, -⟩ := (AdminKept.refl q.1 u).gatesMoved
    exact (servoState_congr (hreg _)).trans hu

end Device

end Sys2Proof.Machine
end

section
set_option Elab.async false
/-! PROOFS. The servo (R351, R352): what an offset makes of its base and of its state, the frames of its port, and holdover. -/

namespace Sys2Proof.Machine

namespace Device

variable {d : Device}

/-- A pair of registers that takes a 64-bit value. -/
theorem reg64_setReg64_self (d : Device) (off v : Nat) : (d.setReg64 off v).reg64 off = v % 2 ^ 64 := by
  rw [reg64, setReg64, reg_setReg_other _ _ (show off ≠ off + 4 by omega), reg_setReg_self, reg_setReg_self, Nat.mod_mod, Nat.mod_mod,
    ← Nat.mod_mul, ← Nat.pow_add]

/-! ### Offsets -/

/-- The base once the servo has taken an offset: adjusted, or stepped. -/
def offsetTaken (d : Device) (o : Int) : Device :=
  if o.natAbs > d.fld Off.plumbServoLim 31 16 then d.addTb d.servoBase (-o) else d.servoAdjust o

/-- The offsets in a row that are small enough for LOCKED. -/
def offsetsIn (d : Device) (o : Int) : Nat := if o.natAbs ≤ d.fld Off.plumbServoLim 15 8 then (d.offsetTaken o).plumb.inLock + 1 else 0

/-- The time unit once the offset is counted. -/
def Plumb.offsetCounted (p : Plumb) (n : Nat) : Plumb :=
  { p with inLock := n, lastOffsetAt := p.transit, offsetGap := p.transit - p.lastOffsetAt }

/-- The block once the offset is shown and counted, before the state follows. -/
def offsetShown (d : Device) (o : Int) : Device :=
  ((d.offsetTaken o).setFld Off.plumbServoStatus 29 0 (unsigned 30 (clampI (-(2 ^ 29)) (2 ^ 29 - 1) o))).modPlumb fun p =>
    Plumb.offsetCounted p (d.offsetsIn o)

/-- A servo that was free, or that held over, locks on. -/
def servoAcquires (d : Device) : Device := if d.servoState = 0 ∨ d.servoState = 3 then d.setServo 1 else d

theorem servoOffset_eq (d : Device) (o : Int) :
    d.servoOffset o = if d.offsetsIn o ≥ 16 then (d.offsetShown o).servoAcquires.setServo 2 else (d.offsetShown o).servoAcquires := (rfl)

theorem servoKept_servoOffset (d : Device) (o : Int) : (d.offsetShown o).ServoKept (d.servoOffset o) := by
  have hacquires : (d.offsetShown o).ServoKept (d.offsetShown o).servoAcquires := by
    unfold servoAcquires
    split
    · exact (ServoKept.refl _).setServo 1
    · exact ServoKept.refl _
  rw [servoOffset_eq]
  split
  · exact hacquires.setServo 2
  · exact hacquires

theorem servoState_servoOffset (d : Device) (o : Int) :
    (d.servoOffset o).servoState =
      if 16 ≤ d.offsetsIn o then 2 else if (d.offsetShown o).servoState = 0 ∨ (d.offsetShown o).servoState = 3 then 1 else (d.offsetShown o).servoState := by
  rw [servoOffset_eq]
  split
  · exact servoState_setServo _ (by omega)
  · unfold servoAcquires
    split
    · exact servoState_setServo _ (by omega)
    · rfl

/-! ### A step of a base leaves the servo's count -/

/-- A pin scheduled anew leaves the rest of the time unit. -/
theorem plumb_tioStep (d : Device) (k : Nat) :
    (d.tioStep k).plumb.inLock = d.plumb.inLock ∧ (d.tioStep k).plumb.transit = d.plumb.transit := by
  unfold tioStep
  extract_lets x next skipped t
  rw [setFld_plumb]
  exact ⟨rfl, rfl⟩

/-- What a step leaves of the time unit beside the pins and the second of PPS_OUT. -/
theorem plumb_stepped (d : Device) (n : Fin 8) (delta : Int) :
    (d.stepped n delta).plumb.inLock = d.plumb.inLock ∧ (d.stepped n delta).transit = d.transit := by
  have htold := (Told.refl (d.setFlag (Off.plumbTbStatus n) 0 true)).raise (s := 352 + n) (v := Sev.info) (k := Cause.timeStep)
    (a := n) (n := unsigned 64 delta) (by omega)
  have hplumb : ((d.setFlag (Off.plumbTbStatus n) 0 true).raise (352 + n) Sev.info Cause.timeStep n (unsigned 64 delta)).plumb = d.plumb := by
    rw [htold.1]
    exact d.setFlag_plumb (Off.plumbTbStatus n) 0 true
  have hin := congrArg Plumb.inLock hplumb
  have htransit := congrArg Plumb.transit hplumb
  refine List.foldlRecOn (motive := fun t : Device => t.plumb.inLock = d.plumb.inLock ∧ t.plumb.transit = d.plumb.transit) _ _ ?_
    fun u hu k _ => ?_
  · unfold ppsAgain
    split
    · exact ⟨hin, htransit⟩
    · exact ⟨hin, htransit⟩
  · split
    · exact ⟨(u.plumb_tioStep k).1.trans hu.1, (u.plumb_tioStep k).2.trans hu.2⟩
    · exact hu

theorem plumb_offsetTaken (d : Device) (o : Int) :
    (d.offsetTaken o).plumb.inLock = d.plumb.inLock ∧ (d.offsetTaken o).transit = d.transit := by
  obtain ⟨n, hn⟩ := d.servoBase_eq
  unfold offsetTaken
  split
  · unfold addTb
    rw [hn]
    split
    · exact plumb_stepped _ n _
    · exact plumb_stepped _ n _
  · exact ⟨rfl, rfl⟩

theorem servoStatus_offsetTaken (d : Device) (o : Int) : (d.offsetTaken o).reg Off.plumbServoStatus = d.reg Off.plumbServoStatus := by
  obtain ⟨n, hn⟩ := d.servoBase_eq
  have hstep : stepReg Off.plumbServoStatus = false := by decide
  have hadj : ∀ n : Fin 8, Off.plumbServoStatus ≠ Off.plumbTbAdj n := by decide
  have hofs : ∀ n : Fin 8, Off.plumbServoStatus ≠ Off.plumbTbOfsLo n ∧ Off.plumbServoStatus ≠ Off.plumbTbOfsLo n + 4 := by decide
  unfold offsetTaken
  split
  · unfold addTb
    rw [hn]
    split
    · rw [(StepKept.stepped _ n _).reg hstep, setFlag, reg_setFld_other _ _ _ _ (plumbTbStatus_ne_servoStatus n).symm]
      rfl
    · rw [(StepKept.stepped _ n _).reg hstep, setFlag, reg_setFld_other _ _ _ _ (plumbTbStatus_ne_servoStatus n).symm, setReg64,
        reg_setReg_other _ _ (hofs n).2, reg_setReg_other _ _ (hofs n).1]
  · unfold servoAdjust setAdj
    extract_lets lim integ adj t
    have hbase : t.servoBase = n := hn
    rw [hbase, reg_setReg_other _ _ (hadj n)]
    rfl

theorem servoState_offsetShown (d : Device) (o : Int) : (d.offsetShown o).servoState = d.servoState := by
  refine (fld_setFld_apart _ _ _ (by omega) (by omega) (by omega)).trans ?_
  exact servoState_congr (d.servoStatus_offsetTaken o)

/-! ### The control law (R351) -/

/-- The integrator after an offset. -/
def servoInteg (d : Device) (o : Int) : Int := clampI (-256000000) 256000000 (d.plumb.integ + d.fld Off.plumbServoGain 15 0 * o)

/-- The rate, in 2^-32, that the law asks for. -/
def servoRate (d : Device) (o : Int) : Int :=
  (2 * clampI (-256000000) 256000000 (-((d.fld Off.plumbServoGain 31 16 : Int) * o + d.servoInteg o)) * 2 ^ 32 + 256000000000) / 512000000000

theorem clampI_bounds {lo hi : Int} (h : lo ≤ hi) (v : Int) : lo ≤ clampI lo hi v ∧ clampI lo hi v ≤ hi :=
  ⟨le_max_left _ _, max_le h (min_le_left _ _)⟩

theorem clampI_of_bounds {lo hi v : Int} (hlo : lo ≤ v) (hhi : v ≤ hi) : clampI lo hi v = v := by
  rw [clampI, min_eq_right hhi, max_eq_right hlo]

/-- The law asks for no rate beyond the limits of ADJ (R339). -/
theorem clampAdj_servoRate (d : Device) (o : Int) : clampAdj (d.servoRate o) = d.servoRate o := by
  rw [clampAdj, servoRate]
  have hbounds := clampI_bounds (lo := -256000000) (hi := 256000000) (by decide) (-((d.fld Off.plumbServoGain 31 16 : Int) * o + d.servoInteg o))
  generalize clampI (-256000000) 256000000 (-((d.fld Off.plumbServoGain 31 16 : Int) * o + d.servoInteg o)) = rate at hbounds ⊢
  exact clampI_of_bounds (by omega) (by omega)

theorem servoAdjust_eq (d : Device) (o : Int) :
    d.servoAdjust o = (d.modPlumb fun p => { p with integ := d.servoInteg o }).setReg (Off.plumbTbAdj d.servoBase) (unsigned 32 (d.servoRate o)) := by
  rw [← clampAdj_servoRate]
  rfl

/-- Within STEP_THR the law sets the rate of the base, whose time stays. -/
theorem offsetShown_adjusts {o : Int} {n : Fin 8} (hn : d.servoBase = n) (hthr : o.natAbs ≤ d.fld Off.plumbServoLim 31 16) :
    (d.offsetShown o).plumb.integ = d.servoInteg o ∧ (d.offsetShown o).reg (Off.plumbTbAdj n) = unsigned 32 (d.servoRate o) ∧
      (d.offsetShown o).tb n = d.tb n := by
  have htaken : d.offsetTaken o = (d.modPlumb fun p => { p with integ := d.servoInteg o }).setReg (Off.plumbTbAdj n) (unsigned 32 (d.servoRate o)) := by
    rw [offsetTaken, if_neg (by omega), servoAdjust_eq, hn]
  have hne : ∀ n : Fin 8, Off.plumbTbAdj n ≠ Off.plumbServoStatus := by decide
  have hrate : unsigned 32 (d.servoRate o) < 2 ^ 32 := by unfold unsigned; omega
  have hreg : (d.offsetTaken o).reg (Off.plumbTbAdj n) = unsigned 32 (d.servoRate o) := by
    rw [htaken, reg_setReg_self, Nat.mod_eq_of_lt hrate]
  have hinteg : (d.offsetTaken o).plumb.integ = d.servoInteg o := by rw [htaken]; rfl
  have htb : (d.offsetTaken o).tb n = d.tb n := by rw [htaken]; rfl
  exact ⟨hinteg, (reg_setFld_other _ _ _ _ (hne n)).trans hreg, htb⟩

/-- Beyond STEP_THR the base is stepped. -/
theorem offsetShown_steps {o : Int} {n : Fin 8} (hn : d.servoBase = n) (hthr : d.fld Off.plumbServoLim 31 16 < o.natAbs) :
    (d.offsetShown o).flag (Off.plumbTbStatus n) 0 = true ∧
      (if (n : Nat) = 0 ∨ d.multi = true then (d.offsetShown o).tb n = (d.tb n).advance (-o * 2 ^ 32)
        else (d.offsetShown o).reg64 (Off.plumbTbOfsLo n) = unsigned 64 (d.tbOfs n - o)) := by
  have htaken : d.offsetTaken o = d.addTb n (-o) := by rw [offsetTaken, if_pos hthr, hn]
  have hshown (off : Nat) (hoff : off ≠ Off.plumbServoStatus) : (d.offsetShown o).reg off = (d.addTb n (-o)).reg off := by
    rw [← htaken]
    exact reg_setFld_other _ _ _ _ hoff
  have htb : (d.offsetShown o).tb n = (d.addTb n (-o)).tb n := by
    rw [← htaken]
    rfl
  rw [flag_congr (hshown _ (plumbTbStatus_ne_servoStatus n)), htb]
  have hofs : ∀ n : Fin 8, Off.plumbTbOfsLo n ≠ Off.plumbServoStatus ∧ Off.plumbTbOfsLo n + 4 ≠ Off.plumbServoStatus ∧
      stepReg (Off.plumbTbOfsLo n) = false ∧ stepReg (Off.plumbTbOfsLo n + 4) = false ∧ Off.plumbTbOfsLo n ≠ Off.plumbTbStatus n ∧
      Off.plumbTbOfsLo n + 4 ≠ Off.plumbTbStatus n := by decide
  obtain ⟨hlo, hhi, hsteplo, hstephi, hstatlo, hstathi⟩ := hofs n
  unfold addTb
  by_cases hown : (n : Nat) = 0 ∨ d.multi = true
  · rw [if_pos hown, if_pos hown, flag_stepped, tb_stepped, tb_setTb_self]
    exact ⟨rfl, rfl⟩
  · rw [if_neg hown, if_neg hown, flag_stepped]
    refine ⟨rfl, ?_⟩
    have hsum : d.tbOfs n + -o = d.tbOfs n - o := rfl
    have hpair : unsigned 64 (d.tbOfs n - o) < 2 ^ 64 := by unfold unsigned; omega
    have hkept (off : Nat) (hoff : off = Off.plumbTbOfsLo n ∨ off = Off.plumbTbOfsLo n + 4) :
        (d.offsetShown o).reg off = (d.setReg64 (Off.plumbTbOfsLo n) (unsigned 64 (d.tbOfs n - o))).reg off := by
      have hadd : d.addTb n (-o) = (d.setReg64 (Off.plumbTbOfsLo n) (unsigned 64 (d.tbOfs n - o))).stepped n (-o) := by
        rw [addTb, if_neg hown, hsum]
      obtain rfl | rfl := hoff
      · rw [hshown _ hlo, hadd, (StepKept.stepped _ n _).reg hsteplo, setFlag, reg_setFld_other _ _ _ _ hstatlo]
      · rw [hshown _ hhi, hadd, (StepKept.stepped _ n _).reg hstephi, setFlag, reg_setFld_other _ _ _ _ hstathi]
    rw [reg64, hkept _ (.inl rfl), hkept _ (.inr rfl), ← reg64, reg64_setReg64_self, Nat.mod_eq_of_lt hpair]

/-! ### Offsets that are taken -/

/-- An offset that the servo takes: of a Sync and its Follow_Up while the servo's port is up, or of a capture not yet taken. -/
def takesOffset (d : Device) (value o : Int) : Prop :=
  (d.servoPps = false ∧ d.portUp d.servoPort = true ∧ o = value) ∨
    (d.servoPps = true ∧ (d.plumb.ppsSeen.any fun x => decide (d.plumb.lastOffsetAt < x)) = true ∧ o = d.ppsOffset)

/-- It enters the control law of the device, whose port it may have disarmed. -/
theorem takeOffset_taken {value o : Int} (hon : d.servoOn = true) (hup : d.pwr.portsDown = false) (htakes : d.takesOffset value o) :
    ∃ x, d.takeOffset value = (({ d with ports := x } : Device).servoOffset o).gatesStepped := by
  obtain ⟨hpps, hport, rfl⟩ | ⟨hpps, hseen, rfl⟩ := htakes
  · exact ⟨_, by simp [takeOffset, hon, hup, hpps, hport]; rfl⟩
  · refine ⟨d.ports, ?_⟩
    cases hx : d.plumb.ppsSeen with
    | none => simp [hx] at hseen
    | some x =>
      have hlt : d.plumb.lastOffsetAt < x := by simpa [hx] using hseen
      simp [takeOffset, hon, hup, hpps, hx, hlt]

end Device

end Sys2Proof.Machine
end

section
set_option Elab.async false
/-! PROOFS. The frames of the servo's port, holdover, and the obligation on the servo (R351, R352). -/

namespace Sys2Proof.Machine

namespace Device

variable {d : Device}

/-! ### Frames of the servo's port (R351) -/

/-- A frame of the port's own stands on its wire, and is counted with those sent. -/
theorem sendOwn_shows {p : Nat} {b : List Byte} (hsquelch : d.pwr.squelch = false) :
    ((d.sendOwn p b).port p).wire = b ∧ (d.sendOwn p b).plumb = d.plumb := by
  unfold sendOwn
  rw [if_neg (by simp [hsquelch])]
  unfold notIdle
  split
  · rw [port_modPort_self, port_modPort_self]
    exact ⟨rfl, rfl⟩
  · rw [port_modPort_self]
    exact ⟨rfl, rfl⟩

theorem pdelayReqSend_sends (hsquelch : d.pwr.squelch = false) (hon : d.servoOn = true) (hpps : d.servoPps = false)
    (hport : d.portUp d.servoPort = true) (hawake : d.txAsleep d.servoPort = false) (hdue : d.plumb.pdelaySec + 1000000000 ≤ d.transit) :
    (d.pdelayReqSend.port d.servoPort).wire = Config.ptpFrame 0 d.servoPort d.plumb.pdelaySeq ∧
      d.pdelayReqSend.plumb.pdelaySeq = (d.plumb.pdelaySeq + 1) % 65536 ∧ d.pdelayReqSend.plumb.pdelaySec = d.transit := by
  obtain ⟨hwire, hplumb⟩ := sendOwn_shows (p := d.servoPort) (b := Config.ptpFrame 0 d.servoPort d.plumb.pdelaySeq) hsquelch
  have hnot : ¬ d.transit < d.plumb.pdelaySec + 1000000000 := by omega
  have hsend : d.pdelayReqSend = (d.sendOwn d.servoPort (Config.ptpFrame 0 d.servoPort d.plumb.pdelaySeq)).modPlumb fun q =>
      { q with pdelaySeq := (q.pdelaySeq + 1) % 65536, pdelaySec := q.transit } := by
    simp [pdelayReqSend, hon, hpps, hport, hawake, hnot]
  rw [hsend]
  refine ⟨hwire, ?_, ?_⟩
  · exact congrArg (fun q : Plumb => (q.pdelaySeq + 1) % 65536) hplumb
  · exact congrArg Plumb.transit hplumb

/-- The partner's request is counted, and answered on the port it came by. -/
theorem pdelayReq_answers {p : Nat} {b : List Byte} (hsquelch : d.pwr.squelch = false) (hopen : d.rxOpen p = true)
    (hservo : d.isServoFrame p b = true) (hgood : d.rxVerdict p b false = .good) :
    ((d.pdelayReq p b).port p).wire = Config.ptpFrame 1 p (fieldBE b 44 2) ∧
      (d.pdelayReq p b).reg64 (Off.portRxFramesLo p) = (d.reg64 (Off.portRxFramesLo p) + 1) % 2 ^ 64 := by
  have hgood' : (d.disarm p).rxVerdict p b false = .good := hgood
  have hanswer : d.pdelayReq p b = ((d.disarm p).rxCounted p b).sendOwn p (Config.ptpFrame 1 p (fieldBE b 44 2)) := by
    simp [pdelayReq, hopen, hservo, macOwn_good hgood']
  have hsquelch' : ((d.disarm p).rxCounted p b).pwr.squelch = false := hsquelch
  rw [hanswer]
  refine ⟨(sendOwn_shows hsquelch').1, ?_⟩
  have hkept (off : Nat) (hoff : off < Off.portTxFramesLo p ∨ Off.portTxBytesLo p + 4 < off) := (sendOwn_kept (d := (d.disarm p).rxCounted p b)
    (b := Config.ptpFrame 1 p (fieldBE b 44 2)) hoff).1
  rw [reg64_congr (hkept _ (by unfold Off.portRxFramesLo Off.portTxFramesLo Off.portTxBytesLo; omega))
    (hkept _ (by unfold Off.portRxFramesLo Off.portTxFramesLo Off.portTxBytesLo; omega))]
  have hbytes := ((d.disarm p).bump64 (Off.portRxFramesLo p) 1).reg64_bump64_other (off := Off.portRxBytesLo p) (off' := Off.portRxFramesLo p)
    b.length (by unfold Off.portRxBytesLo Off.portRxFramesLo; omega)
  exact hbytes.trans (reg64_bump64_self ..)

/-! ### Holdover (R352) -/

theorem holdover_enters (hon : d.servoOn = true) (hlocked : d.servoState = 2) (hloss : d.servoLoss = true) :
    d.holdover.servoState = 3 ∧ d.holdover.plumb.inLock = 0 := by
  rw [holdover, if_pos (by simp [hon, hlocked, hloss])]
  exact ⟨d.servoState_setServo (by omega), rfl⟩

end Device

/-- Settles O22: an offset by its base, its count and its state, what follows on the gates leaving them. -/
theorem servo : Obligations.Servo := by
  refine ⟨?adjusts, ?steps, ?counts, ?doze, ?sends, ?answers, ?holds⟩
  case adjusts =>
    intro value o d w hon hup htakes hthr
    obtain ⟨x, hx⟩ := Device.takeOffset_taken hon hup htakes
    obtain ⟨n, hn⟩ := d.servoBase_eq
    obtain ⟨hplumb, hreg, -⟩ := (Device.servoKept_servoOffset ({ d with ports := x } : Device) o).gatesStepped
    obtain ⟨hinteg, hrate, htb⟩ := Device.offsetShown_adjusts (d := { d with ports := x }) hn hthr
    refine runs_of_exec (exec_to rfl hx) ?_
    have hadj : ∀ n : Fin 8, servoReg (Off.plumbTbAdj n) = false := by decide
    rw [hn, hreg _ (hadj n), hrate, hplumb, hinteg, Device.tb, hplumb, ← Device.tb, htb]
    exact ⟨rfl, rfl, rfl⟩
  case steps =>
    intro value o d w hon hup htakes hthr
    obtain ⟨x, hx⟩ := Device.takeOffset_taken hon hup htakes
    obtain ⟨n, hn⟩ := d.servoBase_eq
    obtain ⟨hplumb, hreg, hstepped⟩ := (Device.servoKept_servoOffset ({ d with ports := x } : Device) o).gatesStepped
    obtain ⟨hflag, hbase⟩ := Device.offsetShown_steps (d := { d with ports := x }) hn hthr
    refine runs_of_exec (exec_to rfl hx) ?_
    have hofs : ∀ n : Fin 8, servoReg (Off.plumbTbOfsLo n) = false ∧ servoReg (Off.plumbTbOfsLo n + 4) = false := by decide
    obtain ⟨hlo, hhi⟩ := hofs n
    rw [hn, hstepped, Device.reg64_congr (hreg _ hlo) (hreg _ hhi), Device.tb, hplumb, ← Device.tb]
    exact ⟨hflag, hbase⟩
  case counts =>
    intro value o n d w hon hup htakes hn
    obtain ⟨x, hx⟩ := Device.takeOffset_taken hon hup htakes
    obtain ⟨hplumb, -, -⟩ := (Device.servoKept_servoOffset ({ d with ports := x } : Device) o).gatesStepped
    obtain ⟨hin, htransit⟩ := Device.plumb_offsetTaken ({ d with ports := x } : Device) o
    have hcount : ({ d with ports := x } : Device).offsetsIn o = n := by
      rw [Device.offsetsIn, hin, hn]
      rfl
    refine runs_of_exec (exec_to rfl hx) ?_
    rw [hplumb, Device.servoState_gatesStepped, Device.servoState_servoOffset, Device.servoState_offsetShown, hcount]
    exact ⟨htransit, hcount, rfl⟩
  case doze =>
    intro value d w hdown
    exact runs_of_exec (exec_to rfl (show d.takeOffset value = d by simp [Device.takeOffset, hdown])) rfl
  case sends =>
    intro d w hsquelch hon hpps hport hawake hdue
    exact runs_of_exec rfl (Device.pdelayReqSend_sends hsquelch hon hpps hport hawake hdue)
  case answers =>
    intro port bytes d w hsquelch hopen hservo hgood
    exact runs_of_exec rfl (Device.pdelayReq_answers hsquelch hopen hservo hgood)
  case holds =>
    intro d w hon hlocked hloss
    refine runs_of_exec rfl (Device.holdover_enters hon hlocked ?_)
    unfold Device.servoLoss
    split at hloss
    · next hpps => exact (if_pos hpps).trans (decide_eq_true hloss)
    · next hpps => exact (if_neg hpps).trans (decide_eq_true hloss)

end Sys2Proof.Machine
end

section
set_option Elab.async false
/-! PROOFS. FENCE of kind 1 with no flow command in the task's command area: the task it ends gives up its frame, and with it the pause
that the frame's account held (R76, R222, R224, R389). -/

namespace Sys2Proof.Machine

/-- FENCE of kind 1. -/
def commandFence : FmtQ := { rd := 0, ra := 0, rb := 0, kind := 1, imm := 0 }

/-- The paused task at that FENCE, with OP 0 in its command area. -/
def pausedFence : Device := pausedTask (instWord ⟨0, false⟩ 0xAA commandFence.enc) framedTask false

/-- Refutes O34 at its clause on an ILLEGAL command: as in `not_threadControl`, the count of the pause frame that ends XOFF at `epcPort` stands
where the exception pc of the thread does. -/
theorem not_threadWaits : ¬ Obligations.ThreadWaits := by
  unfold Obligations.ThreadWaits
  rintro ⟨-, -, -, -, -, -, -, -, -, hillegal, -⟩
  have htook := hillegal 0 0 ⟨0, false⟩ commandFence 0 framedTask pausedFence [] (by decide +kernel) rfl (by decide +kernel)
  exact absurd (endsIn_of_runs htook) (by decide +kernel)

end Sys2Proof.Machine
end

section
set_option Elab.async false
/-! PROOFS. A POWER_REQUEST for Doze of a seat that the device has not (R398, R463): the statements speak of every device, so also of one
whose running transition was asked for by the seat of whose notice rings one has its tail at the offset of RSTORE_SELFREF. -/

namespace Sys2Proof.Machine

/-- The seat whose SEAT_NR_TAIL of ring 1 has the offset of RSTORE_SELFREF. -/
def selfrefSeat : Nat := 0x17FF

theorem seatNrTail_selfrefSeat : Off.seatNrTail selfrefSeat 1 = Off.rstoreSelfref := by decide

/-- That seat's POWER_REQUEST, and the transition from Run to Doze that it asked for. -/
def dozeCmd : OutCmd := ⟨0x10, 0, 0, 0, 0, [], []⟩

def dozeTrans : Trans := ⟨⟨2, 0, some (selfrefSeat, 0)⟩, [], 0, 0⟩

/-- A present seat with that command outstanding. -/
def dozeSeat : Seat :=
  { Seat.reset with present := true, cr := [(0, { CmdRing.reset with out := some dozeCmd })] }

/-- A device at the end of that entry to Doze: its ports are down, and the seat's completions go to its enabled notice ring 1. -/
def dozeDevice : Device :=
  let d := { Device.reset with
    seats := [(selfrefSeat, dozeSeat)]
    pwr := { Device.reset.pwr with running := some dozeTrans, portsDown := true } }
  (d.setFld (Off.seatCrCtl selfrefSeat 0) 2 0 1).setFlag (Off.seatNrCtl selfrefSeat 1) 31 true

/-- Refutes O41 at its clause on the entry to Doze: the COMPLETION of `dozeCmd` moves the tail of its notice ring on, where RSTORE_SELFREF
shows the self-refresh of both stacks. -/
theorem not_powerStates : ¬ Obligations.PowerStates := by
  unfold Obligations.PowerStates
  rintro ⟨-, hdoze, -⟩
  obtain ⟨t, ht, -, href, -⟩ := hdoze dozeTrans dozeDevice [] (by decide +kernel) rfl (by decide) (by decide +kernel) (by decide +kernel)
  have hself : t.fld Off.rstoreSelfref 1 0 = 3 := href (by decide +kernel)
  have hruns : Runs .transitionComplete dozeDevice [] fun t => (t.fld Off.rstoreSelfref 1 0 == 3) = true := ⟨t, ht, beq_iff_eq.mpr hself⟩
  exact absurd (endsIn_of_runs hruns) (by decide +kernel)

end Sys2Proof.Machine
end

section
set_option Elab.async false
/-! PROOFS. Gating a tile takes its ports down and flushes them, and the pause that a flushed frame's account held may end with it (R222,
R224, R477): the statements speak of every device, so also of one whose stale pause stands at the index whose count has the offset of
LATH_CHAN_CFG of a span on a later tile. -/

namespace Sys2Proof.Machine

/-- The index at which PORT_TX_FRAMES_LO has the offset of LATH_CHAN_CFG of channel 1 of span 0. -/
def chanPort : Nat := 0x400

theorem portTxFramesLo_chanPort : Off.portTxFramesLo chanPort = Off.lathChanCfg 0 1 := by decide

/-- The registers that are not idle. Port 8, on tile 1, is enabled and up, and so stands the status at `chanPort`; span 0, the one enabled,
has its lane on tile 3 and no channel, but the count at `chanPort` is one frame below the EN bit of channel 1; and at shed level S3 all
tiles but 1 and 3 are gated already. -/
def ungatedRegs : NMap (BitVec 32) :=
  [(Off.portCfg 8, 2 ^ 31), (Off.portStatus 8, 2 ^ 31), (Off.portStatus chanPort, 2 ^ 31 + 1), (Off.lathCtl 0, 2 ^ 31 + 24),
    (Off.lathChanCfg 0 1, 2 ^ 31 - 1), (Off.pwrGateTileLo, 2 ^ 32 - 1 - 2 ^ 1 - 2 ^ 3), (Off.pwrGateTileHi, 2 ^ 32 - 1),
    (Off.pwrShedStatus, 3 * 2 ^ 29)]

/-- The words of the other channels of span 0, without EN. -/
def idleChans (n : Nat) : NMap (BitVec 32) := (List.range n).map fun c => (Off.lathChanCfg 0 (c + 2), 1)

/-- LATH_CTL of the other spans, without EN. -/
def idleSpans : NMap (BitVec 32) := (List.range 31).map fun s => (Off.lathCtl (s + 1), 1)

/-- A device at S3 with that file and a frame of port 8 on the wire, whose account stood at its pause threshold. -/
def ungatedDevice : Device :=
  { Device.reset with
    regs := ungatedRegs ++ (idleSpans ++ idleChans 254)
    pwr := { Power.reset with phase := .started, alive := true, squelch := false }
    buf := { Device.reset.buf with
      asserted := [(chanPort, 0)], frames := [(0, leavingFrame)], nextFrame := 1, copies := [(0, leavingCopy)], nextCopy := 1 } }

/-! ### The tiles carry no quoted flow before the tick -/

theorem NMap.get?_append {α : Type} (m m' : NMap α) (a : Nat) : NMap.get? (m ++ m') a = (NMap.get? m a).or (NMap.get? m' a) := by
  induction m with
  | nil => rfl
  | cons p m ih =>
    obtain ⟨k, v⟩ := p
    rw [List.cons_append, NMap.get?, NMap.get?, ih]
    split
    · rfl
    · rfl

theorem NMap.get?_eq_none_of_keys {α : Type} {m : NMap α} {a : Nat} (h : ∀ p ∈ m, p.1 ≠ a) : NMap.get? m a = none := by
  induction m with
  | nil => rfl
  | cons p m ih =>
    rw [NMap.get?, if_neg (Ne.symm (h p List.mem_cons_self))]
    exact ih fun q hq => h q (List.mem_cons_of_mem _ hq)

theorem idleChans_get? {n c : Nat} (hc : c < n) : NMap.get? (idleChans n) (Off.lathChanCfg 0 (c + 2)) = some 1 := by
  induction n with
  | zero => exact absurd hc (Nat.not_lt_zero c)
  | succ n ih =>
    have hsucc : idleChans (n + 1) = idleChans n ++ [(Off.lathChanCfg 0 (n + 2), 1)] := by
      rw [idleChans, List.range_succ, List.map_append]
      rfl
    rw [hsucc, NMap.get?_append]
    by_cases hlt : c < n
    · rw [ih hlt]
      rfl
    · have hcn : c = n := by omega
      subst hcn
      rw [NMap.get?_eq_none_of_keys, Option.none_or, NMap.get?, if_pos rfl]
      intro p hp
      obtain ⟨k, hk, rfl⟩ := List.mem_map.mp hp
      have hk : k < c := List.mem_range.mp hk
      show Off.lathChanCfg 0 (k + 2) ≠ Off.lathChanCfg 0 (c + 2)
      unfold Off.lathChanCfg
      omega

theorem ungatedRegs_keys : ∀ p ∈ ungatedRegs, p.1 < 0x2800118 := by decide

theorem idleSpans_keys : ∀ p ∈ idleSpans, 0x2804000 ≤ p.1 := by decide

/-- The word of a channel beyond the first two has no EN. -/
theorem ungatedDevice_chan {c : Nat} (hc : c < 254) : ungatedDevice.reg (Off.lathChanCfg 0 (c + 2)) = 1 := by
  have hplace : 0x2800118 ≤ Off.lathChanCfg 0 (c + 2) ∧ Off.lathChanCfg 0 (c + 2) < 0x2804000 := by
    unfold Off.lathChanCfg
    omega
  have hget : NMap.get? ungatedDevice.regs (Off.lathChanCfg 0 (c + 2)) = some 1 := by
    show NMap.get? (ungatedRegs ++ (idleSpans ++ idleChans 254)) _ = _
    rw [NMap.get?_append, NMap.get?_append, idleChans_get? hc,
      NMap.get?_eq_none_of_keys fun p hp => Nat.ne_of_lt (Nat.lt_of_lt_of_le (ungatedRegs_keys p hp) hplace.1),
      NMap.get?_eq_none_of_keys fun p hp => Nat.ne_of_gt (Nat.lt_of_lt_of_le hplace.2 (idleSpans_keys p hp))]
    rfl
  rw [Device.reg, DMap.get, hget]
  rfl

/-- No channel of span 0 shows EN. -/
theorem ungatedDevice_chans : ((List.range 256).any fun c => ungatedDevice.flag (Off.lathChanCfg 0 c) 31) = false := by
  refine List.any_eq_false.mpr fun c hc => ?_
  have hlt : c < 256 := List.mem_range.mp hc
  match c with
  | 0 => decide +kernel
  | 1 => decide +kernel
  | c + 2 =>
    rw [Device.flag, Device.fld, ungatedDevice_chan (by omega)]
    decide

/-- The other spans are not enabled. -/
theorem ungatedDevice_spans : ((List.range 31).all fun s => !ungatedDevice.spanEn (s + 1)) = true := by decide +kernel

/-- A tile carries no quoted flow where there is no quote, the servo is off and no channel of an enabled span shows EN. -/
theorem Device.tileQuoted_eq_false {d : Device} (hquotes : d.quotes = []) (hservo : d.flag Off.plumbServoCtl 31 = false)
    (hspans : ∀ s, s < 32 → d.spanEn s = true → ((List.range 256).any fun c => d.flag (Off.lathChanCfg s c) 31) = false) (n : Nat) :
    d.tileQuoted n = false := by
  have hnone : ((List.range 32).any fun s => d.spanEn s && (d.spanLanes s).any (fun p => p / 8 == n) &&
      (List.range 256).any fun c => d.flag (Off.lathChanCfg s c) 31) = false := by
    refine List.any_eq_false.mpr fun s hs => ?_
    cases hen : d.spanEn s with
    | false => exact Bool.false_ne_true
    | true =>
      rw [hspans s (List.mem_range.mp hs) hen, Bool.and_false]
      exact Bool.false_ne_true
  unfold Device.tileQuoted
  extract_lets on
  rw [hquotes, hservo, Bool.false_and, Bool.or_false]
  exact hnone

theorem ungatedDevice_unquoted (n : Nat) : ungatedDevice.tileQuoted n = false := by
  refine Device.tileQuoted_eq_false ?_ ?_ (fun s hs hen => ?_) n
  · decide +kernel
  · decide +kernel
  · by_cases hzero : s = 0
    · rw [hzero]
      exact ungatedDevice_chans
    · obtain ⟨k, rfl⟩ := Nat.exists_eq_succ_of_ne_zero hzero
      have hoff := List.all_eq_true.mp ungatedDevice_spans k (List.mem_range.mpr (by omega))
      rw [hen] at hoff
      exact absurd hoff Bool.false_ne_true

theorem ungatedDevice_moved : ungatedDevice.tilesMoved = [1, 3] := by
  have hshed : ¬ ungatedDevice.shed < 3 := by decide +kernel
  rw [Device.tilesMoved, if_neg hshed]
  simp only [ungatedDevice_unquoted]
  decide +kernel

/-! ### The tick -/

/-- Which gates move depends on the registers and the quotes alone. -/
theorem Device.tilesMoved_congr {d t : Device} (hregs : t.regs = d.regs) (hquotes : t.quotes = d.quotes) : t.tilesMoved = d.tilesMoved := by
  unfold Device.tilesMoved Device.tileQuoted Device.shed Device.spanEn Device.spanLanes Device.spanFirst Device.spanL Device.flag Device.fld Device.reg
  rw [hregs, hquotes]

theorem Device.gateTiles_two {d : Device} {a b : Nat} (h : d.tilesMoved = [a, b]) : d.gateTiles = (d.gateTile a).gateTile b := by
  rw [Device.gateTiles, h]
  rfl

theorem endsIn_tick (d : Device) (b : Device → Bool) : endsIn .tick d b = b d.tick.gateTiles.s5Over := rfl

/-- Whether the gate of tile 3 is closed. -/
def tile3Gated (d : Device) : Bool := d.flag (gateTileOff 3) (3 % 32)

theorem ungatedDevice_tick_regs : ungatedDevice.tick.regs = ungatedDevice.regs := by decide +kernel

theorem ungatedDevice_tick_quotes : ungatedDevice.tick.quotes = ungatedDevice.quotes := by decide +kernel

theorem ungatedDevice_tick_gates : tile3Gated ((ungatedDevice.tick.gateTile 1).gateTile 3).s5Over = false := by decide +kernel

/-- The tick leaves that gate open. -/
theorem ungatedDevice_tick : endsIn .tick ungatedDevice tile3Gated = false := by
  have hmoved : ungatedDevice.tick.tilesMoved = [1, 3] := (Device.tilesMoved_congr ungatedDevice_tick_regs ungatedDevice_tick_quotes).trans ungatedDevice_moved
  rw [endsIn_tick, Device.gateTiles_two hmoved]
  exact ungatedDevice_tick_gates

/-- Refutes O42 at its clause on the tiles at a tick: gating tile 1 flushes port 8, the pause frame that follows is counted where channel 1 of
span 0 shows EN, and so tile 3, of which the clause says that its gate closes, carries a quoted flow when its turn comes. -/
theorem not_sheddingAndSupplies : ¬ Obligations.SheddingAndSupplies := by
  unfold Obligations.SheddingAndSupplies
  rintro ⟨-, -, -, hgate, -⟩
  have hmoves : 3 ∈ ungatedDevice.tilesMoved := by
    rw [ungatedDevice_moved]
    decide
  obtain ⟨t, ht, hflag⟩ := hgate 3 ungatedDevice [] (by decide +kernel) (by decide +kernel) hmoves
  have hclosed : tile3Gated t = true := hflag.trans (by rw [ungatedDevice_unquoted, Bool.not_false])
  have hruns : Runs .tick ungatedDevice [] fun t => tile3Gated t = true := ⟨t, ht, hclosed⟩
  exact Bool.false_ne_true (ungatedDevice_tick.symm.trans (endsIn_of_runs hruns))

end Sys2Proof.Machine
end

section
set_option Elab.async false
/-! PROOFS. What work on frames leaves alone: the time bases, the telemetry's state, the domains, the presence of the seats, what a span keeps
of its line, the counting, and a few registers, whatever numbers the frames and copies held name (R217 to R227, R233, R309, R321, R410). -/

namespace Sys2Proof.Machine

/-! ### The relation -/

/-- The places of a page of registers that work on frames leaves alone: the first two words, and those of LATH_APS_CTL, SCAF_NO_ENTRY,
SCAF_SHED_DROP, TELEM_SAMPLE_SKIP and LATH_FEC_UNCORR. -/
def keptPlaces : List Nat := [0, 4, 0xC, 0x200, 0x208, 0x414, 0x814]

/-- A register that work on frames may write: one below the ports', or one that stands at another place of its page. -/
def movedReg (o : Nat) : Prop := o < 0x2400000 ∨ o % 0x1000 ∉ keptPlaces

/-- The registers of a row, m apart, stand at one place modulo a divisor g of m. -/
theorem row_mod {g m : Nat} (b i : Nat) (hm : g ∣ m) : (b + m * i) % g = b % g := by
  obtain ⟨k, rfl⟩ := hm
  rw [Nat.mul_assoc, Nat.add_mul_mod_self_left]

theorem row_mod_ne {g m b r : Nat} (i : Nat) (h : g ∣ m ∧ b % g ≠ r) : (b + m * i) % g ≠ r := by
  rw [row_mod b i h.1]
  exact h.2

theorem movedReg_row {b m : Nat} (g i : Nat) (h : g ∣ 0x1000 ∧ g ∣ m ∧ b % g ∉ keptPlaces.map (· % g)) : movedReg (b + m * i) := by
  obtain ⟨hpage, hm, hplace⟩ := h
  refine .inr fun hkept => hplace ?_
  rw [← row_mod b i hm, ← Nat.mod_mod_of_dvd _ hpage]
  exact List.mem_map_of_mem hkept

theorem movedReg_row_add {b m : Nat} (g i c : Nat) (h : g ∣ 0x1000 ∧ g ∣ m ∧ (b + c) % g ∉ keptPlaces.map (· % g)) :
    movedReg (b + m * i + c) := by
  rw [Nat.add_right_comm]
  exact movedReg_row g i h

theorem not_movedReg_row {b m : Nat} (i : Nat) (h : 0x2400000 ≤ b ∧ 0x1000 ∣ m ∧ b % 0x1000 ∈ keptPlaces) : ¬movedReg (b + m * i) := by
  obtain ⟨hlow, hm, hplace⟩ := h
  rw [movedReg, row_mod b i hm, not_or, not_not]
  exact ⟨Nat.not_lt.mpr (hlow.trans (Nat.le_add_right _ _)), hplace⟩

/-- Whether a seat is present, since when it is absent, and its link. -/
def Seat.presence (x : Seat) : Bool × Nat × Nat := (x.present, x.absentSince, x.link)

/-- A span without its streams, its channels' tokens and the number of the last container delivered. -/
def Span.still (x : Span) : Span := { x with rx := [], tx := [], txLeft := [], tokens := [], last := none }

/-- The counting without the tick's occurrences. -/
def Perf.still (x : Perf) : Perf := { x with occ := [] }

/-- `t` is `d` after work on frames. With `q` the quotes stay; with `r` so do the registers that `movedReg` does not name, and
no copy is made. -/
structure Device.Worked (q r : Bool) (d t : Device) : Prop where
  telem : t.telem = d.telem
  plumb : t.plumb = d.plumb
  doms : t.fault.doms = d.fault.doms
  perf : t.perf.still = d.perf.still
  seats : ∀ s, (t.seat s).presence = (d.seat s).presence
  spans : ∀ s, (t.span s).still = (d.span s).still
  quotes : q = true → t.quotes = d.quotes
  regs : r = true → ∀ o, ¬movedReg o → t.reg o = d.reg o
  copies : r = true → ∀ c, d.copy c = none → t.copy c = none

namespace Device.Worked

variable {q r b : Bool} {d t : Device} {off p s k c f h n v i w ring : Nat} {bs : List Byte}

theorem refl (q r : Bool) (d : Device) : d.Worked q r d :=
  ⟨rfl, rfl, rfl, rfl, fun _ => rfl, fun _ => rfl, fun _ => rfl, fun _ _ _ => rfl, fun _ _ e => e⟩

theorem reg (hw : d.Worked q true t) (ho : ¬movedReg off) : t.reg off = d.reg off := hw.regs rfl off ho

/-- Changes of what the relation does not speak of. -/
theorem beside {u : Device} (hw : d.Worked q r t) (htelem : u.telem = t.telem) (hplumb : u.plumb = t.plumb)
    (hdoms : u.fault.doms = t.fault.doms) (hperf : u.perf = t.perf) (hseats : u.seats = t.seats) (hspans : u.spans = t.spans) (hquotes : u.quotes = t.quotes)
    (hregs : u.regs = t.regs) (hcopies : u.buf.copies = t.buf.copies) : d.Worked q r u where
  telem := htelem.trans hw.telem
  plumb := hplumb.trans hw.plumb
  doms := hdoms.trans hw.doms
  perf := hperf ▸ hw.perf
  seats s := by rw [Device.seat, hseats, ← Device.seat, hw.seats]
  spans s := by rw [Device.span, hspans, ← Device.span, hw.spans]
  quotes e := hquotes.trans (hw.quotes e)
  regs e o ho := by rw [Device.reg, hregs, ← Device.reg, hw.regs e o ho]
  copies e c hc := by rw [Device.copy, hcopies, ← Device.copy, hw.copies e c hc]

theorem foldl {β : Type} {xs : List β} {g : Device → β → Device} (hw : d.Worked q r t)
    (hg : ∀ u x, d.Worked q r u → d.Worked q r (g u x)) : d.Worked q r (xs.foldl g t) :=
  List.foldlRecOn (motive := d.Worked q r) _ _ hw fun u hu x _ => hg u x hu

theorem ite {a u : Device} {x : Prop} {_ : Decidable x} (ha : d.Worked q r a) (hu : d.Worked q r u) : d.Worked q r (if x then a else u) := by
  split
  · exact ha
  · exact hu

/-! ### Single updates -/

theorem setReg (hw : d.Worked q r t) (hoff : r = true → movedReg off) : d.Worked q r (t.setReg off v) where
  telem := hw.telem
  plumb := hw.plumb
  doms := hw.doms
  perf := hw.perf
  seats := hw.seats
  spans := hw.spans
  quotes := hw.quotes
  regs e o ho := by
    have hne : o ≠ off := by
      rintro rfl
      exact ho (hoff e)
    exact (t.reg_setReg_other v hne).trans (hw.regs e o ho)
  copies := hw.copies

theorem setFld {hi lo : Nat} (hw : d.Worked q r t) (hoff : r = true → movedReg off) : d.Worked q r (t.setFld off hi lo v) := hw.setReg hoff
theorem setFlag (hw : d.Worked q r t) (hoff : r = true → movedReg off) : d.Worked q r (t.setFlag off n b) := hw.setReg hoff
theorem bump (hw : d.Worked q r t) (hoff : r = true → movedReg off) : d.Worked q r (t.bump off n) := hw.setReg hoff

theorem bump64 (hw : d.Worked q r t) (hoff : r = true → movedReg off ∧ movedReg (off + 4)) : d.Worked q r (t.bump64 off n) :=
  (hw.setReg fun e => (hoff e).1).setReg fun e => (hoff e).2

theorem modSeat {g : Seat → Seat} (hw : d.Worked q r t) (hg : (g (t.seat s)).presence = (t.seat s).presence) :
    d.Worked q r (t.modSeat s g) where
  telem := hw.telem
  plumb := hw.plumb
  doms := hw.doms
  perf := hw.perf
  seats x := by
    by_cases hx : x = s
    · rw [hx, Device.seat_modSeat_self, hg, hw.seats]
    · rw [Device.seat_modSeat_other _ _ hx, hw.seats]
  spans := hw.spans
  quotes := hw.quotes
  regs := hw.regs
  copies := hw.copies

theorem modSpan {g : Span → Span} (hw : d.Worked q r t) (hg : (g (t.span s)).still = (t.span s).still) : d.Worked q r (t.modSpan s g) where
  telem := hw.telem
  plumb := hw.plumb
  doms := hw.doms
  perf := hw.perf
  seats := hw.seats
  spans x := by
    by_cases hx : x = s
    · rw [hx, Device.span_modSpan_self, hg, hw.spans]
    · rw [Device.span_modSpan_other _ _ hx, hw.spans]
  quotes := hw.quotes
  regs := hw.regs
  copies := hw.copies

theorem modNring {g : NoticeRing → NoticeRing} (hw : d.Worked q r t) : d.Worked q r (t.modNring s k g) := hw.modSeat rfl
theorem modCring {g : CmdRing → CmdRing} (hw : d.Worked q r t) : d.Worked q r (t.modCring s k g) := hw.modSeat rfl

/-- The buffer changes, but makes no copy. -/
theorem modBuf {g : Buf → Buf} (hw : d.Worked q r t) (hg : (g t.buf).copies = t.buf.copies) : d.Worked q r (t.modBuf g) :=
  hw.beside rfl rfl rfl rfl rfl rfl rfl rfl hg

theorem modFrame {g : Frame → Frame} (hw : d.Worked q r t) : d.Worked q r (t.modFrame f g) := hw.modBuf rfl
theorem setFrame {x : Frame} (hw : d.Worked q r t) : d.Worked q r (t.setFrame f x) := hw.modBuf rfl
theorem modPort {g : Port → Port} (hw : d.Worked q r t) : d.Worked q r (t.modPort p g) := hw.beside rfl rfl rfl rfl rfl rfl rfl rfl rfl
theorem modPipe {g : Pipe → Pipe} (hw : d.Worked q r t) : d.Worked q r (t.modPipe p g) := hw.beside rfl rfl rfl rfl rfl rfl rfl rfl rfl
theorem modSched {g : Sched → Sched} (hw : d.Worked q r t) : d.Worked q r (t.modSched p g) := hw.beside rfl rfl rfl rfl rfl rfl rfl rfl rfl
theorem modGroup {g : Group → Group} (hw : d.Worked q r t) : d.Worked q r (t.modGroup k g) := hw.beside rfl rfl rfl rfl rfl rfl rfl rfl rfl
theorem modFlow {g : Flow → Flow} (hw : d.Worked q r t) : d.Worked q r (t.modFlow g) := hw.beside rfl rfl rfl rfl rfl rfl rfl rfl rfl
theorem modScaf {g : Scaf → Scaf} (hw : d.Worked q r t) : d.Worked q r (t.modScaf g) := hw.beside rfl rfl rfl rfl rfl rfl rfl rfl rfl
theorem setTokens {x : Int} (hw : d.Worked q r t) : d.Worked q r (t.setTokens p c x) := hw.modSched
theorem occ {x : Occ} (hw : d.Worked q r t) : d.Worked q r (t.occ x) :=
  ⟨hw.telem, hw.plumb, hw.doms, hw.perf, hw.seats, hw.spans, hw.quotes, hw.regs, hw.copies⟩
theorem occPort {cls : Option Nat} (hw : d.Worked q r t) : d.Worked q r (t.occPort k n cls p) := hw.occ
theorem occSeat {part : Option Nat} (hw : d.Worked q r t) : d.Worked q r (t.occSeat k s n part) := hw.occ
theorem unlease (hw : d.Worked q r t) : d.Worked q r (t.unlease k i) := hw.beside rfl rfl rfl rfl rfl rfl rfl rfl rfl
theorem takeSeq (hw : d.Worked q r t) : d.Worked q r t.takeSeq.1 := hw.beside rfl rfl rfl rfl rfl rfl rfl rfl rfl
theorem setSlot {x : PendSlot} (hw : d.Worked q r t) : d.Worked q r (t.setSlot x) := hw.beside rfl rfl rfl rfl rfl rfl rfl rfl rfl
theorem free (hw : d.Worked q r t) : d.Worked q r (t.free k).1 := hw.beside rfl rfl rfl rfl rfl rfl rfl rfl rfl

theorem flowOnly {u : Device} (hw : d.Worked q r t) (hu : t.FlowOnly u) : d.Worked q r u := by
  rw [hu]
  exact hw.modFlow (g := fun _ => u.flow)

/-! ### Notices, events and completions (R410 to R413, R429 to R434) -/

theorem dropNotice (hw : d.Worked q r t) : d.Worked q r (t.dropNotice s k n) :=
  (hw.bump fun _ => movedReg_row 0x1000 s (by decide)).modNring.occSeat

theorem putEntry (hw : d.Worked q r t) (hring : k < 8) : d.Worked q r (t.putEntry s k n b v i bs) := by
  unfold Device.putEntry
  extract_lets x tail a u next
  have hu : d.Worked q r u := hw.modSeat rfl
  have hmoved (k : Fin 8) : 0x1000 ∣ 0x1000 ∧ 0x1000 ∣ 0x1000 ∧ (0x20120C + 0x20 * k.val) % 0x1000 ∉ keptPlaces.map (· % 0x1000) := by decide +revert
  exact (hu.setFld fun _ => movedReg_row_add 0x1000 s (0x20 * k) (hmoved ⟨k, hring⟩)).modNring

theorem coalesce (hw : d.Worked q r t) : d.Worked q r (t.coalesce s k) := by
  have hcount (g) : d.Worked q r (t.modNring s k g) := hw.modNring
  unfold Device.coalesce Device.sendMsix
  extract_lets x u
  split
  · refine modNring (modSeat (hcount _) ?_)
    rfl
  · exact hcount _

theorem putNotice {o : Option (List Byte)} (hw : d.Worked q r t) (hring : k < 8) : d.Worked q r (t.putNotice s k n v i bs o b).1 := by
  unfold Device.putNotice
  extract_lets need x avail t₁ t₂ t₃
  have h₁ : d.Worked q r t₁ := by
    unfold t₁
    split
    · exact hw.modNring
    · exact hw
  have h₂ : d.Worked q r t₂ := h₁.putEntry hring
  have h₃ : d.Worked q r t₃ := by
    unfold t₃
    split
    · exact h₂.putEntry hring
    · exact h₂
  split
  · exact hw.dropNotice
  · split
    · exact hw.dropNotice
    · exact h₃.occSeat.coalesce

theorem deliver {x : Event} (hw : d.Worked q r t) : d.Worked q r (t.deliver s x v k) := by
  unfold Device.deliver
  split
  · exact hw.putNotice (bits_lt _ 5 3)
  · exact hw

theorem logEntry {x : LogEntry} (hw : d.Worked q r t) : d.Worked q r (t.logEntry x) := by
  unfold Device.logEntry
  extract_lets hawk full u
  have hu : d.Worked q r u := by
    unfold u
    split
    · exact hw.bump fun _ => .inl (by decide)
    · exact hw
  exact hu.beside rfl rfl rfl rfl rfl rfl rfl rfl rfl

theorem stampEvent {x : Event} (hw : d.Worked q r t) (hx : r = true → x.src < 512) : d.Worked q r (t.stampEvent x) :=
  have h₁ : d.Worked q r _ := hw.takeSeq.setFlag fun e => .inl (by have := hx e; unfold Off.hawkSticky; omega)
  have h₂ : d.Worked q r _ := (h₁.setFlag fun _ => .inl (by decide)).ite h₁
  (h₂.logEntry.ite h₂).deliver.deliver

theorem raiseEvent {x : Event} (hw : d.Worked q r t) (hx : r = true → x.src < 512) : d.Worked q r (t.raiseEvent x) := by
  have hmerged (u : Device) (hu : d.Worked q r u) : d.Worked q r (u.bump Off.hawkMerged 1) := hu.bump fun _ => .inl (by decide)
  unfold Device.raiseEvent
  extract_lets now fresh
  have hfresh : d.Worked q r fresh := (hw.stampEvent hx).setSlot
  split
  · exact hw.stampEvent hx
  · split
    · exact hfresh
    · split
      · exact hmerged _ hw.setSlot
      · split
        · exact hmerged _ hw.setSlot
        · exact hfresh
      · exact hfresh

theorem raise {cause a : Nat} (hw : d.Worked q r t) (hs : r = true → s < 512) : d.Worked q r (t.raise s v cause a n) := hw.raiseEvent hs

theorem completeOne {op st tag : Nat} (hw : d.Worked q r t) : d.Worked q r (t.completeOne s k op st tag n bs) := by
  unfold Device.completeOne
  extract_lets t₀ t₁ mute t₂ ring
  have h₁ : d.Worked q r t₁ := by
    unfold t₁
    split
    · exact hw.unlease.setFld fun _ => .inl (by decide)
    · exact hw.unlease
  have h₂ : d.Worked q r t₂ := h₁.modCring
  have hring : ring < 8 := bits_lt _ 2 0
  split
  · exact h₂.dropNotice
  · split
    · exact h₂.modNring
    · have hput : d.Worked q r _ := h₂.takeSeq.putNotice (s := s) (n := 3) (v := t₂.takeSeq.2.1) (i := t₂.takeSeq.2.2)
        (bs := completionBody op st tag s k bs) (o := none) (b := true) hring
      simp only
      split
      · exact hput
      · exact hput.modNring

theorem complete {op st tag : Nat} (hw : d.Worked q r t) : d.Worked q r (t.complete s k op st tag n bs) := by
  refine hw.completeOne.foldl fun u _ hu => hu.foldl fun u i hu => ?_
  split
  · split
    · exact hu.completeOne
    · exact hu
  · exact hu

/-! ### Priority flow control (R224, R309) -/

theorem notIdle (hw : d.Worked q r t) : d.Worked q r (t.notIdle p) := by
  unfold Device.notIdle
  split
  · exact hw.modPort
  · exact hw

theorem sendOwn (hw : d.Worked q r t) : d.Worked q r (t.sendOwn p bs) := by
  have hframes (u : Device) (hu : d.Worked q r u) : d.Worked q r (u.bump64 (Off.portTxFramesLo p) 1) :=
    hu.bump64 fun _ => ⟨movedReg_row 0x1000 p (by decide), movedReg_row_add 0x1000 p 4 (by decide)⟩
  have hbytes (u : Device) (hu : d.Worked q r u) : d.Worked q r (u.bump64 (Off.portTxBytesLo p) bs.length) :=
    hu.bump64 fun _ => ⟨movedReg_row 0x1000 p (by decide), movedReg_row_add 0x1000 p 4 (by decide)⟩
  unfold Device.sendOwn
  split
  · exact hw
  · exact (hbytes _ (hframes _ hw)).occPort.occPort.modPort.notIdle

theorem sendPfc {time : Nat → Nat} (hw : d.Worked q r t) : d.Worked q r (t.sendPfc p n time) := by
  unfold Device.sendPfc
  extract_lets u
  have hu : d.Worked q r u := hw.sendOwn.bump fun _ => movedReg_row 0x1000 p (by decide)
  exact hu.modPort

theorem pfcFlush (hw : d.Worked q r t) : d.Worked q r (t.pfcFlush p) := by
  unfold Device.pfcFlush
  extract_lets due on
  split
  · exact hw
  · exact hw.modPort.sendPfc

theorem showPfc (hw : d.Worked q r t) : d.Worked q r (t.showPfc p) := by
  unfold Device.showPfc
  extract_lets new old t₁
  have h₁ : d.Worked q r t₁ := hw.setFld fun _ => movedReg_row 0x1000 p (by decide)
  split
  · exact hw
  · split
    · exact h₁.modPort.pfcFlush
    · exact h₁

theorem releaseOne {a : Nat × Nat} (hw : d.Worked q r t) : d.Worked q r (t.releaseOne a) := by
  unfold Device.releaseOne
  split
  · exact (hw.modBuf rfl).showPfc
  · exact hw

theorem assertOne {a : Nat × Nat} (hw : d.Worked q r t) : d.Worked q r (t.assertOne a) := by
  unfold Device.assertOne
  split
  · exact (hw.modBuf rfl).showPfc
  · exact hw

theorem pfcCheck (hw : d.Worked q r t) : d.Worked q r t.pfcCheck :=
  (hw.foldl fun _ _ hu => hu.releaseOne).foldl fun _ _ hu => hu.assertOne

theorem poolsMoved (hw : d.Worked q r t) : d.Worked q r t.poolsMoved := by
  have hpools : d.Worked q r t.settlePools := by
    unfold Device.settlePools
    exact hw.modBuf rfl
  exact hpools.pfcCheck

/-! ### The end of a copy and of a frame (R222, R233) -/

theorem sendDone {x : Frame} (hw : d.Worked q r t) : d.Worked q r (t.sendDone x) := by
  unfold Device.sendDone
  split
  · exact hw
  · split
    · exact hw
    · split
      · exact hw.complete
      · exact hw.complete
      · exact (hw.free (k := 1)).complete

theorem freeFrame (hw : d.Worked q r t) : d.Worked q r (t.freeFrame f) := by
  unfold Device.freeFrame
  split
  · exact hw
  · extract_lets t₁ t₂
    have h₂ : d.Worked q r t₂ := hw.sendDone.modBuf rfl
    exact (h₂.beside (u := { t₂ with ctxs := NMap.del t₂.ctxs f }) rfl rfl rfl rfl rfl rfl rfl rfl rfl).poolsMoved

theorem freeUnread (hw : d.Worked q r t) : d.Worked q r (t.freeUnread f) := by
  unfold Device.freeUnread
  split
  · exact hw
  · split
    · exact hw
    · split
      · exact hw.freeFrame
      · exact hw.modFrame.poolsMoved

theorem drainLeave (hw : d.Worked q r t) : d.Worked q r (t.drainLeave f p) := by
  unfold Device.drainLeave
  split
  · exact hw
  · extract_lets left
    split
    · exact hw
    · split
      · exact hw.modFrame.poolsMoved
      · exact hw.modFrame.poolsMoved

/-- A copy goes. -/
theorem without {e : NMap Ctx} {g : Buf → Buf} (hw : d.Worked q r t) (hg : (g t.buf).copies = NMap.del t.buf.copies c) :
    d.Worked q r { t.modBuf g with ectxs := e } := by
  obtain ⟨htelem, hplumb, hdoms, hperf, hseats, hspans, hquotes, hregs, hcopies⟩ := hw
  refine ⟨htelem, hplumb, hdoms, hperf, hseats, hspans, hquotes, hregs, fun he k hk => ?_⟩
  show NMap.get? (g t.buf).copies k = none
  rw [hg]
  by_cases hc : k = c
  · rw [hc, NMap.get?_del_self]
  · rw [NMap.get?_del_other _ hc]
    exact hcopies he k hk

theorem dropCopy (hw : d.Worked q r t) : d.Worked q r (t.dropCopy c) := by
  unfold Device.dropCopy
  split
  · exact hw
  · extract_lets t₁
    have h₁ : d.Worked q r { t₁ with ectxs := NMap.del t₁.ectxs c } := hw.without rfl
    exact h₁.unlease.drainLeave.freeUnread.notIdle

theorem flushPort (hw : d.Worked q r t) : d.Worked q r (t.flushPort p) := by
  unfold Device.flushPort
  extract_lets t₁ t₂
  have h₁ : d.Worked q r t₁ := hw.foldl fun u x hu => by
    obtain ⟨k, x⟩ := x
    dsimp -zeta only
    extract_lets u₁
    have hu₁ : d.Worked q r u₁ := by
      unfold u₁
      split
      · exact hu.bump fun _ => movedReg_row 0x40 _ (by decide)
      · exact hu
    exact hu₁.dropCopy
  have h₂ : d.Worked q r t₂ := by
    unfold t₂
    split
    · exact h₁.modSpan rfl
    · exact h₁
  exact h₂.modPort

theorem endWire (hw : d.Worked q r t) : d.Worked q r (t.endWire c) := by
  unfold Device.endWire
  split
  · exact hw
  · exact hw.modPort.dropCopy.pfcFlush

/-- The count of copies cut short. -/
theorem ctAbort (hw : d.Worked q r t) : d.Worked q r (t.bump (Off.bufCtAbort p) 1) :=
  hw.bump fun _ => movedReg_row 0x40 p (by decide)

theorem endSpan (hw : d.Worked q r t) : d.Worked q r (t.endSpan s c) := by
  unfold Device.endSpan
  split
  · exact hw
  · split
    · exact hw.dropCopy
    · extract_lets bytes left bad entered t₁
      have h₁ : d.Worked q r t₁ := by
        unfold t₁
        split
        · exact hw.ctAbort.occPort
        · exact hw
      exact (h₁.modSpan rfl).dropCopy

theorem abortCopy (hw : d.Worked q r t) : d.Worked q r (t.abortCopy c) := by
  unfold Device.abortCopy
  split
  · exact hw
  · split
    · exact hw.endSpan
    · exact hw.ctAbort.occPort.endWire

/-! ### A frame that ends (R217, R218, R233, R313) -/

theorem turnBad (hw : d.Worked q r t) : d.Worked q r (t.turnBad f b) := by
  unfold Device.turnBad
  extract_lets cs t₁ t₂
  have h₁ : d.Worked q r t₁ := hw.modFrame
  have h₂ : d.Worked q r t₂ := by
    unfold t₂
    split
    · split
      · exact h₁.bump fun _ => movedReg_row 0x1000 _ (by decide)
      · exact h₁
    · exact h₁
  exact h₂.foldl fun _ _ hu => hu.abortCopy

theorem idleBucket (hw : d.Worked q r t) : d.Worked q r (t.idleBucket p c) := by
  unfold Device.idleBucket
  split
  · exact hw.setTokens
  · exact hw

theorem tags (hw : d.Worked q r t) : d.Worked q r (t.tags p) := by
  rw [t.tags_eq p]
  exact hw.beside rfl rfl rfl rfl rfl rfl rfl rfl rfl

theorem hintSettle (hw : d.Worked q r t) : d.Worked q r (t.hintSettle f) := by
  unfold Device.hintSettle
  split
  · exact hw
  · refine hw.foldl fun u x hu => ?_
    obtain ⟨k, x⟩ := x
    dsimp -zeta only
    extract_lets whole real u₁ u₂
    have h₁ : d.Worked q r u₁ := by
      unfold u₁
      split
      · exact hu.setTokens.idleBucket.tags
      · exact hu
    have h₂ : d.Worked q r u₂ := h₁.bump fun _ => movedReg_row 0x40 _ (by decide)
    split
    · exact h₁
    · split
      · exact h₂.bump fun _ => movedReg_row 0x100 _ (by decide)
      · exact h₂

theorem returnCells (hw : d.Worked q r t) : d.Worked q r (t.returnCells f) := hw.modFrame.poolsMoved

theorem writeCells (hw : d.Worked q r t) : d.Worked q r (t.writeCells f) := by
  unfold Device.writeCells
  split
  · exact hw
  · split
    · exact hw
    · exact hw.setFrame

theorem addFrame {x : Frame} (hw : d.Worked q r t) : d.Worked q r (t.addFrame x) := (hw.modBuf rfl).writeCells

theorem joinEntry (hw : d.Worked q r t) : d.Worked q r (t.joinEntry f) := by
  unfold Device.joinEntry
  split
  · exact hw.modFrame.modPipe
  · exact hw

theorem update {us : List Upd} (hw : d.Worked q r t) : d.Worked q r (t.update k us) := by
  unfold Device.update Device.quietUpdate
  split
  · exact hw.flowOnly (Device.FlowOnly.refl t).addRun
  · exact hw

theorem countBytes (hw : d.Worked q r t) : d.Worked q r (t.countBytes f) := by
  unfold Device.countBytes
  split
  · exact (hw.foldl fun _ _ hu => hu.update).modFrame
  · exact hw

theorem endCheck (hw : d.Worked q r t) : d.Worked q r (t.endCheck f) := by
  have hlate (p : Nat) : d.Worked q r (t.bump (Off.pipeLenLate p) 1) := hw.bump fun _ => movedReg_row 0x1000 p (by decide)
  unfold Device.endCheck
  split
  · split
    · exact (hlate _).turnBad
    · exact hw
  · exact hw

theorem overlenCheck (hw : d.Worked q r t) : d.Worked q r (t.overlenCheck f) := by
  have hover (p : Nat) : d.Worked q r (t.bump (Off.schedQOverlen p) 1) := hw.bump fun _ => movedReg_row 0x100 p (by decide)
  unfold Device.overlenCheck
  split
  · split
    · split
      · extract_lets port
        split
        · exact (hover port).turnBad
        · exact hw
      · exact hw
    · exact hw
  · exact hw

theorem frameWhole (hw : d.Worked q r t) : d.Worked q r (t.frameWhole f) := by
  unfold Device.frameWhole
  split
  · exact hw
  · extract_lets t₁ t₂ t₃
    have h₁ : d.Worked q r t₁ := hw.modFrame
    have h₂ : d.Worked q r t₂ := h₁.countBytes.returnCells.hintSettle
    have h₃ : d.Worked q r t₃ := by
      unfold t₃
      split
      · exact h₂.endCheck.overlenCheck
      · exact h₂.overlenCheck
    split
    · exact h₃.joinEntry
    · split
      · exact h₃.freeFrame
      · exact h₃

end Device.Worked

/-- What follows the end of a copy brings no copy back. -/
theorem Device.copy_ended {u : Device} {c i f p : Nat} (hu : u.copy c = none) :
    ((((u.unlease 0 i).drainLeave f p).freeUnread f).notIdle p).copy c = none :=
  (Device.Worked.refl true true u).unlease.drainLeave.freeUnread.notIdle.copies rfl c hu

/-- A copy that ends is gone. -/
theorem Device.copy_dropCopy (d : Device) (c : Nat) : (d.dropCopy c).copy c = none := by
  unfold Device.dropCopy
  split
  · next hc => exact hc
  · refine Device.copy_ended ?_
    exact NMap.get?_del_self ..

end Sys2Proof.Machine
end

section
set_option Elab.async false
/-! PROOFS. What a telemetry message leaves alone (R508, R510, R514). -/

namespace Sys2Proof.Machine

namespace Device.Worked

variable {q : Bool} {d t : Device} {p s c f h n v k i a port pipe cls : Nat} {b write : Bool} {bs : List Byte} {master : Nat × Nat}

/-! ### A frame's way to its queues (R173, R227, R229, R273) -/

theorem asked {u : Device} (hw : d.Worked q false t) (hu : t.Asked u) : d.Worked q false u := by
  have hparts : d.Worked q false { u with regs := t.regs } := by
    rw [hu.1]
    exact hw.beside rfl rfl rfl rfl rfl rfl rfl rfl rfl
  exact ⟨hparts.telem, hparts.plumb, hparts.doms, hparts.perf, hparts.seats, hparts.spans, hparts.quotes, nofun, nofun⟩

theorem request (hw : d.Worked q false t) : d.Worked q false (t.request port master a write n) := hw.asked (Device.Asked.refl t).request

theorem releaseFrame (hw : d.Worked q false t) : d.Worked q false (t.releaseFrame f) := hw.modFrame.freeUnread

theorem occIng {x : Frame} (hw : d.Worked q false t) : d.Worked q false (t.occIng k x n) := hw.occ

theorem discardFrame (hw : d.Worked q false t) : d.Worked q false (t.discardFrame f n) := by
  unfold Device.discardFrame
  split
  · exact hw
  · exact hw.occIng.releaseFrame

theorem joinQueue {x : Copy} (hw : d.Worked q false t) : d.Worked q false (t.joinQueue x) :=
  ⟨hw.telem, hw.plumb, hw.doms, hw.perf, hw.seats, hw.spans, hw.quotes, nofun, nofun⟩

theorem channelJoin {m : Vector Word 16} (hw : d.Worked q false t) : d.Worked q false (t.channelJoin s m n a).1 := by
  have hremap : d.Worked q false (t.bump (Off.lathC7Remap s) 1) := hw.bump nofun
  have hdemote : d.Worked q false (t.bump (Off.lathChanDemote s) 1) := hw.bump nofun
  unfold Device.channelJoin
  extract_lets c cost tokens
  split
  · exact hremap
  · split
    · exact hdemote
    · dsimp only
      exact hw.modSpan rfl

theorem joinPort {quote cut : Option Nat} {spray : Option (Nat × Nat × Bool)} (hw : d.Worked q false t) :
    d.Worked q false (t.joinPort f pipe port cls quote spray cut bs) := by
  have hflush : d.Worked q false (t.bump (Off.bufFlush port) 1) := hw.bump nofun
  have hremap : d.Worked q false (t.bump (Off.schedC7Remap port) 1) := hw.bump nofun
  have hjoin (s m n a) : d.Worked q false (t.channelJoin s m n a).1 := hw.channelJoin
  unfold Device.joinPort
  split
  · exact hw
  · split
    · exact hflush
    · extract_lets hint
      split
      next u c chan dl e =>
      refine joinQueue ?_
      split at e
      · cases e
        exact hw
      · split at e
        · cases e
          exact hw
        · split at e
          · rw [← show _ = u from congrArg Prod.fst e]
            exact hjoin _ _ _ _
          · cases e
            exact hremap

theorem applyLive (hw : d.Worked q false t) : d.Worked q false (t.applyLive k) := by
  unfold Device.applyLive
  extract_lets live old m table
  split
  · exact hw
  · exact hw.modGroup

theorem resolve {x : Frame} (hw : d.Worked q false t) : d.Worked q false (t.resolve x k n).1 := by
  have hnone : d.Worked q false ((t.applyLive k).bump Off.spreadNoMember 1) := hw.applyLive.bump nofun
  unfold Device.resolve
  extract_lets t₁
  split
  · split
    · exact hnone
    · exact hw.applyLive.modGroup.occ
  · split
    · exact hnone
    · exact hw.applyLive

theorem numberTwins (hw : d.Worked q false t) : d.Worked q false (t.numberTwins f) := by
  unfold Device.numberTwins
  split
  · exact hw
  · next x _ =>
    refine modFrame (List.foldlRecOn (motive := fun acc : Device × List Edit => d.Worked q false acc.1) x.edits _ hw fun acc hacc e _ => ?_)
    split
    · exact hacc.beside rfl rfl rfl rfl rfl rfl rfl rfl rfl
    · exact hacc

theorem toRepl {x : Policed} (hw : d.Worked q false t) : d.Worked q false (t.toRepl f k pipe x) := by
  have hdrop : d.Worked q false (t.bump Off.bufReplDrop 1) := hw.bump nofun
  unfold Device.toRepl
  split
  · exact hw
  · extract_lets list
    split
    · exact hdrop.discardFrame
    · exact (hw.modBuf rfl).modFrame

theorem joinTargets {x : Policed} (hw : d.Worked q false t) : d.Worked q false (t.joinTargets f pipe x bs) := by
  unfold Device.joinTargets
  split
  · exact hw
  · next y _ =>
    extract_lets m3
    split
    · exact hw.joinPort.releaseFrame
    · have hresolve : d.Worked q false (t.resolve y (m3 % 256) (bits m3 25 16)).1 := hw.resolve
      split
      · next u e =>
        rw [e] at hresolve
        exact hresolve.discardFrame
      · next u p spray e =>
        rw [e] at hresolve
        exact hresolve.joinPort.releaseFrame
    · exact hw.toRepl

theorem forwardOwn (hw : d.Worked q false t) : d.Worked q false (t.forwardOwn f pipe bs) := by
  unfold Device.forwardOwn
  extract_lets t₁
  split
  · exact hw.numberTwins
  · exact hw.numberTwins.joinTargets

/-! ### A telemetry message (R510) -/

theorem telemLose (hw : d.Worked q false t) : d.Worked q false (t.telemLose n v) :=
  have hmsg : d.Worked q false (t.bump Off.telemDropMsg 1) := hw.bump nofun
  have hrec : d.Worked q false ((t.bump Off.telemDropMsg 1).bump Off.telemDropRec n) := hmsg.bump nofun
  hrec.raise nofun

theorem telemStage (hw : d.Worked q false t) : d.Worked q false (t.telemStage a n) := by
  have hfree : d.Worked q false (t.free 12).1 := hw.free
  unfold Device.telemStage
  split
  next u v e =>
  rw [e] at hfree
  split
  · exact hfree
  · exact hfree.request

theorem telemSend (hw : d.Worked q false t) : d.Worked q false (t.telemSend k n bs) := by
  have hmsgs (u : Device) (hu : d.Worked q false u) : d.Worked q false (u.bump Off.telemMsgs 1) :=
    hu.bump nofun
  unfold Device.telemSend
  extract_lets seq bytes t₁
  have h₁ : d.Worked q false t₁ := hw.bump64 nofun
  split
  · exact h₁.telemLose
  · extract_lets t₂ f pipe m x
    have h₂ : d.Worked q false t₂ := h₁.telemStage
    split
    · exact h₂.telemLose
    · exact (hmsgs _ h₂).addFrame.forwardOwn

end Device.Worked

end Sys2Proof.Machine
end

section
set_option Elab.async false
/-! PROOFS. A counting tick (R497 to R502): what the other counters leave to a counter, and what it counts. -/

namespace Sys2Proof.Machine

/-- The registers of counter n: PERF_SEL, its filters and its value. -/
def counterReg (n o : Nat) : Prop := 0x3001000 + 0x20 * n ≤ o ∧ o < 0x3001020 + 0x20 * n

theorem counterReg_row {b : Nat} (n : Nat) (h : 0x3001000 ≤ b ∧ b < 0x3001020) : counterReg n (b + 0x20 * n) :=
  ⟨Nat.add_le_add_right h.1 _, Nat.add_lt_add_right h.2 _⟩

/-- `t` has the counting of `d`, and the registers of counter n, but for a freeze to come. -/
structure Device.CountKept (n : Nat) (d t : Device) : Prop where
  enNow : t.perf.enNow = d.perf.enNow
  frozen : t.perf.frozen = d.perf.frozen
  written : t.perf.written = d.perf.written
  snapNext : t.perf.snapNext = d.perf.snapNext
  regs : ∀ o, counterReg n o → t.reg o = d.reg o

namespace Device.CountKept

variable {n m off v src sev cause a b : Nat} {d t : Device} {c : Bool} {occ : List Occ}

theorem refl (n : Nat) (d : Device) : d.CountKept n d := ⟨rfl, rfl, rfl, rfl, fun _ _ => rfl⟩

theorem setReg (h : d.CountKept n t) (hoff : ¬counterReg n off) : d.CountKept n (t.setReg off v) :=
  ⟨h.enNow, h.frozen, h.written, h.snapNext, fun o ho => by
    have hne : o ≠ off := by
      rintro rfl
      exact hoff ho
    exact (t.reg_setReg_other v hne).trans (h.regs o ho)⟩

theorem setFlag (h : d.CountKept n t) (hoff : ¬counterReg n off) : d.CountKept n (t.setFlag off v c) := h.setReg hoff

theorem raise (h : d.CountKept n t) (hs : src < 512) : d.CountKept n (t.raise src sev cause a b) := by
  have hperf : (t.raise src sev cause a b).perf.still = t.perf.still := ((Device.Worked.refl false false t).raise nofun).perf
  refine ⟨(congrArg Perf.enNow hperf).trans h.enNow, (congrArg Perf.frozen hperf).trans h.frozen,
    (congrArg Perf.written hperf).trans h.written, (congrArg Perf.snapNext hperf).trans h.snapNext, fun o ho => ?_⟩
  exact (Device.reg_raise (by omega) (raiseReg_eq_false (by unfold counterReg at ho; omega))).trans (h.regs o ho)

/-- A freeze to come. -/
theorem freezes {x : Option Bool} (h : d.CountKept n t) : d.CountKept n { t with perf := { t.perf with freezeNext := x } } :=
  ⟨h.enNow, h.frozen, h.written, h.snapNext, h.regs⟩

theorem perfWrap (h : d.CountKept n t) (hm : m < 256) : d.CountKept n (t.perfWrap m) := by
  unfold Device.perfWrap
  extract_lets t₁ t₂
  have h₁ : d.CountKept n t₁ := h.setFlag (by unfold counterReg Off.perfOvf; omega)
  have h₂ : d.CountKept n t₂ := by
    unfold t₂
    split
    · exact h₁.raise (by omega)
    · exact h₁
  split
  · have hctl : ¬counterReg n Off.perfCtl := by unfold counterReg Off.perfCtl; omega
    exact (h₂.setFlag hctl).freezes
  · exact h₂

/-- Another counter's part of the tick. -/
theorem perfCount (h : d.CountKept n t) (hm : m < 256) (hne : m ≠ n) : d.CountKept n (t.perfCount occ m c).1 := by
  have hcnt (v : Nat) : d.CountKept n (t.setReg64 (Off.perfCntLo m) v) :=
    (h.setReg (by unfold counterReg Off.perfCntLo; omega)).setReg (by unfold counterReg Off.perfCntLo; omega)
  unfold Device.perfCount
  extract_lets base on inc total t'
  split
  · exact (hcnt _).perfWrap hm
  · exact hcnt _

/-! ### What the registers of a counter say -/

theorem fld {off hi lo : Nat} (h : d.CountKept n t) (hoff : counterReg n off) : t.fld off hi lo = d.fld off hi lo :=
  Device.fld_congr (h.regs off hoff)

theorem perfEvent (h : d.CountKept n t) : t.perfEvent n = d.perfEvent n := h.fld (counterReg_row n (by decide))

theorem perfChain (h : d.CountKept n t) : t.perfChain n = d.perfChain n := by
  have hsel : t.flag (Off.perfSel n) 30 = d.flag (Off.perfSel n) 30 := Device.flag_congr (h.regs _ (counterReg_row n (by decide)))
  rw [Device.perfChain, hsel, ← Device.perfChain]

theorem perfValue (h : d.CountKept n t) : t.perfValue n = d.perfValue n := by
  have hlo : t.reg64 (Off.perfCntLo n) = d.reg64 (Off.perfCntLo n) :=
    Device.reg64_congr (h.regs _ (counterReg_row n (by decide))) (h.regs _ (by unfold counterReg Off.perfCntLo; omega))
  rw [Device.perfValue, hlo, ← Device.perfValue]

theorem perfPass (h : d.CountKept n t) (o : Occ) : t.perfPass n o = d.perfPass n o := by
  have hfilt : t.reg (Off.perfFilt n) = d.reg (Off.perfFilt n) := h.regs _ (counterReg_row n (by decide))
  have hpart : t.reg (Off.perfPart n) = d.reg (Off.perfPart n) := h.regs _ (counterReg_row n (by decide))
  have hlo : t.reg (Off.perfRangeLo n) = d.reg (Off.perfRangeLo n) := h.regs _ (counterReg_row n (by decide))
  have hhi : t.reg (Off.perfRangeHi n) = d.reg (Off.perfRangeHi n) := h.regs _ (counterReg_row n (by decide))
  simp only [Device.perfPass, hfilt, hpart, hlo, hhi]

theorem perfInc (h : d.CountKept n t) (occ : List Occ) : t.perfInc n occ = d.perfInc n occ := by
  simp only [Device.perfInc, h.perfEvent, h.perfPass]

/-- The counter's own part of the tick: what it counts, and that the counting goes on as it was. -/
theorem perfCount_self (h : d.CountKept n t) (hn : n < 256) (hchain : NMap.getD d.perf.enNow n false = true → d.perfChain n = false) :
    (t.perfCount occ n c).1.perfValue n = (NMap.getD d.perf.written n (d.perfValue n) +
      if NMap.getD d.perf.enNow n false && !d.perf.frozen then d.perfInc n occ else 0) % 2 ^ 48 := by
  have hshown (v : Nat) : (t.setReg64 (Off.perfCntLo n) (v % 2 ^ 48)).perfValue n = v % 2 ^ 48 := by
    rw [Device.perfValue, reg64_setReg64_self, Nat.mod_mod_of_dvd _ (by decide : 2 ^ 48 ∣ 2 ^ 64), Nat.mod_mod]
  have hend (v : Nat) : (if v ≥ 2 ^ 48 then ((t.setReg64 (Off.perfCntLo n) (v % 2 ^ 48)).perfWrap n, true)
      else (t.setReg64 (Off.perfCntLo n) (v % 2 ^ 48), false)).1.perfValue n = v % 2 ^ 48 := by
    split
    · exact ((refl n _).perfWrap hn).perfValue.trans (hshown v)
    · exact hshown v
  unfold Device.perfCount
  simp only [h.enNow, h.frozen, h.written, h.perfValue, h.perfInc, h.perfChain]
  by_cases hon : (NMap.getD d.perf.enNow n false && !d.perf.frozen) = true
  · simp only [hon, hchain (Bool.and_eq_true_iff.mp hon).1, Bool.not_true, Bool.false_eq_true, if_false, if_true]
    exact hend _
  · simp only [Bool.not_eq_true] at hon
    simp only [hon, Bool.not_false, Bool.false_eq_true, if_false, if_true]
    exact hend _

end Device.CountKept

/-! ### The whole tick -/

/-- One counter's part, with the counter that wrapped before it. -/
def countStep (occ : List Occ) (x : Device × Option Nat) (n : Nat) : Device × Option Nat :=
  let (d', wrapped) := x.1.perfCount occ n (n != 0 && x.2 == some (n - 1))
  (d', if wrapped then some n else none)

theorem countStep_eq (occ : List Occ) (x : Device × Option Nat) (n : Nat) :
    (countStep occ x n).1 = (x.1.perfCount occ n (n != 0 && x.2 == some (n - 1))).1 := rfl

/-- The counters that a tick looks at. -/
def Device.countList (d : Device) : List Nat := (List.range 256).filter fun n => NMap.getD d.perf.enNow n false || NMap.has d.perf.written n

/-- The state after all counters' parts. -/
def Device.counts (d : Device) : Device := (d.countList.foldl (countStep (d.perf.occ ++ d.nsOccs)) (d, none)).1

variable {d : Device} {n : Nat}

theorem Device.CountKept.counts {occ : List Occ} {l : List Nat} {x : Device × Option Nat} (h : d.CountKept n x.1)
    (hl : ∀ m ∈ l, m < 256 ∧ m ≠ n) : d.CountKept n (l.foldl (countStep occ) x).1 :=
  List.foldlRecOn (motive := fun y : Device × Option Nat => d.CountKept n y.1) _ _ h fun _ hy m hm =>
    hy.perfCount (hl m hm).1 (hl m hm).2

/-- A counter that the tick looks at counts once. -/
theorem Device.counts_perfValue (hn : n ∈ d.countList) (hchain : NMap.getD d.perf.enNow n false = true → d.perfChain n = false) :
    d.counts.perfValue n = (NMap.getD d.perf.written n (d.perfValue n) +
      if NMap.getD d.perf.enNow n false && !d.perf.frozen then d.perfInc n (d.perf.occ ++ d.nsOccs) else 0) % 2 ^ 48 := by
  obtain ⟨before, after, hlist⟩ := List.append_of_mem hn
  have hnodup : d.countList.Nodup := List.nodup_range.filter _
  have hlt (m : Nat) (hm : m ∈ d.countList) : m < 256 := List.mem_range.mp (List.mem_of_mem_filter hm)
  rw [hlist] at hnodup hlt
  obtain ⟨-, hafter, hapart⟩ := List.nodup_append.mp hnodup
  have hbefore : d.CountKept n (before.foldl (countStep (d.perf.occ ++ d.nsOccs)) (d, none)).1 :=
    Device.CountKept.counts (.refl n d) fun m hm => ⟨hlt m (by simp [hm]), fun he => hapart m hm n (by simp) he⟩
  rw [Device.counts, hlist, List.foldl_append, List.foldl_cons,
    (Device.CountKept.counts (.refl n _) fun m hm => ⟨hlt m (by simp [hm]), fun he => (List.nodup_cons.mp hafter).1 (he ▸ hm)⟩).perfValue,
    countStep_eq]
  exact hbefore.perfCount_self (hlt n (by simp)) hchain

/-- The tick's end: freezes and enables take effect. -/
def Device.tickEnds (d : Device) : Device :=
  let en := (List.range 256).filterMap fun n =>
    if NMap.has d.regs (Off.perfSel n) && d.flag (Off.perfSel n) 31 then some (n, true) else none
  { d with perf := { d.perf with
    occ := [], written := [], enNow := en, frozen := d.perf.freezeNext.getD d.perf.frozen, freezeNext := none } }

/-- A tick without a snapshot. -/
theorem Device.counterTick_eq (hsnap : d.perf.snapNext = false) : d.counterTick = d.counts.tickEnds := by
  have hkept : d.counts.perf.snapNext = d.perf.snapNext :=
    (Device.CountKept.counts (.refl 256 d) fun m hm =>
      have hlt : m < 256 := List.mem_range.mp (List.mem_of_mem_filter hm)
      ⟨hlt, Nat.ne_of_lt hlt⟩).snapNext
  exact if_neg (by rw [Bool.not_eq_true]; exact hkept.trans hsnap)

/-- An enabled counter that nothing was written to. -/
theorem Device.counts_enabled (hn : n < 256) (hen : NMap.getD d.perf.enNow n false = true) (hfrozen : d.perf.frozen = false)
    (hwritten : NMap.get? d.perf.written n = none) (hchain : d.perfChain n = false) :
    d.counts.perfValue n = (d.perfValue n + d.perfInc n (d.perf.occ ++ d.nsOccs)) % 2 ^ 48 := by
  have hmem : n ∈ d.countList := List.mem_filter.mpr ⟨List.mem_range.mpr hn, by rw [hen, Bool.true_or]⟩
  rw [Device.counts_perfValue hmem fun _ => hchain, NMap.getD, hwritten, hen, hfrozen]
  rfl

/-- A disabled counter takes a written value. -/
theorem Device.counts_written {v : Nat} (hn : n < 256) (hen : NMap.getD d.perf.enNow n false = false)
    (hwritten : NMap.get? d.perf.written n = some v) : d.counts.perfValue n = v % 2 ^ 48 := by
  have hmem : n ∈ d.countList := List.mem_filter.mpr ⟨List.mem_range.mpr hn, by rw [NMap.has, hwritten, Option.isSome_some, Bool.or_true]⟩
  rw [Device.counts_perfValue hmem fun he => absurd (hen.symm.trans he) (by decide), NMap.getD, hwritten, hen]
  rfl

end Sys2Proof.Machine
end

section
set_option Elab.async false
/-! PROOFS. The export engine: messages, walks, and what is exported (R508 to R514). -/

namespace Sys2Proof.Machine

variable {d t : Device} {n s tid : Nat} {bs rec_ : List Byte}

/-! ### Messages (R510) -/

/-- `t` has the telemetry's state of `d` but for the open messages, its quotes and its time bases. -/
structure Device.Exported (d t : Device) : Prop where
  telem : t.telem = { d.telem with open_ := t.telem.open_ }
  quotes : t.quotes = d.quotes
  plumb : t.plumb = d.plumb

namespace Device.Exported

theorem refl (d : Device) : d.Exported d := ⟨rfl, rfl, rfl⟩

theorem worked {u : Device} (h : d.Exported t) (hu : t.Worked true false u) : d.Exported u :=
  ⟨by rw [hu.telem]; exact h.telem, (hu.quotes rfl).trans h.quotes, hu.plumb.trans h.plumb⟩

/-- A change of the open messages. -/
theorem opens {f : Telem → Telem} (h : d.Exported t) (hf : ∃ m, f t.telem = { t.telem with open_ := m }) : d.Exported (t.modTelem f) := by
  obtain ⟨m, hm⟩ := hf
  refine ⟨?_, h.quotes, h.plumb⟩
  rw [Device.modTelem_telem, hm, h.telem]

theorem telemClose (h : d.Exported t) : d.Exported (t.telemClose tid) := by
  unfold Device.telemClose
  split
  · exact h
  · exact (h.opens ⟨_, rfl⟩).worked (Device.Worked.refl _ _ _).telemSend

theorem telemAdd (h : d.Exported t) : d.Exported (t.telemAdd tid rec_) := by
  unfold Device.telemAdd
  extract_lets limit size t₁ o
  have h₁ : d.Exported t₁ := by
    unfold t₁
    split
    · exact h.telemClose
    · exact h
  exact h₁.opens ⟨_, rfl⟩

end Device.Exported

/-- A record is the last of its template's open message. -/
theorem Device.telemAdd_last (d : Device) (tid : Nat) (rec_ : List Byte) :
    (NMap.get? (d.telemAdd tid rec_).telem.open_ tid).bind (fun o => o.records.getLast?) = some rec_ := by
  unfold Device.telemAdd
  extract_lets limit size t₁ o
  rw [Device.modTelem_telem, NMap.get?_set_self, Option.bind_some, List.getLast?_concat]

/-- A message that is closed is open no more. -/
theorem Device.telemClose_closed (d : Device) (tid : Nat) : NMap.get? (d.telemClose tid).telem.open_ tid = none := by
  unfold Device.telemClose
  split
  · next ho => exact ho
  · rw [((Device.Worked.refl true false _).telemSend).telem, Device.modTelem_telem, NMap.get?_del_self]

/-! ### Quotes (R512) -/

/-- A quote whose measurements have started anew. -/
def Quote.anew (q : Quote) : Quote := { q with xSlack := none, xResidence := 0 }

def Device.startAnew (d : Device) (k : Nat) : Device := { d with quotes := NMap.modify d.quotes k Quote.anew }

theorem Device.startAnew_quotes (d : Device) (k : Nat) : (d.startAnew k).quotes = NMap.modify d.quotes k Quote.anew := rfl

/-- One quote's record and the start of its measurements. -/
def quoteStep (d : Device) (p : Nat × Quote) : Device := (d.telemAdd 257 (d.quoteRecord p.1 p.2)).startAnew p.1

theorem quotes_quoteStep (d : Device) (p : Nat × Quote) : (quoteStep d p).quotes = NMap.modify d.quotes p.1 Quote.anew := by
  rw [quoteStep, Device.startAnew_quotes, ((Device.Exported.refl d).telemAdd).quotes]

theorem quote_quoteStep (d : Device) (p : Nat × Quote) (k : Nat) :
    (quoteStep d p).quote k = if k = p.1 then (d.quote k).map Quote.anew else d.quote k := by
  rw [Device.quote, Device.quote, quotes_quoteStep]
  split
  · next hk => rw [hk, NMap.get?_modify_self]
  · next hk => rw [NMap.get?_modify_other _ _ hk]

/-- After the quotes of a list, one whose id stands in it has started anew. -/
theorem quote_quoteSteps (l : List (Nat × Quote)) (d : Device) (k : Nat) (q : Quote) (hq : d.quote k = some q) :
    (l.foldl quoteStep d).quote k = some (if k ∈ l.map (·.1) then q.anew else q) := by
  induction l generalizing d q with
  | nil => exact hq
  | cons p l ih =>
    rw [List.foldl_cons]
    by_cases hk : k = p.1
    · rw [ih _ q.anew (by rw [quote_quoteStep, if_pos hk, hq]; rfl), if_pos (show k ∈ (p :: l).map (·.1) by simp [hk])]
      split <;> rfl
    · rw [ih _ q (by rw [quote_quoteStep, if_neg hk, hq])]
      simp only [List.map_cons, List.mem_cons, hk, false_or]

theorem Device.quoteExport_anew {k : Nat} {q : Quote} (hdue : d.telemDue 16 Off.telemQuote = true) (hshed : d.shed = 0)
    (hq : d.quote k = some q) (hactive : q.active = true) : d.quoteExport.quote k = some q.anew := by
  have hsteps : d.quoteExport = (d.quotes.filter fun p => p.2.active).foldl quoteStep (d.telemTake 16) := by
    unfold Device.quoteExport
    rw [hdue, Bool.not_true, if_neg (by decide)]
    exact if_neg (by rw [show (d.telemTake 16).shed = d.shed from rfl, hshed]; decide)
  have hmem : k ∈ (d.quotes.filter fun p => p.2.active).map (·.1) :=
    List.mem_map.mpr ⟨(k, q), List.mem_filter.mpr ⟨NMap.mem_of_get? hq, hactive⟩, rfl⟩
  rw [hsteps, quote_quoteSteps _ (d.telemTake 16) k q hq, if_pos hmem]

/-! ### Walks (R511) -/

/-- The record of a copy does not depend on what the store is asked for. -/
theorem Device.flowRecord_congr {h mask : Nat} {b : List Byte} (hplumb : t.plumb = d.plumb)
    (hepoch : t.reg64 Off.telemEpochLo = d.reg64 Off.telemEpochLo) : t.flowRecord h mask b = d.flowRecord h mask b := by
  have htb (n : Nat) : t.tb n = d.tb n := by rw [Device.tb, hplumb, ← Device.tb]
  have hnow : t.tbNow 0 = d.tbNow 0 := by rw [Device.tbNow, Device.tbNow, if_pos (.inl rfl), if_pos (.inl rfl), htb]
  have htransit : t.transit = d.transit := by rw [Device.transit, hplumb, ← Device.transit]
  unfold Device.flowRecord Device.ntpTime Device.seenAt Device.telemEpoch Device.ageTick Device.tbCount
  rw [hnow, htransit, hepoch]

/-- What a walk reads when a record is left. -/
theorem Device.walkRead_reads {wk : Walk} {h : Nat} {b : List Byte} (hon : d.telemOn = true) (hwalk : NMap.get? d.telem.walks s = some wk)
    (hnext : d.walkNext s wk = some (h, b)) (hdoze : d.pwrState ≠ 2) :
    NMap.get? (d.walkRead s).telem.walks s = some ⟨h + 1, wk.mask, wk.seen ++ [(recId b).key]⟩ ∧
      (NMap.get? (d.walkRead s).telem.open_ 256).bind (fun o => o.records.getLast?) = some (d.flowRecord h wk.mask b) := by
  unfold Device.walkRead
  simp only [hon, hwalk, hnext, if_neg hdoze]
  generalize hu : (if (d.skimAt h).isSome then d else d.request 4 (11, 0) (128 * h) false 4) = u
  have hasked : d.Asked u := by
    rw [← hu]
    split
    · exact Device.Asked.refl d
    · exact (Device.Asked.refl d).request
  have hrec : (u.modTelem fun t => { t with
      walks := NMap.set t.walks s ⟨h + 1, wk.mask, wk.seen ++ [(recId b).key]⟩ }).flowRecord h wk.mask b = d.flowRecord h wk.mask b := by
    refine Device.flowRecord_congr (by rw [Device.modTelem_plumb, hasked.1]) ?_
    exact Device.reg64_congr (hasked.2.2 _ rfl) (hasked.2.2 _ rfl)
  refine ⟨?_, by rw [Device.telemAdd_last, hrec]⟩
  rw [((Device.Exported.refl _).telemAdd).telem]
  exact NMap.get?_set_self ..

/-- A walk that is due where export is not shed. -/
theorem Device.exportWalk_due (hdue : d.telemDue s (Off.telemFspaceCtl s) = true) (hshed : d.shed = 0) :
    d.exportWalk s = if NMap.has d.telem.walks s then (d.telemTake s).bump Off.telemWalkLate 1 else (d.telemTake s).modTelem fun t => { t with
      walks := NMap.set t.walks s ⟨0, d.reg (Off.telemFspaceMaskLo s) + 2 ^ 32 * d.fld (Off.telemFspaceMaskHi s) 15 0, []⟩ } := by
  unfold Device.exportWalk
  rw [hdue, Bool.not_true, if_neg (by decide)]
  exact if_neg (by rw [show (d.telemTake s).shed = d.shed from rfl, hshed]; decide)

/-! ### Counters and samples (R512, R513) -/

theorem Device.Exported.foldl {β : Type} {xs : List β} {g : Device → β → Device} (h : d.Exported t)
    (hg : ∀ u x, d.Exported u → d.Exported (g u x)) : d.Exported (xs.foldl g t) :=
  List.foldlRecOn (motive := d.Exported) _ _ h fun u hu x _ => hg u x hu

/-- A counter export leaves of the telemetry's state what a taken turn does. -/
theorem Device.counterExport_exported (hdue : d.telemDue 17 Off.telemCounter = true) (hshed : d.shed = 0) :
    (d.telemTake 17).Exported d.counterExport := by
  unfold Device.counterExport
  extract_lets t t'
  rw [hdue, Bool.not_true, if_neg (by decide), if_neg (by rw [show t.shed = d.shed from rfl, hshed]; decide)]
  have hevent : t.Exported t' := (Device.Exported.refl t).worked ((Device.Worked.refl _ _ _).raise nofun)
  exact hevent.foldl fun _ _ hu => hu.telemAdd

/-- At shed level S1 and above the snapshot is counted as skipped. -/
theorem Device.counterExport_shed (hdue : d.telemDue 17 Off.telemCounter = true) (hshed : 1 ≤ d.shed) :
    d.counterExport = (d.telemTake 17).snapSkip 2 := by
  unfold Device.counterExport
  rw [hdue, Bool.not_true, if_neg (by decide)]
  exact if_pos hshed

theorem Device.reg_snapSkip (d : Device) (who : Nat) : (d.snapSkip who).reg Off.perfSnapSkip = sat32 (d.reg Off.perfSnapSkip + 1) := by
  unfold Device.snapSkip
  rw [Device.reg_raise (by decide) (by decide), Device.reg_bump_self]

/-- The template set is sent. -/
theorem Device.templateSet_templates (d : Device) : d.templateSet.telem.templates = d.transit := by
  unfold Device.templateSet
  extract_lets t
  split
  · rw [((Device.Worked.refl true false t).telemSend).telem]
    rfl
  · rfl

section sample
variable {p c : Nat} {cs : List Nat} {y : Copy} {fr : Frame} (hq : d.voq p 516 (voqCls 516 0) = c :: cs) (hc : d.copy c = some y)
  (hf : d.frame y.frame = some fr)
include hq hc hf

theorem Device.frameSample_bad (hbad : fr.bad = true) : d.frameSample p = d.dropCopy c := by
  unfold Device.frameSample
  simp only [hq, hc, hf, hbad, if_true]

theorem Device.frameSample_skipped (hbad : fr.bad = false) (hdone : fr.done = true) (hoff : d.telemOn = false ∨ d.flag Off.telemSample 31 = false) :
    d.frameSample p = (d.bump Off.telemSampleSkip 1).dropCopy c := by
  have hskip (k : Prop) : (!d.telemOn) = true ∨ (!d.flag Off.telemSample 31) = true ∨ k := by
    rcases hoff with h | h
    · exact .inl (by rw [h]; rfl)
    · exact .inr (.inl (by rw [h]; rfl))
  unfold Device.frameSample
  simp only [hq, hc, hf, hbad, hdone, Bool.not_true, Bool.false_eq_true, if_false, if_pos (hskip _)]

theorem Device.frameSample_taken (hbad : fr.bad = false) (hdone : fr.done = true) (hon : d.telemOn = true) (hsample : d.flag Off.telemSample 31 = true)
    (hsec : d.telem.sampleSec = d.transit / 1000000000) (hrate : d.telem.sampleCount < 1000 * d.fld Off.telemSample 15 0) :
    ∃ (u : Device) (rec_ : List Byte), u.telem.sampleCount = d.telem.sampleCount + 1 ∧ d.frameSample p = (u.telemAdd 259 rec_).dropCopy c := by
  unfold Device.frameSample
  simp only [hq, hc, hf, hbad, hdone, hon, hsample, hsec, Bool.not_true, Bool.false_eq_true, if_false, if_true, false_or,
    if_neg (Nat.not_le.mpr hrate)]
  exact ⟨_, _, rfl, rfl⟩

end sample

/-- Settles O45: the counters by `Device.counts`, the export by what a message and a record change of the telemetry's state. -/
theorem countersAndExport : Obligations.CountersAndExport := by
  unfold Obligations.CountersAndExport
  refine ⟨?enabled, ?disabled, ?starts, ?late, ?reads, ?ends, ?quotes, ?counters, ?shed, ?templates, ?flush, ?bad, ?skipped, ?sampled⟩
  case enabled =>
    intro n d w hn hen hfrozen hwritten hchain hsnap
    refine runs_of_exec (exec_to rfl (Device.counterTick_eq hsnap)) ⟨?_, rfl⟩
    exact Device.counts_enabled hn hen hfrozen hwritten hchain
  case disabled =>
    intro n v d w hn hen hwritten hsnap
    refine runs_of_exec (exec_to rfl (Device.counterTick_eq hsnap)) ⟨?_, rfl⟩
    exact Device.counts_written hn hen hwritten
  case starts =>
    intro space d w hdue hshed hfree
    exact runs_of_exec (exec_to rfl ((Device.exportWalk_due hdue hshed).trans (if_neg (by rw [hfree]; decide)))) (NMap.get?_set_self ..)
  case late =>
    intro space d w hdue hshed hbusy
    exact runs_of_exec (exec_to rfl ((Device.exportWalk_due hdue hshed).trans (if_pos hbusy))) ⟨Device.reg_bump_self .., rfl⟩
  case reads =>
    intro space wk h b d w hon hwalk hnext hdoze
    exact runs_of_exec (exec_to rfl rfl) (Device.walkRead_reads hon hwalk hnext hdoze)
  case ends =>
    intro space wk d w hon hwalk hnext
    have hend : d.walkRead space = d.modTelem fun t => { t with walks := NMap.del t.walks space } := by
      unfold Device.walkRead
      simp only [hon, hwalk, hnext]
    exact runs_of_exec (exec_to rfl hend) (NMap.get?_del_self ..)
  case quotes =>
    intro k q d w hdue hshed hq hactive
    exact runs_of_exec (exec_to rfl rfl) (Device.quoteExport_anew hdue hshed hq hactive)
  case counters =>
    intro d w hdue hshed
    refine runs_of_exec (exec_to rfl rfl) ?_
    rw [(Device.counterExport_exported hdue hshed).telem]
    exact NMap.get?_set_self ..
  case shed =>
    intro d w hdue hshed
    exact runs_of_exec (exec_to rfl (Device.counterExport_shed hdue hshed)) (Device.reg_snapSkip ..)
  case templates =>
    intro d w hon hdue
    exact runs_of_exec (exec_to rfl (if_pos ⟨hon, hdue⟩)) d.templateSet_templates
  case flush =>
    intro template o d w ho hon hdue
    have hclose : d.telemFlush template = d.telemClose template := by
      unfold Device.telemFlush
      simp only [ho, hon, hdue, and_self, if_true]
    exact runs_of_exec (exec_to rfl hclose) (d.telemClose_closed template)
  case bad =>
    intro pipe c cs y fr d w hq hc hf hbad
    exact runs_of_exec (exec_to rfl (Device.frameSample_bad hq hc hf hbad))
      ⟨d.copy_dropCopy c, (Device.Worked.refl false false d).dropCopy.telem⟩
  case skipped =>
    intro pipe c cs y fr d w hq hc hf hbad hdone hoff
    refine runs_of_exec (exec_to rfl (Device.frameSample_skipped hq hc hf hbad hdone hoff)) ⟨Device.copy_dropCopy .., ?_⟩
    rw [(Device.Worked.refl false true _).dropCopy.reg (by unfold movedReg; decide), Device.reg_bump_self]
  case sampled =>
    intro pipe c cs y fr d w hq hc hf hbad hdone hon hsample hsec hrate
    obtain ⟨u, rec_, hu, htaken⟩ := Device.frameSample_taken hq hc hf hbad hdone hon hsample hsec hrate
    refine runs_of_exec (exec_to rfl htaken) ⟨Device.copy_dropCopy .., ?_⟩
    rw [(Device.Worked.refl false false _).dropCopy.telem, ((Device.Exported.refl u).telemAdd).telem]
    exact hu

end Sys2Proof.Machine
end

section
set_option Elab.async false
/-! PROOFS. What a span receives leaves alone (R217, R224, R324, R325, R333). -/

namespace Sys2Proof.Machine

namespace Device.Worked

variable {q r b : Bool} {d t : Device} {off p s c f n k i w : Nat} {bs : List Byte}

/-! ### A frame taken in (R217, R219, R224) -/

theorem admitFrame (hw : d.Worked q r t) (hp : p < 512) : d.Worked q r (t.admitFrame p c n).1 := by
  have hdrop (off : Nat) (ho : off = Off.bufHrDrop p ∨ off = Off.bufInDrop p) : d.Worked q r (t.pfcCheck.bump off 1) :=
    hw.pfcCheck.bump fun _ => .inl (by unfold Off.bufHrDrop Off.bufInDrop at ho; omega)
  unfold Device.admitFrame
  extract_lets t₁
  split
  · exact hw.pfcCheck.occPort.occPort
  · rename_i off _ _
    refine (hdrop off ?_).occPort
    unfold off
    split
    · exact .inl rfl
    · exact .inr rfl

theorem takeIn {x : Frame} (hw : d.Worked q r t) (hp : x.port < 512) : d.Worked q r (t.takeIn x b) := by
  have hdrop : d.Worked q r (t.bump (Off.bufInDrop x.port) 1) := hw.bump fun _ => .inl (by unfold Off.bufInDrop; omega)
  unfold Device.takeIn
  extract_lets p cls prov
  split
  · exact (hw.bump fun _ => .inr (by decide)).addFrame
  · split
    · exact hdrop.addFrame
    · split
      · exact (hw.bump fun _ => .inl (by decide)).occPort.addFrame
      · have hadmit : d.Worked q r (t.admitFrame p cls prov).1 := hw.admitFrame hp
        split
        · next u e =>
          rw [e] at hadmit
          exact hadmit.addFrame
        · next u a e =>
          rw [e] at hadmit
          exact hadmit.addFrame.poolsMoved

/-! ### A span's streams (R323 to R325, R333) -/

theorem spanFrame {cls ago : Nat} (hw : d.Worked q r t) : d.Worked q r (t.spanFrame w cls bs ago) := by
  have hbad : d.Worked q r (t.bump (Off.lathRxFcsErr w) 1) := hw.bump fun _ => movedReg_row 0x1000 _ (by decide)
  have hgood : d.Worked q r (t.bump (Off.lathRxFrames w) 1) := hw.bump fun _ => movedReg_row 0x1000 _ (by decide)
  have hp : t.spanFirst w < 512 := bits_lt _ 8 0
  unfold Device.spanFrame
  extract_lets p t₁ t₂ f
  split
  · exact hbad.occPort
  · have h₂ : d.Worked q r t₂ := hgood.occPort.occPort
    exact (h₂.takeIn hp).frameWhole

/-- Counts of a span's errors. -/
theorem rxErr (hw : d.Worked q r t) : d.Worked q r (t.bump (Off.lathRxFcsErr w) 1) := hw.bump fun _ => movedReg_row 0x1000 _ (by decide)

theorem hdrErr (hw : d.Worked q r t) : d.Worked q r (t.bump (Off.lathHdrErr w) 1) := hw.bump fun _ => movedReg_row 0x1000 _ (by decide)

theorem takeFrames (hw : d.Worked q r t) (fuel : Nat) : d.Worked q r (t.takeFrames w c fuel) := by
  have hput (u : Device) (y : RxStream) (hu : d.Worked q r u) : d.Worked q r (u.modSpan w fun x => { x with rx := NMap.set x.rx c y }) :=
    hu.modSpan rfl
  induction fuel generalizing t with
  | zero => exact hw
  | succ fuel ih =>
    unfold Device.takeFrames
    extract_lets x put
    split
    · exact hw
    · split
      · exact hput _ _ hw.hdrErr.rxErr
      · extract_lets len n
        split
        · exact ih (hput _ _ hw)
        · split
          · exact hw
          · exact ih (hput _ _ hw).spanFrame

theorem dropStream (hw : d.Worked q r t) : d.Worked q r (t.dropStream w c) := by
  unfold Device.dropStream
  extract_lets x t₁
  have h₁ : d.Worked q r t₁ := by
    unfold t₁
    split
    · exact hw
    · exact hw.rxErr
  exact h₁.modSpan rfl

theorem takeSlot {words : List (Nat × DWord)} (hw : d.Worked q r t) : d.Worked q r (t.takeSlot w words) := by
  have hput (y : Nat) (ws : RxStream) : d.Worked q r (t.modSpan w fun x => { x with rx := NMap.set x.rx y ws }) := hw.modSpan rfl
  unfold Device.takeSlot
  split
  · exact hw
  · extract_lets ch first x new
    split
    · exact hw.hdrErr.dropStream
    · clear_value new
      cases new with
      | none => exact hw
      | some ws => exact (hput _ _).takeFrames _

theorem deliverOne {x : RxContainer} (hw : d.Worked q r t) : d.Worked q r (t.deliverOne s w x) := by
  unfold Device.deliverOne
  extract_lets follows t₁ t₂
  have h₁ : d.Worked q r t₁ := by
    unfold t₁
    split
    · exact hw
    · exact hw.foldl fun _ _ hu => hu.dropStream
  have h₂ : d.Worked q r t₂ := h₁.foldl fun _ _ hu => hu.takeSlot
  exact h₂.modSpan rfl

theorem deliverHeld (hw : d.Worked q r t) : d.Worked q r (t.deliverHeld w) := by
  unfold Device.deliverHeld
  extract_lets s
  split
  · exact hw
  · refine hw.foldl fun u x hu => ?_
    extract_lets fresh
    split
    · exact hu.deliverOne
    · exact hu

/-! ### The selector of a group turns (R333, R334) -/

theorem defectEvent (hw : d.Worked q r t) (hs : s < 32) : d.Worked q r (t.defectEvent s b) := by
  have hfree : d.Worked q r ((t.free 5).1.free 5).1 := hw.free.free
  unfold Device.defectEvent
  exact hfree.raise fun _ => by unfold spanSource; omega

theorem apsTurn (hw : d.Worked q r t) (hs : w < 32) : d.Worked q r (t.apsTurn w b) := by
  have hturn : d.Worked q r ((t.setFlag (Off.lathApsStatus w) 31 b).bump (Off.lathApsSwitch w) 1) :=
    (hw.setFlag fun _ => movedReg_row 0x1000 _ (by decide)).bump fun _ => movedReg_row 0x1000 _ (by decide)
  have hlost (u : Device) (k : Nat) (hu : d.Worked q r u) : d.Worked q r (u.bump (Off.lathApsLost w) k) :=
    hu.bump fun _ => movedReg_row 0x1000 _ (by decide)
  unfold Device.apsTurn
  extract_lets t₁
  split
  next u a e =>
  have hu : d.Worked q r u := by
    rw [← show (t₁.free 5).1 = u from congrArg Prod.fst e]
    exact hturn.free
  extract_lets u₁ held u₂
  have h₁ : d.Worked q r u₁ := hu.raise fun _ => by unfold spanSource; omega
  have h₂ : d.Worked q r u₂ := by
    unfold u₂
    split
    · extract_lets next
      split
      · exact hlost _ _ h₁
      · exact h₁
    · exact h₁
  exact h₂.deliverHeld

end Device.Worked

end Sys2Proof.Machine
end

section
set_option Elab.async false
/-! PROOFS. A defect shown, LW, and a look at a protection group: what they leave of a span's line, and what LATH_STATUS shows (R330, R332 to
R334). -/

namespace Sys2Proof.Machine

variable {d t : Device} {s n m w k : Nat} {b v : Bool}

/-! ### The relation -/

/-- A span without its streams, and without what the protection and LW keep of it. -/
def Span.line (x : Span) : Span :=
  { x with rx := [], tx := [], txLeft := [], tokens := [], last := none, apsCmd := 0, wasBad := false, wtr := none, dnr := false,
           losSeen := false, lwRun := 0 }

/-- `t` has the spans' lines of `d` and the registers that `movedReg` does not name, those at the place of LATH_STATUS excepted. -/
structure Device.LineKept (d t : Device) : Prop where
  spans : ∀ x, (t.span x).line = (d.span x).line
  regs : ∀ o, ¬movedReg o → o % 0x1000 ≠ 4 → t.reg o = d.reg o

namespace Device.LineKept

theorem refl (d : Device) : d.LineKept d := ⟨fun _ => rfl, fun _ _ _ => rfl⟩

theorem worked {u : Device} (h : d.LineKept t) (hu : t.Worked false true u) : d.LineKept u where
  spans x := (congrArg Span.line (hu.spans x)).trans (h.spans x)
  regs o ho hplace := (hu.reg ho).trans (h.regs o ho hplace)

theorem foldl {β : Type} {xs : List β} {g : Device → β → Device} (h : d.LineKept t) (hg : ∀ u x, d.LineKept u → d.LineKept (g u x)) :
    d.LineKept (xs.foldl g t) := List.foldlRecOn (motive := d.LineKept) _ _ h fun u hu x _ => hg u x hu

theorem setReg {off v : Nat} (h : d.LineKept t) (hoff : movedReg off ∨ off % 0x1000 = 4) : d.LineKept (t.setReg off v) where
  spans := h.spans
  regs o ho hplace := by
    have hne : o ≠ off := by
      rintro rfl
      exact hoff.elim ho hplace
    exact (t.reg_setReg_other v hne).trans (h.regs o ho hplace)

theorem setFlag {off : Nat} (h : d.LineKept t) (hoff : movedReg off ∨ off % 0x1000 = 4) : d.LineKept (t.setFlag off n b) := h.setReg hoff

theorem setFld {off hi lo v : Nat} (h : d.LineKept t) (hoff : movedReg off ∨ off % 0x1000 = 4) : d.LineKept (t.setFld off hi lo v) := h.setReg hoff

theorem modSpan {g : Span → Span} (h : d.LineKept t) (hg : (g (t.span s)).line = (t.span s).line) : d.LineKept (t.modSpan s g) where
  spans x := by
    by_cases hx : x = s
    · rw [hx, Device.span_modSpan_self, hg, h.spans]
    · rw [Device.span_modSpan_other _ _ hx, h.spans]
  regs := h.regs

/-! ### Defects and LW (R330) -/

theorem showSpan (h : d.LineKept t) : d.LineKept (t.showSpan s) := by
  have hup (x : Bool) : d.LineKept (t.setFlag (Off.lathStatus s) 31 x) := h.setFlag (.inr (row_mod 0x2800004 s (by decide)))
  unfold Device.showSpan
  extract_lets w before t'
  split
  · exact (hup _).worked (Device.Worked.refl _ _ _).flushPort
  · exact hup _

theorem setDefect (h : d.LineKept t) (hs : s < 32) : d.LineKept (t.setDefect s n b) := by
  have hset : d.LineKept (t.setFlag (Off.lathStatus s) n b) := h.setFlag (.inr (row_mod 0x2800004 s (by decide)))
  unfold Device.setDefect
  split
  · exact h
  · exact (hset.worked ((Device.Worked.refl _ _ _).defectEvent hs)).showSpan

theorem lwSet (h : d.LineKept t) (hs : s < 32) : d.LineKept (t.lwSet s) := by
  have hset : d.LineKept ((t.setDefect s 30 true).modSpan s fun x => { x with losSeen := false }) := (h.setDefect hs).modSpan rfl
  unfold Device.lwSet
  split
  · exact h
  · have hfree (u : Device) : u.Worked false true ((u.free 5).1.free 5).1 := (Device.Worked.refl _ _ u).free.free
    exact hset.worked ((hfree _).raise fun _ => by unfold spanSource; omega)

theorem lwClear (h : d.LineKept t) (hs : s < 32) : d.LineKept (t.lwClear s) := by
  unfold Device.lwClear
  extract_lets bad
  split
  · exact h
  · split
    · exact h.modSpan rfl
    · split
      · exact h.setDefect hs
      · exact h

theorem lookLw {c : List DWord} (h : d.LineKept t) (hs : s < 32) : d.LineKept (t.lookLw s c) := by
  unfold Device.lookLw
  refine h.foldl fun u j hu => ?_
  split
  · exact hu
  · extract_lets run u'
    have hu' : d.LineKept u' := hu.modSpan rfl
    split
    · exact hu'.lwSet hs
    · exact hu'

/-! ### A look at a group (R332 to R334) -/

theorem apsLook (h : d.LineKept t) (hs : s < 32) : d.LineKept (t.apsLook s) := by
  unfold Device.apsLook
  extract_lets w old bad cleared t₁ t₂
  have hw : w < 32 := Device.working_lt hs
  split
  · exact h
  · split
    · exact h
    · extract_lets now t₃ sel
      have h₁ : d.LineKept t₁ := h.modSpan rfl
      have h₂ : d.LineKept t₂ := by
        unfold t₂
        split
        · exact h₁.modSpan rfl
        · split
          · split
            · exact h₁.modSpan rfl
            · exact h₁.modSpan rfl
          · exact h₁
      have h₃ : d.LineKept t₃ := by
        unfold t₃
        split
        · exact h₂
        · exact h₂.setFld (.inl (movedReg_row 0x1000 _ (by decide)))
      split
      · exact h₃
      · exact h₃.worked ((Device.Worked.refl _ _ _).apsTurn hw)

end Device.LineKept

/-! ### What LATH_STATUS shows (R330) -/

theorem Device.flag_showSpan (hm : m ≠ 31) : (d.showSpan s).flag (Off.lathStatus s) m = d.flag (Off.lathStatus s) m :=
  (Device.flag_congr (Device.showSpan_kept _ (enableReg_lathStatus s))).trans (Device.flag_setFlag_apart (by omega) hm)

/-- A defect is shown as it is set. -/
theorem Device.flag_setDefect_self (hs : s < 32) (hn : n < 31) : (d.setDefect s n b).flag (Off.lathStatus s) n = b := by
  by_cases hsame : d.flag (Off.lathStatus s) n = b
  · rw [Device.setDefect, hsame, beq_self_eq_true, if_pos rfl, hsame]
  · rw [Device.setDefect_eq hsame, Device.flag_showSpan (by omega),
      Device.flag_congr ((Device.EnablesKept.refl _).defectEvent hs _ (enableReg_lathStatus s)), Device.flag_setFlag_self _ _ _ (by omega)]

/-- The other defects stay as they are shown. -/
theorem Device.flag_setDefect_other (hs : s < 32) (hn : n < 32) (hm : m < 31) (hne : m ≠ n) :
    (d.setDefect s n b).flag (Off.lathStatus s) m = d.flag (Off.lathStatus s) m := by
  by_cases hsame : d.flag (Off.lathStatus s) n = b
  · rw [Device.setDefect, hsame, beq_self_eq_true, if_pos rfl]
  · rw [Device.setDefect_eq hsame, Device.flag_showSpan (by omega),
      Device.flag_congr ((Device.EnablesKept.refl _).defectEvent hs _ (enableReg_lathStatus s)), Device.flag_setFlag_apart hn hne]

theorem Device.flag_lwSet (hs : s < 32) (hm : m < 30) : (d.lwSet s).flag (Off.lathStatus s) m = d.flag (Off.lathStatus s) m := by
  unfold Device.lwSet
  split
  · rfl
  · have hfree (u : Device) : u.EnablesKept (((u.modSpan s fun x => { x with losSeen := false }).free 5).1.free 5).1 :=
      (Device.EnablesKept.refl u).modSpan.free.free
    have hraise (u : Device) {sev cause x y : Nat} :
        u.EnablesKept ((((u.modSpan s fun x => { x with losSeen := false }).free 5).1.free 5).1.raise (spanSource s) sev cause x y) :=
      (hfree u).raise (by unfold spanSource; omega)
    exact (Device.flag_congr (hraise (d.setDefect s 30 true) _ (enableReg_lathStatus s))).trans (Device.flag_setDefect_other hs (by omega) (by omega) (by omega))

theorem Device.flag_lwClear (hs : s < 32) (hm : m < 30) : (d.lwClear s).flag (Off.lathStatus s) m = d.flag (Off.lathStatus s) m := by
  unfold Device.lwClear
  extract_lets bad
  split
  · rfl
  · split
    · rfl
    · split
      · exact Device.flag_setDefect_other hs (by omega) (by omega) (by omega)
      · rfl

theorem Device.flag_apsLook (hs : s < 32) : (d.apsLook s).flag (Off.lathStatus s) m = d.flag (Off.lathStatus s) m :=
  Device.flag_congr ((Device.EnablesKept.refl d).apsLook hs _ (enableReg_lathStatus s))

end Sys2Proof.Machine
end

section
set_option Elab.async false
/-! PROOFS. A span's periods, its containers and what it sends (R319 to R322, R327, R330, R334). -/

namespace Sys2Proof.Machine

variable {d t : Device} {s n i w : Nat}

/-! ### Periods, LOF and WTR (R330, R334) -/

/-- What a defect and the look at the group that follows it show. -/
theorem Device.defect_look (hs : s < 32) (hn : n < 31) (v : Bool) :
    (((d.setDefect s n v).apsLook s).flag (Off.lathStatus s) n = v) ∧ d.LineKept ((d.setDefect s n v).apsLook s) :=
  ⟨(Device.flag_apsLook hs).trans (Device.flag_setDefect_self hs hn), ((Device.LineKept.refl d).setDefect hs).apsLook hs⟩

/-- A span has at most 8 lanes. -/
theorem Device.spanL_le (d : Device) (s : Nat) : d.spanL s ≤ 8 :=
  Nat.pow_le_pow_right (by decide) (Nat.lt_succ_iff.mp (bits_lt _ 30 29))

section period
variable (hs : s < 32) (hen : d.spanEn s = true)
include hs hen

theorem Device.sfPeriod_over (hover : d.fld (Off.lathDefCfg s) 15 8 < (d.span s).uncMs) :
    (d.sfPeriod s).flag (Off.lathStatus s) 26 = true ∧ ((d.sfPeriod s).span s).uncMs = 0 := by
  unfold Device.sfPeriod
  simp only [hen, Bool.not_true, Bool.false_eq_true, if_false, decide_eq_true hover, if_true]
  generalize ht : d.modSpan s _ = t
  obtain ⟨hflag, hline⟩ := t.defect_look hs (by omega : 26 < 31) true
  refine ⟨hflag, (congrArg Span.uncMs (hline.spans s)).trans ?_⟩
  rw [← ht, Device.span_modSpan_self]
  rfl

theorem Device.sfPeriod_clean (hclean : (d.span s).uncMs ≤ d.fld (Off.lathDefCfg s) 15 8) (hten : 9 ≤ (d.span s).sfClean) :
    (d.sfPeriod s).flag (Off.lathStatus s) 26 = false ∧ ((d.sfPeriod s).span s).uncMs = 0 := by
  unfold Device.sfPeriod
  simp only [hen, Bool.not_true, Bool.false_eq_true, if_false, decide_eq_false (Nat.not_lt.mpr hclean), Device.span_modSpan_self,
    if_pos (show 10 ≤ (d.span s).sfClean + 1 by omega)]
  generalize ht : d.modSpan s _ = t
  obtain ⟨hflag, hline⟩ := t.defect_look hs (by omega : 26 < 31) false
  refine ⟨hflag, (congrArg Span.uncMs (hline.spans s)).trans ?_⟩
  rw [← ht, Device.span_modSpan_self]
  rfl

theorem Device.sdPeriod_over (hover : 16 * d.fld (Off.lathDefCfg s) 7 0 < (d.span s).bipPeriod) :
    (d.sdPeriod s).flag (Off.lathStatus s) 27 = true ∧ ((d.sdPeriod s).span s).bipPeriod = 0 := by
  unfold Device.sdPeriod
  simp only [hen, Bool.not_true, Bool.false_eq_true, if_false, decide_eq_true hover, if_true]
  generalize ht : d.modSpan s _ = t
  obtain ⟨hflag, hline⟩ := t.defect_look hs (by omega : 27 < 31) true
  refine ⟨hflag, (congrArg Span.bipPeriod (hline.spans s)).trans ?_⟩
  rw [← ht, Device.span_modSpan_self]
  rfl

theorem Device.sdPeriod_clean (hclean : (d.span s).bipPeriod ≤ 16 * d.fld (Off.lathDefCfg s) 7 0) (hten : 9 ≤ (d.span s).sdClean) :
    (d.sdPeriod s).flag (Off.lathStatus s) 27 = false ∧ ((d.sdPeriod s).span s).bipPeriod = 0 := by
  unfold Device.sdPeriod
  simp only [hen, Bool.not_true, Bool.false_eq_true, if_false, decide_eq_false (Nat.not_lt.mpr hclean), Device.span_modSpan_self,
    if_pos (show 10 ≤ (d.span s).sdClean + 1 by omega)]
  generalize ht : d.modSpan s _ = t
  obtain ⟨hflag, hline⟩ := t.defect_look hs (by omega : 27 < 31) false
  refine ⟨hflag, (congrArg Span.bipPeriod (hline.spans s)).trans ?_⟩
  rw [← ht, Device.span_modSpan_self]
  rfl

theorem Device.lof_declared (hi : i < d.spanL s) (hoof : d.flag (Off.lathStatus s) i = true)
    (hheld : (d.lane s i).since + 10000 * max 1 (d.fld (Off.lathDefCfg s) 31 24) ≤ d.transit) :
    (d.lof s i).flag (Off.lathStatus s) (8 + i) = true := by
  have hlanes : d.spanL s ≤ 8 := d.spanL_le s
  unfold Device.lof
  rw [if_pos (by simp [hen, hi, hoof, hheld]), Device.flag_apsLook hs, Device.flag_lwClear hs (by omega),
    Device.flag_setDefect_self hs (by omega)]

end period

theorem Device.Worked.wtr {q r : Bool} (h : d.Worked q r t) (s : Nat) : (t.span s).wtr = (d.span s).wtr := by
  have hstill : (t.span s).still.wtr = (d.span s).still.wtr := congrArg Span.wtr (h.spans s)
  exact hstill

theorem Device.span_setFld (d : Device) (off hi lo v s : Nat) : (d.setFld off hi lo v).span s = d.span s := rfl

/-- A look at a group whose span has not just recovered starts no wait to restore. -/
theorem Device.apsLook_wtr (hs : s < 32) (hwtr : (d.span s).wtr = none) (hbad : (d.span s).wasBad = false) :
    ((d.apsLook s).span s).wtr = none := by
  have hmod (u : Device) (w : Nat) (g : Span → Span) (hu : (u.span s).wtr = none) (hg : w = s → (g (u.span s)).wtr = none) :
      ((u.modSpan w g).span s).wtr = none := by
    by_cases hw : s = w
    · subst hw
      rw [Device.span_modSpan_self, hg rfl]
    · rw [Device.span_modSpan_other _ _ hw, hu]
  unfold Device.apsLook
  extract_lets w old bad cleared t₁ t₂
  have hw : w < 32 := Device.working_lt hs
  split
  · exact hwtr
  · split
    · exact hwtr
    · extract_lets now t₃ sel
      have h₁ : (t₁.span s).wtr = none := hmod _ _ _ hwtr fun _ => hwtr
      have h₂ : (t₂.span s).wtr = none := by
        unfold t₂
        split
        · exact hmod _ _ _ h₁ fun _ => rfl
        · split
          · next hcleared =>
            have hne : w ≠ s := by
              rintro he
              rw [show cleared = (!bad && (d.span w).wasBad) from rfl, he, hbad, Bool.and_false] at hcleared
              exact absurd hcleared (by decide)
            split
            · exact hmod _ _ _ h₁ fun he => absurd he hne
            · exact hmod _ _ _ h₁ fun _ => h₁
          · exact h₁
      have h₃ : (t₃.span s).wtr = none := by
        unfold t₃
        split
        · exact h₂
        · exact (congrArg Span.wtr (t₂.span_setFld _ _ _ _ s)).trans h₂
      split
      · exact h₃
      · exact (((Device.Worked.refl false true t₃).apsTurn hw).wtr s).trans h₃

/-! ### Span containers (R322, R330) -/

/-- The span container of a complete set of lane containers. -/
def Device.assembledFrom (d : Device) (s : Nat) (h : RxContainer) (hs : List RxContainer) : RxContainer :=
  ⟨0, h.seq, interleave (d.spanL s) ((h :: hs).map fun c => c.words), hs.foldl (fun n c => max n c.ended) h.ended⟩

/-- A span that keeps it. -/
def Span.keeps (x : Span) (c : RxContainer) (set_ : List RxContainer) : Span :=
  { x with
    waiting := afterSet set_ x.waiting
    compared := []
    badCseq := 0
    goodCont := x.goodCont + 1
    kept := (x.kept ++ [c]).drop (x.kept.length - 7) }

/-- The time of the last lane container of a set. -/
theorem foldl_ended (h : RxContainer) (hs : List RxContainer) :
    ((h :: hs).map (·.ended)).foldl max 0 = hs.foldl (fun n c => max n c.ended) h.ended := by
  rw [List.map_cons, List.foldl_cons, Nat.zero_max, List.foldl_map]

theorem Device.containerAssemble_line {h : RxContainer} {rest : List RxContainer} (hs : s < 32) (hset : d.firstSet s = some (h :: rest)) :
    (d.modSpan s fun x => x.keeps (d.assembledFrom s h rest) (h :: rest)).LineKept ((d.containerAssemble s).apsLook s) := by
  have hline : ∀ t : Device, t.LineKept (((if 16 ≤ (t.span s).goodCont then t.setDefect s 25 false else t).lookLw s
      (d.assembledFrom s h rest).words)) := by
    intro t
    refine Device.LineKept.lookLw ?_ hs
    split
    · exact (Device.LineKept.refl t).setDefect hs
    · exact Device.LineKept.refl t
  unfold Device.containerAssemble
  simp only [hset, foldl_ended]
  exact ((hline _).worked ((Device.Worked.refl _ _ _).deliverHeld)).apsLook hs

end Sys2Proof.Machine
end

section
set_option Elab.async false
/-! PROOFS. What a span sends (R316 to R323, R327, R332). -/

namespace Sys2Proof.Machine

variable {d t : Device} {s n i w : Nat} {c : List DWord} {stuffs : List Nat}

/-! ### One span's frames -/

/-- `t` is `d` but for the span s, of which its number of the next container stays. -/
structure Device.SendsOn (s : Nat) (d t : Device) : Prop where
  device : t = { d with spans := t.spans }
  others : keptAside d.spans t.spans s
  cseq : (t.span s).cseq = (d.span s).cseq

namespace Device.SendsOn

theorem refl (s : Nat) (d : Device) : d.SendsOn s d := ⟨rfl, fun _ _ => rfl, rfl⟩

theorem modSpan {g : Span → Span} (h : d.SendsOn s t) (hg : (g (t.span s)).cseq = (t.span s).cseq) : d.SendsOn s (t.modSpan s g) := by
  obtain ⟨hdevice, hothers, hcseq⟩ := h
  refine ⟨?_, hothers.set _, by rw [Device.span_modSpan_self, hg, hcseq]⟩
  rw [hdevice]
  rfl

theorem reg (h : d.SendsOn s t) (o : Nat) : t.reg o = d.reg o := by rw [h.device]; rfl

theorem span_other {x : Nat} (h : d.SendsOn s t) (hx : x ≠ s) : t.span x = d.span x := by
  rw [Device.span, Device.span, NMap.getD, NMap.getD, h.others x hx]

theorem trans {u : Device} (h : d.SendsOn s t) (hu : t.SendsOn s u) : d.SendsOn s u := by
  obtain ⟨hdevice, hothers, hcseq⟩ := h
  obtain ⟨hdevice', hothers', hcseq'⟩ := hu
  refine ⟨?_, fun x hx => (hothers' x hx).trans (hothers x hx), hcseq'.trans hcseq⟩
  rw [hdevice', hdevice]

theorem sendLathFrame (h : d.SendsOn s t) : d.SendsOn s (t.sendLathFrame s i n) := by
  unfold Device.sendLathFrame
  exact h.modSpan rfl

end Device.SendsOn

/-- A lane's frame begins with the alignment word, and the other lanes' frames stay. -/
theorem Device.sendLathFrame_out (d : Device) (s i n j : Nat) :
    (NMap.getD ((d.sendLathFrame s i n).span s).out j []).head? =
      if j = i then some (BitVec.ofNat 64 faw) else (NMap.getD (d.span s).out j []).head? := by
  unfold Device.sendLathFrame
  extract_lets q st k ptr body f raw
  rw [Device.span_modSpan_self]
  split
  · next hj =>
    rw [hj, NMap.getD_set_self]
    rfl
  · next hj => rw [NMap.getD_set_other _ _ _ hj]

theorem Device.sendLathFrame_fcnt (d : Device) (s i n : Nat) : ((d.sendLathFrame s i n).span s).fcnt = (d.span s).fcnt := by
  unfold Device.sendLathFrame
  rw [Device.span_modSpan_self]

/-- The frames of the first lanes. -/
def Device.sendLanes (d : Device) (s l : Nat) (stuffs : List Nat) : Device :=
  (List.range l).foldl (fun d i => d.sendLathFrame s i (stuffs.getD i 0)) d

theorem Device.sendLanes_succ (d : Device) (s l : Nat) (stuffs : List Nat) :
    d.sendLanes s (l + 1) stuffs = (d.sendLanes s l stuffs).sendLathFrame s l (stuffs.getD l 0) := by
  rw [Device.sendLanes, List.range_succ, List.foldl_append]
  rfl

theorem Device.sendLanes_shows (d : Device) (s l : Nat) (stuffs : List Nat) :
    d.SendsOn s (d.sendLanes s l stuffs) ∧ ((d.sendLanes s l stuffs).span s).fcnt = (d.span s).fcnt ∧
      ∀ j, j < l → (NMap.getD ((d.sendLanes s l stuffs).span s).out j []).head? = some (BitVec.ofNat 64 faw) := by
  induction l with
  | zero => exact ⟨.refl s d, rfl, fun j hj => absurd hj (Nat.not_lt_zero j)⟩
  | succ l ih =>
    obtain ⟨hsends, hfcnt, hout⟩ := ih
    rw [Device.sendLanes_succ]
    refine ⟨hsends.sendLathFrame, (Device.sendLathFrame_fcnt ..).trans hfcnt, fun j hj => ?_⟩
    rw [Device.sendLathFrame_out]
    split
    · rfl
    · exact hout j (by omega)

theorem Device.sendOn_shows (d : Device) (s : Nat) (c : List DWord) (stuffs : List Nat) :
    d.SendsOn s (d.sendOn s c stuffs) ∧ ((d.sendOn s c stuffs).span s).fcnt = ((d.span s).fcnt + 1) % 256 ∧
      ∀ j, j < d.spanL s → (NMap.getD ((d.sendOn s c stuffs).span s).out j []).head? = some (BitVec.ofNat 64 faw) := by
  unfold Device.sendOn
  extract_lets l t u
  have ht : d.SendsOn s t ∧ (t.span s).fcnt = (d.span s).fcnt := by
    unfold t
    exact ⟨(Device.SendsOn.refl s d).modSpan rfl, by rw [Device.span_modSpan_self]⟩
  have hu : t.SendsOn s u ∧ (u.span s).fcnt = (t.span s).fcnt ∧
      ∀ j, j < l → (NMap.getD (u.span s).out j []).head? = some (BitVec.ofNat 64 faw) := t.sendLanes_shows s l stuffs
  obtain ⟨hsent, hfcnt, hout⟩ := hu
  refine ⟨(ht.1.trans hsent).modSpan rfl, ?_, fun j hj => ?_⟩
  · rw [Device.span_modSpan_self, hfcnt, ht.2]
  · rw [Device.span_modSpan_self]
    exact hout j hj

/-! ### The span container (R321 to R323, R326) -/

namespace Device.LineKept

theorem channelRefill (h : d.LineKept t) : d.LineKept (t.channelRefill s) := by
  unfold Device.channelRefill
  refine h.foldl fun u k hu => ?_
  extract_lets v
  split
  · exact hu.modSpan rfl
  · exact hu

theorem fillSlot (h : d.LineKept t) (j : Nat) : d.LineKept (t.fillSlot s j).1 := by
  unfold Device.fillSlot
  dsimp only
  exact h.modSpan rfl

theorem fillContainer (h : d.LineKept t) : d.LineKept (t.fillContainer s).1 := by
  unfold Device.fillContainer
  exact List.foldlRecOn (motive := fun acc : Device × List DWord => d.LineKept acc.1) _ _ h fun acc hacc j _ => hacc.fillSlot j

theorem cseq (h : d.LineKept t) : (t.span s).cseq = (d.span s).cseq := by
  have hline : (t.span s).line.cseq = (d.span s).line.cseq := congrArg Span.cseq (h.spans s)
  exact hline

theorem fcnt (h : d.LineKept t) : (t.span s).fcnt = (d.span s).fcnt := by
  have hline : (t.span s).line.fcnt = (d.span s).line.fcnt := congrArg Span.fcnt (h.spans s)
  exact hline

theorem lathCtl (h : d.LineKept t) (s : Nat) : t.reg (Off.lathCtl s) = d.reg (Off.lathCtl s) :=
  h.regs _ (not_movedReg_row s (by decide)) (row_mod_ne s (by decide))

theorem lathApsCtl (h : d.LineKept t) (s : Nat) : t.reg (Off.lathApsCtl s) = d.reg (Off.lathApsCtl s) :=
  h.regs _ (not_movedReg_row s (by decide)) (row_mod_ne s (by decide))

end Device.LineKept

theorem Device.spanL_of_reg (h : t.reg (Off.lathCtl s) = d.reg (Off.lathCtl s)) : t.spanL s = d.spanL s := by
  unfold Device.spanL
  rw [Device.fld_congr h]

theorem Device.partner_of_reg (h : t.reg (Off.lathApsCtl w) = d.reg (Off.lathApsCtl w)) : t.partner w = d.partner w := by
  unfold Device.partner
  rw [Device.flag_congr h, Device.fld_congr h]

/-- What a span sends each 1,638.4 ns. -/
theorem Device.containerSend_shows (hs : s < 32) (hen : d.spanEn s = true) (hok : d.domainOk 8 s = true) (hprot : d.protects s = none)
    (hsq : d.pwr.squelch = false) (hpartner : d.partner s ≠ some s) :
    ((d.containerSend s stuffs).span s).cseq = ((d.span s).cseq + 1) % 2 ^ 32 ∧
      ((d.containerSend s stuffs).span s).fcnt = ((d.span s).fcnt + 1) % 256 ∧
      ∀ j, j < d.spanL s → (NMap.getD ((d.containerSend s stuffs).span s).out j []).head? = some (BitVec.ofNat 64 faw) := by
  unfold Device.containerSend
  simp only [hen, hprot, hsq, hok, Option.isSome_none, Bool.not_true, Bool.or_self, Bool.false_eq_true, if_false]
  generalize ht : Device.apsLook _ s = t
  have hline : d.LineKept t := by
    rw [← ht]
    exact ((Device.LineKept.refl d).channelRefill.modSpan rfl).apsLook hs
  have hfill : d.LineKept (t.fillContainer s).1 := hline.fillContainer
  generalize t.fillContainer s = r at hfill
  obtain ⟨u, c⟩ := r
  dsimp only at hfill ⊢
  generalize hveq : u.modSpan s _ = v
  generalize hxeq : v.sendOn s c stuffs = x
  have hkept : d.LineKept u → v.reg (Off.lathCtl s) = d.reg (Off.lathCtl s) ∧ v.reg (Off.lathApsCtl s) = d.reg (Off.lathApsCtl s) := by
    rw [← hveq]
    exact fun h => ⟨h.lathCtl s, h.lathApsCtl s⟩
  obtain ⟨hctl, haps⟩ := hkept hfill
  have hspan : ((v.span s).cseq = ((d.span s).cseq + 1) % 2 ^ 32 ∧ (v.span s).fcnt = (d.span s).fcnt) := by
    rw [← hveq, Device.span_modSpan_self]
    exact ⟨by rw [hfill.cseq], hfill.fcnt⟩
  obtain ⟨hcseq, hfcnt⟩ := hspan
  obtain ⟨hsends, hnext, hout⟩ := v.sendOn_shows s c stuffs
  rw [hxeq] at hsends hnext hout
  have hx : (x.span s).cseq = ((d.span s).cseq + 1) % 2 ^ 32 ∧ (x.span s).fcnt = ((d.span s).fcnt + 1) % 256 ∧
      ∀ j, j < d.spanL s → (NMap.getD (x.span s).out j []).head? = some (BitVec.ofNat 64 faw) :=
    ⟨hsends.cseq.trans hcseq, hnext.trans (by rw [hfcnt]), fun j hj => hout j (by rwa [Device.spanL_of_reg hctl])⟩
  have hpart : x.partner s = d.partner s := Device.partner_of_reg ((hsends.reg _).trans haps)
  rw [hpart]
  split
  · next p hp =>
    have hne : s ≠ p := by
      rintro rfl
      exact hpartner hp
    split
    · rw [(x.sendOn_shows p c stuffs).1.span_other hne]
      exact hx
    · exact hx
  · exact hx

end Sys2Proof.Machine
end

section
set_option Elab.async false
/-! PROOFS. What a lath frame received leaves of its counts, and of the lane's alignment once it is found (R315 to R320, R330). -/

namespace Sys2Proof.Machine

variable {d t u : Device} {s i n m j w phase uncorr : Nat} {k b : Bool} {word : DWord} {raw f : List DWord}

/-! ### The relation -/

/-- `t` is `d` with the uncorrectable codewords of span s as they are counted and, with `k`, with lane i of it aligned as it is. -/
structure Device.Heard (s i : Nat) (k : Bool) (d t : Device) : Prop where
  uncMs : (t.span s).uncMs = (d.span s).uncMs
  fec : t.reg (Off.lathFecUncorr s) = d.reg (Off.lathFecUncorr s)
  aligned : k = true → (t.lane s i).inFrame = (d.lane s i).inFrame ∧ (t.lane s i).phase = (d.lane s i).phase
  shown : k = true → t.flag (Off.lathStatus s) i = d.flag (Off.lathStatus s) i

/-- Registers of the spans at different places. -/
theorem row_ne {b c m : Nat} (i j : Nat) (h : b % m ≠ c % m) : b + m * i ≠ c + m * j := fun e =>
  h (by rw [← row_mod b i (Nat.dvd_refl m), e, row_mod c j (Nat.dvd_refl m)])

theorem lathTraceRx_ne (s : Nat) {n : Nat} (hn : n < 4) :
    Off.lathFecUncorr s ≠ Off.lathTraceRx s n ∧ Off.lathStatus s ≠ Off.lathTraceRx s n := by
  have hplace (n : Fin 4) : 0x2800814 % 0x4000 ≠ (0x2800040 + 0x4 * n.val) % 0x4000 ∧
      0x2800004 % 0x4000 ≠ (0x2800040 + 0x4 * n.val) % 0x4000 := by decide +revert
  obtain ⟨hfec, hstatus⟩ := hplace ⟨n, hn⟩
  rw [Off.lathTraceRx, Nat.add_right_comm]
  exact ⟨row_ne s s hfec, row_ne s s hstatus⟩

namespace Device.Heard

theorem refl (s i : Nat) (k : Bool) (d : Device) : d.Heard s i k d := ⟨rfl, rfl, fun _ => ⟨rfl, rfl⟩, fun _ => rfl⟩

theorem line (h : d.Heard s i k t) (hline : t.LineKept u) (hshown : k = true → u.flag (Off.lathStatus s) i = t.flag (Off.lathStatus s) i) :
    d.Heard s i k u := by
  have hunc : (u.span s).line.uncMs = (t.span s).line.uncMs := congrArg Span.uncMs (hline.spans s)
  have hlanes : (u.span s).line.lanes = (t.span s).line.lanes := congrArg Span.lanes (hline.spans s)
  have hlane : u.lane s i = t.lane s i := by
    rw [Device.lane, Device.lane]
    exact congrArg (NMap.getD · i LaneRx.reset) hlanes
  have hfec : u.reg (Off.lathFecUncorr s) = t.reg (Off.lathFecUncorr s) :=
    hline.regs _ (not_movedReg_row s (by decide)) (row_mod_ne s (by decide))
  exact ⟨Eq.trans (b := (t.span s).uncMs) hunc h.uncMs, hfec.trans h.fec, fun e => by rw [hlane]; exact h.aligned e,
    fun e => (hshown e).trans (h.shown e)⟩

theorem modSpan {g : Span → Span} (h : d.Heard s i k t) (hunc : (g (t.span w)).uncMs = (t.span w).uncMs)
    (hlanes : (g (t.span w)).lanes = (t.span w).lanes) : d.Heard s i k (t.modSpan w g) := by
  have hspan : ((t.modSpan w g).span s).uncMs = (t.span s).uncMs ∧ ((t.modSpan w g).span s).lanes = (t.span s).lanes := by
    by_cases hw : s = w
    · subst hw
      rw [Device.span_modSpan_self]
      exact ⟨hunc, hlanes⟩
    · rw [Device.span_modSpan_other _ _ hw]
      exact ⟨rfl, rfl⟩
  refine ⟨hspan.1.trans h.uncMs, h.fec, fun e => ?_, h.shown⟩
  rw [Device.lane, hspan.2, ← Device.lane]
  exact h.aligned e

theorem modLane {g : LaneRx → LaneRx} (h : d.Heard s i k t)
    (hg : k = true → (g (t.lane s i)).inFrame = (t.lane s i).inFrame ∧ (g (t.lane s i)).phase = (t.lane s i).phase) :
    d.Heard s i k (t.modLane s i g) := by
  unfold Device.modLane
  refine ⟨?_, h.fec, fun e => ?_, h.shown⟩
  · rw [Device.span_modSpan_self]
    exact h.uncMs
  · rw [Device.lane, Device.span_modSpan_self, NMap.getD_set_self, (hg e).1, (hg e).2]
    exact h.aligned e

theorem setReg {off v : Nat} (h : d.Heard s i k t) (hfec : Off.lathFecUncorr s ≠ off) (hstatus : Off.lathStatus s ≠ off) :
    d.Heard s i k (t.setReg off v) :=
  ⟨h.uncMs, (t.reg_setReg_other v hfec).trans h.fec, h.aligned, fun e => (Device.flag_congr (t.reg_setReg_other v hstatus)).trans (h.shown e)⟩

theorem bump {off : Nat} (h : d.Heard s i k t) (hfec : Off.lathFecUncorr s ≠ off) (hstatus : Off.lathStatus s ≠ off) :
    d.Heard s i k (t.bump off n) := h.setReg hfec hstatus

theorem setDefect (h : d.Heard s i k t) (hs : s < 32) (hn : n < 31) (hi : k = true → i < 31 ∧ i ≠ n) : d.Heard s i k (t.setDefect s n b) :=
  h.line ((Device.LineKept.refl t).setDefect hs) fun e => Device.flag_setDefect_other hs (by omega) (hi e).1 (hi e).2

theorem lwClear (h : d.Heard s i k t) (hs : s < 32) (hi : i < 30) : d.Heard s i k (t.lwClear s) :=
  h.line ((Device.LineKept.refl t).lwClear hs) fun _ => Device.flag_lwClear hs hi

theorem lwSet (h : d.Heard s i k t) (hs : s < 32) (hi : i < 30) : d.Heard s i k (t.lwSet s) :=
  h.line ((Device.LineKept.refl t).lwSet hs) fun _ => Device.flag_lwSet hs hi

theorem apsLook (h : d.Heard s i k t) (hs : s < 32) : d.Heard s i k (t.apsLook s) :=
  h.line ((Device.LineKept.refl t).apsLook hs) fun _ => Device.flag_apsLook hs

/-! ### The frame's parts (R316, R319, R330) -/

section parts
variable (h : d.Heard s i k t) (hs : s < 32) (hi : i < 8)
include h

theorem checkBip : d.Heard s i k (t.checkBip s i raw f) := by
  unfold Device.checkBip
  exact (Device.Heard.modSpan (h.bump (row_ne s _ (by decide)) (row_ne s _ (by decide))) rfl rfl).modLane fun _ => ⟨rfl, rfl⟩

include hs hi

theorem laneContainer {c : List DWord} {more : Nat} : d.Heard s i k (t.laneContainer s i c more) := by
  unfold Device.laneContainer
  split
  · exact (h.modSpan rfl rfl).setDefect hs (by omega) fun _ => by omega
  · exact h.modSpan rfl rfl

theorem collect {ws : List DWord} {start : Nat} : d.Heard s i k (t.collect s i start ws) := by
  unfold Device.collect
  extract_lets x head t₁ rest t₂
  have h₁ : d.Heard s i k t₁ := by
    unfold t₁
    split
    · split
      · exact h.laneContainer hs hi
      · exact h
    · exact h
  have h₂ : d.Heard s i k t₂ := by
    unfold t₂
    split
    · exact h₁.laneContainer hs hi
    · exact h₁
  split
  · exact h₁.modLane fun _ => ⟨rfl, rfl⟩
  · exact h₂.modLane fun _ => ⟨rfl, rfl⟩

theorem pointer : d.Heard s i k (t.pointer s i f) := by
  unfold Device.pointer
  extract_lets x w2 ptr maj st okStuff t₁ shown predicted agrees run next t₂ valid bad start t₃ t₄
  have h₁ : d.Heard s i k t₁ := by
    unfold t₁
    split
    · exact h.bump (row_ne s _ (by decide)) (row_ne s _ (by decide))
    · split
      · exact h.bump (row_ne s _ (by decide)) (row_ne s _ (by decide))
      · exact h
  have h₂ : d.Heard s i k t₂ := h₁.modLane fun _ => ⟨rfl, rfl⟩
  have h₃ : d.Heard s i k t₃ := by
    unfold t₃
    clear_value start
    split
    · exact (h₁.collect hs hi).modLane fun _ => ⟨rfl, rfl⟩
    · exact h₁
  have h₄ : d.Heard s i k t₄ := h₃.modLane fun _ => ⟨rfl, rfl⟩
  split
  · split
    · exact h₂.setDefect hs (by omega) fun _ => by omega
    · exact h₂
  · split
    · exact (Device.Heard.modLane h₄ fun _ => ⟨rfl, rfl⟩).setDefect hs (by omega) fun _ => by omega
    · exact h₄

theorem overhead0 : d.Heard s i k (t.overhead0 s f) := by
  unfold Device.overhead0
  extract_lets w3 w4 fcnt r t₁ rdi run t₂ t₃ t₄ bytes t₅ tr t₆ same x t₇
  have h₁ : d.Heard s i k t₁ := by
    unfold t₁
    split
    · exact h
    · split
      · exact h
      · extract_lets x run v
        have hv : d.Heard s i k v := h.modSpan rfl rfl
        split
        · have hne (w : Nat) : Off.lathFecUncorr s ≠ Off.lathApsStatus w ∧ Off.lathStatus s ≠ Off.lathApsStatus w :=
            ⟨row_ne s w (by decide), row_ne s w (by decide)⟩
          exact hv.setReg (hne _).1 (hne _).2
        · exact hv
  have h₂ : d.Heard s i k t₂ := h₁.modSpan rfl rfl
  have h₃ : d.Heard s i k t₃ := by
    unfold t₃
    split
    · exact h₂.setDefect hs (by omega) fun _ => by omega
    · exact h₂
  have h₄ : d.Heard s i k t₄ := by
    unfold t₄
    split
    · exact h₃.lwSet hs (by omega)
    · exact h₃
  have h₅ : d.Heard s i k t₅ := h₄.modSpan rfl rfl
  split
  · exact h₅
  · have h₆ : d.Heard s i k t₆ := by
      refine List.foldlRecOn (motive := d.Heard s i k) _ _ h₅ fun u hu n hn => ?_
      obtain ⟨hfec, hstatus⟩ := lathTraceRx_ne s (List.mem_range.mp hn)
      exact hu.setReg hfec hstatus
    have h₇ : d.Heard s i k t₇ := h₆.modSpan rfl rfl
    split
    · exact h₇.setDefect hs (by omega) fun _ => by omega
    · split
      · exact h₇.setDefect hs (by omega) fun _ => by omega
      · exact h₇

end parts

theorem checkFaw (h : d.Heard s i false t) (hs : s < 32) (hi : i < 8) : d.Heard s i false (t.checkFaw s i word) := by
  unfold Device.checkFaw
  extract_lets run v
  split
  · exact h.modLane nofun
  · have hv : d.Heard s i false v := h.modLane nofun
    exact hv.setDefect hs (by omega) nofun

theorem hunt (h : d.Heard s i false t) (hs : s < 32) (hi : i < 8) : d.Heard s i false (t.hunt s i phase word) := by
  unfold Device.hunt
  extract_lets x exact_ n v
  split
  · exact h.modLane nofun
  · split
    · have hv : d.Heard s i false v := h.modLane nofun
      exact hv.setDefect hs (by omega) nofun
    · split
      · exact h
      · exact h.modLane nofun

end Device.Heard

/-! ### A frame (R315, R318) -/

/-- What a frame in step does: its BIP, overhead and pointer, LOF, and a look at the group. -/
def Device.readFrame (d : Device) (s i : Nat) (raw : List DWord) : Device :=
  let x := d.lane s i
  let f := scramble raw
  let d := d.checkBip s i raw f
  let d := if i = 0 then d.overhead0 s f else d
  let d := d.pointer s i f
  let hold := 1000000 * max 1 (d.fld (Off.lathDefCfg s) 23 16)
  let d := if d.flag (Off.lathStatus s) (8 + i) && decide (x.since + hold ≤ d.transit) then
      (d.setDefect s (8 + i) false).lwClear s else d
  d.apsLook s

/-- The frame's uncorrectable codewords are counted (R315). -/
def Device.countUncorr (d : Device) (s uncorr : Nat) : Device :=
  (d.bump (Off.lathFecUncorr s) uncorr).modSpan s fun q => { q with uncMs := q.uncMs + uncorr }

/-- The frame's alignment word is looked at (R318). -/
def Device.align (d : Device) (s i phase : Nat) (word : DWord) : Device :=
  if (d.lane s i).inFrame then (if phase = (d.lane s i).phase then d.checkFaw s i word else d) else d.hunt s i phase word

theorem Device.Heard.readFrame (h : d.Heard s i k t) (hs : s < 32) (hi : i < 8) : d.Heard s i k (t.readFrame s i raw) := by
  unfold Device.readFrame
  extract_lets x f t₁ t₂ t₃ hold t₄
  have h₁ : d.Heard s i k t₁ := h.checkBip
  have h₂ : d.Heard s i k t₂ := by
    unfold t₂
    split
    · exact h₁.overhead0 hs hi
    · exact h₁
  have h₃ : d.Heard s i k t₃ := h₂.pointer hs hi
  refine Device.Heard.apsLook ?_ hs
  unfold t₄
  split
  · exact (h₃.setDefect hs (by omega) fun _ => by omega).lwClear hs (by omega)
  · exact h₃

theorem Device.Heard.align (h : d.Heard s i false t) (hs : s < 32) (hi : i < 8) : d.Heard s i false (t.align s i phase word) := by
  unfold Device.align
  split
  · split
    · exact h.checkFaw hs hi
    · exact h
  · exact h.hunt hs hi

/-- The third exact alignment word in a row at a phase puts the lane in frame. -/
theorem Device.align_third (hs : s < 32) (hi : i < 8) (hhunt : (d.lane s i).inFrame = false) (hcands : NMap.getD (d.lane s i).cands phase 0 = 2)
    (hword : word = BitVec.ofNat 64 faw) :
    ((d.align s i phase word).lane s i).inFrame = true ∧ ((d.align s i phase word).lane s i).phase = phase ∧
      (d.align s i phase word).flag (Off.lathStatus s) i = false := by
  have hexact : (!(word.toNat == faw)) = false := by
    subst hword
    decide
  unfold Device.align Device.hunt
  simp only [hhunt, hcands, hexact, Bool.false_eq_true, if_false, if_true]
  generalize ht : d.modLane s i _ = t
  have hkept : t.LineKept (t.setDefect s i false) := (Device.LineKept.refl t).setDefect hs
  have hlanes : ((t.setDefect s i false).span s).line.lanes = (t.span s).line.lanes := congrArg Span.lanes (hkept.spans s)
  have hlane : (t.setDefect s i false).lane s i = t.lane s i := by
    rw [Device.lane, Device.lane]
    exact congrArg (NMap.getD · i LaneRx.reset) hlanes
  refine ⟨?_, ?_, Device.flag_setDefect_self hs (by omega)⟩
  · rw [hlane, ← ht, Device.modLane, Device.lane, Device.span_modSpan_self, NMap.getD_set_self]
  · rw [hlane, ← ht, Device.modLane, Device.lane, Device.span_modSpan_self, NMap.getD_set_self]

section receive
variable (hs : s < 32) (hen : d.spanEn s = true) (hok : d.domainOk 8 s = true) (hlane : i < d.spanL s) (hraw : raw.length = 2570)
include hen hok hlane hraw

theorem Device.lathFrameReceive_eq : d.lathFrameReceive s i phase raw uncorr =
    let t := (d.countUncorr s uncorr).align s i phase (raw.headD 0)
    if !(t.lane s i).inFrame || phase ≠ (t.lane s i).phase then t else t.readFrame s i raw := by
  have hin : (!d.spanEn s || d.spanL s ≤ i || raw.length ≠ 2570 || !d.domainOk 8 s) = false := by
    simp [hen, hok, hlane, hraw]
  unfold Device.lathFrameReceive
  rw [if_neg (by rw [hin]; decide)]
  rfl

include hs

theorem Device.lathFrameReceive_heard : (d.countUncorr s uncorr).Heard s i false (d.lathFrameReceive s i phase raw uncorr) := by
  have hi : i < 8 := Nat.lt_of_lt_of_le hlane (d.spanL_le s)
  have halign := (Device.Heard.refl s i false (d.countUncorr s uncorr)).align (phase := phase) (word := raw.headD 0) hs hi
  rw [Device.lathFrameReceive_eq hen hok hlane hraw]
  extract_lets t
  split
  · exact halign
  · exact halign.readFrame hs hi

theorem Device.lathFrameReceive_third (hhunt : (d.lane s i).inFrame = false) (hcands : NMap.getD (d.lane s i).cands phase 0 = 2)
    (hword : raw.headD 0 = BitVec.ofNat 64 faw) :
    ((d.lathFrameReceive s i phase raw uncorr).lane s i).inFrame = true ∧ ((d.lathFrameReceive s i phase raw uncorr).lane s i).phase = phase ∧
      (d.lathFrameReceive s i phase raw uncorr).flag (Off.lathStatus s) i = false := by
  have hi : i < 8 := Nat.lt_of_lt_of_le hlane (d.spanL_le s)
  have hcount : (d.countUncorr s uncorr).lane s i = d.lane s i := by
    unfold Device.countUncorr
    rw [Device.lane, Device.span_modSpan_self]
    rfl
  rw [← hcount] at hhunt hcands
  obtain ⟨hframe, hphase, hshown⟩ := Device.align_third hs hi hhunt hcands hword
  rw [Device.lathFrameReceive_eq hen hok hlane hraw]
  generalize (d.countUncorr s uncorr).align s i phase (raw.headD 0) = t at hframe hphase hshown
  dsimp only
  split
  · exact ⟨hframe, hphase, hshown⟩
  · have hread : t.Heard s i true (t.readFrame s i raw) := (Device.Heard.refl s i true t).readFrame hs hi
    obtain ⟨hframe', hphase'⟩ := hread.aligned rfl
    exact ⟨hframe'.trans hframe, hphase'.trans hphase, (hread.shown rfl).trans hshown⟩

end receive

end Sys2Proof.Machine
end

section
set_option Elab.async false
/-! PROOFS. Lath frames on the line, and the defects of a span (R315, R318, R321, R322, R330, R334). -/

namespace Sys2Proof.Machine

theorem Device.lathFrameReceive_counts {d : Device} {s i phase uncorr : Nat} {raw : List DWord} (hs : s < 32) (hen : d.spanEn s = true)
    (hok : d.domainOk 8 s = true) (hlane : i < d.spanL s) (hraw : raw.length = 2570) :
    (d.lathFrameReceive s i phase raw uncorr).reg (Off.lathFecUncorr s) = sat32 (d.reg (Off.lathFecUncorr s) + uncorr) ∧
      ((d.lathFrameReceive s i phase raw uncorr).span s).uncMs = (d.span s).uncMs + uncorr := by
  have hheard : (d.countUncorr s uncorr).Heard s i false (d.lathFrameReceive s i phase raw uncorr) :=
    Device.lathFrameReceive_heard hs hen hok hlane hraw
  refine ⟨hheard.fec.trans (d.reg_bump_self _ _), hheard.uncMs.trans ?_⟩
  unfold Device.countUncorr
  rw [Device.span_modSpan_self]
  rfl

theorem Device.containerAssemble_shows {d : Device} {s : Nat} {h : RxContainer} {rest : List RxContainer} (hs : s < 32)
    (hset : d.firstSet s = some (h :: rest)) :
    (((d.containerAssemble s).apsLook s).span s).kept = ((d.span s).kept ++ [d.assembledFrom s h rest]).drop ((d.span s).kept.length - 7) ∧
      (((d.containerAssemble s).apsLook s).span s).badCseq = 0 ∧
      (((d.containerAssemble s).apsLook s).span s).goodCont = (d.span s).goodCont + 1 := by
  have hline := Device.containerAssemble_line hs hset
  generalize (d.containerAssemble s).apsLook s = t at hline
  have hkept : (t.span s).line = ((d.span s).keeps (d.assembledFrom s h rest) (h :: rest)).line := by
    rw [hline.spans s, Device.span_modSpan_self]
  have hkept₁ : (t.span s).line.kept = _ := congrArg Span.kept hkept
  have hkept₂ : (t.span s).line.badCseq = _ := congrArg Span.badCseq hkept
  have hkept₃ : (t.span s).line.goodCont = _ := congrArg Span.goodCont hkept
  exact ⟨hkept₁, hkept₂, hkept₃⟩

/-- Settles O20: what a received frame and a set of containers leave shows in the span after the defects they declare and the look at its
group, neither of which touches the span's line. -/
theorem lathFramesAndDefects : Obligations.LathFramesAndDefects := by
  unfold Obligations.LathFramesAndDefects
  refine ⟨?counts, ?aligned, ?assembled, ?sends, ?sf, ?sfClean, ?sd, ?sdClean, ?lof, ?wtr⟩
  case counts =>
    intro span lane phase words uncorr d w hen hok hlane hwords
    exact runs_of_exec (exec_to rfl rfl) (Device.lathFrameReceive_counts span.isLt hen hok hlane hwords)
  case aligned =>
    intro span lane phase words uncorr d w hen hok hlane hwords hhunt hcands hfaw
    exact runs_of_exec (exec_to rfl rfl) (Device.lathFrameReceive_third span.isLt hen hok hlane hwords hhunt hcands hfaw)
  case assembled =>
    intro span h hs d w hset
    exact runs_of_exec (exec_to rfl rfl) (Device.containerAssemble_shows span.isLt hset)
  case sends =>
    intro span stuffs d w hen hok hprot hsq hpartner
    obtain ⟨hcseq, hfcnt, hout⟩ := d.containerSend_shows (stuffs := stuffs) span.isLt hen hok hprot hsq hpartner
    refine runs_of_exec (exec_to rfl rfl) ⟨hcseq, hfcnt, List.all_eq_true.mpr fun i hi => ?_⟩
    exact beq_iff_eq.mpr (hout i (List.mem_range.mp hi))
  case sf =>
    intro span d w hen hover
    exact runs_of_exec (exec_to rfl rfl) (Device.sfPeriod_over span.isLt hen hover)
  case sfClean =>
    intro span d w hen hclean hten
    exact runs_of_exec (exec_to rfl rfl) (Device.sfPeriod_clean span.isLt hen hclean hten)
  case sd =>
    intro span d w hen hover
    exact runs_of_exec (exec_to rfl rfl) (Device.sdPeriod_over span.isLt hen hover)
  case sdClean =>
    intro span d w hen hclean hten
    exact runs_of_exec (exec_to rfl rfl) (Device.sdPeriod_clean span.isLt hen hclean hten)
  case lof =>
    intro span lane d w hen hlane hoof hheld
    exact runs_of_exec (exec_to rfl rfl) (Device.lof_declared span.isLt hen hlane hoof hheld)
  case wtr =>
    intro span x d w hwtr hdue hbad
    have hexpired : d.wtrExpiry span = (d.modSpan span fun q => { q with wtr := none }).apsLook span := by
      unfold Device.wtrExpiry
      simp only [hwtr, hdue, if_true]
    refine runs_of_exec (exec_to rfl hexpired) (Device.apsLook_wtr span.isLt ?_ ?_)
    · rw [Device.span_modSpan_self]
    · rw [Device.span_modSpan_self]
      exact hbad

end Sys2Proof.Machine
end

section
set_option Elab.async false
/-! PROOFS. Ready lists, and the threads that take their heads (R376 to R384). -/

namespace Sys2Proof.Machine

variable {d t : Device} {e k l m n c i id since : Nat} {q rest : List ReadyItem} {st : ThrState} {x : Task} {y : Copy} {fr : Frame}

/-! ### Ready lists (R376, R377, R465) -/

theorem Device.readyList_congr (h : t.scaf = d.scaf) (l : Nat) : t.readyList l = d.readyList l := by
  rw [Device.readyList, h, ← Device.readyList]

theorem Device.readyList_setReady_self (d : Device) (l : Nat) (q : List ReadyItem) : (d.setReady l q).readyList l = q := by
  cases q with
  | nil => exact congrArg (Option.getD · []) (NMap.get?_del_self ..)
  | cons i q => exact congrArg (Option.getD · []) (NMap.get?_set_self ..)

theorem Device.readyList_setReady_other (d : Device) {l m : Nat} (q : List ReadyItem) (h : m ≠ l) : (d.setReady l q).readyList m = d.readyList m := by
  cases q with
  | nil => exact congrArg (Option.getD · []) (NMap.get?_del_other _ h)
  | cons i q => exact congrArg (Option.getD · []) (NMap.get?_set_other _ _ h)

theorem Device.scaf_engineWake (d : Device) : d.engineWake.scaf = d.scaf := by
  unfold Device.engineWake
  extract_lets push pull
  split
  · refine List.foldlRecOn (motive := fun u : Device => u.scaf = d.scaf) _ _ rfl fun u hu e _ => ?_
    split
    · exact hu
    · exact hu
  · rfl

theorem Device.copy_engineWake (d : Device) (c : Nat) : d.engineWake.copy c = d.copy c := by
  unfold Device.engineWake
  extract_lets push pull
  split
  · refine List.foldlRecOn (motive := fun u : Device => u.copy c = d.copy c) _ _ rfl fun u hu e _ => ?_
    split
    · exact hu
    · exact hu
  · rfl

theorem Device.readyList_addReady_self (d : Device) (l : Nat) (i : WorkItem) :
    (d.addReady l i).readyList l = d.readyList l ++ [⟨i, d.transit⟩] :=
  (Device.readyList_congr (Device.scaf_engineWake _) l).trans (d.readyList_setReady_self l _)

theorem Device.readyList_addReady_other (d : Device) (i : WorkItem) (h : m ≠ l) : (d.addReady l i).readyList m = d.readyList m :=
  (Device.readyList_congr (Device.scaf_engineWake _) m).trans (d.readyList_setReady_other _ h)

theorem Device.pullAge_moved {a : ReadyItem} (hage : d.fld Off.scafPullAge 15 0 ≠ 0) (hl : l < 11)
    (hi : i = (d.readyList l).findIdx fun a => decide (a.since + 1000000 * d.fld Off.scafPullAge 15 0 ≤ d.transit))
    (ha : (d.readyList l)[i]? = some a) :
    (d.pullAge l).readyList l = (d.readyList l).eraseIdx i ∧
      (d.pullAge l).readyList (l + 1) = d.readyList (l + 1) ++ [⟨a.item, d.transit⟩] := by
  subst hi
  unfold Device.pullAge
  simp only [hage, Nat.not_le.mpr hl, or_self, if_false, ha]
  refine ⟨?_, ?_⟩
  · rw [Device.readyList_addReady_other _ _ (by omega), Device.readyList_setReady_self]
  · rw [Device.readyList_addReady_self, Device.readyList_setReady_other _ _ (by omega)]
    rfl

/-! ### The head of a port-513 queue (R376, R396) -/

theorem Device.scaf_dropPunt (d : Device) (c off : Nat) : (d.dropPunt c off).scaf = d.scaf := by
  unfold Device.dropPunt
  split
  · rfl
  · split
    · exact ((Device.Clear.refl true _).dropCopy).1
    · exact ((Device.Clear.refl true _).dropCopy).1

/-- A frame that becomes no task leaves and is counted. -/
theorem Device.dropPunt_counted {off : Nat} (hc : d.copy c = some y) (hf : (d.frame y.frame).isSome = true) (hoff : ¬movedReg off) :
    (d.dropPunt c off).copy c = none ∧ (d.dropPunt c off).reg off = sat32 (d.reg off + 1) := by
  obtain ⟨fr, hfr⟩ := Option.isSome_iff_exists.mp hf
  unfold Device.dropPunt
  simp only [hc, hfr]
  refine ⟨Device.copy_dropCopy .., ?_⟩
  rw [(Device.Worked.refl false true _).dropCopy.reg hoff]
  exact d.reg_bump_self off 1

section punt
variable {pipe a : Nat} {cs : List Nat} (hq : d.voq pipe 513 (voqCls 513 0) = c :: cs) (hc : d.copy c = some y)
include hq hc

theorem Device.puntArrival_listed (hentry : d.dispatchEntry (vecN y.m 7 % 256) = some (l, a)) (hn : vecN y.m 7 % 256 < 128)
    (hshed : d.shed < 2 ∨ 12 ≤ l) (hroom : d.workListed < 32768) :
    (d.puntArrival pipe).readyList l = d.readyList l ++ [⟨.punt c (vecN y.m 7 % 256), d.transit⟩] ∧
      (((d.puntArrival pipe).copy c).any fun z => z.stage == .selected) = true := by
  have hserved : ¬(d.shed ≥ 2 ∧ l < 12) := by omega
  unfold Device.puntArrival
  simp only [hq, hc, hentry, Nat.not_le.mpr hn, hserved, Nat.not_le.mpr hroom, if_false]
  refine ⟨Device.readyList_addReady_self .., ?_⟩
  have hcopy (u : Device) (i : WorkItem) : (u.addReady l i).copy c = u.copy c := Device.copy_engineWake _ c
  rw [hcopy, Device.copy_modCopy_self]
  generalize hu : d.modBuf _ = u
  have hcu : u.copy c = some y := by
    rw [← hu]
    exact hc
  rw [hcu]
  rfl

theorem Device.puntArrival_noEntry (hentry : d.dispatchEntry (vecN y.m 7 % 256) = none ∨ 128 ≤ vecN y.m 7 % 256) :
    d.puntArrival pipe = d.dropPunt c Off.scafNoEntry := by
  unfold Device.puntArrival
  simp only [hq, hc]
  split
  · rfl
  · next a ha =>
    have hn : 128 ≤ vecN y.m 7 % 256 := hentry.resolve_left (by rw [ha]; exact Option.some_ne_none _)
    rw [if_pos hn]

theorem Device.puntArrival_shed (hentry : d.dispatchEntry (vecN y.m 7 % 256) = some (l, a)) (hn : vecN y.m 7 % 256 < 128)
    (hshed : 2 ≤ d.shed) (hl : l < 12) : d.puntArrival pipe = d.dropPunt c Off.scafShedDrop := by
  unfold Device.puntArrival
  simp only [hq, hc, hentry, Nat.not_le.mpr hn, if_false]
  rw [if_pos ⟨hshed, hl⟩]

end punt

/-! ### A thread takes a task (R369, R370, R379, R380) -/

/-- The thread k of `t` is at work on a task as `st` says. -/
def Device.At (t : Device) (k id : Nat) (st : ThrState) : Prop := (t.thr k).state = st ∧ (t.thr k).task = some id

theorem Device.scaf_holdTask (d : Device) (e j id : Nat) (st : ThrState) :
    (d.holdTask e j id st).scaf =
      { d.scaf with
        threads := NMap.set d.scaf.threads (thrKey e j) ⟨st, some id, d.scaf.stamp, false, false, false⟩
        stamp := d.scaf.stamp + 1
        freed := d.scaf.freed.filter (· ≠ thrKey e j) } := by
  unfold Device.holdTask
  extract_lets t u v
  have hv : v.scaf = u.scaf := by
    unfold v
    split <;> rfl
  exact hv

/-- A thread that takes a task leaves the tasks and the lists as they are. -/
theorem Device.holdTask_at (d : Device) (e j id : Nat) (st : ThrState) :
    (d.holdTask e j id st).At (thrKey e j) id st ∧ (∀ l, (d.holdTask e j id st).readyList l = d.readyList l) ∧
      ∀ i, (d.holdTask e j id st).task i = d.task i := by
  have hthr : (d.holdTask e j id st).thr (thrKey e j) = ⟨st, some id, d.scaf.stamp, false, false, false⟩ := by
    rw [Device.thr, Device.scaf_holdTask, NMap.get?_set_self]
    rfl
  refine ⟨⟨congrArg Thread.state hthr, congrArg Thread.task hthr⟩, fun l => ?_, fun i => ?_⟩
  · rw [Device.readyList, Device.scaf_holdTask]
    rfl
  · rw [Device.task, Device.scaf_holdTask]
    rfl

theorem Device.resumeTask_at (d : Device) (e j id : Nat) :
    (d.resumeTask e j id).At (thrKey e j) id .running ∧ (∀ l, (d.resumeTask e j id).readyList l = d.readyList l) ∧
      (d.resumeTask e j id).task id = (d.task id).map (fun x => { x with at_ := .thread e j, since := d.transit }) ∧
      ∀ i, i ≠ id → (d.resumeTask e j id).task i = d.task i := by
  unfold Device.resumeTask
  obtain ⟨hat, hready, htask⟩ := Device.holdTask_at (d.modTask id fun x => { x with at_ := .thread e j, since := d.transit }) e j id .running
  exact ⟨hat, fun l => hready l, (htask id).trans (Device.task_modTask_self ..), fun i hi => (htask i).trans (Device.task_modTask_other _ _ hi)⟩

theorem Device.dispatchLevel_task {j : Nat} (hq : d.readyList l = ⟨.task id, since⟩ :: rest) :
    d.dispatchLevel e j l = (d.setReady l rest).resumeTask e j id := by
  rw [Device.dispatchLevel, hq]

theorem Device.dispatchLevel_tick {j : Nat} (hq : d.readyList l = ⟨.tick n, since⟩ :: rest) :
    d.dispatchLevel e j l = (d.setReady l rest).startTick e j l n := by
  rw [Device.dispatchLevel, hq]

theorem Device.dispatchLevel_punt {j : Nat} (hq : d.readyList l = ⟨.punt c n, since⟩ :: rest) :
    d.dispatchLevel e j l = (d.setReady l rest).startPunt e j l c n := by
  rw [Device.dispatchLevel, hq]

/-- A saved task at the head of a list goes to the thread. -/
theorem Device.dispatchLevel_resumes {j : Nat} (hq : d.readyList l = ⟨.task id, since⟩ :: rest) :
    (d.dispatchLevel e j l).At (thrKey e j) id .running ∧ (d.dispatchLevel e j l).readyList l = rest ∧
      (∀ m, m ≠ l → (d.dispatchLevel e j l).readyList m = d.readyList m) ∧
      (d.dispatchLevel e j l).task id = (d.task id).map (fun x => { x with at_ := .thread e j, since := d.transit }) := by
  rw [Device.dispatchLevel_task hq]
  obtain ⟨hat, hready, htask, -⟩ := (d.setReady l rest).resumeTask_at e j id
  refine ⟨hat, (hready l).trans (Device.readyList_setReady_self ..), fun m hm => (hready m).trans (Device.readyList_setReady_other _ _ hm), htask⟩

/-- The page a new task takes is free. -/
theorem Device.freePage_free (h : d.freePage l = some id) : d.task id = none ∧ id < 512 := by
  obtain ⟨hfree, hmem⟩ := And.intro (List.find?_some h) (List.mem_of_find?_eq_some h)
  have hlt : id < 512 := by
    have hmem := List.mem_range.mp hmem
    split at hmem <;> omega
  exact ⟨Option.isNone_iff_eq_none.mp hfree, hlt⟩

theorem Device.writeHeader_kept (d : Device) (id len reason created : Nat) (x : Task) :
    (∀ l, (d.writeHeader id x len reason created).readyList l = d.readyList l) ∧
      ∀ i, (d.writeHeader id x len reason created).task i = d.task i := by
  unfold Device.writeHeader
  generalize bytesLE 2 len ++ _ = bs
  exact ⟨fun _ => rfl, fun _ => rfl⟩

/-- A new task on a page, and the thread that takes it. -/
theorem Device.newTask_at (d : Device) (e j id len reason created : Nat) (x : Task) (st : ThrState) :
    (((d.setTask id x).writeHeader id x len reason created).holdTask e j id st).At (thrKey e j) id st ∧
      (∀ l, (((d.setTask id x).writeHeader id x len reason created).holdTask e j id st).readyList l = d.readyList l) ∧
      (((d.setTask id x).writeHeader id x len reason created).holdTask e j id st).task id = some x ∧
      ∀ i, i ≠ id → (((d.setTask id x).writeHeader id x len reason created).holdTask e j id st).task i = d.task i := by
  obtain ⟨hready, htask⟩ := (d.setTask id x).writeHeader_kept id len reason created x
  generalize (d.setTask id x).writeHeader id x len reason created = u at hready htask
  obtain ⟨hat, hready', htask'⟩ := u.holdTask_at e j id st
  exact ⟨hat, fun l => (hready' l).trans (hready l), (htask' id).trans ((htask id).trans (Device.task_setTask_self ..)),
    fun i hi => (htask' i).trans ((htask i).trans (Device.task_setTask_other _ _ hi))⟩

end Sys2Proof.Machine
end

section
set_option Elab.async false
/-! PROOFS. Dispatch, the frame's copy into its page, and pre-emption (R370, R373, R379 to R384). -/

namespace Sys2Proof.Machine

variable {d t : Device} {e j k l m n c i id since a : Nat} {q rest : List ReadyItem} {st : ThrState} {x : Task} {y : Copy} {fr : Frame}

/-! ### New tasks (R370, R373, R380) -/

/-- The task of a due tick: frameless, at its entry's first word, its stack at the end of its page. -/
def Task.ofTick (x : Task) (id l n a : Nat) : Bool :=
  x.frameless && x.regs.pc.toNat == a % 2 ^ 64 && x.regs.sp.toNat == pageBase id + 0x8000 && x.level == l && x.disp == 128 + n

/-- The task of a punt: its frame still to be copied, at its entry's first word. -/
def Task.ofPunt (x : Task) (c l n a : Nat) : Bool :=
  x.frame == some c && x.level == l && x.disp == n && x.regs.pc.toNat == a % 2 ^ 64

theorem startRegs_pc (id a : Nat) (v : Vector Word 16) : (startRegs id a v).pc.toNat = a % 2 ^ 64 := by
  rw [startRegs, BitVec.toNat_ofNat]

theorem startRegs_sp (hid : id < 512) (v : Vector Word 16) : (startRegs id a v).sp.toNat = pageBase id + 0x8000 := by
  rw [startRegs, BitVec.toNat_ofNat]
  exact Nat.mod_eq_of_lt (by unfold pageBase; omega)

theorem Device.startTick_at (hpage : d.freePage l = some id) (hentry : d.dispatchEntry (128 + n) = some (k, a)) :
    (d.startTick e j l n).At (thrKey e j) id .running ∧ (∀ m, (d.startTick e j l n).readyList m = d.readyList m) ∧
      ((d.startTick e j l n).task id).any (·.ofTick id k n a) = true ∧ ∀ i, i ≠ id → (d.startTick e j l n).task i = d.task i := by
  have hid : id < 512 := (Device.freePage_free hpage).2
  unfold Device.startTick
  simp only [hpage, hentry]
  generalize hx : d.blankTask k (128 + n) _ _ = x
  have hnew : x.ofTick id k n a = true := by
    rw [← hx]
    simp only [Task.ofTick, Device.blankTask, startRegs_pc, startRegs_sp hid, beq_self_eq_true, Bool.and_self]
  obtain ⟨hat, hready, htask, hothers⟩ := d.newTask_at e j id 0 0 d.transit x .running
  refine ⟨hat, hready, ?_, hothers⟩
  rw [htask]
  exact hnew

theorem Device.startPunt_at (hc : d.copy c = some y) (hf : d.frame y.frame = some fr) (hbad : fr.bad = false)
    (hpage : d.freePage l = some id) (hentry : d.dispatchEntry n = some (k, a)) :
    (d.startPunt e j l c n).At (thrKey e j) id .pulling ∧ (∀ m, (d.startPunt e j l c n).readyList m = d.readyList m) ∧
      ((d.startPunt e j l c n).task id).any (·.ofPunt c k n a) = true ∧ ∀ i, i ≠ id → (d.startPunt e j l c n).task i = d.task i := by
  unfold Device.startPunt
  simp only [hc, hf, hpage, hbad, Bool.false_eq_true, if_false, hentry]
  generalize hregs : startRegs id a _ = r
  generalize hx : ({ d.blankTask k n (.copying e j) r with
      frame := some c, frameless := false, base := fr.base, edits := y.edits, rxTime := fr.rxTime
      rxTransit := fr.rxTransit, arrTb0 := fr.arrTb0, arrTransit := fr.arrTransit } : Task) = x
  have hnew : x.ofPunt c k n a = true := by
    rw [← hx, ← hregs]
    simp only [Task.ofPunt, Device.blankTask, startRegs_pc, beq_self_eq_true, Bool.and_self]
  obtain ⟨hat, hready, htask, hothers⟩ := d.newTask_at e j id fr.bytes.length n d.transit x .pulling
  generalize ((d.setTask id x).writeHeader id x fr.bytes.length n d.transit).holdTask e j id .pulling = u at hat hready htask hothers
  refine ⟨hat, hready, ?_, hothers⟩
  have hlease : (u.lease 0 7 e y.frame fr.cells).task id = some x := htask
  rw [hlease]
  exact hnew

/-! ### The other tasks -/

/-- The task and the ready lists are as they were. -/
def Device.TaskLeft (d t : Device) (id : Nat) : Prop := t.task id = d.task id ∧ ∀ m, t.readyList m = d.readyList m

theorem Device.TaskLeft.of_scaf (h : t.scaf = d.scaf) (id : Nat) : d.TaskLeft t id := ⟨Device.task_congr h id, Device.readyList_congr h⟩

theorem Device.startTick_left (hid : (d.task id).isSome = true) : d.TaskLeft (d.startTick e j l n) id := by
  unfold Device.startTick
  split
  · next p lv pc hpage hentry =>
    have hne : id ≠ p := by
      rintro rfl
      rw [(Device.freePage_free hpage).1] at hid
      exact absurd hid (by decide)
    obtain ⟨-, hready, -, htask⟩ := d.newTask_at e j p 0 0 d.transit (d.blankTask lv (128 + n) (.thread e j) (startRegs p pc _)) .running
    exact ⟨htask id hne, hready⟩
  · exact .of_scaf rfl id

theorem Device.startPunt_left (hid : (d.task id).isSome = true) : d.TaskLeft (d.startPunt e j l c n) id := by
  unfold Device.startPunt
  split
  · exact .of_scaf rfl id
  · split
    · next y hy fr p hfr hpage =>
      have hne : id ≠ p := by
        rintro rfl
        rw [(Device.freePage_free hpage).1] at hid
        exact absurd hid (by decide)
      split
      · exact .of_scaf (Device.Clear.dropCopy (.refl true _)).1 id
      · split
        · exact .of_scaf (d.scaf_dropPunt c _) id
        · next lv pc hentry =>
          extract_lets m src x
          clear_value x
          obtain ⟨-, hready, -, htask⟩ := d.newTask_at e j p fr.bytes.length n d.transit x .pulling
          generalize ((d.setTask p x).writeHeader p x fr.bytes.length n d.transit).holdTask e j p .pulling = u at hready htask
          exact ⟨htask id hne, hready⟩
    · exact .of_scaf rfl id

/-- What a thread takes leaves the tasks alone that are not the head of the list. -/
theorem Device.dispatchLevel_left (hid : (d.task id).isSome = true) (hnone : ∀ r ∈ d.readyList l, r.item ≠ .task id) :
    (d.dispatchLevel e j l).task id = d.task id ∧ ∀ m, m ≠ l → (d.dispatchLevel e j l).readyList m = d.readyList m := by
  cases hq : d.readyList l with
  | nil =>
    rw [Device.dispatchLevel, hq]
    exact ⟨rfl, fun _ _ => rfl⟩
  | cons r rest =>
    have hset {u : Device} (hu : (d.setReady l rest).TaskLeft u id) : u.task id = d.task id ∧ ∀ m, m ≠ l → u.readyList m = d.readyList m :=
      ⟨hu.1, fun m hm => (hu.2 m).trans (Device.readyList_setReady_other _ _ hm)⟩
    obtain ⟨item, since⟩ := r
    cases item with
    | task i =>
      have hne : id ≠ i := by
        rintro rfl
        exact hnone ⟨.task id, since⟩ (by rw [hq]; exact List.mem_cons_self) rfl
      rw [Device.dispatchLevel_task hq]
      obtain ⟨-, hready, -, htask⟩ := (d.setReady l rest).resumeTask_at e j i
      exact hset ⟨htask id hne, hready⟩
    | tick n =>
      rw [Device.dispatchLevel_tick hq]
      exact hset (Device.startTick_left hid)
    | punt c n =>
      rw [Device.dispatchLevel_punt hq]
      exact hset (Device.startPunt_left hid)

/-! ### Dispatch (R379, R382, R389) -/

/-- Whether the head of a list is a task bound to an engine. -/
def Device.headBound (d : Device) (l : Nat) : Bool :=
  match d.readyList l with
  | ⟨.task id, _⟩ :: _ => (match d.task id with | some x => x.lockEngine.isSome | none => false)
  | _ => false

theorem Device.headBound_task (hq : d.readyList l = ⟨.task id, since⟩ :: rest) (h : (d.task id).any (fun y => y.lockEngine.isSome) = true) :
    d.headBound l = true := by
  cases hx : d.task id with
  | none =>
    rw [hx] at h
    exact absurd h (by decide)
  | some x =>
    rw [hx] at h
    unfold Device.headBound
    simp only [hq, hx]
    exact h

section dispatch
variable (hruns : d.scafRuns = true) (hok : d.domainOk 7 e = true) (hlevel : (d.nextLevel e fun _ => true) = some l)
include hruns hok hlevel

theorem Device.dispatch_level (hfreed : d.scaf.freed.contains (thrKey e j) = true)
    (hturn : (d.scaf.freed.find? fun k => d.domainOk 7 (k / 8)) = some (thrKey e j) ∨ d.headBound l = true) :
    d.dispatch e j = d.dispatchLevel e j l := by
  have hserved : ((d.scaf.freed.find? fun k => d.domainOk 7 (k / 8)) == some (thrKey e j) || d.headBound l) = true := by
    simpa only [Bool.or_eq_true, beq_iff_eq] using hturn
  unfold Device.dispatch
  simp only [hruns, hok, hfreed, hlevel, Bool.not_true, Bool.or_self, Bool.false_eq_true, if_false]
  exact if_pos hserved

/-- The first free thread is served. -/
theorem Device.dispatch_first (hfirst : (d.scaf.freed.find? fun k => d.domainOk 7 (k / 8)) = some (thrKey e j)) :
    d.dispatch e j = d.dispatchLevel e j l :=
  Device.dispatch_level hruns hok hlevel (List.contains_iff_mem.mpr (List.mem_of_find?_eq_some hfirst)) (.inl hfirst)

end dispatch

/-! ### The frame's copy (R373, R379) -/

/-- A task that ends in any way is gone. -/
theorem Device.taskGone_none (d : Device) (id : Nat) : (d.taskGone id).task id = none := by
  unfold Device.taskGone
  split
  · next hnone => exact hnone
  · next x hx =>
    extract_lets u v w
    have hw : w.task id = none := NMap.get?_del_self ..
    split
    · exact ((Device.endThread_free w _).2 id).trans hw
    · exact hw

section copied
variable (hpull : (d.thr (thrKey e j)).state = .pulling) (hthr : (d.thr (thrKey e j)).task = some id) (hx : d.task id = some x)
  (hxc : x.frame = some c) (hc : d.copy c = some y) (hf : d.frame y.frame = some fr)
include hpull hthr hx hxc hc hf

/-- A frame that has been copied stands in its task's page. -/
theorem Device.copyDone_starts (hbad : fr.bad = false) (hdone : fr.done = true) :
    ((d.copyDone e j).thr (thrKey e j)).state = .running ∧ (d.copyDone e j).sram (pageBase id + 0x40) fr.bytes.length = fr.bytes ∧
      (d.copyDone e j).copy c = none ∧
      ((d.copyDone e j).task id).any (fun z => z.at_ == .thread e j && z.len == fr.bytes.length) = true := by
  unfold Device.copyDone
  simp only [hpull, hthr, hx, hxc, Option.bind_some, hc, hf, hbad, hdone, Bool.false_eq_true, if_false, Bool.not_true]
  generalize hz : ({ x with frame := none, at_ := .thread e j, len := fr.bytes.length } : Task) = z
  obtain ⟨-, htask⟩ := (d.setTask id z).writeHeader_kept id fr.bytes.length x.disp x.since z
  generalize (d.setTask id z).writeHeader id z fr.bytes.length x.disp x.since = u at htask
  have hset : u.task id = some z := (htask id).trans (Device.task_setTask_self ..)
  generalize hv : u.setSram _ fr.bytes = v
  have hsram : v.sram (pageBase id + 0x40) fr.bytes.length = fr.bytes := by
    rw [← hv]
    exact Device.sram_setSram_self ..
  have hvtask : v.task id = some z := by
    rw [← hv]
    exact hset
  generalize hw : (v.setThr (thrKey e j) _).unlease 0 y.frame = w
  have hwthr : (w.thr (thrKey e j)).state = .running := by
    rw [← hw]
    have hself (b : Thread) : (v.setThr (thrKey e j) b).thr (thrKey e j) = b := by
      rw [Device.thr]
      exact congrArg (Option.getD · Thread.idle) (NMap.get?_set_self ..)
    exact congrArg Thread.state (hself _)
  have hwkept : w.sram (pageBase id + 0x40) fr.bytes.length = fr.bytes ∧ w.task id = some z := by
    rw [← hw]
    exact ⟨hsram, hvtask⟩
  have hdrop : (w.dropCopy c).scaf = w.scaf := (Device.Clear.dropCopy (.refl true w)).1
  refine ⟨?_, ?_, Device.copy_dropCopy .., ?_⟩
  · rw [Device.thr_congr hdrop]
    exact hwthr
  · rw [Device.sram, hdrop]
    exact hwkept.1
  · rw [Device.task_congr hdrop, hwkept.2, ← hz]
    simp only [Option.any_some, beq_self_eq_true, Bool.and_self]

/-- A frame that has become BAD makes no task. -/
theorem Device.copyDone_bad (hbad : fr.bad = true) : (d.copyDone e j).task id = none ∧ (d.copyDone e j).copy c = none := by
  unfold Device.copyDone
  simp only [hpull, hthr, hx, hxc, Option.bind_some, hc, hf, hbad, if_true]
  refine ⟨?_, Device.copy_dropCopy ..⟩
  exact (Device.task_congr (Device.Clear.dropCopy (.refl true _)).1 id).trans (Device.taskGone_none _ id)

end copied

end Sys2Proof.Machine
end

section
set_option Elab.async false
/-! PROOFS. Push tasks, pre-emption and the work of the scaffold (R369, R376 to R384). -/

namespace Sys2Proof.Machine

variable {d t : Device} {e j k l m n c i id since a : Nat} {q rest : List ReadyItem} {x : Task} {r : ReadyItem}

/-! ### Push tasks (R383) -/

/-- The push tasks that are ready. -/
def Device.pushWaiting (d : Device) : Nat := (d.scaf.ready.filter fun p => Device.isPush p.1).foldl (fun n p => n + p.2.length) 0

theorem Device.pushWaiting_pos (hl : Device.isPush l = true) (hq : d.readyList l = r :: rest) : d.pushWaiting ≠ 0 := by
  have hget : NMap.get? d.scaf.ready l = some (r :: rest) := by
    rw [Device.readyList, NMap.getD] at hq
    cases hg : NMap.get? d.scaf.ready l with
    | none => rw [hg] at hq; exact absurd hq (by simp)
    | some v => rw [hg] at hq; exact congrArg some hq
  have hmem : (l, r :: rest) ∈ d.scaf.ready.filter fun p => Device.isPush p.1 := List.mem_filter.mpr ⟨NMap.mem_of_get? hget, hl⟩
  have hsum : d.pushWaiting = ((d.scaf.ready.filter fun p => Device.isPush p.1).map fun p => p.2.length).sum := by
    rw [List.sum_eq_foldl, List.foldl_map, Device.pushWaiting]
  have hle : (r :: rest).length ≤ d.pushWaiting := hsum ▸ List.le_sum_of_mem (List.mem_map_of_mem hmem)
  rw [List.length_cons] at hle
  omega

theorem Device.nextLevel_isPush (h : d.nextLevel e Device.isPush = some l) : 12 ≤ l := by
  have hfound := List.find?_some h
  rw [Bool.and_eq_true, Bool.and_eq_true] at hfound
  exact of_decide_eq_true hfound.1.1

/-- A task at the head of the level that goes to an engine is there. -/
theorem Device.nextLevel_task {p : Nat → Bool} (h : d.nextLevel e p = some l) (hq : d.readyList l = ⟨.task id, since⟩ :: rest) :
    (d.task id).isSome = true := by
  have hfound := List.find?_some h
  rw [Bool.and_eq_true, hq] at hfound
  have hready : d.itemReady e l (.task id) = true := hfound.2
  unfold Device.itemReady at hready
  rw [Bool.and_eq_true] at hready
  cases hx : d.task id with
  | none =>
    rw [hx] at hready
    exact absurd hready.2 Bool.false_ne_true
  | some x => rfl

/-- A task that stands in no ready list is not in this one. -/
theorem Device.not_listed (h : (d.scaf.ready.any fun p => p.2.any fun r => r.item == .task id) = false) (l : Nat) :
    ∀ r ∈ d.readyList l, r.item ≠ .task id := by
  intro r hr hitem
  rw [Device.readyList, NMap.getD] at hr
  cases hg : NMap.get? d.scaf.ready l with
  | none => rw [hg] at hr; exact absurd hr List.not_mem_nil
  | some v =>
    rw [hg] at hr
    have hany : (d.scaf.ready.any fun p => p.2.any fun r => r.item == .task id) = true :=
      List.any_eq_true.mpr ⟨(l, v), NMap.mem_of_get? hg, List.any_eq_true.mpr ⟨r, hr, beq_iff_eq.mpr hitem⟩⟩
    rw [h] at hany
    exact absurd hany (by decide)

theorem thrKey_div_mod (k : Nat) : thrKey (k / 8) (k % 8) = k := by
  unfold thrKey
  omega

section push
variable (hruns : d.scafRuns = true)
include hruns

/-- A push task that is ready goes to a free thread. -/
theorem Device.pushReady_takes
    (hfree : d.scaf.freed.find? (fun k => d.domainOk 7 (k / 8) && (d.nextLevel (k / 8) Device.isPush).isSome) = some k)
    (hlevel : d.nextLevel (k / 8) Device.isPush = some l) (hq : d.readyList l = r :: rest) :
    d.pushReady = d.dispatchLevel (k / 8) (k % 8) l := by
  have hwaiting : (decide (d.pushWaiting = 0) || !d.scafRuns) = false := by
    rw [hruns, decide_eq_false (Device.pushWaiting_pos (decide_eq_true (Device.nextLevel_isPush hlevel)) hq)]
    rfl
  unfold Device.pushReady
  extract_lets waiting coming
  rw [if_neg (by rw [show waiting = d.pushWaiting from rfl, hwaiting]; decide)]
  simp only [hfree, hlevel]

/-- Where no thread is free it interrupts a victim. -/
theorem Device.pushReady_interrupts (hmore : (d.scaf.threads.filter fun p => p.2.interrupt && !p.2.spent).length < d.pushWaiting)
    (hnone : d.scaf.freed.find? (fun k => d.domainOk 7 (k / 8) && (d.nextLevel (k / 8) Device.isPush).isSome) = none)
    (hvictim : d.victim = some k) : d.pushReady = d.setThr k { d.thr k with interrupt := true } := by
  have hwaiting : (decide (d.pushWaiting = 0) || !d.scafRuns) = false := by
    rw [hruns, decide_eq_false (by omega)]
    rfl
  unfold Device.pushReady
  extract_lets waiting coming
  rw [if_neg (by rw [show waiting = d.pushWaiting from rfl, hwaiting]; decide)]
  simp only [hnone, hvictim]
  exact if_neg (Nat.not_le.mpr hmore)

end push

theorem Device.thr_setThr_self (d : Device) (k : Nat) (b : Thread) : (d.setThr k b).thr k = b := by
  rw [Device.thr]
  exact congrArg (Option.getD · Thread.idle) (NMap.get?_set_self ..)

/-! ### Pre-emption (R384) -/

theorem Device.endThread_kept (d : Device) (k : Nat) :
    (∀ l, (d.endThread k).readyList l = d.readyList l) ∧ (d.endThread k).scaf.freed.contains k = true := by
  have hfreed : ((d.scaf.freed.filter (· ≠ k)) ++ [k]).contains k = true :=
    List.contains_iff_mem.mpr (List.mem_append_right _ (List.mem_singleton_self k))
  unfold Device.endThread
  extract_lets t
  split
  · exact ⟨fun _ => rfl, hfreed⟩
  · exact ⟨fun _ => rfl, hfreed⟩

/-- A task that is given up for a push task. -/
def Device.ceded (d : Device) (x : Task) : Task := { x with at_ := .ready, ran := x.ran + (d.transit - x.since) }

/-- The device once a thread has given its task up. -/
def Device.cede (d : Device) (e k id : Nat) (x : Task) : Device :=
  let d := (d.occTask 0x602 e x).unlease 3 id
  let d := d.modTask id fun x => { x with at_ := .ready, ran := x.ran + (d.transit - x.since) }
  (d.setReady x.level (⟨.task id, d.transit⟩ :: d.readyList x.level)).endThread k

theorem Device.cede_task (hx : d.task id = some x) : (d.cede e k id x).task id = some (d.ceded x) := by
  unfold Device.cede
  extract_lets u v
  have hv : v.task id = (u.task id).map _ := Device.task_modTask_self ..
  refine ((Device.endThread_free _ k).2 id).trans (hv.trans ?_)
  rw [show u.task id = d.task id from rfl, hx]
  rfl

theorem Device.cede_readyList : (d.cede e k id x).readyList x.level = ⟨.task id, d.transit⟩ :: d.readyList x.level :=
  ((Device.endThread_kept _ k).1 _).trans (Device.readyList_setReady_self ..)

theorem Device.cede_readyList_other (hm : m ≠ x.level) : (d.cede e k id x).readyList m = d.readyList m :=
  ((Device.endThread_kept _ k).1 _).trans (Device.readyList_setReady_other _ _ hm)

section preempt
variable (hrun : (d.thr (thrKey e j)).state = .running) (hint : (d.thr (thrKey e j)).interrupt = true)
  (hbound : (d.thr (thrKey e j)).bound = true) (hspent : (d.thr (thrKey e j)).spent = false) (hthr : (d.thr (thrKey e j)).task = some id)
  (hx : d.task id = some x) (hlevel : x.level < 12)
include hrun hint hbound hspent hthr hx hlevel

theorem Device.preemption_next (hnext : d.nextLevel e Device.isPush = some l) :
    d.preemption e j = (d.cede e (thrKey e j) id x).dispatchLevel e j l := by
  unfold Device.preemption
  simp only [hrun, hint, hbound, hthr, Bool.and_self, hx, hspent, decide_eq_false (Nat.not_le.mpr hlevel), Bool.or_self, Bool.false_eq_true,
    if_false, hnext]
  rfl

/-- When no push task waits any more the thread goes on. -/
theorem Device.preemption_goesOn (hnext : d.nextLevel e Device.isPush = none) :
    ((d.preemption e j).thr (thrKey e j)).interrupt = false ∧ ((d.preemption e j).thr (thrKey e j)).task = some id := by
  unfold Device.preemption
  simp only [hrun, hint, hbound, hthr, Bool.and_self, hx, hspent, decide_eq_false (Nat.not_le.mpr hlevel), Bool.or_self, Bool.false_eq_true,
    if_false, hnext]
  rw [Device.thr_setThr_self]
  exact ⟨rfl, rfl⟩

/-- The push task at the head of the list goes to the thread, and the thread's own to the head of its list. -/
theorem Device.preemption_takes {i : Nat} (hnext : d.nextLevel e Device.isPush = some l) (hq : d.readyList l = ⟨.task i, since⟩ :: rest) :
    (d.preemption e j).At (thrKey e j) i .running ∧ (d.preemption e j).readyList l = rest ∧
      (d.preemption e j).readyList x.level = ⟨.task id, d.transit⟩ :: d.readyList x.level := by
  have hpush : 12 ≤ l := Device.nextLevel_isPush hnext
  rw [Device.preemption_next hrun hint hbound hspent hthr hx hlevel hnext]
  obtain ⟨hat, hready, hothers, -⟩ :=
    Device.dispatchLevel_resumes (e := e) (j := j) ((Device.cede_readyList_other (d := d) (e := e) (k := thrKey e j) (id := id) (x := x) (by omega)).trans hq)
  exact ⟨hat, hready, (hothers _ (by omega)).trans Device.cede_readyList⟩

/-- The task that is given up is saved as it stands. -/
theorem Device.preemption_saves (hnext : d.nextLevel e Device.isPush = some l) (hnone : ∀ r ∈ d.readyList l, r.item ≠ .task id) :
    (d.preemption e j).task id = some (d.ceded x) ∧
      (d.preemption e j).readyList x.level = ⟨.task id, d.transit⟩ :: d.readyList x.level := by
  have hpush : 12 ≤ l := Device.nextLevel_isPush hnext
  have hlist : (d.cede e (thrKey e j) id x).readyList l = d.readyList l := Device.cede_readyList_other (by omega)
  have htask : (d.cede e (thrKey e j) id x).task id = some (d.ceded x) := Device.cede_task hx
  rw [Device.preemption_next hrun hint hbound hspent hthr hx hlevel hnext]
  obtain ⟨hkept, hothers⟩ := Device.dispatchLevel_left (e := e) (j := j) (l := l) (by rw [htask]; rfl) (by rw [hlist]; exact hnone)
  exact ⟨hkept.trans htask, (hothers _ (by omega)).trans Device.cede_readyList⟩

end preempt

/-! ### The obligation -/

/-- Settles O35: each clause is the step's own equation, with what the thread that takes a head and the frame that leaves keep of the
scaffold's lists and tasks. -/
theorem scaffoldWork : Obligations.ScaffoldWork := by
  unfold Obligations.ScaffoldWork
  refine ⟨?listed, ?noEntry, ?shed, ?resumes, ?tick, ?punt, ?copied, ?bad, ?push, ?interrupts, ?takes, ?saves, ?goesOn, ?saved, ?aged⟩
  case listed =>
    intro pipe c l a rest y d w hq hc hentry hn hshed hroom
    exact runs_of_exec (exec_to rfl rfl) (Device.puntArrival_listed hq hc hentry hn hshed hroom)
  case noEntry =>
    intro pipe c rest y d w hq hc hf hentry
    exact runs_of_exec (exec_to rfl (Device.puntArrival_noEntry hq hc hentry))
      (Device.dropPunt_counted hc hf (by unfold movedReg; decide))
  case shed =>
    intro pipe c l a rest y d w hq hc hf hentry hn hshed hl
    exact runs_of_exec (exec_to rfl (Device.puntArrival_shed hq hc hentry hn hshed hl))
      (Device.dropPunt_counted hc hf (by unfold movedReg; decide))
  case resumes =>
    intro engine thread l id since rest d w hruns hok hfreed hturn hlevel hq
    have hdispatch := Device.dispatch_level hruns hok hlevel hfreed (hturn.imp_right (Device.headBound_task hq))
    obtain ⟨⟨hstate, htask⟩, hready, -, hat⟩ := Device.dispatchLevel_resumes (e := engine) (j := thread) hq
    refine runs_of_exec (exec_to rfl hdispatch) ⟨hstate, htask, hready, ?_⟩
    obtain ⟨z, hz⟩ := Option.isSome_iff_exists.mp (Device.nextLevel_task hlevel hq)
    rw [hat, hz]
    simp only [Option.map_some, Option.any_some, beq_self_eq_true]
  case tick =>
    intro engine thread l id since n k a rest d w hruns hok hfirst hlevel hq hpage hentry
    obtain ⟨⟨hstate, htask⟩, hready, hnew, -⟩ :=
      Device.startTick_at (d := d.setReady l rest) (e := engine) (j := thread) hpage hentry
    refine runs_of_exec (exec_to rfl ((Device.dispatch_first hruns hok hlevel hfirst).trans (Device.dispatchLevel_tick hq))) ⟨hstate, htask, ?_, hnew⟩
    exact (hready l).trans (Device.readyList_setReady_self ..)
  case punt =>
    intro engine thread l id since c n k a y fr rest d w hruns hok hfirst hlevel hq hc hf hbad hentry hpage
    obtain ⟨⟨hstate, htask⟩, hready, hnew, -⟩ :=
      Device.startPunt_at (d := d.setReady l rest) (e := engine) (j := thread) hc hf hbad hpage hentry
    refine runs_of_exec (exec_to rfl ((Device.dispatch_first hruns hok hlevel hfirst).trans (Device.dispatchLevel_punt hq))) ⟨hstate, htask, ?_, hnew⟩
    exact (hready l).trans (Device.readyList_setReady_self ..)
  case copied =>
    intro engine thread id c x y fr d w hpull hthr hx hxc hc hf hbad hdone
    exact runs_of_exec (exec_to rfl rfl) (Device.copyDone_starts hpull hthr hx hxc hc hf hbad hdone)
  case bad =>
    intro engine thread id c x y d w hpull hthr hx hxc hc hbad
    obtain ⟨fr, hf, hfr⟩ := (Option.any_eq_true ..).mp hbad
    exact runs_of_exec (exec_to rfl rfl) (Device.copyDone_bad hpull hthr hx hxc hc hf hfr)
  case push =>
    intro k l id since rest d w hruns hfree hlevel hq htask
    obtain ⟨⟨hstate, hid⟩, hready, -, -⟩ := Device.dispatchLevel_resumes (e := k / 8) (j := k % 8) hq
    rw [thrKey_div_mod] at hstate hid
    exact runs_of_exec (exec_to rfl (Device.pushReady_takes hruns hfree hlevel hq)) ⟨hstate, hid, hready⟩
  case interrupts =>
    intro k d w hruns hmore hnone hvictim
    refine runs_of_exec (exec_to rfl (Device.pushReady_interrupts hruns hmore hnone hvictim)) ?_
    rw [Device.thr_setThr_self]
  case takes =>
    intro engine thread id l j since x rest d w hrun hint hbound hspent hthr hx hlevel hnext hq hj
    obtain ⟨⟨hstate, htask⟩, hready, hgiven⟩ := Device.preemption_takes hrun hint hbound hspent hthr hx hlevel hnext hq
    exact runs_of_exec (exec_to rfl rfl) ⟨hstate, htask, hready, hgiven⟩
  case saves =>
    intro engine thread id x d w hrun hint hbound hspent hthr hx hlevel hnext hnone
    obtain ⟨l, hl⟩ := Option.isSome_iff_exists.mp hnext
    obtain ⟨htask, hready⟩ := Device.preemption_saves hrun hint hbound hspent hthr hx hlevel hl (Device.not_listed hnone l)
    refine runs_of_exec (exec_to rfl rfl) ⟨?_, hready⟩
    rw [htask]
    simp only [Device.ceded, Option.any_some, beq_self_eq_true, Bool.and_self]
  case goesOn =>
    intro engine thread id x d w hrun hint hbound hspent hthr hx hlevel hnext
    exact runs_of_exec (exec_to rfl rfl) (Device.preemption_goesOn hrun hint hbound hspent hthr hx hlevel hnext)
  case saved =>
    intro engine thread d w hsaving
    have hdone : d.saveDone engine thread = d.endThread (thrKey engine thread) := by
      unfold Device.saveDone
      rw [hsaving]
      rfl
    exact runs_of_exec (exec_to rfl hdone) ⟨(d.endThread_free _).1, (d.endThread_kept _).2⟩
  case aged =>
    intro level i x d w hage hlevel hi hx
    exact runs_of_exec (exec_to rfl rfl) (Device.pullAge_moved hage hlevel hi hx)

end Sys2Proof.Machine
end

section
set_option Elab.async false
/-! PROOFS. What the reclaiming of a lease leaves alone: the seats' presence and the domains (R280, R284, R401, R448). -/

namespace Sys2Proof.Machine

namespace Device.Worked

variable {d t u : Device} {p s c f h n v k i a port pipe cls : Nat} {b : Bool} {bs : List Byte} {us : List Upd} {act : Device → Device}

/-! ### Records and the lodge (R155, R162, R166, R171) -/

theorem requestWrite (hw : d.Worked false false t) : d.Worked false false (t.requestWrite h n) := hw.request

theorem readHome (hw : d.Worked false false t) : d.Worked false false (t.readHome h) := by
  unfold Device.readHome
  split
  · exact hw
  · exact hw.request

theorem quietUpdate (hw : d.Worked false false t) : d.Worked false false (t.quietUpdate h us) := by
  unfold Device.quietUpdate
  split
  · exact hw.flowOnly (Device.FlowOnly.refl t).addRun
  · exact hw

theorem endRun (hw : d.Worked false false t) : d.Worked false false (t.endRun h f) := hw.flowOnly (Device.FlowOnly.refl t).modFlow.settleRun

theorem bothUpdate (hw : d.Worked false false t) : d.Worked false false (t.bothUpdate h us) := by
  have hquiet : d.Worked false false (t.quietUpdate h us) := hw.quietUpdate
  unfold Device.bothUpdate
  extract_lets u
  split
  · split
    · exact hquiet.modFlow
    · exact hquiet
  · exact hquiet

theorem commandUpdate (hw : d.Worked false false t) : d.Worked false false (t.commandUpdate h us) := hw.readHome.bothUpdate.requestWrite

theorem showLodge (hw : d.Worked false false t) : d.Worked false false t.showLodge := (hw.setReg nofun).setReg nofun

theorem closeLodge (hw : d.Worked false false t) : d.Worked false false t.closeLodge := by
  unfold Device.closeLodge
  extract_lets gone u
  have hu : d.Worked false false u := hw.foldl fun u e hu => hu.unlease
  exact hu.modFlow.showLodge

theorem lodgeLeave (hw : d.Worked false false t) : d.Worked false false (t.lodgeLeave f) := hw.modFlow.closeLodge

theorem leaveStations (hw : d.Worked false false t) : d.Worked false false (t.leaveStations f) := by
  unfold Device.leaveStations
  extract_lets u v
  have hu : d.Worked false false u := by
    unfold u
    split
    · split
      · exact hw.endRun
      · exact hw
    · exact hw
  have hv : d.Worked false false v := hu.beside rfl rfl rfl rfl rfl rfl rfl rfl rfl
  exact hv.unlease.lodgeLeave

/-! ### Accounts, mirrors and policing (R68, R221, R227) -/

theorem moveAcct {x : Account} (hw : d.Worked false false t) : d.Worked false false (t.moveAcct f x) := hw.modFrame.poolsMoved

theorem fromRecirc (hw : d.Worked false false t) : d.Worked false false (t.fromRecirc f) := by
  unfold Device.fromRecirc
  split
  · split
    · exact hw.moveAcct
    · exact hw
  · exact hw

theorem toScaf (hw : d.Worked false false t) : d.Worked false false (t.toScaf f).1 := by
  unfold Device.toScaf
  split
  · split
    · exact hw
    · split
      · exact hw.moveAcct
      · exact hw
  · exact hw

theorem joinInternal {cut : Option Nat} (hw : d.Worked false false t) : d.Worked false false (t.joinInternal f port cut) := by
  unfold Device.joinInternal
  split
  · exact hw
  · exact hw.joinQueue

theorem makeMirror (hw : d.Worked false false t) : d.Worked false false (t.makeMirror f port a pipe bs) := by
  unfold Device.makeMirror
  split
  · exact hw
  · split
    · exact hw.bump nofun
    · split
      · exact hw.joinInternal
      · exact hw.joinPort

theorem quotesOnly (hw : d.Worked false false t) (m : NMap Quote) : d.Worked false false { t with quotes := m } :=
  ⟨hw.telem, hw.plumb, hw.doms, hw.perf, hw.seats, hw.spans, nofun, nofun, nofun⟩

theorem setQuote {x : Quote} (hw : d.Worked false false t) : d.Worked false false (t.setQuote k x) := hw.quotesOnly _

theorem modQuote {g : Quote → Quote} (hw : d.Worked false false t) : d.Worked false false (t.modQuote k g) := hw.quotesOnly _

theorem policeFrame {ts : List Nat} (hw : d.Worked false false t) : d.Worked false false (t.policeFrame f ts).1 := by
  unfold Device.policeFrame
  -- The policer's verdict stays a variable, also for the kernel, which would else unfold its multiplication.
  generalize Quote.police = police
  revert police
  refine id fun police => ?_
  split
  · exact hw
  · extract_lets cls qid
    split
    · exact hw
    · split
      · exact hw.modFrame
      · split
        · exact hw
        · extract_lets t0
          split
          next q ok _ =>
          extract_lets t₁ onPort t₂ t₃
          have h₁ : d.Worked false false t₁ := hw.setQuote
          have h₂ : d.Worked false false t₂ := by
            unfold t₂
            split
            · exact h₁.bump nofun
            · exact h₁
          have h₃ : d.Worked false false t₃ := h₂.occPort
          split
          · exact h₁.modQuote.modFrame
          · split
            · exact h₃.modQuote
            · exact h₃.modQuote.modFrame

theorem moveContract (hw : d.Worked false false t) : d.Worked false false (t.moveContract f b cls).1 := by
  unfold Device.moveContract
  split
  · exact hw
  · split
    · split
      · exact hw.moveAcct
      · exact hw
    · split
      · split
        · exact hw.moveAcct
        · exact hw.bump nofun
      · exact hw

theorem overlenDone {accepted : Option Nat} {ts : List Nat} (hw : d.Worked false false t) : d.Worked false false (t.overlenDone f accepted ts) := by
  unfold Device.overlenDone
  split
  · split
    · exact Device.Worked.modFrame (hw.bump nofun)
    · exact hw
  · exact hw

/-! ### Dispositions (R67, R280, R284) -/

theorem forward (hw : d.Worked false false t) : d.Worked false false (t.forward f pipe bs) := by
  unfold Device.forward
  extract_lets t₁
  have h₁ : d.Worked false false t₁ := hw.fromRecirc
  split
  · exact h₁
  · next x _ =>
    have hpoliced : d.Worked false false (t₁.policeFrame f (t₁.targetsOf x)).1 := h₁.policeFrame
    split
    next u v hu =>
    rw [hu] at hpoliced
    split
    · exact hpoliced.discardFrame
    · have hmoved : d.Worked false false (u.moveContract f v.accepted.isSome v.cls).1 := hpoliced.moveContract
      split
      next y stays hy =>
      rw [hy] at hmoved
      split
      · exact hmoved.discardFrame
      · exact hmoved.overlenDone.joinTargets

theorem toInternal (hw : d.Worked false false t) : d.Worked false false (t.toInternal f port) := by
  unfold Device.toInternal
  split
  · exact hw
  · extract_lets t₁
    have h₁ : d.Worked false false t₁ := by
      unfold t₁
      split
      · exact hw.occIng
      · exact hw
    have hmoved : d.Worked false false ((t₁.fromRecirc f).toScaf f).1 := h₁.fromRecirc.toScaf
    split
    next u ok hu =>
    rw [hu] at hmoved
    split
    · exact hmoved.joinInternal.releaseFrame
    · have hdrop : d.Worked false false (u.bump Off.bufScafDrop 1) := Device.Worked.bump hmoved nofun
      exact hdrop.occIng.releaseFrame

theorem disposeTo {x : Frame} (hw : d.Worked false false t) : d.Worked false false (t.disposeTo f pipe x) := by
  unfold Device.disposeTo
  extract_lets m3
  split
  · exact hw.forward
  · split
    · exact hw.toInternal
    · split
      · exact hw.discardFrame
      · exact hw.discardFrame

theorem twinRecover (hw : d.Worked false false t) : d.Worked false false (t.twinRecover n v).1 := by
  unfold Device.twinRecover
  extract_lets ctx prof
  split
  · exact hw.bump nofun
  next c src _ =>
    split
    next c' v _ =>
    extract_lets c'' t₁
    have h₁ : d.Worked false false t₁ := hw.beside rfl rfl rfl rfl rfl rfl rfl rfl rfl
    split
    · exact h₁
    · exact Device.Worked.occ (h₁.bump nofun)
    · next _ u sec raised src' =>
      have hu : d.Worked false false u := h₁.bump nofun
      split
      · exact hu
      · have hraised : d.Worked false false raised := hu.raise nofun
        exact hraised.beside rfl rfl rfl rfl rfl rfl rfl rfl rfl

theorem dispose (hw : d.Worked false false t) : d.Worked false false (t.dispose f pipe b) := by
  unfold Device.dispose
  split
  · exact hw
  · extract_lets snap t₁
    have h₁ : d.Worked false false t₁ := by
      unfold t₁
      split
      · exact hw.makeMirror
      · exact hw
    split
    · exact h₁.discardFrame
    · split
      · next s _ _ =>
        have hrec : d.Worked false false (t₁.twinRecover (fieldLE snap 40 4) s).1 := h₁.twinRecover
        split
        next u ok anchor hu =>
        rw [hu] at hrec
        split
        · exact hrec.disposeTo
        · exact hrec.discardFrame
      · exact h₁.disposeTo

/-! ### The float unit (R279 to R281) -/

theorem floatRelease {fs : List Nat} (hw : d.Worked false false t) : d.Worked false false (t.floatRelease fs) := by
  refine hw.foldl fun u f hu => ?_
  split
  · split
    · exact hu.modFrame.dispose
    · exact hu
  · exact hu

theorem setFloat {x : FloatCtx} (hw : d.Worked false false t) : d.Worked false false (t.setFloat c x) :=
  hw.beside rfl rfl rfl rfl rfl rfl rfl rfl rfl

theorem floatCounts {r : FloatDo} (hw : d.Worked false false t) : d.Worked false false (t.floatCounts c r s) := by
  unfold Device.floatCounts
  extract_lets t₁ sec src t₂ t₃
  have h₁ : d.Worked false false t₁ := Device.Worked.occ (hw.bump nofun)
  have h₂ : d.Worked false false t₂ := by
    unfold t₂
    split
    · exact hw
    · split
      · exact h₁
      · exact Device.Worked.setFloat (h₁.raise nofun)
  have h₃ : d.Worked false false t₃ := by
    unfold t₃
    split
    · have hforced : d.Worked false false (t₂.bump Off.spreadFloatForced 1) := h₂.bump nofun
      exact hforced.raise nofun
    · exact h₂
  split
  · exact h₃.bump nofun
  · exact h₃

theorem floatExpireCtx (hw : d.Worked false false t) : d.Worked false false (t.floatExpireCtx c) := by
  unfold Device.floatExpireCtx
  split
  · exact hw
  · exact hw.setFloat.floatCounts.floatRelease

theorem floatFull (hw : d.Worked false false t) : d.Worked false false t.floatFull := by
  have hforced : d.Worked false false (t.bump Off.spreadFloatForced 1) := hw.bump nofun
  unfold Device.floatFull
  extract_lets oldest
  split
  · exact hw
  · clear_value oldest
    cases oldest with
    | none => exact hw
    | some p => exact hforced.floatExpireCtx

theorem floatTurn {tag : SeamTag} (hw : d.Worked false false t) (hact : ∀ u, d.Worked false false u → d.Worked false false (act u)) :
    d.Worked false false (t.floatTurn f tag b act) := by
  unfold Device.floatTurn
  split
  · exact hw
  · extract_lets ctx t₁ r t₂ t₃ src t₄
    have h₂ : d.Worked false false t₂ := hw.floatFull.setFloat.floatCounts
    split
    · exact h₂.discardFrame
    · split
      · exact (hact t₂ h₂).floatRelease
      · refine Device.Worked.floatRelease ?_
        unfold t₄
        split
        · exact (Device.Worked.modFrame h₂).beside rfl rfl rfl rfl rfl rfl rfl rfl rfl
        · exact Device.Worked.modFrame h₂

theorem takeTurn (hw : d.Worked false false t) (hact : ∀ u, d.Worked false false u → d.Worked false false (act u)) :
    d.Worked false false (t.takeTurn f b act) := by
  unfold Device.takeTurn
  split
  · split
    · exact hw.floatTurn hact
    · exact hact t hw
  · exact hact t hw

theorem discardTurn (hw : d.Worked false false t) : d.Worked false false (t.discardTurn f n) := hw.takeTurn fun _ hu => hu.discardFrame

/-! ### Frames, lodge entries and tasks that are lost (R171, R222, R381, R395) -/

theorem pipePfc (hw : d.Worked false false t) : d.Worked false false (t.pipePfc i) := by
  unfold Device.pipePfc
  extract_lets n old new t₁ t₂
  have h₁ : d.Worked false false t₁ := hw.modPipe
  have h₂ : d.Worked false false t₂ := by
    unfold t₂
    split
    · exact h₁.setFld nofun
    · exact h₁
  split
  · exact h₂
  · exact h₂.foldl fun _ _ hu => hu.showPfc

theorem loseCtx {x : Ctx} (hw : d.Worked false false t) : d.Worked false false (t.loseCtx (.ing f) x) := by
  unfold Device.loseCtx
  exact Device.Worked.modFrame (hw.beside rfl rfl rfl rfl rfl rfl rfl rfl rfl)

theorem discardBad (hw : d.Worked false false t) : d.Worked false false (t.discardBad f) := by
  unfold Device.discardBad
  split
  · exact hw
  · split
    · exact hw.turnBad
    · split
      · exact hw.loseCtx
      · exact hw.discardTurn.leaveStations
    · extract_lets pipes buf u
      have hu : d.Worked false false u := hw.beside rfl rfl rfl rfl rfl rfl rfl rfl rfl
      split
      · exact hu.discardTurn.leaveStations
      · exact hu.discardTurn.leaveStations
      · exact hu.discardTurn.leaveStations
      · exact hu.discardTurn.leaveStations.pipePfc
      · exact hu.discardFrame.leaveStations

theorem loseLodge {x : FlowId} (hw : d.Worked false false t) : d.Worked false false (t.loseLodge x) := by
  unfold Device.loseLodge
  split
  · exact hw
  · extract_lets u
    have hu : d.Worked false false u := hw.modFlow.unlease
    exact Device.Worked.showLodge (hu.foldl fun _ _ hv => hv.discardBad)

theorem dropLock {x : Issuer} (hw : d.Worked false false t) : d.Worked false false (t.dropLock h x) := by
  unfold Device.dropLock
  split
  · split
    · exact hw.commandUpdate.unlease
    · exact hw
  · exact hw

theorem endThread (hw : d.Worked false false t) : d.Worked false false (t.endThread k) := by
  unfold Device.endThread
  extract_lets u
  split
  · exact hw.modScaf
  · exact hw.modScaf.modScaf

theorem taskGone (hw : d.Worked false false t) : d.Worked false false (t.taskGone i) := by
  unfold Device.taskGone
  split
  · exact hw
  · extract_lets u v w
    have hu : d.Worked false false u := hw.foldl fun _ _ hx => hx.dropLock
    have hv : d.Worked false false w := hu.modScaf.unlease
    split
    · exact hv.endThread
    · exact hv

theorem abortTask (hw : d.Worked false false t) : d.Worked false false (t.abortTask i) := by
  unfold Device.abortTask
  split
  · exact hw
  · extract_lets u
    have hbump : d.Worked false false (t.bump Off.scafAbort 1) := hw.bump nofun
    have hu : d.Worked false false u := hbump.taskGone
    split
    · refine Device.Worked.dropCopy ?_
      split
      · exact hu.unlease
      · exact hu
    · exact hu

/-! ### Leases (R448, R449) -/

theorem reclaimOne {x : Lease} (hw : d.Worked false false t) : d.Worked false false (t.reclaimOne x) := by
  unfold Device.reclaimOne
  split
  · split
    · extract_lets c
      split
      · split
        · split
          · exact hw.abortCopy
          · exact hw.modPort.dropCopy
        · exact hw.dropCopy
      · exact hw
    · split
      · exact hw
      · exact hw
      · have hgone : d.Worked false false { t with ctxs := NMap.del t.ctxs x.index } := hw.beside rfl rfl rfl rfl rfl rfl rfl rfl rfl
        exact hgone.discardTurn.leaveStations
      · exact hw.discardBad
  · split
    · exact hw.loseLodge
    · exact hw
  · extract_lets u
    refine Device.Worked.modScaf ?_
    unfold u
    split
    · exact hw.commandUpdate
    · exact hw
  · exact hw.abortTask
  · exact hw

theorem raiseDom {src sev cause kind inst x y : Nat} (hw : d.Worked false false t) : d.Worked false false (t.raiseDom src sev cause kind inst x y) :=
  hw.raiseEvent nofun

theorem reclaim (hw : d.Worked false false t) : d.Worked false false (t.reclaim k i) := by
  unfold Device.reclaim
  extract_lets ls fault u v n
  have hu : d.Worked false false u := hw.beside rfl rfl rfl rfl rfl rfl rfl rfl rfl
  have hv : d.Worked false false v := hu.foldl fun _ _ hx => hx.reclaimOne
  split
  · exact hv
  · exact Device.Worked.raiseDom (hv.bump nofun)

end Device.Worked

end Sys2Proof.Machine
end

section
set_option Elab.async false
/-! PROOFS. A seat that goes: its absence, its domain's fault and its rings (R400, R401, R448). -/

namespace Sys2Proof.Machine

variable {d t u : Device} {s r n : Nat} {fs : List (Nat × Nat × Nat)}

/-! ### A seat's rings (R401) -/

/-- The fields at the front of the list are written 0, one after the other. -/
def Device.zeroed (d : Device) (fs : List (Nat × Nat × Nat)) : Device := fs.foldl (fun d f => d.setFld f.1 f.2.1 f.2.2 0) d

theorem Device.fld_zeroed_other {off hi lo : Nat} (h : off ∉ fs.map (·.1)) : (d.zeroed fs).fld off hi lo = d.fld off hi lo := by
  induction fs generalizing d with
  | nil => rfl
  | cons f fs ih =>
    rw [List.map_cons, List.mem_cons, not_or] at h
    exact (ih h.2).trans (Device.fld_setFld_other _ _ _ _ _ _ h.1)

theorem Device.fld_zeroed (hoffs : (fs.map (·.1)).Nodup) (hform : ∀ f ∈ fs, f.2.1 < 32 ∧ f.2.2 ≤ f.2.1 + 1) :
    ∀ f ∈ fs, (d.zeroed fs).fld f.1 f.2.1 f.2.2 = 0 := by
  induction fs generalizing d with
  | nil => exact fun f hf => absurd hf List.not_mem_nil
  | cons g fs ih =>
    obtain ⟨hg, hrest⟩ := List.nodup_cons.mp hoffs
    have hself : (d.setFld g.1 g.2.1 g.2.2 0).fld g.1 g.2.1 g.2.2 = 0 := by
      obtain ⟨hhi, hlo⟩ := hform g List.mem_cons_self
      rw [Device.fld_setFld_self _ _ _ hhi hlo, Nat.zero_mod]
    intro f hf
    rcases List.mem_cons.mp hf with rfl | hf
    · exact (Device.fld_zeroed_other hg).trans hself
    · exact ih hrest (fun f hf => hform f (List.mem_cons_of_mem _ hf)) f hf

/-- What shows a ring as enabled, and its indexes. -/
def ringFields (s r : Nat) : List (Nat × Nat × Nat) :=
  [(Off.seatCrCtl s r, 31, 31), (Off.seatNrCtl s r, 31, 31), (Off.seatCrHead s r, 15, 0), (Off.seatCrTail s r, 15, 0),
    (Off.seatNrHead s r, 15, 0), (Off.seatNrTail s r, 15, 0)]

def seatFields (s : Nat) : List (Nat × Nat × Nat) := (List.range 8).flatMap (ringFields s)

theorem seatFields_nodup : ∀ s : Fin 2, ((seatFields s).map (·.1)).Nodup := by decide +kernel

theorem seatFields_form : ∀ s : Fin 2, ∀ f ∈ seatFields s, f.2.1 < 32 ∧ f.2.2 ≤ f.2.1 + 1 := by decide +kernel

/-- The seat's rings without what they held. -/
def Seat.ringless (x : Seat) : Seat := { x with nr := [], cr := x.cr.map fun (r, c) => (r, { c with pieces := [], mute := c.out.isSome }) }

theorem Device.flag_of_fld {off : Nat} (h : t.fld off n n = 0) : t.flag off n = false := by
  rw [Device.flag, h]
  rfl

theorem Device.ringsOff_eq (d : Device) (s : Nat) : d.ringsOff s = (d.zeroed (seatFields s)).modSeat s Seat.ringless := by
  rw [Device.zeroed, seatFields, List.foldl_flatMap]
  rfl

theorem Device.zeroed_kept (d : Device) (fs : List (Nat × Nat × Nat)) :
    (d.zeroed fs).seats = d.seats ∧ (d.zeroed fs).fault = d.fault ∧ (d.zeroed fs).plumb = d.plumb := by
  induction fs generalizing d with
  | nil => exact ⟨rfl, rfl, rfl⟩
  | cons f fs ih => exact ih (d.setFld f.1 f.2.1 f.2.2 0)

/-- The rings of a seat that is off are disabled and empty. -/
theorem Device.ringsOff_shows (d : Device) (s : Fin 2) :
    ((List.range 8).all fun r =>
      !(d.ringsOff s).flag (Off.seatCrCtl s r) 31 && !(d.ringsOff s).flag (Off.seatNrCtl s r) 31 &&
        (d.ringsOff s).fld (Off.seatCrHead s r) 15 0 == 0 && (d.ringsOff s).fld (Off.seatCrTail s r) 15 0 == 0 &&
        (d.ringsOff s).fld (Off.seatNrHead s r) 15 0 == 0 && (d.ringsOff s).fld (Off.seatNrTail s r) 15 0 == 0) = true := by
  have hzero := Device.fld_zeroed (d := d) (seatFields_nodup s) (seatFields_form s)
  refine List.all_eq_true.mpr fun r hr => ?_
  have hring (f : Nat × Nat × Nat) (hf : f ∈ ringFields s r) : (d.ringsOff s).fld f.1 f.2.1 f.2.2 = 0 := by
    have hmem : f ∈ seatFields s := by
      rw [seatFields]
      exact List.mem_flatMap.mpr ⟨r, hr, hf⟩
    rw [Device.ringsOff_eq, Device.fld_modSeat]
    exact hzero f hmem
  obtain ⟨hcr, hrest⟩ := List.forall_mem_cons.mp hring
  obtain ⟨hnr, hrest⟩ := List.forall_mem_cons.mp hrest
  obtain ⟨hcrHead, hrest⟩ := List.forall_mem_cons.mp hrest
  obtain ⟨hcrTail, hrest⟩ := List.forall_mem_cons.mp hrest
  obtain ⟨hnrHead, hrest⟩ := List.forall_mem_cons.mp hrest
  obtain ⟨hnrTail, -⟩ := List.forall_mem_cons.mp hrest
  generalize d.ringsOff s = t at hcr hnr hcrHead hcrTail hnrHead hnrTail ⊢
  simp only [Bool.and_eq_true, Bool.not_eq_true', beq_iff_eq]
  exact ⟨⟨⟨⟨⟨Device.flag_of_fld hcr, Device.flag_of_fld hnr⟩, hcrHead⟩, hcrTail⟩, hnrHead⟩, hnrTail⟩

/-! ### A seat that goes (R401) -/

theorem Device.Worked.raiseSeq {src sev cause dk di x y : Nat} {q : Bool} (hw : d.Worked q false t) :
    d.Worked q false (t.raiseSeq src sev cause dk di x y).1 := (hw.stampEvent nofun).setSlot

theorem Device.seat_ringsOff_presence (d : Device) (s n : Nat) : ((d.ringsOff s).seat n).presence = (d.seat n).presence := by
  have hseat : (d.zeroed (seatFields s)).seat n = d.seat n := by
    rw [Device.seat, (d.zeroed_kept (seatFields s)).1, ← Device.seat]
  rw [Device.ringsOff_eq]
  by_cases hn : n = s
  · subst hn
    rw [Device.seat_modSeat_self, hseat]
    rfl
  · rw [Device.seat_modSeat_other _ _ hn, hseat]

theorem Device.dom_ringsOff (d : Device) (s k n : Nat) : (d.ringsOff s).dom k n = d.dom k n := by
  have hfault : (d.ringsOff s).fault = d.fault := by
    rw [Device.ringsOff_eq, Device.modSeat_fault]
    exact (d.zeroed_kept (seatFields s)).2.1
  rw [Device.dom, hfault, ← Device.dom]

theorem Device.dom_modDom_self (d : Device) (k n : Nat) (g : Domain → Domain) : (d.modDom k n g).dom k n = g (d.dom k n) := by
  rw [Device.dom]
  exact congrArg (Option.getD · Domain.reset) (NMap.get?_set_self ..)

/-- The seat is shown absent. -/
def Device.showAbsent (d : Device) (s : Nat) : Device := (d.modSeat s fun x => { x with present := false, absentSince := d.transit }).showSeat s

theorem Device.showSeat_kept (d : Device) (s : Nat) : (d.showSeat s).seats = d.seats ∧ (d.showSeat s).plumb = d.plumb := by
  unfold Device.showSeat
  exact ⟨by rw [Device.setFlag_seats, Device.setFld_seats, Device.setFlag_seats], by rw [Device.setFlag_plumb, Device.setFld_plumb, Device.setFlag_plumb]⟩

theorem Device.showAbsent_presence (d : Device) (s : Nat) :
    ((d.showAbsent s).seat s).presence = (false, d.transit, (d.seat s).link) := by
  unfold Device.showAbsent
  rw [Device.seat, (Device.showSeat_kept _ s).1, ← Device.seat, Device.seat_modSeat_self]
  rfl

theorem Device.seatAbsent_presence {x : Seat} {a : Nat} (h : x.presence = (false, a, n)) : x.present = false ∧ x.absentSince = a := by
  injection h with hpresent hrest
  injection hrest with hsince _
  exact ⟨hpresent, hsince⟩

/-- The events of the absence and of its domain's fault, and the fault itself. -/
def Device.declareAbsence (d : Device) (s : Nat) : Device :=
  match (d.raiseDom (seatSource s) Sev.info Cause.seatAbsent 9 s s 0).raiseSeq (seatSource s) Sev.fault Cause.domainFault 9 s 0 0 with
  | (d, seq) => d.modDom 9 s fun x => { x with declared := d.transit, faultSeq := seq }

theorem Device.declareAbsence_shows (d : Device) (s : Nat) :
    (∀ n, ((d.declareAbsence s).seat n).presence = (d.seat n).presence) ∧ ((d.declareAbsence s).dom 9 s).declared = d.transit := by
  have hraised : d.Worked false false ((d.raiseDom (seatSource s) Sev.info Cause.seatAbsent 9 s s 0).raiseSeq (seatSource s) Sev.fault
      Cause.domainFault 9 s 0 0).1 := (Device.Worked.refl false false d).raiseDom.raiseSeq
  unfold Device.declareAbsence
  split
  next u seq hu =>
  rw [hu] at hraised
  refine ⟨fun n => hraised.seats n, ?_⟩
  rw [Device.dom_modDom_self]
  exact congrArg Plumb.transit hraised.plumb

theorem Device.seatAbsent_eq (h : d.present s = true) : d.seatAbsent s = (((d.showAbsent s).declareAbsence s).reclaim 9 s).ringsOff s := by
  unfold Device.seatAbsent Device.seatLeaves Device.showAbsent Device.declareAbsence
  simp only [h, Bool.not_true, Bool.false_eq_true, if_false, if_true]

/-- A seat that goes is absent from now, its domain's fault declared. -/
theorem Device.seatAbsent_shows (h : d.present s = true) :
    (d.seatAbsent s).present s = false ∧ ((d.seatAbsent s).seat s).absentSince = d.transit ∧
      ((d.seatAbsent s).dom 9 s).declared = d.transit := by
  obtain ⟨hseats, hdeclared⟩ := (d.showAbsent s).declareAbsence_shows s
  rw [Device.seatAbsent_eq h]
  generalize (d.showAbsent s).declareAbsence s = u at hseats hdeclared
  have hreclaim : u.Worked false false (u.reclaim 9 s) := (Device.Worked.refl false false u).reclaim
  have hpresence : ((((u.reclaim 9 s).ringsOff s).seat s).presence) = (false, d.transit, (d.seat s).link) := by
    rw [Device.seat_ringsOff_presence, hreclaim.seats, hseats, Device.showAbsent_presence]
  obtain ⟨hpresent, hsince⟩ := Device.seatAbsent_presence hpresence
  refine ⟨hpresent, hsince, ?_⟩
  rw [Device.dom_ringsOff, Device.dom, hreclaim.doms, ← Device.dom, hdeclared]
  exact congrArg Plumb.transit (Device.showSeat_kept _ s).2

/-- The time of the island rule is beside what shows the seat. -/
theorem Device.islandTrack_beside (t before : Device) :
    (t.islandTrack before).regs = t.regs ∧ (t.islandTrack before).seats = t.seats ∧ (t.islandTrack before).fault = t.fault := by
  unfold Device.islandTrack
  split
  · exact ⟨rfl, rfl, rfl⟩
  · exact ⟨rfl, rfl, rfl⟩

/-! ### A seat that comes (R400) -/

theorem Device.seatPresent_shows {link : Nat} (habsent : d.present s = false) (hlink : link ≠ 0) (hkeep : d.keepaliveOk s = true)
    (hok : d.domainOk 9 s = true) :
    (d.seatPresent s link).present s = true ∧ ((d.seatPresent s link).seat s).link = link := by
  have hlink' : (link == 0) = false := beq_false_of_ne hlink
  unfold Device.seatPresent
  simp only [habsent, hlink', hkeep, hok, Bool.not_true, Bool.or_self, Bool.false_eq_true, if_false]
  generalize hu : d.modSeat s _ = u
  have hpresence : (u.seat s).presence = (true, (d.seat s).absentSince, link) := by
    rw [← hu, Device.seat_modSeat_self]
    rfl
  have hraised : u.Worked false false ((u.showSeat s).raise (seatSource s) Sev.info Cause.seatPresent s 0) := by
    have hshow : u.Worked false false (u.showSeat s) := (((Device.Worked.refl false false u).setFlag nofun).setFld nofun).setFlag nofun
    exact hshow.raise nofun
  have hshown := (hraised.seats s).trans hpresence
  generalize (u.showSeat s).raise (seatSource s) Sev.info Cause.seatPresent s 0 = t at hshown
  injection hshown with hpresent hrest
  injection hrest with _ hlinked
  exact ⟨hpresent, hlinked⟩

end Sys2Proof.Machine
end

section
set_option Elab.async false
/-! PROOFS. Coalescing, frames to a seat, the island, merged events, and the presence of the seats (R400, R401, R411, R420, R422, R434). -/

namespace Sys2Proof.Machine

variable {d t : Device} {s r src code : Nat}

/-! ### Coalescing (R411) -/

theorem Device.sendMsix_shows (d : Device) (s r : Nat) :
    NMap.getD ((d.sendMsix s r).seat s).msix (d.fld (Off.seatNrCtl s r) 13 8) 0 =
        NMap.getD (d.seat s).msix (d.fld (Off.seatNrCtl s r) 13 8) 0 + 1 ∧
      (((d.sendMsix s r).seat s).nring r).since = 0 := by
  unfold Device.sendMsix Device.modNring
  extract_lets v
  rw [Device.seat_modSeat_self, Device.seat_modSeat_self]
  refine ⟨NMap.getD_set_self .., ?_⟩
  rw [Seat.nring, NMap.getD_set_self]

theorem Device.coalesceTimer_sends (ht : d.fld (Off.seatNrCoalesce s r) 15 0 ≠ 0) (hsince : ((d.seat s).nring r).since ≠ 0)
    (hdue : ((d.seat s).nring r).first + 1000 * d.fld (Off.seatNrCoalesce s r) 15 0 ≤ d.transit)
    (hheld : d.fld (Off.seatNrHead s r) 15 0 ≠ d.fld (Off.seatNrTail s r) 15 0) : d.coalesceTimer s r = d.sendMsix s r := by
  unfold Device.coalesceTimer
  extract_lets n a
  exact if_pos ⟨ht, hsince, hdue, hheld⟩

/-! ### Frames to a seat (R420) -/

theorem Device.frameIn_leaves {pipe c : Nat} {cs : List Nat} {y : Copy} {fr : Frame} (hq : d.voq pipe (514 + s) (voqCls (514 + s) 0) = c :: cs)
    (hc : d.copy c = some y) (hf : d.frame y.frame = some fr) (hready : fr.bad = true ∨ fr.done = true) :
    (d.frameIn s pipe).copy c = none := by
  unfold Device.frameIn
  simp only [hq, hc, hf]
  split
  · exact Device.copy_dropCopy ..
  · next hgood =>
    have hdone : fr.done = true := hready.resolve_left hgood
    rw [hdone, if_neg (by decide)]
    exact Device.copy_dropCopy ..

/-! ### Merged events (R434) -/

theorem Device.slot?_setSlot (d : Device) (p : PendSlot) : (d.setSlot p).slot? p.src p.code = some p := by
  have hnone : (d.hawk.slots.filter fun q => !(q.src == p.src && q.code == p.code)).find? (fun q => q.src == p.src && q.code == p.code) = none := by
    refine List.find?_eq_none.mpr fun q hq hsame => ?_
    have hother := (List.mem_filter.mp hq).2
    rw [hsame] at hother
    exact absurd hother (by decide)
  unfold Device.slot? Device.setSlot
  dsimp only
  rw [List.find?_append, hnone, Option.none_or, List.find?_cons_of_pos (by rw [beq_self_eq_true, beq_self_eq_true]; rfl)]

theorem Device.holdoffExpiry_stamps {a b x : Nat} {ev : Event} (hslot : d.slot? src code = some ⟨a, b, some ev, some x⟩)
    (hdue : x + 1000 * d.fld Off.hawkCtl 15 0 ≤ d.transit) :
    d.holdoffExpiry src code = (d.stampEvent ev).setSlot ⟨src, code, none, some d.transit⟩ := by
  unfold Device.holdoffExpiry
  simp only [hslot]
  exact if_pos hdue

/-! ### The island (R422) -/

/-- The device once the island rule has applied and shown whether swatch 3 is valid. -/
def Device.islandShown (d : Device) (ok : Bool) : Device :=
  (d.setFld Off.seatIslandStatus 1 0 (if ok then 1 else 3)).raise 420 Sev.info Cause.island 0 (b2n (!ok))

theorem Device.islandShown_told (d : Device) (ok : Bool) :
    (d.setFld Off.seatIslandStatus 1 0 (if ok then 1 else 3)).Told (d.islandShown ok) := (Device.Told.refl _).raise (by decide)

theorem Device.islandShown_status (d : Device) (ok : Bool) : (d.islandShown ok).fld Off.seatIslandStatus 1 0 = if ok then 1 else 3 := by
  rw [(d.islandShown_told ok).fld (by decide), Device.fld_setFld_self _ _ _ (by decide) (by decide)]
  cases ok <;> rfl

theorem Device.island_invalid (hdue : d.islandDue = true) (hvalid : d.swatchValid 3 = false) : d.island = d.islandShown false := by
  unfold Device.island Device.islandShown
  simp only [hdue, hvalid, Bool.not_true, Bool.not_false, Bool.false_eq_true, if_false, if_true]

theorem Device.island_shut (hdue : d.islandDue = true) (hvalid : d.swatchValid 3 = false) :
    d.island.fld Off.seatIslandStatus 1 0 = 3 ∧ d.island.pwr.switch = d.pwr.switch := by
  rw [Device.island_invalid hdue hvalid, (d.islandShown_told false).pwr, Device.islandShown_status, Device.setFld_pwr]
  exact ⟨rfl, rfl⟩

/-- The switch under way is forgotten. -/
def Device.dropSwitch (d : Device) : Device := (d.modPwr fun p => { p with switch := none }).setFlag Off.pwrSwatch 31 false

theorem Device.dropSwitch_kept (d : Device) :
    d.dropSwitch.fld Off.seatIslandStatus 1 0 = d.fld Off.seatIslandStatus 1 0 ∧ d.dropSwitch.coats = d.coats := by
  unfold Device.dropSwitch
  rw [Device.setFlag, Device.fld_setFld_other _ _ _ _ _ _ (by decide), Device.fld_modPwr, Device.setFld_coats, Device.modPwr_coats]
  exact ⟨rfl, rfl⟩

/-- What the end of a switch keeps. -/
theorem Device.endSwitch_kept (d : Device) (n : Nat) :
    (d.endSwitch n).fld Off.seatIslandStatus 1 0 = d.fld Off.seatIslandStatus 1 0 ∧ (d.endSwitch n).coats = d.coats := by
  obtain ⟨hstatus, hcoats⟩ := d.dropSwitch_kept
  unfold Device.endSwitch
  simp only [← Device.dropSwitch.eq_1]
  generalize d.dropSwitch = u at hstatus hcoats
  split
  · exact ⟨rfl, rfl⟩
  · split
    · split
      · next o _ =>
        have htold {s r : Nat} : u.Told (u.complete s r 0x0F n o.tag o.flags []) := (Device.Told.refl u).complete (by decide)
        exact ⟨(htold.fld (by decide)).trans hstatus, (by rw [htold.1]; exact hcoats)⟩
      · exact ⟨hstatus, hcoats⟩
    · exact ⟨hstatus, hcoats⟩

theorem Device.switchDue_pending (h : d.coats.pending.isSome = true) : d.switchDue = d := by
  have hpending : d.coats.pending.isNone = false := by
    rw [Option.isNone_eq_false_iff]
    exact h
  unfold Device.switchDue
  split
  · rw [hpending, Bool.and_false, Bool.false_and, if_neg (by decide)]
  · rfl

theorem Device.island_valid (hdue : d.islandDue = true) (hvalid : d.swatchValid 3 = true) (hpending : d.coats.pending.isSome = true) :
    d.island.fld Off.seatIslandStatus 1 0 = 1 ∧ d.island.pwr.switch = some ⟨none, 3, 0, true, false⟩ := by
  have hisland : d.island = (((((d.islandShown true).endSwitch St.busy).setFlag Off.pwrSwatch 31 true).setFld Off.pwrSwatch 3 2 3).modPwr
      fun p => { p with switch := some ⟨none, 3, 0, true, false⟩ }).switchDue := by
    unfold Device.island Device.islandShown
    simp only [hdue, hvalid, Bool.not_true, Bool.false_eq_true, if_false, if_true]
  obtain ⟨hstatus, hcoats⟩ := (d.islandShown true).endSwitch_kept St.busy
  have hshown : (d.islandShown true).coats = d.coats := by rw [(d.islandShown_told true).1]; rfl
  rw [hisland]
  generalize (d.islandShown true).endSwitch St.busy = u at hstatus hcoats
  rw [Device.switchDue_pending]
  · refine ⟨?_, rfl⟩
    rw [Device.fld_modPwr, Device.fld_setFld_other _ _ _ _ _ _ (by decide), Device.setFlag,
      Device.fld_setFld_other _ _ _ _ _ _ (by decide), hstatus, Device.islandShown_status]
    rfl
  · rw [Device.modPwr_coats, Device.setFld_coats, Device.setFlag_coats, hcoats, hshown]
    exact hpending

/-! ### The absence of a seat (R401) -/

/-- What shows a seat absent: its absence, its domain's fault and its rings. -/
def Device.ShowsAbsent (t : Device) (s now : Nat) : Prop :=
  t.present s = false ∧ (t.seat s).absentSince = now ∧ (t.dom 9 s).declared = now ∧
    ((List.range 8).all fun r =>
      !t.flag (Off.seatCrCtl s r) 31 && !t.flag (Off.seatNrCtl s r) 31 && t.fld (Off.seatCrHead s r) 15 0 == 0 &&
        t.fld (Off.seatCrTail s r) 15 0 == 0 && t.fld (Off.seatNrHead s r) 15 0 == 0 && t.fld (Off.seatNrTail s r) 15 0 == 0) = true

/-- It shows in the registers, the seats and the domains alone. -/
theorem Device.ShowsAbsent.congr {now : Nat} {u : Device} (h : t.ShowsAbsent s now) (hregs : u.regs = t.regs) (hseats : u.seats = t.seats)
    (hfault : u.fault = t.fault) : u.ShowsAbsent s now := by
  have hreg (o : Nat) : u.reg o = t.reg o := by rw [Device.reg, hregs, ← Device.reg]
  have hseat : u.seat s = t.seat s := by rw [Device.seat, hseats, ← Device.seat]
  have hdom : u.dom 9 s = t.dom 9 s := by rw [Device.dom, hfault, ← Device.dom]
  have hfld (o hi lo : Nat) : u.fld o hi lo = t.fld o hi lo := Device.fld_congr (hreg o)
  have hflag (o n : Nat) : u.flag o n = t.flag o n := Device.flag_congr (hreg o)
  unfold Device.ShowsAbsent Device.present at *
  simp only [hseat, hdom, hfld, hflag]
  exact h

theorem Device.seatAbsent_tracked (s : Fin 2) (h : d.present s = true) : ((d.seatAbsent s).islandTrack d).ShowsAbsent s d.transit := by
  obtain ⟨habsent, hsince, hdeclared⟩ := Device.seatAbsent_shows h
  obtain ⟨hregs, hseats, hfault⟩ := (d.seatAbsent s).islandTrack_beside d
  have hrings := (((d.showAbsent s).declareAbsence s).reclaim 9 s).ringsOff_shows s
  rw [← Device.seatAbsent_eq h] at hrings
  exact Device.ShowsAbsent.congr ⟨habsent, hsince, hdeclared, hrings⟩ hregs hseats hfault

/-! ### The obligation -/

/-- Settles O39: reclaiming the leases of a seat that goes touches neither a seat's presence nor a domain, and the other clauses are the
steps' own equations. -/
theorem seatPresence : Obligations.SeatPresence := by
  unfold Obligations.SeatPresence
  refine ⟨?absent, ?present, ?coalesce, ?frames, ?island, ?noIsland, ?stamped⟩
  case absent =>
    intro seat d w hpresent
    exact runs_of_exec (exec_to rfl rfl) (Device.seatAbsent_tracked seat hpresent)
  case present =>
    intro seat link d w hphase habsent hlink hkeep hok
    have hcomes : d.seatComes seat link = d.seatPresent seat link := by
      unfold Device.seatComes
      rcases hphase with hp | hp <;> rw [hp]
    exact runs_of_exec (exec_to rfl hcomes) (Device.seatPresent_shows habsent hlink hkeep hok)
  case coalesce =>
    intro seat ring d w ht hsince hdue hheld
    exact runs_of_exec (exec_to rfl (Device.coalesceTimer_sends ht hsince hdue hheld)) (d.sendMsix_shows seat ring)
  case frames =>
    intro seat pipe c cs y fr d w hq hc hf hready
    exact runs_of_exec (exec_to rfl rfl) (Device.frameIn_leaves hq hc hf hready)
  case island =>
    intro d w hdue hpending
    by_cases hvalid : d.swatchValid 3 = true
    · exact runs_of_exec (exec_to rfl rfl) ((if_pos hvalid).mpr (Device.island_valid hdue hvalid hpending))
    · refine runs_of_exec (exec_to rfl rfl) ((if_neg hvalid).mpr ?_)
      exact Device.island_shut hdue (Bool.eq_false_iff.mpr hvalid)
  case noIsland =>
    intro d w hdue hvalid
    exact runs_of_exec (exec_to rfl rfl) (Device.island_shut hdue hvalid)
  case stamped =>
    intro src code a b x ev d w hslot hdue
    exact runs_of_exec (exec_to rfl (Device.holdoffExpiry_stamps hslot hdue)) (Device.slot?_setSlot _ _)

end Sys2Proof.Machine
end
